-- ==== Sys2Proof/Word.lean ====
section
/-! DEFINITION. Word types of the module: bytes, register words, 64-bit words, 128-bit descriptors. -/

namespace Sys2Proof

/-- One byte of memory. -/
abbrev Byte := BitVec 8

/-- One register word (R34). -/
abbrev Word := BitVec 32

/-- One 64-bit word: a scalar, a tile word, a timestamp (R28). -/
abbrev DWord := BitVec 64

/-- One 128-bit memory descriptor (R113). -/
abbrev QWord := BitVec 128

/-- A string of bytes: an object, a datagram's payload, key material. -/
abbrev Bytes := List Byte

end Sys2Proof
end

