-- ==== Sys2Proof/Config.lean ====
section
/-! DEFINITION. What an implementation fixes and what the spec leaves open: uninterpreted constants with no body. The
cryptographic functions are named by the spec and defined by the standards it names; the model leaves them
uninterpreted (notes/assumptions/1.md). A free value is `freeValue` applied to the counter `freeCtr` of the state
(notes/assumptions/2.md). -/

namespace Sys2Proof.Config

/-- The n-th value the machine takes that the spec leaves open: random output, a value after a failure, a count of a
clock no relation ties to another. -/
opaque freeValue : Nat → BitVec 64

/-- SHA-384 (R419, R421, R527). -/
opaque sha384 : Bytes → BitVec 384
/-- One AES-256 block encryption (R157). -/
opaque aes256 : BitVec 256 → BitVec 128 → BitVec 128
/-- One AES-256 block decryption, the inverse of `aes256` under the same key (R384). -/
opaque aes256Inv : BitVec 256 → BitVec 128 → BitVec 128
/-- AES-256-GCM seal: key, nonce, associated data, plaintext to ciphertext and tag (R284, R346). -/
opaque gcmSeal : BitVec 256 → Bytes → Bytes → Bytes → Bytes × BitVec 128
/-- AES-256-GCM open: key, nonce, associated data, ciphertext, tag to plaintext if the tag verifies (R157). -/
opaque gcmOpen : BitVec 256 → Bytes → Bytes → Bytes → BitVec 128 → Option Bytes
/-- AES-256-XTS or key wrap of a record under a 512-bit key (R274, R413). -/
opaque wrap : BitVec 512 → Bytes → Bytes → Bytes × BitVec 128
/-- Unwrap of such a record, if it verifies. -/
opaque unwrap : BitVec 512 → Bytes → Bytes → BitVec 128 → Option Bytes
/-- HKDF-SHA-384: secret, salt, info to 64 bytes of output (R288, R344). -/
opaque hkdf : Bytes → Bytes → Bytes → BitVec 512
/-- AES-256-CMAC (R384, R410). -/
opaque cmac : BitVec 256 → Bytes → BitVec 128
/-- HMAC-SHA-384 (R288). -/
opaque hmac : Bytes → Bytes → BitVec 384
/-- ECDSA P-384 over SHA-384 of a message: public key, message, signature. -/
opaque ecdsaOk : Bytes → Bytes → Bytes → Bool
/-- LMS/HSS over the same digest: public key, message, signature. -/
opaque lmsOk : Bytes → Bytes → Bytes → Bool
/-- The ECDSA P-384 public key of a scalar (R194, R409). -/
opaque p384Public : Bytes → Bytes
/-- ECDH P-384 shared secret: scalar, public key. -/
opaque ecdh : Bytes → Bytes → Bytes
/-- ML-KEM-768 encapsulation against a public key with randomness: ciphertext and secret (R288). -/
opaque kemEncap : Bytes → Bytes → Bytes × Bytes
/-- The ML-KEM-768 encapsulation key of private key material (R344). -/
opaque kemPublic : BitVec 512 → Bytes
/-- ML-KEM-768 decapsulation: private key material, ciphertext to secret (R288). -/
opaque kemDecap : BitVec 512 → Bytes → Bytes
/-- The LMS/HSS public key of a 24-byte seed and 16-byte identifier (R404, R417). -/
opaque hssPublic : BitVec 512 → Bytes
/-- The alias certificate over the four measurements, the lifecycle state and the alias public key (R416); its DER form
is not given. -/
opaque aliasCert : Bytes → Bytes
/-- The DEVICE_ID and DEVICE_HSS certificates that Plostad issued (R421). -/
opaque deviceCerts : Bytes × Bytes
/-- HPKE open of a bounce envelope: recipient key, encapsulated key, info, associated data, ciphertext (R400). -/
opaque hpkeOpen : BitVec 512 → Bytes → Bytes → Bytes → Bytes → Option Bytes
/-- An ECDSA P-384 signature by a slot's key with per-signature randomness (R418, R421). -/
opaque ecdsaSign : BitVec 512 → Bytes → Bytes
/-- An LMS/HSS signature with the leaf it uses (R417). -/
opaque lmsSign : BitVec 512 → Nat → Bytes → Bytes
/-- Bit i of the binary LWE secret of the key set that a KEYTAG names; no key store of the module holds it (R232, R235). -/
opaque lweSecret : Nat → Nat → Bool
/-- The chunks of a key stream hold the refresh key of a KEYTAG's LWE secret, whose noise leaves a refreshed sample within half a
step of a table of so many entries (R233, R235, R237). -/
opaque refreshKey : Nat → Nat → Bytes → Bool
/-- The conditioner's shift register after it absorbs a raw bit: its feedback is not given (R424). -/
opaque condStep : BitVec 256 → Bool → BitVec 256
/-- CTR_DRBG with AES-256 and the derivation function, of SP 800-90A (R425, R426), over its Key and V: the state that entropy input
and nonce instantiate, and that entropy input reseeds; 64-bit word n of the next output, and the state once n words are out. -/
opaque drbgSeed : Bytes → Bytes → BitVec 384
opaque drbgReseed : BitVec 384 → Bytes → BitVec 384
opaque drbgWord : BitVec 384 → Nat → BitVec 64
opaque drbgNext : BitVec 384 → Nat → BitVec 384
/-- Whether the flash write that carries the leaf counter past a block fails (R417). -/
opaque leafWriteFails : Nat → Bool
/-- Whether the ROM's prime table holds a prime that R168 admits (R168, R169). -/
opaque romPrime : Nat → Bool
/-- Silicon revision, serial and batch identity words (R539). -/
opaque sysRev : BitVec 32
/-- First-stage public key set in the ROM, by set number: ECDSA and LMS keys (R522, R524). -/
opaque bootKeys : Nat → Bytes × Bytes
/-- HKDF-Expand with SHA-384: secret, info, length (R416, R534). -/
opaque hkdfExpand : Bytes → Bytes → Nat → Bytes
/-- The digest of the AON ROM (R527). -/
opaque romDigest : BitVec 384
/-- The unique device secret: the derivation root of the identity slots (R406, R414). -/
opaque deviceSecret : BitVec 512
/-- The address at which Daxna placed the work list of a strand, by die × 12 + strand (R253, R267). -/
opaque workList : Nat → Nat
/-- Where Daxna places the chunk bitmap, and the sketch bitmap, of a shard of a context among the banks granted for them: the
bank and the offset in it (R198, R252). -/
opaque bitmapPlace : Nat → Nat → Bool → Nat × Nat
/-- The address at which Daxna placed the share store of a shard of a context (R195). -/
opaque shareStore : Nat → Nat → Nat
/-- The address at which Daxna placed the sketch store of a context (R252). -/
opaque sketchStore : Nat → Nat
/-- Which of the context's F-strands updates a shard (R267). -/
opaque updateStrand : Nat → Nat → Nat
/-- The 64-byte line at which the inverse-count vector of a shard of a context begins (R267). -/
opaque countVector : Nat → Nat → Nat
/-- The shard whose mask sum Daxna placed at an address, by context (R209). -/
opaque sumShard : Nat → Nat → Nat
/-- The values that a combination returns of an approximate ciphertext, from its SCALE_EXP and the centred coefficients of
its phase (R218, R246): the layout of the slots' values is not given. -/
opaque approxValues : Int → List Int → Bytes
/-- The values of a TYPE 2 combination under the owner's agreed placement, from the modulus and the phase (R246). -/
opaque placedValue : Nat → Nat → Bytes
/-- The STREAM_TAG that the fold stream of a shard of a context was given (R211, R332). -/
opaque streamTag : Nat → Nat → Nat
/-- The address of the header of an admission group: context, C-strand and group (R253, R256). -/
opaque groupHeader : Nat → Nat → Nat → Nat

end Sys2Proof.Config
end

