-- ==== Sys2Proof/Machine/Table.lean ====
section
/-! DEFINITION. Sparse tables: the one representation of registers, memories and unit tables. A table is a list of
(key, value) pairs, keys strictly rising, no entry equal to what an unlisted key reads as; so equal contents are equal
lists. -/

namespace Sys2Proof.Machine

/-- A sparse table from numbers to values. -/
abbrev Table (α : Type) := List (Nat × α)

/-- The value at key `k`; an unlisted key reads as `d k`. -/
def Table.get {α : Type} (d : Nat → α) : Table α → Nat → α
  | [], k => d k
  | (j, v) :: t, k => if j = k then v else Table.get d t k

/-- Insert a pair before the first larger key. -/
def Table.ins {α : Type} : Table α → Nat → α → Table α
  | [], k, v => [(k, v)]
  | (j, w) :: t, k, v => if k < j then (k, v) :: (j, w) :: t else (j, w) :: Table.ins t k v

/-- Drop the entry at key `k`. -/
def Table.del {α : Type} : Table α → Nat → Table α
  | [], _ => []
  | (j, w) :: t, k => if j = k then Table.del t k else (j, w) :: Table.del t k

/-- Write `v` at key `k`; writing what an unlisted key reads as removes the entry. -/
def Table.put {α : Type} [DecidableEq α] (d : Nat → α) (t : Table α) (k : Nat) (v : α) : Table α :=
  if v = d k then Table.del t k else Table.ins (Table.del t k) k v

/-- Drop every entry whose key satisfies `p`: those keys read as unlisted again. -/
def Table.clear {α : Type} (p : Nat → Bool) (t : Table α) : Table α :=
  t.filter (fun e => !p e.1)

/-- Keys strictly rising above `lo`, no entry equal to what its key reads as unlisted. -/
def Table.wfFrom {α : Type} [DecidableEq α] (d : Nat → α) : Nat → Table α → Bool
  | _, [] => true
  | lo, (j, v) :: t => decide (lo ≤ j) && decide (v ≠ d j) && Table.wfFrom d (j + 1) t

/-- The canonical form of a table. -/
def Table.wf {α : Type} [DecidableEq α] (d : Nat → α) (t : Table α) : Bool :=
  Table.wfFrom d 0 t

/-- Write the values of `vs` at keys `k`, `k + 1`, … -/
def Table.putList {α : Type} [DecidableEq α] (d : Nat → α) : Table α → Nat → List α → Table α
  | t, _, [] => t
  | t, k, v :: vs => Table.putList d (Table.put d t k v) (k + 1) vs

/-- The values at keys `k` to `k + n − 1`. -/
def Table.getList {α : Type} (d : Nat → α) (t : Table α) : Nat → Nat → List α
  | _, 0 => []
  | k, n + 1 => Table.get d t k :: Table.getList d t (k + 1) n

end Sys2Proof.Machine
end

