-- ==== Sys2Proof/Machine/Regs.lean ====
section
/-! DEFINITION. The register map: where each register lies (page × 0x1_0000 + offset, R31), its reset value and how a
hub write and a hub read act on its bits (R34–R37 and the register tables of each chapter). -/

namespace Sys2Proof.Machine

/-- Register-space offset of a register (R31). -/
def regAddr (page off : Nat) : Nat := page * 0x10000 + off

namespace Reg

def sysId : Nat := regAddr 0 0x000
def sysRev : Nat := regAddr 0 0x004
def sysCaps : Nat := regAddr 0 0x008
def sysProfile : Nat := regAddr 0 0x00C
def lcState : Nat := regAddr 0 0x010
def sysResetCause : Nat := regAddr 0 0x014
def sysBoot : Nat := regAddr 0 0x018
def sysReset : Nat := regAddr 0 0x01C
def pinStat : Nat := regAddr 0 0x040
def alertSrc : Nat := regAddr 0 0x044
def alertMask : Nat := regAddr 0 0x048
def hubWdt : Nat := regAddr 1 0x100
def hubWdtKick : Nat := regAddr 1 0x104
def hubRst : Nat := regAddr 1 0x108
def pdCtl (n : Nat) : Nat := regAddr 0x010 (4 * n)
def pdStat (n : Nat) : Nat := regAddr 0x011 (4 * n)
def pdIdleTmr (n : Nat) : Nat := regAddr 0x012 (4 * n)
def pdRefuseCnt (n : Nat) : Nat := regAddr 0x013 (4 * n)
def pdRefuser (n : Nat) : Nat := regAddr 0x014 (4 * n)
def govCtl : Nat := regAddr 0x020 0x000
def govStat : Nat := regAddr 0x020 0x004
def govReason : Nat := regAddr 0x020 0x008
def govCap : Nat := regAddr 0x020 0x00C
def govSpring : Nat := regAddr 0x020 0x010
def govFill : Nat := regAddr 0x020 0x014
def govTherm : Nat := regAddr 0x020 0x018
def govLockSrc : Nat := regAddr 0x020 0x01C
def govPwr : Nat := regAddr 0x020 0x020
def govDur (i : Nat) : Nat := regAddr 0x020 (0x040 + 8 * i)
def govEnergy (c : Nat) : Nat := regAddr 0x020 (0x080 + 8 * c)
def govEnergySys : Nat := regAddr 0x020 0x100
def supStat : Nat := regAddr 0x020 0x200
def supAux : Nat := regAddr 0x020 0x204
def supCnt : Nat := regAddr 0x020 0x208
def railStat (r : Nat) : Nat := regAddr 0x020 (0x210 + 4 * r)
def entCtl : Nat := regAddr 0x030 0x000
def entStat : Nat := regAddr 0x030 0x004
def entDataLo : Nat := regAddr 0x030 0x008
def entDataHi : Nat := regAddr 0x030 0x00C
def entHealth : Nat := regAddr 0x030 0x010
def entOscEn : Nat := regAddr 0x030 0x014
def keyCmd : Nat := regAddr 0x040 0x000
def keySlotSel : Nat := regAddr 0x040 0x004
def keyAttr : Nat := regAddr 0x040 0x008
def keyPendingAttr : Nat := regAddr 0x040 0x00C
def keyStat : Nat := regAddr 0x040 0x010
def keyBuf : Nat := regAddr 0x040 0x014
def keyLeaf : Nat := regAddr 0x040 0x018
def ldCtl (d : Nat) : Nat := regAddr 0x050 (0x10 * d)
def ldImg (d : Nat) : Nat := regAddr 0x050 (0x10 * d + 4)
def ldBind (d : Nat) : Nat := regAddr 0x050 (0x10 * d + 8)
def ldStat (d : Nat) : Nat := regAddr 0x050 (0x10 * d + 0xC)
def mRom : Nat := regAddr 0x050 0x100
def mFs : Nat := regAddr 0x050 0x130
def mHub : Nat := regAddr 0x050 0x160
def mDaxna : Nat := regAddr 0x050 0x190
def mProfile : Nat := regAddr 0x050 0x1C0
def rbFs : Nat := regAddr 0x050 0x1F0
def rbHub : Nat := regAddr 0x050 0x1F4
def rbDaxna : Nat := regAddr 0x050 0x1F8
def keysetRev : Nat := regAddr 0x050 0x1FC
def psCtl : Nat := regAddr 0x050 0x800
def psStat : Nat := regAddr 0x050 0x804
def psData (i : Nat) : Nat := regAddr 0x050 (0x880 + 4 * i)
def ekCtl : Nat := regAddr 0x050 0x900
def ekStat : Nat := regAddr 0x050 0x904
def ekData (i : Nat) : Nat := regAddr 0x050 (0x920 + 4 * i)
def cxCmd : Nat := regAddr 0x060 0x100
def cxStat : Nat := regAddr 0x060 0x104
def bwGrCtl : Nat := regAddr 0x060 0x200
def bwGrStartLo : Nat := regAddr 0x060 0x204
def bwGrStartHi : Nat := regAddr 0x060 0x208
def bwGrCount : Nat := regAddr 0x060 0x20C
def bwGrStat : Nat := regAddr 0x060 0x210
def bwFailStat : Nat := regAddr 0x060 0x300
def bwFailAddrLo : Nat := regAddr 0x060 0x304
def bwFailAddrHi : Nat := regAddr 0x060 0x308
def bwFailTimeLo : Nat := regAddr 0x060 0x30C
def bwFailTimeHi : Nat := regAddr 0x060 0x310
def bwInteg : Nat := regAddr 0x060 0x340
def bwRevoked : Nat := regAddr 0x060 0x344
def bwRoll : Nat := regAddr 0x060 0x348
def ctxStat (c : Nat) : Nat := regAddr (0x080 + c) 0x000
def ctxStrandLo (c : Nat) : Nat := regAddr (0x080 + c) 0x004
def ctxStrandHi (c : Nat) : Nat := regAddr (0x080 + c) 0x008
def ctxBank (c d : Nat) : Nat := regAddr (0x080 + c) (0x010 + 4 * d)
def ctxGran (c : Nat) : Nat := regAddr (0x080 + c) 0x020
def bwCfg (c n : Nat) : Nat := regAddr (0x080 + c) (0x400 + 4 * n)
def bwGrp (c : Nat) : Nat := regAddr (0x080 + c) 0x800
def cdPage (d : Nat) : Nat := 0x100 + 0x40 * d
def strandCtl (d s : Nat) : Nat := regAddr (cdPage d) (4 * s)
def strandStat (d s : Nat) : Nat := regAddr (cdPage d) (0x040 + 4 * s)
def iqStat (d i : Nat) : Nat := regAddr (cdPage d) (0x080 + 4 * i)
def tqStatRx (d s : Nat) : Nat := regAddr (cdPage d) (0x0C0 + 4 * s)
def tqStatCq (d s : Nat) : Nat := regAddr (cdPage d) (0x100 + 4 * s)
def stCtl (d : Nat) : Nat := regAddr (cdPage d) 0x200
def stStat (d : Nat) : Nat := regAddr (cdPage d) 0x204
def frBase (d s g : Nat) : Nat := regAddr (cdPage d) (0x400 + 0x100 * s + 0x20 * g)
def bankOwner (d b : Nat) : Nat := regAddr (cdPage d + 1) (4 * b)
def bankStat (d b : Nat) : Nat := regAddr (cdPage d + 1) (0x100 + 4 * b)
def bankAcc (d : Nat) : Nat := regAddr (cdPage d + 1) 0x200
/-- I-strand counter block (R101): offset `o` of I-strand `i` of die `d`. -/
def iCnt (d i o : Nat) : Nat := regAddr (cdPage d + 3) (0x40 * i + o)
def primeEntry (d p o : Nat) : Nat := regAddr (cdPage d + 4) (0x20 * p + o)
def shtCtl (d i j : Nat) : Nat := regAddr (cdPage d + 5) (0x40 * i + 0x10 * j)
def shtElems (d i j : Nat) : Nat := regAddr (cdPage d + 5) (0x40 * i + 0x10 * j + 4)
def shtChunk (d i j : Nat) : Nat := regAddr (cdPage d + 5) (0x40 * i + 0x10 * j + 8)
def shtFlight (d i j : Nat) : Nat := regAddr (cdPage d + 5) (0x40 * i + 0x10 * j + 0xC)
def seedCtl (d i : Nat) : Nat := regAddr (cdPage d + 6) (0x100 * i)
def seedData (d i k : Nat) : Nat := regAddr (cdPage d + 6) (0x100 * i + 0x40 + 4 * k)
def ldPage (l : Nat) : Nat := 0x200 + 0x20 * l
def laneCtl (l n : Nat) : Nat := regAddr (ldPage l) (4 * n)
def laneStat (l n : Nat) : Nat := regAddr (ldPage l) (0x040 + 4 * n)
def bundleMap (l k : Nat) : Nat := regAddr (ldPage l) (0x080 + 4 * k)
def twTopo (l : Nat) : Nat := regAddr (ldPage l) 0x0C0
def twGroup (l : Nat) : Nat := regAddr (ldPage l) 0x0C4
def twLrto (l : Nat) : Nat := regAddr (ldPage l) 0x0C8
def twFoldTmo (l : Nat) : Nat := regAddr (ldPage l) 0x0CC
def estCtl (l : Nat) : Nat := regAddr (ldPage l + 1) 0x000
def estBackoff (l : Nat) : Nat := regAddr (ldPage l + 1) 0x004
def estTblLo (l : Nat) : Nat := regAddr (ldPage l + 1) 0x008
def estTblHi (l : Nat) : Nat := regAddr (ldPage l + 1) 0x00C
def estStat (l : Nat) : Nat := regAddr (ldPage l + 1) 0x010
def estRound (l c : Nat) : Nat := regAddr (ldPage l + 1) (0x100 + 4 * c)
def estGate (l c : Nat) : Nat := regAddr (ldPage l + 1) (0x140 + 4 * c)
def estSteerSh (l n : Nat) : Nat := regAddr (ldPage l + 1) (0x200 + 8 * n)
def estSteerTg (l n : Nat) : Nat := regAddr (ldPage l + 1) (0x204 + 8 * n)
/-- Estuary counter at offset `o` of light die `l` (R302). -/
def estCnt (l o : Nat) : Nat := regAddr (ldPage l + 2) o
def fstCtl (l : Nat) : Nat := regAddr (ldPage l + 3) 0x000
def fstStat (l : Nat) : Nat := regAddr (ldPage l + 3) 0x004
def fstData (l i : Nat) : Nat := regAddr (ldPage l + 3) (0x010 + 4 * i)
/-- Fold-out engine register at offset `o` (R337). -/
def fo (l e o : Nat) : Nat := regAddr (ldPage l + 3) (0x100 + 0x20 * e + o)
/-- Tideway counter at offset `o` (R339). -/
def twCnt (l o : Nat) : Nat := regAddr (ldPage l + 4) o
def rgCtl (l : Nat) : Nat := regAddr (ldPage l + 5) 0x000
def rgStat (l : Nat) : Nat := regAddr (ldPage l + 5) 0x004
def rgData (l i : Nat) : Nat := regAddr (ldPage l + 5) (0x010 + 4 * i)
def cnCtl (l : Nat) : Nat := regAddr (ldPage l + 5) 0x100
def cnStat (l : Nat) : Nat := regAddr (ldPage l + 5) 0x104
def cnData (l i : Nat) : Nat := regAddr (ldPage l + 5) (0x110 + 4 * i)
def twDb (l : Nat) : Nat := regAddr (ldPage l + 5) 0x200
def twRto (l : Nat) : Nat := regAddr (ldPage l + 5) 0x210
def twCc (l : Nat) : Nat := regAddr (ldPage l + 5) 0x214
def twPause (l : Nat) : Nat := regAddr (ldPage l + 5) 0x218
def twCnBaseLo (l : Nat) : Nat := regAddr (ldPage l + 5) 0x220
def twCnBaseHi (l : Nat) : Nat := regAddr (ldPage l + 5) 0x224
def twRgBaseLo (l : Nat) : Nat := regAddr (ldPage l + 5) 0x228
def twRgBaseHi (l : Nat) : Nat := regAddr (ldPage l + 5) 0x22C
/-- Connection counter at offset `o` (R374). -/
def cnCnt (l o : Nat) : Nat := regAddr (ldPage l + 6) o
def hbmScrubCtl : Nat := regAddr 0x300 0x000
def hbmCe (k : Nat) : Nat := regAddr 0x300 (0x100 + 0x10 * k)
def hbmUe (k : Nat) : Nat := regAddr 0x300 (0x104 + 0x10 * k)
def hbmPass (k : Nat) : Nat := regAddr 0x300 (0x108 + 0x10 * k)
def evqHead (q : Nat) : Nat := regAddr 0x380 (0x40 * q)
def evqTail (q : Nat) : Nat := regAddr 0x380 (0x40 * q + 0x04)
def evqStat (q : Nat) : Nat := regAddr 0x380 (0x40 * q + 0x08)
def evqDrop (q : Nat) : Nat := regAddr 0x380 (0x40 * q + 0x0C)
def evqCtl (q : Nat) : Nat := regAddr 0x380 (0x40 * q + 0x10)
def dbgCtl : Nat := regAddr 0x3F0 0x000
def dbgTileSel : Nat := regAddr 0x3F0 0x004

end Reg

/-- How one register behaves: reset value, bits a plain write sets (RW), bits a write of 1 clears (W1C), bits a read
clears (RC), and whether it reads as zero (WO). -/
structure RegInfo where
  reset : Word
  rw    : Word
  w1c   : Word
  rc    : Word
  wo    : Bool
deriving DecidableEq, Repr

/-- A read-only register. -/
def RegInfo.ro (reset : Word) : RegInfo := ⟨reset, 0, 0, 0, false⟩
/-- A register with RW bits `rw`. -/
def RegInfo.rwm (reset rw : Word) : RegInfo := ⟨reset, rw, 0, 0, false⟩
/-- A counter that a read clears. -/
def RegInfo.cnt : RegInfo := ⟨0, 0, 0, 0xFFFFFFFF, false⟩
/-- A register with RW and W1C bits. -/
def RegInfo.wc (reset rw w1c : Word) : RegInfo := ⟨reset, rw, w1c, 0, false⟩
/-- A write-only register. -/
def RegInfo.woReg : RegInfo := ⟨0, 0, 0, 0, true⟩

/-- The SYS page (R4, R498, R499, R539). -/
def infoSys (o : Nat) : Option RegInfo :=
  if o = 0x000 then some (.ro 0x00A90001)
  else if o = 0x004 then some (.ro 0)
  else if o = 0x008 then some (.ro 0x0020404C)
  else if o = 0x00C then some (.ro 0)
  else if o = 0x010 then some (.ro 0)
  else if o = 0x014 then some (.wc 1 0 0x7FF)
  else if o = 0x018 then some (.ro 0)
  else if o = 0x01C then some .woReg
  else if o = 0x040 then some (.ro 0)
  else if o = 0x044 then some (.ro 0)
  else if o = 0x048 then some (.rwm 0x7D 0x7F)
  else none

/-- The CRU page (R484). -/
def infoCru (o : Nat) : Option RegInfo :=
  if o = 0x100 then some (.wc 0x400007D0 0x4000FFFF 0x80000000)
  else if o = 0x104 ∨ o = 0x108 then some .woReg
  else none

/-- KIND of power domain n (R436). -/
def pdKind (n : Nat) : Nat :=
  if n < 56 then (if n % 14 < 12 then 0 else 1)
  else if n = 56 then 2 else if n = 57 then 3 else if n = 58 then 4 else if n = 63 then 6 else 5

/-- The PWR pages 0x010 + `p` (R448), on the part that has every light die. -/
def infoPwr (p o : Nat) : Option RegInfo :=
  if o % 4 = 0 ∧ o < 0x100 then
    let n := o / 4
    if p = 0 then
      some (.rwm (if n = 56 then 0x01000000 else if n = 58 then 0 else 0x02000000) 0x83000000)
    else if p = 1 then some (.ro (BitVec.ofNat 32 (0x60000000 + pdKind n * 0x01000000)))
    else if p = 2 then some (.rwm 0x00640064 0xFFFFFFFF)
    else if p = 3 then some .cnt
    else if p = 4 then some (.ro 0)
    else none
  else none

/-- The GOV page (R469, R518), at the profile defaults. -/
def infoGov (o : Nat) : Option RegInfo :=
  if o = 0x000 then some (.rwm 0x98000000 0xBF000000)
  else if o = 0x004 then some (.ro 0x7C000000)
  else if o = 0x008 then some (.wc 0 0 0x007F0000)
  else if o = 0x00C then some (.rwm 0x08FC07D0 0xFFFFFFFF)
  else if o = 0x010 then some (.rwm 0x000001F4 0x0000FFFF)
  else if o = 0x014 then some (.rwm 0x3C002710 0xFF00FFFF)
  else if o = 0x018 then some (.rwm 0x64000000 0xFF000000)
  else if o = 0x01C ∨ o = 0x020 then some (.ro 0)
  else if o % 4 = 0 ∧ 0x040 ≤ o ∧ o < 0x078 then some (.ro 0)
  else if o % 4 = 0 ∧ 0x080 ≤ o ∧ o < 0x108 then some (.ro 0)
  else if o = 0x200 ∨ o = 0x204 ∨ o = 0x208 then some (.ro 0)
  else if o % 4 = 0 ∧ 0x210 ≤ o ∧ o < 0x250 then some (.ro 0)
  else none

/-- The ENT page (R433). -/
def infoEnt (o : Nat) : Option RegInfo :=
  if o = 0x000 then some (.ro 0)
  else if o = 0x004 then some (.wc 0x100000FF 0 0x08000000)
  else if o = 0x008 ∨ o = 0x00C ∨ o = 0x010 then some (.ro 0)
  else if o = 0x014 then some (.rwm 0xFF 0xFF)
  else none

/-- The KEY page (R408). -/
def infoKey (o : Nat) : Option RegInfo :=
  if o = 0x000 then some (.rwm 0 0x70000000)
  else if o = 0x004 then some (.rwm 0 0xFF)
  else if o = 0x008 then some (.ro 0)
  else if o = 0x00C then some (.ro 0)
  else if o = 0x010 then some (.ro 0)
  else if o = 0x014 then some (.rwm 0 0x03FFFFFF)
  else if o = 0x018 then some (.ro 0)
  else none

/-- The MEAS page (R103, R182, R240, R527). -/
def infoMeas (o : Nat) : Option RegInfo :=
  if o < 0x40 then
    (if o % 0x10 = 0 then some (.rwm 0 0x0000F00F)
     else if o % 0x10 = 4 ∨ o % 0x10 = 8 then some (.rwm 0 0x03FFFFFF)
     else if o % 0x10 = 0xC then some (.ro 0) else none)
  else if o % 4 = 0 ∧ 0x100 ≤ o ∧ o < 0x200 then some (.ro 0)
  else if o = 0x800 then some (.rwm 0 0x0C0F00FF)
  else if o = 0x804 then some (.ro 0)
  else if o % 4 = 0 ∧ 0x880 ≤ o ∧ o < 0x900 then some (.rwm 0 0xFFFFFFFF)
  else if o = 0x900 then some (.rwm 0 0x0C0F003F)
  else if o = 0x904 then some (.ro 0)
  else if o % 4 = 0 ∧ 0x920 ≤ o ∧ o < 0x940 then some (.rwm 0 0xFFFFFFFF)
  else none

/-- The BWM page (R378, R387, R391). -/
def infoBwm (o : Nat) : Option RegInfo :=
  if o = 0x100 then some (.rwm 0 0x7000000F)
  else if o = 0x104 then some (.ro 0)
  else if o = 0x200 then some (.rwm 0 0x7F000000)
  else if o = 0x204 then some (.rwm 0 0xFFFFFFFF)
  else if o = 0x208 then some (.rwm 0 0x0000FFFF)
  else if o = 0x20C then some (.rwm 1 0x0001FFFF)
  else if o = 0x210 then some (.ro 0)
  else if o = 0x300 then some (.wc 0 0 0x80000000)
  else if o % 4 = 0 ∧ 0x304 ≤ o ∧ o ≤ 0x310 then some (.ro 0)
  else if o = 0x340 ∨ o = 0x344 ∨ o = 0x348 then some .cnt
  else none

/-- A CTX page (R370, R377). -/
def infoCtx (o : Nat) : Option RegInfo :=
  if o = 0x000 ∨ o = 0x004 ∨ o = 0x008 ∨ o = 0x020 then some (.ro 0)
  else if o % 4 = 0 ∧ 0x010 ≤ o ∧ o < 0x020 then some (.ro 0)
  else if o % 4 = 0 ∧ 0x400 ≤ o ∧ o < 0x800 then some (.rwm 0 0x800003FF)
  else if o = 0x800 then some (.rwm 0 0x3FFF7FFF)
  else none

/-- Page `p` of a compute die's span of 0x40 pages (R35, R84, R87, R94, R95, R99, R101, R169, R197, R206, R478). -/
def infoCd (p o : Nat) : Option RegInfo :=
  if o % 4 ≠ 0 then none
  else if p = 0 then
    if o < 0x030 then some (.rwm 0 0x90000000)
    else if 0x040 ≤ o ∧ o < 0x070 then
      some (.ro (if o < 0x050 then 0 else if o < 0x068 then 0x04000000 else 0x08000000))
    else if 0x080 ≤ o ∧ o < 0x090 then some (.wc 0x20002000 0 0x80000000)
    else if 0x0C0 ≤ o ∧ o < 0x0F0 then some (.wc 0x20000800 0 0x80000000)
    else if 0x100 ≤ o ∧ o < 0x130 then some (.wc 0x20000100 0 0x80000000)
    else if o = 0x200 then some (.rwm 0 0x7000001F)
    else if o = 0x204 then some (.ro 0)
    else if 0x400 ≤ o ∧ o < 0x1000 then
      (if o % 0x20 = 0 then some (.wc 0 0 0x80000000) else some (.ro 0))
    else none
  else if p = 1 then
    if o < 0x060 then some (.rwm 0x0000F000 0x0000F70F)
    else if 0x100 ≤ o ∧ o < 0x160 then some ⟨0x20000000, 0, 0x90000000, 0x00FFFFFF, false⟩
    else if o = 0x200 then some (.ro 0)
    else none
  else if p = 3 then
    if o < 0x100 then
      (if o % 0x40 < 0x10 then some (.ro 0) else if o % 0x40 ≤ 0x20 then some .cnt else none)
    else none
  else if p = 4 then (if o < 0x800 then some (.ro 0) else none)
  else if p = 5 then
    if o < 0x100 then
      (if o % 0x10 = 0 then some (.rwm 0 0xC0FFFFFF)
       else if o % 0x10 = 4 then some (.rwm 0 0x1FFFFFFF)
       else if o % 0x10 = 8 then some (.rwm 0x00001000 0x031F3FFF)
       else some (.ro 0))
    else none
  else if p = 6 then
    if o < 0x400 then
      (if o % 0x100 = 0 then some (.rwm 0 0x00000FFF)
       else if 0x40 ≤ o % 0x100 ∧ o % 0x100 < 0x80 then some .woReg else none)
    else none
  else none

/-- Page `p` of a light die's span of 0x20 pages (R301, R302, R305–R339, R342–R374). -/
def infoLd (p o : Nat) : Option RegInfo :=
  if o % 4 ≠ 0 then none
  else if p = 0 then
    if o < 0x040 then some (.rwm 0x08001000 0x1800FF00)
    else if o < 0x080 then some ⟨0x0F000000, 0, 0, 0x00FFFFFF, false⟩
    else if o < 0x0C0 then some (.ro 0)
    else if o = 0x0C0 ∨ o = 0x0C4 then some (.ro 0)
    else if o = 0x0C8 then some (.rwm 3 0x3F)
    else if o = 0x0CC then some (.rwm 0x32 0x3FF)
    else none
  else if p = 1 then
    if o = 0x000 then some (.rwm 0x0000B86A 0x8000FFFF)
    else if o = 0x004 then some (.rwm 0x00C80014 0xFFFFFFFF)
    else if o = 0x008 ∨ o = 0x00C ∨ o = 0x010 then some (.ro 0)
    else if 0x100 ≤ o ∧ o < 0x140 then some (.rwm 0 0xFFFFFFFF)
    else if 0x140 ≤ o ∧ o < 0x180 then some (.rwm 0 0x8000010F)
    else if 0x200 ≤ o ∧ o < 0x400 then
      (if o % 8 = 0 then some (.rwm 0 0x8FFFFFFF) else some (.rwm 0 0xF))
    else none
  else if p = 2 then
    if o < 0x020 then some (.ro 0) else if o ≤ 0x070 then some .cnt else none
  else if p = 3 then
    if o = 0x000 then some (.rwm 0 0x6000FFFF)
    else if o = 0x004 then some (.ro 0)
    else if 0x010 ≤ o ∧ o < 0x020 then some (.rwm 0 0xFFFFFFFF)
    else if 0x100 ≤ o ∧ o < 0x300 then
      (if o % 0x20 = 0x00 then some (.rwm 0 0x3E0FFFFF)
       else if o % 0x20 = 0x04 then some (.rwm 0 0xFFFFF000)
       else if o % 0x20 = 0x08 then some (.rwm 0 0x0000FFFF)
       else if o % 0x20 = 0x0C then some (.rwm 0 0xFFFFFFFF)
       else if o % 0x20 = 0x10 then some (.rwm 0 0xFFC03FFF)
       else if o % 0x20 = 0x14 then some (.ro 0) else none)
    else none
  else if p = 4 then
    if o < 0x010 then some (.ro 0) else if o ≤ 0x044 then some .cnt else none
  else if p = 5 then
    if o = 0x000 then some (.rwm 0 0x700FFFFF)
    else if o = 0x004 then some (.ro 0)
    else if 0x010 ≤ o ∧ o < 0x030 then some (.rwm 0 0xFFFFFFFF)
    else if o = 0x100 then some (.rwm 0 0x7000FFFF)
    else if o = 0x104 then some (.ro 0)
    else if 0x110 ≤ o ∧ o < 0x130 then some (.rwm 0 0xFFFFFFFF)
    else if o = 0x200 then some .woReg
    else if o = 0x210 then some (.rwm 0x8 0x7F)
    else if o = 0x214 then some (.rwm 0x08100100 0xFFFFFFFF)
    else if o = 0x218 then some (.rwm 0xA 0x3FF)
    else if 0x220 ≤ o ∧ o < 0x230 then some (.ro 0)
    else none
  else if p = 6 then
    if o < 0x010 then some (.ro 0) else if o ≤ 0x040 then some .cnt else none
  else none

/-- The HBM page (R59, R543). -/
def infoHbm (o : Nat) : Option RegInfo :=
  if o = 0 then some (.rwm 0x80180000 0x80FF0000)
  else if 0x100 ≤ o ∧ o < 0x1C0 then
    (if o % 0x10 = 0 ∨ o % 0x10 = 4 then some .cnt else if o % 0x10 = 8 then some (.ro 0) else none)
  else none

/-- The EVQ page (R483). -/
def infoEvq (o : Nat) : Option RegInfo :=
  if 0x100 ≤ o then none
  else if o % 0x40 = 0x00 then some (.rwm 0 0xFFF)
  else if o % 0x40 = 0x04 then some (.ro 0)
  else if o % 0x40 = 0x08 then some (.wc 0 0 0x80000000)
  else if o % 0x40 = 0x0C then some .cnt
  else if o % 0x40 = 0x10 then some (.rwm 1 0x80000FFF)
  else none

/-- The DBG page (R93); the tile window 0x8000–0xFFFF is read-only. -/
def infoDbg (o : Nat) : Option RegInfo :=
  if o = 0 then some (.rwm 0 1)
  else if o = 4 then some (.rwm 0 0x3FFF0000)
  else if 0x8000 ≤ o ∧ o % 4 = 0 then some (.ro 0)
  else none

/-- The pages that R35 allots, and the spans of the dies. -/
def pageAllotted (p : Nat) : Bool :=
  p = 0 ∨ p = 1 ∨ (0x010 ≤ p ∧ p ≤ 0x020) ∨ p = 0x030 ∨ p = 0x040 ∨ p = 0x050 ∨ p = 0x060 ∨
  (0x080 ≤ p ∧ p ≤ 0x08F) ∨ (0x100 ≤ p ∧ p < 0x280) ∨ p = 0x300 ∨ p = 0x380 ∨ p = 0x3F0

/-- The register at a register-space offset, if its chapter defines one there (R37). -/
def regInfo (a : Nat) : Option RegInfo :=
  let p := a / 0x10000
  let o := a % 0x10000
  if p = 0 then infoSys o
  else if p = 1 then infoCru o
  else if 0x010 ≤ p ∧ p ≤ 0x01F then infoPwr (p - 0x010) o
  else if p = 0x020 then infoGov o
  else if p = 0x030 then infoEnt o
  else if p = 0x040 then infoKey o
  else if p = 0x050 then infoMeas o
  else if p = 0x060 then infoBwm o
  else if 0x080 ≤ p ∧ p ≤ 0x08F then infoCtx o
  else if 0x100 ≤ p ∧ p < 0x200 then infoCd ((p - 0x100) % 0x40) o
  else if 0x200 ≤ p ∧ p < 0x280 then infoLd ((p - 0x200) % 0x20) o
  else if p = 0x300 then infoHbm o
  else if p = 0x380 then infoEvq o
  else if p = 0x3F0 then infoDbg o
  else none

/-- What a register holds at reset; an undefined offset reads zero (R37). -/
def regReset (a : Nat) : Word :=
  match regInfo a with
  | some i => i.reset
  | none => 0

end Sys2Proof.Machine
end

