-- ==== Sys2Proof/Syntax.lean ====
section
/-! DEFINITION. The commands of the module: one constructor of `Instr` per row of spec/opcode_table.json, with the
operands the row's rule gives it. What the physical world supplies (a level, a reading, an acknowledgement, the bits of
a frame) is an operand. -/

namespace Sys2Proof

/-- The world a hub core runs in (R470). -/
inductive World where
  | secure
  | normal
deriving DecidableEq, Repr

/-- One hub register access: the core, its world, the byte offset in register space (page × 0x1_0000 + offset, R31)
and the width in bytes (R34). -/
structure Acc where
  core  : Fin 16
  world : World
  addr  : Nat
  width : Nat
deriving DecidableEq, Repr

/-- Where a stage program runs: compute die, strand 0–11, stage (R61). -/
structure Loc where
  die    : Fin 4
  strand : Fin 12
  stage  : Fin 8
deriving DecidableEq, Repr

/-- The operand fields of a Grirad instruction word (R133). -/
structure Fields where
  dst  : BitVec 5
  sa   : BitVec 5
  sb   : BitVec 5
  sc   : BitVec 5
  mod  : BitVec 12
  imm  : BitVec 24
deriving DecidableEq, Repr

/-- Who asks for a memory access (R33). -/
inductive Requester where
  /-- A strand of a compute die. -/
  | strand (die : Fin 4) (strand : Fin 12)
  /-- A DMA access under a descriptor's context, from the engine of CDd (die d) or of LDl (die 4 + l). -/
  | dma (die : Fin 8) (ctx : Fin 16)
  /-- A hub core in the given world, acting for the given key index (a context 0–15 or HUB 16, R383). -/
  | hub (world : World) (key : Fin 19)
  /-- The Tideway connection engine of a light die, for a registered region. -/
  | tideway (ld : Fin 4) (region : Fin 1048576)
  /-- An Estuary slice. -/
  | estuary (ld : Fin 4)
deriving DecidableEq, Repr

/-- An AIP datagram (R282): the header fields, the payload bytes as they stand on the wire, the tag, and the UDP
payload length it arrived with. -/
structure Aip where
  version : Byte
  typ     : Byte
  subtype : Byte
  status  : Byte
  sid     : BitVec 64
  round   : Word
  shard   : BitVec 24
  zero19  : Byte
  offset  : Word
  length  : BitVec 16
  seq     : BitVec 48
  payload : Bytes
  tag     : QWord
  udpLen  : Nat
deriving DecidableEq, Repr

/-- The return path of a client (R291). -/
structure RetPath where
  lane : BitVec 6
  ipv6 : Bool
  mac  : BitVec 48
  port : BitVec 16
  ip   : QWord
deriving DecidableEq, Repr

/-- How a received UDP checksum stands (R278). -/
inductive UdpSum where
  | correct
  | wrong
  | zero
deriving DecidableEq, Repr

/-- A received Ethernet frame, with the facts the checks of R278 decide on. -/
structure EthFrame where
  lane      : Fin 64
  /-- FEC codewords of the frame that were corrected (R306). -/
  fec       : Nat
  fecOk     : Bool
  fcsOk     : Bool
  size      : Nat
  dstMac    : BitVec 48
  vids      : List (BitVec 12)
  etherType : BitVec 16
  /-- The address that an ARP request or a Neighbor Solicitation asks for (R279). -/
  asks      : Option QWord
  ipOk      : Bool
  ipFrag    : Bool
  dstIp     : QWord
  proto     : Byte
  udpPort   : BitVec 16
  udpLenOk  : Bool
  udpSum    : UdpSum
  ret       : RetPath
  aip       : Aip
deriving DecidableEq, Repr

/-- A Tideway link header (R309) with the checks a receiver makes on the frame (R310). -/
structure LinkHdr where
  seq    : BitVec 24
  ack    : BitVec 24
  cvc    : Fin 12
  vc     : Fin 12
  credit : BitVec 16
  /-- HCRC, FCRC and the terminate block are right and no uncorrectable codeword overlaps the frame (R310). -/
  good   : Bool
  /-- FEC codewords of the frame that were corrected (R306). -/
  fec    : Nat
deriving DecidableEq, Repr

/-- A frame received on a lane, but for its body. -/
structure LaneFrame where
  lane : Fin 64
  h    : LinkHdr
deriving DecidableEq, Repr

/-- A NOTICE received on a lane, with the lane of the bundle that its body names (R309). -/
structure NoticeFrame where
  lane  : Fin 64
  h     : LinkHdr
  named : Fin 16
deriving DecidableEq, Repr

/-- A Tideway packet: the 32-byte header of R311 with its type bytes 16–31, and the payload. -/
structure Packet where
  ptype   : Byte
  cls     : BitVec 2
  hops    : BitVec 6
  dst     : BitVec 14
  src     : BitVec 14
  group   : Word
  fields  : QWord
  payload : Bytes
deriving DecidableEq, Repr

/-- Header of a PMP request (R473): the TCP connection, the management identity, the REQ_ID and byte 7. -/
structure PmpReq where
  conn  : Fin 8
  ident : Nat
  reqId : BitVec 64
  ctx   : Byte
deriving DecidableEq, Repr

/-- A signed object of flash or of PROFILE.SET (R522). -/
structure SignedObj where
  header : Bytes
  body   : Bytes
  ecdsa  : Bytes
  lms    : Bytes
deriving DecidableEq, Repr

/-- An object with both owner signatures (R238, R245, R262). -/
structure Sigs where
  ecdsa : Bytes
  lms   : Bytes
deriving DecidableEq, Repr

/-- A bounce envelope (R400). -/
structure Envelope where
  header : Bytes
  cipher : Bytes
  ecdsa  : Bytes
  lms    : Bytes
deriving DecidableEq, Repr

/-- One wrapped model record (R274). -/
structure WrappedRec where
  header : Bytes
  cipher : Bytes
  tag    : QWord
deriving DecidableEq, Repr

/-- A unit that refuses an entry for a reason that no register shows (R437, R448): a stage with an access outstanding, a
hub core that does not wait, an outgoing level not acknowledged, an HBM controller with a request queued. -/
inductive PdUnit where
  | stage (g : Fin 8)
  | core (c : Fin 16)
  | level (k : Fin 5)
  | hbm (k : Fin 12)
deriving DecidableEq, Repr

/-- A wake source (R448): a stage's outgoing level, light on a lane, an HBM controller, a register access of a hub core, a
bank access, a queue-not-empty level, a channel beat, a key-port or entropy-port answer. -/
inductive PdSource where
  | stage (g : Fin 8)
  | lane (n : Fin 64)
  | hbm (k : Fin 12)
  | access (core : Fin 16)
  | bank (b : Fin 24)
  | queue (q : Fin 3)
  | beat (g : Fin 8)
  | answer (port : Fin 2)
deriving DecidableEq, Repr

/-- What an entry of a power domain meets (R437, R440, R441): a wake level present at step 1; at step 2, every unit ready, a
unit that refuses for a reason no register shows, a wake level, or a write of HOLD = 1 by a hub core. -/
inductive PdReady where
  | level
  | ready
  | refuse (u : PdUnit)
  | wake (w : PdSource)
  | hold (core : Fin 16)
deriving DecidableEq, Repr

/-- A write of a bit of PD_CTL[n] by a hub core (R34, R448). -/
structure PdCall where
  n    : Fin 64
  core : Fin 16
deriving DecidableEq, Repr

/-- The oscillators that fail the startup test, by the test they fail (R423, R433). -/
structure OscMask where
  rct : BitVec 8
  apt : BitVec 8
deriving DecidableEq, Repr

/-- The tests that the interleaved stream fails in the startup test (R423, R433). -/
structure CombTest where
  rct : Bool
  apt : Bool
deriving DecidableEq, Repr

/-- The causes of a warm reset (R520, R539). -/
inductive WarmCause where
  | pin
  | cmd
  | lifecycle
  | orderly
  | brownout
  | oc
  | rail
  | thermal
deriving DecidableEq, Repr

/-- One answered PMBus poll (R516): STATUS_WORD's four fault bits and READ_VOUT in mV. -/
structure PmbusAnswer where
  ov : Bool
  uv : Bool
  oc : Bool
  ot : Bool
  mv : BitVec 16
deriving DecidableEq, Repr

/-- Measured timing margin of a die (R452). -/
inductive Margin where
  | belowFloor
  | inBand
  | aboveCeilingHour
deriving DecidableEq, Repr

/-- What work of a round is done (R189). -/
inductive RoundWork where
  | opening
  | collect
  | expand
  | seal
  | fold
  | update
deriving DecidableEq, Repr

/-- What has reached a module's Daxna over its attested connections when a work ends: the coordinator's GRAPH_SEED (R192),
group seeds by partner (R212), inverse-count vectors by shard (R267). -/
structure RoundNews where
  graphSeed : Option Bytes
  gseeds    : List (BitVec 14 × Bytes)
  counts    : List (BitVec 24 × Bytes)
deriving DecidableEq, Repr

/-- A work of a round that ends, with what has reached the module by then. -/
structure WorkEnd where
  work : RoundWork
  news : RoundNews
deriving DecidableEq, Repr

/-- A round request: the descriptor (R187) and, for each shard entry, the cohort list (R185). -/
structure RoundReq where
  desc    : Bytes
  cohorts : List (List QWord)
deriving DecidableEq, Repr

/-- A stream of the root's that has expired, and the late hosts that a message from the root names (R214). -/
structure EpochEnd where
  tag  : BitVec 16
  late : List (BitVec 14)
deriving DecidableEq, Repr

/-- A frame in a light die's miss buffer, by its place (R298). -/
structure MissSlot where
  ld : Fin 4
  n  : Fin 256
deriving DecidableEq, Repr

/-- Which test TEST.RUN names (R479, R480). -/
inductive TestSel where
  | die (d : Fin 4) (op : BitVec 3) (target : BitVec 5)
  | hbmRetrain (stack : Fin 12)
  | laneRecal (lane : Fin 64)
  | kat (engine : Fin 3)
deriving DecidableEq, Repr

/-- The engines of the known-answer tests (R480, R544). -/
inductive KatEngine where
  | keyStore
  | publicKey
  | breakwater
deriving DecidableEq, Repr

/-- How a hub memory access or a DMA transfer reads or writes (R542): the bytes to store for a write. -/
inductive MemOp where
  | read (len : Nat)
  | write (data : Bytes)
deriving DecidableEq, Repr

/-- The commands of the module, one per row of the opcode table. -/
inductive Instr where
  -- resets, supplies, boot, tamper
  | coldReset
  | aonPowerGood (tamperLow : Bool)
  | pinSample (profileSel : Fin 4) (slotId : Fin 64)
  | auxLost
  | mainPresent (mv10 : BitVec 16)
  | mainLow (mv10 : BitVec 16)
  | mainHigh (mv10 : BitVec 16)
  | mainOvercurrent
  | mainAbsent (mv10 : BitVec 16)
  | mainGoodFall
  | powerUpStart
  | railGood (r : Fin 16) (mv : BitVec 16)
  | railTimeout (r : Fin 16)
  | powerDownStep
  | pmbusPoll (r : Fin 16) (answer : Option PmbusAnswer)
  | resetPin (lowNs : Nat)
  | warmReset (cause : WarmCause)
  | sysResetWrite (a : Acc) (v : Word)
  | bootStep
  | tamper (lowSamples : Nat)
  | coolantChange (high : Bool) (heldUs : Nat)
  -- governor
  | lockThrottle (lowNs : Nat)
  | lockThrottleRelease (highUs : Nat)
  | thermalTrip (sensor : Fin 44) (tempC : Nat)
  | thermalSample (readings : List Byte)
  | govDecision
  | powerSample (mainW : Nat)
  | sustainedStep
  | springLimitReached
  | vcoreTrim (d : Fin 4) (m : Margin)
  | avsAck (settled : Bool)
  | avsTimeout
  | govClrReg
  | fillerTimeout (l : Loc)
  | lockDemandRefresh
  | lockDemandReceive (src : BitVec 14) (point : Byte) (reason : Byte) (lseq : Word)
  | lockReleaseReceive (src : BitVec 14) (lseq : Word)
  | lockEntryExpire (src : BitVec 14)
  | lockRiseHoldoff
  -- power domains
  | pdIdleTimeout (n : Fin 64) (r : PdReady)
  | pdDeepTimeout (n : Fin 64) (r : PdReady)
  | pdEnter (n : PdCall) (r : PdReady)
  | pdEntryDone (n : Fin 64)
  | pdHold (n : Fin 64) (hold : Bool) (core : Fin 16)
  | pdWake (n : Fin 64) (unit : Fin 16) (id : Byte)
  | pdWakeDone (n : Fin 64)
  | pdWakeTimeout (n : Fin 64)
  | pdClrFail (n : PdCall)
  -- register accesses
  | registerWrite (a : Acc) (v : Word)
  | pairLoRead (a : Acc)
  | pairHiRead (a : Acc)
  | pairLoWrite (a : Acc) (v : Word)
  | pairHiWrite (a : Acc) (v : Word)
  | readClear (a : Acc)
  -- banks, DMA, aliases, error code, patrol
  | bankOwnerWrite (a : Acc) (v : Word)
  | bankFreeClear (a : Acc)
  | bankHandoverDrainDone (d : Fin 4) (b : Fin 24)
  | bankClearDone (d : Fin 4) (b : Fin 24)
  | hubMemoryAccess (world : World) (key : Fin 19) (addr : Nat) (op : MemOp) (busyLine : Option Nat)
  | dmaTransfer (d : Fin 4) (ctx : Fin 16) (src dst : Nat) (len : Nat)
  | aliasWrite (r : Requester) (addr : Nat) (data : Bytes) (busy : Bool)
  | aliasExchange (r : Requester) (addr : Nat) (data : Bytes) (busy : Bool)
  | eccWriteback (wordAddr : Nat) (otherWrite : Bool)
  | patrolLine (d : Fin 4) (b : Fin 24) (line : Fin 1048576) (busy : Bool)
  | patrolPass (d : Fin 4) (b : Fin 24) (ms : Nat)
  | hbmPatrolLine (stack : Fin 12) (saddr : Nat)
  | hbmPhyRetrain (stack : Fin 12) (idle : Bool)
  -- HBM and Breakwater
  | hbmLineRead (r : Requester) (addr : Nat)
  | hbmLineWrite (r : Requester) (addr : Nat) (data : Bytes)
  | treeNodeWriteback (d : Fin 4) (level : Fin 6) (node : Nat)
  -- strand control, channels, queues, recipes
  | strandEnable (d : Fin 4) (s : Fin 12) (on : Bool)
  | strandDrain (d : Fin 4) (s : Fin 12)
  | strandDrainDone (d : Fin 4) (s : Fin 12)
  | strandSreset (d : Fin 4) (s : Fin 12)
  | sresetDone (d : Fin 4) (s : Fin 12)
  | faultRecordClear (l : Loc)
  | tileArrive (l : Loc) (badWord : Bool)
  | creditReturn (l : Loc)
  | tileForward (l : Loc)
  | iqPublish (i : Fin 16)
  | iqFreeReturn (i : Fin 16)
  | iqZeroDone (i : Fin 16)
  | recipeLoad (d : Fin 4)
  | recipeLoadDone (d : Fin 4)
  | recipeUnbind (d : Fin 4)
  | twiddlePrepareDone (l : Loc) (q : Fin 8)
  -- Grirad: modular vector and transforms
  | vaddQ (l : Loc) (f : Fields)
  | vsubQ (l : Loc) (f : Fields)
  | vmulQ (l : Loc) (f : Fields)
  | vmacQ (l : Loc) (f : Fields)
  | vnegQ (l : Loc) (f : Fields)
  | vaddZ32 (l : Loc) (f : Fields)
  | vsubZ32 (l : Loc) (f : Fields)
  | vaddZ64 (l : Loc) (f : Fields)
  | vsubZ64 (l : Loc) (f : Fields)
  | vsplat (l : Loc) (f : Fields)
  | ntt (l : Loc) (f : Fields)
  | intt (l : Loc) (f : Fields)
  | perm (l : Loc) (f : Fields)
  | bconv (l : Loc) (f : Fields)
  | resc (l : Loc) (f : Fields)
  | modx (l : Loc) (f : Fields)
  -- Grirad: stream and memory
  | ldt (l : Loc) (f : Fields)
  | stt (l : Loc) (f : Fields)
  | qpop (l : Loc) (f : Fields)
  | send (l : Loc) (f : Fields)
  | recv (l : Loc) (f : Fields)
  -- Grirad: fused
  | ksw (l : Loc) (f : Fields)
  | rfr (l : Loc) (f : Fields)
  | extr (l : Loc) (f : Fields)
  | pack (l : Loc) (f : Fields)
  | cmrg (l : Loc) (f : Fields)
  | seal (l : Loc) (f : Fields)
  | fold (l : Loc) (f : Fields)
  | bsetx (l : Loc) (f : Fields)
  -- Grirad: crypto and float
  | prgx (l : Loc) (f : Fields)
  | aeadd (l : Loc) (f : Fields)
  | dpn (l : Loc) (f : Fields)
  | fmaF32 (l : Loc) (f : Fields)
  | cvt (l : Loc) (f : Fields)
  -- Grirad: scalar
  | sli (l : Loc) (f : Fields)
  | slu (l : Loc) (f : Fields)
  | sadd (l : Loc) (f : Fields)
  | ssub (l : Loc) (f : Fields)
  | smul (l : Loc) (f : Fields)
  | sand (l : Loc) (f : Fields)
  | sor (l : Loc) (f : Fields)
  | sxor (l : Loc) (f : Fields)
  | sshl (l : Loc) (f : Fields)
  | sshr (l : Loc) (f : Fields)
  | scmp (l : Loc) (f : Fields)
  | pset (l : Loc) (f : Fields)
  | srd (l : Loc) (f : Fields)
  | swr (l : Loc) (f : Fields)
  | qset (l : Loc) (f : Fields)
  | gset (l : Loc) (f : Fields)
  | dset (l : Loc) (f : Fields)
  -- Grirad: control
  | loop (l : Loc) (f : Fields)
  | br (l : Loc) (f : Fields)
  | bar (l : Loc) (f : Fields)
  | barw (l : Loc) (f : Fields)
  | oppt (l : Loc) (f : Fields)
  | fence (l : Loc) (f : Fields)
  | trap (l : Loc) (f : Fields)
  | halt (l : Loc) (f : Fields)
  | nop (l : Loc) (f : Fields)
  -- parameter sets, shard and seed tables
  | psWrite (ctx : Fin 16) (index : Fin 256)
  | psRead (ctx : Fin 16) (index : Fin 256)
  | psClear (ctx : Fin 16) (index : Fin 256)
  | shtCtlWrite (world : World) (d : Fin 4) (i : Fin 4) (j : Fin 4) (v : Word)
  | shardClosed (d : Fin 4) (i : Fin 4) (j : Fin 4)
  | seedWrite (world : World) (d : Fin 4) (i : Fin 4) (entry : Fin 4096)
  | seedClear (world : World) (d : Fin 4) (i : Fin 4) (entry : Fin 4096)
  -- rounds
  | roundOpen (p : PmpReq) (q : RoundReq)
  | roundStatus (p : PmpReq)
  | roundCommit (p : PmpReq)
  | roundAbort (p : PmpReq)
  | roundWorkDone (ctx : Fin 16) (w : WorkEnd)
  | phaseWindowExpire (ctx : Fin 16)
  | clientClassify (ctx : Fin 16) (shard : BitVec 24)
  | shareAdvertise (ld : Fin 4)
  | shareShares (ld : Fin 4)
  | shareReveal (ld : Fin 4)
  | secretInterpolate (ctx : Fin 16) (shard : BitVec 24) (slot : Nat) (pairwise : Bool)
  | pairwiseSeedDerive (ctx : Fin 16) (shard : BitVec 24) (v u : Nat)
  | shardFailReport (ctx : Fin 16) (shard : BitVec 24)
  | foldEpochEnd (ctx : Fin 16) (x : EpochEnd)
  | sketchScan (ctx : Fin 16)
  | updateStart (ctx : Fin 16) (shard : BitVec 24)
  -- Estuary
  | frameReceive (f : EthFrame)
  | sessionLookupDone (x : MissSlot)
  | keyPortRequest (session : BitVec 22)
  | helloInit (ld : Fin 4) (ctx : Fin 16)
  | helloConfirm (ld : Fin 4)
  | sessionPendingExpire (ld : Fin 4) (index : Fin 1048576)
  | closeEnd (ld : Fin 4)
  | closeDone (ld : Fin 4)
  | sessionIndexRelease (ld : Fin 4) (index : Fin 1048576)
  | estGateWrite (a : Acc) (v : Word)
  | sessionCacheFlushDone (ctx : Fin 16)
  | txSend (ld : Fin 4)
  | txInsertSend (ld : Fin 4) (pick : Nat)
  | txSetAdmittedSend (ld : Fin 4)
  | txFreeSend (ld : Fin 4)
  | txFree (ld : Fin 4)
  -- Tideway lanes, bundles, links
  | laneLock (lane : Fin 64)
  | laneHelloSend (lane : Fin 64)
  | laneHelloReceive (x : LaneFrame) (group : Word) (modId : BitVec 14) (port : Byte)
  | mismatchRecheck (x : LaneFrame) (group : Word) (modId : BitVec 14) (port : Byte)
  | dataFrameSend (ld : Fin 4) (k : Fin 16) (vc : Fin 12) (p : Packet)
  | dataFrameReceive (lane : Fin 64) (h : LinkHdr) (p : Packet)
  | idleFrameSend (lane : Fin 64)
  | idleFrameReceive (lane : Fin 64) (h : LinkHdr)
  | linkAckSend (ld : Fin 4) (k : Fin 16)
  | noticeLaneErrReceive (x : LaneFrame) (named : Fin 16) (lastGood : BitVec 24)
  | linkReplayTimeout (ld : Fin 4) (k : Fin 16) (seq : BitVec 24)
  | laneLockLoss (lane : Fin 64)
  | laneErrorWindow (lane : Fin 64)
  | laneWithdrawWrite (a : Acc) (v : Word)
  | noticeWithdrawReceive (x : NoticeFrame)
  | laneRejoin (lane : Fin 64) (heldMs : Nat)
  | noticeRejoinReceive (x : NoticeFrame)
  | laneRecal (lane : Fin 64)
  | laneRecalDone (lane : Fin 64)
  | packetForward (ld : Fin 4) (vc : Fin 12)
  | reduceReceive (ld : Fin 4)
  | reduceSlotWaitEnd (ld : Fin 4)
  | foldStreamExpire (tag : BitVec 16)
  | fstWrite (tag : BitVec 16)
  | fstRead (tag : BitVec 16)
  | fstArm (tag : BitVec 16)
  | fstClear (tag : BitVec 16)
  | foldOutGo (ld : Fin 4) (e : Fin 16)
  | foldOutBlock (ld : Fin 4) (e : Fin 16)
  | localBlockDeliver (tag : BitVec 16)
  -- connections and regions
  | cnOpen (conn : BitVec 16)
  | cnClose (conn : BitVec 16)
  | cnRead (conn : BitVec 16)
  | cnPause (conn : BitVec 16)
  | cnResume (conn : BitVec 16)
  | hsInitReceive (p : Packet)
  | hsRespReceive (p : Packet)
  | hsFinReceive (p : Packet)
  | hsResend (conn : BitVec 16)
  | rgRegister (index : Fin 1048576)
  | rgRevoke (index : Fin 1048576)
  | rgRevokeDone (index : Fin 1048576)
  | rgFree (index : Fin 1048576)
  | rgRead (index : Fin 1048576)
  | doorbell (world : World) (ld : Fin 4) (conn : BitVec 16) (tail : BitVec 16)
  | sendQueueEntry (conn : BitVec 16)
  | connPacketSend (conn : BitVec 16)
  | connPacketReceive (p : Packet)
  | readReqServe (conn : BitVec 16)
  | ackSend (conn : BitVec 16)
  | ackReceive (p : Packet) (rttExcess : Bool)
  | nakReceive (p : Packet)
  | goneReceive (p : Packet)
  | rtoExpire (conn : BitVec 16)
  | nakHintExpire (conn : BitVec 16)
  | twPauseExpire (conn : BitVec 16)
  | barArriveReceive (src : BitVec 14) (ctx : Byte) (num : Byte) (inst : BitVec 16)
  | barArriveResend (ctx : Fin 16) (num : Fin 256)
  | barReleaseReceive (ctx : Byte) (num : Byte) (inst : BitVec 16)
  | barCancelReceive (ctx : Byte) (num : Byte) (inst : BitVec 16)
  | barrierCancel (ctx : Fin 16) (num : Fin 256)
  | phaseReceive (ctx : Byte) (state : Byte) (round : Word)
  | phaseResend (ctx : Fin 16)
  -- contexts and granules
  | cxCreate (ctx : Fin 16) (ownerKeys : Bytes)
  | cxPark (ctx : Fin 16)
  | parkDone (ctx : Fin 16)
  | cxResume (ctx : Fin 16)
  | cxEnd (ctx : Fin 16)
  | endDone (ctx : Fin 16)
  | granuleAssign
  | granuleRelease
  | granuleRead
  -- evaluation keys, key store
  | ekEnter (ctx : Fin 16) (index : Fin 64)
  | ekRetire (ctx : Fin 16) (index : Fin 64)
  | ekRead (ctx : Fin 16) (index : Fin 64)
  | evkRetireDone (ctx : Fin 16) (index : Fin 64)
  | keyGenerate (slot : Fin 256)
  | keyVerify (slot : Fin 256)
  | keyCommit (slot : Fin 256)
  | keyDiscard (slot : Fin 256)
  | keyInvalidate (slot : Fin 256)
  | keyCmdStatement (slot : Fin 256)
  | keyPublic (slot : Fin 256)
  | hssTreeBuildDone
  -- entropy
  | entStartupDone (passed : OscMask) (interleavedOk : CombTest) (us : Nat)
  | oscTestFail (osc : Option (Fin 8)) (rct apt : Bool)
  | entRestartAttempt
  | entRestart (world : World)
  | entOscEnWrite (world : World) (v : Word)
  | entDataRead (a : Acc)
  | entropyRequest (port : Fin 37) (blocks : Nat)
  | drbgReseed
  | portReseed (port : Fin 37)
  -- self-tests
  | bist (d : Fin 4) (s : Fin 12)
  | calibrate (d : Fin 4) (s : Fin 12)
  | replay (d : Fin 4) (s : Fin 12)
  | banktest (d : Fin 4) (b : Fin 24)
  | selftestDeferredStart (d : Fin 4)
  | selftestDone (d : Fin 4) (fails : Byte)
  | katStep (e : KatEngine) (pass : Bool) (queued : Bool)
  -- hub watchdog and hub reset
  | hubWdtKick (world : World) (v : Word)
  | hubWdtExpire
  | hubRstWrite (world : World) (v : Word)
  | hubResetDone
  -- management
  | mkaLive (sakInstalled : Bool)
  | mgmtLinkLoss
  | admissionExpire
  | nonceExpire (n : BitVec 64)
  | pmpConnect
  | pmpDeferred (p : PmpReq)
  | attestGet (p : PmpReq) (nonce : Bytes) (mask : BitVec 16)
  | admitBegin (p : PmpReq) (nonce : Bytes)
  | admitTicket (p : PmpReq) (ticket : Bytes)
  | bounceNonce (p : PmpReq)
  | keyStatement (p : PmpReq) (slot : Fin 256) (nonce : Bytes)
  | profileSet (p : PmpReq) (slot : Byte) (activate : Byte) (o : SignedObj)
  | sysStatus (p : PmpReq)
  | testRun (p : PmpReq) (t : TestSel)
  | eventRead (p : PmpReq) (queue : Byte) (n : Nat)
  | pmpReset (p : PmpReq) (body : Byte)
  | contextCreate (p : PmpReq) (ownerKeys : Bytes)
  | contextSwitch (p : PmpReq) (resume : Bool)
  | contextRemove (p : PmpReq)
  | contextStatus (p : PmpReq)
  | evkImport (p : PmpReq) (manifest : Bytes) (sigs : Sigs) (base : BitVec 64) (inline : Option Bytes)
  | evkRetire (p : PmpReq) (index : Fin 64)
  | zeroImport (p : PmpReq) (manifest : Bytes) (sigs : Sigs) (headers : List (BitVec 64))
  | screenSet (p : PmpReq) (record : Bytes)
  | screenGroup (p : PmpReq) (strand : Fin 24) (group : BitVec 16)
  | decCombine (p : PmpReq) (header : BitVec 64) (deadlineMs : Nat) (members : List Bytes) (sigs : Sigs)
  | decShare (p : PmpReq) (comb : BitVec 64) (member : BitVec 16) (keytag : BitVec 48) (share : Bytes) (sig : Bytes)
  | combineDeadline (ctx : Fin 16) (comb : BitVec 64)
  | modelImport (p : PmpReq) (header : Bytes) (dir : Bytes) (base : BitVec 64) (records : List WrappedRec)
  | modelExport (p : PmpReq) (states : Bool) (fmt : Byte)
  | keyRelease (p : PmpReq) (e : Envelope)
  | ownershipSet (p : PmpReq) (e : Envelope)
  | lifecycleSet (p : PmpReq) (e : Envelope)
  | clientEnrol (p : PmpReq) (e : Envelope)
  | peerList (p : PmpReq) (e : Envelope)
  -- pins, lanes, protocol errors
  | resetNRise
  | mainGoodWithoutMain
  | ethernetLaneUpDown (lane : Fin 64) (up : Bool)
  | laneSignalDetect (lane : Fin 64)
  | pmpConnectionEnd (conn : Fin 8)
  | malformedPmpRequest (conn : Fin 8) (reqId : BitVec 64)
deriving DecidableEq, Repr

end Sys2Proof
end

