-- ==== Sys2Proof/Machine/Units.lean ====
section
/-! DEFINITION. The pieces of state each unit of the module holds beside its registers: tiles and stages, queues,
Estuary, links, folds, connections, contexts, rounds, key store, governor, supplies, management. Plain data. -/

namespace Sys2Proof.Machine

/-- A tile with its 64-byte header (R76, R137). `bad` names the first 128-bit word of the tile that is uncorrectable (R55). -/
structure Tile where
  dest    : Byte
  dataErr : Bool
  last    : Bool
  vcnt    : BitVec 16
  tag     : DWord
  side    : BitVec 384
  words   : Table DWord
  bad     : Option Nat
deriving DecidableEq, Repr

/-- The zero tile (reset value of every tile register, R109). -/
def Tile.zero : Tile := ⟨0, false, false, 0, 0, 0, [], none⟩

/-- One active loop of a stage (R161): first body index, END, passes left after the present one. -/
structure LoopFrame where
  start : Nat
  fin   : Nat
  left  : Nat
deriving DecidableEq, Repr

/-- Whether a stage's sequencer runs (R96, R98). -/
inductive StageRun where
  | idle
  | running
  | halted
  | faulted
deriving DecidableEq, Repr

/-- What a stage waits at (R124, R125). -/
inductive StageWait where
  | none
  | bar (num : Nat)
  | barw (num : Nat)
deriving DecidableEq, Repr

/-- One stage of a strand: sequencer, instruction memory, register files, input slots, credits (R62, R109). -/
structure Stage where
  run       : StageRun
  wait      : StageWait
  pc        : Nat
  s         : Table DWord
  p         : BitVec 8
  d         : Table QWord
  q         : Table DWord
  prep      : BitVec 8
  g         : Table (BitVec 18)
  t         : Table Tile
  slots     : List Tile
  /-- Tiles sent on the output channel and not yet complete at the receiver, oldest first (R74, R78). -/
  chan      : List Tile
  credits   : Nat
  imem      : Table DWord
  codeWords : Nat
  fvec      : List (Byte × Nat)
  loops     : List LoopFrame
  handler   : Bool
  epc       : Nat
  ecode     : BitVec 16
  fstat     : DWord
  hint      : Option (BitVec 2)
  /-- Forwarded tiles in the input slots that a FENCE OUT still waits for (R119). -/
  fence     : Nat
  /-- Credits freed by this stage's input slots and not yet returned to the sender (R75). -/
  owed      : Nat
  /-- Filler has faded to zero at BARW (R464). -/
  fillerOut : Bool
  /-- Lines the SEAL at this stage's PC has put out (R155). -/
  sealPos   : Nat
  /-- A SEAL at this stage's PC waits for its first line (R100). -/
  sealing   : Bool
  /-- First-component lines of the ENCRYPT destination as they were before the SEAL at this stage's PC (R156). -/
  sealSave  : List (Nat × Bytes)
  /-- The RELEASE tile whose beats arrive in one of the input slots (R75, R155). -/
  filling   : Option Tile
  /-- Lines that the FOLD at this stage's PC has folded (R69). -/
  foldPos   : Nat
  /-- The last tile on the output channel was a forwarded one (R77). -/
  fwdLast   : Bool
  /-- Errors counted on the input channel (R78). -/
  chanErr   : Nat
deriving DecidableEq, Repr

/-- A stage at reset (R109). -/
def Stage.zero : Stage :=
  { run := .idle, wait := .none, pc := 0, s := [], p := 1, d := [], q := [], prep := 0, g := [], t := [], slots := [],
    chan := [], credits := 4, imem := [], codeWords := 0, fvec := [], loops := [], handler := false, epc := 0, ecode := 0,
    fstat := 0, hint := none, fence := 0, owed := 0, fillerOut := false, sealPos := 0, sealing := false,
    sealSave := [], filling := none, foldPos := 0, fwdLast := false, chanErr := 0 }

/-- A BAR instance of a strand (R124): the mask of the first arrival and the stages that have arrived. -/
structure BarSt where
  mask    : Byte
  arrived : Byte
deriving DecidableEq, Repr

/-- What a strand shares between its stages (R107, R114, R124, R155, R479). -/
structure Strand where
  cipher   : Table (BitVec 512)
  params   : Table DWord
  bars     : Table BarSt
  /-- The strand counts as bound to receive SEAL RELEASE output (R155, R93). -/
  release  : Bool
  /-- I-strand (0–15) whose release stream CONVERT has not yet ended (R266). -/
  stream   : Option Nat
  /-- GUARDED mode is forced by self-test, calibration or recovery replay (R90). -/
  forced   : Bool
  /-- The strand runs a recovery replay (R479). -/
  replay   : Bool
  /-- SRESET runs (R96). -/
  sreset   : Bool
deriving DecidableEq, Repr

/-- A strand at reset. -/
def Strand.zero : Strand := ⟨[], [], [], false, none, false, false, false⟩

/-- A packet of an ingress or Tideway queue (R80, R82, R367): head slot words at 0x00, 0x08, 0x10, 0x18, the bytes
after it, and the read words it takes. -/
structure Pkt where
  h0    : DWord
  h1    : DWord
  h2    : DWord
  h3    : DWord
  body  : Bytes
  words : Nat
  bad   : Bool
  /-- 128-bit words of the packet that a read corrects (R55, R56). -/
  fixed : Nat := 0
deriving DecidableEq, Repr

/-- A dual-clock queue (R79–R85, R366): published packets, the packet being written, popped read words whose freeing
has not reached the writer, OVERRUN, the zeroing of R85, and the words that its reads have corrected (R56). -/
structure PktQ where
  pkts    : List Pkt
  wr      : Option Pkt
  unret   : Nat
  zeroing : Bool
  ce      : Nat := 0
  /-- Read word at which the oldest packet of a hub queue starts (R366). -/
  head    : Nat := 0
deriving DecidableEq, Repr

/-- A load that runs on a die: LD_CTL, LD_IMG and LD_BIND as its GO found them (R103, R104). -/
structure LoadSt where
  ctl  : Word
  img  : Word
  bind : Word
deriving DecidableEq, Repr

/-- No load. -/
def LoadSt.zero : LoadSt := ⟨0, 0, 0⟩

/-- An empty queue. -/
def PktQ.zero : PktQ := ⟨[], none, 0, false, 0, 0⟩

/-- State of one 128-bit word under the 144/128 nibble code (R55). -/
inductive EccMark where
  | good
  | oneNibble (pos : Fin 36) (pattern : BitVec 4)
  | uncorrectable
deriving DecidableEq, Repr

/-- A receiving port of a die-to-die link (R16): how the next 128-bit word arrives, and the words it has corrected. -/
structure PortX where
  mark : EccMark
  ce   : Nat
deriving DecidableEq, Repr

/-- A port with nothing in error. -/
def PortX.zero : PortX := ⟨.good, 0⟩

/-- A bank's handover, clear and patrol (R44, R48, R58, R443). -/
structure BankX where
  /-- The BANK_OWNER word a handover in progress will install, and whether it clears first. -/
  target  : Option (Word × Bool)
  /-- BANK_OWNER before the write that waits for a wake (R443). -/
  before  : Word
  /-- The handover waits for its half-array's wake. -/
  waking  : Bool
  /-- The bank runs BANKTEST (R479). -/
  test    : Bool
  /-- Lines the present patrol pass has still to read again (R41, R58). -/
  missed  : List Nat
  /-- BANK_BUSY answers that the next access of the bank meets, by what its other port or its atomic unit does in those
  cycles (R40, R48). -/
  busy    : Nat
  /-- Daxna frees the bank as soon as the handover in progress ends (R191, R216, R380, R392, R393). -/
  freed   : Bool
deriving DecidableEq, Repr

/-- A bank with nothing in progress. -/
def BankX.zero : BankX := ⟨none, 0, false, false, [], 0, false⟩

/-- What an HBM line is stored under (R384): the memory key of its ciphertext, the integrity key and the write version of
its MAC. -/
structure LineKeys where
  mem : BitVec 512
  int : BitVec 512
  ver : Nat
deriving DecidableEq, Repr

/-- The keys of a line that nothing has written. -/
def LineKeys.zero : LineKeys := ⟨0, 0, 0⟩

/-- What runs on a context page (R378, R380, R393). -/
inductive CtxOp where
  | none
  | park
  | ending (code : Byte)
deriving DecidableEq, Repr

/-- One entry of a measurement log (R419). -/
structure LogEntry where
  kind : Byte
  len  : Nat
  body : Bytes
deriving DecidableEq, Repr

/-- A model object's directory entry (R269). -/
structure DirEnt where
  shard : BitVec 24
  cur   : Bool
  elems : Word
  page  : BitVec 24
  gen   : DWord
  base  : BitVec 48
deriving DecidableEq, Repr

/-- The copies that an export reads (R275): the request's REQ_ID, the directory and GEN_HWM as it found them. -/
structure ExportPin where
  reqId  : DWord
  dir    : List DirEnt
  genHwm : DWord
deriving DecidableEq, Repr

/-- A model object (R268, R275): header fields, directory, and the copies that exports in progress pin. -/
structure Model where
  nstate : Nat
  genHwm : DWord
  kwSlot : DWord
  digest : BitVec 384
  dir    : List DirEnt
  /-- Address of the object: its header, then its directory. -/
  base   : Nat
  pins   : List ExportPin
deriving DecidableEq, Repr

/-- A named committee member of a combination (R245). -/
structure Member where
  id    : BitVec 16
  key   : Bytes
  share : Option Bytes
deriving DecidableEq, Repr

/-- A threshold combination that waits for shares (R244–R247). -/
structure Comb where
  reqId   : DWord
  header  : BitVec 48
  keytag  : BitVec 48
  members : List Member
deriving DecidableEq, Repr

/-- An imported encryption of zero: the address of its header, its DATA_PTR, its coefficients; `taken`: a SEAL that has begun
has it (R259, R262). -/
structure ZeroCt where
  header : DWord
  ptr    : Nat
  n      : Nat
  taken  : Bool
deriving DecidableEq, Repr

/-- What the module keeps of one context beside its page (R375, R379, R225, R249, R262). -/
structure CtxSt where
  op        : CtxOp
  log       : List LogEntry
  running   : BitVec 384
  ownerKeys : Bytes
  poisoned  : Nat
  screen    : Option Bytes
  /-- Imported encryptions of zero not yet bound (R262), and the coefficients of those imported last. -/
  zeros     : List ZeroCt
  zeroN     : Nat
  model     : Option Model
  combs     : List Comb
  /-- Enrolment keys: CLIENT_ID and 32-byte key (R288). -/
  enrol     : List (QWord × Bytes)
  /-- Work entries written so far: of each C-strand by die × 6 + C-strand, of each F-strand by 100 + its index (R253,
  R267). -/
  work      : Table Nat
  /-- Addresses at which an F-strand of the context failed with ECC_UNCORRECTABLE in this round (R270). -/
  eccAt     : List Nat
  /-- Header addresses of the admission groups that a C-strand has exported since their last listing (R256). -/
  exports   : List Nat
deriving DecidableEq, Repr

/-- An absent context. -/
def CtxSt.zero : CtxSt := ⟨.none, [], 0, [], 0, none, [], 65536, none, [], [], [], [], []⟩

/-- Round states in table order (R189). -/
inductive RState where
  | opening
  | advertise
  | share
  | screen
  | input
  | collect
  | expand
  | seal
  | fold
  | update
  | readyCommit
  | committed
  | aborted
deriving DecidableEq, Repr

/-- Classes of a client (R200). -/
inductive ClientClass where
  | unclassified
  | complete
  | absent
  | partly
deriving DecidableEq, Repr

/-- Screening outcomes (R258). -/
inductive Screening where
  | undecided
  | admitted
  | refused
  | incomplete
  | groupFailed
deriving DecidableEq, Repr

/-- A client of a shard in a round (R185, R194–R202). -/
structure Client where
  /-- C_u, S_u, H_u of its ADVERTISE (R194). -/
  adv      : Option (Bytes × Bytes × Bytes)
  /-- Recipient slots of the share ciphertexts it sent, which stand in the share store (R195). -/
  shares   : List Nat
  dropped  : Bool
  cls      : ClientClass
  screened : Screening
  /-- Shares of this client's secrets revealed by neighbours: pairwise?, the neighbour's slot, the share (R201). -/
  revealed : List (Bool × Nat × Bytes)
  /-- Its self-mask seed b, once verified (R202). -/
  secretB  : Option Bytes
  /-- Its pairwise secret s, once verified (R202). -/
  secretS  : Option Bytes
  /-- Pairwise seeds derived from it, by neighbour slot (R204). -/
  pair     : List (Nat × Bytes)
  /-- Shares were asked of it at COLLECT (R201). -/
  asked    : Bool
  /-- C-strand, group and position its sketch was listed under (R253). -/
  listed   : Option (Nat × Nat × Nat)
deriving DecidableEq, Repr

/-- A client of whom nothing has arrived. -/
def Client.zero : Client := ⟨none, [], false, .unclassified, .undecided, [], none, none, [], false, none⟩

/-- A round of a context on this module (R187–R216). -/
structure Round where
  desc      : Bytes
  state     : RState
  graphSeed : BitVec 256
  /-- Clients by shard index × 2^20 + slot. -/
  clients   : Table Client
  /-- Shards that are FAILED (R203). -/
  failed    : List (BitVec 24)
  epoch     : Byte
  /-- Hosts marked failed by a fold epoch's end (R214). -/
  lostHosts : List (BitVec 14)
  /-- Group seeds by partner module (R212). -/
  gseeds    : List (BitVec 14 × Bytes)
  /-- The cohort lists of the request, by shard entry: a client's slot is its place in its list (R185). -/
  cohorts   : List (List QWord)
  /-- The coordinator's GRAPH_SEED, once it has arrived (R192). -/
  seedGot   : Option Bytes
  /-- Addresses of a shard entry's chunk bitmap and sketch bitmap (R198, R252). -/
  maps      : List (Nat × Nat × Nat)
  /-- Addresses of the F work entries posted, by shard entry (R267). -/
  posted    : List (Nat × Nat)
  /-- Flag bit 0 of the done words that Daxna has taken from the work lists, by shard entry (R267, R270). -/
  doneGot   : List (Nat × Bool)
  /-- Addresses of the ciphertexts in the share store (R195). -/
  stored    : List Nat
  /-- Inverse-count vectors received, by shard (R267). -/
  counts    : List (BitVec 24 × Bytes)
  /-- Seed-table entries filled so far, by I-strand (R206). -/
  fed       : Table Nat
  /-- Encryptions of zero that SEALs of the round have taken on this module (R262). -/
  bound     : Nat
  /-- Blocks of mask sums that are to be expanded again: shard entry, base of the sum, address, entries filled (R210). -/
  redo      : List (Nat × Nat × Nat × Nat)
  exportWait : Bool
  /-- Input is closing: CLOSING is written and an entry is not CLOSED yet (R199). -/
  closing   : Bool
  lateShare : Nat
  lateSketch : Nat
  /-- The PHASE broadcasts still to repeat (R372). -/
  phaseSends : Nat
deriving DecidableEq, Repr

/-- A session record (R291); its keys, k_c2m and k_m2c, unwrapped, or unreadable. -/
structure SessRec where
  sid        : DWord
  st         : BitVec 2
  ctx        : Fin 16
  epoch      : Byte
  admitted   : Bool
  admitRound : Word
  keys       : Option (BitVec 256 × BitVec 256)
  txSeq      : BitVec 48
  ret        : RetPath
deriving DecidableEq, Repr

/-- A FREE record. -/
def SessRec.zero : SessRec := ⟨0, 0, 0, 0, false, 0, none, 0, ⟨0, false, 0, 0, 0⟩⟩

/-- A way of a session cache (R292): the record, and one more than the AON count when a datagram of its session was last
written to an ingress queue, 0 if none was. -/
structure CacheEnt where
  record : SessRec
  used   : Nat
deriving DecidableEq, Repr

/-- An empty way. -/
def CacheEnt.zero : CacheEnt := ⟨SessRec.zero, 0⟩

/-- What Daxna keeps of a session index (R286, R289, R293, R294). -/
structure Session where
  sid    : DWord
  st     : BitVec 2
  ctx    : Fin 16
  epoch  : Byte
  client : QWord
  /-- The index waits 1 ms before it is given again (R293). -/
  hold   : Bool
  /-- SEQs of hub datagrams already acted on; those among them answered with CLOSE ROUND (R190, R286). -/
  seen   : List (BitVec 48)
  closed : List (BitVec 48)
deriving DecidableEq, Repr

/-- No session. -/
def Session.zero : Session := ⟨0, 0, 0, 0, 0, false, [], []⟩

/-- A datagram in a setup queue: the session index (none for HELLO INIT), its return path, the datagram in clear. -/
structure SetupMsg where
  session : Option Nat
  ret     : RetPath
  msg     : Aip
deriving DecidableEq, Repr

/-- A transmit descriptor (R300). -/
structure TxDesc where
  op      : Byte
  ctx     : Fin 16
  index   : BitVec 22
  msg     : Aip
  /-- INSERT only: the record, the client it is for, and the draws of SESSION_ID that failed before (R290). -/
  record  : SessRec
  client  : QWord
  tries   : Nat
  admitRound : Word
deriving DecidableEq, Repr

/-- An Estuary slice's queues (R298–R300). -/
structure EstLd where
  setup : List SetupMsg
  miss  : List EthFrame
  /-- Descriptors in the transmit queue (R300), the slot of the first, and those Daxna holds back until it has room. -/
  tx    : List TxDesc
  txHead : Nat
  backlog : List TxDesc
  /-- STATUS of the descriptors done, in order (R300). -/
  done  : List Byte
  /-- The session cache, by entry (R292). -/
  cache : Table CacheEnt
  /-- HELLO INITs that Daxna dropped without an answer (R288). -/
  helloDrops : Nat
deriving DecidableEq, Repr

/-- An idle slice. -/
def EstLd.zero : EstLd := ⟨[], [], [], 0, [], [], [], 0⟩

/-- What a Tideway lane keeps (R307, R310, R319–R322). -/
structure LaneX where
  lock      : Bool
  /-- Errors in the present 1 ms window. -/
  errs      : Nat
  lastGood  : BitVec 24
  /-- Row of R319 that withdrew the lane. -/
  cause     : Option (Fin 5)
  rejoinOut : Bool
  rejoinIn  : Bool
  /-- A frame other than a HELLO has come in since the lane last passed R307: the peer's lane is UP too. -/
  heard     : Bool
deriving DecidableEq, Repr

/-- A lane without light. LAST_GOOD before any good DATA frame is 0xFFFFFF (DESIGN CHOICE, notes/assumptions/92.md). -/
def LaneX.zero : LaneX := ⟨false, 0, 0xFFFFFF, none, false, false, false⟩

/-- An unacknowledged DATA frame in replay memory (R313). -/
structure ReplayFrame where
  seq     : BitVec 24
  lane    : Fin 16
  resends : Nat
  vc      : Fin 12
  pkt     : Packet
deriving DecidableEq, Repr

/-- Link-layer state of a bundle (R312, R313, R317, R318). -/
structure Bundle where
  txSeq  : BitVec 24
  txAck  : BitVec 24
  rxAck  : BitVec 24
  /-- SEQ values above rxAck received (the window's set bits). -/
  rxBits : List (BitVec 24)
  replay : List ReplayFrame
  /-- Credits used per VC out of 1,024 (so that an unused VC is unlisted). -/
  used   : Table Nat
  /-- Credits to return per VC. -/
  owe    : Table Nat
  /-- Bytes queued on each lane and not yet sent (R317). -/
  queued : Table Nat
  /-- Lane and SEQ of each DATA frame sent, newest first, back to the oldest that is not acknowledged (R313). -/
  sends  : List (Fin 16 × BitVec 24)
deriving DecidableEq, Repr

/-- A bundle at reset. -/
def Bundle.zero : Bundle := ⟨0, 0, 0, [], [], [], [], [], []⟩

/-- A packet in a router's input buffer: the bundle it came on (none: from this module) and its VC. -/
structure RouterPkt where
  bundle : Option Nat
  vc     : Fin 12
  pkt    : Packet
  /-- Its wait for a reduction slot has been counted (R335). -/
  waited : Bool
deriving DecidableEq, Repr

/-- The destination of a SEAL REMASK: its base, its lines, and the lines written so far (R337). -/
structure SealOut where
  base  : Nat
  total : Nat
  lines : Nat
deriving DecidableEq, Repr

/-- A reduction slot (R334, R335, R368). -/
structure RedSlot where
  ld    : Nat
  tag   : BitVec 16
  block : Word
  /-- Module of the last packet added (R367). -/
  src   : BitVec 14
  count : Nat
  last  : Bool
  data  : Bytes
deriving DecidableEq, Repr

/-- A region (R351). -/
structure Region where
  base     : BitVec 48
  length   : DWord
  ctx      : Fin 16
  rights   : BitVec 3
  st       : BitVec 2
  rkey     : Word
  inflight : Nat
deriving DecidableEq, Repr

/-- A free region. -/
def Region.zero : Region := ⟨0, 0, 0, 0, 0, 0, 0⟩

/-- A work entry of a send queue (R353). -/
structure WorkEntry where
  op    : Byte
  flags : Byte
  len   : Nat
  wrId  : DWord
  lkey  : Word
  rkey  : Word
  loff  : Nat
  roff  : Nat
  imm   : Word
  /-- First EPSN and packets of its message, packets sent, and its status so far. -/
  first : Nat
  pkts  : Nat
  sent  : Nat
  code  : Byte
  done  : Bool
  /-- First EPSN of the response message of a READ. -/
  resp  : Option Nat
  /-- Data bytes that NAKs have refused (R354). -/
  lost  : Nat := 0
deriving DecidableEq, Repr

/-- A data packet that is not acknowledged (R359, R363). -/
structure SentPkt where
  epsn  : Nat
  try_  : Nat
  bytes : Nat
  pkt   : Packet
  /-- Held on a NAK's HINT (R363). -/
  held  : Bool
  /-- Resends that count as retries (R363). -/
  tries : Nat
deriving DecidableEq, Repr

/-- A READ_REQ accepted and not yet served (R355). -/
structure ReadReq where
  epsn   : Nat
  rkey   : Word
  offset : Nat
  bytes  : Nat
deriving DecidableEq, Repr

/-- A message being received (R356): first EPSN, length once LAST has arrived, and what its notification carries. -/
structure RxMsg where
  op     : Byte
  first  : Nat
  last   : Option Nat
  msgLen : Word
  imm    : Word
  offset : DWord
  failed : Bool
deriving DecidableEq, Repr

/-- Connection states in table order (R341). -/
inductive ConnSt where
  | free
  | listen
  | handshake
  | established
  | paused
  | ended
deriving DecidableEq, Repr

/-- A connection record (R340–R365). -/
structure Conn where
  st       : ConnSt
  peer     : BitVec 14
  ctx      : Fin 16
  init     : Bool
  cqt      : Byte
  pairId   : Word
  sqOff    : Nat
  sqSize   : Nat
  peerConn : BitVec 16
  credit   : Bool
  window   : Nat
  k1       : BitVec 256
  k2       : BitVec 256
  /-- Handshake: the last packet sent and its resends, the transcript so far. -/
  hsLast   : Option Packet
  hsTries  : Nat
  hsInit   : Bytes
  hsResp   : Bytes
  /-- Ephemeral private keys of the handshake: curve scalar and ML-KEM-768 key. -/
  ephX     : BitVec 384
  ephK     : BitVec 512
  /-- Sending: next EPSN, CUM received, CLIM, unacknowledged packets, posted entries, send-queue head. -/
  nextPsn  : Nat
  cumIn    : Nat
  clim     : Nat
  sent     : List SentPkt
  work     : List WorkEntry
  sqHead   : Nat
  sqTail   : Nat
  /-- Packets acknowledged and packets marked in the present epoch, its end, epochs with marks and without. -/
  epAcked  : Nat
  epMarked : Nat
  epEnd    : Nat
  markedEp : Nat
  cleanEp  : Nat
  /-- EPSN that was next to be sent at the last resend of the timer (R363). -/
  recover  : Nat
  /-- Receiving: CUM, bits above it, last ASN accepted, ASN to send next, marks since the last ACK, an ACK due. -/
  cum      : Nat
  bits     : List Nat
  lastAsn  : Option Nat
  nextAsn  : Nat
  ece      : Nat
  ackDue   : Bool
  reads    : List ReadReq
  rx       : List RxMsg
  /-- EPSNs not below CUM whose packet had ACKREQ (R362); CLIM last sent (R361). -/
  ackReqs  : List Nat
  climOut  : Nat
  /-- Every NAK since the last other answer was a hint (R363); the timer restarts. -/
  hinted   : Bool
deriving DecidableEq, Repr

/-- A free connection. -/
def Conn.zero : Conn :=
  { st := .free, peer := 0, ctx := 0, init := false, cqt := 0, pairId := 0, sqOff := 0, sqSize := 0, peerConn := 0,
    credit := false, window := 0, k1 := 0, k2 := 0, hsLast := none, hsTries := 0, hsInit := [], hsResp := [],
    ephX := 0, ephK := 0, recover := 0, ackReqs := [], climOut := 0, nextPsn := 0, cumIn := 0, clim := 0, sent := [], work := [], sqHead := 0, sqTail := 0, epAcked := 0, epMarked := 0,
    epEnd := 0, markedEp := 0, cleanEp := 0, cum := 0, bits := [], lastAsn := none, nextAsn := 0, ece := 0,
    ackDue := false, reads := [], rx := [], hinted := false }

/-- An entry of the evaluation-key registry (R240). -/
structure EvkEnt where
  st       : BitVec 2
  base     : BitVec 48
  length   : DWord
  keytag   : BitVec 48
  paramset : BitVec 16
  purpose  : Byte
  galois   : Word
  inuse    : Nat
  digest   : BitVec 384
deriving DecidableEq, Repr

/-- An EMPTY entry. -/
def EvkEnt.zero : EvkEnt := ⟨0, 0, 0, 0, 0, 0, 0, 0, 0⟩

/-- One half of a key slot (R404, R405), with the KCV that came with an imported key (R410). -/
structure KeyHalf where
  attr : Word
  mat  : BitVec 512
  kcv  : DWord
deriving DecidableEq, Repr

/-- An empty half. -/
def KeyHalf.zero : KeyHalf := ⟨0, 0, 0⟩

/-- The hub's HSS state and stalled key work (R417). -/
structure HssSt where
  /-- Leaves consumed, as written to flash. -/
  counter : Nat
  /-- Leaves of the reserved block still unused. -/
  block   : Nat
  /-- The lower tree is built. -/
  tree    : Bool
  /-- OP and SLOT of the key command that runs (R408). -/
  run     : Option (Nat × Nat)
deriving DecidableEq, Repr

/-- The continuous tests of a stream of raw bits (R423): the last sample and how often it has come in a row; the first sample of
the present window of 1,024, the samples taken of it, and how often the first has come. -/
structure OscTest where
  last  : Option Bool
  run   : Nat
  first : Bool
  pos   : Nat
  same  : Nat
deriving DecidableEq, Repr

/-- Fresh counts. -/
def OscTest.zero : OscTest := ⟨none, 0, false, 0, 0⟩

/-- The entropy source beside its registers (R423–R432). -/
structure EntSt where
  /-- Key and V of the root generator and of each port (R425, R426). -/
  root    : BitVec 384
  ports   : Table (BitVec 384)
  /-- Tests of each oscillator, 0 to 7, and of the interleaved stream, 8. -/
  tests   : Table OscTest
  /-- The root generator and every port are instantiated. -/
  inst    : Bool
  /-- Oscillators excluded since the source last entered RUNNING. -/
  excl    : Nat
  /-- Ports whose requests stall until the source runs (R429). -/
  stalled : List Nat
  /-- Output blocks of each port since its last reseed (R426). -/
  blocks  : Table Nat
  /-- Root reseeds made. -/
  reseeds : Nat
  /-- The conditioner's shift register (R424). -/
  shift   : BitVec 256
  /-- Raw bits absorbed into the block in progress, below 1,024 (R424). -/
  fill    : Nat
  /-- Blocks released to the hub that the root has not taken (R424). -/
  ready   : List (BitVec 256)
  /-- The conditioned blocks that the root took last: three at its instantiation, two at a reseed (R425). -/
  taken   : List (BitVec 256)
deriving DecidableEq, Repr

/-- The source at reset. -/
def EntSt.zero : EntSt :=
  { root := 0, ports := [], tests := [], inst := false, excl := 0, stalled := [], blocks := [], reseeds := 0, shift := 0
    fill := 0, ready := [], taken := [] }

/-- A power domain's entry in progress (R440). -/
structure PdX where
  /-- Target of the entry that is past its commit: 1 IDLE, 2 RETAIN, 3 OFF; 0 none. -/
  target : Nat
  /-- A wake level arrived during the commit or the lowering (R446). -/
  wake   : Bool
  /-- The state the domain wakes from. -/
  from_  : Nat
deriving DecidableEq, Repr

/-- No entry in progress. -/
def PdX.zero : PdX := ⟨0, false, 0⟩

/-- A demand-table entry (R461). -/
structure LockEnt where
  point  : Option (BitVec 2)
  lseq   : Word
  reason : Byte
deriving DecidableEq, Repr

/-- No demand held. -/
def LockEnt.zero : LockEnt := ⟨none, 0, 0⟩

/-- Where a change of operating point stands (R450). -/
inductive ChangeSt where
  | none
  | awaitAck (target : BitVec 2)
  | awaitSettle (target : BitVec 2)
deriving DecidableEq, Repr

/-- The governor beside its registers (R449–R467). -/
structure Gov where
  thermalPt  : BitVec 2
  sustPt     : BitVec 2
  springBlk  : Bool
  /-- LOCK_THROTTLE_N acts (R454). -/
  extPin     : Bool
  /-- COOLANT_OK is low after its filter (R496). -/
  coolantLow : Bool
  misses     : Nat
  change     : ChangeSt
  /-- VCORE trim of each die in 5 mV steps (R452). -/
  trim       : Table Int
  /-- The trim step in progress: its die and the trim it asks for (R452). -/
  trimReq    : Option (Nat × Int)
  table      : Table LockEnt
  lseq       : Word
  /-- The point this module's own reasons hold it at, as last sent (R461). -/
  demand     : Option (BitVec 2)
  /-- lock_point as applied: a rise waits for its hold-off (R462). -/
  lockApplied : Option (BitVec 2)
  /-- MAIN power samples of 10 µs, newest first, at most 1,000,000 (R455). -/
  samples    : List Nat
  /-- Point whose voltage was requested before the change in progress (R451). -/
  prevPt     : BitVec 2
  /-- 1 ms readings the junction has been at or above its target in a row (R459). -/
  hot        : Nat
  /-- The last 10,000 ms, newest first: was the ms spent at SPRING (R458). -/
  spring     : List Bool
  /-- 10 µs turns the projection has stayed 5% below PEAK_W (R456); 1 ms readings the junction has been cool (R459). -/
  relax      : Nat
  cool       : Nat
  underSust  : Nat
  /-- The filler floor is zero (R456 step 1). -/
  fillerCut  : Bool
  /-- Bubbles of R456, R457 and R459; BUBBLE_RATIO is their sum, 240 at most (DESIGN CHOICE, notes/assumptions/133.md). -/
  peakBub    : Nat
  sustBub    : Nat
  thermBub   : Nat
deriving DecidableEq, Repr

/-- The governor at reset: no limit of its own. -/
def Gov.zero : Gov :=
  { thermalPt := 2, sustPt := 2, springBlk := false, extPin := false, coolantLow := false, misses := 0,
    change := .none, trim := [], trimReq := none, table := [], lseq := 0, demand := none, lockApplied := none, samples := [], prevPt := 1,
    hot := 0, spring := [], relax := 0, cool := 0, underSust := 0, fillerCut := false, peakBub := 0, sustBub := 0,
    thermBub := 0 }

/-- The module's input pins and their sampled values (R490–R499). -/
structure Pins where
  tamperN    : Bool
  lockN      : Bool
  coolantOk  : Bool
  mainGood   : Bool
  resetN     : Bool
  profLive   : Fin 4
  slotLive   : Fin 64
  profSel    : Fin 4
  slotId     : Fin 64
  auxOk      : Bool
  mainReq    : Bool
  tripOut    : Bool
  /-- PROFILE_SEL and SLOT_ID have been sampled since cold reset (R492). -/
  sampled    : Bool
deriving DecidableEq, Repr

/-- Pins as the internal pulls leave them (R490), with AUX absent. -/
def Pins.zero : Pins := ⟨true, true, false, false, true, 0, 0, 0, 0, false, false, false, false⟩

/-- The power controller beside its registers (R506–R516). -/
structure Sup where
  mainPresent : Bool
  /-- MAIN has been absent since MAIN_REQ last fell (R508). -/
  mainAbsent  : Bool
  /-- Next step of a power-up (R512) or power-down (R513). -/
  step        : Nat
  /-- The power-down in progress is a brown-out. -/
  brown       : Bool
  polls       : Table Nat
deriving DecidableEq, Repr

/-- The supply controller at reset. -/
def Sup.zero : Sup := ⟨false, true, 0, false, []⟩

/-- A sealed key record: an AES-256-GCM record under SEAL of the key material, with the slot number and the attribute word as
associated data (R413). -/
structure SealedKey where
  attr  : Word
  nonce : Bytes
  ct    : Bytes
  tag   : BitVec 128
deriving DecidableEq, Repr

/-- A lifecycle record in flash (R534). -/
structure LcRec where
  tcount : Nat
  state  : BitVec 3
  owner  : Option (Bytes × Bytes)
  /-- CAK and CKN of an OWNERSHIP envelope (R403, R536). -/
  cak    : Bytes
  ckn    : Bytes
deriving DecidableEq, Repr

/-- Fuses (R524, R527, R534). -/
structure Fuses where
  tcount  : Nat
  retired : Bool
  keyset  : BitVec 2
  rbFs    : Nat
  rbHub   : Nat
  rbDaxna : Nat
deriving DecidableEq, Repr

/-- The boot path, flash and lifecycle (R519–R538). -/
structure Boot where
  /-- The chain runs and has not stopped. -/
  running  : Bool
  /-- The step of R526 that the next completion starts. -/
  next     : Nat
  /-- No profile has been selected since cold reset (R531). -/
  cold     : Bool
  /-- A warm reset waits for the junction to cool (R493). -/
  held     : Option WarmCause
  /-- RESET_N holds the module in reset (R493). -/
  inReset  : Bool
  /-- Flash objects by slot: 0–1 first stage, 2–3 hub firmware, 4–5 Daxna, 6–9 profiles 0–3 (R521). -/
  flash    : Table (Option SignedObj)
  /-- Which slot of each image booted (0–5). -/
  booted   : Table Nat
  profile  : Option SignedObj
  fuses    : Fuses
  recA     : Option LcRec
  recB     : Option LcRec
  /-- Sealed key records by slot (R413). -/
  sealed   : Table (Option SealedKey)
  owner    : Option (Bytes × Bytes)
  /-- A lifecycle transition's CAK is still to be placed into slot 8 (R537). -/
  cakDue   : Bool
deriving DecidableEq, Repr

/-- Boot state of a module fresh from manufacture, with empty flash. -/
def Boot.zero : Boot :=
  { running := false, next := 0, cold := true, held := none, inReset := false, flash := [], booted := [], profile := none,
    fuses := ⟨0, false, 0, 0, 0, 0⟩, recA := none, recB := none, sealed := [], owner := none, cakDue := false }

/-- Admission states of the management port (R397). -/
inductive AdmSt where
  | down
  | secured
  | admitted
deriving DecidableEq, Repr

/-- A request outstanding or journalled (R474, R477). -/
structure PmpWork where
  conn   : Nat
  ident  : Nat
  reqId  : DWord
  ctx    : Byte
  opcode : BitVec 16
  /-- What the request waits for: an entry index, a die. -/
  arg    : Nat
deriving DecidableEq, Repr

/-- A final response kept for its 60 s (R477): identity, REQ_ID, STATUS, body and the AON count at which it was given. -/
structure Kept where
  ident  : Nat
  reqId  : DWord
  status : Byte
  body   : List Nat
  time   : Nat
deriving DecidableEq, Repr

/-- The management port and PMP (R396–R402, R473–R477). -/
structure Mgmt where
  adm      : AdmSt
  /-- Outstanding admission nonce N_m and the digest of the last report issued (R398). -/
  nonceM   : Option DWord
  report   : BitVec 384
  /-- Bounce nonces outstanding, oldest first (R402). -/
  nonces   : List DWord
  /-- TCP connections open (R473). -/
  conns    : List (Fin 8)
  /-- Requests with no final response yet. -/
  pending  : List PmpWork
  /-- Final responses kept, newest first, at most 1,024 (R477). -/
  kept     : List Kept
  /-- Peer list: module id and identity key (R343). -/
  peers    : List (BitVec 14 × Bytes)
deriving DecidableEq, Repr

/-- The management port at reset. -/
def Mgmt.zero : Mgmt := ⟨.down, none, 0, [], [], [], [], []⟩

/-- A self-test of a compute die that runs or is held (R478, R479). -/
structure TestSt where
  op     : Nat
  target : Nat
  held   : Bool
deriving DecidableEq, Repr

/-- Hub state beside hub SRAM (R470, R480, R484, R485). -/
structure Hub where
  /-- A hub reset runs, with the cause code of R544. -/
  reset  : Option (Fin 3)
  /-- Engines whose known-answer test failed (R480). -/
  katBad : List KatEngine
  /-- Non-maskable interrupt raised by the watchdog's first expiry. -/
  nmi    : Bool
  /-- A system key index has failed: CREATE is refused until the next warm reset (R390). -/
  noCreate : Bool
deriving DecidableEq, Repr

/-- A block of the PCS as a link frame fills it (R308): a start block (control block type 0x78) with 7 bytes, a data block
with 8, a terminate block with 0 to 7; an errored terminate block cuts a frame off (R320). -/
inductive PcsBlock where
  | start (bs : Bytes)
  | data (bs : Bytes)
  | term (bs : Bytes)
  | errTerm
deriving DecidableEq, Repr

/-- What a command put out of the module: a reply of a kind, with the bytes or packet it carries. -/
inductive Out where
  /-- An Ethernet frame on a module lane, from its destination address to the end of its payload (R279, R281). -/
  | eth (lane : Nat) (frame : Bytes)
  /-- A Tideway packet handed to the router (R311). -/
  | packet (p : Packet)
  /-- A link frame on a module lane, as the blocks of the PCS (R308, R309). -/
  | frame (lane : Nat) (blocks : List PcsBlock)
  /-- A message to the Daxna of another module, over their attested connection: 0 GRAPH_SEED, 1 a group seed, 2 an
  inverse-count vector, 3 a FAILED shard, 4 CLEAR of a stream, 5 late hosts and a new epoch (R192, R203, R212, R214, R267). -/
  | daxna (dst : BitVec 14) (kind : Nat) (body : Bytes)
  /-- A PMP response (R473): identity, REQ_ID, KIND, STATUS and body words. -/
  | pmp (ident : Nat) (reqId : DWord) (kind : Nat) (status : Byte) (body : List Nat)
  /-- A key port answer (R292): 0 KEY, 1 NO_KEY, 2 REVOKED. -/
  | key (result : Nat)
  /-- A request on the AVSBus: rail and mV (R450). -/
  | avs (rail mv : Nat)
  /-- Words read. -/
  | words (ws : List Nat)
deriving DecidableEq, Repr

end Sys2Proof.Machine
end

