-- ==== Sys2Proof/Machine/State.lean ====
section
/-! DEFINITION. The machine's state: the register map, the memories, the units, the queue of waiting commands, and the
model's own fields (reply, out, freeCtr); the state after reset; the reasons a step can stop. -/

namespace Sys2Proof.Machine

/-- The variants of the module (R2). -/
inductive Part where
  | m12l4
  | m12l3
  | m8l4
  | m8l2
deriving DecidableEq, Repr

/-- What the last command reported: a status code of R8 and a value (the register read, the word popped). -/
structure Reply where
  status : Byte
  value  : DWord
deriving DecidableEq, Repr

/-- The state of the module. -/
structure State where
  part    : Part
  /-- Every memory-mapped register, by register-space offset; unlisted reads its reset value (R35). -/
  regs    : Table Word
  /-- The pair latch of each hub core: the pair's _LO offset and bits [63:32] (R34). -/
  latch   : Table (Option (Nat × Word))
  /-- The pair buffer of each hub core: the pair's _LO offset and the bits written (R34). -/
  wbuf    : Table (Option (Nat × Word))
  /-- COUNT of each clock domain, by DOMAIN code (R28, R29). -/
  time    : Table (BitVec 56)
  /-- Bytes of HBM and of the banks' normal windows, by physical address (R31); unlisted reads zero. -/
  mem     : List Host.Cell
  /-- Bytes of hub SRAM, by offset (R471); unlisted reads zero. -/
  hubMem  : List Host.Cell
  /-- Nibble-code state of each 16-byte word of a bank or of HBM, by address ÷ 16 (R55). -/
  ecc     : Table EccMark
  /-- Receiving ports of the die-to-die links (R13, R16), by sending die × 16 + receiving die; CDd is d, LDl 4 + l, HD 8. -/
  d2d     : Table PortX
  banks   : Table BankX
  /-- Key index owning each HBM granule, by address ÷ 2 MiB; 31 is FREE (R385). -/
  granule : Table (BitVec 5)
  /-- Major counter of each 4 KiB block, by address ÷ 4096 (R386). -/
  major   : Table (BitVec 58)
  /-- Minor counter of each line, by address ÷ 64 (R386). -/
  minor   : Table (BitVec 6)
  /-- What each written HBM line is stored under, by address ÷ 64 (R384). -/
  crypt   : Table LineKeys
  /-- Lines whose stored bits no longer fit their MAC and level-0 blocks that fail, by address ÷ 64 (R390). -/
  badLine : Table Bool
  /-- Tree nodes that fail, by (die × 8 + level) × 2^32 + node (R390). -/
  badNode : Table Bool
  /-- Changed nodes in the metadata cache (R389), keyed as badNode. -/
  dirty   : Table Bool
  /-- Unchanged nodes in the metadata cache (R389), keyed as badNode. -/
  cached  : Table Bool
  /-- The parent's counter for each node (R386, R389), keyed as badNode. -/
  nodeCnt : Table (BitVec 56)
  /-- AON COUNT at which the present patrol pass of each stack began (R543). -/
  passAt  : Table (BitVec 56)
  /-- Line at which the patrol of each stack stands (R59, R444). -/
  patrol  : Table Nat
  /-- Stages by (die × 12 + strand) × 8 + stage. -/
  stages  : Table Stage
  /-- Strands by die × 12 + strand. -/
  strands : Table Strand
  /-- PRG seed tables: entry by I-strand × 4096 + entry (R70). -/
  seeds   : Table (BitVec 512)
  /-- One more than the shard of a seed-table entry that Daxna filled, keyed as seeds; 0 of any other entry (R205). -/
  seedShard : Table Nat
  /-- Staged seed words by I-strand (R206). -/
  seedBuf : Table (BitVec 512)
  /-- Queues: 0–15 ingress; 100 + k receive and 200 + k completion of strand k; 300 + l and 310 + l hub. -/
  queues  : Table PktQ
  /-- Declared parameter-set records by context × 256 + slot (R182). -/
  psets   : Table (BitVec 1024)
  evk     : Table EvkEnt
  /-- The load of each compute die (R103). -/
  loads   : Table LoadSt
  ctxs    : Table CtxSt
  rounds  : Table (Option Round)
  /-- Sessions by light die × 2^20 + entry (R290). -/
  sess    : Table Session
  est     : Table EstLd
  lanes   : Table LaneX
  /-- Bundles by light die × 16 + k. -/
  bundles : Table Bundle
  /-- Router input buffers by light die. -/
  router  : Table (List RouterPkt)
  /-- Fold stream table entries by STREAM_TAG (R332). -/
  fst     : Table QWord
  /-- Copies of entries that a light die's wake from OFF has cleared, by light die × 65,536 + STREAM_TAG (R438). -/
  fstLost : Table Bool
  slots   : List RedSlot
  /-- What the SEALs REMASK of each I-strand have written of their destinations and no engine has sent (R337). -/
  sealed  : Table (List SealOut)
  conns   : Table Conn
  regions : Table Region
  /-- INST of each barrier by context × 256 + number, and the modules the coordinator has counted (R371). -/
  barInst : Table (BitVec 16)
  barMods : Table (List (BitVec 14))
  /-- Pairs of ROUND_ID and state of PHASE messages acted on (R372). -/
  phases  : List (Word × Byte)
  /-- Key halves by slot × 2 (ACTIVE) and slot × 2 + 1 (PENDING) (R404). -/
  keys    : Table KeyHalf
  /-- PSTATE of each slot (R408). -/
  pstate  : Table (BitVec 2)
  hss     : HssSt
  ent     : EntSt
  pd      : Table PdX
  gov     : Gov
  pins    : Pins
  sup     : Sup
  boot    : Boot
  mgmt    : Mgmt
  hub     : Hub
  /-- Self-test of each compute die (R478). -/
  tests   : Table (Option TestSt)
  /-- SEQ of the next record offered to each event queue (R482). -/
  evSeq   : Table Word
  /-- The model's own: the next free value to take. -/
  freeCtr : Nat
  /-- The model's own: what the last command reported. -/
  reply   : Reply
  /-- The model's own: what the module has put out, in order. -/
  out     : List Out
  /-- The commands that wait, first in, first out. -/
  pending : List Instr
deriving DecidableEq, Repr

/-- The reasons a step stops with a fault: the block has none; every failure the spec gives is a status in State. The
constructor stands for a machine halted with nothing to run and is raised by no command. -/
inductive Fault where
  /-- Raised by no command; safe. -/
  | none
deriving DecidableEq, Repr

/-- The reasons a command has no meaning. -/
inductive Refusal where
  /-- Raised by Dispatch for a row that has no meaning yet; safe (the step stops). -/
  | notModelled (mnemonic : String)
deriving DecidableEq, Repr

/-- The machine right after cold reset with nothing commanded (R519): every register at its reset value, memory with
nothing listed, every unit idle. -/
def State.reset : State :=
  { part := .m12l4, regs := [], latch := [], wbuf := [], time := [], mem := [], hubMem := [], ecc := [], d2d := [], banks := [],
    granule := [], major := [], minor := [], crypt := [], badLine := [], badNode := [], dirty := [], cached := [], nodeCnt := [], passAt := [], patrol := [], stages := [],
    strands := [], seeds := [], seedShard := [], seedBuf := [], queues := [], psets := [], evk := [], loads := [], ctxs := [], rounds := [],
    sess := [], est := [], lanes := [], bundles := [], router := [], fst := [], fstLost := [], slots := [], sealed := [], conns := [],
    regions := [], barInst := [], barMods := [], phases := [], keys := [], pstate := [], hss := ⟨0, 0, false, none⟩,
    ent := EntSt.zero, pd := [], gov := Gov.zero, pins := Pins.zero, sup := Sup.zero, boot := Boot.zero,
    mgmt := Mgmt.zero, hub := ⟨none, [], false, false⟩, tests := [], evSeq := [], freeCtr := 0, reply := ⟨0, 0⟩, out := [],
    pending := [] }

end Sys2Proof.Machine
end

