-- ==== Sys2Proof/Machine/Ops.lean ====
section
/-! DEFINITION. The shared operations: status codes, bit fields, registers, byte strings, memories, free values,
timestamps, event records, replies. -/

namespace Sys2Proof.Machine

/-- What a command answers. -/
abbrev Result := Host.Outcome State Fault Refusal

/-! ### Status codes (R8) -/

namespace Code
def ok : Byte := 0x00
def deferred : Byte := 0x01
def busy : Byte := 0x02
def retryAfter : Byte := 0x03
def eccCorrected : Byte := 0x08
def keyRevoked : Byte := 0x10
def keytagMismatch : Byte := 0x11
def levelExhausted : Byte := 0x12
def poisonedOperand : Byte := 0x13
def entropyUnavailable : Byte := 0x14
def integrityFail : Byte := 0x15
def eccUncorrectable : Byte := 0x16
def aeadFail : Byte := 0x17
def duplicateChunk : Byte := 0x18
def formatError : Byte := 0x19
def regionRevoked : Byte := 0x20
def regionKeyInvalid : Byte := 0x21
def accessBounds : Byte := 0x22
def contextUnavailable : Byte := 0x23
def retryExceeded : Byte := 0x24
def connectionClosed : Byte := 0x25
def lifecycleDenied : Byte := 0x30
def attributeDenied : Byte := 0x31
def signatureFail : Byte := 0x32
def thermalHalt : Byte := 0x40
def regulatorFault : Byte := 0x41
def wakeFail : Byte := 0x42
def internalError : Byte := 0xFF
end Code

/-- The values of R8's table. -/
def listedCodes : List Byte :=
  [Code.ok, Code.deferred, Code.busy, Code.retryAfter, Code.eccCorrected, Code.keyRevoked, Code.keytagMismatch,
   Code.levelExhausted, Code.poisonedOperand, Code.entropyUnavailable, Code.integrityFail, Code.eccUncorrectable,
   Code.aeadFail, Code.duplicateChunk, Code.formatError, Code.regionRevoked, Code.regionKeyInvalid, Code.accessBounds,
   Code.contextUnavailable, Code.retryExceeded, Code.connectionClosed, Code.lifecycleDenied, Code.attributeDenied,
   Code.signatureFail, Code.thermalHalt, Code.regulatorFault, Code.wakeFail, Code.internalError]

/-- A code received from outside: a reserved value is treated as INTERNAL_ERROR (R9). -/
def codeOf (c : Byte) : Byte := if listedCodes.contains c then c else Code.internalError

/-! ### Bit fields -/

/-- Ones at bits [hi:lo]. -/
def mask (hi lo : Nat) : Word := (BitVec.allOnes 32 >>> (31 - (hi - lo))) <<< lo

/-- Field [hi:lo] of a word. -/
def bits (v : Word) (hi lo : Nat) : Nat := ((v &&& mask hi lo) >>> lo).toNat

/-- A word with field [hi:lo] replaced. -/
def setBits (v : Word) (hi lo x : Nat) : Word :=
  (v &&& ~~~(mask hi lo)) ||| ((BitVec.ofNat 32 x <<< lo) &&& mask hi lo)

/-- Bit n of a word. -/
def bit (v : Word) (n : Nat) : Bool := v.getLsbD n

/-- 1 for true. -/
def b2n (b : Bool) : Nat := if b then 1 else 0

/-! ### Bytes -/

/-- n bytes of x, little-endian. -/
def le : Nat → Nat → Bytes
  | 0, _ => []
  | n + 1, x => BitVec.ofNat 8 x :: le n (x / 256)

/-- n bytes of x, big-endian. -/
def be (n x : Nat) : Bytes := (le n x).reverse

/-- The number that bytes spell, little-endian. -/
def fromLE : Bytes → Nat
  | [] => 0
  | b :: bs => b.toNat + 256 * fromLE bs

/-- The number that bytes spell, big-endian. -/
def fromBE (bs : Bytes) : Nat := fromLE bs.reverse

/-- Little-endian field of n bytes at offset o of an object. -/
def field (b : Bytes) (o n : Nat) : Nat := fromLE ((b.drop o).take n)

/-- n bytes at offset o of an object. -/
def sub (b : Bytes) (o n : Nat) : Bytes := (b.drop o).take n

/-- Exactly n bytes: cut or padded with zeros. -/
def padTo (n : Nat) (b : Bytes) : Bytes := (b ++ List.replicate n 0).take n

/-! ### Registers -/

/-- The stored word of a register. -/
def State.reg (s : State) (a : Nat) : Word := s.regs.get regReset a

/-- Store a register's word. -/
def State.setReg (s : State) (a : Nat) (v : Word) : State := { s with regs := s.regs.put regReset a v }

/-- Field [hi:lo] of a register. -/
def State.fld (s : State) (a hi lo : Nat) : Nat := bits (s.reg a) hi lo

/-- Replace field [hi:lo] of a register. -/
def State.setFld (s : State) (a hi lo x : Nat) : State := s.setReg a (setBits (s.reg a) hi lo x)

/-- Raise field [hi:lo] of a register by n; it saturates. -/
def State.addFld (s : State) (a hi lo n : Nat) : State :=
  s.setFld a hi lo (min (s.fld a hi lo + n) (2 ^ (hi + 1 - lo) - 1))

/-- Raise a 32-bit counter by one; it saturates at 0xFFFF_FFFF. -/
def State.count (s : State) (a : Nat) : State := s.addFld a 31 0 1

/-- The 64-bit value of a pair whose _LO is at a. -/
def State.reg64 (s : State) (a : Nat) : Nat := (s.reg a).toNat + 2 ^ 32 * (s.reg (a + 4)).toNat

/-- Store a pair. -/
def State.setReg64 (s : State) (a v : Nat) : State :=
  (s.setReg a (BitVec.ofNat 32 v)).setReg (a + 4) (BitVec.ofNat 32 (v / 2 ^ 32))

/-- Raise a 64-bit counter. -/
def State.count64 (s : State) (a n : Nat) : State := s.setReg64 a (s.reg64 a + n)

/-- Registers whose address satisfies p take their reset values. -/
def State.resetRegs (s : State) (p : Nat → Bool) : State := { s with regs := s.regs.clear p }

/-! ### Memories -/

/-- What an unlisted memory byte reads as (notes/assumptions/3.md). -/
def blank : Nat → Byte := fun _ => 0

/-- One byte of HBM or of a bank. -/
def State.byte (s : State) (a : Nat) : Byte := Table.get blank s.mem a

/-- Bytes of HBM or of a bank. -/
def State.bytes (s : State) (a n : Nat) : Bytes := Table.getList blank s.mem a n

/-- Store bytes to HBM or to a bank. -/
def State.store (s : State) (a : Nat) (bs : Bytes) : State := { s with mem := Table.putList blank s.mem a bs }

/-- Bytes in [a, a + n) read zero again. -/
def State.zeroMem (s : State) (a n : Nat) : State :=
  { s with mem := Table.clear (fun k => decide (a ≤ k ∧ k < a + n)) s.mem }

/-- Bytes of hub SRAM. -/
def State.hubBytes (s : State) (o n : Nat) : Bytes := Table.getList blank s.hubMem o n

/-- Store bytes to hub SRAM. -/
def State.hubStore (s : State) (o : Nat) (bs : Bytes) : State :=
  { s with hubMem := Table.putList blank s.hubMem o bs }

/-- The canonical form of the memories. -/
def State.memWf (s : State) : Bool := Table.wf blank s.mem && Table.wf blank s.hubMem

/-- Text as bytes. -/
def ascii (t : String) : Bytes := t.toList.map (fun c => BitVec.ofNat 8 c.toNat)

/-! ### Free values -/

/-- The next free value. -/
def State.free (s : State) : DWord := Config.freeValue s.freeCtr

/-- The state after n free values have been taken. -/
def State.took (s : State) (n : Nat) : State := { s with freeCtr := s.freeCtr + n }

/-- 8 × n free bytes, from the n next free values. -/
def State.freeBytes (s : State) : Nat → Bytes
  | 0 => []
  | n + 1 => State.freeBytes s n ++ le 8 (Config.freeValue (s.freeCtr + n)).toNat

/-! ### Answers -/

/-- The command completes with a status code. -/
def State.done (s : State) (code : Byte) : State := { s with reply := ⟨code, 0⟩ }

/-- The command completes and returns a value. -/
def State.val (s : State) (v : Nat) : State := { s with reply := ⟨Code.ok, BitVec.ofNat 64 v⟩ }

/-- The command puts something out. -/
def State.emit (s : State) (o : Out) : State := { s with out := s.out ++ [o] }

/-- A command that finds its condition absent changes nothing: the event it stands for has not come about. -/
def State.idle (s : State) : State := s.done Code.ok

/-! ### Time (R28) -/

/-- A timestamp in a clock domain. -/
def State.stamp (s : State) (dom : Nat) : Nat := dom * 2 ^ 56 + (s.time.get (fun _ => 0) dom).toNat

/-- COUNT of a domain restarts at zero (R29). -/
def State.zeroTime (s : State) (p : Nat → Bool) : State := { s with time := s.time.clear p }

/-! ### Event records (R482, R544) -/

/-- What a record carries beside SEQ and TIME. -/
structure Ev where
  src  : Nat
  kind : Nat
  code : Byte
  dom  : Nat
  /-- UNIT: die class, die, unit number, stage. -/
  cls  : Nat
  die  : Nat
  unit : Nat
  stg  : Nat
  ctx  : Option Nat
  addr : Nat
  info : Nat
deriving DecidableEq, Repr

/-- A record with no context and no address, in the AON domain. -/
def Ev.of (src kind : Nat) (code : Byte) (cls die unit info : Nat) : Ev :=
  ⟨src, kind, code, 0, cls, die, unit, 0, none, 0, info⟩

/-- The 64 bytes of a record. -/
def Ev.bytes (e : Ev) (seq : Word) (time : Nat) : Bytes :=
  le 4 seq.toNat ++ le 1 e.src ++ le 1 e.code.toNat ++ le 2 e.kind ++ le 8 time ++
  le 4 (e.cls * 2 ^ 28 + e.die * 2 ^ 24 + e.unit * 2 ^ 16 + e.stg * 2 ^ 8) ++
  le 1 (match e.ctx with | some c => c | none => 0x80) ++ le 3 0 ++ le 8 e.addr ++ le 32 e.info

/-- Where queue q lies in hub SRAM (R471). -/
def evqBase (q : Nat) : Nat :=
  if q = 0 then 0x1B00000 else if q = 3 then 0x1B40000 else if q = 1 then 0x2000000 else 0x2040000

/-- NONEMPTY and COUNT follow HEAD and TAIL (R483). -/
def State.evqRefresh (s : State) (q : Nat) : State :=
  let h := s.fld (Reg.evqHead q) 11 0
  let t := s.fld (Reg.evqTail q) 11 0
  (s.setFld (Reg.evqStat q) 11 0 ((t + 4096 - h) % 4096)).setFld (Reg.evqStat q) 30 30 (b2n (decide (h ≠ t)))

/-- A producer offers a record to queue q: it is written whole and TAIL advances, or the queue is full and it is
dropped with OVERRUN and EVQ_DROP (R481). -/
def State.post (s : State) (q : Nat) (e : Ev) : State :=
  let seq := s.evSeq.get (fun _ => 0) q
  let s1 := { s with evSeq := s.evSeq.put (fun _ => 0) q (seq + 1) }
  let t := s.fld (Reg.evqTail q) 11 0
  if (t + 1) % 4096 = s.fld (Reg.evqHead q) 11 0 then
    (s1.setFld (Reg.evqStat q) 31 31 1).count (Reg.evqDrop q)
  else
    ((s1.hubStore (evqBase q + 64 * t) (e.bytes seq (s.stamp e.dom))).setFld (Reg.evqTail q) 11 0
      ((t + 1) % 4096)).evqRefresh q

/-- The interrupt level of queue q (R483). -/
def State.evqIrq (s : State) (q : Nat) : Bool :=
  s.fld (Reg.evqCtl q) 31 31 = 1 ∧ max 1 (s.fld (Reg.evqCtl q) 11 0) ≤ s.fld (Reg.evqStat q) 11 0

/-! ### The part (R2, R4, R31, R52) -/

/-- Light dies fitted. -/
def Part.ldCount : Part → Nat
  | .m12l4 => 4
  | .m12l3 => 3
  | .m8l4 => 4
  | .m8l2 => 2

/-- An M12 part. -/
def Part.m12 : Part → Bool
  | .m12l4 => true
  | .m12l3 => true
  | .m8l4 => false
  | .m8l2 => false

/-- HBM stacks per compute die. -/
def Part.stacksPerDie (p : Part) : Nat := if p.m12 then 3 else 2

/-- SYS_CAPS (R4). -/
def Part.caps : Part → Word
  | .m12l4 => 0x0020404C
  | .m12l3 => 0x0018303C
  | .m8l4 => 0x00204048
  | .m8l2 => 0x00102028

/-- Bytes of a die's HBM block and of its data range (R52). -/
def Part.block (p : Part) : Nat := if p.m12 then 0x12_00000000 else 0xC_00000000
def Part.dataSize (p : Part) : Nat := if p.m12 then 0xF_C0000000 else 0xA_80000000

/-- Where an address lies (R31). -/
inductive Place where
  | hbm (die : Nat) (off : Nat)
  | metadata (die : Nat)
  | bank (die b : Nat) (off : Nat)
  | setAlias (die b : Nat) (off : Nat)
  | clrAlias (die b : Nat) (off : Nat)
  | regs
  | nowhere
deriving DecidableEq, Repr

/-- The bank a window offset names. -/
def bankPlace (d o : Nat) : Place :=
  if o < 0x60000000 then .bank d (o / 0x4000000) (o % 0x4000000)
  else if 0x80000000 ≤ o ∧ o < 0xE0000000 then
    .setAlias d ((o - 0x80000000) / 0x4000000) ((o - 0x80000000) % 0x4000000)
  else if 0x100000000 ≤ o ∧ o < 0x160000000 then
    .clrAlias d ((o - 0x100000000) / 0x4000000) ((o - 0x100000000) % 0x4000000)
  else .nowhere

/-- The place of a physical address on a part (R6, R31, R32, R52). -/
def place (p : Part) (a : Nat) : Place :=
  if a < 4 * p.block then
    (if a % p.block < p.dataSize then .hbm (a / p.block) (a % p.block) else .metadata (a / p.block))
  else if 0x0100_00000000 ≤ a ∧ a < 0x0108_00000000 then
    bankPlace ((a - 0x0100_00000000) / 0x2_00000000) ((a - 0x0100_00000000) % 0x2_00000000)
  else if 0x0F00_00000000 ≤ a ∧ a < 0x0F00_04000000 then .regs
  else .nowhere

/-- Address of byte `off` of bank b of CDd in the normal window. -/
def bankAddr (d b off : Nat) : Nat := 0x0100_00000000 + d * 0x2_00000000 + b * 0x4000000 + off

/-- First address of an HBM block. -/
def Part.blockBase (p : Part) (d : Nat) : Nat := d * p.block

/-- Stack position Mk of an HBM address (R53). -/
def stackOf (p : Part) (a : Nat) : Nat := 3 * (a / p.block) + (a % p.block / 4096) % p.stacksPerDie

/-! ### The die-to-die links (R12–R16) -/

/-- The die a requester is on: CDd is d, LDl is 4 + l, HD is 8. -/
def requesterDie : Requester → Nat
  | .strand d _ => d.val
  | .dma d _ => d.val
  | .hub _ _ => 8
  | .tideway l _ => 4 + l.val
  | .estuary l => 4 + l.val

/-- The die whose memory an address names; `r` itself where none does. -/
def placeDie (r : Nat) : Place → Nat
  | .hbm d _ => d
  | .metadata d => d
  | .bank d _ _ => d
  | .setAlias d _ _ => d
  | .clrAlias d _ _ => d
  | .regs => r
  | .nowhere => r

/-- Ports passed along the ring from CDa to CDb: to a neighbour directly, to the opposite die by increasing number
(R14). -/
def ringPorts (a b : Nat) : List Nat :=
  if a = b then []
  else if (a + 1) % 4 = b ∨ (b + 1) % 4 = a then [a * 16 + b]
  else [a * 16 + (a + 1) % 4, (a + 1) % 4 * 16 + b]

/-- Receiving ports that a word passes from die a to die b, in order (R13, R14). -/
def route (a b : Nat) : List Nat :=
  if a = b then []
  else if a = 8 ∨ b = 8 then [a * 16 + b]
  else
    (if 4 ≤ a then [a * 16 + (a - 4)] else []) ++ ringPorts (a % 4) (b % 4) ++ (if 4 ≤ b then [(b - 4) * 16 + b] else [])

def State.port (s : State) (k : Nat) : PortX := s.d2d.get (fun _ => PortX.zero) k
def State.setPort (s : State) (k : Nat) (x : PortX) : State := { s with d2d := s.d2d.put (fun _ => PortX.zero) k x }

/-- The record of an uncorrectable word at a receiving port; its syndrome is free (R16, R57, R544). -/
def State.portUe (s : State) (k : Nat) : State :=
  let n := k % 16
  (s.post 0 (Ev.of 2 1 Code.eccUncorrectable (if n < 4 then 0 else if n < 8 then 1 else 2) (if n < 8 then n % 4 else 0) 0
    (s.free.toNat % 65536))).took 1

/-- A word passes receiving ports: a corrected word is counted there; an uncorrectable one is reported by its port and
arrives poisoned (true) at the end of the route (R16). The later ports of the route neither count nor report it, and keep their
marks (DESIGN CHOICE, notes/assumptions/100.md). -/
def State.crossPorts (s : State) : List Nat → State × Bool
  | [] => (s, false)
  | k :: ks =>
    match (s.port k).mark with
    | .good => s.crossPorts ks
    | .oneNibble _ _ => (s.setPort k ⟨.good, (s.port k).ce + 1⟩).crossPorts ks
    | .uncorrectable => ((s.setPort k ⟨.good, (s.port k).ce⟩).portUe k, true)

/-- Data that units on dies a and b pass along the ring: poisoned on the way it is not used, and `bad` answers (R16). -/
def State.across (s : State) (a b : Nat) (bad k : State → State) : State :=
  let y := s.crossPorts (route a b)
  if y.2 then bad y.1 else k y.1

/-- No word is in error at any port. -/
def State.linksClean (s : State) : Bool := s.d2d.all (fun e => decide (e.2.mark = .good))

/-- Words that the receiving ports have corrected. -/
def State.linkCe (s : State) : Nat := (s.d2d.map (fun e => e.2.ce)).sum

/-- Words that the receiving ports corrected on the way to state t (R8, R16). -/
def State.linkCeTo (s t : State) : Nat := t.linkCe - s.linkCe

/-- A success on whose way n words were corrected reports ECC_CORRECTED (R8, R55). -/
def State.ceReply (s : State) (n : Nat) : State :=
  if s.reply.status = Code.ok ∧ 0 < n then { s with reply := { s.reply with status := Code.eccCorrected } } else s

end Sys2Proof.Machine
end

