-- ==== Sys2Proof/Machine/Drbg.lean ====
section
/-! DEFINITION. The entropy source inside the module (R423–R431): the tests of raw bits, the conditioner, the root generator, the
ports, and what a unit draws from its port. -/

namespace Sys2Proof.Machine

/-! ENT_STAT.STATE (R433). -/
namespace ES
def startup : Nat := 0
def running : Nat := 1
def failed : Nat := 2
def dead : Nat := 3
end ES

def State.entState (s : State) : Nat := s.fld Reg.entStat 31 29
def State.setEntState (s : State) (x : Nat) : State := s.setFld Reg.entStat 31 29 x
/-- The entropy source gives output (R427). -/
def State.entRunning (s : State) : Bool := s.fld Reg.entStat 31 29 = 1
/-- IN_USE. -/
def State.oscInUse (s : State) : Nat := s.fld Reg.entStat 7 0
def State.setInUse (s : State) (m : Nat) : State := s.setFld Reg.entStat 7 0 m
/-- Oscillators a mask names. -/
def oscCount (m : Nat) : Nat := ((List.range 8).filter (fun n => m.testBit n)).length

/-- What an internal port answers (R429, R431): stalls in STARTUP, serves in RUNNING, refuses otherwise. -/
inductive EntAns where
  | stall
  | served
  | refused
deriving DecidableEq, Repr

def State.entPort (s : State) : EntAns :=
  if s.fld Reg.entStat 31 29 = 0 then .stall else if s.fld Reg.entStat 31 29 = 1 then .served else .refused

/-- EMPTY follows the state: output is there only in RUNNING (R429, R431). -/
def State.emptySet (s : State) (e : Bool) : State := s.setFld Reg.entStat 28 28 (b2n e)

/-! ### Failures (R424, R430) -/

/-- The block in progress is discarded: it holds samples of an oscillator that is excluded, or taken when the interleaved
stream failed (R424). -/
def State.dropBlock (s : State) : State := { s with ent := { s.ent with fill := 0 } }

/-- The root and every port are zeroed, no output leaves (R430). -/
def State.zeroDrbg (s : State) : State :=
  ({ s with ent := { s.ent with
    root := 0, ports := [], inst := false, blocks := [], reseeds := 0, ready := [], taken := [] } }).dropBlock.emptySet true

/-- The source leaves RUNNING for FAILED (R430); ATTEMPT counts from there (R433). -/
def State.entFail (s : State) : State := ((s.setEntState ES.failed).setFld Reg.entStat 23 22 0).zeroDrbg

/-- ENT_HEALTH bits of one oscillator, or of the interleaved stream. -/
def State.health (s : State) (osc : Option (Fin 8)) (rct apt : Bool) : State :=
  match osc with
  | some o =>
    let s1 := if rct then s.setFld Reg.entHealth o.val o.val 1 else s
    if apt then s1.setFld Reg.entHealth (8 + o.val) (8 + o.val) 1 else s1
  | none =>
    let s1 := if rct then s.setFld Reg.entHealth 16 16 1 else s
    if apt then s1.setFld Reg.entHealth 17 17 1 else s1

/-- An oscillator leaves the set in use; the block that holds its samples is discarded (R424). -/
def State.exclude (s : State) (o : Nat) : State := (s.setFld Reg.entStat o o 0).dropBlock

/-- One more oscillator excluded while RUNNING; the third, or fewer than six left, fails the source (R430). -/
def State.exclCount (s : State) : State :=
  let n := s.ent.excl + 1
  let t := { s with ent := { s.ent with excl := n } }
  if 3 ≤ n ∨ oscCount s.oscInUse < 6 then t.entFail else t

/-- An oscillator fails a test: it is excluded, in RUNNING with a record (R428, R430). -/
def State.oscFails (s : State) (o : Fin 8) (rct apt : Bool) : State :=
  let s1 := (s.health (some o) rct apt).exclude o.val
  if s.entState = ES.running then
    (s1.post 3 (Ev.of 6 3 Code.ok 4 0 0 (o.val + b2n rct * 2 ^ 8 + b2n apt * 2 ^ 9))).exclCount
  else s1

/-- The interleaved stream fails a test: a RUNNING source fails; a startup fails at its end (R428, R430). -/
def State.combFails (s : State) (rct apt : Bool) : State :=
  let t := (s.health none rct apt).dropBlock
  if s.entState = ES.running then t.entFail else t

/-- The interleaved stream has failed a test since the startup began. -/
def State.combBad (s : State) : Bool := decide (s.fld Reg.entHealth 17 16 ≠ 0)

/-! ### Raw bits (R423, R424) -/

/-- One sample under both tests, as SP 800-90B gives them. -/
def OscTest.take (x : OscTest) (b : Bool) : OscTest :=
  { last := some b
    run := if x.last = some b then x.run + 1 else 1
    first := if x.pos = 0 then b else x.first
    pos := (x.pos + 1) % 1024
    same := if x.pos = 0 then 1 else if x.first = b then x.same + 1 else x.same }
/-- The cutoffs are reached: 41 identical samples; the window's first sample 795 times. -/
def OscTest.rct (x : OscTest) : Bool := decide (41 ≤ x.run)
def OscTest.apt (x : OscTest) : Bool := decide (795 ≤ x.same)

def State.test (s : State) (n : Nat) : OscTest := s.ent.tests.get (fun _ => OscTest.zero) n
def State.testBit (s : State) (n : Nat) (b : Bool) : State :=
  { s with ent := { s.ent with tests := s.ent.tests.put (fun _ => OscTest.zero) n ((s.test n).take b) } }

/-- One raw bit absorbed; the 1,024th completes a block, which goes into the queue to the hub's clock domain (R26). -/
def EntSt.absorb (x : EntSt) (b : Bool) : EntSt :=
  let v := Config.condStep x.shift b
  if x.fill = 1023 then { x with shift := v, fill := 0, ready := x.ready ++ [v] } else { x with shift := v, fill := x.fill + 1 }

/-- A sample of an oscillator in use: under its own tests, then those of the interleaved stream; absorbed if it passed. -/
def State.sampleOsc (s : State) (n : Fin 8) (b : Bool) : State :=
  if ¬ s.oscInUse.testBit n.val ∨ (s.entState ≠ ES.startup ∧ s.entState ≠ ES.running) then s
  else
    let t := s.testBit n.val b
    let x := t.test n.val
    if x.rct ∨ x.apt then t.oscFails n x.rct x.apt
    else
      let u := t.testBit 8 b
      let y := u.test 8
      if y.rct ∨ y.apt then u.combFails y.rct y.apt else { u with ent := u.ent.absorb b }

/-- A cycle of the sampling clock: one raw bit, a free value, of each oscillator in use, in ascending order (R423). -/
def State.sample (s : State) : State :=
  (([0, 1, 2, 3, 4, 5, 6, 7] : List (Fin 8)).foldl (fun t n => t.sampleOsc n (s.free.getLsbD n.val)) s).took 1

/-- Cycles until n blocks have been released or the source stops; `fuel` bounds them. -/
def State.condition (s : State) (n : Nat) : Nat → State
  | 0 => s
  | fuel + 1 =>
    if n ≤ s.ent.ready.length ∨ (s.entState ≠ ES.startup ∧ s.entState ≠ ES.running) ∨ s.combBad then s
    else s.sample.condition n fuel

/-- The root takes n fresh blocks, if the source gives them (R424, R425): with six oscillators in use a block takes 171 cycles,
and an exclusion, of which RUNNING allows two, discards at most one block. -/
def State.takeBlocks (s : State) (n : Nat) : State :=
  let t := s.condition n (171 * (n + 2))
  if n ≤ t.ent.ready.length then
    { t with ent := { t.ent with taken := t.ent.ready.take n, ready := t.ent.ready.drop n } }
  else { t with ent := { t.ent with taken := [] } }

/-- The blocks taken, as bytes. -/
def blockBytes (bs : List (BitVec 256)) : Bytes := (bs.map (fun b => le 32 b.toNat)).flatten

/-! ### The root and the ports (R425, R426) -/

/-- The root reseeds from two fresh blocks (R425). -/
def State.reseedRoot (s : State) : State :=
  let t := s.takeBlocks 2
  if t.entRunning ∧ t.ent.taken.length = 2 then
    { t with ent := { t.ent with root := Config.drbgReseed t.ent.root (blockBytes t.ent.taken), reseeds := t.ent.reseeds + 1 } }
  else t

/-- 512 bits of root output, and the root once they are out. -/
def rootOut (r : BitVec 384) : Bytes := (List.range 8).flatMap (fun k => le 8 (Config.drbgWord r k).toNat)
def rootNext (r : BitVec 384) : BitVec 384 := Config.drbgNext r 8

/-- The root is instantiated from the three blocks taken, 512 bits as entropy input and 256 as nonce, and every port from the root
(R425, R426). -/
def EntSt.instantiate (x : EntSt) : EntSt :=
  let r := Config.drbgSeed (blockBytes (x.taken.take 2)) (blockBytes (x.taken.drop 2))
  (List.range 37).foldl (fun y p =>
    { y with root := rootNext y.root, ports := y.ports.put (fun _ => 0) p (Config.drbgSeed (rootOut y.root) []) })
    { x with root := r, ports := [], blocks := [], reseeds := 0, inst := true }

/-- A port is reseeded from the root (R426). -/
def State.reseedPort (s : State) (p : Nat) : State :=
  let x := s.ent
  { s with ent := { x with
    root := rootNext x.root
    ports := x.ports.put (fun _ => 0) p (Config.drbgReseed (x.ports.get (fun _ => 0) p) (rootOut x.root))
    blocks := x.blocks.put (fun _ => 0) p 0 } }

/-- A port that has given 2^20 blocks is reseeded before it gives another (R426). -/
def State.portReady (s : State) (p : Nat) : State :=
  if 2 ^ 20 ≤ s.ent.blocks.get (fun _ => 0) p then s.reseedPort p else s

/-- 64-bit word k of the output that a port gives next, and the port once n words are out: n ÷ 2 blocks, rounded up. -/
def State.portWord (s : State) (p k : Nat) : DWord := Config.drbgWord (s.ent.ports.get (fun _ => 0) p) k
def State.portNext (s : State) (p n : Nat) : State :=
  let x := s.ent
  { s with ent := { x with
    ports := x.ports.put (fun _ => 0) p (Config.drbgNext (x.ports.get (fun _ => 0) p) n)
    blocks := x.blocks.put (fun _ => 0) p (x.blocks.get (fun _ => 0) p + (n + 1) / 2) } }

/-- Word k of n words drawn through a port, and the state once they are drawn (R426, R427). -/
def State.drawn (s : State) (p k : Nat) : DWord := (s.portReady p).portWord p k
def State.draw (s : State) (p n : Nat) : State := (s.portReady p).portNext p n
/-- n words drawn, as bytes. -/
def State.drawnBytes (s : State) (p n : Nat) : Bytes := (List.range n).flatMap (fun k => le 8 (s.drawn p k).toNat)

/-! The ports (R426). -/
namespace Port
def add (i : Nat) : Nat := i
def fold (i : Nat) : Nat := 16 + i
def keyStore : Nat := 32
def publicKey : Nat := 33
def daxna : Nat := 34
def tideway : Nat := 35
def reg : Nat := 36
end Port

end Sys2Proof.Machine
end

