-- ==== Sys2Proof/Machine/StrandOps.lean ====
section
/-! DEFINITION. Operations over strands and stages: kinds, states, power, reset and unbinding, and taking a stage fault
(R98, R99, R126–R128), the module's one shared fault entry, with the handler's return beside it. -/

namespace Sys2Proof

/-- Die, strand and stage of a place. -/
def Loc.d (l : Loc) : Nat := l.die.val
def Loc.s (l : Loc) : Nat := l.strand.val
def Loc.g (l : Loc) : Nat := l.stage.val

end Sys2Proof

namespace Sys2Proof.Machine

/-- Kind of strand s: 0 I, 1 C, 2 F (R61). -/
def strandKind (s : Nat) : Nat := if s < 4 then 0 else if s < 10 then 1 else 2

/-- Stages of a kind (R61). -/
def kindStages (k : Nat) : Nat := if k = 0 then 5 else if k = 1 then 8 else 4

/-- Index of a strand and of a stage. -/
def strandIx (d s : Nat) : Nat := d * 12 + s
def stageIx (d s g : Nat) : Nat := (d * 12 + s) * 8 + g

end Sys2Proof.Machine

namespace Sys2Proof

/-- Kind and stage index of a place. -/
def Loc.kind (l : Loc) : Nat := Machine.strandKind l.strand.val
def Loc.ix (l : Loc) : Nat := Machine.stageIx l.die.val l.strand.val l.stage.val

end Sys2Proof

namespace Sys2Proof.Machine

def State.stage (s : State) (i : Nat) : Stage := s.stages.get (fun _ => Stage.zero) i
def State.setStage (s : State) (i : Nat) (x : Stage) : State :=
  { s with stages := s.stages.put (fun _ => Stage.zero) i x }
def State.strand (s : State) (i : Nat) : Strand := s.strands.get (fun _ => Strand.zero) i
def State.setStrand (s : State) (i : Nat) (x : Strand) : State :=
  { s with strands := s.strands.put (fun _ => Strand.zero) i x }

/-! STRAND_STAT.STATE codes (R95). -/
namespace SS
def unbound : Nat := 0
def ready : Nat := 1
def running : Nat := 2
def draining : Nat := 3
def halted : Nat := 4
def faulted : Nat := 5
def selftest : Nat := 6
end SS

def State.sst (s : State) (d st : Nat) : Nat := s.fld (Reg.strandStat d st) 31 29
def State.setSst (s : State) (d st x : Nat) : State := s.setFld (Reg.strandStat d st) 31 29 x
/-- Context a strand is bound to. -/
def State.sctx (s : State) (d st : Nat) : Nat := s.fld (Reg.strandStat d st) 15 12

/-- Power domain of a strand and of a bank's half-array (R436). -/
def pdStrand (d st : Nat) : Nat := 14 * d + st
def pdBank (d b : Nat) : Nat := 14 * d + 12 + b / 12
def pdLd (l : Nat) : Nat := 59 + l
/-- PD_STAT.STATE. -/
def State.pdState (s : State) (n : Nat) : Nat := s.fld (Reg.pdStat n) 31 29
def State.pdOn (s : State) (n : Nat) : Bool := s.pdState n = 0

/-- A domain whose kind permits OFF (R436): a strand, a half-array, or a light die that is fitted (R5). -/
def State.pdMayOff (s : State) (n : Nat) : Bool := n < 56 ∨ (59 ≤ n ∧ n < 59 + s.part.ldCount)

/-- A wake of domain n starts (R442): from IDLE or RETAIN, or from OFF where the kind permits OFF (R447), at once;
while an entry is past its check the level is kept until the entry ends (R446). -/
def State.startWake (s : State) (n : Nat) : State :=
  let st := s.pdState n
  let x := s.pd.get (fun _ => PdX.zero) n
  if st = 1 ∨ st = 2 ∨ (st = 3 ∧ s.pdMayOff n) then
    { s with pd := s.pd.put (fun _ => PdX.zero) n { x with from_ := st } }.setFld (Reg.pdStat n) 31 29 5
  else if st = 4 then { s with pd := s.pd.put (fun _ => PdX.zero) n { x with wake := true } }
  else s

/-- A level that domain n's own state answers: nothing where the domain is ON (R442). -/
def State.wakeUp (s : State) (n : Nat) : State := if s.pdOn n then s else s.startWake n

/-- The strand is bound: READY, RUNNING, DRAINING, HALTED or FAULTED. -/
def State.bound (s : State) (d st : Nat) : Bool := s.sst d st ≠ SS.unbound ∧ s.sst d st ≠ SS.selftest

/-- Strands of the module as (die, strand). -/
def allStrands : List (Nat × Nat) := (List.range 48).map (fun i => (i / 12, i % 12))
/-- Banks of the module as (die, bank). -/
def allBanks : List (Nat × Nat) := (List.range 96).map (fun i => (i / 24, i % 24))

/-- A change to every stage of a strand. -/
def State.eachStage (s : State) (d st : Nat) (f : Stage → Stage) : State :=
  (List.range (kindStages (strandKind st))).foldl (fun t g => t.setStage (stageIx d st g) (f (t.stage (stageIx d st g)))) s

/-- The fault records of a strand read zero, and FAULT_STAGES with them. -/
def State.clearFaults (s : State) (d st : Nat) : State :=
  (s.resetRegs (fun a => decide (Reg.frBase d st 0 ≤ a ∧ a < Reg.frBase d st 8))).setFld (Reg.strandStat d st) 23 16 0

/-- A stage after SRESET: its memories and registers are zero, its program stays (R96, R109). -/
def Stage.sreset (x : Stage) : Stage :=
  { Stage.zero with imem := x.imem, codeWords := x.codeWords, fvec := x.fvec }

/-- The seed table of an I-strand reads zero (R70). -/
def State.zeroSeeds (s : State) (i : Nat) : State :=
  { s with seeds := s.seeds.clear (fun k => decide (i * 4096 ≤ k ∧ k < (i + 1) * 4096)) }

/-- The module's number of an I-strand. -/
def iNum (d st : Nat) : Nat := 4 * d + st

/-- Every tile register, buffer, slot, seed table, cipher table, F_STAT and fault record of a strand zero, and its chunks in
flight (R96, R114, R197); the program and the bind block's parameters stay; the strand is no longer bound to receive
releases (R155). -/
def State.zeroStrand (s : State) (d st : Nat) : State :=
  let i := strandIx d st
  let x := s.strand i
  let s1 := ((s.eachStage d st Stage.sreset).clearFaults d st).setStrand i
    { Strand.zero with params := x.params }
  let s2 := (s1.setFld (Reg.strandStat d st) 25 24 (bits (s.reg (Reg.strandCtl d st)) 28 28 * 2)).setFld (Reg.strandCtl d st) 31 31 0
  if st < 4 then
    { (s2.zeroSeeds (iNum d st)).resetRegs (fun a => (List.range 4).any (fun j => decide (a = Reg.shtFlight d st j))) with
      sealed := s2.sealed.put (fun _ => []) (iNum d st) [] }
  else s2

/-- The counters of an I-strand clear, as at SRESET (R101). -/
def State.clearCounts (s : State) (d st : Nat) : State :=
  if st < 4 then s.resetRegs (fun a => decide (Reg.iCnt d st 0 ≤ a ∧ a < Reg.iCnt d st 0x40)) else s

/-- STATE leaves DRAINING: DRAIN reads 0 (R94). -/
def State.endDrain (s : State) (d st : Nat) : State := s.setFld (Reg.strandCtl d st) 30 30 0

/-- UNBIND: every memory and register of the strand zero, the strand UNBOUND (R108); the counters of R101 stay. -/
def State.unbindStrand (s : State) (d st : Nat) : State :=
  let s1 := ((s.zeroStrand d st).endDrain d st).eachStage d st (fun _ => Stage.zero)
  ((s1.setStrand (strandIx d st) Strand.zero).setFld (Reg.strandStat d st) 15 12 0).setSst d st SS.unbound

/-- Every stage of a strand stops issuing. -/
def State.stopStages (s : State) (d st : Nat) : State :=
  s.eachStage d st (fun x => if x.run = .running then { x with run := .halted } else x)

/-- A queue. -/
def State.queue (s : State) (q : Nat) : PktQ := s.queues.get (fun _ => PktQ.zero) q
def State.setQueue (s : State) (q : Nat) (x : PktQ) : State :=
  { s with queues := s.queues.put (fun _ => PktQ.zero) q x }

/-- Read words of a queue: ingress 8,192, strand receive 2,048, strand completion 256, hub receive 4,096, hub
completion 1,024 (R79, R366). -/
def queueSize (q : Nat) : Nat :=
  if q < 100 then 8192 else if q < 200 then 2048 else if q < 300 then 256 else if q < 310 then 4096 else 1024

/-- Published words not popped, and words the writer counts as occupied (R84). -/
def PktQ.used (q : PktQ) : Nat := (q.pkts.map (fun p => p.words)).sum
def PktQ.wrUsed (q : PktQ) : Nat := q.used + q.unret + (match q.wr with | some p => p.words | none => 0)

/-- Where a hub queue lies in hub SRAM: receive queues, then completion queues (R366, R471). -/
def hubQBase (q : Nat) : Nat := if q < 310 then 0x1400000 + q % 10 * 0x100000 else 0x1800000 + q % 10 * 0x40000

/-- Packets of a hub queue that are not popped, and where the first of them starts: software frees the oldest packet by clearing
FILLED of its head slot (notes/assumptions/132.md). -/
def State.unpopped (s : State) (q : Nat) : List Pkt → Nat → List Pkt × Nat
  | [], a => ([], a)
  | p :: ps, a =>
    if fromLE (s.hubBytes (hubQBase q + 256 * (a % queueSize q)) 4) < 2 ^ 31 then s.unpopped q ps (a + p.words) else (p :: ps, a)

/-- A queue as its writer finds it: a hub queue without the packets that software has freed. -/
def State.queueNow (s : State) (q : Nat) : PktQ :=
  let x := s.queue q
  if q < 300 then x
  else
    let r := s.unpopped q x.pkts x.head
    { x with pkts := r.1, head := r.2 % queueSize q }

/-- Read words the writer sees free: none while the queue is being zeroed (R83, R85). -/
def State.queueFree (s : State) (q : Nat) : Nat :=
  if (s.queue q).zeroing then 0 else queueSize q - (s.queueNow q).wrUsed

/-- The bytes of a packet in a queue: head slot, body, zeros (R80, R82). -/
def Pkt.bytes (p : Pkt) : Bytes :=
  padTo (256 * p.words) (le 8 p.h0.toNat ++ le 8 p.h1.toNat ++ le 8 p.h2.toNat ++ le 8 p.h3.toNat ++ List.replicate 32 0 ++ p.body)

/-- A packet of a hub queue is written from read word a on, around the end of the queue (R366, R471). -/
def State.queuePut (s : State) (q a : Nat) (p : Pkt) : State :=
  (List.range p.words).foldl (fun t k =>
    t.hubStore (hubQBase q + 256 * ((a + k) % queueSize q)) (sub p.bytes (256 * k) 256)) s

/-- A CTRL message of this module goes to the router of LD0, as a packet (R311, R330, R369); no destination: a broadcast. A
message poisoned on the way is lost (R16). -/
def State.sendCtrl (s : State) (dst : Option (BitVec 14)) (msg : Nat) (b : Bytes) : State :=
  let p : Packet :=
    { ptype := 3, cls := 0, hops := 0, dst := dst.getD 0, src := BitVec.ofNat 14 (s.fld (Reg.twTopo 0) 13 0)
      group := s.reg (Reg.twGroup 0)
      fields := BitVec.ofNat 128 (fromBE (be 1 (b2n dst.isNone) ++ be 4 0 ++ be 1 msg ++ padTo 10 b)), payload := [] }
  let y := s.crossPorts (route 8 4)
  if y.2 then y.1
  else { y.1 with router := y.1.router.put (fun _ => []) 0 (y.1.router.get (fun _ => []) 0 ++ [⟨none, 0, p, false⟩]) }

/-- Emptying a queue: published packets are discarded, a packet being written is discarded, zeroing begins (R85). -/
def State.emptyQueue (s : State) (q : Nat) : State := s.setQueue q ⟨[], none, 0, true, (s.queue q).ce, 0⟩

/-- The three queues of a strand empty; an I-strand counts the packets it had published in FLUSHED (R85, R366). -/
def State.flushQueues (s : State) (d st : Nat) : State :=
  let i := strandIx d st
  let s1 := (s.setQueue (100 + i) PktQ.zero).setQueue (200 + i) PktQ.zero
  if st < 4 then
    (s1.addFld (Reg.iCnt d st 0x20) 31 0 (s.queue (iNum d st)).pkts.length).emptyQueue (iNum d st)
  else s1

/-! ### Stage faults -/

/-! FR_INFO.ORIGIN (R99). -/
namespace Origin
def insn : Nat := 0
def inChan : Nat := 1
def outChan : Nat := 2
def mem : Nat := 3
def ingress : Nat := 4
def keyPort : Nat := 5
def governor : Nat := 6
end Origin

/-- What a fault record says beside PC and instruction word. -/
structure FaultInfo where
  code   : Byte
  origin : Nat
  treg   : Nat
  addr   : Nat
  /-- Raised by TRAP. -/
  trap   : Bool
deriving DecidableEq, Repr

/-- A fault of the instruction itself. -/
def FaultInfo.insn (code : Byte) : FaultInfo := ⟨code, Origin.insn, 0, 0, false⟩
/-- A fault of a memory access. -/
def FaultInfo.mem (code : Byte) (addr : Nat) : FaultInfo := ⟨code, Origin.mem, 0, addr, false⟩

/-- The codes of R126 that hardware raises and a handler may take. -/
def handleableHw (c : Byte) : Bool :=
  c = Code.accessBounds ∨ c = Code.eccUncorrectable ∨ c = Code.keytagMismatch ∨ c = Code.levelExhausted ∨
  c = Code.poisonedOperand ∨ c = Code.entropyUnavailable
/-- The codes of R126 that TRAP raises and a handler may take. -/
def handleableTrap (c : Byte) : Bool :=
  handleableHw c ∨ c = Code.duplicateChunk ∨ c = Code.aeadFail ∨ c = Code.formatError ∨ c = Code.retryAfter

/-- The handler PC of a fault, if the vector has one for the code and the code may be handled (R126, R127). -/
def Stage.handlerFor (x : Stage) (f : FaultInfo) : Option Nat :=
  if x.handler then none
  else if (if f.trap then handleableTrap f.code else handleableHw f.code) then
    (x.fvec.find? (fun e => e.1 = f.code)).map (fun e => e.2)
  else none

/-- The fault record of stage l: written whole, or MORE if one is held (R98, R99); FAULT_STAGES and LAST_CODE. -/
def State.faultRecord (s : State) (l : Loc) (f : FaultInfo) : State :=
  let x := s.stage l.ix
  let b := Reg.frBase l.d l.s l.g
  let w := (x.imem.get (fun _ => 0) x.pc).toNat
  let s1 :=
    if s.fld b 31 31 = 1 then s.setFld b 30 30 1
    else
      ((((s.setReg b (BitVec.ofNat 32 (0x80000000 + f.code.toNat * 0x10000 + x.pc % 16384))).setReg64 (b + 4) w).setReg
        (b + 0xC) (BitVec.ofNat 32 (f.treg * 2 ^ 27 + f.origin * 2 ^ 24))).setReg64 (b + 0x10) (f.addr % 2 ^ 48)).setReg64
        (b + 0x18) (s.stamp (0x10 + l.d))
  let ss := Reg.strandStat l.d l.s
  (s1.setFld ss (16 + l.g) (16 + l.g) 1).setFld ss 7 0 f.code.toNat

/-- The record of an uncorrectable word in a stage buffer, tile register, channel or queue; its syndrome is free (R57,
R78, R544). -/
def State.wordUe (s : State) (l : Loc) : State :=
  (s.post 0 { Ev.of 1 3 Code.eccUncorrectable 0 l.d l.s (s.free.toNat % 65536) with stg := l.g }).took 1

/-- The event record of an unhandled fault (R98, R544). -/
def State.faultEvent (s : State) (l : Loc) (f : FaultInfo) : State :=
  s.post 1 ⟨0, 1, f.code, 0x10 + l.d, 0, l.d, l.s, l.g, some (s.sctx l.d l.s), f.addr,
    f.origin + f.treg * 2 ^ 8 + ((s.stage l.ix).pc % 16384) * 2 ^ 16⟩

/-- The stage halts on a fault: the strand is FAULTED, which ends a drain, and a record goes to queue 1 (R94, R98). -/
def State.faultHalt (s : State) (l : Loc) (f : FaultInfo) : State :=
  (((s.setStage l.ix { s.stage l.ix with run := .faulted, wait := .none }).endDrain l.d l.s).setSst l.d l.s
    SS.faulted).faultEvent l f

/-- Return from a handler: VALID and the stage's FAULT_STAGES bit clear, the stage continues at pc (R128). -/
def State.handlerReturn (s : State) (l : Loc) (pc : Nat) : State :=
  let b := Reg.frBase l.d l.s l.g
  let s1 := (s.resetRegs (fun a => decide (b ≤ a ∧ a < b + 0x20))).setFld (Reg.strandStat l.d l.s) (16 + l.g) (16 + l.g) 0
  s1.setStage l.ix { s.stage l.ix with handler := false, pc := pc, epc := 0, ecode := 0 }

/-- A stage that waits at BARW is waiting there. -/
def Stage.atBarw (x : Stage) : Bool := match x.wait with | .barw _ => true | _ => false

/-- A drained stage stops at the BARW it waits at (R125). -/
def Stage.stopBarw (x : Stage) : Stage := if x.atBarw ∧ x.run = .running then { x with run := .halted } else x

/-- A write of STRAND_CTL.DRAIN (R94, R125). -/
def State.drainWrite (s : State) (d st : Nat) : State :=
  if s.sst d st = SS.running then
    ((s.eachStage d st Stage.stopBarw).setFld (Reg.strandCtl d st) 30 30 1).setSst d st SS.draining
  else s

end Sys2Proof.Machine
end

