-- ==== Sys2Proof/Machine/CtxOps.lean ====
section
/-! DEFINITION. Operations over contexts that several families share: states, gates, key slots, connections of a
context, bank handover, fold-out engines, rounds that abort, and a context that faults (R376–R394). -/

namespace Sys2Proof.Machine

/-! CTX_STAT.STATE codes (R377). -/
namespace CS
def absent : Nat := 0
def resident : Nat := 1
def switching : Nat := 2
def parked : Nat := 3
def ending : Nat := 4
def faulted : Nat := 5
end CS

def State.cst (s : State) (c : Nat) : Nat := s.fld (Reg.ctxStat c) 31 29
def State.setCst (s : State) (c x : Nat) : State := s.setFld (Reg.ctxStat c) 31 29 x
def State.ctx (s : State) (c : Nat) : CtxSt := s.ctxs.get (fun _ => CtxSt.zero) c
def State.setCtx (s : State) (c : Nat) (x : CtxSt) : State :=
  { s with ctxs := s.ctxs.put (fun _ => CtxSt.zero) c x }
/-- The context is RESIDENT or PARKED. -/
def State.ctxLive (s : State) (c : Nat) : Bool := s.cst c = CS.resident ∨ s.cst c = CS.parked

/-- Light dies fitted, as numbers. -/
def State.lds (s : State) : List Nat := List.range s.part.ldCount

/-! ### Gates -/

/-- EST_GATE.ACTIVE := 0 on every light die (R294). -/
def State.gateOff (s : State) (c : Nat) : State :=
  s.lds.foldl (fun t l => t.setFld (Reg.estGate l c) 31 31 0) s

/-- EST_GATE.ACTIVE := 1 on one light die: EPOCH rises when ACTIVE goes from 0 to 1 (R294, R301). -/
def State.gateOnLd (s : State) (l c : Nat) : State :=
  if s.fld (Reg.estGate l c) 31 31 = 1 then s
  else (s.setFld (Reg.estGate l c) 31 31 1).setFld (Reg.estGate l c) 23 16 ((s.fld (Reg.estGate l c) 23 16 + 1) % 256)

/-- EST_GATE.ACTIVE := 1 on every light die. -/
def State.gateOn (s : State) (c : Nat) : State := s.lds.foldl (fun t l => t.gateOnLd l c) s

/-- EST_GATE.PHASE on every light die. -/
def State.gatePhase (s : State) (c p : Nat) : State :=
  s.lds.foldl (fun t l => t.setFld (Reg.estGate l c) 3 0 p) s

/-! ### Key slots (R404–R407) -/

def State.active (s : State) (slot : Nat) : KeyHalf := s.keys.get (fun _ => KeyHalf.zero) (2 * slot)
def State.pendingKey (s : State) (slot : Nat) : KeyHalf := s.keys.get (fun _ => KeyHalf.zero) (2 * slot + 1)
def State.setActive (s : State) (slot : Nat) (k : KeyHalf) : State :=
  { s with keys := s.keys.put (fun _ => KeyHalf.zero) (2 * slot) k }
def State.setPendingKey (s : State) (slot : Nat) (k : KeyHalf) : State :=
  { s with keys := s.keys.put (fun _ => KeyHalf.zero) (2 * slot + 1) k }
def State.setPstate (s : State) (slot x : Nat) : State :=
  { s with pstate := s.pstate.put (fun _ => 0) slot (BitVec.ofNat 2 x) }
def State.pst (s : State) (slot : Nat) : Nat := (s.pstate.get (fun _ => 0) slot).toNat

/-- The half holds a key. -/
def KeyHalf.valid (k : KeyHalf) : Bool := bit k.attr 31

/-- Both halves of a slot zero (R409). -/
def State.zeroSlot (s : State) (slot : Nat) : State :=
  ((s.setActive slot KeyHalf.zero).setPendingKey slot KeyHalf.zero).setPstate slot 0

/-- Slots of context c (R406). -/
def slotMem (c : Nat) : Nat := 32 + 14 * c
def slotInt (c : Nat) : Nat := 33 + 14 * c
def slotWrap (c : Nat) : Nat := 34 + 14 * c
def slotAdm (c : Nat) : Nat := 35 + 14 * c

/-- Memory-key slot of a key index (R383, R406). -/
def slotOfIndex (i : Nat) : Nat := if i < 16 then slotMem i else 16 + 2 * (i - 16)

/-- Requesters of a key use (R405 MASTER). -/
inductive Master where
  | hubSecure
  | hubNormal
  | breakwater
  | tideway
  | estuary
  | istrand
deriving DecidableEq, Repr

def Master.bitNo : Master → Nat
  | .hubSecure => 8
  | .hubNormal => 9
  | .breakwater => 10
  | .tideway => 11
  | .estuary => 12
  | .istrand => 13

/-- Present lifecycle state (R534): 0 MANUFACTURE to 4 RETIRED. -/
def State.lc (s : State) : Nat := s.fld Reg.lcState 2 0

/-- The check of a use of a slot (R407): the first failing code, or OK. -/
def State.keyUse (s : State) (slot use : Nat) (m : Master) (ctx : Option Nat) : Byte :=
  let a := (s.active slot).attr
  if ¬ bit a 31 then Code.keyRevoked
  else if ¬ bit a m.bitNo then Code.attributeDenied
  else if bit a 25 ∧ ctx ≠ some (bits a 24 21) then Code.attributeDenied
  else if ¬ bit a (16 + s.lc) then Code.lifecycleDenied
  else if ¬ bit a use then Code.attributeDenied
  else Code.ok

/-! ### Tideway queues and connections -/

/-- Light die that writes a strand's Tideway queues (R366). -/
def State.homeLd (s : State) (d : Nat) : Nat := if d < s.part.ldCount then d else d % s.part.ldCount

/-- Receiving ports that a packet for Tideway queue q passes, from the light die that writes it (R366). -/
def State.queueRoute (s : State) (q : Nat) : List Nat :=
  if q < 300 then route (4 + s.homeLd (q % 100 / 12)) (q % 100 / 12) else route (4 + q % 10) 8

/-- The not-empty level of a strand's queue wakes the domain of a strand that is bound (R442, R446). -/
def State.queueLevel (s : State) (q : Nat) : State :=
  let i := if q < 100 then q / 4 * 12 + q % 4 else q % 100
  if q < 300 ∧ s.bound (i / 12) (i % 12) then s.wakeUp (pdStrand (i / 12) (i % 12)) else s

/-- A packet is published in a queue, or the queue has no room: it is not stored, OVERRUN is set on a strand's queue
and a record goes to queue 0 (R83, R366); a word poisoned on the way stands in the packet as uncorrectable (R16). A hub queue's
packet stands in hub SRAM. -/
def State.publish (s : State) (q : Nat) (p : Pkt) : State :=
  let x := s.queueNow q
  if p.words ≤ s.queueFree q then
    let y := s.crossPorts (s.queueRoute q)
    let t := y.1.setQueue q { x with pkts := x.pkts ++ [{ p with bad := p.bad || y.2 }] }
    if q < 300 then t.queueLevel q else t.queuePut q (x.head + x.used) p
  else
    let i := q % 100
    let rx := decide (q < 200 ∨ (300 ≤ q ∧ q < 310))
    let s1 :=
      if q < 200 then s.setFld (Reg.tqStatRx (i / 12) (i % 12)) 31 31 1
      else if q < 300 then s.setFld (Reg.tqStatCq (i / 12) (i % 12)) 31 31 1
      else s
    s1.post 0 { Ev.of 0 (if rx then 3 else 4) Code.internalError (if q < 300 then 0 else 1)
      (if q < 300 then i / 12 else q % 10) (if q < 300 then i % 12 else 0) 0 with
        ctx := if q < 300 then some (s.sctx (i / 12) (i % 12)) else none }

/-- The queues that CQT names for a connection of light die l: receive and completion (R342). -/
def cqtRx (cqt : Byte) (l : Nat) : Nat :=
  if cqt.toNat / 64 = 1 then 100 + strandIx (cqt.toNat / 16 % 4) (cqt.toNat % 16) else 300 + l
def cqtCq (cqt : Byte) (l : Nat) : Nat :=
  if cqt.toNat / 64 = 1 then 200 + strandIx (cqt.toNat / 16 % 4) (cqt.toNat % 16) else 310 + l

def State.conn (s : State) (i : Nat) : Conn := s.conns.get (fun _ => Conn.zero) i
def State.setConn (s : State) (i : Nat) (c : Conn) : State := { s with conns := s.conns.put (fun _ => Conn.zero) i c }
/-- Home light die of a connection (R340). -/
def connLd (i : Nat) : Nat := i / 16384

/-- A completion's queue entry; n: bytes transferred (R367). -/
def completionPkt (s : State) (i : Nat) (w : WorkEntry) (code : Byte) (n : Nat) : Pkt :=
  { h0 := BitVec.ofNat 64 (0x84000000 + code.toNat * 0x10000 + i * 2 ^ 48)
    h1 := BitVec.ofNat 64 (s.stamp (0x20 + connLd i))
    h2 := w.wrId
    h3 := BitVec.ofNat 64 (n % 2 ^ 32 + w.op.toNat * 2 ^ 32)
    body := [], words := 1, bad := false }

/-- Data bytes of an entry's message that have been transferred: those of the packets acknowledged and not refused, and for a READ
those of the response packets that have come (R354, R367). -/
def Conn.moved (c : Conn) (w : WorkEntry) : Nat :=
  let n := (w.len + 4031) / 4032
  let come := (List.range n).filter (fun k =>
    if w.op = 4 then
      (match w.resp with
       | some f => decide (f + k < c.cum) || c.bits.contains (f + k)
       | none => false)
    else decide (w.first + k < c.cumIn ∧ k < w.sent))
  (come.map (fun k => min 4032 (w.len - 4032 * k))).sum - w.lost

/-- The completion of an entry is written when it has COMPLETE set or its status is not OK (R354); a response message (op
5) is no entry. -/
def State.complete (s : State) (i : Nat) (w : WorkEntry) (code : Byte) : State :=
  let c := s.conn i
  if w.op = 5 then s
  else if code = Code.ok then
    (if w.flags.getLsbD 0 then s.publish (cqtCq c.cqt (connLd i)) (completionPkt s i w code w.len) else s)
  else s.publish (cqtCq c.cqt (connLd i)) (completionPkt s i w code (if w.pkts = 0 then 0 else c.moved w))

def State.region (s : State) (i : Nat) : Region := s.regions.get (fun _ => Region.zero) i
def State.setRegion (s : State) (i : Nat) (r : Region) : State :=
  { s with regions := s.regions.put (fun _ => Region.zero) i r }

/-- INDEX of a region key (R350). -/
def keyIx (k : Word) : Nat := k.toNat % 2 ^ 20
/-- INFLIGHT of a region rises or falls by one (R357). -/
def State.holdRegion (s : State) (k : Word) : State :=
  s.setRegion (keyIx k) { s.region (keyIx k) with inflight := (s.region (keyIx k)).inflight + 1 }
def State.letRegion (s : State) (k : Word) : State :=
  s.setRegion (keyIx k) { s.region (keyIx k) with inflight := (s.region (keyIx k)).inflight - 1 }

/-- REVOKE of region ix is complete: BUSY clears where the command was written (R357). -/
def State.rgSettled (s : State) (ix : Nat) : State :=
  s.lds.foldl (fun t l =>
    if t.fld (Reg.rgStat l) 31 31 = 1 ∧ t.reg (Reg.rgCtl l) = BitVec.ofNat 32 (2 ^ 28 + ix) then
      (t.setFld (Reg.rgStat l) 31 31 0).setFld (Reg.rgStat l) 23 16 Code.ok.toNat
    else t) s

/-- An entry that passed its check lets its local region go. -/
def State.letWork (s : State) (w : WorkEntry) : State := if w.pkts = 0 then s else s.letRegion w.lkey

/-- Work entry k of a connection's send queue in hub SRAM (R353). -/
def State.workAt (s : State) (c : Conn) (k : Nat) : WorkEntry :=
  let b := s.hubBytes (c.sqOff + 64 * (k % c.sqSize)) 64
  { op := BitVec.ofNat 8 (field b 0 1), flags := BitVec.ofNat 8 (field b 1 1), len := field b 4 4
    wrId := BitVec.ofNat 64 (field b 8 8), lkey := BitVec.ofNat 32 (field b 16 4), rkey := BitVec.ofNat 32 (field b 20 4)
    loff := field b 24 8, roff := field b 32 8, imm := BitVec.ofNat 32 (field b 40 4)
    first := 0, pkts := 0, sent := 0, code := Code.ok, done := false, resp := none, lost := 0 }

/-- Indices of the entries posted and not yet taken. -/
def Conn.posted (c : Conn) : List Nat :=
  (List.range ((c.sqTail + 65536 - c.sqHead) % 65536)).map (fun k => (c.sqHead + k) % 65536)

/-- The code of an entry when its connection ends: its own where it is done or a NAK has given it one (R354). -/
def WorkEntry.endCode (w : WorkEntry) (code : Byte) : Byte := if w.done ∨ w.code ≠ Code.ok then w.code else code

/-- Every entry of a connection completes, in posting order: those taken up to number `k` with `first`, later ones with
`rest`, save what has a code of its own (R354); regions in use are let go. -/
def State.completeAll (s : State) (i k : Nat) (first rest : Byte) : State :=
  let c := s.conn i
  let s1 := (c.work.zipIdx).foldl (fun t e =>
    (t.complete i e.1 (e.1.endCode (if e.2 ≤ k then first else rest))).letWork e.1) s
  let s2 := c.posted.foldl (fun t n => t.complete i (t.workAt c n) rest) s1
  c.reads.foldl (fun t r => t.letRegion r.rkey) s2

/-- The record of a connection that failed or ended (R342, R544). -/
def State.connEndEvent (s : State) (i : Nat) (code : Byte) : State :=
  s.post 1 { Ev.of 8 4 code 1 (connLd i) 0 (i + (s.conn i).peer.toNat * 2 ^ 16) with ctx := some (s.conn i).ctx.val }

/-- A connection becomes ENDED at entry k: entries complete, keys are zeroed, a record is written (R341, R354, R365). -/
def State.endConnAt (s : State) (i k : Nat) (first rest : Byte) : State :=
  let s1 := (s.completeAll i k first rest).connEndEvent i first
  s1.setConn i { s.conn i with
    st := .ended, k1 := 0, k2 := 0, ephX := 0, ephK := 0, hsLast := none, work := [], sqHead := 0, sqTail := 0, sent := []
    reads := [], rx := [], ackReqs := [], ackDue := false }

/-- A connection becomes ENDED, the first entry failing. -/
def State.endConn (s : State) (i : Nat) (first rest : Byte) : State := s.endConnAt i 0 first rest

/-- Connections whose record satisfies p. -/
def State.connsWhere (s : State) (p : Conn → Bool) : List Nat := (s.conns.filter (fun e => p e.2)).map (fun e => e.1)

/-- PAUSE of every ESTABLISHED connection of a context (R364). -/
def State.pauseConns (s : State) (c : Nat) : State :=
  (s.connsWhere (fun x => x.ctx.val = c ∧ x.st = .established)).foldl
    (fun t i => t.setConn i { t.conn i with st := .paused }) s

/-- RESUME of every PAUSED connection of a context (R364, R382). -/
def State.resumeConns (s : State) (c : Nat) : State :=
  (s.connsWhere (fun x => x.ctx.val = c ∧ x.st = .paused)).foldl
    (fun t i => t.setConn i { t.conn i with st := .established }) s

/-- Every connection of a context ENDED with KEY_REVOKED (R365). -/
def State.endConns (s : State) (c : Nat) : State :=
  (s.connsWhere (fun x => x.ctx.val = c ∧ x.st ≠ .free ∧ x.st ≠ .ended)).foldl
    (fun t i => t.endConn i Code.keyRevoked Code.keyRevoked) s

/-! ### Banks of a context -/

def State.bank (s : State) (d b : Nat) : BankX := s.banks.get (fun _ => BankX.zero) (d * 24 + b)
def State.setBank (s : State) (d b : Nat) (x : BankX) : State :=
  { s with banks := s.banks.put (fun _ => BankX.zero) (d * 24 + b) x }

/-- BANK_OWNER: STATE, VALID and CTX, ACC, HUB_SEC, STRAND (R42). -/
def State.bst (s : State) (d b : Nat) : Nat := s.fld (Reg.bankOwner d b) 31 30
def State.bvalid (s : State) (d b : Nat) : Bool := s.fld (Reg.bankOwner d b) 8 8 = 1
def State.bctx (s : State) (d b : Nat) : Nat := s.fld (Reg.bankOwner d b) 3 0
def State.bacc (s : State) (d b : Nat) : Bool := s.fld (Reg.bankOwner d b) 10 10 = 1
def State.bhub (s : State) (d b : Nat) : Bool := s.fld (Reg.bankOwner d b) 9 9 = 1
def State.bstrand (s : State) (d b : Nat) : Nat := s.fld (Reg.bankOwner d b) 15 12
/-- The bank is owned by context c. -/
def State.bownedBy (s : State) (d b c : Nat) : Bool := s.bvalid d b ∧ s.bctx d b = c

/-- Starting a handover: STATE reads HANDOVER (or CLEARING where the half-array is in OFF, enters OFF or wakes from it), the
new owner word and whether the pass clears are kept until it ends (R44, R443). `w` is the new BANK_OWNER without STATE. -/
def State.startHandover (s : State) (d b : Nat) (w : Word) (clr : Bool) : State :=
  let old := s.reg (Reg.bankOwner d b)
  let n := pdBank d b
  let x := s.pd.get (fun _ => PdX.zero) n
  let off := decide (s.pdState n = 3 ∨ (s.pdState n = 5 ∧ x.from_ = 3) ∨ (s.pdState n = 4 ∧ x.target = 3))
  let s1 := s.setBank d b { s.bank d b with target := some (w, clr && !off), before := old, waking := !s.pdOn n }
  let s2 := s1.setFld (Reg.bankOwner d b) 31 30 (if off then 3 else 2)
  s2.startWake n

/-- A handover of the bank to context c is in progress. -/
def State.bankComing (s : State) (c d b : Nat) : Bool :=
  match (s.bank d b).target with
  | some (w, _) => bit w 8 && decide (bits w 3 0 = c)
  | none => false

/-- The owner word of a bank, or the one that a handover in progress will install; a word gives the bank to context c. -/
def State.bankWord (s : State) (d b : Nat) : Word :=
  match (s.bank d b).target with
  | some (w, _) => w
  | none => s.reg (Reg.bankOwner d b)
def wordOwner (w : Word) (c : Nat) : Bool := bit w 8 && decide (bits w 3 0 = c)

/-- BANK_OWNER is written with VALID = 0 and CLR = 1 for every bank whose owner word satisfies p; of a bank whose handover
runs as soon as that ends (R46, R380). -/
def State.freeBanksWhere (s : State) (p : Word → Bool) : State :=
  allBanks.foldl (fun t e =>
    if ¬ p (t.bankWord e.1 e.2) then t
    else if t.bst e.1 e.2 = 1 then t.startHandover e.1 e.2 0x0000F000 true
    else if (t.bank e.1 e.2).target.isSome then t.setBank e.1 e.2 { t.bank e.1 e.2 with freed := true }
    else t) s

/-- No bank of context c is still owned by it or in a handover that its last owner was c. -/
def State.ctxBanksClear (s : State) (c : Nat) : Bool :=
  allBanks.all (fun e => ¬ s.bownedBy e.1 e.2 c)

/-! ### Strands and engines of a context -/

/-- The strand is bound to context c. -/
def State.boundTo (s : State) (c : Nat) (e : Nat × Nat) : Bool := s.bound e.1 e.2 ∧ s.sctx e.1 e.2 = c

/-- A drained strand is reset, its counters with it, then its queues are emptied, which counts FLUSHED, and it is unbound
(R85, R101, R380, R392, R393). -/
def State.dropStrand (s : State) (e : Nat × Nat) : State :=
  (((s.zeroStrand e.1 e.2).clearCounts e.1 e.2).flushQueues e.1 e.2).unbindStrand e.1 e.2

/-- Every strand of context c is reset and unbound. -/
def State.dropStrands (s : State) (c : Nat) : State :=
  allStrands.foldl (fun t e => if t.boundTo c e then t.dropStrand e else t) s

/-- Every strand of context c has faulted with KEY_REVOKED: its LAST_CODE says so; no record is written (R393). -/
def State.revokeStrands (s : State) (c : Nat) : State :=
  allStrands.foldl (fun t e =>
    if t.boundTo c e then t.setFld (Reg.strandStat e.1 e.2) 23 16 Code.keyRevoked.toNat else t) s

/-- Fold-out engines whose CTX is c read their reset values (R337, R380). -/
def State.clearFoldOut (s : State) (c : Nat) : State :=
  s.lds.foldl (fun t l => (List.range 16).foldl (fun t e =>
    if t.fld (Reg.fo l e 0) 19 16 = c then
      t.resetRegs (fun a => decide (Reg.fo l e 0 ≤ a ∧ a < Reg.fo l e 0x18))
    else t) t) s

/-! ### Rounds -/

def State.round (s : State) (c : Nat) : Option Round := s.rounds.get (fun _ => none) c
def State.setRound (s : State) (c : Nat) (r : Round) : State :=
  { s with rounds := s.rounds.put (fun _ => none) c (some r) }

/-- The round's secrets are destroyed: recovered secrets, group seeds and GRAPH_SEED, in the descriptor too (R216). -/
def Round.destroy (r : Round) (st : RState) : Round :=
  { r with
    desc := r.desc.take 0x40 ++ List.replicate 32 0 ++ r.desc.drop 0x60
    state := st, graphSeed := 0, seedGot := none, clients := [], gseeds := [], stored := [], redo := [], closing := false
    exportWait := false }

/-- Coding of a round state, in table order (R189, R369). -/
def rstateCode : RState → Nat
  | .opening => 0
  | .advertise => 1
  | .share => 2
  | .screen => 3
  | .input => 4
  | .collect => 5
  | .expand => 6
  | .seal => 7
  | .fold => 8
  | .update => 9
  | .readyCommit => 10
  | .committed => 11
  | .aborted => 12

/-- The state that PHASE carries: a round whose input is closing has left INPUT (R199, R372). -/
def Round.phase (r : Round) : Nat := if r.closing then 5 else rstateCode r.state

/-- In a group, the coordinator broadcasts PHASE at each change of round state, and again every 1 ms for 10 ms (R372). -/
def State.phaseCast (s : State) (c : Nat) : State :=
  match s.round c with
  | some r =>
    if field r.desc 0x30 2 = s.fld (Reg.twTopo 0) 13 0 ∧ (field r.desc 7 1).testBit 2 then
      (s.setRound c { r with phaseSends := 10 }).sendCtrl none 6 (be 1 c ++ be 1 r.phase ++ be 4 (field r.desc 0 4))
    else s
  | none => s

/-- The context runs a round that is neither COMMITTED nor ABORTED. -/
def State.roundOpen (s : State) (c : Nat) : Bool :=
  match s.round c with
  | some r => r.state ≠ .committed ∧ r.state ≠ .aborted
  | none => false

/-- A bank of the round (R189, R206, R216): an accumulator, a bank of an I-strand (mask sums and partials), or one that the
hub shares (bitmaps and work ranges). -/
def roundBank (c : Nat) (w : Word) : Bool := wordOwner w c && (bit w 10 || bit w 9 || decide (bits w 15 12 < 4))

/-- An abort stops the round's work: strands of the context that run are drained, fold-out engines are cleared (R191). -/
def State.stopWork (s : State) (c : Nat) : State :=
  allStrands.foldl (fun t e => if t.boundTo c e then t.drainWrite e.1 e.2 else t) (s.clearFoldOut c)

/-- Seed tables and shard tables of the I-strands of a context read zero (R70, R197, R216). -/
def State.emptyTables (s : State) (c : Nat) : State :=
  allStrands.foldl (fun t e =>
    if e.2 < 4 ∧ t.boundTo c e then
      (t.zeroSeeds (iNum e.1 e.2)).resetRegs
        (fun a => decide (Reg.shtCtl e.1 e.2 0 ≤ a ∧ a < Reg.shtCtl e.1 e.2 4))
    else t) s

/-- The ciphertexts of the share store are destroyed: their bytes read zero (R216). -/
def State.emptyStore (s : State) (r : Round) : State := r.stored.foldl (fun t a => t.zeroMem a 128) s

/-- The current round of a context at Estuary: none, so that a datagram of a round that has ended is stale (R190, R302). -/
def State.noRound (s : State) (c : Nat) : State := s.lds.foldl (fun t l => t.setReg (Reg.estRound l c) 0) s

/-- What a commit or an abort does (R191, R216): the round's work stops, its banks are freed, seed tables, shard tables and
work lists emptied, its secrets and the admission key (R257) destroyed. -/
def State.endRound (s : State) (c : Nat) (st : RState) : State :=
  match s.round c with
  | none => s
  | some r =>
    let s1 := (s.emptyStore r).setRound c (r.destroy st)
    let s2 := if st = .aborted then s1.stopWork c else s1
    let s3 := (s2.freeBanksWhere (roundBank c)).emptyTables c
    let s4 := (s3.setCtx c { s3.ctx c with work := [], exports := [] }).noRound c
    ((s4.gatePhase c 0).zeroSlot (slotAdm c)).phaseCast c

/-- The module aborts a round on its own; a round that has ended stays as it is (R191). -/
def State.abortRound (s : State) (c : Nat) : State := if s.roundOpen c then s.endRound c .aborted else s

/-! ### Stage faults -/

/-- An F-strand's failed read is kept for the round's commit (R270). -/
def State.noteModel (s : State) (l : Loc) (f : FaultInfo) : State :=
  let c := s.sctx l.d l.s
  if 10 ≤ l.s ∧ s.bound l.d l.s ∧ f.code = Code.eccUncorrectable ∧ f.origin = Origin.mem then
    s.setCtx c { s.ctx c with eccAt := f.addr :: (s.ctx c).eccAt }
  else s

/-- KEY_REVOKED, INTEGRITY_FAIL or THERMAL_HALT in a strand aborts the round of its context (R191, R210). -/
def State.roundStop (s : State) (l : Loc) (code : Byte) : State :=
  if (code = Code.keyRevoked ∨ code = Code.integrityFail ∨ code = Code.thermalHalt) ∧ s.bound l.d l.s then
    s.abortRound (s.sctx l.d l.s)
  else s

/-- Taking a stage fault: the record is written; with a vector entry the stage enters handler mode at the handler PC
with SR_EPC and SR_ECODE loaded, otherwise it halts (R98, R128), which may end the round of its context (R191). -/
def State.stageFault (s : State) (l : Loc) (f : FaultInfo) : State :=
  let x := s.stage l.ix
  let s1 := (s.faultRecord l f).noteModel l f
  match x.handlerFor f with
  | some h =>
    let e := BitVec.ofNat 16 (f.treg * 2 ^ 11 + f.origin * 2 ^ 8 + f.code.toNat)
    (s1.setStage l.ix { x with handler := true, pc := h, epc := x.pc, ecode := e, wait := .none }).done f.code
  | none => ((s1.faultHalt l f).roundStop l f.code).done f.code

/-! ### A context that faults (R392) -/

/-- The first INTEGRITY_FAIL of a context: FAULTED, strands drained and unbound, round aborted, gate closed,
connections paused, banks cleared, CODE recorded; the keys stay. -/
def State.faultContext (s : State) (c : Nat) : State :=
  if s.cst c = CS.resident ∨ s.cst c = CS.switching ∨ s.cst c = CS.parked then
    let s1 := ((s.abortRound c).gateOff c).pauseConns c
    let s2 := s1.dropStrands c
    let s3 := s2.freeBanksWhere (fun w => wordOwner w c)
    (s3.setCst c CS.faulted).setFld (Reg.ctxStat c) 23 16 Code.integrityFail.toNat
  else s

/-- Where the log of a context lies in hub SRAM, and the log emptied (R419, R471). -/
def logBase (c : Nat) : Nat := 0x1000000 + 0x40000 * c
def State.logClear (s : State) (c : Nat) : State :=
  { s with hubMem := Table.clear (fun o => decide (logBase c ≤ o ∧ o < logBase c + 0x40000)) s.hubMem }

/-- The memory and the integrity key of a context are valid: CTX_STAT.KEYS (R377). -/
def State.ctxKeys (s : State) (c : Nat) : Bool := (s.active (slotMem c)).valid && (s.active (slotInt c)).valid

/-! ### Final responses of PMP requests (R474–R477) -/

/-- The AON count, 100 cycles a µs. -/
def State.aon (s : State) : Nat := (s.time.get (fun _ => 0) 0).toNat

/-- A response of KIND 1 or 2 leaves on a connection. -/
def State.pmpSend (s : State) (ident : Nat) (req : DWord) (kind : Nat) (status : Byte) (body : List Nat) : State :=
  (s.emit (.pmp ident req kind status body)).done status

/-- Connection number of a request whose TCP connection has ended. -/
def noConn : Nat := 8

/-- The request is outstanding and its connection has ended (R477). -/
def State.orphan (s : State) (ident : Nat) (req : DWord) : Bool :=
  s.mgmt.pending.any (fun w => decide (w.ident = ident ∧ w.reqId = req ∧ w.conn = noConn))

/-- The final response of a request: sent, if its connection stands, and kept among the last 1,024; the request is no longer outstanding (R474,
R477). -/
def State.final (s : State) (ident : Nat) (req : DWord) (status : Byte) (body : List Nat) : State :=
  let m := s.mgmt
  let s1 : State := { s with mgmt := { m with
    pending := m.pending.filter (fun w => ¬ (w.ident = ident ∧ w.reqId = req))
    kept := ((⟨ident, req, status, body, s.aon⟩ : Kept) :: m.kept).take 1024 } }
  if s.orphan ident req then s1.done status else s1.pmpSend ident req 2 status body

/-- Commands that were running in a context end with CONTEXT_UNAVAILABLE, except a CONTEXT.REMOVE (R476). -/
def State.cancelWork (s : State) (c : Nat) : State :=
  (s.mgmt.pending.filter (fun w => decide (w.ctx.toNat < 16 ∧ w.ctx.toNat = c ∧ w.opcode.toNat ≠ 0x0202))).foldl
    (fun t w => t.final w.ident w.reqId Code.contextUnavailable []) s

/-- END of a context (R393): ENDING, gate closed, every key slot of the context invalidated, connections ENDED, strands
FAULTED with KEY_REVOKED, then reset and unbound, engines cleared, regions, registry entries and declared sets emptied, the log
discarded, the round aborted, banks cleared. `END_DONE` releases the granules, so that an access until then fails with
KEY_REVOKED (R394), and completes it. -/
def State.endContext (s : State) (c : Nat) (code : Byte) : State :=
  let s1 := (s.setCst c CS.ending).setFld (Reg.ctxStat c) 23 16 code.toNat
  let s2 := (List.range 14).foldl (fun t k => t.zeroSlot (slotMem c + k)) (s1.gateOff c)
  let s3 := (((s2.endConns c).abortRound c).revokeStrands c).dropStrands c
  let s4 := s3.freeBanksWhere (fun w => wordOwner w c)
  let s5 := ((s4.clearFoldOut c).setCtx c { CtxSt.zero with op := .ending code }).logClear c
  let revoking := s5.regions.filter (fun e => decide (e.2.ctx.val = c ∧ e.2.st = 2))
  let s5 := revoking.foldl (fun t e => t.rgSettled e.1) s5
  { s5 with
    regions := s5.regions.filter (fun e => e.2.ctx.val ≠ c)
    evk := s5.evk.clear (fun k => decide (k / 64 = c))
    psets := s5.psets.clear (fun k => decide (k / 256 = c)) }

/-- The module ends every context that exists, as END does (R390, R393, R415, R476). -/
def State.endAll (s : State) (code : Byte) : State :=
  (List.range 16).foldl (fun t c =>
    if t.cst c = CS.absent ∨ t.cst c = CS.ending then t else (t.cancelWork c).endContext c code) s

end Sys2Proof.Machine
end

