-- ==== Sys2Proof/Machine/Mem.lean ====
section
/-! DEFINITION. Accesses to banks and to HBM: who may reach what (R33, R45, R87), the nibble code (R55, R56),
Breakwater (R383–R392), line by line (R542). -/

namespace Sys2Proof.Machine

structure Line where
  st    : State
  code  : Byte
  data  : Bytes
  stall : Bool
  /-- Words of memory that the access corrected (R8, R55). -/
  ce    : Nat

/-- An access that fails with a code. -/
def Line.fail (s : State) (c : Byte) : Line := ⟨s, c, [], false, 0⟩
/-- An access that waits. -/
def Line.wait (s : State) : Line := ⟨s, Code.ok, [], true, 0⟩
/-- An access done. -/
def Line.ok (s : State) (d : Bytes) : Line := ⟨s, Code.ok, d, false, 0⟩

/-! ### Nibble code (R55–R57) -/

def State.mark (s : State) (w : Nat) : EccMark := s.ecc.get (fun _ => .good) w
def State.setMark (s : State) (w : Nat) (m : EccMark) : State := { s with ecc := s.ecc.put (fun _ => .good) w m }

/-- The four words of a line. -/
def lineWords (a : Nat) : List Nat := [a / 64 * 4, a / 64 * 4 + 1, a / 64 * 4 + 2, a / 64 * 4 + 3]

def State.anyUe (s : State) (ws : List Nat) : Bool := ws.any (fun w => s.mark w = .uncorrectable)
/-- Words of a list that a read corrects. -/
def State.corrected (s : State) (ws : List Nat) : Nat :=
  (ws.filter (fun w => s.mark w ≠ .good ∧ s.mark w ≠ .uncorrectable)).length

/-- Corrected words are counted where they were found (R56, R543). -/
def State.countCe (s : State) (a n : Nat) : State :=
  if n = 0 then s
  else match place s.part a with
    | .bank d b _ => s.addFld (Reg.bankStat d b) 15 0 n
    | .hbm _ _ => s.addFld (Reg.hbmCe (stackOf s.part a)) 31 0 n
    | .metadata _ => s.addFld (Reg.hbmCe (stackOf s.part a)) 31 0 n
    | _ => s

/-- An uncorrectable word is reported: UE or HBM_UE, and a record to queue 0 with the word's address, its syndrome free
(R56, R57, R543). `patrol`: found by patrol. -/
def State.reportWord (s : State) (patrol : Bool) (w : Nat) : State :=
  let syn := s.free.toNat % 65536
  (match place s.part (w * 16) with
  | .bank d b _ =>
    (s.setFld (Reg.bankStat d b) 31 31 1).post 0
      { Ev.of 1 (if patrol then 2 else 1) Code.eccUncorrectable 0 d b syn with addr := w * 16 }
  | _ =>
    (s.count (Reg.hbmUe (stackOf s.part (w * 16)))).post 0
      { Ev.of 3 (if patrol then 2 else 1) Code.eccUncorrectable 3 (stackOf s.part (w * 16)) 0 syn with addr := w * 16 }).took 1

/-- Every uncorrectable word of a list is reported, each with its own record. -/
def State.reportUe (s : State) (ws : List Nat) (patrol : Bool) : State :=
  (ws.filter (fun w => s.mark w = .uncorrectable)).foldl (fun t w => t.reportWord patrol w) s

/-- What a read of words finds is counted and reported: the corrected words where they were found, whether or not another
word fails, and every uncorrectable word (R10, R56). -/
def State.noteErrors (s : State) (a : Nat) (ws : List Nat) (patrol : Bool) : State :=
  (s.countCe a (s.corrected ws)).reportUe ws patrol

/-- The bytes of a line as a read delivers them, or ECC_UNCORRECTABLE (R56). -/
def State.eccRead (s : State) (a : Nat) : Line :=
  let l := a / 64 * 64
  let ws := lineWords a
  if s.anyUe ws then .fail (s.noteErrors a ws false) Code.eccUncorrectable
  else { Line.ok (s.countCe a (s.corrected ws)) (s.bytes l 64) with ce := s.corrected ws }

/-- A write of `data` at `a`, inside one line: a word that is enabled whole is replaced, a partly enabled word is
corrected and merged; a partly enabled uncorrectable word fails the write and changes no byte (R56). -/
def State.eccWrite (s : State) (a : Nat) (data : Bytes) : Line :=
  let e := a + data.length
  let touched := (lineWords a).filter (fun w => w * 16 < e ∧ a < w * 16 + 16)
  let partly := touched.filter (fun w => w * 16 < a ∨ e < w * 16 + 16)
  if s.anyUe partly then .fail (s.noteErrors a partly false) Code.eccUncorrectable
  else
    let s1 := s.countCe a (s.corrected partly)
    let s2 := touched.foldl (fun t w => t.setMark w .good) s1
    { Line.ok (s2.store a data) [] with ce := s.corrected partly }

/-! ### Banks -/

/-- The line a bank access names may be reached by a requester: BANK_OWNER at grant (R33, R45, R87, R93). `fold`: FOLD's
own read-modify-write or SEAL. -/
def State.bankAllows (s : State) (r : Requester) (d b : Nat) (fold : Bool) : Bool :=
  s.bst d b = 1 && s.bvalid d b &&
  match r with
  | .strand d' s' => d'.val = d ∧ s'.val = s.bstrand d b ∧ (s.bacc d b → fold)
  | .dma _ c => s.bctx d b = c.val ∧ ¬ s.bacc d b
  | .hub w _ => w = .secure ∧ s.bhub d b ∧ (s.bacc d b → s.fld Reg.dbgCtl 0 0 = 1)
  | .tideway _ g => s.bctx d b = (s.regions.get (fun _ => Region.zero) g.val).ctx.val ∧ ¬ s.bacc d b
  | .estuary _ => false

/-- The requester is one the owner word of a running handover will let in: its requests stall (R44). -/
def State.bankIncoming (s : State) (r : Requester) (d b : Nat) : Bool :=
  match (s.bank d b).target with
  | none => false
  | some (w, _) =>
    decide (bits w 8 8 = 1) &&
    match r with
    | .strand d' s' => decide (d'.val = d ∧ s'.val = bits w 15 12)
    | .dma _ c => decide (bits w 3 0 = c.val)
    | .hub wd _ => decide (wd = .secure ∧ bits w 9 9 = 1)
    | .tideway _ g => decide (bits w 3 0 = (s.regions.get (fun _ => Region.zero) g.val).ctx.val)
    | .estuary _ => false

/-- The half-array is reached, or its wake starts and the access stalls, or its wake has failed (R442, R445). -/
def State.bankGate (s : State) (r : Requester) (d b : Nat) (fold : Bool) : Option Line :=
  if s.bst d b = 2 ∨ s.bst d b = 3 then
    some (if s.bankIncoming r d b then .wait s else .fail s Code.accessBounds)
  else if ¬ s.bankAllows r d b fold then some (.fail s Code.accessBounds)
  else if s.pdState (pdBank d b) = 6 then some (.fail s Code.wakeFail)
  else if ¬ s.pdOn (pdBank d b) then some (.wait (s.startWake (pdBank d b)))
  else none

/-- BUSY_CNT rises; it saturates at 0xFF (R41, R43). -/
def State.countBusy (s : State) (d b n : Nat) : State := s.addFld (Reg.bankStat d b) 23 16 n

/-- An access reaches a bank's port (R39–R41). Where the port answers BANK_BUSY first, the owning strand and the engines
reissue until they are granted, and every answer is counted; an access of the hub ends with BUSY at the first. -/
def State.onPort (s : State) (r : Requester) (d b : Nat) (k : State → Line) : Line :=
  let x := s.bank d b
  if x.busy = 0 then k s
  else match r with
  | .hub _ _ => .fail ((s.setBank d b { x with busy := x.busy - 1 }).countBusy d b 1) Code.busy
  | .strand _ _ => k ((s.setBank d b { x with busy := 0 }).countBusy d b x.busy)
  | .dma _ _ => k ((s.setBank d b { x with busy := 0 }).countBusy d b x.busy)
  | .tideway _ _ => k ((s.setBank d b { x with busy := 0 }).countBusy d b x.busy)
  | .estuary _ => k ((s.setBank d b { x with busy := 0 }).countBusy d b x.busy)

/-- A write by any path leaves the bank no longer CLEAN (R43). -/
def State.soil (s : State) (d b : Nat) : State := s.setFld (Reg.bankStat d b) 29 29 0

/-- The line lies in an ACTIVE or RETIRING evaluation-key range (R242). -/
def State.inEvk (s : State) (a : Nat) : Bool :=
  s.evk.any (fun e => e.2.st ≠ 0 ∧ e.2.base.toNat ≤ a ∧ a < e.2.base.toNat + e.2.length.toNat)

/-! ### Breakwater -/

/-- Key index of an access (R383). -/
def State.keyIndex (s : State) : Requester → Nat
  | .strand d st => s.sctx d.val st.val
  | .dma _ c => c.val
  | .hub _ k => k.val
  | .tideway _ g => (s.regions.get (fun _ => Region.zero) g.val).ctx.val
  | .estuary _ => 17

/-- Owner of the granule of an address; 31 is FREE (R385). -/
def State.granuleOf (s : State) (a : Nat) : Nat := (s.granule.get (fun _ => 31) (a / 0x200000)).toNat

def State.majorOf (s : State) (a : Nat) : BitVec 58 := s.major.get (fun _ => 0) (a / 4096)
def State.minorOf (s : State) (a : Nat) : BitVec 6 := s.minor.get (fun _ => 0) (a / 64)
/-- The write version of a line (R386). -/
def State.version (s : State) (a : Nat) : Nat := (s.majorOf a).toNat * 64 + (s.minorOf a).toNat

/-! ### Line encryption (R384) -/

/-- The memory key and the integrity key of a key index: the integrity slot follows the memory slot (R406). -/
def State.memKey (s : State) (k : Nat) : BitVec 512 := (s.active (slotOfIndex k)).mat
def State.intKey (s : State) (k : Nat) : BitVec 512 := (s.active (slotOfIndex k + 1)).mat

/-- A tweak multiplied by α in GF(2^128), byte 0 lowest. -/
def xtsDouble (t : BitVec 128) : BitVec 128 := (t <<< 1) ^^^ (if t.getLsbD 127 then 0x87 else 0)

/-- The tweak of block j of the line at an address: the address under the second key half, times α^j. -/
def xtsTweak (key : BitVec 512) (a : Nat) : Nat → BitVec 128
  | 0 => Config.aes256 ((key >>> 256).setWidth 256) (BitVec.ofNat 128 a)
  | j + 1 => xtsDouble (xtsTweak key a j)

/-- One XTS data unit of four blocks; `f` is the block cipher of the first key half, or its inverse. -/
def xtsUnit (f : BitVec 256 → BitVec 128 → BitVec 128) (key : BitVec 512) (a : Nat) (b : Bytes) : Bytes :=
  ((List.range 4).map (fun j =>
    let t := xtsTweak key a j
    le 16 (f (key.setWidth 256) (BitVec.ofNat 128 (fromLE (sub b (16 * j) 16)) ^^^ t) ^^^ t).toNat)).flatten

/-- What a line is stored under. -/
def State.lineKeys (s : State) (a : Nat) : LineKeys := s.crypt.get (fun _ => LineKeys.zero) (a / 64)

/-- The 64 bytes of ciphertext that HBM holds of a written line. -/
def State.cipherLine (s : State) (a : Nat) : Bytes :=
  xtsUnit Config.aes256 (s.lineKeys a).mem (a / 64 * 64) (s.bytes (a / 64 * 64) 64)

/-- The line MAC: the first 64 bits of AES-256-CMAC under the integrity key over address, write version and
ciphertext. -/
def lineMac (key : BitVec 512) (a ver : Nat) (ct : Bytes) : BitVec 64 :=
  BitVec.ofNat 64 (fromBE ((be 16 (Config.cmac (key.setWidth 256) (le 8 a ++ le 8 ver ++ ct)).toNat).take 8))

/-- The stored MAC of a line is the one that the present integrity key and write version give: the inputs are the same, or
the MACs are. -/
def State.macHolds (s : State) (k a : Nat) : Bool :=
  let x := s.lineKeys a
  decide (x.int = s.intKey k ∧ x.ver = s.version a) ||
  decide (lineMac x.int (a / 64 * 64) x.ver (s.cipherLine a) = lineMac (s.intKey k) (a / 64 * 64) (s.version a) (s.cipherLine a))

/-- The MAC check of a line fails (R388, R390). -/
def State.lineBad (s : State) (k a : Nat) : Bool := s.badLine.get (fun _ => false) (a / 64) || !s.macHolds k a

/-- The line decrypted under the memory key of an index: what was written, where that is the key it was written under. -/
def State.plainLine (s : State) (k a : Nat) : Bytes :=
  if (s.lineKeys a).mem = s.memKey k then s.bytes (a / 64 * 64) 64
  else xtsUnit Config.aes256Inv (s.memKey k) (a / 64 * 64) (s.cipherLine a)

/-- Key of a tree node of a die: level 0 block, or node of level 1 to 5, that covers data offset o (R386). -/
def nodeKey (d lvl o : Nat) : Nat := (d * 8 + lvl) * 2 ^ 32 + o / (4096 * 8 ^ lvl)

/-- A node is in the metadata cache: trusted without a check (R389). -/
def State.inCache (s : State) (k : Nat) : Bool := s.dirty.get (fun _ => false) k || s.cached.get (fun _ => false) k

/-- Levels of the path of an address that enter the cache, highest first: those below the lowest node that is in it (R389). -/
def State.newLevels (s : State) (d o : Nat) : List Nat :=
  (([0, 1, 2, 3, 4, 5] : List Nat).takeWhile (fun l => !s.inCache (nodeKey d l o))).reverse

/-- The first node on the way into the cache that fails its check against its parent's counter (R389, R390). -/
def State.badPath (s : State) (d o : Nat) : Option Nat :=
  (s.newLevels d o).find? (fun l => s.badNode.get (fun _ => false) (nodeKey d l o))

/-- The path of an address stands in the cache (R389). -/
def State.loadPath (s : State) (a : Nat) : State :=
  let d := a / s.part.block
  let o := a % s.part.block
  { s with cached := (s.newLevels d o).foldl (fun t l => t.put (fun _ => false) (nodeKey d l o) true) s.cached }

/-! ### Breakwater's metadata (R386) -/

/-- Where a die's metadata range starts, and where a level lies in it. -/
def metaBase (p : Part) (d : Nat) : Nat := p.blockBase d + p.dataSize
def levelBase (p : Part) (lvl : Nat) : Nat :=
  (if p.m12 then [0x1_F8000000, 0x2_37000000, 0x2_3EE00000, 0x2_3FDC0000, 0x2_3FFB8000, 0x2_3FFF7000]
    else [0x1_50000000, 0x1_7A000000, 0x1_7F400000, 0x1_7FE80000, 0x1_7FFD0000, 0x1_7FFFA000]).getD lvl 0
/-- Addresses of the MAC of a line, and of the level-0 block or node that covers data offset o. -/
def macAddr (p : Part) (d o : Nat) : Nat := metaBase p d + o / 64 * 8
def treeAddr (p : Part) (d lvl o : Nat) : Nat := metaBase p d + levelBase p lvl + o / (4096 * 8 ^ lvl) * 64

/-- Content of a level-0 block: the major counter, 64 minor counters, six zero bits; of a node: its children's counters. -/
def State.treeContent (s : State) (d lvl n : Nat) : Bytes :=
  if lvl = 0 then
    let k := (s.part.blockBase d) / 4096 + n
    le 56 ((s.major.get (fun _ => 0) k).toNat +
      ((List.range 64).map (fun j => (s.minor.get (fun _ => 0) (64 * k + j)).toNat * 2 ^ (6 * j + 58))).sum)
  else ((List.range 8).map (fun j => le 7 (s.nodeCnt.get (fun _ => 0) ((d * 8 + lvl - 1) * 2 ^ 32 + 8 * n + j)).toNat)).flatten

/-- A block or node as HBM holds it: its content, and its MAC under the die's tree key over its address, its parent's counter for
it (of a level-5 node the root, on chip) and its content. The two numbers are taken as 8 bytes each (notes/assumptions/70.md). -/
def State.treeNode (s : State) (d lvl n : Nat) : Bytes :=
  let b := s.treeContent d lvl n
  let m := Config.cmac ((s.active (23 + d)).mat.setWidth 256)
    (le 8 (metaBase s.part d + levelBase s.part lvl + 64 * n) ++ le 8 (s.nodeCnt.get (fun _ => 0) ((d * 8 + lvl) * 2 ^ 32 + n)).toNat ++ b)
  b ++ (be 16 m.toNat).take 8

/-- An integrity failure: BW_INTEG, the failure record, a security record, and the context or every context faults
(R390–R392). `lvl` none: the line MAC. -/
def State.integrityFail (s : State) (k a : Nat) (lvl : Option Nat) : State :=
  let d := a / s.part.block
  let n := lvl.getD 0
  let s1 := s.count Reg.bwInteg
  let s2 :=
    if s1.fld Reg.bwFailStat 31 31 = 1 then s1.setFld Reg.bwFailStat 30 30 1
    else ((s1.setReg Reg.bwFailStat
      (BitVec.ofNat 32 (0x80000000 + n * 2 ^ 27 + (if n = 0 then 0 else 2 ^ 26) + k * 2 ^ 16))).setReg64
        Reg.bwFailAddrLo (a / 64 * 64)).setReg64 Reg.bwFailTimeLo (s1.stamp (0x18 + d))
  let s3 := s2.post 3 { Ev.of 3 (if n = 0 then 3 else 4) Code.integrityFail 3 (stackOf s.part a) 0
    (k + (if n = 0 then 0 else n * 2 ^ 8)) with
      ctx := if k < 16 then some k else none, addr := a / 64 * 64 }
  if k < 16 then s3.faultContext k
  else { s3.endAll Code.integrityFail with hub := { s3.hub with noCreate := true } }

/-- The use of a key index's keys (R385, R407): the memory key to encrypt (use 0) or decrypt (1), the integrity key for the MAC. -/
def State.bwKeys (s : State) (k use : Nat) : Byte :=
  let c := if k < 16 then some k else none
  let e := s.keyUse (slotOfIndex k) use .breakwater c
  if e ≠ Code.ok then e else s.keyUse (slotOfIndex k + 1) 2 .breakwater c

/-- Steps 1 and 2 of Breakwater's check (R385): granule owner, then the index's keys. -/
def State.bwDenied (s : State) (k a use : Nat) : Option Byte :=
  if s.granuleOf a ≠ k then some Code.accessBounds
  else if s.bwKeys k use ≠ Code.ok then some (s.bwKeys k use)
  else none

/-- The HBM PHY group is reached: it is ON or on its way; a level that comes during an entry is kept (R442, R446, R447). -/
def State.hbmGate (s : State) : Option Line :=
  if s.pdState 63 = 6 then some (.fail s Code.wakeFail)
  else if ¬ s.pdOn 63 then some (.wait (s.startWake 63))
  else none

/-- A refusal of step 2 is counted (R391). -/
def State.countDenied (s : State) (c : Byte) : State := if c = Code.keyRevoked then s.count Reg.bwRevoked else s

/-- The read of one HBM line under a key index (R388). -/
def State.hbmRead (s : State) (k a : Nat) : Line :=
  match s.bwDenied k a 1 with
  | some c => .fail (s.countDenied c) c
  | none =>
    match s.hbmGate with
    | some l => l
    | none =>
      match s.badPath (a / s.part.block) (a % s.part.block) with
      | some n => .fail (s.integrityFail k a (some n)) Code.integrityFail
      | none =>
        let s := s.loadPath a
        if s.minorOf a = 0 then .ok s (List.replicate 64 0)
        else if s.anyUe (lineWords a) then s.eccRead a
        else if s.lineBad k a then .fail ((s.eccRead a).st.integrityFail k a none) Code.integrityFail
        else { s.eccRead a with data := s.plainLine k a }

/-- Lines of the 4 KiB block of an address. -/
def blockLines (a : Nat) : List Nat := (List.range 64).map (fun i => a / 4096 * 64 + i)

/-- The version of a line rises for a write (R388); at minor 63 the block rolls over: the major counter rises, the
written line and every written line of the block take minor 1. -/
def State.raiseVersion (s : State) (a : Nat) : State :=
  let m := s.minorOf a
  if m.toNat < 63 then { s with minor := s.minor.put (fun _ => 0) (a / 64) (m + 1) }
  else
    let mi := (blockLines a).foldl (fun t l =>
      if Table.get (fun _ => (0 : BitVec 6)) t l = 0 then t else Table.put (fun _ => 0) t l 1) s.minor
    { s with major := s.major.put (fun _ => 0) (a / 4096) (s.majorOf a + 1), minor := mi }.count Reg.bwRoll

/-- The line of a rollover whose MAC fails: a written line of the block other than the one being written whole. -/
def State.rollBad (s : State) (k a : Nat) : Option Nat :=
  if (s.minorOf a).toNat < 63 then none
  else (blockLines a).find? (fun l => l ≠ a / 64 ∧ s.minor.get (fun _ => 0) l ≠ 0 ∧ s.lineBad k (l * 64))

/-- What the written line is stored under, and, after a rollover, the new MACs of the block's other written lines
(R388). `rolled`: the block has just rolled over. -/
def State.rekey (s : State) (k a : Nat) (rolled : Bool) : State :=
  let t := if rolled then
      (blockLines a).foldl (fun c l =>
        if s.minor.get (fun _ => 0) l = 0 then c
        else c.put (fun _ => LineKeys.zero) l ⟨(c.get (fun _ => LineKeys.zero) l).mem, s.intKey k, s.version (l * 64)⟩) s.crypt
    else s.crypt
  { s with crypt := t.put (fun _ => LineKeys.zero) (a / 64) ⟨s.memKey k, s.intKey k, s.version a⟩ }

/-- The write of `data` at `a`, inside one HBM line, under a key index (R54, R56, R388). -/
def State.hbmWrite (s : State) (k a : Nat) (data : Bytes) : Line :=
  match s.bwDenied k a 0 with
  | some c => .fail (s.countDenied c) c
  | none =>
    if s.inEvk a then .fail s Code.accessBounds
    else match s.hbmGate with
    | some l => l
    | none =>
      match s.badPath (a / s.part.block) (a % s.part.block) with
      | some n => .fail (s.integrityFail k a (some n)) Code.integrityFail
      | none =>
        let s := s.loadPath a
        let whole := decide (data.length = 64)
        let old := decide (s.minorOf a ≠ 0)
        let n := if ¬ whole ∧ old then s.corrected (lineWords a) else 0
        let s1 := s.countCe a n
        if ¬ whole ∧ old ∧ s.anyUe (lineWords a) then .fail (s.noteErrors a (lineWords a) false) Code.eccUncorrectable
        else if ¬ whole ∧ old ∧ s.lineBad k a then .fail (s1.integrityFail k a none) Code.integrityFail
        else match s.rollBad k a with
        | some l => .fail (s1.integrityFail k (l * 64) none) Code.integrityFail
        | none =>
          let s2 := if ¬ old then s1.zeroMem (a / 64 * 64) 64
            else if (s.lineKeys a).mem = s.memKey k then s1 else s1.store (a / 64 * 64) (s.plainLine k a)
          let s3 := (lineWords a).foldl (fun t w => t.setMark w .good)
            ((s2.raiseVersion a).rekey k a (decide (63 ≤ (s.minorOf a).toNat)))
          let s4 := { s3 with
            badLine := s3.badLine.put (fun _ => false) (a / 64) false
            dirty := s3.dirty.put (fun _ => false) (nodeKey (a / s3.part.block) 0 (a % s3.part.block)) true }
          { Line.ok (s4.store a data) [] with ce := n }

/-- The data that an access read passes from die a to die b; poisoned, the access fails with ECC_UNCORRECTABLE (R16). -/
def Line.carried (x : Line) (a b : Nat) : Line :=
  if x.stall ∨ x.code ≠ Code.ok then x
  else
    let y := x.st.crossPorts (route a b)
    if y.2 then .fail y.1 Code.eccUncorrectable else { x with st := y.1 }

/-! ### One line of any memory -/

/-- The requester may use an HBM data range at all (R33): of the hub cores the secure world, under a context's index or
HUB's; indices 17 and 18 are the light dies' (R383). -/
def mayHbm : Requester → Bool
  | .hub w k => decide (w = .secure) && decide (k.val ≤ 16)
  | _ => true

/-- The line at `a` is the requester's to ask for: the connection engine stays inside its registered region (R33, R351). -/
def State.inReach (s : State) (r : Requester) (a : Nat) : Bool :=
  match r with
  | .tideway _ g =>
    let x := s.regions.get (fun _ => Region.zero) g.val
    decide (x.st ≠ 0 ∧ x.base.toNat ≤ a / 64 * 64 ∧ a / 64 * 64 < x.base.toNat + x.length.toNat)
  | _ => true

/-- A read of the line at `a` (64-byte aligned), where it stands; an alias reads as the normal window (R47). -/
def State.readHere (s : State) (r : Requester) (a : Nat) (fold : Bool) : Line :=
  if ¬ s.inReach r a then .fail s Code.accessBounds
  else match place s.part a with
  | .bank d b o => (s.bankGate r d b fold).getD (s.onPort r d b (fun t => t.eccRead (bankAddr d b o)))
  | .setAlias d b o =>
    match r with
    | .tideway _ _ => .fail s Code.accessBounds
    | _ => (s.bankGate r d b fold).getD (s.onPort r d b (fun t => t.eccRead (bankAddr d b o)))
  | .clrAlias d b o =>
    match r with
    | .tideway _ _ => .fail s Code.accessBounds
    | _ => (s.bankGate r d b fold).getD (s.onPort r d b (fun t => t.eccRead (bankAddr d b o)))
  | .hbm _ _ => if mayHbm r then s.hbmRead (s.keyIndex r) a else .fail s Code.accessBounds
  | _ => .fail s Code.accessBounds

/-- A read of the line at `a` by a requester: its data passes from the memory's die to the requester's (R16). -/
def State.readLine (s : State) (r : Requester) (a : Nat) (fold : Bool) : Line :=
  (s.readHere r a fold).carried (placeDie (requesterDie r) (place s.part a)) (requesterDie r)

/-- An alias operation: memory | D or memory & ~D on the enabled bytes; it answers the line as it was (R47, R48). -/
def State.aliasOp (s : State) (d b o : Nat) (set : Bool) (data : Bytes) : Line :=
  let a := bankAddr d b o
  let r := s.eccRead a
  if r.code ≠ Code.ok then r
  else
    let old := s.bytes a data.length
    let new := List.zipWith (fun (x y : Byte) => if set then x ||| y else x &&& ~~~y) old data
    let s1 := (lineWords a).foldl (fun t w => t.setMark w .good) r.st
    { Line.ok ((s1.store a new).soil d b) r.data with ce := r.ce }

/-- A write of `data` at `a`, inside one line, where it stands. -/
def State.writeHere (s : State) (r : Requester) (a : Nat) (data : Bytes) (fold : Bool) : Line :=
  if ¬ s.inReach r a then .fail s Code.accessBounds
  else match place s.part a with
  | .bank d b o =>
    (s.bankGate r d b fold).getD
      (if s.inEvk a then .fail s Code.accessBounds
       else s.onPort r d b (fun t =>
        let w := t.eccWrite (bankAddr d b o) data
        if w.code = Code.ok then { w with st := w.st.soil d b } else w))
  | .setAlias d b o =>
    match r with
    | .tideway _ _ => .fail s Code.accessBounds
    | _ => (s.bankGate r d b fold).getD
        (if s.inEvk (bankAddr d b o) then .fail s Code.accessBounds
         else s.onPort r d b (fun t => t.aliasOp d b o true data))
  | .clrAlias d b o =>
    match r with
    | .tideway _ _ => .fail s Code.accessBounds
    | _ => (s.bankGate r d b fold).getD
        (if s.inEvk (bankAddr d b o) then .fail s Code.accessBounds
         else s.onPort r d b (fun t => t.aliasOp d b o false data))
  | .hbm _ _ => if mayHbm r then s.hbmWrite (s.keyIndex r) a data else .fail s Code.accessBounds
  | _ => .fail s Code.accessBounds

/-- A write of `data` at `a`, inside one line, by a requester: the data passes from the requester's die to the memory's
first (R16). -/
def State.writeLine (s : State) (r : Requester) (a : Nat) (data : Bytes) (fold : Bool) : Line :=
  let y := s.crossPorts (route (requesterDie r) (placeDie (requesterDie r) (place s.part a)))
  if y.2 then .fail y.1 Code.eccUncorrectable else y.1.writeHere r a data fold

/-! ### Several lines (R542) -/

/-- Lines are read in order; the access ends at the first that fails. -/
def State.readLines (s : State) (r : Requester) (fold : Bool) : List Nat → Line
  | [] => .ok s []
  | a :: as =>
    let x := s.readLine r a fold
    if x.stall ∨ x.code ≠ Code.ok then x
    else
      let y := x.st.readLines r fold as
      { y with data := x.data ++ y.data, ce := x.ce + y.ce }

/-- Pieces, each inside one line, are written in order; the access ends at the first that fails. -/
def State.writeLines (s : State) (r : Requester) (fold : Bool) : List (Nat × Bytes) → Line
  | [] => .ok s []
  | (a, d) :: as =>
    let x := s.writeLine r a d fold
    if x.stall ∨ x.code ≠ Code.ok then x
    else
      let y := x.st.writeLines r fold as
      { y with ce := x.ce + y.ce }

/-- Line addresses that bytes [a, a + n) touch. -/
def linesOf (a n : Nat) : List Nat :=
  if n = 0 then [] else (List.range ((a + n - 1) / 64 - a / 64 + 1)).map (fun i => (a / 64 + i) * 64)

/-- The bytes to write cut at line boundaries; `fuel` bounds the number of pieces. -/
def pieces : Nat → Nat → Bytes → List (Nat × Bytes)
  | 0, _, _ => []
  | _, _, [] => []
  | fuel + 1, a, d =>
    let n := 64 - a % 64
    (a, d.take n) :: pieces fuel (a + n) (d.drop n)

/-- A read of n bytes at a, whole lines delivered and cut. -/
def State.readSpan (s : State) (r : Requester) (a n : Nat) : Line :=
  let x := s.readLines r false (linesOf a n)
  { x with data := (x.data.drop (a % 64)).take n }

/-- A write of bytes at a. -/
def State.writeSpan (s : State) (r : Requester) (a : Nat) (d : Bytes) : Line :=
  s.writeLines r false (pieces (d.length / 64 + 2) a d)

end Sys2Proof.Machine
end

