-- ==== Sys2Proof/Machine/RegOps.lean ====
section
/-! DEFINITION. Register accesses of hub cores: the hub's checks in their order (R36, R541), absent light dies (R5), the
stall on a power domain that is not ON (R37), and how a plain write acts on a register's bits. -/

namespace Sys2Proof.Machine

/-- A register that only the secure world may write, on a page the normal world may reach (R36). -/
def secureWrite (p o : Nat) : Bool :=
  if p = 1 then o = 0x100 ∨ o = 0x104 ∨ o = 0x108
  else if 0x100 ≤ p ∧ p < 0x200 then
    let q := (p - 0x100) % 0x40
    (q = 1 ∧ o < 0x60) ∨ (q = 5 ∧ o < 0x100) ∨ (q = 6 ∧ o < 0x400 ∧ (o % 0x100 = 0 ∨ (0x40 ≤ o % 0x100 ∧ o % 0x100 < 0x80))) ∨
    (q = 0 ∧ o = 0x200)
  else if 0x200 ≤ p ∧ p < 0x280 then (p - 0x200) % 0x20 = 3 ∨ (p - 0x200) % 0x20 = 5
  else false

/-- Whether a world may make a read or a write on a page and register (R36). -/
def worldMay (w : World) (write : Bool) (p o : Nat) : Bool :=
  match w with
  | .secure => true
  | .normal =>
    if 0x080 ≤ p ∧ p ≤ 0x08F then !write
    else if p = 0x030 ∨ p = 0x040 ∨ p = 0x050 ∨ p = 0x060 ∨ p = 0x300 ∨ p = 0x3F0 then false
    else !(write && secureWrite p o)

/-- The first check of R541 that fails: its status and whether it writes a security record. -/
def State.accessCheck (s : State) (a : Acc) (write : Bool) : Option (Byte × Bool) :=
  let p := a.addr / 0x10000
  let o := a.addr % 0x10000 / 4 * 4
  if ¬ pageAllotted p then some (Code.accessBounds, false)
  else if ¬ worldMay a.world write p o then some (Code.accessBounds, true)
  else if p = 0x3F0 ∧ s.lc ≠ 0 ∧ s.lc ≠ 3 then some (Code.lifecycleDenied, false)
  else if a.width ≠ 4 ∨ a.addr % 4 ≠ 0 then some (Code.formatError, false)
  else none

/-- The record of a refused normal-world access: the physical address of the register, or the hub SRAM offset (R31, R36,
R544). -/
def State.refusedEvent (s : State) (addr : Nat) (write hub : Bool) : State :=
  s.post 3 { Ev.of 7 1 Code.accessBounds 2 0 0 (b2n write + 2 * b2n hub) with
    addr := if hub then addr else 0x0F00_00000000 + addr }

/-- The page belongs to a light die that is not fitted (R5). -/
def State.absentLd (s : State) (addr : Nat) : Bool :=
  let p := addr / 0x10000
  decide (0x200 ≤ p ∧ p < 0x280 ∧ s.part.ldCount ≤ (p - 0x200) / 0x20)

/-- The switched power domain a register's unit lies in (R37, R436): a strand's registers and a light die's pages. -/
def regDomain (addr : Nat) : Option Nat :=
  let p := addr / 0x10000
  let o := addr % 0x10000
  if 0x100 ≤ p ∧ p < 0x200 then
    let d := (p - 0x100) / 0x40
    let q := (p - 0x100) % 0x40
    if q = 0 then
      (if o < 0x30 then some (pdStrand d (o / 4))
       else if 0x40 ≤ o ∧ o < 0x70 then some (pdStrand d ((o - 0x40) / 4))
       else if 0x400 ≤ o ∧ o < 0x1000 then some (pdStrand d ((o - 0x400) / 0x100)) else none)
    else if q = 3 ∧ o < 0x100 then some (pdStrand d (o / 0x40))
    else if q = 5 ∧ o < 0x100 then some (pdStrand d (o / 0x40))
    else if q = 6 ∧ o < 0x400 then some (pdStrand d (o / 0x100))
    else none
  else if 0x200 ≤ p ∧ p < 0x280 then some (pdLd ((p - 0x200) / 0x20))
  else none

/-- What is waited for has not come: the access or instruction stands where it was (notes/assumptions/7.md). -/
def State.waits (s : State) : State := s.done Code.deferred

/-- Work of Daxna waits while the hub resets (R485). -/
def State.byDaxna (s : State) (k : Result) : Result := if s.hub.reset.isSome then .next s.waits else k

/-- A write discards what the core's pair buffer holds (R34). -/
def State.dropWbuf (s : State) (core : Nat) : State := { s with wbuf := s.wbuf.put (fun _ => none) core none }

/-- The die that a register is on: compute dies, light dies, else the hub die (R35). -/
def regDie (addr : Nat) : Nat :=
  let p := addr / 0x10000
  if 0x100 ≤ p ∧ p < 0x200 then (p - 0x100) / 0x40 else if 0x200 ≤ p ∧ p < 0x280 then 4 + (p - 0x200) / 0x20 else 8

/-- A register access: the checks of R541, the answer for an absent light die, the stall or failure of its power
domain, then the access itself, over the link to the register's die (R16), which answers ECC_CORRECTED where the link
corrected a word (R8, R55). A write that fails on the way still discards the core's buffered _LO write (R34). -/
def State.access (s : State) (a : Acc) (write : Bool) (k : State → State) : State :=
  let drop := fun (t : State) => if write then t.dropWbuf a.core.val else t
  let go := fun (t : State) =>
    let y := t.crossPorts (if write then route 8 (regDie a.addr) else route (regDie a.addr) 8)
    if y.2 then (drop y.1).done Code.eccUncorrectable else (k y.1).ceReply (t.linkCeTo y.1)
  let past := drop s
  match s.accessCheck a write with
  | some (c, ev) => (if ev then s.refusedEvent a.addr write false else s).done c
  | none =>
    if s.absentLd a.addr then past.done Code.ok
    else match regDomain a.addr with
    | none => go s
    | some n =>
      if s.pdState n = 6 then past.done Code.wakeFail
      else if s.pdOn n then go s
      else (s.startWake n).waits

/-- A write of a hub core goes to die d over its link: poisoned on the way it fails; a word corrected on the way is reported
(R8, R16, R55). -/
def State.toDie (s : State) (d : Nat) (k : State → State) : State :=
  let y := s.crossPorts (route 8 d)
  if y.2 then y.1.done Code.eccUncorrectable else (k y.1).ceReply (s.linkCeTo y.1)

/-- A write access: as `access`, and the core's buffered _LO write is discarded. -/
def State.writeAccess (s : State) (a : Acc) (k : State → State) : State :=
  s.access a true (fun t => k (t.dropWbuf a.core.val))

/-- What a plain write leaves in a register: RW bits take the value, W1C bits written 1 clear. -/
def plainWord (i : RegInfo) (old v : Word) : Word :=
  (old &&& ~~~i.rw &&& ~~~(i.w1c &&& v)) ||| (v &&& i.rw)

/-- A plain write; an offset with no register and a WO register store nothing (R37). -/
def State.plainWrite (s : State) (addr : Nat) (v : Word) : State :=
  match regInfo addr with
  | some i => s.setReg addr (plainWord i (s.reg addr) v)
  | none => s

/-- Only the secure world may issue the command (R36); the normal world's attempt is refused and recorded. -/
def State.secureOnly (s : State) (w : World) (addr : Nat) (k : State → State) : State :=
  match w with
  | .secure => k s
  | .normal => (s.refusedEvent addr true false).done Code.accessBounds

end Sys2Proof.Machine
end

