-- ==== Sys2Proof/Machine/Banks.lean ====
section
/-! DEFINITION. Meanings of the bank, DMA, alias, error-code, patrol, HBM and Breakwater commands (R38–R60, R384–R391,
R542, R543). -/

namespace Sys2Proof.Machine

/-- The answer of a memory access: data read are put out; a stalled access waits. -/
def Line.answer (x : Line) : State :=
  if x.stall then x.st.waits
  else
    let s1 := if x.data = [] then x.st else x.st.emit (.words (x.data.map (fun b => b.toNat)))
    { s1 with reply := ⟨x.code, BitVec.ofNat 64 (fromLE (x.data.take 8))⟩ }

/-- A success on whose way a word was corrected reports ECC_CORRECTED (R8, R55). -/
def Line.withCe (x : Line) (n : Nat) : Line := if x.code = Code.ok ∧ 0 < n then { x with code := Code.eccCorrected } else x

/-! ### BANK_OWNER -/

/-- A bank holds a part of a region that is not FREE (R352). -/
def State.bankPinned (s : State) (d b : Nat) : Bool :=
  s.regions.any (fun e => e.2.st ≠ 0 ∧ e.2.base.toNat < bankAddr d b 0x4000000 ∧
    bankAddr d b 0 < e.2.base.toNat + e.2.length.toNat)

/-- BANK_STAT.WR_IGNORED := 1. -/
def State.wrIgnored (s : State) (d b : Nat) : State := s.setFld (Reg.bankStat d b) 28 28 1

/-- The write would change VALID or CTX. -/
def State.changesOwner (s : State) (d b : Nat) (v : Word) : Bool :=
  bits v 8 8 ≠ b2n (s.bvalid d b) ∨ (bits v 8 8 = 1 ∧ bits v 3 0 ≠ s.bctx d b)

/-- A write of BANK_OWNER is ignored (R42, R46, R352). -/
def State.ownerIgnored (s : State) (d b : Nat) (v : Word) : Bool :=
  s.bst d b = 2 ∨ s.bst d b = 3 ∨ (bits v 10 10 = 1 ∧ (bits v 8 8 = 0 ∨ 3 < bits v 15 12)) ∨
  (s.bankPinned d b ∧ s.changesOwner d b v)

/-- The handover takes a clear pass (R44, R87). -/
def State.ownerClears (s : State) (d b : Nat) (v : Word) : Bool :=
  s.bacc d b ∨ bits v 24 24 = 1 ∨
  (bits v 8 8 = 1 ∧ bits v 3 0 ≠ s.fld (Reg.bankStat d b) 27 24 ∧ s.fld (Reg.bankStat d b) 29 29 = 0)

/-- A write of BANK_OWNER starts a handover, or is ignored with WR_IGNORED (R44, R46, R443, R445). -/
def State.bankOwnerWrite (s : State) (d b : Nat) (v : Word) : State :=
  if s.ownerIgnored d b v then (s.wrIgnored d b).done Code.ok
  else if s.pdState (pdBank d b) = 6 then (s.wrIgnored d b).done Code.wakeFail
  else (s.startHandover d b (v &&& 0x0000F70F) (s.ownerClears d b v)).done Code.ok

/-- Die and bank of a BANK_OWNER address. -/
def bankOfAddr (a : Nat) : Option (Nat × Nat) :=
  let p := a / 0x10000
  let o := a % 0x10000
  if 0x100 ≤ p ∧ p < 0x200 ∧ (p - 0x100) % 0x40 = 1 ∧ o < 0x60 ∧ o % 4 = 0 then some ((p - 0x100) / 0x40, o / 4) else none

/-- BANK_OWNER_WRITE (R42–R46, R87). -/
def execBankOwnerWrite (a : Acc) (v : Word) (s : State) : Result :=
  .next (s.writeAccess a (fun t =>
    match bankOfAddr a.addr with
    | some (d, b) => t.bankOwnerWrite d b v
    | none => t.done Code.ok))

/-- BANK_FREE_CLEAR: BANK_OWNER written with CLR = 1, VALID = 0 and no strand (R42, R44). -/
def execBankFreeClear (a : Acc) (s : State) : Result :=
  .next (s.writeAccess a (fun t =>
    match bankOfAddr a.addr with
    | some (d, b) => t.bankOwnerWrite d b 0x0100F000
    | none => t.done Code.ok))

/-- The new owner takes the ports; LAST_CTX names it (R43, R44). A bank that Daxna frees meanwhile starts the handover that
frees it. -/
def State.installOwner (s : State) (d b : Nat) (w : Word) : State :=
  let v := bits w 8 8
  let x := s.bank d b
  let s1 := (s.setBank d b { x with target := none, waking := false, freed := false }).setReg (Reg.bankOwner d b)
    (setBits w 31 30 v)
  let s2 := if v = 1 then s1.setFld (Reg.bankStat d b) 27 24 (bits w 3 0) else s1
  if x.freed then s2.startHandover d b 0x0000F000 true else s2

/-- Every line of the bank is zero with good check bits, and CLEAN is set (R44). -/
def State.clearBank (s : State) (d b : Nat) : State :=
  let a := bankAddr d b 0
  { s.zeroMem a 0x4000000 with
    ecc := s.ecc.clear (fun w => decide (a / 16 ≤ w ∧ w < a / 16 + 0x400000)) }.setFld (Reg.bankStat d b) 29 29 1

/-- BANK_HANDOVER_DRAIN_DONE: at cycle 33 the ports go to the new owner, or the clear pass begins (R44). -/
def execBankHandoverDrainDone (d : Fin 4) (b : Fin 24) (s : State) : Result :=
  match (s.bank d.val b.val).target with
  | some (w, clr) =>
    if s.bst d.val b.val = 2 ∧ s.pdOn (pdBank d.val b.val) then
      (if clr then .next ((s.setFld (Reg.bankOwner d.val b.val) 31 30 3).done Code.ok)
       else .next ((s.installOwner d.val b.val w).done Code.ok))
    else .next s.waits
  | none => .next s.idle

/-- BANK_CLEAR_DONE: the pass ends, CLEAN is set and the new owner takes the ports (R44). -/
def execBankClearDone (d : Fin 4) (b : Fin 24) (s : State) : Result :=
  match (s.bank d.val b.val).target with
  | some (w, _) =>
    if s.bst d.val b.val = 3 ∧ s.pdOn (pdBank d.val b.val) then
      .next (((s.clearBank d.val b.val).installOwner d.val b.val w).done Code.ok)
    else .next s.waits
  | none => .next s.idle

/-! ### Hub and DMA accesses -/

/-- The ranges of hub SRAM that R471 gives to the secure world alone. -/
def hubSecureOff (o : Nat) : Bool := o < 0x2000000
/-- The bounce area (R399). -/
def hubBounce (o : Nat) : Bool := 0x2800000 ≤ o

/-- What the normal world reads: the bounce area shows zeros (R399). -/
def State.hubNormal (s : State) (o n : Nat) : Bytes :=
  (s.hubBytes o n).zipIdx.map (fun e => if hubBounce (o + e.2) then 0 else e.1)

/-- An access to hub SRAM by a world, inside its 64 MiB (R471, R399): the management cluster's domain is ON, or its wake
starts and the access waits, or its wake has failed (R442, R445). -/
def State.hubSram (s : State) (w : World) (o : Nat) (op : MemOp) : State :=
  let n := match op with | .read n => n | .write d => d.length
  let wr := match op with | .read _ => false | .write _ => true
  if 0x4000000 < o + n then s.done Code.accessBounds
  else if w = .normal ∧ hubSecureOff o then (s.refusedEvent o wr true).done Code.accessBounds
  else if s.pdState 56 = 6 then s.done Code.wakeFail
  else if ¬ s.pdOn 56 then (s.startWake 56).waits
  else match op with
  | .read n =>
    (Line.ok s (if w = .normal then s.hubNormal o n else s.hubBytes o n)).answer
  | .write d => (s.hubStore o d).done Code.ok

/-- The hub access meets BANK_BUSY at the line at `a`: a bank line that would have been granted (R41). -/
def State.meetsBusy (s : State) (r : Requester) (a : Nat) : Option (Nat × Nat) :=
  match place s.part a with
  | .bank d b _ => if (s.bankGate r d b false).isNone then some (d, b) else none
  | .setAlias d b _ => if (s.bankGate r d b false).isNone then some (d, b) else none
  | .clrAlias d b _ => if (s.bankGate r d b false).isNone then some (d, b) else none
  | _ => none

/-- A hub access over pieces; `busy` lines from here one meets BANK_BUSY and the access ends with BUSY (R542). -/
def State.hubPieces (s : State) (r : Requester) (wr : Bool) : List (Nat × Bytes) → Option Nat → Line
  | [], _ => .ok s []
  | (a, d) :: as, busy =>
    match (if busy = some 0 then s.meetsBusy r a else none) with
    | some (die, b) => .fail (s.countBusy die b 1) Code.busy
    | none =>
      let x := if wr then s.writeLine r a d false else s.readLine r a false
      if x.stall ∨ x.code ≠ Code.ok then x
      else
        let y := x.st.hubPieces r wr as (match busy with | some (n + 1) => some n | _ => none)
        { y with data := x.data ++ y.data, ce := x.ce + y.ce }

/-- HUB_MEMORY_ACCESS: a bank or HBM address, or 2^48 + a hub SRAM offset (R33, R41, R45, R471, R542). -/
def execHubMemoryAccess (world : World) (key : Fin 19) (addr : Nat) (op : MemOp) (busyLine : Option Nat) (s : State) :
    Result :=
  if 2 ^ 48 ≤ addr then .next (s.hubSram world (addr - 2 ^ 48) op)
  else match op with
  | .read n =>
    let x := s.hubPieces (.hub world key) false ((linesOf addr n).map (fun l => (l, []))) busyLine
    .next (({ x with data := (x.data.drop (addr % 64)).take n }).withCe (x.ce + s.linkCeTo x.st)).answer
  | .write d =>
    let x := s.hubPieces (.hub world key) true (pieces (d.length / 64 + 2) addr d) busyLine
    .next (x.withCe (x.ce + s.linkCeTo x.st)).answer

/-- A DMA transfer cut into pieces that lie inside one source line. -/
def State.dmaLoop (s : State) (r : Requester) : Nat → Nat → Nat → Nat → Line
  | 0, _, _, _ => .ok s []
  | fuel + 1, src, dst, n =>
    if n = 0 then .ok s []
    else
      let k := min n (min (64 - src % 64) (64 - dst % 64))
      let x := s.readLine r (src / 64 * 64) false
      if x.stall ∨ x.code ≠ Code.ok then { x with data := [] }
      else
        let y := x.st.writeLine r dst ((x.data.drop (src % 64)).take k) false
        if y.stall ∨ y.code ≠ Code.ok then y
        else
          let z := y.st.dmaLoop r fuel (src + k) (dst + k) (n - k)
          { z with ce := x.ce + y.ce + z.ce }

/-- DMA_TRANSFER under its descriptor's context; BANK_BUSY is reissued in hardware (R41, R45, R394, R542). -/
def execDmaTransfer (d : Fin 4) (ctx : Fin 16) (src dst : Nat) (len : Nat) (s : State) : Result :=
  let x := s.dmaLoop (.dma (Fin.ofNat 8 d.val) ctx) (2 * (len / 64 + 2)) src dst len
  .next (x.withCe (x.ce + s.linkCeTo x.st)).answer

/-! ### Aliases -/

/-- The alias window names a bank: die, bank, offset, set. -/
def aliasPlace (p : Part) (a : Nat) : Option (Nat × Nat × Nat × Bool) :=
  match place p a with
  | .setAlias d b o => some (d, b, o, true)
  | .clrAlias d b o => some (d, b, o, false)
  | _ => none

/-- An alias operation of a requester, with BANK_BUSY as R41 gives: the hub's ends BUSY, others reissue. `exch`: the
line as it was is returned. -/
def State.aliasAccess (s : State) (r : Requester) (addr : Nat) (data : Bytes) (busy exch : Bool) : State :=
  match aliasPlace s.part addr with
  | none => s.done Code.accessBounds
  | some (d, b, _, _) =>
    let hub : Bool := match r with | .hub _ _ => true | _ => false
    let hit := busy && (s.meetsBusy r addr).isSome
    let s1 := if hit then s.countBusy d b 1 else s
    if hit ∧ hub then s1.done Code.busy
    else
      let x := s1.writeLine r addr (data.take (64 - addr % 64)) false
      let y := if exch then x.carried d (requesterDie r) else { x with data := [] }
      (y.withCe (y.ce + s.linkCeTo y.st)).answer

/-- ALIAS_WRITE (R47, R48). -/
def execAliasWrite (r : Requester) (addr : Nat) (data : Bytes) (busy : Bool) (s : State) : Result :=
  .next (s.aliasAccess r addr data busy false)

/-- ALIAS_EXCHANGE (R47, R48). -/
def execAliasExchange (r : Requester) (addr : Nat) (data : Bytes) (busy : Bool) (s : State) : Result :=
  .next (s.aliasAccess r addr data busy true)

/-! ### Error code and patrols -/

/-- ECC_WRITEBACK: the corrected word is written back unless another write reached the line first (R56). -/
def execEccWriteback (wordAddr : Nat) (otherWrite : Bool) (s : State) : Result :=
  match s.mark (wordAddr / 16) with
  | .oneNibble _ _ =>
    if otherWrite then .next s.idle else .next ((s.setMark (wordAddr / 16) .good).done Code.ok)
  | _ => .next s.idle

/-- PATROL_LINE: the patrol reads one line of a bank that is not CLEARING and whose half-array is ON; BANK_BUSY leaves
the line for later (R41, R58, R444). -/
def execPatrolLine (d : Fin 4) (b : Fin 24) (line : Fin 1048576) (busy : Bool) (s : State) : Result :=
  let a := bankAddr d.val b.val (line.val * 64)
  let x := s.bank d.val b.val
  if s.bst d.val b.val = 3 ∨ ¬ s.pdOn (pdBank d.val b.val) then .next s.idle
  else if busy then
    .next (((s.countBusy d.val b.val 1).setBank d.val b.val { x with missed := line.val :: x.missed }).done Code.ok)
  else
    let s1 := s.setBank d.val b.val { x with missed := x.missed.filter (fun l => l ≠ line.val) }
    .next ((s1.noteErrors a (lineWords a) true).done
      (if s1.anyUe (lineWords a) then Code.eccUncorrectable else Code.ok))

/-- PATROL_PASS: a pass that has read every line sets PATROL_LAG if it took more than 2 s, else clears it (R58). `ms` leaves
out the time that the half-array spent in RETAIN or OFF; while it is not ON no pass ends (R444). -/
def execPatrolPass (d : Fin 4) (b : Fin 24) (ms : Nat) (s : State) : Result :=
  if (s.bank d.val b.val).missed ≠ [] ∨ ¬ s.pdOn (pdBank d.val b.val) then .next s.waits
  else .next ((s.setFld (Reg.bankStat d.val b.val) 30 30 (b2n (decide (2000 < ms)))).done Code.ok)

/-- Physical address of a stack address (R53). -/
def stackAddr (p : Part) (stack saddr : Nat) : Nat :=
  p.blockBase (stack / 3) + (saddr / 4096 * p.stacksPerDie + stack % 3) * 4096 + saddr % 4096

/-- The stack position is populated (R51). -/
def stackFitted (p : Part) (stack : Nat) : Bool := stack % 3 < p.stacksPerDie

/-- HBM_PATROL_LINE: beneath Breakwater, without a key, the line at the patrol's place, which a pause keeps; a pass takes the
lines in address order (DESIGN CHOICE, notes/assumptions/129.md) and ends at the stack's last (R59, R444, R543). -/
def execHbmPatrolLine (stack : Fin 12) (saddr : Nat) (s : State) : Result :=
  let a := stackAddr s.part stack.val saddr
  if s.fld Reg.hbmScrubCtl 31 31 = 0 ∨ ¬ stackFitted s.part stack.val ∨ ¬ s.pdOn 63 ∨ 0x600000000 ≤ saddr ∨
      saddr / 64 ≠ s.patrol.get (fun _ => 0) stack.val then .next s.idle
  else
    let s1 := { s.noteErrors a (lineWords a) true with
      patrol := s.patrol.put (fun _ => 0) stack.val ((saddr / 64 + 1) % (0x600000000 / 64)) }
    let s2 := (lineWords a).foldl (fun t w => if t.mark w = .uncorrectable then t else t.setMark w .good) s1
    let s3 := if saddr / 64 = 0x600000000 / 64 - 1 then
        { s2 with passAt := s2.passAt.put (fun _ => 0) stack.val (s2.time.get (fun _ => 0) 0) }.addFld (Reg.hbmPass stack.val) 31 16 1
      else s2
    .next (s3.done (if s.anyUe (lineWords a) then Code.eccUncorrectable else Code.ok))

/-- HBM_PHY_RETRAIN: only in an idle window; it keeps the cache, every counter and the patrol's place (R389, R480). -/
def execHbmPhyRetrain (_stack : Fin 12) (idle : Bool) (s : State) : Result :=
  if idle then .next (s.done Code.ok) else .next s.waits

/-! ### HBM through Breakwater -/

/-- HBM_LINE_READ (R6, R385, R388, R390, R392). -/
def execHbmLineRead (r : Requester) (addr : Nat) (s : State) : Result :=
  match place s.part addr with
  | .hbm _ _ =>
    let x := s.readLine r (addr / 64 * 64) false
    .next (x.withCe (x.ce + s.linkCeTo x.st)).answer
  | _ => .next (s.done Code.accessBounds)

/-- HBM_LINE_WRITE (R54, R56, R388, R392). -/
def execHbmLineWrite (r : Requester) (addr : Nat) (data : Bytes) (s : State) : Result :=
  match place s.part addr with
  | .hbm _ _ =>
    let x := s.writeLine r addr (data.take (64 - addr % 64)) false
    .next (x.withCe (x.ce + s.linkCeTo x.st)).answer
  | _ => .next (s.done Code.accessBounds)

/-- The first node at or above a level, above a node of the level below it, that fails its check on the way into the cache. -/
def State.badAbove (s : State) (d lvl node : Nat) : Option Nat :=
  let key (l : Nat) : Nat := (d * 8 + l) * 2 ^ 32 + node / 8 ^ (l + 1 - lvl)
  (((([0, 1, 2, 3, 4, 5] : List Nat).filter (fun l => decide (lvl ≤ l))).takeWhile (fun l => !s.inCache (key l))).reverse).find?
    (fun l => s.badNode.get (fun _ => false) (key l))

/-- TREE_NODE_WRITEBACK: a changed node leaves the cache; its copy is replaced and its parent's counter rises, which
changes the parent (R389). The parent has to be in the cache for that: one that fails its check keeps the node there. An unchanged
node given here just leaves (notes/assumptions/70.md). -/
def execTreeNodeWriteback (d : Fin 4) (level : Fin 6) (node : Nat) (s : State) : Result :=
  let k := (d.val * 8 + level.val) * 2 ^ 32 + node
  let pk := (d.val * 8 + level.val + 1) * 2 ^ 32 + node / 8
  let gone := { s with cached := s.cached.put (fun _ => false) k false }
  if s.dirty.get (fun _ => false) k then
    if level.val < 5 ∧ (s.badAbove d.val (level.val + 1) node).isSome then .next s.idle
    else
      let dt := s.dirty.put (fun _ => false) k false
      .next ({ gone with
        dirty := if level.val < 5 then dt.put (fun _ => false) pk true else dt
        badNode := s.badNode.put (fun _ => false) k false
        nodeCnt := s.nodeCnt.put (fun _ => 0) k (s.nodeCnt.get (fun _ => 0) k + 1) }.done Code.ok)
  else if s.cached.get (fun _ => false) k then .next (gone.done Code.ok)
  else .next s.idle

end Sys2Proof.Machine
end

