-- ==== Sys2Proof/Machine/StrandCtl.lean ====
section
/-! DEFINITION. Meanings of the strand-control, channel and ingress-queue commands (R74–R85, R94–R99, R108, R171). -/

namespace Sys2Proof.Machine

/-- A command on a strand reaches its power domain: it waits for a wake, or fails with WAKE_FAIL (R37, R442, R445). -/
def State.onStrand (s : State) (d st : Nat) (k : State → State) : State :=
  if s.pdState (pdStrand d st) = 6 then s.done Code.wakeFail
  else if s.pdOn (pdStrand d st) then k s
  else (s.startWake (pdStrand d st)).waits

/-- Every stage of a strand starts its program (R96). -/
def State.startStages (s : State) (d st : Nat) : State := s.eachStage d st (fun x => { x with run := .running })

/-- A READY strand runs (R96). -/
def State.runStrand (s : State) (d st : Nat) : State :=
  ((s.startStages d st).setFld (Reg.strandCtl d st) 31 31 1).setSst d st SS.running

/-- A write of STRAND_CTL.ENABLE (R94, R96). Between a write of SRESET and its end STATE reads as before, and ENABLE in READY is
ignored (DESIGN CHOICE, notes/assumptions/101.md). -/
def State.enableWrite (s : State) (d st : Nat) (on : Bool) : State :=
  if s.sst d st = SS.ready ∧ ¬ (s.strand (strandIx d st)).sreset then
    (if on then s.runStrand d st else s.setFld (Reg.strandCtl d st) 31 31 0)
  else if s.sst d st = SS.running then s.setFld (Reg.strandCtl d st) 31 31 (b2n on)
  else s

/-- STRAND_ENABLE, a register write that reaches its die over the link (R16, R94, R96). -/
def execStrandEnable (d : Fin 4) (st : Fin 12) (on : Bool) (s : State) : Result :=
  .next (s.toDie d.val (fun t => t.onStrand d.val st.val (fun u => (u.enableWrite d.val st.val on).done Code.ok)))

/-- STRAND_DRAIN (R94, R96). -/
def execStrandDrain (d : Fin 4) (st : Fin 12) (s : State) : Result :=
  .next (s.toDie d.val (fun t => t.onStrand d.val st.val (fun u => (u.drainWrite d.val st.val).done Code.ok)))

/-- STRAND_DRAIN_DONE: every stage of the draining strand is idle and the strand is HALTED (R96). -/
def execStrandDrainDone (d : Fin 4) (st : Fin 12) (s : State) : Result :=
  if s.sst d.val st.val = SS.draining then
    .next ((((s.stopStages d.val st.val).endDrain d.val st.val).setSst d.val st.val SS.halted).done
      Code.ok)
  else .next s.idle

/-- A write of STRAND_CTL.SRESET is acted on in READY, HALTED and FAULTED (R94, R96, R101). -/
def State.sresetWrite (s : State) (d st : Nat) : State :=
  if s.sst d st = SS.ready ∨ s.sst d st = SS.halted ∨ s.sst d st = SS.faulted then
    let t := ((s.zeroStrand d st).clearCounts d st).setFld (Reg.strandCtl d st) 29 29 1
    t.setStrand (strandIx d st) { t.strand (strandIx d st) with sreset := true }
  else s

/-- STRAND_SRESET (R96). -/
def execStrandSreset (d : Fin 4) (st : Fin 12) (s : State) : Result :=
  .next (s.toDie d.val (fun t => t.onStrand d.val st.val (fun u => (u.sresetWrite d.val st.val).done Code.ok)))

/-- SRESET_DONE: the strand is READY with its recipe bound (R96). -/
def execSresetDone (d : Fin 4) (st : Fin 12) (s : State) : Result :=
  let x := s.strand (strandIx d.val st.val)
  if x.sreset then
    .next ((((s.setStrand (strandIx d.val st.val) { x with sreset := false }).setFld (Reg.strandCtl d.val st.val) 29 29
      0).setSst d.val st.val SS.ready).done Code.ok)
  else .next s.idle

/-- FAULT_RECORD_CLEAR: W1C of FR_STATUS.VALID clears the whole record and the stage's FAULT_STAGES bit (R95, R99). -/
def State.clearRecord (s : State) (l : Loc) : State :=
  let b := Reg.frBase l.d l.s l.g
  (s.resetRegs (fun a => decide (b ≤ a ∧ a < b + 0x20))).setFld (Reg.strandStat l.d l.s) (16 + l.g) (16 + l.g) 0

def execFaultRecordClear (l : Loc) (s : State) : Result :=
  .next (s.toDie l.d (fun t => t.onStrand l.d l.s (fun u => (u.clearRecord l).done Code.ok)))

/-! ### Channels -/

/-- The stage before a stage. -/
def State.prevIx (l : Loc) : Nat := l.ix - 1

/-- TILE_ARRIVE: the oldest tile on the channel from the stage before completes in a slot; a bad word sets DATA_ERR and
is counted and reported; a tile for an earlier stage is discarded and the stage faults (R77, R78). A beat for a domain that is not ON starts its wake
and waits, and fails in WAKE_FAILED (R442, R445). -/
def execTileArrive (l : Loc) (badWord : Bool) (s : State) : Result :=
  if l.g = 0 then .next s.idle
  else match (s.stage (State.prevIx l)).chan with
  | [] => .next s.idle
  | t :: ts => .next (s.onStrand l.d l.s (fun s =>
    let s1 := s.setStage (State.prevIx l) { s.stage (State.prevIx l) with chan := ts }
    let y := s1.stage l.ix
    let x := if badWord then { y with chanErr := y.chanErr + 1 } else y
    let s2 := if badWord then s1.wordUe l else s1
    if t.dest.toNat < l.g then
      (s2.setStage l.ix { x with owed := x.owed + 1 }).stageFault l ⟨Code.formatError, Origin.inChan, 0, 0, false⟩
    else
      (s2.setStage l.ix { x with slots := x.slots ++ [{ t with dataErr := t.dataErr || badWord }] }).done Code.ok))

/-- CREDIT_RETURN: a freed slot's credit reaches the sender (R75); CONVERT's sender is the SEAL that releases (R155). A
domain that is not ON holds its credit returns at 0 (R438, R439). -/
def execCreditReturn (l : Loc) (s : State) : Result :=
  let x := s.stage l.ix
  if x.owed = 0 ∨ (l.g = 0 ∧ l.kind ≠ 2) then .next s.idle
  else if ¬ s.pdOn (pdStrand l.d l.s) then .next s.waits
  else if l.g = 0 then .next ((s.setStage l.ix { x with owed := x.owed - 1 }).done Code.ok)
  else
    let s1 := s.setStage l.ix { x with owed := x.owed - 1 }
    let y := s1.stage (State.prevIx l)
    .next ((s1.setStage (State.prevIx l) { y with credits := y.credits + 1 }).done Code.ok)

/-- The oldest tile of a stage's slots that satisfies p, with the slots that stay. -/
def takeTile (p : Tile → Bool) : List Tile → Option (Tile × List Tile)
  | [] => none
  | t :: ts => if p t then some (t, ts) else (takeTile p ts).map (fun r => (r.1, t :: r.2))

/-- The stage's own SEND waits for the output channel: it stands at the PC of a stage that issues, no fence holds it, and
under HINT INSLOT a complete slot for this stage is there (R77, R118, R119). -/
def State.ownSend (s : State) (l : Loc) : Bool :=
  let x := s.stage l.ix
  let w := (x.imem.get (fun _ => 0) x.pc).toNat
  decide (s.sst l.d l.s = SS.running ∨ s.sst l.d l.s = SS.draining ∨ s.sst l.d l.s = SS.faulted) &&
  decide (x.run = .running) && decide (x.wait = .none) && decide (x.pc < x.codeWords) &&
  decide (w / 2 ^ 56 = 0x43) && decide (x.fence = 0) &&
  (decide (w / 2 ^ 24 % 4 ≠ 2) || x.slots.any (fun t => decide (t.dest.toNat = l.g)))

/-- TILE_FORWARD: a tile for a later stage leaves on the output channel once it holds a credit; where the stage's own SEND
waits as well, the two take turns (R77). -/
def execTileForward (l : Loc) (s : State) : Result :=
  let x := s.stage l.ix
  if ¬ s.pdOn (pdStrand l.d l.s) then .next s.idle
  else match takeTile (fun t => l.g < t.dest.toNat) x.slots with
  | none => .next s.idle
  | some (t, rest) =>
    if x.credits = 0 ∨ (x.fwdLast ∧ s.ownSend l) then .next s.waits
    else
      .next ((s.setStage l.ix { x with
        slots := rest, credits := x.credits - 1, chan := x.chan ++ [t], owed := x.owed + 1, fence := x.fence - 1
        fwdLast := true }).done
        Code.ok)

/-! ### Ingress queues -/

/-- IQ_PUBLISH: the written packet becomes visible to the reader (R81), and the queue's level wakes its strand (R442). -/
def execIqPublish (i : Fin 16) (s : State) : Result :=
  let q := s.queue i.val
  match q.wr with
  | some p => .next (((s.setQueue i.val { q with pkts := q.pkts ++ [p], wr := none }).queueLevel i.val).done Code.ok)
  | none => .next s.idle

/-- IQ_FREE_RETURN: the writer learns of the words popped (R81). -/
def execIqFreeReturn (i : Fin 16) (s : State) : Result :=
  .next ((s.setQueue i.val { s.queue i.val with unret := 0 }).done Code.ok)

/-- IQ_ZERO_DONE: zeroing ends and the writer sees FREE return to 8,192 (R85). -/
def execIqZeroDone (i : Fin 16) (s : State) : Result :=
  if (s.queue i.val).zeroing then .next ((s.setQueue i.val { PktQ.zero with ce := (s.queue i.val).ce }).done Code.ok) else .next s.idle

/-- RECIPE_UNBIND: LD_CTL.UNBIND, acted on in READY, HALTED and FAULTED (R103, R108). -/
def execRecipeUnbind (d : Fin 4) (s : State) : Result :=
  let st := s.fld (Reg.ldCtl d.val) 3 0
  if 12 ≤ st then .next s.idle
  else .next (s.onStrand d.val st (fun t =>
    if t.sst d.val st = SS.ready ∨ t.sst d.val st = SS.halted ∨ t.sst d.val st = SS.faulted then
      (t.unbindStrand d.val st).done Code.ok
    else t.done Code.ok))

/-- TWIDDLE_PREPARE_DONE: the Q register leaves PREPARING (R171). -/
def execTwiddlePrepareDone (l : Loc) (q : Fin 8) (s : State) : Result :=
  let x := s.stage l.ix
  .next ((s.setStage l.ix { x with prep := x.prep &&& ~~~(BitVec.ofNat 8 (2 ^ q.val)) }).done Code.ok)

end Sys2Proof.Machine
end

