-- ==== Sys2Proof/Machine/Operands.lean ====
section
/-! DEFINITION. Every operand form of a Grirad instruction (R109–R112, R133–R140): fields and encoding of the word,
register files, checks at issue, operands taken, retirement. -/

namespace Sys2Proof

/-- MOD subfields (R112). -/
def Fields.qsel (f : Fields) : Nat := f.mod.toNat / 512
def Fields.gsel (f : Fields) : Nat := f.mod.toNat / 128 % 4
def Fields.fmt (f : Fields) : Nat := f.mod.toNat / 16 % 8
def Fields.rnd (f : Fields) : Nat := f.mod.toNat / 4 % 4
def Fields.hint (f : Fields) : Nat := f.mod.toNat % 4
/-- IMM as a number, and a field [hi:lo] of it. -/
def Fields.i (f : Fields) : Nat := f.imm.toNat
def Fields.imf (f : Fields) (hi lo : Nat) : Nat := f.imm.toNat / 2 ^ lo % 2 ^ (hi + 1 - lo)
/-- Operand fields as numbers. -/
def Fields.d (f : Fields) : Nat := f.dst.toNat
def Fields.a (f : Fields) : Nat := f.sa.toNat
def Fields.b (f : Fields) : Nat := f.sb.toNat
def Fields.c (f : Fields) : Nat := f.sc.toNat

/-- The instruction word (R133). -/
def Fields.word (f : Fields) (opc : Nat) : DWord :=
  BitVec.ofNat 64 (opc * 2 ^ 56 + f.d * 2 ^ 51 + f.a * 2 ^ 46 + f.b * 2 ^ 41 + f.c * 2 ^ 36 + f.mod.toNat * 2 ^ 24 + f.i)

/-- Stage of a place in the order of R61: INTAKE 0 to FOLD 4, LOAD 8 to STORE 15, CONVERT 16 to ROUND 19. -/
def Loc.name (l : Loc) : Nat := l.kind * 8 + l.g

/-- Tile registers of a stage, 64-bit words and bytes of a tile (R109). -/
def Loc.tregs (l : Loc) : Nat := if l.kind = 0 then 16 else 32
def Loc.words (l : Loc) : Nat := if l.kind = 0 then 512 else if l.kind = 1 then 4096 else 2048
def Loc.tbytes (l : Loc) : Nat := 8 * l.words

end Sys2Proof

namespace Sys2Proof.Machine

/-! Stages by name. -/
namespace St
def intake : Nat := 0
def aead : Nat := 1
def prg : Nat := 2
def add : Nat := 3
def fold : Nat := 4
def load : Nat := 8
def ntt : Nat := 9
def mul : Nat := 10
def perm : Nat := 11
def intt : Nat := 12
def base : Nat := 13
def kacc : Nat := 14
def store : Nat := 15
def convert : Nat := 16
def fmaA : Nat := 17
def fmaB : Nat := 18
def round : Nat := 19
/-- C-stages; I-stages; F-stages. -/
def cs : List Nat := [8, 9, 10, 11, 12, 13, 14, 15]
def is : List Nat := [0, 1, 2, 3, 4]
def fs : List Nat := [16, 17, 18, 19]
end St

/-- The opcode map (R139). -/
def assignedOpc (n : Nat) : Bool :=
  decide (n ≤ 0x04) || (decide (0x08 ≤ n) && decide (n ≤ 0x0B)) || n == 0x10 || (decide (0x20 ≤ n) && decide (n ≤ 0x25)) ||
  (decide (0x40 ≤ n) && decide (n ≤ 0x44)) || (decide (0x60 ≤ n) && decide (n ≤ 0x64)) ||
  (decide (0x68 ≤ n) && decide (n ≤ 0x6A)) || (decide (0x80 ≤ n) && decide (n ≤ 0x82)) || n == 0xA0 || n == 0xA1 ||
  (decide (0xC0 ≤ n) && decide (n ≤ 0xD0)) || (decide (0xE0 ≤ n) && decide (n ≤ 0xE8))

/-! ### Operand shapes -/

/-- The register file an operand field names (R134). -/
inductive Opn where
  | none
  | t
  | s
  | d
  | p
  | q
  | g
  /-- BR's SA: predicate in [2:0], inversion in [3]. -/
  | br
deriving DecidableEq, Repr

/-- The field holds a value that its file permits (R134). -/
def Opn.okField (o : Opn) (v : Nat) : Bool :=
  match o with
  | .none => v == 0
  | .t => true
  | .s => true
  | .d => decide (v < 16)
  | .p => decide (v < 8)
  | .q => decide (v < 8)
  | .g => decide (v < 4)
  | .br => decide (v < 16)

/-- The register exists in the stage kind (R109). -/
def Opn.exists_ (o : Opn) (l : Loc) (v : Nat) : Bool :=
  match o with
  | .t => decide (v < l.tregs)
  | .q => decide (l.kind ≠ 2)
  | .g => decide (l.kind = 1)
  | _ => true

/-- What an entry of the reference permits: stages, operand files, MOD subfields, HINT values, IMM bits, and what else it
asks of the fields. -/
structure Shape where
  stages : List Nat
  dst : Opn := .none
  sa : Opn := .none
  sb : Opn := .none
  sc : Opn := .none
  qsel : Bool := false
  gsel : Bool := false
  fmt : Bool := false
  rnd : Bool := false
  hints : List Nat := [0]
  imm : Nat := 0
  extra : Bool := true
deriving DecidableEq, Repr

/-- No bit of x lies outside the mask m. -/
def within (x m : Nat) : Bool := x &&& m == x

/-- Checks 2 to 4 of R135. -/
def Shape.ok (h : Shape) (l : Loc) (f : Fields) : Bool :=
  h.stages.contains l.name &&
  h.dst.okField f.d && h.sa.okField f.a && h.sb.okField f.b && h.sc.okField f.c &&
  (h.qsel || f.qsel == 0) && (h.gsel || f.gsel == 0) && (if h.fmt then decide (f.fmt < 6) else f.fmt == 0) &&
  (h.rnd || f.rnd == 0) && h.hints.contains f.hint && within f.i h.imm && h.extra &&
  h.dst.exists_ l f.d && h.sa.exists_ l f.a && h.sb.exists_ l f.b && h.sc.exists_ l f.c

/-! ### Register files -/

def Stage.sr (x : Stage) (i : Nat) : DWord := x.s.get (fun _ => 0) i
def Stage.setS (x : Stage) (i : Nat) (v : DWord) : Stage := { x with s := x.s.put (fun _ => 0) i v }
/-- P[i]; P0 reads 1 (R109). -/
def Stage.pr (x : Stage) (i : Nat) : Bool := decide (i = 0) || x.p.getLsbD i
/-- A write of P[i]; P0 ignores it (R109). -/
def Stage.setP (x : Stage) (i : Nat) (b : Bool) : Stage :=
  if i = 0 then x
  else { x with p := (x.p &&& ~~~(BitVec.ofNat 8 (2 ^ i))) ||| (if b then BitVec.ofNat 8 (2 ^ i) else 0) }
def Stage.dr (x : Stage) (i : Nat) : QWord := x.d.get (fun _ => 0) i
def Stage.setD (x : Stage) (i : Nat) (v : QWord) : Stage := { x with d := x.d.put (fun _ => 0) i v }
/-- Q[i]: its modulus, 0 while invalid. -/
def Stage.qr (x : Stage) (i : Nat) : DWord := x.q.get (fun _ => 0) i
def Stage.setQ (x : Stage) (i : Nat) (v : DWord) : Stage := { x with q := x.q.put (fun _ => 0) i v }
/-- G[i]; reset value 1 (R109). -/
def Stage.gr (x : Stage) (i : Nat) : BitVec 18 := x.g.get (fun _ => 1) i
def Stage.setG (x : Stage) (i : Nat) (v : BitVec 18) : Stage := { x with g := x.g.put (fun _ => 1) i v }
def Stage.tr (x : Stage) (i : Nat) : Tile := x.t.get (fun _ => Tile.zero) i
def Stage.setT (x : Stage) (i : Nat) (t : Tile) : Stage := { x with t := x.t.put (fun _ => Tile.zero) i t }

/-! ### Tiles -/

/-- 64-bit word i; 32-bit element i. -/
def Tile.w (t : Tile) (i : Nat) : DWord := t.words.get (fun _ => 0) i
def Tile.h (t : Tile) (i : Nat) : Word := ((t.w (i / 2)) >>> (32 * (i % 2))).setWidth 32

/-- A table of n words. -/
def wordsOf (n : Nat) (f : Nat → DWord) : Table DWord :=
  ((List.range n).map (fun i => (i, f i))).filter (fun e => e.2 ≠ 0)
/-- A table of n 32-bit elements. -/
def halvesOf (n : Nat) (f : Nat → Word) : Table DWord := wordsOf (n / 2) (fun i => f (2 * i + 1) ++ f (2 * i))
/-- The first n bytes of a tile, and a tile's words from bytes. -/
def Tile.bytes (t : Tile) (n : Nat) : Bytes := (((List.range ((n + 7) / 8)).map (fun i => le 8 (t.w i).toNat)).flatten).take n
def wordsOfBytes (b : Bytes) : Table DWord :=
  wordsOf ((b.length + 7) / 8) (fun i => BitVec.ofNat 64 (fromLE ((b.drop (8 * i)).take 8)))
/-- A tile with a zero header but VCNT (R137). -/
def Tile.fresh (vcnt : Nat) (w : Table DWord) : Tile := { Tile.zero with vcnt := BitVec.ofNat 16 vcnt, words := w }

/-- n words of free values. -/
def State.freeWords (s : State) (n : Nat) : Table DWord := wordsOf n (fun i => Config.freeValue (s.freeCtr + i))

/-! ### Issue and retirement -/

/-- The stage issues: the strand runs, its domain is ON, and the stage waits at nothing (R96, R136); the other stages of a
FAULTED strand keep running (R98). -/
def State.canIssue (s : State) (l : Loc) : Bool :=
  decide (l.g < kindStages l.kind) && decide (s.sst l.d l.s = SS.running ∨ s.sst l.d l.s = SS.draining ∨ s.sst l.d l.s = SS.faulted) &&
  s.pdOn (pdStrand l.d l.s) && decide ((s.stage l.ix).run = .running) && decide ((s.stage l.ix).wait = .none)

/-- The word at a stage's PC. -/
def Stage.fetch (x : Stage) : DWord := x.imem.get (fun _ => 0) x.pc

/-- The stage takes the instruction at its PC (R108, R135): the command is the instruction that stands there; a PC beyond
CODE_WORDS, an unassigned opcode and a failed check fault with FORMAT_ERROR and change nothing. -/
def State.issue (s : State) (l : Loc) (opc : Nat) (f : Fields) (sh : Shape) (k : Stage → State) : State :=
  if ¬ s.canIssue l then s.idle
  else
    let x := s.stage l.ix
    if x.codeWords ≤ x.pc then s.stageFault l (.insn Code.formatError)
    else if ¬ assignedOpc (x.fetch.toNat / 2 ^ 56) then s.stageFault l (.insn Code.formatError)
    else if x.fetch ≠ f.word opc then s.idle
    else if sh.ok l f then k x
    else s.stageFault l (.insn Code.formatError)

/-- PC and loop stack after the instruction at pc retires (R161). -/
def stepLoops (pc : Nat) : List LoopFrame → Nat × List LoopFrame
  | [] => (pc + 1, [])
  | r :: rs =>
    if pc = r.fin then
      (if 0 < r.left then (r.start, { r with left := r.left - 1 } :: rs) else stepLoops pc rs)
    else (pc + 1, r :: rs)

/-- The instruction retires with a code: the stage is x, at the next PC. -/
def State.retireWith (s : State) (l : Loc) (x : Stage) (code : Byte) : State :=
  let n := stepLoops x.pc x.loops
  (s.setStage l.ix { x with pc := n.1, loops := n.2 }).done code
def State.retire (s : State) (l : Loc) (x : Stage) : State := s.retireWith l x Code.ok

/-- The instruction faults. -/
def State.insnFault (s : State) (l : Loc) (c : Byte) : State := s.stageFault l (.insn c)

/-! ### Sources -/

/-- The oldest complete slot for this stage, freed as it is taken; the credit is owed (R75, R118). -/
def Stage.takeSlot (x : Stage) (g : Nat) : Option (Tile × Stage) :=
  (takeTile (fun t => t.dest.toNat = g) x.slots).map (fun r => (r.1, { x with slots := r.2, owed := x.owed + 1 }))

/-- A tile with DATA_ERR faults the stage that takes it (R78). -/
def State.dataErr (s : State) (l : Loc) (x : Stage) : State :=
  (s.setStage l.ix x).stageFault l ⟨Code.eccUncorrectable, Origin.inChan, 0, 0, false⟩

/-- The oldest complete input slot: waited for, or taken (R118). -/
def State.withSlot (s : State) (l : Loc) (x : Stage) (k : Tile → Stage → State) : State :=
  match x.takeSlot l.g with
  | none => s.waits
  | some (t, y) => if t.dataErr then s.dataErr l y else k t y

/-- The first n bytes of word i of v, the others of w. -/
def mixWord (n i : Nat) (v w : DWord) : DWord :=
  if 8 * (i + 1) ≤ n then v
  else if n ≤ 8 * i then w
  else BitVec.ofNat 64 (v.toNat % 2 ^ (8 * (n - 8 * i)) + w.toNat / 2 ^ (8 * (n - 8 * i)) * 2 ^ (8 * (n - 8 * i)))

/-- A tile whose first n bytes are computed and whose remainder is not defined (R126). -/
def State.partTile (s : State) (l : Loc) (n : Nat) (t old : Tile) : Tile :=
  { old with words := wordsOf l.words (fun i => mixWord n i (t.words.get (fun _ => 0) i) (Config.freeValue (s.freeCtr + i))), bad := none }

/-- A tile register with an uncorrectable word at word p: it is reported, and the fault names the register. Of the
destination the first `kept` bytes are as the instruction computes them (`full`: the stage it would leave), the remainder
is not defined (R57, R126). -/
def State.badTile (s : State) (l : Loc) (x : Stage) (reg : Nat) (dst : Option Nat) (kept : Nat) (full : Stage) : State :=
  let s1 := match dst with
    | some d => (s.setStage l.ix (x.setT d (s.partTile l kept (full.tr d) (x.tr d)))).took l.words
    | none => s.setStage l.ix x
  (s1.wordUe l).stageFault l ⟨Code.eccUncorrectable, Origin.insn, reg, 0, false⟩

/-- The register, among those named, whose uncorrectable word comes first: register and word. -/
def Stage.firstBad (x : Stage) : List Nat → Option (Nat × Nat)
  | [] => none
  | r :: rs =>
    match (x.tr r).bad, x.firstBad rs with
    | some p, some (r', p') => if p ≤ p' then some (r, p) else some (r', p')
    | some p, none => some (r, p)
    | none, e => e

/-- The tile operands of an instruction: SA from a register or, under INSLOT, from a slot; `regs` are the other T
registers it reads; `dst` is the T register it writes; `kept` gives the destination bytes that the operand bytes before a
position make (R126). -/
def State.operands (s : State) (l : Loc) (f : Fields) (x : Stage) (regs : List Nat) (dst : Option Nat)
    (k : Tile → Stage → State) (kept : Nat → Nat := fun n => n) : State :=
  if f.hint = 2 then
    match x.firstBad regs with
    | none => s.withSlot l x k
    | some (r, p) =>
      (match x.takeSlot l.g with
       | some (t, y) => s.badTile l x r dst (kept (16 * p)) ((k t y).stage l.ix)
       | none => s.waits)
  else
    match x.firstBad (f.a :: regs) with
    | none => k (x.tr f.a) x
    | some (r, p) => s.badTile l x r dst (kept (16 * p)) ((k (x.tr f.a) x).stage l.ix)

end Sys2Proof.Machine
end

