-- ==== Sys2Proof/Machine/Flags.lean ====
section
/-! DEFINITION. Every flag an instruction sets: scalar compares and predicate operations (R159), F_STAT and F_SAT (R91),
GUARDED mode (R90), I-strand counters (R101), the PREPARING bit (R166). -/

namespace Sys2Proof.Machine

/-- Signed value of a scalar. -/
def sgn (v : DWord) : Int := v.toInt

/-- SCMP's comparison (R159). -/
def compare (cond : Nat) (a b : DWord) : Bool :=
  if cond = 0 then decide (a = b)
  else if cond = 1 then decide (a ≠ b)
  else if cond = 2 then decide (a.toNat < b.toNat)
  else if cond = 3 then decide (b.toNat ≤ a.toNat)
  else if cond = 4 then decide (sgn a < sgn b)
  else decide (sgn b ≤ sgn a)

/-- PSET's operation (R159). -/
def predOp (op : Nat) (a b : Bool) : Bool :=
  if op = 0 then a && b else if op = 1 then a || b else if op = 2 then a != b else a && !b

/-- GUARDED mode is in force on a strand (R90). -/
def State.guarded (s : State) (l : Loc) : Bool :=
  decide (s.fld (Reg.strandCtl l.d l.s) 28 28 = 1) || (s.strand (strandIx l.d l.s)).forced

/-- SAT and NAN of tile register i are set (R91). -/
def Stage.raiseFlags (x : Stage) (i : Nat) (sat nan : Bool) : Stage :=
  { x with fstat := x.fstat ||| BitVec.ofNat 64 (b2n sat * 2 ^ i) ||| BitVec.ofNat 64 (b2n nan * 2 ^ (32 + i)) }

/-- STRAND_STAT.F_SAT: the OR of every SAT bit in the strand (R91). -/
def State.fsatRefresh (s : State) (l : Loc) : State :=
  let any := (List.range (kindStages l.kind)).any (fun g => decide ((s.stage (stageIx l.d l.s g)).fstat.toNat % 2 ^ 32 ≠ 0))
  s.setFld (Reg.strandStat l.d l.s) 24 24 (b2n any)

/-- A 32-bit counter of an I-strand, at offset o (R101). -/
def State.iCount (s : State) (l : Loc) (o : Nat) : State := s.count (Reg.iCnt l.d l.s o)
/-- A 64-bit counter of an I-strand. -/
def State.iCount64 (s : State) (l : Loc) (o : Nat) : State := s.count64 (Reg.iCnt l.d l.s o) 1

/-- The Q register is PREPARING (R166). -/
def Stage.preparing (x : Stage) (q : Nat) : Bool := x.prep.getLsbD q

end Sys2Proof.Machine
end

