-- ==== Sys2Proof/Machine/Modular.lean ====
section
/-! DEFINITION. Arithmetic modulo q: the modulus forms (R163, R164), the roots of unity (R170), the transforms (R172,
R174), basis conversion (R143, R176). Polynomials are functions from an index to a residue. -/

namespace Sys2Proof.Machine

/-- b^e mod m, over the n low bits of e. -/
def powBits (m : Nat) : Nat → Nat → Nat → Nat
  | 0, _, _ => 1 % m
  | n + 1, b, e => (if e % 2 = 1 then b else 1) * powBits m n (b * b % m) (e / 2) % m
/-- b^e mod m for an exponent below 2^64. -/
def powMod (b e m : Nat) : Nat := powBits m 64 (b % m) e
/-- The inverse modulo a prime. -/
def invMod (b p : Nat) : Nat := powMod b (p - 2) p
/-- (a − b) mod q. -/
def subMod (a b q : Nat) : Nat := (a + (q - b % q)) % q
/-- The representative in (−q/2, q/2]. -/
def centre (v q : Nat) : Int := if 2 * (v % q) ≤ q then (v % q : Nat) else (v % q : Nat) - (q : Int)
/-- An integer modulo q. -/
def intMod (v : Int) (q : Nat) : Nat := (v % (q : Int)).toNat

/-! ### Modulus forms -/

/-- A decoded modulus (R163): KIND, a, b, c. -/
structure Form where
  kind : Nat
  a    : Nat
  b    : Nat
  c    : Nat
deriving DecidableEq, Repr

/-- Lowest and highest set bit of a number below 2^60. -/
def lowBit (m : Nat) : Nat := ((List.range 60).find? (fun i => m.testBit i)).getD 0
def highBit (m : Nat) : Nat := ((List.range 60).reverse.find? (fun i => m.testBit i)).getD 0
/-- Set bits of a number below 2^60. -/
def ones (m : Nat) : Nat := ((List.range 60).filter (fun i => m.testBit i)).length

/-- TWOADIC = v2(q − 1). -/
def twoadic (q : Nat) : Nat := lowBit (q - 1)

/-- The form of q, if it has one (R163). -/
def formOf (q : Nat) : Option Form :=
  if q ≤ 2 ^ 16 ∨ 2 ^ 60 ≤ q ∨ q % 2 = 0 then none
  else
    let m := q - 1
    let n := highBit m
    let v := lowBit m
    if ones m = 2 then some ⟨1, n, v, 0⟩
    else if m = 2 ^ (n + 1) - 2 ^ v then some ⟨0, n + 1, v, 0⟩
    else ((List.range n).find? (fun b => decide (v < b ∧ m = 2 ^ (n + 1) - 2 ^ b - 2 ^ v))).map
      (fun b => ⟨2, n + 1, b, v⟩)

/-- The modulus is accepted (R164). -/
def modulusOk (q : Nat) : Bool :=
  match formOf q with
  | some f => decide (f.a + 5 ≤ 4 * (f.a - f.b))
  | none => false

/-! The ROM primes (R168). The table is not given; these are all primes that R163, R164 and R168 leave, descending in each
group of bit lengths, as KIND, a, b and c. -/

/-- The 46 primes of 58 to 60 bits. -/
def romForms0 : List (Nat × Nat × Nat × Nat) :=
  [(0, 60, 18, 0), (2, 60, 25, 24), (2, 60, 28, 19), (2, 60, 28, 27), (2, 60, 33, 19), (2, 60, 33, 31),
   (2, 60, 37, 21), (2, 60, 37, 26), (2, 60, 38, 21), (2, 60, 38, 37), (2, 60, 39, 25), (2, 60, 40, 27),
   (2, 60, 40, 37), (2, 60, 40, 39), (2, 60, 41, 28), (2, 60, 41, 31), (2, 60, 42, 41), (2, 60, 43, 20),
   (2, 60, 43, 29), (2, 59, 22, 20), (0, 59, 28, 0), (2, 59, 30, 28), (0, 59, 35, 0), (2, 59, 38, 34)] ++
  [(2, 59, 39, 27), (2, 59, 39, 37), (2, 59, 41, 31), (2, 59, 42, 30), (2, 59, 43, 19), (2, 58, 24, 23),
   (2, 58, 26, 25), (2, 58, 29, 20), (2, 58, 31, 28), (2, 58, 32, 21), (2, 58, 32, 27), (0, 58, 34, 0),
   (2, 58, 36, 35), (2, 58, 38, 19), (2, 58, 38, 27), (2, 58, 38, 33), (2, 58, 39, 24), (2, 58, 39, 27),
   (2, 58, 41, 26), (2, 58, 41, 30), (2, 58, 42, 29), (1, 57, 40, 0)]
/-- The 81 primes of 48 to 54 bits. -/
def romForms1 : List (Nat × Nat × Nat × Nat) :=
  [(0, 54, 24, 0), (2, 54, 24, 23), (2, 54, 28, 23), (2, 54, 28, 25), (0, 54, 30, 0), (2, 54, 31, 20),
   (2, 54, 31, 26), (2, 54, 33, 20), (2, 54, 33, 22), (2, 54, 33, 29), (2, 54, 34, 19), (2, 54, 34, 31),
   (2, 54, 35, 20), (2, 54, 35, 28), (2, 54, 35, 31), (2, 54, 35, 32), (2, 54, 37, 22), (0, 54, 38, 0),
   (2, 54, 38, 21), (1, 53, 38, 0), (1, 53, 36, 0), (2, 53, 21, 19), (2, 53, 27, 25), (2, 53, 29, 25)] ++
  [(2, 53, 31, 29), (0, 53, 34, 0), (2, 53, 37, 23), (1, 52, 21, 0), (0, 52, 20, 0), (2, 52, 25, 20),
   (2, 52, 29, 21), (2, 52, 31, 20), (2, 52, 32, 19), (2, 52, 35, 28), (2, 52, 35, 33), (2, 52, 36, 21),
   (2, 52, 36, 23), (2, 52, 36, 33), (2, 52, 37, 31), (2, 52, 37, 34), (1, 51, 34, 0), (1, 51, 29, 0),
   (1, 51, 25, 0), (2, 51, 27, 19), (2, 51, 28, 22), (2, 51, 29, 19), (2, 51, 30, 20), (2, 51, 35, 33)] ++
  [(2, 51, 36, 22), (1, 50, 29, 0), (1, 50, 23, 0), (2, 50, 22, 19), (2, 50, 26, 23), (2, 50, 28, 23),
   (2, 50, 29, 26), (2, 50, 30, 21), (2, 50, 31, 27), (2, 50, 33, 21), (2, 50, 33, 22), (1, 49, 30, 0),
   (2, 49, 22, 20), (2, 49, 23, 19), (2, 49, 26, 24), (2, 49, 27, 21), (2, 49, 29, 27), (0, 49, 30, 0),
   (2, 49, 32, 24), (2, 49, 32, 26), (0, 49, 33, 0), (2, 49, 33, 21), (2, 49, 33, 23), (0, 49, 34, 0)] ++
  [(0, 48, 20, 0), (2, 48, 25, 21), (2, 48, 29, 27), (2, 48, 31, 20), (2, 48, 31, 24), (2, 48, 31, 25),
   (2, 48, 32, 23), (2, 48, 32, 27), (1, 47, 30, 0)]
/-- The 31 primes of 36 to 42 bits. -/
def romForms2 : List (Nat × Nat × Nat × Nat) :=
  [(2, 42, 20, 19), (2, 42, 24, 23), (2, 42, 25, 21), (2, 42, 26, 21), (2, 41, 21, 19), (2, 41, 24, 18),
   (2, 41, 28, 24), (0, 41, 29, 0), (2, 41, 29, 25), (2, 40, 20, 19), (2, 40, 23, 19), (2, 40, 25, 23),
   (1, 39, 25, 0), (0, 39, 21, 0), (2, 39, 21, 19), (0, 39, 23, 0), (2, 39, 24, 22), (2, 39, 26, 20),
   (1, 38, 23, 0), (2, 38, 20, 19), (2, 38, 22, 19), (0, 38, 26, 0), (2, 38, 26, 23), (0, 37, 18, 0)] ++
  [(2, 37, 24, 20), (0, 37, 25, 0), (2, 37, 25, 19), (0, 36, 20, 0), (2, 36, 23, 20), (2, 36, 25, 19),
   (2, 36, 25, 20)]
/-- The 15 primes of 30 to 35 bits. -/
def romForms3 : List (Nat × Nat × Nat × Nat) :=
  [(0, 35, 19, 0), (2, 35, 21, 19), (1, 34, 19, 0), (0, 34, 22, 0), (2, 34, 23, 18), (1, 33, 20, 0),
   (1, 33, 19, 0), (0, 33, 20, 0), (2, 33, 23, 19), (0, 32, 20, 0), (1, 31, 22, 0), (0, 31, 19, 0),
   (1, 30, 19, 0), (0, 30, 18, 0), (1, 29, 18, 0)]

/-- The value of a form (R163). -/
def formValue (f : Nat × Nat × Nat × Nat) : Nat :=
  if f.1 = 1 then 2 ^ f.2.1 + 2 ^ f.2.2.1 + 1
  else if f.1 = 0 then 2 ^ f.2.1 - 2 ^ f.2.2.1 + 1
  else 2 ^ f.2.1 - 2 ^ f.2.2.1 - 2 ^ f.2.2.2 + 1

/-- n primes of a list, in its order; an open value decides of each whether the ROM holds it, where the count leaves a
choice. -/
def romPick : Nat → List Nat → List Nat
  | _, [] => []
  | n, q :: qs =>
    if 0 < n ∧ (Config.romPrime q ∨ qs.length < n) then q :: romPick (n - 1) qs else romPick n qs

/-- The 64 primes of the ROM, by index: pairwise distinct, descending within each group (R168). -/
def romTable : List Nat :=
  romPick 12 (romForms0.map formValue) ++ romPick 16 (romForms1.map formValue) ++ romPick 24 (romForms2.map formValue) ++
  romPick 12 (romForms3.map formValue)

/-- The prime at a ROM index. -/
def romQ (i : Nat) : Nat := romTable.getD (i % 64) 0
/-- q is one of the 64 ROM primes. -/
def isRom (q : Nat) : Bool := (List.range 64).any (fun i => romQ i = q)
/-- A prime number. -/
def isPrime (q : Nat) : Bool := decide (2 ≤ q) && (List.range q).all (fun d => decide (d < 2) || decide (q % d ≠ 0))

/-! ### Roots of unity -/

/-- The odd primes below 256 (R170). -/
def smallPrimes : List Nat :=
  [3, 5, 7, 11, 13, 17, 19, 23, 29, 31, 37, 41, 43, 47, 53, 59, 61, 67, 71, 73, 79, 83, 89, 97, 101, 103, 107] ++
  [109, 113, 127, 131, 137, 139, 149, 151, 157, 163, 167, 173, 179, 181, 191, 193, 197, 199, 211, 223, 227, 229] ++
  [233, 239, 241, 251]

/-- L = min(TWOADIC, 18). -/
def rootLog (q : Nat) : Nat := min (twoadic q) 18
/-- ψ_q, the canonical primitive 2^L-th root of unity; none: NOROOT (R170). -/
def psiOf (q : Nat) : Option Nat :=
  (smallPrimes.map (fun g => powMod g ((q - 1) / 2 ^ rootLog q) q)).find?
    (fun x => powMod x (2 ^ (rootLog q - 1)) q = q - 1)
/-- ψ_N for a ring degree 2^logn. -/
def psiN (q logn : Nat) : Nat := powMod ((psiOf q).getD 0) (2 ^ (rootLog q - logn - 1)) q

/-! ### Transforms -/

/-- The n-bit reversal of j. -/
def brv : Nat → Nat → Nat
  | 0, _ => 0
  | n + 1, j => (j % 2) * 2 ^ n + brv n (j / 2)

/-- Sum of f over 0 … n − 1. -/
def sumTo (n : Nat) (f : Nat → Nat) : Nat := ((List.range n).map f).sum

/-- NTT under a primitive 2N-th root psi: natural order in, bit-reversed out (R172). -/
def nttWith (q logn psi : Nat) (x : Nat → Nat) (j : Nat) : Nat :=
  sumTo (2 ^ logn) (fun i => x i * powMod psi ((2 * brv logn j + 1) * i) q) % q
/-- INTT: bit-reversed in, natural order out, with the factor N^−1 (R172). -/
def inttWith (q logn psi : Nat) (x : Nat → Nat) (i : Nat) : Nat :=
  (q - (q - 1) / 2 ^ logn) *
    sumTo (2 ^ logn) (fun j => x j * powMod psi (2 ^ (logn + 1) - (2 * brv logn j + 1) * i % 2 ^ (logn + 1)) q) % q

def nttOf (q logn : Nat) (x : Nat → Nat) : Nat → Nat := nttWith q logn (psiN q logn) x
def inttOf (q logn : Nat) (x : Nat → Nat) : Nat → Nat := inttWith q logn (psiN q logn) x

/-- Source slot of output slot j under X → X^g in NTT form (R174). -/
def permSlot (logn g j : Nat) : Nat :=
  brv logn (((2 * brv logn j + 1) * g % 2 ^ (logn + 1) - 1) / 2)

/-- Source coefficient of output coefficient j under X → X^g, and whether it is negated (R142): i with i·g ≡ j or
j + N modulo 2N. -/
def permCoef (logn g j : Nat) : Nat × Bool :=
  let p := j * powMod g (2 ^ (logn - 1) - 1) (2 ^ (logn + 1)) % 2 ^ (logn + 1)
  if p < 2 ^ logn then (p, false) else (p - 2 ^ logn, true)

/-! ### Basis conversion -/

/-- Product of a list of primes. -/
def prod : List Nat → Nat
  | [] => 1
  | p :: ps => p * prod ps

/-- t_i := x_i × ŝ_i mod q_i, with ŝ_i = (Q_B / q_i)^−1 mod q_i (R176, phase 0). -/
def convIn (qs : List Nat) (i x : Nat) : Nat :=
  x * invMod (prod qs / qs.getD i 1 % qs.getD i 1) (qs.getD i 1) % qs.getD i 1
/-- The fast conversion of the residues x from basis qs into p (R176, phase 1). -/
def convert (qs : List Nat) (p : Nat) (x : Nat → Nat) : Nat :=
  sumTo qs.length (fun i => (convIn qs i (x i) % p) * (prod qs / qs.getD i 1 % p)) % p

end Sys2Proof.Machine
end

