-- ==== Sys2Proof/Machine/Vector.lean ====
section
/-! DEFINITION. Meanings of the modular vector class (R141), of NTT, INTT and PERM (R142, R172–R174) and of BCONV (R143,
R176). -/

namespace Sys2Proof.Machine

/-- Every stage. -/
def St.all : List Nat := St.is ++ St.cs ++ St.fs
/-- The stages with Z_q vector arithmetic. -/
def St.zq : List Nat := St.add :: St.cs

/-- n words of Z_q results: v i mod q where the operands are in range, a free residue where they are not (R141). -/
def State.residues (s : State) (n q : Nat) (ok : Nat → Bool) (v : Nat → Nat) : Table DWord :=
  wordsOf n (fun i => BitVec.ofNat 64 ((if ok i then v i else (Config.freeValue (s.freeCtr + i)).toNat) % q))

/-- The broadcast or tile operand b of VMUL.Q and VMAC.Q. -/
def Stage.operandB (x : Stage) (f : Fields) (q i : Nat) : Nat :=
  if f.imf 0 0 = 1 then (x.sr f.b).toNat % q else ((x.tr f.b).w i).toNat

/-- A Z_q vector instruction: `regs` are its T sources beside SA; op gives element i from q, the source tile and the
registers, and the operands that must lie below q. -/
def State.vecQ (s : State) (l : Loc) (f : Fields) (opc : Nat) (sh : Shape) (regs : List Nat)
    (op : Nat → Tile → Stage → Nat → Nat × List Nat) : State :=
  s.issue l opc f sh (fun x =>
    let q := (x.qr f.qsel).toNat
    if q = 0 then s.insnFault l Code.formatError
    else s.operands l f x regs (some f.d) (fun t y =>
      let w := s.residues l.words q (fun i => (op q t y i).2.all (fun v => decide (v < q))) (fun i => (op q t y i).1)
      (s.took l.words).retire l (y.setT f.d { t with words := w })))

/-- VADD.Q. -/
def execVaddQ (l : Loc) (f : Fields) (s : State) : Result :=
  .next (s.vecQ l f 0x00 { stages := St.zq, dst := .t, sa := .t, sb := .t, qsel := true, hints := [0, 2] } [f.b]
    (fun _ t y i => ((t.w i).toNat + ((y.tr f.b).w i).toNat, [(t.w i).toNat, ((y.tr f.b).w i).toNat])))

/-- VSUB.Q. -/
def execVsubQ (l : Loc) (f : Fields) (s : State) : Result :=
  .next (s.vecQ l f 0x01 { stages := St.zq, dst := .t, sa := .t, sb := .t, qsel := true, hints := [0, 2] } [f.b]
    (fun q t y i => (subMod (t.w i).toNat ((y.tr f.b).w i).toNat q, [(t.w i).toNat, ((y.tr f.b).w i).toNat])))

end Sys2Proof.Machine

namespace Sys2Proof

open Machine

/-- The file of SB under BC (IMM[0]), and the T registers SB names. -/
def Fields.bFile (f : Fields) : Opn := if f.imf 0 0 = 1 then .s else .t
def Fields.bRegs (f : Fields) : List Nat := if f.imf 0 0 = 1 then [] else [f.b]

end Sys2Proof

namespace Sys2Proof.Machine

/-- VMUL.Q. -/
def execVmulQ (l : Loc) (f : Fields) (s : State) : Result :=
  .next (s.vecQ l f 0x02
    { stages := St.zq, dst := .t, sa := .t, sb := f.bFile, qsel := true, hints := [0, 2], imm := 1 } f.bRegs
    (fun q t y i => ((t.w i).toNat * y.operandB f q i, [(t.w i).toNat, y.operandB f q i])))

/-- VMAC.Q. -/
def execVmacQ (l : Loc) (f : Fields) (s : State) : Result :=
  .next (s.vecQ l f 0x03
    { stages := St.zq, dst := .t, sa := .t, sb := f.bFile, sc := .t, qsel := true, hints := [0, 2], imm := 1 }
    (f.c :: f.bRegs)
    (fun q t y i => (((y.tr f.c).w i).toNat + (t.w i).toNat * y.operandB f q i,
      [(t.w i).toNat, y.operandB f q i, ((y.tr f.c).w i).toNat])))

/-- VNEG.Q. -/
def execVnegQ (l : Loc) (f : Fields) (s : State) : Result :=
  .next (s.vecQ l f 0x04 { stages := St.zq, dst := .t, sa := .t, qsel := true, hints := [0, 2] } []
    (fun q t _ i => (subMod 0 (t.w i).toNat q, [(t.w i).toNat])))

/-- A Z_2^32 or Z_2^64 vector instruction of ADD: `op` gives the words. -/
def State.vecZ (s : State) (l : Loc) (f : Fields) (opc : Nat) (op : Tile → Tile → Table DWord) : State :=
  s.issue l opc f { stages := [St.add], dst := .t, sa := .t, sb := .t, hints := [0, 2] } (fun x =>
    s.operands l f x [f.b] (some f.d) (fun t y =>
      s.retire l (y.setT f.d { t with words := op t (y.tr f.b) })))

/-- VADD.Z32. -/
def execVaddZ32 (l : Loc) (f : Fields) (s : State) : Result :=
  .next (s.vecZ l f 0x08 (fun a b => halvesOf 1024 (fun i => a.h i + b.h i)))

/-- VSUB.Z32. -/
def execVsubZ32 (l : Loc) (f : Fields) (s : State) : Result :=
  .next (s.vecZ l f 0x09 (fun a b => halvesOf 1024 (fun i => a.h i - b.h i)))

/-- VADD.Z64. -/
def execVaddZ64 (l : Loc) (f : Fields) (s : State) : Result :=
  .next (s.vecZ l f 0x0A (fun a b => wordsOf 512 (fun i => a.w i + b.w i)))

/-- VSUB.Z64. -/
def execVsubZ64 (l : Loc) (f : Fields) (s : State) : Result :=
  .next (s.vecZ l f 0x0B (fun a b => wordsOf 512 (fun i => a.w i - b.w i)))

/-- VSPLAT: a tile of one 32- or 64-bit element; an F-stage takes 32-bit elements only. -/
def execVsplat (l : Loc) (f : Fields) (s : State) : Result :=
  .next (s.issue l 0x10 f
    { stages := St.all, dst := .t, sa := .s, imm := 1, extra := decide (f.i = 1) || decide (l.kind ≠ 2) } (fun x =>
    let v := x.sr f.a
    s.retire l (x.setT f.d (Tile.fresh l.tbytes
      (if f.i = 1 then halvesOf (2 * l.words) (fun _ => v.setWidth 32) else wordsOf l.words (fun _ => v))))))

/-! ### Transforms -/

/-- Tiles of a limb of degree 2^logn, and whether a group of them starts at register d (R142). -/
def groupSize (logn : Nat) : Nat := 2 ^ logn / 4096
def groupOk (logn d : Nat) : Bool := decide (d % groupSize logn = 0) && decide (d + groupSize logn ≤ 32)
/-- IMM[4:0] is a ring degree. -/
def lognOk (n : Nat) : Bool := decide (12 ≤ n) && decide (n ≤ 17)

/-- Element i of the limb in the group at register d. -/
def Stage.limb (x : Stage) (d i : Nat) : Nat := ((x.tr (d + i / 4096)).w (i % 4096)).toNat
/-- The group at register d with new elements; `hdr` gives each tile's header. -/
def Stage.setLimb (x : Stage) (d g : Nat) (hdr : Nat → Tile) (v : Nat → Nat) : Stage :=
  (List.range g).foldl (fun y k => y.setT (d + k)
    { hdr k with words := wordsOf 4096 (fun i => BitVec.ofNat 64 (v (k * 4096 + i))), bad := none }) x

/-- An uncorrectable word in a group is reported, and the fault names its register. No element of the result is done before
the whole group has been read: the destination group is not defined (R57, R126). -/
def State.badGroup (s : State) (l : Loc) (x : Stage) (reg d g : Nat) : State :=
  (((s.setStage l.ix (x.setLimb d g (fun k => x.tr (d + k))
    (fun i => (Config.freeValue (s.freeCtr + i)).toNat))).took (g * 4096)).wordUe l).stageFault l
    ⟨Code.eccUncorrectable, Origin.insn, reg, 0, false⟩

/-- Registers of a group. -/
def groupRegs (d g : Nat) : List Nat := (List.range g).map (fun k => d + k)

/-- NTT and INTT: the wait for PREPARING at issue (R166), the checks of R173, then the transform in place; elements outside
[0, q) and a composite q leave the result open (R165, R172). -/
def State.transform (s : State) (l : Loc) (f : Fields) (opc : Nat) (st : Nat)
    (op : Nat → Nat → (Nat → Nat) → Nat → Nat) : State :=
  let n := f.imf 4 0
  let g := groupSize n
  s.issue l opc f
    { stages := [st], dst := .t, qsel := true, imm := 0x1F, extra := lognOk n && groupOk n f.d } (fun x =>
    let q := (x.qr f.qsel).toNat
    if x.preparing f.qsel then s.waits
    else if q = 0 ∨ twoadic q < n + 1 then s.insnFault l Code.formatError
    else if psiOf q = none then s.insnFault l Code.formatError
    else match (groupRegs f.d g).find? (fun r => (x.tr r).bad.isSome) with
    | some r => s.badGroup l x r f.d g
    | none =>
      let good := isPrime q && (List.range (2 ^ n)).all (fun i => decide (x.limb f.d i < q))
      let v := fun j => if good then op q n (x.limb f.d) j else (Config.freeValue (s.freeCtr + j)).toNat % q
      (s.took (2 ^ n)).retire l (x.setLimb f.d g (fun k => x.tr (f.d + k)) v))

/-- NTT. -/
def execNtt (l : Loc) (f : Fields) (s : State) : Result := .next (s.transform l f 0x20 St.ntt nttOf)

/-- INTT. -/
def execIntt (l : Loc) (f : Fields) (s : State) : Result := .next (s.transform l f 0x21 St.intt inttOf)

/-- Output element j of PERM and whether the spec gives it: a negated coefficient not below q is open (R141). -/
def permElem (coef : Bool) (n g q : Nat) (x : Nat → Nat) (j : Nat) : Option Nat :=
  if coef then
    let p := permCoef n g j
    if p.2 then (if x p.1 < q then some (subMod 0 (x p.1) q) else none) else some (x p.1)
  else some (x (permSlot n g j))

/-- PERM: the automorphism X → X^g of one limb into a second group (R142, R174). -/
def execPerm (l : Loc) (f : Fields) (s : State) : Result :=
  let n := f.imf 4 0
  let c := decide (f.imf 5 5 = 1)
  let gs := groupSize n
  .next (s.issue l 0x22 f
    { stages := [St.perm], dst := .t, sa := .t, qsel := c, gsel := true, imm := 0x3F
      extra := lognOk n && groupOk n f.d && groupOk n f.a && decide (f.d ≠ f.a) } (fun x =>
    let g := (x.gr f.gsel).toNat
    let q := (x.qr f.qsel).toNat
    if 2 ^ (n + 1) ≤ g ∨ (c = true ∧ q = 0) then s.insnFault l Code.formatError
    else match (groupRegs f.a gs).find? (fun r => (x.tr r).bad.isSome) with
    | some r => s.badGroup l x r f.d gs
    | none =>
      let v := fun j => (permElem c n g q (x.limb f.a) j).getD ((Config.freeValue (s.freeCtr + j)).toNat % q)
      (s.took (2 ^ n)).retire l (x.setLimb f.d gs (fun k => x.tr (f.a + k)) v)))

/-- BCONV: one step of fast basis conversion on one tile (R143, R176). -/
def execBconv (l : Loc) (f : Fields) (s : State) : Result :=
  let ph := f.imf 0 0
  .next (s.vecQ l f 0x23
    { stages := [St.base], dst := .t, sa := .t, sc := .s, qsel := true, hints := [0, 2], imm := 1 }
    (if ph = 1 then [f.d] else [])
    (fun q t y i =>
      let a := (t.w i).toNat
      let k := (y.sr f.c).toNat
      if ph = 0 then (a * k, [a, k])
      else (((y.tr f.d).w i).toNat + a % q * k, [if a < 2 ^ 60 then 0 else q, k, ((y.tr f.d).w i).toNat])))

end Sys2Proof.Machine
end

