-- ==== Sys2Proof/Machine/Scalar.lean ====
section
/-! DEFINITION. Meanings of the scalar class (R159): scalars, predicates, system registers (R111), modulus selectors,
Galois exponents and descriptors (R109, R110, R113). -/

namespace Sys2Proof.Machine

/-- A scalar instruction that writes S[DST]. -/
def State.scalar (s : State) (l : Loc) (f : Fields) (opc : Nat) (sh : Shape) (v : Stage → DWord) : State :=
  s.issue l opc f { sh with stages := St.all, dst := .s } (fun x => s.retire l (x.setS f.d (v x)))

/-- Operands of a two-source scalar instruction. -/
def sss : Shape := { stages := St.all, dst := .s, sa := .s, sb := .s }

/-- SLI. -/
def execSli (l : Loc) (f : Fields) (s : State) : Result :=
  .next (s.scalar l f 0xC0 { stages := St.all, imm := 0xFFFFFF } (fun _ => f.imm.signExtend 64))

/-- SLU. -/
def execSlu (l : Loc) (f : Fields) (s : State) : Result :=
  .next (s.scalar l f 0xC1 { stages := St.all, imm := 0xFFFFFF }
    (fun x => (x.sr f.d <<< 24) ||| f.imm.setWidth 64))

/-- SADD. -/
def execSadd (l : Loc) (f : Fields) (s : State) : Result :=
  .next (s.scalar l f 0xC2 sss (fun x => x.sr f.a + x.sr f.b))

/-- SSUB. -/
def execSsub (l : Loc) (f : Fields) (s : State) : Result :=
  .next (s.scalar l f 0xC3 sss (fun x => x.sr f.a - x.sr f.b))

/-- SMUL. -/
def execSmul (l : Loc) (f : Fields) (s : State) : Result :=
  .next (s.scalar l f 0xC4 sss (fun x => x.sr f.a * x.sr f.b))

/-- SAND. -/
def execSand (l : Loc) (f : Fields) (s : State) : Result :=
  .next (s.scalar l f 0xC5 sss (fun x => x.sr f.a &&& x.sr f.b))

/-- SOR. -/
def execSor (l : Loc) (f : Fields) (s : State) : Result :=
  .next (s.scalar l f 0xC6 sss (fun x => x.sr f.a ||| x.sr f.b))

/-- SXOR. -/
def execSxor (l : Loc) (f : Fields) (s : State) : Result :=
  .next (s.scalar l f 0xC7 sss (fun x => x.sr f.a ^^^ x.sr f.b))

/-- SSHL. -/
def execSshl (l : Loc) (f : Fields) (s : State) : Result :=
  .next (s.scalar l f 0xC8 { stages := St.all, sa := .s, imm := 0x3F } (fun x => x.sr f.a <<< f.imf 5 0))

/-- SSHR: logical, or arithmetic under IMM[6]. -/
def execSshr (l : Loc) (f : Fields) (s : State) : Result :=
  .next (s.scalar l f 0xC9 { stages := St.all, sa := .s, imm := 0x7F }
    (fun x => if f.imf 6 6 = 1 then (x.sr f.a).sshiftRight (f.imf 5 0) else x.sr f.a >>> f.imf 5 0))

/-- SCMP. -/
def execScmp (l : Loc) (f : Fields) (s : State) : Result :=
  .next (s.issue l 0xCA f
    { stages := St.all, dst := .p, sa := .s, sb := .s, imm := 7, extra := decide (f.i ≤ 5) } (fun x =>
    s.retire l (x.setP f.d (compare f.i (x.sr f.a) (x.sr f.b)))))

/-- PSET. -/
def execPset (l : Loc) (f : Fields) (s : State) : Result :=
  .next (s.issue l 0xCB f { stages := St.all, dst := .p, sa := .p, sb := .p, imm := 3 } (fun x =>
    s.retire l (x.setP f.d (predOp f.i (x.pr f.a) (x.pr f.b)))))

/-- The context's current round: EST_ROUND[c] (R301; notes/assumptions/8.md). -/
def State.curRound (s : State) (c : Nat) : Word := s.reg (Reg.estRound 0 c)

/-- A system register (R111). -/
def State.sysReg (s : State) (l : Loc) (x : Stage) (i : Nat) : DWord :=
  if i = 0 then BitVec.ofNat 64 (s.sctx l.d l.s * 2 ^ 12 + l.d * 2 ^ 10 + l.s * 2 ^ 6 + l.g * 2 ^ 3)
  else if i = 1 then BitVec.ofNat 64 (s.stamp (0x10 + l.d))
  else if i = 2 then (s.curRound (s.sctx l.d l.s)).setWidth 64
  else if i = 3 then (if x.handler then BitVec.ofNat 64 x.epc else 0)
  else if i = 4 then (if x.handler then x.ecode.setWidth 64 else 0)
  else if i = 5 then (if l.kind = 2 then x.fstat else 0)
  else if i = 6 then BitVec.ofNat 64 (s.fld Reg.govStat 31 30)
  else if i < 8 then 0
  else (s.strand (strandIx l.d l.s)).params.get (fun _ => 0) (i - 8)

/-- SRD. -/
def execSrd (l : Loc) (f : Fields) (s : State) : Result :=
  .next (s.scalar l f 0xCC { stages := St.all, imm := 0xF } (fun x => s.sysReg l x f.i))

/-- SWR: SR_FSTAT, write 1 to clear, on F-stages; F_SAT follows (R91, R111). -/
def execSwr (l : Loc) (f : Fields) (s : State) : Result :=
  .next (s.issue l 0xCD f { stages := St.all, sa := .s, imm := 0xF, extra := decide (f.i = 5) } (fun x =>
    if l.kind = 2 then (s.retire l { x with fstat := x.fstat &&& ~~~(x.sr f.a) }).fsatRefresh l
    else s.retire l x))

/-- A Q register takes a modulus; on NTT and INTT it is PREPARING where twiddles are prepared (R166, R171). -/
def Stage.loadQ (x : Stage) (st i q : Nat) : Stage :=
  let m := BitVec.ofNat 8 (2 ^ i)
  let busy := decide (st = St.ntt ∨ st = St.intt) && (isRom q || decide (13 ≤ twoadic q))
  { x.setQ i (BitVec.ofNat 64 q) with prep := if busy then x.prep ||| m else x.prep &&& ~~~m }

/-- QSET (R110, R164, R171). -/
def execQset (l : Loc) (f : Fields) (s : State) : Result :=
  .next (s.issue l 0xCE f { stages := St.is ++ St.cs, dst := .q, sa := .s, imm := 1 } (fun x =>
    let v := (x.sr f.a).toNat
    if f.i = 1 then
      (if v < 64 then s.retire l (x.loadQ l.name f.d (romQ v)) else s.insnFault l Code.formatError)
    else if modulusOk v then s.retire l (x.loadQ l.name f.d v)
    else s.insnFault l Code.formatError))

/-- A Galois exponent is odd and below 2^18 (R110). -/
def galoisOk (v : Nat) : Bool := decide (v % 2 = 1) && decide (v < 2 ^ 18)

/-- GSET. -/
def execGset (l : Loc) (f : Fields) (s : State) : Result :=
  .next (s.issue l 0xCF f { stages := St.cs, dst := .g, sa := .s } (fun x =>
    let v := (x.sr f.a).toNat
    if galoisOk v then s.retire l (x.setG f.d (BitVec.ofNat 18 v)) else s.insnFault l Code.formatError))

/-- KIND is assigned and BASE is 64-byte aligned (R113, R159). -/
def descOk (v : QWord) : Bool := decide (v.toNat / 2 ^ 120 ≤ 4) && decide (v.toNat % 64 = 0)

/-- DSET. -/
def execDset (l : Loc) (f : Fields) (s : State) : Result :=
  .next (s.issue l 0xD0 f { stages := St.all, dst := .d, sa := .s, sb := .s } (fun x =>
    let v : QWord := x.sr f.b ++ x.sr f.a
    if descOk v then s.retire l (x.setD f.d v) else s.insnFault l Code.formatError))

end Sys2Proof.Machine
end

