-- ==== Sys2Proof/Machine/Float.lean ====
section
/-! DEFINITION. The float formats (R263), exact values, rounding (R265), fused multiply-add (R88, R89) and the meanings of
FMA.F32 and CVT (R158). -/

namespace Sys2Proof.Machine

/-- A binary format: exponent and fraction bits, bias; `e4m3`: no infinity, one NaN pattern in each sign. -/
structure Fmt where
  eb   : Nat
  fb   : Nat
  bias : Nat
  e4m3 : Bool
deriving DecidableEq, Repr

/-- FMT of R112 and R263: FP32, BF16, FP16, FP8 E4M3, FP8 E5M2. -/
def fmtOf (n : Nat) : Fmt :=
  if n = 1 then ⟨8, 7, 127, false⟩ else if n = 2 then ⟨5, 10, 15, false⟩ else if n = 3 then ⟨4, 3, 7, true⟩
  else if n = 4 then ⟨5, 2, 15, false⟩ else ⟨8, 23, 127, false⟩
/-- Bytes of an element of FMT. -/
def fmtSize (n : Nat) : Nat := if n = 0 then 4 else if n = 1 ∨ n = 2 then 2 else 1

/-- A decoded value; `fin neg m e` is (−1)^neg × m × 2^e. -/
inductive Fp where
  | nan
  | inf (neg : Bool)
  | fin (neg : Bool) (m : Nat) (e : Int)
deriving DecidableEq, Repr

/-- The value of a pattern of a format. -/
def Fmt.decode (F : Fmt) (v : Nat) : Fp :=
  let s := decide (v / 2 ^ (F.eb + F.fb) % 2 = 1)
  let x := v / 2 ^ F.fb % 2 ^ F.eb
  let m := v % 2 ^ F.fb
  if x = 2 ^ F.eb - 1 ∧ (if F.e4m3 then m = 2 ^ F.fb - 1 else m ≠ 0) then .nan
  else if x = 2 ^ F.eb - 1 ∧ F.e4m3 = false then .inf s
  else if x = 0 then .fin s m (1 - (F.bias : Int) - F.fb)
  else .fin s (2 ^ F.fb + m) ((x : Int) - F.bias - F.fb)

/-- The sign bit of a format. -/
def Fmt.sign (F : Fmt) (neg : Bool) : Nat := if neg then 2 ^ (F.eb + F.fb) else 0
/-- Magnitude patterns: infinity (the NaN for E4M3), largest finite, canonical NaN. -/
def Fmt.infMag (F : Fmt) : Nat := if F.e4m3 then 2 ^ (F.eb + F.fb) - 1 else (2 ^ F.eb - 1) * 2 ^ F.fb
def Fmt.maxMag (F : Fmt) : Nat := if F.e4m3 then 2 ^ (F.eb + F.fb) - 2 else (2 ^ F.eb - 1) * 2 ^ F.fb - 1
def Fmt.nan (F : Fmt) : Nat := if F.e4m3 then 2 ^ (F.eb + F.fb) - 1 else (2 ^ F.eb - 1) * 2 ^ F.fb + 2 ^ (F.fb - 1)

/-- Number of bits of m, for m below 2^n. -/
def bitLen : Nat → Nat → Nat
  | 0, _ => 0
  | n + 1, m => if m = 0 then 0 else 1 + bitLen n (m / 2)

/-- m / 2^k under a rounding mode (R112): nearest-even, toward zero, toward +∞, toward −∞. -/
def roundShift (rnd : Nat) (neg : Bool) (m k : Nat) : Nat :=
  let q := m / 2 ^ k
  let r := m % 2 ^ k
  let up :=
    if rnd = 0 then decide (2 ^ k < 2 * r) || (decide (2 * r = 2 ^ k) && decide (q % 2 = 1))
    else if rnd = 1 then false
    else if rnd = 2 then decide (0 < r) && !neg
    else decide (0 < r) && neg
  if up then q + 1 else q

/-- What a rounding gives: the pattern and whether SAT is set. -/
structure Rounded where
  pat : Nat
  sat : Bool
deriving DecidableEq, Repr

/-- The result of an overflow (R265): infinity, or the largest finite value where the mode rounds inward, or in GUARDED
mode the largest finite value with SAT. -/
def Fmt.overflow (F : Fmt) (rnd : Nat) (neg guarded : Bool) : Rounded :=
  if rnd = 1 ∨ (rnd = 2 ∧ neg) ∨ (rnd = 3 ∧ ¬ neg) then ⟨F.sign neg + F.maxMag, false⟩
  else if guarded then ⟨F.sign neg + F.maxMag, true⟩
  else ⟨F.sign neg + F.infMag, false⟩

/-- (−1)^neg × m × 2^e rounded to a format; m is below 2^2048. -/
def Fmt.round (F : Fmt) (rnd : Nat) (neg guarded : Bool) (m : Nat) (e : Int) : Rounded :=
  if m = 0 then ⟨F.sign neg, false⟩
  else
    let top : Int := e + (bitLen 2048 m : Int) - 1
    let emin : Int := 1 - (F.bias : Int)
    let q : Int := (if top < emin then emin else top) - F.fb
    let k : Int := q - e
    let r := if k ≤ 0 then m * 2 ^ k.natAbs else roundShift rnd neg m k.toNat
    let r1 := if r = 2 ^ (F.fb + 1) then 2 ^ F.fb else r
    let q1 : Int := if r = 2 ^ (F.fb + 1) then q + 1 else q
    let mag := if r1 < 2 ^ F.fb then r1 else (q1 + F.fb + F.bias).toNat * 2 ^ F.fb + (r1 - 2 ^ F.fb)
    if F.maxMag < mag then F.overflow rnd neg guarded else ⟨F.sign neg + mag, false⟩

/-- FP32. -/
def f32 : Fmt := fmtOf 0

/-- An operand under GUARDED mode: an infinity is the largest finite value, and SAT is set (R89). -/
def Fp.guard (guarded : Bool) : Fp → Fp × Bool
  | .inf s => if guarded then (f32.decode (f32.sign s + f32.maxMag), true) else (.inf s, false)
  | x => (x, false)

/-- Signed integer mantissa. -/
def signed (neg : Bool) (m : Nat) : Int := if neg then -(m : Int) else (m : Int)

/-- The sum of two finite values, rounded (R88); an exact zero takes the sign IEEE 754 gives it. -/
def addRound (rnd : Nat) (guarded : Bool) (s1 : Bool) (m1 : Nat) (e1 : Int) (s2 : Bool) (m2 : Nat) (e2 : Int) : Rounded :=
  let e := if e1 ≤ e2 then e1 else e2
  let v := signed s1 m1 * 2 ^ (e1 - e).toNat + signed s2 m2 * 2 ^ (e2 - e).toNat
  if v = 0 then ⟨f32.sign (if s1 = s2 then s1 else decide (rnd = 3)), false⟩
  else f32.round rnd (decide (v < 0)) guarded v.natAbs e

/-- What FMA gives for one element: the pattern, SAT and NAN. -/
structure FmaOut where
  pat : Nat
  sat : Bool
  nan : Bool
deriving DecidableEq, Repr

/-- a × b + c with a single rounding (R88, R89, R158). -/
def fma (rnd : Nat) (guarded : Bool) (a b c : Nat) : FmaOut :=
  let x := (f32.decode a).guard guarded
  let y := (f32.decode b).guard guarded
  let z := (f32.decode c).guard guarded
  let sat := x.2 || y.2 || z.2
  let bad : FmaOut := ⟨f32.nan, sat, guarded⟩
  let fin := fun (r : Rounded) => (⟨r.pat, sat || r.sat, false⟩ : FmaOut)
  let inf := fun (s : Bool) => (⟨f32.sign s + f32.infMag, sat, false⟩ : FmaOut)
  match x.1, y.1, z.1 with
  | .nan, _, _ => bad
  | _, .nan, _ => bad
  | _, _, .nan => bad
  | .inf s1, .inf s2, .inf s3 => if (s1 != s2) = s3 then inf s3 else bad
  | .inf s1, .inf s2, .fin _ _ _ => inf (s1 != s2)
  | .inf s1, .fin s2 m _, .inf s3 => if m = 0 ∨ (s1 != s2) ≠ s3 then bad else inf s3
  | .inf s1, .fin s2 m _, .fin _ _ _ => if m = 0 then bad else inf (s1 != s2)
  | .fin s1 m _, .inf s2, .inf s3 => if m = 0 ∨ (s1 != s2) ≠ s3 then bad else inf s3
  | .fin s1 m _, .inf s2, .fin _ _ _ => if m = 0 then bad else inf (s1 != s2)
  | .fin _ _ _, .fin _ _ _, .inf s3 => inf s3
  | .fin s1 m1 e1, .fin s2 m2 e2, .fin s3 m3 e3 =>
    fin (addRound rnd guarded (s1 != s2) (m1 * m2) (e1 + e2) s3 m3 e3)

/-! ### Conversion (R158, R264, R265) -/

/-- An INT8 pattern as an integer. -/
def int8 (v : Nat) : Int := if 128 ≤ v % 256 then (v % 256 : Nat) - 256 else (v % 256 : Nat)

/-- An integer m × 2^e of a sign as FP32, nearest-even. -/
def f32OfInt (v : Int) (e : Int) : Nat := (f32.round 0 (decide (v < 0)) false v.natAbs e).pat

/-- An element of FMT as FP32, exact (R264). -/
def toF32 (fmt v : Nat) : Nat :=
  if fmt = 5 then f32OfInt (int8 v) 0
  else match (fmtOf fmt).decode v with
  | .nan => f32.nan
  | .inf s => f32.sign s + f32.infMag
  | .fin s m e => (f32.round 0 s false m e).pat

/-- FP32 to INT8: rounded, then saturated (R158, R265). -/
def toInt8 (rnd : Nat) (guarded : Bool) (v : Nat) : FmaOut :=
  match f32.decode v with
  | .nan => ⟨0, false, guarded⟩
  | .inf s => ⟨if s then 0x80 else 0x7F, guarded, false⟩
  | .fin s m e =>
    let n := if e ≤ 0 then roundShift rnd s m (-e).toNat else m * 2 ^ e.toNat
    if s then (if 128 < n then ⟨0x80, guarded, false⟩ else ⟨(256 - n) % 256, false, false⟩)
    else if 127 < n then ⟨0x7F, guarded, false⟩ else ⟨n, false, false⟩

/-- FP32 to an element of FMT under RND (R265); FMT FP32 copies (R158). -/
def fromF32 (fmt rnd : Nat) (guarded : Bool) (v : Nat) : FmaOut :=
  if fmt = 0 then ⟨v, false, false⟩
  else if fmt = 5 then toInt8 rnd guarded v
  else
    let F := fmtOf fmt
    match f32.decode v with
    | .nan => ⟨F.nan, false, guarded⟩
    | .inf s => if guarded then ⟨F.sign s + F.maxMag, true, false⟩ else ⟨F.sign s + F.infMag, false, false⟩
    | .fin s m e =>
      let r := F.round rnd s guarded m e
      ⟨r.pat, r.sat, false⟩

/-- Element i of size n bytes of a packed tile. -/
def Tile.elem (t : Tile) (n i : Nat) : Nat := (t.w (n * i / 8)).toNat / 2 ^ (8 * (n * i % 8)) % 2 ^ (8 * n)

/-- Packed elements of n bytes each as words. -/
def packElems (n cnt : Nat) (v : Nat → Nat) : Table DWord :=
  wordsOf ((n * cnt + 7) / 8) (fun w =>
    BitVec.ofNat 64 (((List.range (8 / n)).map (fun k => v (w * (8 / n) + k) * 2 ^ (8 * n * k))).sum))

/-- A tile of 4,096 FP32 patterns. -/
def f32Words (v : Nat → Nat) : Table DWord := halvesOf 4096 (fun i => BitVec.ofNat 32 (v i))

/-- Any of 4,096 results has a flag. -/
def anyFlag (p : Nat → Bool) : Bool := (List.range 4096).any p

/-! ### Meanings -/

/-- FMA.F32 (R88–R91, R158). -/
def execFmaF32 (l : Loc) (f : Fields) (s : State) : Result :=
  .next (s.issue l 0xA0 f
    { stages := [St.fmaA, St.fmaB], dst := .t, sa := .t, sb := f.bFile, sc := .t, rnd := true, hints := [0, 2], imm := 1 }
    (fun x => s.operands l f x (f.c :: f.bRegs) (some f.d) (fun t y =>
      let r := fun i => fma f.rnd (s.guarded l) (t.h i).toNat
        (if f.imf 0 0 = 1 then (y.sr f.b).toNat % 2 ^ 32 else ((y.tr f.b).h i).toNat) ((y.tr f.c).h i).toNat
      let z := (y.setT f.d { t with words := f32Words (fun i => (r i).pat) }).raiseFlags f.d
        (anyFlag (fun i => (r i).sat)) (anyFlag (fun i => (r i).nan))
      (s.retire l z).fsatRefresh l)))

/-- CVT on CONVERT: packed FMT to FP32 (R158). The new VCNT is kept modulo 2^16 (DESIGN CHOICE, notes/assumptions/108.md). -/
def cvtIn (fmt : Nat) (t : Tile) : Tile :=
  let n := fmtSize fmt
  { t with
    vcnt := BitVec.ofNat 16 ((t.vcnt.toNat + n - 1) / n * 4)
    words := f32Words (fun i => toF32 fmt (t.elem n i)) }

/-- CVT on ROUND: FP32 to packed FMT; the bytes after the packed elements are zero (R158). -/
def cvtOut (fmt rnd : Nat) (guarded : Bool) (t : Tile) : Tile :=
  let n := fmtSize fmt
  { t with
    vcnt := BitVec.ofNat 16 ((t.vcnt.toNat + 3) / 4 * n)
    words := packElems n 4096 (fun i => (fromF32 fmt rnd guarded (t.h i).toNat).pat) }

/-- SAT and NAN of the elements of a tile rounded to FMT. -/
def cvtFlags (fmt rnd : Nat) (guarded : Bool) (t : Tile) : Bool × Bool :=
  let r := fun i => fromF32 fmt rnd guarded (t.h i).toNat
  (anyFlag (fun i => (r i).sat), anyFlag (fun i => (r i).nan))

/-- CVT. -/
def execCvt (l : Loc) (f : Fields) (s : State) : Result :=
  .next (s.issue l 0xA1 f
    { stages := [St.convert, St.round], dst := .t, sa := .t, fmt := true, rnd := true, hints := [0, 2] }
    (fun x => s.operands l f x [] (some f.d) (kept := fun n =>
        if l.name = St.convert then n / fmtSize f.fmt * 4 else n / 4 * fmtSize f.fmt) (fun t y =>
      if l.name = St.convert then s.retire l (y.setT f.d (cvtIn f.fmt t))
      else
        let g := cvtFlags f.fmt f.rnd (s.guarded l) t
        (s.retire l ((y.setT f.d (cvtOut f.fmt f.rnd (s.guarded l) t)).raiseFlags f.d g.1 g.2)).fsatRefresh l)))

end Sys2Proof.Machine
end

