-- ==== Sys2Proof/Machine/ProfileRegs.lean ====
section
/-! DEFINITION. Fields of a profile's body (R529) and the light-die registers that it sets (R305, R306, R316, R323, R529). -/

namespace Sys2Proof.Machine

/-- Present profile body; empty while none is loaded. -/
def State.profileBody (s : State) : Bytes :=
  match s.boot.profile with
  | some o => o.body
  | none => []

/-- LANE_MODE of module lane k (R529). -/
def pfLane (b : Bytes) (k : Nat) : Nat := field b (0x10 + k / 4) 1 / 4 ^ (k % 4) % 4
/-- BUNDLE[p]: VALID, light die, LANES. -/
def pfBundle (b : Bytes) (p : Nat) : Nat := field b (0x20 + 4 * p) 4
def pfBundleOn (b : Bytes) (p : Nat) : Bool := decide (pfBundle b p / 2 ^ 31 = 1)
def pfBundleLd (b : Bytes) (p : Nat) : Nat := pfBundle b p / 2 ^ 28 % 4
def pfBundleLanes (b : Bytes) (p : Nat) : List Nat :=
  ((List.range 16).filter (fun n => (pfBundle b p).testBit n)).map (fun n => 16 * pfBundleLd b p + n)
/-- Dimension sizes and module id of TOPO (R323). -/
def topoDim (t i : Nat) : Nat :=
  if i = 0 then t / 2 ^ 27 % 32 + 1 else if i = 1 then t / 2 ^ 22 % 32 + 1 else t / 2 ^ 18 % 16 + 1
def pfTopo (b : Bytes) : Nat := field b 0xC 4
def pfCtxMax (b : Bytes) : Nat := field b 0x54 1
def pfRecipeN (b : Bytes) : Nat := field b 0x55 1
def pfEthN (b : Bytes) : Nat := field b 0x56 1
def pfEstTbl (b : Bytes) (l : Nat) : Nat := field b (0x58 + 8 * l) 8
def pfCnBase (b : Bytes) (l : Nat) : Nat := field b (0x78 + 8 * l) 8
def pfRgBase (b : Bytes) : Nat := field b 0x98 8
/-- Operator admission keys (R398). -/
def pfAdmEcdsa (b : Bytes) : Bytes := sub b 0x500 97
def pfAdmLms (b : Bytes) : Bytes := sub b 0x568 56

/-- The bundle of port p, where the profile puts it on light die l: BUNDLE_MAP, and BUNDLE of its lanes (R306, R316). -/
def State.profileBundle (s : State) (b : Bytes) (l p : Nat) : State :=
  if pfBundleOn b p ∧ pfBundleLd b p = l then
    (pfBundleLanes b p).foldl (fun u k => u.setFld (Reg.laneStat (k / 16) (k % 16)) 27 24 p)
      (s.setReg (Reg.bundleMap l p) (BitVec.ofNat 32 (2 ^ 31 + p * 2 ^ 28 + pfBundle b p % 2 ^ 16)))
  else s

/-- The registers of light die l that a profile loads (R529). -/
def State.profileLd (s : State) (b : Bytes) (l : Nat) : State :=
  let s1 := ((((s.setReg (Reg.twGroup l) (BitVec.ofNat 32 (field b 8 4))).setReg (Reg.twTopo l)
    (BitVec.ofNat 32 (pfTopo b))).setReg (Reg.estCtl l) (BitVec.ofNat 32 (field b 0x48 4))).setReg (Reg.estBackoff l)
    (BitVec.ofNat 32 (field b 0x4C 4))).setReg (Reg.twLrto l) (BitVec.ofNat 32 (field b 0x50 4 % 64))
  let s2 := ((s1.setReg64 (Reg.estTblLo l) (pfEstTbl b l)).setReg64 (Reg.twCnBaseLo l) (pfCnBase b l)).setReg64
    (Reg.twRgBaseLo l) (pfRgBase b)
  let s3 := (List.range 16).foldl (fun u n => u.setFld (Reg.laneCtl l n) 31 30 (pfLane b (16 * l + n))) s2
  (List.range 6).foldl (fun u p => u.profileBundle b l p) s3

end Sys2Proof.Machine
end

