-- ==== Sys2Proof/Machine/Power.lean ====
section
/-! DEFINITION. Meanings of the power-domain commands (R436–R448). -/

namespace Sys2Proof.Machine

def State.pdx (s : State) (n : Nat) : PdX := s.pd.get (fun _ => PdX.zero) n
def State.setPdx (s : State) (n : Nat) (x : PdX) : State := { s with pd := s.pd.put (fun _ => PdX.zero) n x }

/-- The light die of a domain is not fitted (R5, R437). -/
def State.pdAbsent (s : State) (n : Nat) : Bool := 59 + s.part.ldCount ≤ n ∧ n < 63

/-- Deepest state a kind may reach (R436): 0 ON, 1 IDLE, 2 RETAIN, 3 OFF. -/
def pdDeepest (n : Nat) : Nat :=
  let k := pdKind n
  if k = 0 ∨ k = 1 ∨ k = 5 then 3 else if k = 2 then 1 else if k = 4 then 0 else 2

/-- PD_CTL.TGT as it acts (R448). -/
def State.pdTgt (s : State) (n : Nat) : Nat := min (s.fld (Reg.pdCtl n) 25 24) (pdDeepest n)
def State.pdHeld (s : State) (n : Nat) : Bool := s.fld (Reg.pdCtl n) 31 31 = 1

/-- Module lane: light die and lane number. -/
def State.laneMode (s : State) (lane : Nat) : Nat := s.fld (Reg.laneCtl (lane / 16) (lane % 16)) 31 30
def State.laneSt (s : State) (lane : Nat) : Nat := s.fld (Reg.laneStat (lane / 16) (lane % 16)) 31 29
/-- Lanes of a light die, as module lanes. -/
def lanesOf (l : Nat) : List Nat := (List.range 16).map (fun n => 16 * l + n)

/-- The instruction at a running stage's PC waits at issue for a packet (QPOP), a credit or a slot (SEND), or a complete
slot (RECV) (R437). -/
def State.waitsAtIssue (s : State) (d st g : Nat) : Bool :=
  let x := s.stage (stageIx d st g)
  let w := (x.imem.get (fun _ => 0) x.pc).toNat
  let q := if w % 4 = 0 then iNum d st else 100 * (w % 4) + strandIx d st
  let slot := x.slots.any (fun t => decide (t.dest.toNat = g))
  decide (x.pc < x.codeWords) &&
  (if w / 2 ^ 56 = 0x42 then decide (w / 16 % 2 = 0) && (s.queue q).pkts.isEmpty
   else if w / 2 ^ 56 = 0x43 then decide (x.credits = 0) || (decide (w / 2 ^ 24 % 4 = 2) && !slot)
   else decide (w / 2 ^ 56 = 0x44) && !slot)

/-- A stage is busy (R437): it executes an instruction (a FOLD or a SEAL in progress among them), or runs filler at BARW. -/
def State.stageBusy (s : State) (d st g : Nat) : Bool :=
  let x := s.stage (stageIx d st g)
  decide (x.run = .running) &&
  match x.wait with
  | .bar _ => false
  | .barw _ => !x.fillerOut && !s.gov.fillerCut
  | .none => decide (0 < x.sealPos ∨ 0 < x.foldPos) || !s.waitsAtIssue d st g

/-- The wake level of a domain that the state shows: a queue of a bound strand that is not empty, a tile on a channel of the
strand (R442). -/
def State.pdLevel (s : State) (n : Nat) : Bool :=
  let d := n / 14
  let u := n % 14
  decide (n < 56 ∧ u < 12) &&
  ((s.bound d u && ((decide (u < 4) && !(s.queue (iNum d u)).pkts.isEmpty) || !(s.queue (100 + strandIx d u)).pkts.isEmpty ||
      !(s.queue (200 + strandIx d u)).pkts.isEmpty)) ||
   (List.range (kindStages (strandKind u))).any (fun g => !(s.stage (stageIx d u g)).chan.isEmpty))

/-- The refusal that the state of the module shows for an entry of domain n to `tgt` (R50, R437): class and number; of
several, the one of the lowest class (DESIGN CHOICE, notes/assumptions/128.md). -/
def State.pdRefusal (s : State) (n tgt : Nat) : Option (Nat × Nat) :=
  if n < 56 then
    let d := n / 14
    let u := n % 14
    if u < 12 then
      match (List.range (kindStages (strandKind u))).find? (fun g => s.stageBusy d u g) with
      | some g => some (1, g)
      | none => if tgt = 3 ∧ s.sst d u ≠ SS.unbound then some (4, u) else none
    else if tgt = 3 then
      ((List.range 12).find? (fun b => s.bst d (12 * (u - 12) + b) ≠ 0)).map (fun b => (2, 12 * (u - 12) + b))
    else none
  else if 59 ≤ n ∧ n < 63 then
    match (lanesOf (n - 59)).find? (fun x => s.laneMode x ≠ 0 ∧ s.laneSt x ≠ 0) with
    | some x => some (3, x)
    | none => if tgt = 3 ∧ (lanesOf (n - 59)).any (fun x => s.laneMode x ≠ 0) then some (9, 0) else none
  else none

/-- A refusal or an abort is counted and recorded, and ENTER clears (R441, R448). -/
def State.pdRecord (s : State) (n tgt : Nat) (abort : Bool) (unit id : Nat) : State :=
  ((s.count (Reg.pdRefuseCnt n)).setReg (Reg.pdRefuser n)
    (BitVec.ofNat 32 (b2n abort * 2 ^ 31 + tgt * 2 ^ 26 + unit * 2 ^ 20 + id))).setFld (Reg.pdCtl n) 30 30 0

/-- Class and number of a refusing unit of domain n (R448); none for a unit that the domain's kind does not have. -/
def pdUnitCode (n : Nat) : PdUnit → Option (Nat × Nat)
  | .stage g => if pdKind n = 0 ∧ g.val < kindStages (strandKind (n % 14)) then some (1, g.val) else none
  | .core c => if pdKind n = 2 then some (5, c.val) else none
  | .level k => some (6, k.val)
  | .hbm k => if pdKind n = 6 then some (8, k.val) else none

/-- ID of an abort: the wake source's class and its number within the class (R448). -/
def pdSourceCode : PdSource → Nat
  | .stage g => 0x100 + g.val
  | .lane n => 0x300 + n.val
  | .hbm k => 0x800 + k.val
  | .access c => 0xA00 + c.val
  | .bank b => 0xB00 + b.val
  | .queue q => 0xC00 + q.val
  | .beat g => 0xD00 + g.val
  | .answer p => 0xE00 + p.val

/-- A write of PD_CTL.HOLD (R440, R448). -/
def State.holdWrite (s : State) (n : Nat) (hold : Bool) : State :=
  if s.pdAbsent n then s
  else
    let s1 := s.setFld (Reg.pdCtl n) 31 31 (b2n hold)
    if hold then s1.startWake n else s1

/-- The domain is committed to entering (step 3 of R440). -/
def State.pdCommit (s : State) (n tgt : Nat) (enter : Bool) : State :=
  ((s.setPdx n ⟨tgt, false, 0⟩).setFld (Reg.pdStat n) 31 29 4).setFld (Reg.pdCtl n) 30 30 (b2n enter)

/-- Steps 1 to 3 of an entry (R440). A wake level at step 1 ends it uncounted; one at step 2, and a write of HOLD, abort it;
it is refused by what the module's own state shows (R50, R437) or by a unit; else it is committed. Where step 2 meets both a
wake level and a refusal, the abort is recorded (DESIGN CHOICE, notes/assumptions/128.md). -/
def State.pdEntry (s : State) (n tgt : Nat) (r : PdReady) (enter : Bool) : State :=
  if s.pdLevel n then s.setFld (Reg.pdCtl n) 30 30 0
  else match r with
  | .level => s.setFld (Reg.pdCtl n) 30 30 0
  | .wake w => s.pdRecord n tgt true 7 (pdSourceCode w)
  | .hold c => ((s.pdRecord n tgt true 7 (pdSourceCode (.access c))).dropWbuf c.val).holdWrite n true
  | .ready =>
    (match s.pdRefusal n tgt with
     | some (u, id) => s.pdRecord n tgt false u id
     | none => s.pdCommit n tgt enter)
  | .refuse x =>
    match s.pdRefusal n tgt, pdUnitCode n x with
    | some (u, id), _ => s.pdRecord n tgt false u id
    | none, some (u, id) => s.pdRecord n tgt false u id
    | none, none => s.pdCommit n tgt enter

/-- PD_IDLE_TIMEOUT: an idle domain that is ON starts entry to IDLE (R440). -/
def execPdIdleTimeout (n : Fin 64) (r : PdReady) (s : State) : Result :=
  if s.pdOn n.val ∧ ¬ s.pdHeld n.val ∧ 1 ≤ s.pdTgt n.val then .next ((s.pdEntry n.val 1 r false).done Code.ok)
  else .next s.idle

/-- PD_DEEP_TIMEOUT: a domain in IDLE starts entry to TGT when TGT is RETAIN or OFF (R440, R448). -/
def execPdDeepTimeout (n : Fin 64) (r : PdReady) (s : State) : Result :=
  if s.pdState n.val = 1 ∧ ¬ s.pdHeld n.val ∧ 2 ≤ s.pdTgt n.val then
    .next ((s.pdEntry n.val (s.pdTgt n.val) r false).done Code.ok)
  else .next s.idle

/-- A write of PD_CTL.ENTER starts entry to TGT now, or is ignored (R448). -/
def State.enterWrite (s : State) (n : Nat) (r : PdReady) : State :=
  if s.pdHeld n ∨ s.pdTgt n = 0 ∨ 4 ≤ s.pdState n ∨ s.pdTgt n ≤ s.pdState n ∨ s.pdAbsent n then s
  else s.pdEntry n (s.pdTgt n) r true

/-- PD_ENTER, a register write of a hub core (R34, R440, R448). -/
def execPdEnter (n : PdCall) (r : PdReady) (s : State) : Result :=
  .next (((s.dropWbuf n.core.val).enterWrite n.n.val r).done Code.ok)

/-- PD_ENTRY_DONE: the domain reaches its state, and a wake level that came meanwhile starts a wake (R440, R446). -/
def execPdEntryDone (n : Fin 64) (s : State) : Result :=
  let x := s.pdx n.val
  if s.pdState n.val = 4 then
    let s1 := ((s.setPdx n.val PdX.zero).setFld (Reg.pdStat n.val) 31 29 x.target).setFld (Reg.pdCtl n.val) 30 30 0
    .next ((if x.wake ∨ s.pdHeld n.val then s1.startWake n.val else s1).done Code.ok)
  else .next s.idle

/-- PD_HOLD, a register write of a hub core (R34, R440, R448). -/
def execPdHold (n : Fin 64) (hold : Bool) (core : Fin 16) (s : State) : Result :=
  .next (((s.dropWbuf core.val).holdWrite n.val hold).done Code.ok)

/-- PD_WAKE: an access starts a wake and stalls; in WAKE_FAILED it fails at once (R442, R445). -/
def execPdWake (n : Fin 64) (_unit : Fin 16) (_id : Byte) (s : State) : Result :=
  if s.pdState n.val = 6 then .next (s.done Code.wakeFail)
  else if s.pdOn n.val then .next (s.done Code.ok)
  else .next (s.startWake n.val).waits

/-- Registers of a light die at reset, with the values that the loaded profile gave them (R305, R306, R316, R323, R438,
R529). -/
def State.resetLd (s : State) (l : Nat) : State :=
  let s1 := s.resetRegs (fun a => decide (regAddr (Reg.ldPage l) 0 ≤ a ∧ a < regAddr (Reg.ldPage l + 0x20) 0))
  let s2 := match s.boot.profile with
    | some o => s1.profileLd o.body l
    | none => s1
  { s2 with
    slots := s2.slots.filter (fun r => r.ld ≠ l)
    fstLost := s2.fst.foldl (fun (t : Table Bool) (e : Nat × QWord) => t.put (fun _ => false) (l * 65536 + e.1) true) s2.fstLost
    est := s2.est.clear (fun k => decide (k = l))
    lanes := s2.lanes.clear (fun k => decide (k / 16 = l))
    bundles := s2.bundles.clear (fun k => decide (k / 16 = l))
    router := s2.router.clear (fun k => decide (k = l)) }.zeroTime
      (fun k => decide (k = 0x20 + l ∨ (0x40 + 16 * l ≤ k ∧ k < 0x40 + 16 * l + 16)))

/-- What a domain's wake from OFF leaves: its SRAM zero, every register of its pages at reset (R37, R49, R438). -/
def State.fromOff (s : State) (n : Nat) : State :=
  if n < 56 then
    let d := n / 14
    let u := n % 14
    if u < 12 then
      let s1 := (s.unbindStrand d u).resetRegs (fun a => decide (regDomain a = some n))
      { s1 with seedBuf := s1.seedBuf.clear (fun k => decide (u < 4 ∧ k = iNum d u)) }
    else (List.range 12).foldl (fun t b => t.clearBank d (12 * (u - 12) + b)) s
  else if 59 ≤ n ∧ n < 63 then s.resetLd (n - 59)
  else s

/-- Bank handovers that waited for a half-array start their cycle 0 (R443). -/
def State.resumeHandovers (s : State) (n : Nat) : State :=
  allBanks.foldl (fun t e =>
    if pdBank e.1 e.2 = n ∧ (t.bank e.1 e.2).waking then
      (t.setBank e.1 e.2 { t.bank e.1 e.2 with waking := false }).setFld (Reg.bankOwner e.1 e.2) 31 30 2
    else t) s

/-- Bank writes that waited for a half-array do not take effect (R443). -/
def State.dropHandovers (s : State) (n : Nat) : State :=
  allBanks.foldl (fun t e =>
    if pdBank e.1 e.2 = n ∧ (t.bank e.1 e.2).waking then
      ((t.setBank e.1 e.2 { t.bank e.1 e.2 with waking := false, target := none }).setReg (Reg.bankOwner e.1 e.2)
        (t.bank e.1 e.2).before).wrIgnored e.1 e.2
    else t) s

/-- PD_WAKE_DONE: the domain is ON; from OFF its memories are clear; stalled accesses may proceed (R442, R443, R49). -/
def execPdWakeDone (n : Fin 64) (s : State) : Result :=
  if s.pdState n.val = 5 then
    let s1 := if (s.pdx n.val).from_ = 3 then s.fromOff n.val else s
    .next ((((s1.setPdx n.val PdX.zero).resumeHandovers n.val).setFld (Reg.pdStat n.val) 31 29 0).done Code.ok)
  else .next s.idle

/-- PD_WAKE_TIMEOUT: WAKE_FAILED, and a record to the governor queue (R445). -/
def execPdWakeTimeout (n : Fin 64) (s : State) : Result :=
  if s.pdState n.val = 5 then
    .next (((((s.setPdx n.val PdX.zero).dropHandovers n.val).setFld (Reg.pdStat n.val) 31 29 6).post 2
      (Ev.of 4 1 Code.wakeFail 4 0 n.val n.val)).done Code.wakeFail)
  else .next s.idle

/-- A write of PD_CTL.CLR_FAIL: a WAKE_FAILED domain returns to OFF, and under HOLD is woken at once (R445, R448). -/
def State.clrFailWrite (s : State) (n : Nat) : State :=
  if s.pdState n = 6 then
    let s1 := s.setFld (Reg.pdStat n) 31 29 3
    if s.pdHeld n then s1.startWake n else s1
  else s

/-- PD_CLR_FAIL, a register write of a hub core (R34, R445). -/
def execPdClrFail (n : PdCall) (s : State) : Result :=
  .next (((s.dropWbuf n.core.val).clrFailWrite n.n.val).done Code.ok)

end Sys2Proof.Machine
end

