-- ==== Sys2Proof/Machine/KeyOps.lean ====
section
/-! DEFINITION. Operations over the key store that the boot path, contexts and the key commands share: the allotment of
slots (R406), fresh keys, sealing (R413). -/

namespace Sys2Proof.Machine

/-- An attribute word (R405) with VALID set: TYPE, PERSIST, ORIGIN, bound context, LC, MASTER, USE. -/
def attrWord (typ persist origin : Nat) (ctx : Option Nat) (lc master use : Nat) : Word :=
  BitVec.ofNat 32 (2 ^ 31 + typ * 2 ^ 28 + persist * 2 ^ 27 + origin * 2 ^ 26 +
    (match ctx with | some c => 2 ^ 25 + c * 2 ^ 21 | none => 0) + lc * 2 ^ 16 + master * 2 ^ 8 + use)

/-- What R406 fixes for a slot that the module generates or derives, or for the CAK; none: reserved or released. -/
def slotAttr (n : Nat) : Option Word :=
  if n = 0 ∨ n = 1 then some (attrWord 3 0 0 none 0x1F 1 8)
  else if n = 2 then some (attrWord 5 0 0 none 0x1F 1 8)
  else if n = 3 then some (attrWord 0 0 0 none 0x0F 1 0x60)
  else if n = 4 then some (attrWord 3 1 0 none 0x0E 1 8)
  else if n = 5 then some (attrWord 3 1 0 none 0x0C 1 0x10)
  else if n = 6 then some (attrWord 4 1 0 none 0x0C 1 0x10)
  else if n = 7 then some (attrWord 3 1 0 none 0x0F 1 0x10)
  else if n = 8 then some (attrWord 2 1 1 none 0x0C 1 0x10)
  else if n = 16 ∨ n = 18 ∨ n = 20 then some (attrWord 1 0 0 none 0x0F 4 3)
  else if n = 17 ∨ n = 19 ∨ n = 21 then some (attrWord 0 0 0 none 0x0F 4 4)
  else if n = 22 then some (attrWord 0 0 0 none 0x0F 8 0x60)
  else if 23 ≤ n ∧ n ≤ 26 then some (attrWord 0 0 0 none 0x0F 4 4)
  else if 32 ≤ n ∧ n < 256 then
    let c := (n - 32) / 14
    let k := (n - 32) % 14
    if k = 0 then some (attrWord 1 0 0 (some c) 0x0C 4 3)
    else if k = 1 then some (attrWord 0 0 0 (some c) 0x0C 4 4)
    else if k = 2 then some (attrWord 0 0 0 (some c) 0x0C 0x10 0x60)
    else if k = 3 then some (attrWord 2 0 0 (some c) 0x0C 1 4)
    else none
  else none

/-- A released-key slot of a context (R406). -/
def releasedSlot (n : Nat) : Bool := decide (32 ≤ n) && decide (4 ≤ (n - 32) % 14)

/-- LC of an attribute word includes the present lifecycle state. -/
def State.lcUsable (s : State) (a : Word) : Bool := bit a (16 + s.lc)

/-- KEY_STAT.TAMPERED. -/
def State.tampered (s : State) : Bool := s.fld Reg.keyStat 28 28 = 1

/-- No known-answer test of the engine has failed (R480). -/
def State.katOk (s : State) (e : KatEngine) : Bool := decide (e ∉ s.hub.katBad)

/-! ### Key commands (R408) -/

/-- The key command that runs is another one than OP on a slot. -/
def State.keyOther (s : State) (op slot : Nat) : Bool :=
  match s.hss.run with
  | some r => decide (r ≠ (op, slot))
  | none => false

/-- A command completes: KEY_CMD keeps OP, KEY_SLOT_SEL the slot, KEY_STAT takes CODE; GO and BUSY read 0 (R408). -/
def State.keyDone (s : State) (op slot : Nat) (code : Byte) : State :=
  let s1 := (s.setReg Reg.keyCmd (BitVec.ofNat 32 (op * 2 ^ 28))).setReg Reg.keySlotSel (BitVec.ofNat 32 slot)
  let s2 := { s1 with hss := { s1.hss with run := none } }
  ((s2.setFld Reg.keyStat 31 31 0).setFld Reg.keyStat 23 16 code.toNat).done code

/-- A command runs on, for the entropy source or the lower tree: GO and BUSY read 1, and it is given again to go on (R408). -/
def State.keyWaits (s : State) (op slot : Nat) : State :=
  let s1 := (s.setReg Reg.keyCmd (BitVec.ofNat 32 (2 ^ 31 + op * 2 ^ 28))).setReg Reg.keySlotSel (BitVec.ofNat 32 slot)
  ({ s1 with hss := { s1.hss with run := some (op, slot) } }.setFld Reg.keyStat 31 31 1).waits

/-- A command: ignored while another runs (R408); it runs only while no known-answer test of the key store has failed (R480). -/
def State.keyCmdRun (s : State) (op slot : Nat) (k : State → State) : State :=
  if s.keyOther op slot then s.idle
  else if s.katOk .keyStore then k s else s.keyDone op slot Code.internalError

/-! ### Known answers (R410) -/

/-- The 64 bytes of a half's material. -/
def KeyHalf.bytes (k : KeyHalf) : Bytes := le 64 k.mat.toNat
/-- TYPE of an attribute word (R405). -/
def KeyHalf.typ (k : KeyHalf) : Nat := bits k.attr 30 28

/-- The key check value of a symmetric key: the first 8 bytes of a CMAC for AES, of an HMAC for a SECRET (R410). -/
def KeyHalf.kcvOf (k : KeyHalf) : DWord :=
  if k.typ = 2 then BitVec.ofNat 64 (fromLE ((be 48 (Config.hmac k.bytes (ascii "A9 kcv")).toNat).take 8))
  else BitVec.ofNat 64 (fromLE ((be 16 (Config.cmac (k.mat.setWidth 256) (padTo 16 (ascii "A9 kcv"))).toNat).take 8))

/-- The public key of a half, by TYPE: P-384 97 bytes, ML-KEM-768 1,184, LMS/HSS 48; none for a symmetric key. -/
def KeyHalf.public (k : KeyHalf) : Bytes :=
  if k.typ = 3 then padTo 97 (Config.p384Public (be 48 k.mat.toNat))
  else if k.typ = 4 then padTo 1184 (Config.kemPublic k.mat)
  else if k.typ = 5 then padTo 48 (Config.hssPublic k.mat)
  else []

/-- The known-answer check of a PENDING half (R410): the KCV that came with an imported key; a signature that verifies; an
encapsulation, on free random bytes, that decapsulates to the same secret; of a generated symmetric key, the engines that MASTER
names agree, of which Breakwater's does not once its known-answer test has failed (notes/assumptions/71.md). -/
def State.answers (s : State) (k : KeyHalf) : Bool :=
  if bit k.attr 26 then decide (k.kcvOf = k.kcv)
  else if k.typ = 3 then Config.ecdsaOk k.public (ascii "A9 kat") (padTo 96 (Config.ecdsaSign k.mat (ascii "A9 kat")))
  else if k.typ = 4 then
    (let e := Config.kemEncap k.public (s.freeBytes 4)
     decide (Config.kemDecap k.mat e.1 = e.2))
  else !(bit k.attr 10) || s.katOk .breakwater

/-! ### Sealing and fresh keys (R409, R413) -/

/-- Associated data of a sealed record: the slot number and the attribute word (R413). -/
def sealAad (n : Nat) (a : Word) : Bytes := le 1 n ++ le 4 a.toNat

/-- A PERSIST slot's ACTIVE half is sealed to flash under SEAL, where SEAL is valid (R413); the nonce is a free value. -/
def State.sealSlot (s : State) (n : Nat) : State :=
  let k := s.active n
  if (s.active 3).valid ∧ bit k.attr 27 then
    let iv := le 12 s.free.toNat
    let e := Config.gcmSeal ((s.active 3).mat.setWidth 256) iv (sealAad n k.attr) (le 64 k.mat.toNat)
    { s with boot := { s.boot with sealed := s.boot.sealed.put (fun _ => none) n (some ⟨k.attr, iv, e.1, e.2⟩) } }.took 1
  else s

/-- 512 bits through the key store's port. -/
def State.freshKey (s : State) : BitVec 512 := BitVec.ofNat 512 (fromLE (s.drawnBytes Port.keyStore 8))

/-- GENERATE, VERIFY and COMMIT of a slot by a unit of the module (R409): the root reseeds first (R425), and its ACTIVE half holds
a fresh key, unless the source fails in that or the key's known-answer check fails. -/
def State.freshSlot (s : State) (n : Nat) : State × Byte :=
  match slotAttr n with
  | some a =>
    let t := s.reseedRoot
    if ¬ t.entRunning then (t, Code.entropyUnavailable)
    else
      let k : KeyHalf := ⟨a, t.freshKey, 0⟩
      let u := (t.draw Port.keyStore 8).took 4
      if t.answers k then (((u.setActive n k).setPendingKey n KeyHalf.zero).setPstate n 0, Code.ok)
      else (u, Code.signatureFail)
  | none => (s, Code.attributeDenied)

/-- Slots filled one after the other; the code of the first that fails. -/
def State.freshSlots (s : State) : List Nat → State × Byte
  | [] => (s, Code.ok)
  | n :: ns => freshMore (s.freshSlot n) ns
where
  freshMore (x : State × Byte) : List Nat → State × Byte
    | [] => x
    | n :: ns => if x.2 = Code.ok then freshMore (x.1.freshSlot n) ns else x

/-- A fresh key where LC includes the present state and the ACTIVE half is empty. -/
def State.fillSlot (s : State) (n : Nat) : State :=
  match slotAttr n with
  | some a => if s.lcUsable a ∧ ¬ (s.active n).valid then (s.freshSlot n).1 else s
  | none => s

/-- Every PERSIST slot that is empty, except slot 8, is generated and sealed as soon as the DRBG is seeded (R413); it
waits for the boot path to have unsealed what there is. -/
def State.fillPersist (s : State) : State :=
  if s.entRunning ∧ 3 ≤ s.boot.next ∧ ¬ s.tampered then
    [4, 5, 6, 7].foldl (fun t n => if (t.active n).valid then t else (t.fillSlot n).sealSlot n) s
  else s

end Sys2Proof.Machine
end

