-- ==== Sys2Proof/Machine/Sessions.lean ====
section
/-! DEFINITION. Session tables: the region in HBM with its lookup and records (R290, R291), the session caches of the light
dies (R292, R298), and the engine that reads and writes them. -/

namespace Sys2Proof.Machine

def State.estLd (s : State) (l : Nat) : EstLd := s.est.get (fun _ => EstLd.zero) l
def State.setEstLd (s : State) (l : Nat) (x : EstLd) : State := { s with est := s.est.put (fun _ => EstLd.zero) l x }

/-! ### AES-256 key wrap (RFC 3394, R291) -/

/-- One block under AES-256, as bytes. -/
def aesBytes (k : BitVec 256) (b : Bytes) : Bytes := le 16 (Config.aes256 k (BitVec.ofNat 128 (fromLE b))).toNat
def aesInvBytes (k : BitVec 256) (b : Bytes) : Bytes := le 16 (Config.aes256Inv k (BitVec.ofNat 128 (fromLE b))).toNat
def xorBytes (a b : Bytes) : Bytes := List.zipWith (fun x y => x ^^^ y) a b

/-- One of the six passes over the 64-bit blocks: A, and the blocks; `t` counts the steps. -/
def wrapPass (k : BitVec 256) : Nat → Bytes → List Bytes → Bytes × List Bytes
  | _, a, [] => (a, [])
  | t, a, r :: rs =>
    let b := aesBytes k (a ++ r)
    let y := wrapPass k (t + 1) (xorBytes (b.take 8) (be 8 (t + 1))) rs
    (y.1, b.drop 8 :: y.2)
/-- One pass back, over the blocks from the last. -/
def unwrapPass (k : BitVec 256) : Nat → Bytes → List Bytes → Bytes × List Bytes
  | _, a, [] => (a, [])
  | t, a, r :: rs =>
    let b := aesInvBytes k (xorBytes a (be 8 t) ++ r)
    let y := unwrapPass k (t - 1) (b.take 8) rs
    (y.1, b.drop 8 :: y.2)

/-- The initial value A6…A6. -/
def wrapIv : Bytes := List.replicate 8 0xA6

/-- 64 bytes of keys wrapped to 72. -/
def keyWrap (k : BitVec 256) (p : Bytes) : Bytes :=
  let bs := (List.range 8).map (fun i => sub p (8 * i) 8)
  let y := (List.range 6).foldl (fun x j => wrapPass k (8 * j) x.1 x.2) (wrapIv, bs)
  y.1 ++ y.2.flatten
/-- 72 bytes unwrapped to 64, if the integrity check holds. -/
def keyUnwrap (k : BitVec 256) (c : Bytes) : Option Bytes :=
  let bs := ((List.range 8).map (fun i => sub c (8 + 8 * i) 8)).reverse
  let y := (List.range 6).foldl (fun x j => unwrapPass k (48 - 8 * j) x.1 x.2) (c.take 8, bs)
  -- each pass leaves the blocks in the order it took them
  if y.1 = wrapIv then some y.2.reverse.flatten else none

/-! ### Records (R291) -/

/-- The context's Estuary wrap key, for a wrap (use 5) or an unwrap (6), where it may be used (R407). -/
def State.wrapKey (s : State) (c use : Nat) : Option (BitVec 256) :=
  if s.keyUse (slotWrap c) use .estuary (some c) = Code.ok then some ((s.active (slotWrap c)).mat.setWidth 256) else none

/-- The 128 bytes of a record whose KEYS field is given. -/
def SessRec.bytes (r : SessRec) (keys : Bytes) : Bytes :=
  le 8 r.sid.toNat ++ le 1 r.st.toNat ++ le 1 r.ctx.val ++ le 1 r.epoch.toNat ++ le 1 (b2n r.admitted) ++
  le 4 r.admitRound.toNat ++ padTo 72 keys ++ le 6 r.txSeq.toNat ++ le 1 r.ret.lane.toNat ++ le 1 (b2n r.ret.ipv6) ++
  be 6 r.ret.mac.toNat ++ le 2 r.ret.port.toNat ++ be 16 r.ret.ip.toNat ++ le 8 0

/-- The record that 128 bytes hold; its keys are unreadable where they do not unwrap. -/
def State.recOf (s : State) (b : Bytes) : SessRec :=
  let c := field b 9 1 % 16
  { sid := BitVec.ofNat 64 (field b 0 8), st := BitVec.ofNat 2 (field b 8 1), ctx := Fin.ofNat 16 c
    epoch := BitVec.ofNat 8 (field b 10 1), admitted := (field b 11 1).testBit 0
    admitRound := BitVec.ofNat 32 (field b 12 4)
    keys := (match (s.wrapKey c 6).bind (fun k => keyUnwrap k (sub b 16 72)) with
      | some p => some (BitVec.ofNat 256 (fromLE (p.take 32)), BitVec.ofNat 256 (fromLE (p.drop 32)))
      | none => none)
    txSeq := BitVec.ofNat 48 (field b 88 6)
    ret := { lane := BitVec.ofNat 6 (field b 94 1), ipv6 := (field b 95 1).testBit 0, mac := BitVec.ofNat 48 (fromBE (sub b 96 6))
             port := BitVec.ofNat 16 (field b 102 2), ip := BitVec.ofNat 128 (fromBE (sub b 104 16)) } }

/-- KEYS of a record as stored: wrapped under the context's key; none once that key or the keys are gone. -/
def State.wrapped (s : State) (r : SessRec) : Option Bytes :=
  match s.wrapKey r.ctx.val 5, r.keys with
  | some k, some ks => some (keyWrap k (le 32 ks.1.toNat ++ le 32 ks.2.toNat))
  | _, _ => none

/-! ### The region (R290) -/

def State.estTbl (s : State) (l : Nat) : Nat := s.reg64 (Reg.estTblLo l) % 2 ^ 48
def State.recAddr (s : State) (l e : Nat) : Nat := s.estTbl l + 0x2000000 + 128 * e
def State.bucketAddr (s : State) (l b : Nat) : Nat := s.estTbl l + 64 * b
/-- The two buckets of a SESSION_ID. -/
def bucketsOf (sid : DWord) : List Nat := [sid.toNat % 2 ^ 19, sid.toNat / 2 ^ 19 % 2 ^ 19]
/-- The bucket of a SESSION_ID that is not b. -/
def otherBucket (sid : DWord) (b : Nat) : Nat := (bucketsOf sid).foldl (fun acc x => if x = b then acc else x) b

/-- The table engine reads and writes the region as requester Estuary of its light die. -/
def State.readEst (s : State) (l a n : Nat) : Line := s.readSpan (.estuary (Fin.ofNat 4 l)) a n
def State.writeEst (s : State) (l a : Nat) (d : Bytes) : Line := s.writeSpan (.estuary (Fin.ofNat 4 l)) a d
/-- The region cannot be read yet: an access to it stalls. -/
def State.estStall (s : State) (l : Nat) : Bool := (s.readEst l (s.estTbl l) 64).stall

/-- A slot of a bucket: SESSION_ID, index, VALID (R290). -/
def slotOf (sid : DWord) (e : Nat) : Bytes := le 8 sid.toNat ++ le 3 e ++ le 1 1 ++ le 4 0
def slotAt (b : Bytes) (k : Nat) : Bytes := sub b (16 * k) 16
def slotValid (x : Bytes) : Bool := decide (field x 11 1 % 2 = 1)
def slotSid (x : Bytes) : DWord := BitVec.ofNat 64 (field x 0 8)
def slotIndex (x : Bytes) : Nat := field x 8 3 % 2 ^ 20

/-- Where a SESSION_ID stands in the slots of bucket b, as its 64 bytes are read: bucket, slot number, entry; an unreadable
bucket holds none (R298). -/
def hitIn (sid : DWord) (b : Nat) (r : Line) : Option (Nat × Nat × Nat) :=
  if r.stall ∨ r.code ≠ Code.ok then none
  else ((List.range 4).find? (fun k => slotValid (slotAt r.data k) && decide (slotSid (slotAt r.data k) = sid))).map
    (fun k => (b, k, slotIndex (slotAt r.data k)))

/-- The lookup reads both buckets (R298). -/
def State.lookup (s : State) (l : Nat) (sid : DWord) : State × Option (Nat × Nat × Nat) :=
  let a := sid.toNat % 2 ^ 19
  let b := sid.toNat / 2 ^ 19 % 2 ^ 19
  let x := s.readEst l (s.bucketAddr l a) 64
  let y := x.st.readEst l (s.bucketAddr l b) 64
  (y.st, hitIn sid a x <|> hitIn sid b y)

/-- A slot goes into bucket b if one is free there; else it displaces one, which goes to its other bucket; `n` bounds the
buckets tried (R290). Which slots are displaced, which the spec leaves open, the digits of `pick` to base 4 say
(notes/assumptions/97.md). -/
def State.insertAt (l : Nat) : Nat → Nat → Nat → Bytes → State → Option State
  | 0, _, _, _, _ => none
  | n + 1, pick, b, x, s =>
    let r := s.readEst l (s.bucketAddr l b) 64
    if r.stall ∨ r.code ≠ Code.ok then none
    else match (List.range 4).find? (fun k => !slotValid (slotAt r.data k)) with
    | some k => some (r.st.writeEst l (s.bucketAddr l b + 16 * k) x).st
    | none =>
      let k := pick % 4
      let old := slotAt r.data k
      ((r.st.writeEst l (s.bucketAddr l b + 16 * k) x).st).insertAt l n (pick / 4) (otherBucket (slotSid old) b) old

/-- Bucket b can be read. -/
def State.bucketReads (s : State) (l b : Nat) : Bool :=
  let r := s.readEst l (s.bucketAddr l b) 64
  !r.stall && decide (r.code = Code.ok)

/-- A SESSION_ID enters the lookup: a free slot of either bucket, else at most 32 displacements; with a bucket that cannot be
read the insertion fails (R290). -/
def State.insertSlot (s : State) (l pick : Nat) (sid : DWord) (e : Nat) : Option State :=
  match bucketsOf sid with
  | [a, b] =>
    if ¬ s.bucketReads l a ∨ ¬ s.bucketReads l b then none
    else
      (match s.insertAt l 1 pick a (slotOf sid e) with
       | some t => some t
       | none => s.insertAt l 33 pick b (slotOf sid e))
  | _ => none

/-! ### The cache (R292) -/

/-- The cached record of an entry. -/
def State.cachedRec (s : State) (l e : Nat) : Option SessRec := ((s.estLd l).cache.find? (fun x => decide (x.1 = e))).map (fun x => x.2.record)
def State.setCache (s : State) (l : Nat) (c : Table CacheEnt) : State := s.setEstLd l { s.estLd l with cache := c }
def State.putCache (s : State) (l e : Nat) (r : SessRec) (used : Nat) : State :=
  s.setCache l ((s.estLd l).cache.put (fun _ => CacheEnt.zero) e ⟨r, used⟩)
def State.uncache (s : State) (l e : Nat) : State := s.setCache l ((s.estLd l).cache.clear (fun k => decide (k = e)))

/-- A datagram of the record's session was written to an ingress queue less than 100 µs ago. -/
def State.pinned (s : State) (x : CacheEnt) : Bool := decide ((s.time.get (fun _ => 0) 0).toNat + 1 < x.used + 10000) && decide (0 < x.used)

/-- A record is stored in the region; one whose keys are gone is not: it is dead (R294). -/
def State.storeRec (s : State) (l e : Nat) (r : SessRec) : State :=
  match s.wrapped r with
  | some w => (s.writeEst l (s.recAddr l e) (r.bytes w)).st
  | none => s

/-- A record enters the cache, in the set that its entry number gives modulo 15,360 ways of 8; a full set evicts a record
that is not pinned, which goes back to the region; of several a free choice. With every way pinned the record stays out.
Placement and choice are the model's (DESIGN CHOICE, notes/assumptions/98.md). -/
def State.install (s : State) (l e : Nat) (r : SessRec) : State :=
  let ways := (s.estLd l).cache.filter (fun x => decide (x.1 % 15360 = e % 15360))
  if ways.any (fun x => decide (x.1 = e)) ∨ ways.length < 8 then
    s.putCache l e r ((((s.estLd l).cache.get (fun _ => CacheEnt.zero) e)).used)
  else
    let vs := ways.filter (fun x => !s.pinned x.2)
    match vs[s.free.toNat % vs.length]? with
    | none => s
    | some v => ((((s.storeRec l v.1 v.2.record).took 1).uncache l v.1).putCache l e r 0)

/-- A record changes: in the region, and in the cache where it has a way for it; so a record that leaves the cache loses
nothing (R291, R292; DESIGN CHOICE, notes/assumptions/98.md). -/
def State.putRec (s : State) (l e : Nat) (r : SessRec) : State := (s.storeRec l e r).install l e r

/-- What reading a record answers. -/
structure Fetched where
  st     : State
  code   : Byte
  stall  : Bool
  record : SessRec

/-- A record by its entry: from the cache, or read from the region and cached. -/
def State.fetchRec (s : State) (l e : Nat) : Fetched :=
  match s.cachedRec l e with
  | some r => ⟨s, Code.ok, false, r⟩
  | none =>
    let x := s.readEst l (s.recAddr l e) 128
    if x.stall ∨ x.code ≠ Code.ok then ⟨x.st, x.code, x.stall, SessRec.zero⟩
    else
      let r := x.st.recOf x.data
      ⟨if r.st = 0 then x.st else x.st.install l e r, Code.ok, false, r⟩

/-- The record of a session becomes FREE, its lookup slot invalid (R293). -/
def State.freeRec (s : State) (l e : Nat) (sid : DWord) : State :=
  let t := ((s.uncache l e).writeEst l (s.recAddr l e) (List.replicate 128 0)).st
  let y := t.lookup l sid
  match y.2 with
  | some (b, k, i) => if i = e then (y.1.writeEst l (s.bucketAddr l b + 16 * k) (List.replicate 16 0)).st else y.1
  | none => y.1

/-- A datagram of the record's session has been written to an ingress queue (R292). -/
def State.touchRec (s : State) (l e : Nat) : State :=
  match s.cachedRec l e with
  | some r => s.putCache l e r ((s.time.get (fun _ => 0) 0).toNat + 1)
  | none => s

/-- The entry whose cached record a SESSION_ID names (R290, R298). -/
def State.cacheHit (s : State) (l : Nat) (sid : DWord) : Option (Nat × SessRec) :=
  ((s.estLd l).cache.find? (fun x => decide (x.2.record.sid = sid ∧ x.2.record.st ≠ 0))).map (fun x => (x.1, x.2.record))

/-- The record's epoch is its context's present one (R294). -/
def State.epochNow (s : State) (l : Nat) (r : SessRec) : Bool :=
  decide (r.epoch.toNat = s.fld (Reg.estGate l r.ctx.val) 23 16)

/-- A record is dead: its context's gate is shut, or its epoch has passed (R294). -/
def State.recDead (s : State) (l : Nat) (r : SessRec) : Bool :=
  decide (s.fld (Reg.estGate l r.ctx.val) 31 31 = 0) || !s.epochNow l r

/-- The context's dead records leave the caches (R294). -/
def State.flushCaches (s : State) (c : Nat) : State :=
  s.lds.foldl (fun t l => t.setCache l ((t.estLd l).cache.filter (fun x =>
    decide (x.2.record.ctx.val ≠ c) || !s.recDead l x.2.record))) s

/-! ### Daxna's book of sessions, and the transmit queue (R286, R293, R300) -/

/-- What Daxna keeps of a session index. -/
def State.session (s : State) (i : Nat) : Session := s.sess.get (fun _ => Session.zero) i
def State.setSession (s : State) (i : Nat) (x : Session) : State :=
  { s with sess := s.sess.put (fun _ => Session.zero) i x }

/-- A session ends: its record is FREE, and its index waits (R293). -/
def State.freeSession (s : State) (i : Nat) : State :=
  if (s.session i).st = 0 then s
  else (s.freeRec (i / 2 ^ 20) (i % 2 ^ 20) (s.session i).sid).setSession i { Session.zero with hold := true }

/-- Where descriptor slot n of a light die lies in hub SRAM, and the record image of an INSERT there (R300, R471); both places
are the model's (DESIGN CHOICE, notes/assumptions/99.md). -/
def txAddr (l n : Nat) : Nat := 0x1900000 + 0x8000 * l + 32 * (n % 1024)
def imageAddr (l n : Nat) : Nat := 0x1C00000 + 0x20000 * l + 128 * (n % 1024)

/-- The record image of an INSERT, with the keys unwrapped; nothing of another descriptor (R300). -/
def TxDesc.image (d : TxDesc) : Bytes :=
  if d.op = 1 then d.record.bytes (match d.record.keys with | some ks => le 32 ks.1.toNat ++ le 32 ks.2.toNat | none => []) else []

/-- The 32 bytes of a descriptor as Daxna writes them; BODY_OFF is where it put the body, REC_OFF the record image. -/
def TxDesc.bytes (d : TxDesc) (body rec_ : Nat) : Bytes :=
  le 1 d.op.toNat ++ le 1 0 ++ le 1 d.ctx.val ++ le 1 0 ++ le 4 d.index.toNat ++ le 4 (body % 2 ^ 26) ++
  le 2 (32 + d.msg.payload.length) ++ le 2 0 ++ le 4 (if d.op = 1 then rec_ % 2 ^ 26 else 0) ++ le 4 d.admitRound.toNat ++ le 8 0

/-- Descriptors that Daxna holds back enter the queue while it has room: 1,024 (R300). -/
def State.fillTx (s : State) (l : Nat) : State :=
  let x := s.estLd l
  match x.backlog with
  | [] => s
  | d :: ds =>
    if 1024 ≤ x.tx.length then s
    else
      let n := x.txHead + x.tx.length
      (((s.setEstLd l { x with tx := x.tx ++ [d], backlog := ds }).hubStore (imageAddr l n) d.image).hubStore (txAddr l n)
        (d.bytes s.free.toNat (imageAddr l n))).took 1

/-- Daxna posts a descriptor. -/
def State.postDesc (s : State) (l : Nat) (d : TxDesc) : State :=
  (s.setEstLd l { s.estLd l with backlog := (s.estLd l).backlog ++ [d] }).fillTx l

/-- Daxna posts a transmit descriptor for a session (R300). -/
def State.postTx (s : State) (i op : Nat) (m : Aip) : State :=
  let r := s.session i
  s.postDesc (i / 2 ^ 20)
    { op := BitVec.ofNat 8 op, ctx := r.ctx, index := BitVec.ofNat 22 i, msg := { m with sid := r.sid }
      record := SessRec.zero, client := 0, tries := 0, admitRound := 0 }

end Sys2Proof.Machine
end

