-- ==== Sys2Proof/Machine/Crypto.lean ====
section
/-! DEFINITION. The key port (R292), and the meanings of the crypto and key class (R157): PRGX, AEADD, DPN. -/

namespace Sys2Proof.Machine

/-! ### Key port -/

/-- A key port answer (R292): one of its three results, a wait for the region, or the code of an access that failed. -/
inductive KeyAns where
  | key (k : BitVec 256)
  | noKey
  | revoked
  | wait
  | failed (code : Byte)
deriving DecidableEq, Repr

/-- The context is ENDING or its memory key has been destroyed: what PRGX checks (R157). -/
def State.keysGone (s : State) (c : Nat) : Bool := decide (s.cst c = CS.ending) || !(s.active (slotMem c)).valid

/-- The context is ENDING, or END or TAMPER_N has destroyed its keys (R292). -/
def State.portRevoked (s : State) (c : Nat) : Bool :=
  decide (s.cst c = CS.ending ∨ s.cst c = CS.absent) || s.tampered

/-- The answer for a record (R292). -/
def State.keyOf (s : State) (l : Nat) (r : SessRec) : KeyAns :=
  if r.st = 0 then .noKey
  else if s.portRevoked r.ctx.val then .revoked
  else if r.st = 2 ∧ s.epochNow l r ∧ s.fld (Reg.estGate l r.ctx.val) 31 31 = 1 then
    (match r.keys with
     | some ks => .key ks.1
     | none => .noKey)
  else .noKey

/-- The key port: light die SESSION[21:20] answers from the record's entry (R292). -/
def State.keyPort (s : State) (i : Nat) : State × KeyAns :=
  let l := i / 2 ^ 20
  if s.part.ldCount ≤ l then (s, .noKey)
  else
    let x := s.fetchRec l (i % 2 ^ 20)
    (x.st, if x.stall then .wait else if x.code ≠ Code.ok then .failed x.code else x.st.keyOf l x.record)

/-! ### Shards of an I-strand -/

/-- Shard-table entries of an I-strand that satisfy p. -/
def shardEntries (p : Nat → Bool) : List Nat := (List.range 4).filter p
/-- Chunks of a shard popped and not yet folded or discarded (R197). -/
def State.inflight (s : State) (d st j : Nat) : Nat := s.fld (Reg.shtFlight d st j) 7 0

/-- One chunk of entry j is no longer in flight. -/
def State.chunkLeaves (s : State) (d st j : Nat) : State := s.setFld (Reg.shtFlight d st j) 7 0 (s.inflight d st j - 1)

/-- One chunk of the strand is no longer in flight; with several shards in flight the spec does not say whose it is: a
free choice (notes/assumptions/9.md). -/
def State.someChunkLeaves (s : State) (d st : Nat) : State :=
  let js := shardEntries (fun j => decide (0 < s.inflight d st j))
  if js = [] then s
  else (s.chunkLeaves d st (js.getD (s.free.toNat % js.length) 0)).took 1

/-! ### PRGX -/

/-- A seed-table entry of an I-strand (R70, R206). -/
def State.seed (s : State) (i e : Nat) : BitVec 512 := s.seeds.get (fun _ => 0) (i * 4096 + e)
def seedValid (v : BitVec 512) : Bool := decide (v.toNat / 2 ^ 256 % 256 ≠ 0)
def seedKey (v : BitVec 512) : BitVec 256 := v.setWidth 256

/-- SHARD of the counter block: the shard that Daxna filled the entry for; for another entry the one shard of the strand's
table, and free where the table holds none or several (R205; notes/assumptions/10.md). -/
def State.prgShard (s : State) (d st e : Nat) : Nat :=
  let k := s.seedShard.get (fun _ => 0) (iNum d st * 4096 + e)
  if k ≠ 0 then k - 1
  else match shardEntries (fun j => decide (s.fld (Reg.shtCtl d st j) 31 30 ≠ 0)) with
  | [j] => s.fld (Reg.shtCtl d st j) 23 0
  | _ => s.free.toNat % 2 ^ 24

/-- Counter block k (R205). -/
def counterBlock (round : Word) (shard k : Nat) : BitVec 128 :=
  BitVec.ofNat 128 (fromLE (be 4 round.toNat ++ be 3 shard ++ [0] ++ be 8 k))

/-- 64-bit word i of the key stream that starts at block b. -/
def keyStream (key : BitVec 256) (round : Word) (shard b i : Nat) : DWord :=
  ((Config.aes256 key (counterBlock round shard ((b + i / 2) % 2 ^ 64))) >>> (64 * (i % 2))).setWidth 64

/-- PRGX (R157, R205). -/
def execPrgx (l : Loc) (f : Fields) (s : State) : Result :=
  .next (s.issue l 0x80 f { stages := [St.prg], dst := .t, sa := .s, sb := .s } (fun x =>
    let e := (x.sr f.a).toNat
    let v := s.seed (iNum l.d l.s) e
    let c := s.sctx l.d l.s
    if 4096 ≤ e ∨ ¬ seedValid v then s.insnFault l Code.formatError
    else if s.keysGone c then s.stageFault l ⟨Code.keyRevoked, Origin.keyPort, 0, 0, false⟩
    else
      let w := wordsOf 512 (keyStream (seedKey v) (s.curRound c) (s.prgShard l.d l.s e) (x.sr f.b).toNat)
      let t := { Tile.fresh 4096 w with tag := x.sr f.b }
      (s.took 1).retire l (x.setT f.d t)))

/-! ### AEADD -/

/-- The AIP header and the GCM tag in SIDE (R76). -/
def Tile.aip (t : Tile) : Bytes := le 32 t.side.toNat
def Tile.gcmTag (t : Tile) : BitVec 128 := (t.side >>> 256).setWidth 128

/-- The ciphertext of a packet's tiles. -/
def cipherOf (ts : List Tile) : Bytes := (ts.map (fun t => t.bytes t.vcnt.toNat)).flatten

/-- The plaintext under the session key: nonce and associated data of R284. -/
def openPacket (k : BitVec 256) (ts : List Tile) : Option Bytes :=
  match ts with
  | [] => none
  | t :: _ => Config.gcmOpen k ([0, 0, 0, 0, 0, 0] ++ sub t.aip 26 6) t.aip (cipherOf ts) t.gcmTag

/-- Plaintext tiles: headers are copies with SIDE zeroed (R157). -/
def plainTiles (p : Bytes) (ts : List Tile) : List Tile :=
  (List.range ts.length).map (fun k =>
    let t := ts.getD k Tile.zero
    { t with
      side := 0
      words := wordsOfBytes (((p.drop (4096 * k)).take 4096).take t.vcnt.toNat) })

/-- Tiles written from register d upward. -/
def Stage.putTiles (x : Stage) (d : Nat) : List Tile → Stage
  | [] => x
  | t :: ts => (x.setT d t).putTiles (d + 1) ts

/-- The chunk of a failed packet is discarded: its shard has one fewer in flight (R197). -/
def State.chunkDiscarded (s : State) (d st : Nat) (aip : Bytes) : State :=
  if field aip 1 1 ≠ 5 then s
  else match shardEntries (fun j =>
      decide (s.fld (Reg.shtCtl d st j) 31 30 ≠ 0 ∧ s.fld (Reg.shtCtl d st j) 23 0 = fromBE (sub aip 16 3))) with
  | j :: _ => s.chunkLeaves d st j
  | [] => s

/-- Decryption of one packet held in `ts`; x is the stage with the slots it took freed (R65, R157). The answer of the key
port crosses from its light die; one poisoned on the way, or a record that cannot be read, fails with its code (R16). -/
def State.aeadPacket (s : State) (l : Loc) (f : Fields) (x : Stage) (ts : List Tile) : State :=
  let t0 := ts.headD Tile.zero
  let i := t0.tag.toNat / 2 ^ 32 % 2 ^ 22
  let fault (u : State) (c : Byte) : State := (u.setStage l.ix x).stageFault l ⟨c, Origin.keyPort, 0, 0, false⟩
  if l.tregs < f.d + ts.length then s.insnFault l Code.formatError
  else
    let y := s.keyPort i
    let failed (u : State) : State :=
      ((u.iCount l 0x18).chunkDiscarded l.d l.s t0.aip).retireWith l (x.setP 6 false) Code.aeadFail
    if y.2 = .wait then y.1.waits
    else y.1.across (4 + i / 2 ^ 20) l.d (fun u => fault u Code.eccUncorrectable) (fun u =>
      match y.2 with
      | .revoked => fault u Code.keyRevoked
      | .failed c => fault u c
      | .wait => u.waits
      | .noKey => failed u
      | .key k =>
        match openPacket k ts with
        | none => failed u
        | some p => u.retire l ((x.putTiles f.d (plainTiles p ts)).setP 6 true))

/-- AEADD from registers. -/
def State.aeadRegs (s : State) (l : Loc) (f : Fields) (x : Stage) : State :=
  let a := x.tr f.a
  let b := x.tr (f.a + 1)
  if a.bad.isSome then s.badTile l x f.a none 0 x
  else if a.last then s.aeadPacket l f x [a]
  else if l.tregs ≤ f.a + 1 then s.insnFault l Code.formatError
  else if b.bad.isSome then s.badTile l x (f.a + 1) none 0 x
  else if b.last then s.aeadPacket l f x [a, b]
  else s.insnFault l Code.formatError

/-- AEADD from consecutive input slots. -/
def State.aeadSlots (s : State) (l : Loc) (f : Fields) (x : Stage) : State :=
  match x.takeSlot l.g with
  | none => s.waits
  | some (a, y) =>
    if a.dataErr then s.dataErr l y
    else if a.last then s.aeadPacket l f y [a]
    else match y.takeSlot l.g with
    | none => s.waits
    | some (b, z) =>
      if b.dataErr then s.dataErr l z
      else if b.last then s.aeadPacket l f z [a, b]
      else (s.setStage l.ix z).insnFault l Code.formatError

/-- AEADD (R65, R157). -/
def execAeadd (l : Loc) (f : Fields) (s : State) : Result :=
  .next (s.issue l 0x81 f { stages := [St.aead], dst := .t, sa := .t, hints := [0, 2] } (fun x =>
    if f.hint = 2 then s.aeadSlots l f x else s.aeadRegs l f x))

/-! ### DPN -/

/-- Elements with noise: a summand stands for the sampler's output on the words w drawn for them (notes/assumptions/2.md). -/
def noisy (w : Nat → DWord) (ring q : Nat) (t : Tile) : Table DWord :=
  if ring = 0 then halvesOf 1024 (fun i => t.h i + (w i).setWidth 32)
  else if ring = 1 then wordsOf 512 (fun i => t.w i + w i)
  else wordsOf 512 (fun i => BitVec.ofNat 64 (((t.w i).toNat + (w i).toNat) % q))

/-- DPN (R157, R427). -/
def execDpn (l : Loc) (f : Fields) (s : State) : Result :=
  let ring := f.imf 1 0
  .next (s.issue l 0x82 f
    { stages := [St.add], dst := .t, sa := .t, sb := .s, qsel := decide (ring = 2), hints := [0, 2], imm := 3
      extra := decide (ring ≠ 3) } (fun x =>
    let q := (x.qr f.qsel).toNat
    if x.sr f.b = 0 ∨ (ring = 2 ∧ q = 0) then s.insnFault l Code.formatError
    else match s.entPort with
    | .stall => s.waits
    | .refused => s.stageFault l ⟨Code.entropyUnavailable, Origin.keyPort, 0, 0, false⟩
    | .served =>
      s.operands l f x [] (some f.d) (fun t y =>
        let p := Port.add (iNum l.d l.s)
        (s.draw p 1024).retire l (y.setT f.d { t with words := noisy (s.drawn p) ring q t }))))

end Sys2Proof.Machine
end

