-- ==== Sys2Proof/Machine/MemOps.lean ====
section
/-! DEFINITION. Descriptors (R113) and a stage's accesses to memory (R542), cipher-table entries (R114), and the meanings
of LDT, STT, QPOP, SEND and RECV (R145–R148). -/

namespace Sys2Proof.Machine

/-! ### Descriptors -/

/-- A memory descriptor (R113). -/
structure Desc where
  kind   : Nat
  index  : Nat
  stride : Nat
  length : Nat
  base   : Nat
deriving DecidableEq, Repr

def Desc.of (v : QWord) : Desc :=
  let n := v.toNat
  ⟨n / 2 ^ 120, n / 2 ^ 112 % 256, n / 2 ^ 96 % 2 ^ 16, n / 2 ^ 48 % 2 ^ 48, n % 2 ^ 48⟩

/-- Entries of a strand's cipher table (R114). -/
def cipherEntries (st : Nat) : Nat := if strandKind st = 1 then 64 else 16

/-- The descriptor suits an instruction that takes these kinds, for n consecutive table entries (R113); one that is not
STRIDED and has a STRIDE does not (DESIGN CHOICE, notes/assumptions/103.md). -/
def Desc.ok (d : Desc) (st n : Nat) (kinds : List Nat) : Bool :=
  kinds.contains d.kind &&
  (if d.kind = 3 then decide (d.index + n ≤ cipherEntries st) else d.index == 0) &&
  (if d.kind = 2 then decide (0 < d.stride) else d.stride == 0)

/-- Lines of a tile of `size` bytes at offset o, or none outside the extent (R113, R145). -/
def Desc.lines (d : Desc) (o size : Nat) : Option (List Nat) :=
  if d.kind = 2 then
    (if o / 64 + size / 64 ≤ d.length / 64 then
      some ((List.range (size / 64)).map (fun k => d.base + (o / 64 + k) * d.stride * 64)) else none)
  else if o + size ≤ d.length then some ((List.range (size / 64)).map (fun k => d.base + o + 64 * k))
  else none

/-! ### Accesses of a stage -/

end Sys2Proof.Machine

namespace Sys2Proof

/-- The requester a stage is (R33). -/
def Loc.req (l : Loc) : Requester := .strand l.die l.strand

end Sys2Proof

namespace Sys2Proof.Machine

/-- What a run of line accesses gives: bytes read, the fault of the line that failed, whether a line waits, and how many
lines are done. -/
structure Run where
  st    : State
  data  : Bytes
  err   : Option FaultInfo
  stall : Bool
  lines : Nat
deriving DecidableEq, Repr

/-- Line accesses in order, reads (none) and writes (some); the run ends at the first that fails (R542). -/
def State.runLines (s : State) (r : Requester) (fold : Bool) : List (Nat × Option Bytes) → Run
  | [] => ⟨s, [], none, false, 0⟩
  | (a, w) :: as =>
    let x := match w with
      | none => s.readLine r a fold
      | some d => s.writeLine r a d fold
    if x.stall then ⟨x.st, [], none, true, 0⟩
    else if x.code ≠ Code.ok then ⟨x.st, [], some (.mem x.code a), false, 0⟩
    else
      let y := x.st.runLines r fold as
      { y with data := x.data ++ y.data, lines := y.lines + 1 }

/-- The lines of a read of n bytes at a line-aligned address. -/
def readOps (a n : Nat) : List (Nat × Option Bytes) := (linesOf a n).map (fun x => (x, none))
/-- The pieces of a write. -/
def writeOps (a : Nat) (d : Bytes) : List (Nat × Option Bytes) :=
  (pieces (d.length / 64 + 2) a d).map (fun p => (p.1, some p.2))

/-- A stage faults on a memory access; where the failure has already stopped and unbound its strand (R392), only the
event record of the fault remains to be written. `s0` is the state before the access. -/
def State.memFault (s s0 : State) (l : Loc) (f : FaultInfo) : State :=
  if s.bound l.d l.s then s.stageFault l f
  else (s.post 1 ⟨0, 1, f.code, 0x10 + l.d, 0, l.d, l.s, l.g, some (s0.sctx l.d l.s), f.addr,
    f.origin + ((s0.stage l.ix).pc % 16384) * 2 ^ 16⟩).done f.code

/-- The outcome of a run: it waits, it faults (after `undone`), or the instruction goes on. -/
def Run.cont (x : Run) (s0 : State) (l : Loc) (undone : State → Bytes → State) (k : State → Bytes → State) : State :=
  if x.stall then x.st.waits
  else match x.err with
  | some f => (undone x.st x.data).memFault s0 l f
  | none => k x.st x.data

/-- An address of HBM. -/
def State.isHbm (s : State) (a : Nat) : Bool :=
  match place s.part a with
  | .hbm _ _ => true
  | .metadata _ => true
  | _ => false

/-- The stage reaches banks only (R140). -/
def bankOnly (l : Loc) : Bool := decide (l.name < 4)

/-! ### Cipher table -/

/-- An entry of the strand's cipher table. -/
def State.cipher (s : State) (l : Loc) (i : Nat) : BitVec 512 := (s.strand (strandIx l.d l.s)).cipher.get (fun _ => 0) i
/-- A whole entry is written (R114). -/
def State.setCipher (s : State) (l : Loc) (i : Nat) (v : BitVec 512) : State :=
  let x := s.strand (strandIx l.d l.s)
  s.setStrand (strandIx l.d l.s) { x with cipher := x.cipher.put (fun _ => 0) i v }

/-- POISON of an entry (R115). -/
def poisoned (v : BitVec 512) : Bool := v.getLsbD 48

/-- A line of a region registered with Tideway (R131). -/
def State.inRegion (s : State) (a n : Nat) : Bool :=
  s.regions.any (fun e => e.2.st ≠ 0 ∧ e.2.base.toNat < a + n ∧ a < e.2.base.toNat + e.2.length.toNat)

/-- A release is refused and counted against the context (R131, R225). -/
def State.refuseRelease (s : State) (l : Loc) : State :=
  let c := s.sctx l.d l.s
  (s.setCtx c { s.ctx c with poisoned := (s.ctx c).poisoned + 1 }).insnFault l Code.poisonedOperand

/-! ### LDT and STT -/

/-- FMT applies on CONVERT for loads and on ROUND for stores. -/
def ldtShape (l : Loc) : Shape :=
  { stages := [0, 1, 2, 3, 4, 8, 16], dst := .t, sa := .d, sb := .s, fmt := decide (l.name = St.convert)
    hints := [0, 1], imm := 0xFFFFFF }
def sttShape (l : Loc) : Shape :=
  { stages := [0, 1, 2, 3, 4, 15, 19], dst := .d, sa := .t, sb := .s, fmt := decide (l.name = St.round)
    rnd := decide (l.name = St.round), hints := [0, 1, 3], imm := 0xFFFFFF }

/-- Bytes a tile load or store moves (R145). -/
def moveSize (l : Loc) (f : Fields) : Nat := if l.kind = 2 then 4096 * fmtSize f.fmt else l.tbytes

/-- The words of a loaded tile: as read, or converted to FP32 on CONVERT. -/
def loadedWords (l : Loc) (f : Fields) (b : Bytes) : Table DWord :=
  if l.kind = 2 then
    f32Words (fun i => toF32 f.fmt (fromLE ((b.drop (fmtSize f.fmt * i)).take (fmtSize f.fmt))))
  else wordsOfBytes b

/-- LDT of a tile over the lines `ls`; a failure delivers the lines read before it and leaves the rest open, and a
failure of the first line under ACCESS_BOUNDS leaves the destination as it was (R126, R542). -/
def State.loadTile (s : State) (l : Loc) (f : Fields) (x : Stage) (ls : List Nat) : State :=
  let n := moveSize l f
  let tile := fun b => Tile.fresh l.tbytes (loadedWords l f b)
  let r := s.runLines l.req false (ls.map (fun a => (a, none)))
  r.cont s l
    (fun t b =>
      if b = [] ∧ r.err.map (fun e => e.code) = some Code.accessBounds ∨ t.bound l.d l.s = false then t
      else (t.setStage l.ix (x.setT f.d (tile (b ++ (t.freeBytes (n / 8)).drop b.length)))).took (n / 8))
    (fun t b => t.retire l (x.setT f.d (tile b)))

/-- The offset S[SB] + IMM × 64 of a tile. -/
def Stage.offset (x : Stage) (f : Fields) : Nat := (x.sr f.b).toNat + f.i * 64

/-- The bytes STT stores: the tile, or its elements rounded to FMT on ROUND. -/
def storedBytes (s : State) (l : Loc) (f : Fields) (t : Tile) : Bytes :=
  if l.kind = 2 then (cvtOut f.fmt f.rnd (s.guarded l) t).bytes (moveSize l f) else t.bytes l.tbytes

/-- The bytes of a tile cut into lines at the given addresses. -/
def tileOps (b : Bytes) (ls : List Nat) : List (Nat × Option Bytes) :=
  (List.range ls.length).map (fun k => (ls.getD k 0, some ((b.drop (64 * k)).take 64)))

/-- A recovery replay ends, and with it the forcing of GUARDED mode, once ROUND has stored a tile with LAST set (R90,
R479). -/
def State.endReplay (s : State) (l : Loc) (last : Bool) : State :=
  let x := s.strand (strandIx l.d l.s)
  if last ∧ x.replay then
    (s.setStrand (strandIx l.d l.s) { x with forced := false, replay := false }).setFld (Reg.strandStat l.d l.s) 25 25
      (s.fld (Reg.strandCtl l.d l.s) 28 28)
  else s

/-- STT of a tile over the lines `ls`; on ROUND the flags of the SA tile are raised (R91, R145). A tile with an
uncorrectable word stores the lines before it (R126, R542). -/
def State.storeTile (s : State) (l : Loc) (f : Fields) (x : Stage) (ls : List Nat) : State :=
  let t := x.tr f.a
  let g := if l.kind = 2 then cvtFlags f.fmt f.rnd (s.guarded l) t else (false, false)
  let y := x.raiseFlags f.a g.1 g.2
  let whole := match t.bad with
    | none => ls.length
    | some p => (if l.kind = 2 then 4 * p * fmtSize f.fmt else 16 * p) / 64
  (s.runLines l.req false (tileOps (storedBytes s l f t) (ls.take whole))).cont s l (fun u _ => u)
    (fun u _ =>
      if t.bad.isSome then u.badTile l x f.a none 0 x
      else if l.kind = 2 then ((u.retire l y).fsatRefresh l).endReplay l t.last else u.retire l y)

/-- An STT with HINT = EXPORT of a C-strand has exported the object whose header lies at the address (R256). -/
def State.noteExport (s : State) (l : Loc) (f : Fields) (a : Nat) : State :=
  let c := s.sctx l.d l.s
  if f.hint = 3 ∧ 4 ≤ l.s ∧ l.s < 10 then s.setCtx c { s.ctx c with exports := a :: (s.ctx c).exports } else s

/-- STT (R131, R145); through a CIPHER descriptor it does not count as an instruction that reads a descriptor, so the entry it
stores goes through no header check (DESIGN CHOICE, notes/assumptions/134.md). -/
def execStt (l : Loc) (f : Fields) (s : State) : Result :=
  .next (s.issue l 0x41 f (sttShape l) (fun x =>
    let d := Desc.of (x.dr f.d)
    let o := x.offset f
    if ¬ d.ok l.s 1 [1, 2, 3] then s.insnFault l Code.formatError
    else if d.kind = 3 then
      if f.b ≠ 0 ∨ f.i ≠ 0 then s.insnFault l Code.formatError
      else if d.length < 64 ∨ (bankOnly l ∧ s.isHbm d.base) then s.stageFault l (.mem Code.accessBounds d.base)
      else if poisoned (s.cipher l d.index) ∧ (f.hint = 3 ∨ s.inRegion d.base 64) then s.refuseRelease l
      else
        (s.runLines l.req false (writeOps d.base (le 64 (s.cipher l d.index).toNat))).cont s l (fun u _ => u)
          (fun u _ => (u.noteExport l f d.base).retire l x)
    else if o % 64 ≠ 0 then s.insnFault l Code.formatError
    else match d.lines o (moveSize l f) with
    | none => s.stageFault l (.mem Code.accessBounds d.base)
    | some ls =>
      if bankOnly l ∧ ls.any s.isHbm then s.stageFault l (.mem Code.accessBounds d.base)
      else s.storeTile l f x ls))

/-! ### QPOP -/

/-- Fields of a head slot (R82): LENGTH, STATUS, SESSION. -/
def Pkt.length (p : Pkt) : Nat := p.h0.toNat % 2 ^ 16
def Pkt.status (p : Pkt) : Nat := p.h0.toNat / 2 ^ 16 % 2 ^ 8
def Pkt.session (p : Pkt) : Nat := p.h0.toNat / 2 ^ 32 % 2 ^ 22
/-- Payload bytes of an AIP packet. -/
def Pkt.payload (p : Pkt) : Nat := p.body.length - 48
def Pkt.sketch (p : Pkt) : Bool := decide (field p.body 1 1 = 4)

/-- The shard entry of a packet: OPEN, with the packet's SHARD (R64). -/
def State.openEntry (s : State) (d st : Nat) (p : Pkt) : Option Nat :=
  (List.range 4).find? (fun j => decide (s.fld (Reg.shtCtl d st j) 31 30 = 1 ∧
    s.fld (Reg.shtCtl d st j) 23 0 = fromBE (sub p.body 16 3)))

/-- Element size of a packet of entry j (R64). -/
def State.elemSize (s : State) (d st j : Nat) (p : Pkt) : Nat :=
  if p.sketch ∨ s.fld (Reg.shtChunk d st j) 25 24 ≠ 0 then 8 else 4

/-- The header check of R64. -/
def State.headerOk (s : State) (d st : Nat) (p : Pkt) : Bool :=
  let b := p.body
  match s.openEntry d st p with
  | none => false
  | some j =>
    let es := s.elemSize d st j p
    let unit := s.fld (Reg.shtChunk d st j) 13 0 / es
    let off := fromBE (sub b 20 4)
    let lim := if p.sketch then 2 ^ (s.fld (Reg.shtChunk d st j) 20 16 + 1) else s.fld (Reg.shtElems d st j) 28 0
    decide (48 < b.length) && decide (field b 0 1 = 1) && decide (field b 1 1 = 4 ∨ field b 1 1 = 5) &&
    decide (fromBE (sub b 12 4) = (s.curRound (s.sctx d st)).toNat) &&
    decide (fromBE (sub b 24 2) = b.length) && decide (p.payload ≤ 8192) && decide (p.payload % es = 0) &&
    decide (0 < unit) && decide (off % unit = 0) && decide (off + p.payload / es ≤ lim)

/-- The counter of a packet that INTAKE discards (R64): DISCARD_STATUS or HDR_ERR. -/
def State.intakeDiscards (s : State) (d st : Nat) (p : Pkt) : Option Nat :=
  if p.status ≠ 0 then some 0x10 else if s.headerOk d st p then none else some 0x14

/-- A packet is popped: its read words are owed to the writer of an ingress queue (R81), and the words its read corrected are
counted by the queue (R56). -/
def State.pop (s : State) (q : Nat) (p : Pkt) (rest : List Pkt) : State :=
  let x := s.queue q
  s.setQueue q { x with pkts := rest, ce := x.ce + p.fixed, unret := if q < 16 then x.unret + p.words else 0 }

/-- Packets at the front of the ingress queue that fail a check are popped, counted and dropped (R147). -/
def State.discardBad (s : State) (l : Loc) : List Pkt → State
  | [] => s
  | p :: ps =>
    match s.intakeDiscards l.d l.s p with
    | some o => (((s.pop (iNum l.d l.s) p ps).iCount64 l 0x00).iCount l o).discardBad l ps
    | none => s

/-- The queue that IMM[1:0] names (R146). -/
def popQueue (l : Loc) (n : Nat) : Nat :=
  if n = 0 then iNum l.d l.s else if n = 1 then 100 + strandIx l.d l.s else 200 + strandIx l.d l.s

/-- Head words into S[SA], S[SA + 1], S[SA + 2] (R146). -/
def Stage.headWords (x : Stage) (a : Nat) (p : Pkt) : Stage := ((x.setS a p.h0).setS (a + 1) p.h1).setS (a + 2) p.h2

/-- Tiles of an ingress packet of entry j (R147). -/
def State.ingressTiles (s : State) (l : Loc) (j : Nat) (p : Pkt) : List Tile :=
  let n := (p.payload + 4095) / 4096
  let es := s.elemSize l.d l.s j p
  let off := fromBE (sub p.body 20 4)
  let side := BitVec.ofNat 384 (fromLE (p.body.take 32 ++ p.body.drop (p.body.length - 16)))
  (List.range n).map (fun k =>
    let part := ((sub p.body 32 p.payload).drop (4096 * k)).take 4096
    { Tile.zero with
      last := decide (k + 1 = n)
      vcnt := BitVec.ofNat 16 part.length
      tag := BitVec.ofNat 64 ((off + k * 4096 / es) % 2 ^ 32 + p.session * 2 ^ 32)
      side := side
      words := wordsOfBytes part })

/-- Tiles of a Tideway packet: the bytes after the head slot (R147). -/
def plainPktTiles (l : Loc) (p : Pkt) : List Tile :=
  (List.range ((p.body.length + l.tbytes - 1) / l.tbytes)).map (fun k =>
    let part := (p.body.drop (l.tbytes * k)).take l.tbytes
    Tile.fresh part.length (wordsOfBytes part))

/-- A packet with an uncorrectable word is popped, the word is reported, and the stage faults (R57, R97, R126). -/
def State.popBadWord (s : State) (l : Loc) (f : Fields) (x : Stage) (q : Nat) (p : Pkt) (ps : List Pkt) (n : Nat) : State :=
  let s1 := if q < 16 then (s.pop q p ps).iCount64 l 0x00 else s.pop q p ps
  let y := x.putTiles f.d ((List.range n).map (fun k =>
    { Tile.zero with words := wordsOf l.words (fun i => Config.freeValue (s.freeCtr + k * l.words + i)) }))
  (((s1.setStage l.ix y).took (n * l.words)).wordUe l).stageFault l ⟨Code.eccUncorrectable, Origin.ingress, 0, 0, false⟩

/-- The oldest packet of queue q is popped into the stage's registers. -/
def State.popInto (s : State) (l : Loc) (f : Fields) (x : Stage) (q : Nat) (p : Pkt) (ps : List Pkt) : State :=
  let j := (s.openEntry l.d l.s p).getD 0
  let ts := if q < 16 then s.ingressTiles l j p else plainPktTiles l p
  if l.tregs < f.d + ts.length then s.insnFault l Code.formatError
  else if p.bad then s.popBadWord l f x q p ps ts.length
  else
    let y := (x.headWords f.a p).putTiles f.d ts
    let z := if f.imf 4 4 = 1 then y.setP 6 true else y
    let s1 := s.pop q p ps
    let s2 := if q < 16 then s1.iCount64 l 0x00 else s1
    let s3 := if q < 16 ∧ ¬ p.sketch then s2.setFld (Reg.shtFlight l.d l.s j) 7 0 (min 255 (s2.inflight l.d l.s j + 1)) else s2
    s3.retire l z

/-- QPOP (R146, R147); a draining strand takes no input (R85, R94). -/
def execQpop (l : Loc) (f : Fields) (s : State) : Result :=
  let n := f.imf 1 0
  .next (s.issue l 0x42 f
    { stages := [St.intake, St.load, St.convert], dst := .t, sa := .s, imm := 0x13
      extra := decide (n ≠ 3) && (decide (n ≠ 0) || decide (l.name = St.intake)) && decide (f.a ≤ 29) } (fun x =>
    let q := popQueue l n
    let idle := s.sst l.d l.s = SS.draining
    let s1 := if idle ∨ n ≠ 0 then s else s.discardBad l (s.queue q).pkts
    match (if idle then [] else (s1.queue q).pkts) with
    | [] => if f.imf 4 4 = 1 then s1.retire l (x.setP 6 false) else s1.waits
    | p :: ps => s1.popInto l f x q p ps))

/-! ### SEND and RECV -/

/-- A tile leaves on the output channel (R75, R118). -/
def State.sendTile (s : State) (l : Loc) (f : Fields) (x : Stage) (t : Tile) : State :=
  let u := { t with dest := BitVec.ofNat 8 (f.imf 2 0), last := decide (f.imf 3 3 = 1) }
  s.retire l { x with chan := x.chan ++ [u], credits := x.credits - 1, fwdLast := false }

/-- A forwarded tile waits for the output channel as well, and it is its turn (R77). -/
def Stage.fwdTurn (x : Stage) (g : Nat) : Bool := !x.fwdLast && x.slots.any (fun t => decide (g < t.dest.toNat))

/-- SEND (R77, R118, R119, R148). -/
def execSend (l : Loc) (f : Fields) (s : State) : Result :=
  .next (s.issue l 0x43 f
    { stages := [0, 1, 2, 3, 8, 9, 10, 11, 12, 13, 14, 16, 17, 18], sa := .t, hints := [0, 2], imm := 0xF
      extra := decide (l.g < f.imf 2 0) && decide (f.imf 2 0 < kindStages l.kind) } (fun x =>
    if x.credits = 0 ∨ 0 < x.fence ∨ x.fwdTurn l.g then s.waits
    else s.operands l f x [] none (fun t y => s.sendTile l f y t)))

/-- RECV (R118, R137). -/
def execRecv (l : Loc) (f : Fields) (s : State) : Result :=
  .next (s.issue l 0x44 f
    { stages := [1, 2, 3, 4, 9, 10, 11, 12, 13, 14, 15, 17, 18, 19], dst := .t } (fun x =>
    s.withSlot l x (fun t y => s.retire l (y.setT f.d t))))

end Sys2Proof.Machine
end

