-- ==== Sys2Proof/Machine/Profile.lean ====
section
/-! DEFINITION. Signed objects (R522–R525), recipe images (R102, R105, R106) and profiles (R529, R530). -/

namespace Sys2Proof.Machine

/-- Every byte of a field is zero. -/
def zeroAt (b : Bytes) (o n : Nat) : Bool := (sub b o n).all (fun x => x = 0)

/-- The 48 bytes of a SHA-384 digest. -/
def shaBytes (b : Bytes) : Bytes := be 48 (Config.sha384 b).toNat

/-- A digest as the MEAS page shows it: 12 words, little-endian (R527). -/
def State.setDigest (s : State) (a : Nat) (d : BitVec 384) : State :=
  (List.range 12).foldl (fun t i => t.setReg (a + 4 * i) (BitVec.ofNat 32 (fromLE (sub (be 48 d.toNat) (4 * i) 4)))) s

/-! ### Signed objects -/

end Sys2Proof.Machine

namespace Sys2Proof

open Machine

def SignedObj.kind (o : SignedObj) : Nat := field o.header 4 1
def SignedObj.keyset (o : SignedObj) : Nat := field o.header 5 1
def SignedObj.version (o : SignedObj) : Nat := field o.header 6 2
def SignedObj.svn (o : SignedObj) : Nat := field o.header 8 4
/-- Bytes of the whole object (R522). -/
def SignedObj.size (o : SignedObj) : Nat := o.header.length + o.body.length + o.ecdsa.length + o.lms.length

/-- Every field in range, every reserved byte zero, and the body's digest right (R522, R523). -/
def SignedObj.fieldsOk (o : SignedObj) : Bool :=
  decide (o.header.length = 128) && decide (o.ecdsa.length = 96) && decide (field o.header 0 4 = 0x534F424A) &&
  decide (1 ≤ o.kind ∧ o.kind ≤ 4) && decide (o.keyset ≤ 3) && decide (o.svn ≤ 63) &&
  decide (field o.header 0xC 4 = o.body.length) && decide (field o.header 0x10 4 = o.lms.length) &&
  zeroAt o.header 0x14 12 && zeroAt o.header 0x50 48 && decide (sub o.header 0x20 48 = shaBytes o.body)

/-- Both signatures verify under a pair of public keys (R523). -/
def SignedObj.signedBy (o : SignedObj) (ec lms : Bytes) : Bool :=
  Config.ecdsaOk ec o.header o.ecdsa && Config.lmsOk lms o.header o.lms

/-- Object x is tried before object y: higher SVN, then higher VERSION (R525). -/
def SignedObj.before (x y : SignedObj) : Bool := decide (y.svn < x.svn) || (decide (y.svn = x.svn) && decide (y.version ≤ x.version))

end Sys2Proof

namespace Sys2Proof.Machine

/-- Signed under a Plostad key set that KEYSET_REV has not revoked (R523). -/
def State.plostadSigned (s : State) (o : SignedObj) : Bool :=
  decide (s.boot.fuses.keyset.toNat ≤ o.keyset) &&
  o.signedBy (Config.bootKeys o.keyset).1 (Config.bootKeys o.keyset).2

/-- The fused rollback counter of an image kind (R524). -/
def State.rollback (s : State) (kind : Nat) : Nat :=
  if kind = 1 then s.boot.fuses.rbFs else if kind = 2 then s.boot.fuses.rbHub
  else if kind = 3 then s.boot.fuses.rbDaxna else 0

/-- A boot image verifies (R523, R524). -/
def State.imageOk (s : State) (kind : Nat) (o : SignedObj) : Bool :=
  o.fieldsOk && decide (o.kind = kind) && s.plostadSigned o && decide (s.rollback kind ≤ o.svn)

/-- Flash object of a slot: 0–1, 2–3, 4–5 images of KIND 1, 2, 3; 6–9 profiles. -/
def State.flashObj (s : State) (slot : Nat) : Option SignedObj := s.boot.flash.get (fun _ => none) slot
def State.setFlashObj (s : State) (slot : Nat) (o : SignedObj) : State :=
  { s with boot := { s.boot with flash := s.boot.flash.put (fun _ => none) slot (some o) } }

/-- The slot (0 A, 1 B) and image of a kind that the loader takes, if one verifies (R525). -/
def State.pickImage (s : State) (kind : Nat) : Option (Nat × SignedObj) :=
  let ok (n : Nat) : Option (Nat × SignedObj) :=
    match s.flashObj (2 * (kind - 1) + n) with
    | some o => if s.imageOk kind o then some (n, o) else none
    | none => none
  match ok 0, ok 1 with
  | some a, some b => some (if a.2.before b.2 then a else b)
  | some a, none => some a
  | none, r => r

/-! ### Recipe images -/

/-- Entry of the stage table: CODE_OFF, CODE_WORDS, FVEC_OFF, FVEC_N (R102). -/
def recipeCodeOff (b : Bytes) (g : Nat) : Nat := field b (0x40 + 16 * g) 4
def recipeWords (b : Bytes) (g : Nat) : Nat := field b (0x44 + 16 * g) 4
def recipeFvecOff (b : Bytes) (g : Nat) : Nat := field b (0x48 + 16 * g) 4
def recipeFvecN (b : Bytes) (g : Nat) : Nat := field b (0x4C + 16 * g) 1

/-- Code word i of a stage. -/
def recipeWord (b : Bytes) (g i : Nat) : DWord := BitVec.ofNat 64 (field b (recipeCodeOff b g + 8 * i) 8)
/-- Fault-vector entry i of a stage: code and handler PC. -/
def recipeFvec (b : Bytes) (g i : Nat) : Byte × Nat :=
  (BitVec.ofNat 8 (field b (recipeFvecOff b g + 4 * i) 1), field b (recipeFvecOff b g + 4 * i + 2) 2)

/-- The stage's part of the checks of R105 on an image of IMG_LEN bytes. -/
def recipeStageOk (b : Bytes) (len g : Nat) : Bool :=
  decide (1 ≤ recipeWords b g ∧ recipeWords b g ≤ 16384) && decide (recipeFvecN b g ≤ 8) &&
  decide (recipeCodeOff b g % 64 = 0) && zeroAt b (0x4D + 16 * g) 3 &&
  decide (recipeCodeOff b g + 8 * recipeWords b g ≤ len) && decide (recipeFvecOff b g + 4 * recipeFvecN b g ≤ len) &&
  (List.range (recipeFvecN b g)).all (fun i =>
    (handleableTrap (recipeFvec b g i).1) && decide (field b (recipeFvecOff b g + 4 * i + 1) 1 = 0) &&
    decide ((recipeFvec b g i).2 < recipeWords b g))

/-- The header and stage checks of R105 for a strand kind. -/
def recipeOk (b : Bytes) (kind : Nat) : Bool :=
  let len := field b 8 4
  decide (field b 0 4 = 0x47524431) && decide (field b 4 2 = 1) && decide (field b 6 1 = kind) &&
  decide (field b 7 1 = kindStages kind) && decide (field b 0xC 4 = 0) && decide (0x40 + 16 * kindStages kind ≤ len) &&
  (List.range (kindStages kind)).all (recipeStageOk b len)

/-- A stage digest (R106). -/
def stageDigest (b : Bytes) (g : Nat) : Bytes :=
  shaBytes (sub b 6 1 ++ le 1 g ++ le 4 (recipeWords b g) ++ sub b (recipeCodeOff b g) (8 * recipeWords b g) ++
    le 1 (recipeFvecN b g) ++ sub b (recipeFvecOff b g) (4 * recipeFvecN b g))

/-- The recipe digest (R106). -/
def recipeDigest (b : Bytes) (kind : Nat) : Bytes :=
  shaBytes (sub b 0 64 ++ ((List.range (kindStages kind)).map (stageDigest b)).flatten)

/-! ### Profiles -/

/-- The topology has port p (R324): both directions of a dimension of size 3 or more, + alone of size 2. -/
def topoPort (t p : Nat) : Bool :=
  if p % 2 = 0 then decide (2 ≤ topoDim t (p / 2)) else decide (3 ≤ topoDim t (p / 2))

/-- Reserved fields and counts in range. -/
def pfFieldsOk (b : Bytes) : Bool :=
  decide (field b 0 4 = 0x50524631) && decide (field b 4 2 = 1) && zeroAt b 6 2 && zeroAt b 0x38 8 &&
  decide (field b 0x40 4 % 2 ^ 24 = 0) && decide (1 ≤ pfCtxMax b ∧ pfCtxMax b ≤ 16) && decide (pfRecipeN b ≤ 16) &&
  decide (pfEthN b ≤ 32) && zeroAt b 0x57 1 && decide (field b 0xAE 1 ≤ 64) && zeroAt b 0xAF 1 && zeroAt b 0xC0 64 &&
  zeroAt b 0x561 7 && zeroAt b 0x5A0 96 &&
  decide (pfTopo b / 2 ^ 14 % 16 = 0) && decide (pfTopo b % 2 ^ 14 < topoDim (pfTopo b) 0 * topoDim (pfTopo b) 1 * topoDim (pfTopo b) 2)

/-- The lane map names only lanes the part has, and at most 8 Ethernet lanes on a light die (R7, R304). -/
def pfLanesOk (p : Part) (b : Bytes) : Bool :=
  (List.range 64).all (fun k => decide (pfLane b k ≠ 3) && (decide (k < 16 * p.ldCount) || decide (pfLane b k = 0))) &&
  (List.range 4).all (fun l => decide (((List.range 16).filter (fun n => pfLane b (16 * l + n) = 1)).length ≤ 8))

/-- Bundles serve exactly the topology's ports, over TIDEWAY lanes that no other bundle has (R315). -/
def pfBundlesOk (b : Bytes) : Bool :=
  (List.range 6).all (fun p =>
    decide (pfBundle b p / 2 ^ 30 % 2 = 0) && decide (pfBundle b p / 2 ^ 16 % 2 ^ 12 = 0) &&
    (pfBundleOn b p == topoPort (pfTopo b) p) &&
    (!pfBundleOn b p || (decide (pfBundleLanes b p ≠ []) && (pfBundleLanes b p).all (fun k => decide (pfLane b k = 2)))) &&
    (List.range 6).all (fun q => decide (p = q) || !pfBundleOn b p || !pfBundleOn b q ||
      (pfBundleLanes b p).all (fun k => decide (k ∉ pfBundleLanes b q))))

/-- Each Ethernet lane has exactly one entry and each entry names an Ethernet lane (R530). -/
def pfEthOk (b : Bytes) : Bool :=
  let named := (List.range (pfEthN b)).map (fun i => field b (0x100 + 32 * i) 1)
  decide named.Nodup && named.all (fun k => decide (k < 64 ∧ pfLane b k = 1)) &&
  (List.range 64).all (fun k => decide (pfLane b k ≠ 1) || decide (k ∈ named)) &&
  (List.range (pfEthN b)).all (fun i => zeroAt b (0x100 + 32 * i + 10) 2 && decide (field b (0x100 + 32 * i + 1) 1 < 4))

/-- The tables of a profile on a part: base, size, alignment, compute die (R290, R340, R350, R530). -/
def pfTables (p : Part) (b : Bytes) : List (Nat × Nat × Nat × Nat) :=
  (List.range p.ldCount).map (fun l => (pfEstTbl b l, 160 * 2 ^ 20, 2 ^ 21, l)) ++
  (List.range p.ldCount).map (fun l => (pfCnBase b l, 4 * 2 ^ 20, 2 ^ 22, l)) ++ [(pfRgBase b, 32 * 2 ^ 20, 2 ^ 25, 0)]

/-- A table lies aligned in the HBM data range of its die. -/
def tableIn (p : Part) (t : Nat × Nat × Nat × Nat) : Bool :=
  decide (t.1 % t.2.2.1 = 0 ∧ t.2.2.2 * p.block ≤ t.1 ∧ t.1 + t.2.1 ≤ t.2.2.2 * p.block + p.dataSize)

def pfTablesOk (p : Part) (b : Bytes) : Bool :=
  (pfTables p b).all (tableIn p) &&
  (pfTables p b).all (fun t => decide (((pfTables p b).filter (fun u => t.1 < u.1 + u.2.1 ∧ u.1 < t.1 + t.2.1)).length = 1))

/-- Recipe i of the profile: its image, role and kind (R529). -/
def pfRecipe (b : Bytes) (i : Nat) : Bytes := sub b (field b (0x600 + 64 * i + 4) 4) (field b (0x600 + 64 * i + 8) 4)
def pfRecipesOk (b : Bytes) : Bool :=
  (List.range (pfRecipeN b)).all (fun i =>
    let o := 0x600 + 64 * i
    decide (1 ≤ field b o 1 ∧ field b o 1 ≤ 5) && decide (field b (o + 1) 1 ≤ 2) && zeroAt b (o + 2) 2 && zeroAt b (o + 12) 4 &&
    decide (field b (o + 4) 4 % 64 = 0) && decide (0xA00 ≤ field b (o + 4) 4) &&
    decide (field b (o + 4) 4 + field b (o + 8) 4 ≤ b.length) &&
    decide (recipeDigest (pfRecipe b i) (field b (o + 1) 1) = sub b (o + 16) 48))

/-- Signer of profiles and of LIFECYCLE envelopes in the present state (R530, R533). -/
def State.profileSigned (s : State) (o : SignedObj) : Bool :=
  if s.lc ≤ 1 then s.plostadSigned o
  else if s.lc ≤ 3 then (match s.boot.owner with | some k => o.signedBy k.1 k.2 | none => false)
  else false

/-- A profile verifies (R523). -/
def State.profileVerifies (s : State) (o : SignedObj) : Bool :=
  o.fieldsOk && decide (o.kind = 4) && s.profileSigned o && decide (o.size ≤ 16 * 2 ^ 20)

/-- The contents of a profile suit the part (R530). -/
def profileFits (p : Part) (b : Bytes) : Bool :=
  decide (0xA00 ≤ b.length) && pfFieldsOk b && pfLanesOk p b && pfBundlesOk b && pfEthOk b && pfTablesOk p b && pfRecipesOk b

/-- Loading a profile: its values reach the registers that R529 names. -/
def State.loadProfile (s : State) (o : SignedObj) : State :=
  let b := o.body
  let s1 := ((s.setReg Reg.govCtl (BitVec.ofNat 32 (field b 0x40 4))).setReg Reg.govCap (BitVec.ofNat 32 (field b 0x44 4)))
  let s2 := s1.lds.foldl (fun t l => t.profileLd b l) s1
  { s2 with boot := { s2.boot with profile := some o } }.setDigest Reg.mProfile (Config.sha384 o.header)

end Sys2Proof.Machine
end

