-- ==== Sys2Proof/Machine/ParamSets.lean ====
section
/-! DEFINITION. Parameter sets, built-in (R179) and declared (R180–R184), the measurement log of a context (R419, R420),
and the meanings of PS_WRITE, PS_READ and PS_CLEAR. -/

namespace Sys2Proof.Machine

/-! ### Measurement log -/

/-- Bytes of a context's log, and whether an entry of n bytes fits its 256 KiB (R419). -/
def State.logUsed (s : State) (c : Nat) : Nat := ((s.ctx c).log.map (fun e => e.len)).sum
def State.logFits (s : State) (c n : Nat) : Bool := decide (s.logUsed c + n ≤ 0x40000)

/-- An entry is appended, in its place in hub SRAM too; `len` counts its 8-byte header (R419, R471). -/
def State.logAdd (s : State) (c kind len : Nat) (body : Bytes) : State :=
  let x := s.ctx c
  let b := padTo (len - 8) body
  (s.setCtx c { x with log := x.log ++ [⟨BitVec.ofNat 8 kind, len, b⟩] }).hubStore (logBase c + s.logUsed c)
    (le 1 kind ++ [0] ++ le 2 len ++ le 4 x.log.length ++ b)

/-- The 48 bytes of a digest. -/
def digestBytes (d : BitVec 384) : Bytes := be 48 d.toNat

/-- A CONFIG entry: RUNNING := SHA-384(RUNNING ‖ ITEM ‖ ITEM_DIGEST) (R420). -/
def State.logConfig (s : State) (c item die st : Nat) (round : Word) (src : Bytes) : State :=
  let x := s.ctx c
  let dg := digestBytes (Config.sha384 src)
  let run := Config.sha384 (digestBytes x.running ++ le 1 item ++ dg)
  (s.setCtx c { x with running := run }).logAdd c 6 112
    (le 1 item ++ le 1 die ++ le 1 st ++ [0] ++ le 4 round.toNat ++ dg ++ digestBytes run)

/-- The context's current round, or 0 (R420). -/
def State.roundOrZero (s : State) (c : Nat) : Word := if s.roundOpen c then s.curRound c else 0

/-! ### Parameter sets -/

/-- A parameter set (R180). -/
structure PSet where
  family  : Nat
  logn    : Nat
  limbs   : Nat
  special : Nat
  dnum    : Nat
  opsMax  : Nat
  lweN    : Nat
  lweSet  : Nat
  /-- ROM indices: LIMBS base primes, then SPECIAL special primes. -/
  primes  : List Nat
deriving DecidableEq, Repr

/-- Numbers a to b. -/
def span (a b : Nat) : List Nat := (List.range (b + 1 - a)).map (fun i => a + i)

/-- The built-in sets (R179). -/
def builtinSet (id : Nat) : Option PSet :=
  if id = 0x0001 then some ⟨1, 13, 4, 1, 4, 0, 0, 0x0010, [52, 28, 29, 30, 12]⟩
  else if id = 0x0002 then some ⟨1, 14, 8, 1, 8, 0, 0, 0x0011, 53 :: span 28 34 ++ [12]⟩
  else if id = 0x0003 then some ⟨1, 15, 16, 3, 4, 0, 0, 0x0012, 54 :: span 28 42 ++ span 12 14⟩
  else if id = 0x0004 then some ⟨1, 16, 26, 6, 4, 0, 0, 0, span 12 15 ++ span 28 49 ++ span 0 5⟩
  else if id = 0x0005 then some ⟨1, 17, 48, 12, 4, 0, 0, 0, span 16 27 ++ span 28 51 ++ span 52 63 ++ span 0 11⟩
  else if id = 0x0010 then some ⟨2, 10, 1, 0, 1, 8, 512, 0, [52]⟩
  else if id = 0x0011 then some ⟨2, 11, 1, 0, 2, 8, 768, 0, [53]⟩
  else if id = 0x0012 then some ⟨2, 12, 1, 0, 2, 16, 1024, 0, [54]⟩
  else none

/-- The set that a 128-byte record describes (R180). -/
def psetOf (b : Bytes) : PSet :=
  { family := field b 0 1, logn := field b 1 1, limbs := field b 2 1, special := field b 3 1, dnum := field b 4 1
    opsMax := field b 5 1, lweN := field b 6 2, lweSet := field b 8 2
    primes := (sub b 16 (field b 2 1 + field b 3 1)).map (fun x => x.toNat) }

/-- A declared record of a context; an empty slot holds none (R182). -/
def State.psRecord (s : State) (c i : Nat) : BitVec 1024 := s.psets.get (fun _ => 0) (c * 256 + i)

/-- The set a PARAMSET value names in a context (R115, R179, R182). -/
def State.pset (s : State) (c id : Nat) : Option PSet :=
  if id < 0x100 then builtinSet id
  else if 0x8000 ≤ id ∧ id < 0x8100 then
    let b := le 128 (s.psRecord c (id - 0x8000)).toNat
    if field b 0 1 = 0 then none else some (psetOf b)
  else none

/-- The LWE_SET of a record is 0 or names an LWE set of the context with the same PRIME[0] (R181). -/
def State.lweSetOk (s : State) (c : Nat) (p : PSet) : Bool :=
  p.lweSet == 0 ||
  (match s.pset c p.lweSet with
   | some q => decide (q.family = 2) && decide (q.primes.head? = p.primes.head?)
   | none => false)

/-- A record is valid (R180, R181). -/
def State.psetOk (s : State) (c : Nat) (b : Bytes) : Bool :=
  let p := psetOf b
  let n := p.limbs + p.special
  decide (p.family = 1 ∨ p.family = 2) &&
  (if p.family = 1 then
    decide (12 ≤ p.logn ∧ p.logn ≤ 17) && decide (1 ≤ p.limbs) && decide (p.special ≤ 16) &&
    decide (1 ≤ p.dnum ∧ p.dnum ≤ p.limbs) && decide (p.opsMax = 0 ∧ p.lweN = 0) && s.lweSetOk c p
   else
    decide (10 ≤ p.logn ∧ p.logn ≤ 12) && decide (p.limbs = 1 ∧ p.special = 0) && decide (1 ≤ p.dnum ∧ p.dnum ≤ 16) &&
    decide (1 ≤ p.opsMax) && decide (p.lweN % 64 = 0 ∧ 512 ≤ p.lweN ∧ p.lweN ≤ 2048) && decide (p.lweSet = 0)) &&
  decide (n ≤ 64) && p.primes.all (fun i => decide (i < 64)) && decide p.primes.Nodup &&
  (sub b (16 + n) (64 - n)).all (fun x => x == 0xFF) && decide (field b 10 6 = 0) && zeroAt b 80 48

/-! ### PS_CTL -/

/-- PS_DATA as it stands. -/
def State.psStaged (s : State) : Bytes := ((List.range 32).map (fun i => le 4 (s.reg (Reg.psData i)).toNat)).flatten

/-- PS_CTL takes OP, CTX and INDEX, and PS_STAT the result; GO and BUSY read 0 again (R182). -/
def State.psDone (s : State) (op c i : Nat) (code : Byte) : State :=
  let s1 := s.setReg Reg.psCtl (BitVec.ofNat 32 (op * 2 ^ 26 + c * 2 ^ 16 + i))
  (s1.setFld Reg.psStat 23 16 code.toNat).done code

/-- A strand of the context runs or drains (R183). -/
def State.ctxRuns (s : State) (c : Nat) : Bool :=
  allStrands.any (fun e => decide (s.sctx e.1 e.2 = c) &&
    decide (s.sst e.1 e.2 = SS.running ∨ s.sst e.1 e.2 = SS.draining))

/-- A slot takes a record, which joins the round-configuration digest (R182, R183, R420). -/
def State.psStore (s : State) (c i : Nat) (rec : Bytes) : State :=
  { s with psets := s.psets.put (fun _ => 0) (c * 256 + i) (BitVec.ofNat 1024 (fromLE rec)) }.logConfig c 3 0 0
    (s.roundOrZero c) (le 1 i ++ rec)

/-- PS_WRITE (R181–R183, R419); a CONFIG entry that the log does not hold answers BUSY, after the other checks (DESIGN CHOICE,
notes/assumptions/135.md). -/
def execPsWrite (ctx : Fin 16) (index : Fin 256) (s : State) : Result :=
  let c := ctx.val
  .next (if ¬ s.ctxLive c then s.psDone 0 c index.val Code.contextUnavailable
    else if s.ctxRuns c then s.psDone 0 c index.val Code.busy
    else if ¬ s.psetOk c s.psStaged then s.psDone 0 c index.val Code.formatError
    else if ¬ s.logFits c 112 then s.psDone 0 c index.val Code.busy
    else (s.psStore c index.val s.psStaged).psDone 0 c index.val Code.ok)

/-- PS_READ (R182). -/
def execPsRead (ctx : Fin 16) (index : Fin 256) (s : State) : Result :=
  let c := ctx.val
  .next (if ¬ s.ctxLive c then s.psDone 1 c index.val Code.contextUnavailable
    else
      let b := le 128 (s.psRecord c index.val).toNat
      let s1 := (List.range 32).foldl (fun t i => t.setReg (Reg.psData i) (BitVec.ofNat 32 (field b (4 * i) 4))) s
      s1.psDone 1 c index.val Code.ok)

/-- PS_CLEAR (R182, R183); a full log as in PS_WRITE (DESIGN CHOICE, notes/assumptions/135.md). -/
def execPsClear (ctx : Fin 16) (index : Fin 256) (s : State) : Result :=
  let c := ctx.val
  .next (if ¬ s.ctxLive c then s.psDone 2 c index.val Code.contextUnavailable
    else if s.ctxRuns c then s.psDone 2 c index.val Code.busy
    else if ¬ s.logFits c 112 then s.psDone 2 c index.val Code.busy
    else (s.psStore c index.val (List.replicate 128 0)).psDone 2 c index.val Code.ok)

end Sys2Proof.Machine
end

