-- ==== Sys2Proof/Machine/Cipher.lean ====
section
/-! DEFINITION. Cipher descriptors (R115, R116, R184), the ring arithmetic of rescaling, modulus switching (R177, R178)
and key switching (R226, R227), and the meanings of LDT, CMRG, RESC and MODX (R144, R145, R152, R153). -/

namespace Sys2Proof.Machine

/-! ### Headers -/

/-- A cipher descriptor (R115). -/
structure Hdr where
  typ    : Nat
  logn   : Nat
  limbs  : Nat
  level  : Nat
  scale  : Int
  flags  : Nat
  ctx    : Nat
  keytag : Nat
  pset   : Nat
  ptr    : Nat
  dnum   : Nat
  ops    : Nat
  lweN   : Nat
  ptLog  : Nat
  z29    : Nat
  len    : Nat
  z40    : Nat
deriving DecidableEq, Repr

/-- The descriptor in 64 bytes. -/
def Hdr.of (v : BitVec 512) : Hdr :=
  let n := v.toNat
  let g := fun o k => n / 2 ^ (8 * o) % 2 ^ (8 * k)
  { typ := g 0 1, logn := g 1 1, limbs := g 2 1, level := g 3 1, scale := (BitVec.ofNat 16 (g 4 2)).toInt
    flags := g 6 1, ctx := g 7 1, keytag := g 8 6, pset := g 14 2, ptr := g 16 8, dnum := g 24 1, ops := g 25 1
    lweN := g 26 2, ptLog := g 28 1, z29 := g 29 3, len := g 32 8, z40 := g 40 24 }

/-- The 64 bytes of a descriptor. -/
def Hdr.enc (h : Hdr) : BitVec 512 :=
  BitVec.ofNat 512 (fromLE (le 1 h.typ ++ le 1 h.logn ++ le 1 h.limbs ++ le 1 h.level ++
    le 2 (BitVec.ofInt 16 h.scale).toNat ++ le 1 h.flags ++ le 1 h.ctx ++ le 6 h.keytag ++ le 2 h.pset ++ le 8 h.ptr ++
    le 1 h.dnum ++ le 1 h.ops ++ le 2 h.lweN ++ le 1 h.ptLog ++ le 3 h.z29 ++ le 8 h.len ++ le 24 h.z40))

def Hdr.poison (h : Hdr) : Bool := decide (h.flags % 2 = 1)
def Hdr.ntt (h : Hdr) : Bool := decide (h.flags / 2 % 2 = 1)
def Hdr.packed (h : Hdr) : Bool := decide (h.flags / 4 % 2 = 1)
/-- FLAGS from POISON, NTT_FORM and PACKED. -/
def mkFlags (poison ntt packed : Bool) : Nat := b2n poison + 2 * b2n ntt + 4 * b2n packed

/-- DATA_LEN of a descriptor (R116). -/
def dataLen (typ logn limbs dnum lweN : Nat) : Nat :=
  if typ = 1 then 2 * limbs * 2 ^ logn * 8
  else if typ = 2 then ((lweN + 1) * limbs * 8 + 63) / 64 * 64
  else 2 * dnum * limbs * 2 ^ logn * 8

/-- Fields of a descriptor against its parameter set (R184). -/
def setFits (h : Hdr) (p : PSet) : Bool :=
  if h.typ = 1 then decide (p.family = 1 ∧ h.logn = p.logn ∧ h.limbs ≤ p.limbs ∧ h.level < h.limbs)
  else if h.typ = 2 then decide (p.family = 2 ∧ h.limbs = 1 ∧ h.lweN = p.lweN)
  else decide (h.logn = p.logn ∧ h.limbs ≤ p.limbs + p.special)

/-- Every field is in its range and every reserved one zero (R115, R116, R184). -/
def State.hdrFields (s : State) (c : Nat) (h : Hdr) : Bool :=
  decide (1 ≤ h.typ ∧ h.typ ≤ 3) && decide (1 ≤ h.limbs ∧ h.limbs ≤ 64) && decide (h.level < 64) &&
  decide (h.flags < 8 ∧ h.ctx < 16) && decide (h.ptr < 2 ^ 48 ∧ h.ptr % 64 = 0) && decide (h.ptLog ≤ 16) &&
  decide (h.ptLog = 0 ∨ h.scale = 0) && decide (h.z29 = 0 ∧ h.z40 = 0) &&
  (if h.typ = 2 then decide (h.logn = 0 ∧ h.dnum = 0 ∧ h.lweN % 64 = 0 ∧ 512 ≤ h.lweN ∧ h.lweN ≤ 2048)
   else decide (h.ops = 0 ∧ h.lweN = 0) &&
    (if h.typ = 1 then decide (h.dnum = 0 ∧ 12 ≤ h.logn ∧ h.logn ≤ 17) else decide (1 ≤ h.dnum ∧ h.dnum ≤ 64))) &&
  decide (h.len = dataLen h.typ h.logn h.limbs h.dnum h.lweN) &&
  (match s.pset c h.pset with | some p => setFits h p | none => false)

/-- The check of a descriptor (R116): the context first. -/
def State.hdrCheck (s : State) (c : Nat) (h : Hdr) : Option Byte :=
  if h.ctx % 16 ≠ c then some Code.accessBounds
  else if s.hdrFields c h then none else some Code.formatError

/-- The descriptor in an entry of the strand's table. -/
def State.hdr (s : State) (l : Loc) (i : Nat) : Hdr := Hdr.of (s.cipher l i)

/-- A cipher header is loaded into its entry, whole, once it has passed its check (R114, R116, R117, R145). -/
def State.loadHeader (s : State) (l : Loc) (x : Stage) (d : Desc) : State :=
  (s.runLines l.req false (readOps d.base 64)).cont s l (fun t _ => t)
    (fun t b =>
      let v := BitVec.ofNat 512 (fromLE b)
      match t.hdrCheck (t.sctx l.d l.s) (Hdr.of v) with
      | some e => t.insnFault l e
      | none => (t.setCipher l d.index v).retire l x)

/-- LDT (R145). -/
def execLdt (l : Loc) (f : Fields) (s : State) : Result :=
  .next (s.issue l 0x40 f (ldtShape l) (fun x =>
    let d := Desc.of (x.dr f.a)
    let o := x.offset f
    if ¬ d.ok l.s 1 [1, 2, 3] then s.insnFault l Code.formatError
    else if d.kind = 3 then
      if f.d ≠ 0 ∨ f.b ≠ 0 ∨ f.i ≠ 0 then s.insnFault l Code.formatError
      else if d.length < 64 ∨ (bankOnly l ∧ s.isHbm d.base) then s.stageFault l (.mem Code.accessBounds d.base)
      else s.loadHeader l x d
    else if o % 64 ≠ 0 then s.insnFault l Code.formatError
    else match d.lines o (moveSize l f) with
    | none => s.stageFault l (.mem Code.accessBounds d.base)
    | some ls =>
      if bankOnly l ∧ ls.any s.isHbm then s.stageFault l (.mem Code.accessBounds d.base)
      else s.loadTile l f x ls))

/-- The entries an instruction names pass their check in this order, each when it is first read (R116). -/
def State.hdrsCheck (s : State) (l : Loc) (is : List Nat) : Option Byte :=
  is.findSome? (fun i => s.hdrCheck (s.sctx l.d l.s) (s.hdr l i))

/-- An instruction writes an entry: POISON is ORed in (R117). -/
def State.putHdr (s : State) (l : Loc) (i : Nat) (h : Hdr) : State :=
  s.setCipher l i { h with flags := mkFlags (h.poison || (s.hdr l i).poison) h.ntt h.packed }.enc

/-- A descriptor with POISON set. -/
def Hdr.poisonedOf (h : Hdr) : Hdr := { h with flags := mkFlags true h.ntt h.packed }

/-! ### CMRG -/

/-- SCALE_EXP stays in its field (R223). -/
def scaleOk (v : Int) : Bool := decide (-32768 ≤ v) && decide (v ≤ 32767)

/-- The two sources of ADD or MULC agree (R153). -/
def sameShape (a b : Hdr) : Bool :=
  decide (a.keytag = b.keytag ∧ a.typ = b.typ ∧ a.logn = b.logn ∧ a.limbs = b.limbs ∧ a.pset = b.pset)

/-- SCALE_EXP of CMRG's result (R153). -/
def cmrgScale (op : Nat) (ps : Int) (a b : Hdr) : Int :=
  if op = 0 then a.scale else if op = 1 then a.scale + ps else a.scale + b.scale

/-- CMRG on sources without POISON faults with FORMAT_ERROR (R153). -/
def cmrgBad (op : Nat) (ps : Int) (a b : Hdr) : Bool :=
  (decide (op ≠ 1) && !sameShape a b) || (decide (op = 0) && decide (a.scale ≠ b.scale)) ||
  (decide (op = 2) && decide (a.typ = 2)) || !scaleOk (cmrgScale op ps a b)

/-- The entry CMRG writes, before the OPS limit (R153); a SCALE_EXP that leaves its field keeps SA's value. -/
def cmrgEntry (op : Nat) (ps : Int) (a b d : Hdr) : Hdr :=
  let two := decide (op ≠ 1)
  { a with
    ptr := d.ptr
    scale := if scaleOk (cmrgScale op ps a b) then cmrgScale op ps a b else a.scale
    level := if two then min a.level b.level else a.level
    ops := if a.typ = 2 then min 255 ((if two then max a.ops b.ops else a.ops) + 1) else a.ops
    flags := mkFlags (a.poison || (two && b.poison)) a.ntt a.packed }

/-- The OPS limit of a TYPE 2 operation would be passed (R153, R224). -/
def State.opsOver (s : State) (c op : Nat) (a b : Hdr) : Bool :=
  decide (a.typ = 2) && (match s.pset c a.pset with
    | some p => decide (p.opsMax < (if op = 1 then a.ops else max a.ops b.ops) + 1)
    | none => false)

/-- CMRG on the headers of its sources: a poisoned source raises no fault (R130), then R153's conditions, then the OPS
limit, which keeps SA's LEVEL and SCALE_EXP, SA's too where the sources' LEVELs differ (R129, R152, R153; DESIGN CHOICE,
notes/assumptions/105.md). -/
def State.cmrg (s : State) (l : Loc) (x : Stage) (i op : Nat) (ps : Int) (a b : Hdr) : State :=
  let h := cmrgEntry op ps a b (s.hdr l i)
  if h.poison then (s.putHdr l i h).retire l x
  else if cmrgBad op ps a b then s.insnFault l Code.formatError
  else if s.opsOver (s.sctx l.d l.s) op a b then
    (s.putHdr l i { h.poisonedOf with level := a.level, scale := a.scale }).insnFault l Code.levelExhausted
  else (s.putHdr l i h).retire l x

/-- CMRG. -/
def execCmrg (l : Loc) (f : Fields) (s : State) : Result :=
  let op := f.imf 1 0
  .next (s.issue l 0x64 f
    { stages := St.cs, dst := .d, sa := .d, sb := if op = 1 then .none else .d, imm := 0xFFFF03
      extra := decide (op ≠ 3) && (decide (op = 1) || decide (f.imf 23 8 = 0)) } (fun x =>
    let dd := Desc.of (x.dr f.d)
    let da := Desc.of (x.dr f.a)
    let db := if op = 1 then da else Desc.of (x.dr f.b)
    if ¬ (dd.ok l.s 1 [3] && da.ok l.s 1 [3] && db.ok l.s 1 [3]) then s.insnFault l Code.formatError
    else match s.hdrsCheck l [da.index, db.index, dd.index] with
    | some e => s.insnFault l e
    | none =>
      s.cmrg l x dd.index op (BitVec.ofNat 16 (f.imf 23 8)).toInt (s.hdr l da.index) (s.hdr l db.index)))

/-! ### Data of a ciphertext (R175) -/

/-- 64-bit word i of an object's data. -/
def resid (b : Bytes) (i : Nat) : Nat := field b (8 * i) 8
/-- The data of n words. -/
def residBytes (n : Nat) (v : Nat → Nat) : Bytes := ((List.range n).map (fun i => le 8 (v i))).flatten

/-- The modulus of limb t of a set. -/
def PSet.q (p : PSet) (t : Nat) : Nat := romQ (p.primes.getD t 0)

/-- Every residue of a TYPE 1 object of L limbs lies below its prime. -/
def inRange (p : PSet) (L N : Nat) (b : Bytes) : Bool :=
  (List.range (2 * L * N)).all (fun k => decide (resid b k < p.q (k / N % L)))

/-- The data of a TYPE 1 result: component, limb, element to residue; a free residue where the operands of that element leave
it open (R141, R172). -/
def State.outBytes (s : State) (p : PSet) (L N : Nat) (good : Nat → Nat → Nat → Bool) (v : Nat → Nat → Nat → Nat) : Bytes :=
  residBytes (2 * L * N) (fun k =>
    if good (k / (L * N)) (k / N % L) (k % N) then v (k / (L * N)) (k / N % L) (k % N)
    else (Config.freeValue (s.freeCtr + k)).toNat % p.q (k / N % L))

/-- The destination of a fused instruction that faulted after arithmetic began is not defined (R126, R228): free bytes. -/
def State.smear (s : State) (l : Loc) (c a n : Nat) : State :=
  match (List.finRange 16).find? (fun k => k.val = c) with
  | none => s
  | some k =>
    let w := s.writeSpan (.dma (Fin.ofNat 8 l.d) k) a ((s.freeBytes (n / 8 + 1)).take n)
    if w.stall ∨ w.code ≠ Code.ok then s else w.st.took (n / 8 + 1)

/-- What a fault of a fused instruction leaves of the destination's data: an access that was refused changes nothing. -/
def State.fusedUndone (s : State) (l : Loc) (c : Nat) (err : Option FaultInfo) (a n : Nat) : State :=
  match err with
  | some f => if f.code = Code.accessBounds then s else s.smear l c a n
  | none => s

/-- Reads of a fused instruction: on a fault the destination's data is not defined. -/
def Run.fused (x : Run) (s0 : State) (l : Loc) (c a n : Nat) (k : State → Bytes → State) : State :=
  x.cont s0 l (fun t _ => t.fusedUndone l c x.err a n) k

/-- The result of a fused instruction is written at the destination's DATA_PTR, then its entry (R138). -/
def State.fusedWrite (s s0 : State) (l : Loc) (x : Stage) (c i : Nat) (h : Hdr) (data : Bytes) : State :=
  (s.runLines l.req false (writeOps h.ptr data)).fused s0 l c h.ptr data.length
    (fun t _ => (t.putHdr l i h).retire l x)

/-! ### Rescaling and modulus switching -/

/-- LOG256 = round(256 × log2 q) (R169). -/
def log256 (q : Nat) : Nat := bitLen 30720 (q ^ 512) / 2

/-- One coefficient of RESC: limb i, given the dropped limb's residue (R177). -/
def rescCoef (p q last x : Nat) : Nat :=
  let h := (p - 1) / 2
  intMod ((x : Int) + h - ((last + h) % p : Nat)) q * invMod (p % q) q % q

/-- One removal of MODX on an exact encoding (R178). -/
def modxCoef (t p q last x : Nat) : Nat :=
  let d : Int := t * centre (last * invMod (t % p) p % p) p
  intMod ((x : Int) - d) q * invMod (p % q) q % q

/-- k removals from n limbs, the last downward. -/
def modxDown (ps : PSet) (t : Nat) : Nat → Nat → (Nat → Nat) → Nat → Nat
  | 0, _, x => x
  | k + 1, n, x => modxDown ps t k (n - 1) (fun i => modxCoef t (ps.q (n - 1)) (ps.q i) (x (n - 1)) (x i))

/-- Ranges overlap without being the same start. -/
def partOverlap (a n b m : Nat) : Bool := decide (a ≠ b) && decide (a < b + m) && decide (b < a + n)
/-- Ranges overlap. -/
def overlaps (a n b m : Nat) : Bool := decide (a < b + m) && decide (b < a + n)

/-- The data RESC or MODX writes, from the source's data (R144, R177, R178): a coefficient whose own residues, those of its
limb and of the limbs removed, are not below their primes is left open; ranges that overlap in part leave all of it open. -/
def State.rescOut (s : State) (resc : Bool) (p : PSet) (h new : Hdr) (b : Bytes) : Bytes :=
  let N := 2 ^ h.logn
  let coef := fun cc e lb => resid b ((cc * h.limbs + lb) * N + e)
  let below := fun cc e lb => decide (coef cc e lb < p.q lb)
  let copy := !resc && decide (h.ptLog = 0)
  let good := fun cc lb e => copy || (below cc e lb && (span new.limbs (h.limbs - 1)).all (below cc e))
  let v := fun cc lb e =>
    if resc then rescCoef (p.q (h.limbs - 1)) (p.q lb) (coef cc e (h.limbs - 1)) (coef cc e lb)
    else if h.ptLog = 0 then coef cc e lb
    else modxDown p (2 ^ h.ptLog) (h.limbs - new.limbs) h.limbs (coef cc e) lb
  if partOverlap h.ptr h.len new.ptr new.len then s.freeBytes (new.len / 8)
  else s.outBytes p new.limbs N good v

/-- RESC (drop 1) and MODX on a source that passed its checks: data read, computed, written. -/
def State.rescRun (s : State) (l : Loc) (x : Stage) (i : Nat) (resc : Bool) (p : PSet) (h new : Hdr) : State :=
  let c := s.sctx l.d l.s
  (s.runLines l.req false (readOps h.ptr h.len)).fused s l c new.ptr new.len (fun t b =>
    (t.took (2 * new.limbs * 2 ^ h.logn)).fusedWrite s l x c i new (t.rescOut resc p h new b))

/-- The entry RESC or MODX writes (R144, R177); where the source has not the levels to give, LIMBS, LEVEL and SCALE_EXP are
the source's (R129, R221). A SCALE_EXP that would leave its range is a free value (DESIGN CHOICE, notes/assumptions/47.md). -/
def State.rescEntry (s : State) (resc : Bool) (drop : Nat) (p : PSet) (h d : Hdr) : Hdr :=
  let sc := h.scale - log256 (p.q (h.limbs - 1))
  if h.level < drop then { h with ptr := d.ptr }
  else
    { h with
      limbs := h.limbs - drop
      level := h.level - drop
      scale := if ¬ resc then h.scale else if scaleOk sc then sc else (s.free.setWidth 16).toInt
      ptr := d.ptr
      len := dataLen 1 h.logn (h.limbs - drop) 0 0 }

/-- RESC and MODX: form checks, then poison, then the level (R129, R130, R144). -/
def State.rescModx (s : State) (l : Loc) (x : Stage) (i : Nat) (resc : Bool) (drop : Nat) (p : PSet) (h : Hdr) : State :=
  let new := s.rescEntry resc drop p h (s.hdr l i)
  if h.poison then ((s.took 1).putHdr l i new).retire l x
  else if h.level < drop then
    (s.putHdr l i new.poisonedOf).insnFault l Code.levelExhausted
  else (s.took 1).rescRun l x i resc p h new

/-- The common shape of RESC and MODX; `keep` is LIMBS_NEW. -/
def State.dropLimbs (s : State) (l : Loc) (f : Fields) (x : Stage) (resc : Bool) (keep : Nat) : State :=
  let dd := Desc.of (x.dr f.d)
  let da := Desc.of (x.dr f.a)
  let c := s.sctx l.d l.s
  let h := s.hdr l da.index
  if ¬ (dd.ok l.s 1 [3] && da.ok l.s 1 [3]) then s.insnFault l Code.formatError
  else match s.hdrsCheck l [da.index, dd.index], s.pset c h.pset with
  | some e, _ => s.insnFault l e
  | none, none => s.insnFault l Code.formatError
  | none, some p =>
    if h.typ ≠ 1 ∨ h.ntt ∨ (resc ∧ h.ptLog ≠ 0) ∨ (¬ resc ∧ (keep = 0 ∨ h.limbs ≤ keep)) then
      s.insnFault l Code.formatError
    else s.rescModx l x dd.index resc (if resc then 1 else h.limbs - keep) p h

/-- RESC. -/
def execResc (l : Loc) (f : Fields) (s : State) : Result :=
  .next (s.issue l 0x24 f { stages := [St.base], dst := .d, sa := .d } (fun x => s.dropLimbs l f x true 0))

/-- MODX. -/
def execModx (l : Loc) (f : Fields) (s : State) : Result :=
  .next (s.issue l 0x25 f { stages := [St.base], dst := .d, sa := .d, imm := 0x3F } (fun x =>
    s.dropLimbs l f x false f.i))

end Sys2Proof.Machine
end

