-- ==== Sys2Proof/Machine/Fused.lean ====
section
/-! DEFINITION. Key switching (R226, R227), the checks of a key stream (R149, R241), and the meanings of KSW, RFR, EXTR and
PACK (R149–R152, R228, R232–R236). -/

namespace Sys2Proof.Machine

/-! ### Key switching -/

/-- Limbs of digit j of the base limbs present: first and one past the last (R226, R227). -/
def digitOf (p : PSet) (dnum ls j : Nat) : Nat × Nat :=
  let al := (p.limbs + dnum - 1) / dnum
  (j * al, min ((j + 1) * al) ls)

/-- Coefficient i of digit j extended to limb t (R176, R227 step 2). -/
def extend (p : PSet) (r : Nat × Nat) (t : Nat) (x : Nat → Nat → Nat) (i : Nat) : Nat :=
  if r.1 ≤ t ∧ t < r.2 then x t i
  else convert ((List.range (r.2 - r.1)).map (fun m => p.q (r.1 + m))) (p.q t) (fun m => x (r.1 + m) i)

/-- The running sum of component c and limb t, back in coefficient form (R227 steps 2 to 4); `key` gives digit,
component, limb and element of the key chunk. -/
def keySum (p : PSet) (logn dnum ls : Nat) (x : Nat → Nat → Nat) (key : Nat → Nat → Nat → Nat → Nat) (c t : Nat) :
    Nat → Nat :=
  inttOf (p.q t) logn (fun e =>
    sumTo dnum (fun j =>
      let r := digitOf p dnum ls j
      if r.1 < ls then nttOf (p.q t) logn (extend p r t x) e * key j c t e else 0) % p.q t)

/-- The special primes of a set. -/
def PSet.specials (p : PSet) : List Nat := (List.range p.special).map (fun k => p.q (p.limbs + k))

/-- The switched component c, limb i: the special limbs are removed (R227 step 4). -/
def keySwitch (p : PSet) (logn dnum ls : Nat) (x : Nat → Nat → Nat) (key : Nat → Nat → Nat → Nat → Nat) (c i e : Nat) :
    Nat :=
  let acc := keySum p logn dnum ls x key c
  let cv := convert p.specials (p.q i) (fun k => acc (p.limbs + k) e)
  subMod (acc i e) cv (p.q i) * invMod (prod p.specials % p.q i) (p.q i) % p.q i

/-- Element of a TYPE 3 chunk (R175). -/
def keyElem (h : Hdr) (b : Bytes) (j c t e : Nat) : Nat :=
  resid b (((j * 2 + c) * h.limbs + t) * 2 ^ h.logn + e)

/-- The chunk carries every limb of the set, and each residue that a switch of a source of ls limbs uses lies below its prime:
rows of digits that begin below ls, limbs below ls and the special limbs (R227). -/
def keyGood (p : PSet) (h : Hdr) (ls : Nat) (b : Bytes) : Bool :=
  decide (h.limbs = p.limbs + p.special) &&
  (List.range (2 * h.dnum * h.limbs * 2 ^ h.logn)).all (fun k =>
    let t := k / 2 ^ h.logn % h.limbs
    decide (ls ≤ (digitOf p h.dnum ls (k / (2 * h.limbs * 2 ^ h.logn))).1) || decide (ls ≤ t ∧ t < p.limbs) ||
      decide (resid b k < p.q t))

/-! ### Key streams -/

/-- The descriptor names an ACTIVE registry entry of the context with a suiting purpose (R241). -/
def State.keyRegistered (s : State) (c : Nat) (d : Desc) (purposes : List Nat) : Bool :=
  s.evk.any (fun e => decide (e.1 / 64 = c) && decide (e.2.st = 1) && decide (e.2.base.toNat = d.base) &&
    decide (e.2.length.toNat = d.length) && purposes.contains e.2.purpose.toNat)

/-- Checks 3 to 5 of R149 on a chunk header: R116 and TYPE 3, then KEYTAG, then shape. -/
def State.chunkFault (s : State) (c : Nat) (keytags : List Nat) (shape : Hdr → Bool) (b : Bytes) : Option FaultInfo :=
  let h := Hdr.of (BitVec.ofNat 512 (fromLE b))
  if s.hdrCheck c h ≠ none ∨ h.typ ≠ 3 then some (.insn Code.formatError)
  else if ¬ keytags.all (fun k => k = h.keytag) then some (.insn Code.keytagMismatch)
  else if ¬ shape h then some (.insn Code.formatError)
  else none

/-- The chunks of a key stream, each (address, bytes): the header is read and checked, then the rest is read. -/
def State.readChunks (s : State) (l : Loc) (chk : Bytes → Option FaultInfo) : List (Nat × Nat) → Run
  | [] => ⟨s, [], none, false, 0⟩
  | (a, n) :: cs =>
    let h := s.runLines l.req false (readOps a 64)
    if h.stall ∨ h.err ≠ none then h
    else match chk h.data with
    | some f => ⟨h.st, [], some f, false, 0⟩
    | none =>
      let r := h.st.runLines l.req false (readOps (a + 64) (n - 64))
      if r.stall ∨ r.err ≠ none then r
      else
        let y := r.st.readChunks l chk cs
        { y with data := h.data ++ r.data ++ y.data }

/-- One key chunk: its header first, then as many bytes as DATA_LEN gives; a chunk longer than the stream is outside
the object. -/
def State.readChunk (s : State) (l : Loc) (chk : Bytes → Option FaultInfo) (d : Desc) : Run :=
  let h := s.runLines l.req false (readOps d.base 64)
  if h.stall ∨ h.err ≠ none then h
  else
    let n := (Hdr.of (BitVec.ofNat 512 (fromLE h.data))).len
    match chk h.data with
    | some f => ⟨h.st, [], some f, false, 0⟩
    | none => if d.length < 64 + n then ⟨h.st, [], some (.mem Code.accessBounds d.base), false, 0⟩
      else s.readChunks l chk [(d.base, 64 + n)]

/-- A key chunk's fault before arithmetic leaves the destination untouched. -/
def State.withChunk (s : State) (l : Loc) (d : Desc) (chk : Bytes → Option FaultInfo) (c a n : Nat)
    (k : State → Hdr → Bytes → State) : State :=
  let r := s.readChunk l chk d
  let early := match r.err with
    | some f => decide (f.origin ≠ Origin.mem)
    | none => false
  r.cont s l (fun t _ => if early then t else t.fusedUndone l c r.err a n) (fun t b =>
    k t (Hdr.of (BitVec.ofNat 512 (fromLE (b.take 64)))) (b.drop 64))

/-! ### KSW -/

/-- The data KSW writes (R227). -/
def State.kswOut (s : State) (p : PSet) (h kh : Hdr) (outNtt : Bool) (src key : Bytes) : Bytes :=
  let N := 2 ^ h.logn
  let raw := fun c t e => resid src ((c * h.limbs + t) * N + e)
  let coef := fun c t => if h.ntt then inttOf (p.q t) h.logn (raw c t) else raw c t
  let sw := keySwitch p h.logn kh.dnum h.limbs (coef 1) (keyElem kh key)
  let sum := fun c t e => if c = 0 then (sw 0 t e + coef 0 t e) % p.q t else sw 1 t e
  s.outBytes p h.limbs N (fun _ _ _ => inRange p h.limbs N src && keyGood p kh h.limbs key)
    (fun c t e => if outNtt then nttOf (p.q t) h.logn (sum c t) e else sum c t e)

/-- The entry KSW writes (R149); PT_LOG and PACKED, which the rule does not list, are the source's (DESIGN CHOICE,
notes/assumptions/106.md). -/
def kswEntry (h d : Hdr) (outNtt : Bool) : Hdr := { h with ptr := d.ptr, flags := mkFlags h.poison outNtt h.packed }

/-- The shape KSW asks of a key header (R149 step 5). -/
def kswShape (h k : Hdr) : Bool := decide (k.logn = h.logn ∧ k.pset = h.pset ∧ h.limbs ≤ k.limbs)

/-- KSW after its first two checks. -/
def State.kswRun (s : State) (l : Loc) (x : Stage) (i : Nat) (dk : Desc) (p : PSet) (h d : Hdr) (o : Bool) : State :=
  let c := s.sctx l.d l.s
  s.withChunk l dk (s.chunkFault c [h.keytag] (kswShape h)) c d.ptr h.len (fun t kh key =>
    (t.runLines l.req false (readOps h.ptr h.len)).fused s l c d.ptr h.len (fun u src =>
      (u.took (2 * h.limbs * 2 ^ h.logn)).fusedWrite s l x c i (kswEntry h d o) (u.kswOut p h kh o src key)))

/-- KSW (R149, R227, R228). -/
def execKsw (l : Loc) (f : Fields) (s : State) : Result :=
  .next (s.issue l 0x60 f { stages := [St.kacc], dst := .d, sa := .d, sb := .d, imm := 1 } (fun x =>
    let dd := Desc.of (x.dr f.d)
    let da := Desc.of (x.dr f.a)
    let dk := Desc.of (x.dr f.b)
    let c := s.sctx l.d l.s
    let h := s.hdr l da.index
    let d := s.hdr l dd.index
    let o := decide (f.i = 1)
    if ¬ (dd.ok l.s 1 [3] && da.ok l.s 1 [3] && dk.ok l.s 1 [4]) then s.insnFault l Code.formatError
    else match s.hdrCheck c h, s.hdrCheck c d, s.pset c h.pset with
    | some e, _, _ => s.insnFault l e
    | none, some e, _ => s.insnFault l e
    | none, none, none => s.insnFault l Code.formatError
    | none, none, some p =>
      if h.typ ≠ 1 ∨ overlaps h.ptr h.len d.ptr h.len then s.insnFault l Code.formatError
      else if ¬ s.keyRegistered c dk [1, 2] then s.insnFault l Code.accessBounds
      else if h.poison then (s.putHdr l dd.index (kswEntry h d o)).retire l x
      else s.kswRun l x dd.index dk p h d o))

/-! ### RFR -/

/-- Chunks of a REFRESH key stream: n blind-rotation chunks, then the final key switch (R233). -/
def rfrChunks (base n dl : Nat) : List (Nat × Nat) :=
  (List.range n).map (fun i => (base + i * (64 + 2 * dl), 64 + 2 * dl)) ++ [(base + n * (64 + 2 * dl), 64 + dl)]
/-- Bytes of the stream. -/
def rfrLen (n dl : Nat) : Nat := n * (64 + 2 * dl) + 64 + dl

/-- The shape of a refresh chunk (R233). -/
def rfrShape (p : PSet) (id : Nat) (k : Hdr) : Bool :=
  decide (k.logn = p.logn ∧ k.pset = id ∧ k.limbs = 1 ∧ k.dnum = p.dnum)

/-- The lookup table: a power of two of entries, each below q (R236). -/
def lutOk (p : PSet) (b : Bytes) : Bool :=
  let m := b.length / 8
  (List.range 12).any (fun k => decide (1 ≤ k ∧ m = 2 ^ k)) && decide (m ≤ min 2048 (2 ^ p.logn)) &&
  (List.range m).all (fun i => decide (resid b i < p.q 0))

/-- x × 2Nb ÷ q, rounded to the nearest, halves up (R235; notes/assumptions/11.md). -/
def toPhase (nb q x : Nat) : Nat := (2 * (x * (2 * nb)) + q) / (2 * q)

/-- The phase of a sample with mask a and body b under a binary secret, in units of 2Nb to the circle, from the body moved
by half a bucket of a table of m entries (R235). -/
def rfrPhase (nb q m n : Nat) (a : Nat → Nat) (b : Nat) (sk : Nat → Bool) : Nat :=
  (toPhase nb q ((b + q / (4 * m)) % q) + sumTo n (fun i => if sk i then toPhase nb q (a i) else 0)) % (2 * nb)

/-- The entry that a phase selects: the table on the lower half of the circle, negated on the upper (R235, R237). -/
def rfrLookup (nb q m : Nat) (lut : Nat → Nat) (phi : Nat) : Nat :=
  let w := nb / m
  if phi < nb then lut (phi / w) else (q - lut ((phi - nb) / w)) % q

/-- Words of the k-th refreshed sample (R235): under the key set's secret its phase is the table's entry for the phase of
the source, up to a noise of the key below half a step of a table of m entries; the mask and the noise are free, and so is
every word where the chunks hold no such refresh key of this key set or a source word is not below q
(notes/assumptions/11.md). -/
def State.rfrWords (s : State) (p : PSet) (h : Hdr) (m k : Nat) (lut src : Nat → Nat) (good : Bool) (i : Nat) : Nat :=
  let n := p.lweN
  let q := p.q 0
  let fr := fun j => (Config.freeValue (s.freeCtr + k * (n + 2) + j)).toNat % q
  let sk := Config.lweSecret h.keytag
  if ¬ good ∨ i < n then fr i
  else
    let v := rfrLookup (2 ^ p.logn) q m lut (rfrPhase (2 ^ p.logn) q m n src (src n) sk)
    let e := fr (n + 1) % (2 * (q / (4 * m)) + 1)
    subMod ((v + q + e - q / (4 * m)) % q) (sumTo n (fun j => if sk j then fr j else 0) % q) q

/-- The data of the k-th refreshed sample, padded to DATA_LEN. -/
def State.rfrOut (s : State) (p : PSet) (h : Hdr) (lut src : Bytes) (k : Nat) (key : Bool) : Bytes :=
  let n := p.lweN
  let q := p.q 0
  let good := key && (List.range (n + 1)).all (fun i => decide (resid src i < q))
  padTo (dataLen 2 0 1 0 n) (residBytes (n + 1) (s.rfrWords p h (lut.length / 8) k (resid lut) (resid src) good))

/-- The entry RFR writes (R151, R235). -/
def rfrEntry (h d : Hdr) (poison : Bool) : Hdr :=
  { h with ptr := d.ptr, ops := 0, ptLog := 0, scale := 0, flags := mkFlags poison h.ntt h.packed }

/-- Every destination keeps the data it had in s0 (R234): the memories and what they are stored under. -/
def State.keepMem (s s0 : State) : State :=
  { s with mem := s0.mem, ecc := s0.ecc, minor := s0.minor, major := s0.major, crypt := s0.crypt, badLine := s0.badLine
           cached := s0.cached }

/-- The B results are written once all are computed, their data and then their entries; a failure leaves every destination
untouched (R234). `out k` is the data of sample k. -/
def State.rfrWrite (s s0 : State) (l : Loc) (x : Stage) (di : Nat) (hs : List Hdr) (out : Nat → Bytes) : State :=
  let B := List.range hs.length
  (s.runLines l.req false ((B.map (fun k => writeOps (s.hdr l (di + k)).ptr (out k))).flatten)).cont s0 l
    (fun t _ => t.keepMem s)
    (fun t _ => (B.foldl (fun u k =>
      u.putHdr l (di + k) (rfrEntry (hs.getD k (Hdr.of 0)) (u.hdr l (di + k)) false)) t).retire l x)

/-- RFR after its first two checks: every chunk is read and checked, then the table, then the sources (R234, R236). -/
def State.rfrRun (s : State) (l : Loc) (x : Stage) (di : Nat) (dk dl : Desc) (p : PSet) (h : Hdr) (hs : List Hdr) : State :=
  let c := s.sctx l.d l.s
  let n := dataLen 3 p.logn 1 p.dnum 0
  if dk.length < rfrLen p.lweN n then s.stageFault l (.mem Code.accessBounds dk.base)
  else
    (s.readChunks l (s.chunkFault c [h.keytag] (rfrShape p h.pset)) (rfrChunks dk.base p.lweN n)).cont s l
      (fun t _ => t) (fun t key =>
      (t.runLines l.req false (readOps dl.base dl.length)).cont s l (fun u _ => u) (fun u b =>
        let lut := b.take dl.length
        if ¬ lutOk p lut then u.insnFault l Code.formatError
        else
          (u.runLines l.req false ((hs.map (fun g => readOps g.ptr g.len)).flatten)).cont s l (fun v _ => v) (fun v src =>
            (v.rfrWrite s l x di hs (fun k =>
              v.rfrOut p h lut (sub src (k * h.len) h.len) k (Config.refreshKey h.keytag (lut.length / 8) key))).took
              (hs.length * (p.lweN + 2)))))

/-- RFR (R151, R234–R236). -/
def execRfr (l : Loc) (f : Fields) (s : State) : Result :=
  .next (s.issue l 0x61 f { stages := [St.kacc], dst := .d, sa := .d, sb := .d, sc := .d, imm := 0xF } (fun x =>
    let B := f.i + 1
    let dd := Desc.of (x.dr f.d)
    let da := Desc.of (x.dr f.a)
    let dk := Desc.of (x.dr f.b)
    let dl := Desc.of (x.dr f.c)
    let c := s.sctx l.d l.s
    let hs := (List.range B).map (fun k => s.hdr l (da.index + k))
    let h := s.hdr l da.index
    if ¬ (dd.ok l.s B [3] && da.ok l.s B [3] && dk.ok l.s 1 [4] && dl.ok l.s 1 [1]) then s.insnFault l Code.formatError
    else match s.hdrsCheck l (span da.index (da.index + f.i) ++ span dd.index (dd.index + f.i)), s.pset c h.pset with
    | some e, _ => s.insnFault l e
    | none, none => s.insnFault l Code.formatError
    | none, some p =>
      if ¬ hs.all (fun g => decide (g.typ = 2 ∧ g.lweN = h.lweN ∧ g.pset = h.pset ∧ g.keytag = h.keytag)) ∨
          16384 < dl.length ∨ dl.length % 8 ≠ 0 then s.insnFault l Code.formatError
      else if ¬ s.keyRegistered c dk [5] then s.insnFault l Code.accessBounds
      else if hs.any Hdr.poison then
        ((List.range B).foldl (fun t k =>
          t.putHdr l (dd.index + k) (rfrEntry (hs.getD k h) (t.hdr l (dd.index + k)) true)) s).retire l x
      else s.rfrRun l x dd.index dk dl p h hs))

/-! ### EXTR and PACK -/

/-- The LWE sample of coefficient i of a switched ring ciphertext: mask j is the coefficient of s_j (R232). -/
def extractWord (q N n i : Nat) (c0 c1 : Nat → Nat) (k : Nat) : Nat :=
  if k = n then c0 i else if k ≤ i then c1 (i - k) else subMod 0 (c1 (N + i - k)) q

/-- The sample embedded as a ring ciphertext at coefficient i (R232; notes/assumptions/12.md). -/
def embedC0 (i : Nat) (b : Nat) (e : Nat) : Nat := if e = i then b else 0
def embedC1 (q N n i : Nat) (a : Nat → Nat) (e : Nat) : Nat :=
  if e ≤ i then (if i - e < n then a (i - e) else 0)
  else if N + i - e < n then subMod 0 (a (N + i - e)) q else 0

/-- The entry EXTR writes (R152). -/
def extrEntry (h d : Hdr) (id n : Nat) : Hdr :=
  { h with
    typ := 2, logn := 0, limbs := 1, pset := id, lweN := n, ops := 0, dnum := 0, ptr := d.ptr
    flags := mkFlags h.poison false h.packed, len := dataLen 2 0 1 0 n }

/-- The set as an EXTRACT or PACK key sees it: limb 0 and the special limbs (R239). -/
def PSet.first (p : PSet) : PSet := { p with limbs := 1, primes := p.primes.take 1 ++ p.primes.drop p.limbs }

/-- The data EXTR writes. -/
def State.extrOut (s : State) (p : PSet) (n i : Nat) (h kh : Hdr) (src key : Bytes) : Bytes :=
  let N := 2 ^ h.logn
  let q := p.q 0
  let raw := fun c e => resid src (c * N + e)
  let sw := keySwitch p h.logn kh.dnum 1 (fun _ => raw 1) (keyElem kh key)
  padTo (dataLen 2 0 1 0 n) (residBytes (n + 1) (fun k =>
    (if inRange p 1 N src && keyGood p kh 1 key then extractWord q N n i (fun e => (sw 0 0 e + raw 0 e) % q) (sw 1 0) k
     else (Config.freeValue (s.freeCtr + k)).toNat) % q))

/-- EXTR after its first two checks. -/
def State.extrRun (s : State) (l : Loc) (x : Stage) (di i : Nat) (dk : Desc) (p : PSet) (h d : Hdr) (id n : Nat) : State :=
  let c := s.sctx l.d l.s
  let e := extrEntry h d id n
  s.withChunk l dk (s.chunkFault c [h.keytag] (kswShape h)) c d.ptr e.len (fun t kh key =>
    (t.runLines l.req false (readOps h.ptr h.len)).fused s l c d.ptr e.len (fun u src =>
      (u.took (n + 1)).fusedWrite s l x c di e (u.extrOut p.first n i h kh src key)))

/-- EXTR (R152, R181, R232). -/
def execExtr (l : Loc) (f : Fields) (s : State) : Result :=
  .next (s.issue l 0x62 f { stages := [St.kacc], dst := .d, sa := .d, sb := .d, imm := 0x1FFFF } (fun x =>
    let dd := Desc.of (x.dr f.d)
    let da := Desc.of (x.dr f.a)
    let dk := Desc.of (x.dr f.b)
    let c := s.sctx l.d l.s
    let h := s.hdr l da.index
    let d := s.hdr l dd.index
    if ¬ (dd.ok l.s 1 [3] && da.ok l.s 1 [3] && dk.ok l.s 1 [4]) then s.insnFault l Code.formatError
    else match s.hdrCheck c h, s.hdrCheck c d, s.pset c h.pset with
    | some e, _, _ => s.insnFault l e
    | none, some e, _ => s.insnFault l e
    | none, none, none => s.insnFault l Code.formatError
    | none, none, some p =>
      match (if p.lweSet = 0 then none else s.pset c p.lweSet) with
      | none => s.insnFault l Code.formatError
      | some w =>
        if h.typ ≠ 1 ∨ h.ntt ∨ h.limbs ≠ 1 ∨ 2 ^ h.logn ≤ f.i then s.insnFault l Code.formatError
        else if ¬ s.keyRegistered c dk [3] then s.insnFault l Code.accessBounds
        else if h.poison then (s.putHdr l dd.index (extrEntry h d p.lweSet w.lweN)).retire l x
        else s.extrRun l x dd.index f.i dk p h d p.lweSet w.lweN))

/-- The data PACK writes: the destination plus the switched sample (R152, R232). -/
def State.packOut (s : State) (p : PSet) (n i : Nat) (d kh : Hdr) (dst src key : Bytes) : Bytes :=
  let N := 2 ^ d.logn
  let q := p.q 0
  let c1 := embedC1 q N n i (fun j => resid src j)
  let sw := keySwitch p d.logn kh.dnum 1 (fun _ => c1) (keyElem kh key)
  let add := fun c e => if c = 0 then (sw 0 0 e + embedC0 i (resid src n) e) % q else sw 1 0 e
  let good := inRange p 1 N dst && keyGood p kh 1 key && (List.range (n + 1)).all (fun j => decide (resid src j < q))
  s.outBytes p 1 N (fun _ _ _ => good) (fun c _ e =>
    (resid dst (c * N + e) + if d.ntt then nttOf q d.logn (add c) e else add c e) % q)

/-- The entry PACK writes: its destination's with PACKED set. -/
def packEntry (h d : Hdr) : Hdr := { d with flags := mkFlags (h.poison || d.poison) d.ntt true }

/-- PACK after its first two checks. -/
def State.packRun (s : State) (l : Loc) (x : Stage) (di i : Nat) (dk : Desc) (p : PSet) (h d : Hdr) : State :=
  let c := s.sctx l.d l.s
  s.withChunk l dk (s.chunkFault c [h.keytag, d.keytag] (kswShape d)) c d.ptr d.len (fun t kh key =>
    (t.runLines l.req false (readOps h.ptr h.len)).fused s l c d.ptr d.len (fun u src =>
      (u.runLines l.req false (readOps d.ptr d.len)).fused s l c d.ptr d.len (fun v dst =>
        (v.took (2 * 2 ^ d.logn)).fusedWrite s l x c di (packEntry h d) (v.packOut p.first h.lweN i d kh dst src key))))

/-- PACK (R152, R232); the destination's set produces the source's set (notes/assumptions/12.md). -/
def execPack (l : Loc) (f : Fields) (s : State) : Result :=
  .next (s.issue l 0x63 f { stages := [St.kacc], dst := .d, sa := .d, sb := .d, imm := 0x1FFFF } (fun x =>
    let dd := Desc.of (x.dr f.d)
    let da := Desc.of (x.dr f.a)
    let dk := Desc.of (x.dr f.b)
    let c := s.sctx l.d l.s
    let h := s.hdr l da.index
    let d := s.hdr l dd.index
    if ¬ (dd.ok l.s 1 [3] && da.ok l.s 1 [3] && dk.ok l.s 1 [4]) then s.insnFault l Code.formatError
    else match s.hdrCheck c h, s.hdrCheck c d, s.pset c d.pset with
    | some e, _, _ => s.insnFault l e
    | none, some e, _ => s.insnFault l e
    | none, none, none => s.insnFault l Code.formatError
    | none, none, some p =>
      if h.typ ≠ 2 ∨ d.typ ≠ 1 ∨ d.limbs ≠ 1 ∨ p.lweSet ≠ h.pset ∨ 2 ^ d.logn ≤ f.i then s.insnFault l Code.formatError
      else if ¬ s.keyRegistered c dk [4] then s.insnFault l Code.accessBounds
      else if h.poison ∨ d.poison then (s.putHdr l dd.index (packEntry h d)).retire l x
      else s.packRun l x dd.index f.i dk p h d))

end Sys2Proof.Machine
end

