-- ==== Sys2Proof/Machine/RoundData.lean ====
section
/-! DEFINITION. Data of a round that its commands and the strands' meanings share: the round descriptor (R187, R193), clients
and their slots (R185), bitmaps (R198), the fold stream table's entries (R332), and a shard that fails (R203). -/

namespace Sys2Proof.Machine

/-- Bytes of an element of a ring: 0 Z_2^32, 1 Z_2^64, 2 Z_q (R154). -/
def ringSize (ring : Nat) : Nat := if ring = 0 then 4 else 8
/-- The modulus of a ring. -/
def ringMod (ring q : Nat) : Nat := if ring = 0 then 2 ^ 32 else if ring = 1 then 2 ^ 64 else q

/-- Two spans share a byte. -/
def overlap (a n b m : Nat) : Bool := decide (a < b + m ∧ b < a + n)

/-! ### The round descriptor (R187) -/

def rdId (b : Bytes) : Word := BitVec.ofNat 32 (field b 0 4)
def rdRing (b : Bytes) : Nat := field b 5 1
def rdFlag (b : Bytes) (n : Nat) : Bool := (field b 7 1).testBit n
def rdScreen (b : Bytes) : Bool := rdFlag b 0
def rdDp (b : Bytes) : Bool := rdFlag b 1
def rdGroup (b : Bytes) : Bool := rdFlag b 2
def rdK (b : Bytes) : Nat := if field b 8 2 = 0 then 48 else field b 8 2
def rdT (b : Bytes) : Nat := if field b 0xA 2 = 0 then (2 * rdK b + 2) / 3 else field b 0xA 2
def rdChunk (b : Bytes) : Nat := if field b 0xC 2 = 0 then 4096 else field b 0xC 2
def rdOutput (b : Bytes) : Nat := field b 0xE 1
def rdCoord (b : Bytes) : Nat := field b 0x30 2
def rdRoot (b : Bytes) : Nat := field b 0x32 2
def rdN (b : Bytes) : Nat := field b 0x34 4
/-- Shard entry j. -/
def rdShard (b : Bytes) (j : Nat) : Nat := field b (0x80 + 16 * j) 4
def rdElems (b : Bytes) (j : Nat) : Nat := field b (0x84 + 16 * j) 4
def rdCohort (b : Bytes) (j : Nat) : Nat := field b (0x88 + 16 * j) 4
def rdHost (b : Bytes) (j : Nat) : Nat := field b (0x8C + 16 * j) 2
/-- Elements of a chunk, and chunks of a client in shard j. -/
def rdChunkElems (b : Bytes) : Nat := rdChunk b / ringSize (rdRing b)
def rdChunks (b : Bytes) (j : Nat) : Nat := rdElems b j / rdChunkElems b
/-- Effective K of a cohort (R192). -/
def rdKeff (b : Bytes) (j : Nat) : Nat := min (rdK b) (rdCohort b j - 1)

/-- This module's id (R323). -/
def State.ownId (s : State) : Nat := s.fld (Reg.twTopo 0) 13 0
/-- This module coordinates the round; it is the fold root. -/
def State.isCoord (s : State) (b : Bytes) : Bool := decide (rdCoord b = s.ownId)
/-- Entries of the descriptor whose HOST is this module. -/
def State.ownShards (s : State) (b : Bytes) : List Nat := (List.range (rdN b)).filter (fun j => decide (rdHost b j = s.ownId))
/-- The entry of a shard that this module hosts. -/
def State.shardIx (s : State) (b : Bytes) (shard : Nat) : Option Nat :=
  (s.ownShards b).find? (fun j => decide (rdShard b j = shard))

/-! ### Clients -/

def Round.client (r : Round) (j u : Nat) : Client := r.clients.get (fun _ => Client.zero) (j * 2 ^ 20 + u)
def Round.setClient (r : Round) (j u : Nat) (x : Client) : Round :=
  { r with clients := r.clients.put (fun _ => Client.zero) (j * 2 ^ 20 + u) x }

/-- The slot of a client in shard entry j: its place in the cohort list of the round request (R185). -/
def Round.slotOf (r : Round) (j : Nat) (client : QWord) : Option Nat := (r.cohorts.getD j []).idxOf? client

/-- Every client of entry j, with its slot. -/
def Round.eachClient (r : Round) (j : Nat) (f : Nat → Client → Client) : Round :=
  (List.range (rdCohort r.desc j)).foldl (fun t u => t.setClient j u (f u (t.client j u))) r

/-- Bit n of a bitmap at an address: the byte and the bit within it (R198). -/
def State.bitAt (s : State) (base n : Nat) : Bool := (s.byte (base + n / 8)).getLsbD (n % 8)

/-- Chunk k of client u in shard entry j is set in the shard's bitmap (R198). -/
def State.chunkBit (s : State) (r : Round) (j u k : Nat) : Bool :=
  match r.maps.find? (fun e => decide (e.1 = j)) with
  | some e => s.bitAt e.2.1 (u * rdChunks r.desc j + k)
  | none => false

/-- Runs of false bits below n: first and count. -/
def missingRuns (n : Nat) (bit : Nat → Bool) : List (Nat × Nat) :=
  (List.range n).foldr (fun k acc =>
    if bit k then acc
    else match acc with
    | (f, c) :: rest => if f = k + 1 then (k, c + 1) :: rest else (k, 1) :: acc
    | [] => [(k, 1)]) []

/-- The client reached the accumulator in some chunk: S_c for some c. -/
def Client.inSum (x : Client) : Bool := decide (x.cls = .complete ∨ x.cls = .partly)
/-! ### Fold streams -/

/-- An entry of the table, and its bytes. -/
def State.fse (s : State) (tag : Nat) : QWord := s.fst.get (fun _ => 0) tag
def State.setFse (s : State) (tag : Nat) (v : QWord) : State := { s with fst := s.fst.put (fun _ => 0) tag v }

/-- The entry as light die l holds it: zero where a wake from OFF has cleared that die's copy (R332, R438). -/
def State.fseAt (s : State) (l tag : Nat) : QWord := if s.fstLost.get (fun _ => false) (l * 65536 + tag) then 0 else s.fse tag

/-- Every light die holds the entry again, as it is written on all of them (R333). -/
def State.fstHeld (s : State) (tag : Nat) : State := { s with fstLost := s.fstLost.clear (fun k => decide (k % 65536 = tag)) }

/-- Fields of an entry. -/
def fseB (v : QWord) (o n : Nat) : Nat := field (le 16 v.toNat) o n
def fseValid (v : QWord) : Bool := (fseB v 0 1).testBit 7
def fseArmed (v : QWord) : Bool := (fseB v 0 1).testBit 6
def fseExpired (v : QWord) : Bool := (fseB v 0 1).testBit 5
def fseRing (v : QWord) : Nat := fseB v 0 1 / 8 % 4
def fseExpect (v : QWord) : Nat := fseB v 0 1 % 8
def fseEpoch (v : QWord) : Nat := fseB v 1 1
def fseLocal (v : QWord) : Bool := (fseB v 2 1).testBit 7
def fsePort (v : QWord) : Nat := fseB v 2 1 % 8
def fseTarget (v : QWord) : Nat := fseB v 3 1 % 16
def fseNblocks (v : QWord) : Nat := fseB v 4 4
def fseDone (v : QWord) : Nat := fseB v 8 4
def fseCtx (v : QWord) : Nat := fseB v 12 1 % 16
/-- The entry with a FLAGS bit set, and with DONE replaced. -/
def fseFlag (v : QWord) (n : Nat) : QWord := v ||| BitVec.ofNat 128 (2 ^ n)
def fseSetDone (v : QWord) (n : Nat) : QWord :=
  let b := le 16 v.toNat
  BitVec.ofNat 128 (fromLE (b.take 8 ++ le 4 n ++ b.drop 12))

/-- Slots of a stream are freed and zeroed. -/
def State.freeSlots (s : State) (tag : Nat) : State :=
  { s with slots := s.slots.filter (fun x => decide (x.tag.toNat ≠ tag)) }

/-- CLEAR frees the entry's slots and zeroes it. -/
def State.fstClear (s : State) (tag : Nat) : State := ((s.freeSlots tag).fstHeld tag).setFse tag 0

/-! ### A shard that fails (R203) -/

/-- A shard becomes FAILED: its clients count as dropped (R203). -/
def Round.failShard (r : Round) (j : Nat) : Round :=
  let sh := BitVec.ofNat 24 (rdShard r.desc j)
  if sh ∈ r.failed then r else { r.eachClient j (fun _ x => { x with dropped := true }) with failed := sh :: r.failed }
def Round.isFailed (r : Round) (j : Nat) : Bool := r.failed.contains (BitVec.ofNat 24 (rdShard r.desc j))

/-- The stream of a FAILED shard is CLEARed at the root, which the coordinator asks for (R203, R333). -/
def State.clearStream (s : State) (c : Nat) (b : Bytes) (sh : Nat) : State :=
  if ¬ rdGroup b then s
  else if rdRoot b = s.ownId then s.fstClear (Config.streamTag c sh % 65536)
  else if s.isCoord b then s.emit (.daxna (BitVec.ofNat 14 (rdRoot b)) 4 (be 3 sh))
  else s

/-- A shard of this module fails: it is FAILED, and its number goes to the coordinator, which has its stream CLEARed
(R203). -/
def State.shardFails (s : State) (c : Nat) (r : Round) (j : Nat) : State :=
  if r.isFailed j then s
  else
    let s1 := s.setRound c (r.failShard j)
    if rdGroup r.desc ∧ ¬ s.isCoord r.desc then
      (s1.emit (.daxna (BitVec.ofNat 14 (rdCoord r.desc)) 3 (be 3 (rdShard r.desc j)))).clearStream c r.desc (rdShard r.desc j)
    else s1.clearStream c r.desc (rdShard r.desc j)

/-- The shard whose SEAL runs over a mask sum at an address fails, if the round has it (R203, R210). -/
def State.sumFails (s : State) (c a : Nat) : State :=
  match s.round c with
  | none => s
  | some r =>
    match (List.range (rdN r.desc)).find? (fun j => decide (rdShard r.desc j = Config.sumShard c a)) with
    | some j => if s.roundOpen c then s.shardFails c r j else s
    | none => s

/-- The block of a shard's mask sum that a SEAL found uncorrectable is to be expanded again (R210). -/
def State.sumAgain (s : State) (c base a : Nat) : State :=
  match s.round c with
  | none => s
  | some r =>
    match (List.range (rdN r.desc)).find? (fun j => decide (rdShard r.desc j = Config.sumShard c base)) with
    | some j => if s.roundOpen c then s.setRound c { r with redo := r.redo ++ [(j, base, a, 0)] } else s
    | none => s

end Sys2Proof.Machine
end

