-- ==== Sys2Proof/Machine/Fold.lean ====
section
/-! DEFINITION. Meanings of the FOLD stage (R154–R156, R260, R266): SEAL, FOLD and BSETX. -/

namespace Sys2Proof.Machine

/-! ### Ring elements -/

/-- a + b, or a − b, in a ring of modulus m; free where an operand of Z_q is not below q (R141). -/
def State.ringAdd (s : State) (k m a b : Nat) (sub : Bool) : Nat :=
  if a < m ∧ b < m then (if sub then subMod a b m else (a + b) % m) else (Config.freeValue (s.freeCtr + k)).toNat % m

/-- Who a stage is for a bank: itself where the bank is granted to its strand, else its context's ring access (R45, R67). -/
def State.bankReq (s : State) (l : Loc) (a : Nat) : Requester :=
  match place s.part a with
  | .bank d b _ =>
    if d = l.d ∧ s.bst d b = 1 ∧ s.bvalid d b ∧ s.bstrand d b = l.s then l.req else .dma (Fin.ofNat 8 l.d) (Fin.ofNat 16 (s.sctx l.d l.s))
  | _ => l.req

/-! ### FOLD -/

/-- Lines are read, combined and written whole, in order; the run ends at the first that fails, with the earlier lines
written (R69). -/
def State.rmwLines (s : State) (r : Requester) (g : Nat → Bytes → Bytes) : List Nat → Run
  | [] => ⟨s, [], none, false, 0⟩
  | a :: as =>
    let x := s.readLine r a true
    if x.stall then ⟨x.st, [], none, true, 0⟩
    else if x.code ≠ Code.ok then ⟨x.st, [], some (.mem x.code a), false, 0⟩
    else
      let y := x.st.writeLine r a (g a x.data) true
      if y.stall then ⟨y.st, [], none, true, 0⟩
      else if y.code ≠ Code.ok then ⟨y.st, [], some (.mem y.code a), false, 0⟩
      else
        let z := y.st.rmwLines r g as
        { z with lines := z.lines + 1 }

/-- The line at L after a tile's n elements are added or subtracted from address a upward. -/
def State.foldLine (s : State) (t : Tile) (a n es m : Nat) (sub : Bool) (L : Nat) (old : Bytes) : Bytes :=
  ((List.range (64 / es)).map (fun i =>
    let x := field old (es * i) es
    let p := L + es * i
    le es (if a ≤ p ∧ p < a + n * es then s.ringAdd ((p - a) / es) m x (t.elem es ((p - a) / es)) sub else x))).flatten

/-- FOLD of a tile into the range of a descriptor (R69, R154). Where a line waits, the tile stays where it is and the lines
done are kept, so that the instruction given again goes on with the next one. A tile outside the range has left its input slot,
and bytes of VCNT beyond the last whole element are not folded (DESIGN CHOICE, notes/assumptions/107.md). Of a tile register
with an uncorrectable word the lines before that word are folded (R126). -/
def State.foldTile (s : State) (l : Loc) (f : Fields) (x y : Stage) (t : Tile) (d : Desc) (m : Nat) : State :=
  let es := ringSize (f.imf 1 0)
  let a := d.base + t.tag.toNat % 2 ^ 32 * es
  let n := t.vcnt.toNat / es
  let z := { y with foldPos := 0 }
  if d.base + d.length < a + t.vcnt.toNat then (s.setStage l.ix z).stageFault l (.mem Code.accessBounds a)
  else
    let bad := match t.bad with | some p => decide (16 * p < n * es) | none => false
    let ls := (linesOf a (n * es)).filter (fun L => match t.bad with | some p => decide (L + 64 ≤ a + 16 * p) | none => true)
    let r := s.rmwLines l.req (s.foldLine t a n es m (decide (f.imf 2 2 = 1))) ((if bad then ls else linesOf a (n * es)).drop x.foldPos)
    if r.stall then (r.st.setStage l.ix { x with foldPos := x.foldPos + r.lines }).waits
    else match r.err with
    | some e => (if r.st.bound l.d l.s then r.st.setStage l.ix z else r.st).memFault s l e
    | none =>
      let v := r.st.took n
      if bad then v.badTile l z f.a none 0 z
      else if f.imf 3 3 = 1 ∧ t.last then ((v.iCount64 l 0x08).someChunkLeaves l.d l.s).retire l z else v.retire l z

/-- FOLD whose guard is 0 retires; a tile under INSLOT is taken all the same. -/
def State.foldGuarded (s : State) (l : Loc) (f : Fields) (x : Stage) : State :=
  if f.hint = 2 then s.withSlot l x (fun _ y => s.retire l y) else s.retire l x

/-- FOLD (R154). -/
def execFold (l : Loc) (f : Fields) (s : State) : Result :=
  let ring := f.imf 1 0
  .next (s.issue l 0x69 f
    { stages := [St.fold], sa := .t, sb := .d, sc := .p, qsel := decide (ring = 2), hints := [0, 2], imm := 0xF
      extra := decide (ring ≠ 3) } (fun x =>
    let q := (x.qr f.qsel).toNat
    let d := Desc.of (x.dr f.b)
    if ring = 2 ∧ q = 0 then s.insnFault l Code.formatError
    else if ¬ x.pr f.c then s.foldGuarded l f x
    else if ¬ d.ok l.s 1 [1] then s.insnFault l Code.formatError
    else if f.hint = 2 then s.withSlot l x (fun t y => s.foldTile l f x y t d (ringMod ring q))
    else s.foldTile l f x x (x.tr f.a) d (ringMod ring q)))

/-! ### BSETX -/

/-- BSETX after the exchange, with the bit as it was (R154). -/
def State.bsetxDone (s : State) (l : Loc) (f : Fields) (x : Stage) (old : Bool) : State :=
  let y := x.setP f.d (!old)
  if old ∧ f.i = 1 then ((s.iCount l 0x1C).someChunkLeaves l.d l.s).retireWith l y Code.duplicateChunk
  else s.retire l y

/-- BSETX (R47, R48, R154), which reaches no accumulator bank (R87); the bit of another die's bank comes back over the ring
(R16). -/
def execBsetx (l : Loc) (f : Fields) (s : State) : Result :=
  .next (s.issue l 0x6A f
    { stages := [St.fold], dst := .p, sa := .d, sb := .s, imm := 1, extra := decide (1 ≤ f.d) && decide (f.d ≤ 6) } (fun x =>
    let d := Desc.of (x.dr f.a)
    let n := (x.sr f.b).toNat
    let a := d.base + n / 8
    if ¬ d.ok l.s 1 [1] then s.insnFault l Code.formatError
    else if d.length ≤ n / 8 then s.stageFault l (.mem Code.accessBounds a)
    else match place s.part a with
    | .bank _ _ _ =>
      let r := s.writeLine (s.bankReq l a) (a + 0x80000000) [BitVec.ofNat 8 (2 ^ (n % 8))] false
      if r.stall then r.st.waits
      else if r.code ≠ Code.ok then r.st.memFault s l (.mem r.code a)
      else
        r.st.across (placeDie l.d (place s.part a)) l.d (fun u => u.memFault s l (.mem Code.eccUncorrectable a))
          (fun u => u.bsetxDone l f x ((r.data.getD (a % 64) 0).getLsbD (n % 8)))
    | _ => s.stageFault l (.mem Code.accessBounds a)))

/-! ### SEAL -/

/-- What SEAL works on: form, ring, modulus, noise, group mask, scale, source, mask-sum and destination bases, length
(R155). -/
structure SealCfg where
  form : Nat
  ring : Nat
  m    : Nat
  dp   : Bool
  gm   : Bool
  frac : Nat
  acc  : Nat
  msum : Nat
  dst  : Nat
  len  : Nat
deriving DecidableEq, Repr

/-- Every line of a range lies in banks granted to this strand, accumulator banks where `acc`. -/
def State.grantedRange (s : State) (l : Loc) (acc : Bool) (a n : Nat) : Bool :=
  (linesOf a n).all (fun x =>
    match place s.part x with
    | .bank d b _ => decide (d = l.d) && decide (s.bst d b = 1) && s.bvalid d b && decide (s.bstrand d b = l.s) &&
        (s.bacc d b || !acc)
    | _ => false)

/-- Every line of a range lies in one HBM data range of context c. -/
def State.hbmRange (s : State) (c a n : Nat) : Bool :=
  (linesOf a n).all (fun x =>
    match place s.part x with
    | .hbm d _ => decide (d = a / s.part.block) && decide (s.granuleOf x = c)
    | _ => false)

/-- Every line of a range lies in banks owned by context c. -/
def State.ctxBankRange (s : State) (c a n : Nat) : Bool :=
  (linesOf a n).all (fun x =>
    match place s.part x with
    | .bank d b _ => decide (s.bst d b = 1) && s.bownedBy d b c
    | _ => false)

/-- The F-strand that RELEASE writes to: 10 or 11 of this die, by FSEL; its index, and its CONVERT stage. -/
def relStrand (l : Loc) (f : Fields) : Nat := strandIx l.d (10 + f.imf 6 6)
def relStage (l : Loc) (f : Fields) : Nat := relStrand l f * 8

/-- The target of RELEASE runs and is bound to the context of this strand. -/
def State.relTarget (s : State) (l : Loc) (f : Fields) : Bool :=
  decide (s.sst l.d (10 + f.imf 6 6) = SS.running) && decide (s.sctx l.d (10 + f.imf 6 6) = s.sctx l.d l.s)

/-- The target still receives another SEAL's stream, or CONVERT has not taken its LAST tile (R266). -/
def State.relBusy (s : State) (l : Loc) (f : Fields) : Bool :=
  match (s.strand (relStrand l f)).stream with
  | some i => decide (i ≠ iNum l.d l.s)
  | none => (s.stage (relStage l f)).slots.any (fun t => t.last && t.dest == 0)

/-- CONVERT's input holds no free slot (R75). -/
def State.relFull (s : State) (l : Loc) (f : Fields) : Bool :=
  let x := s.stage (relStage l f)
  decide (4 ≤ x.slots.length + x.owed + (if x.filling.isSome then 1 else 0))

/-- One output element: a − m + g, with a word drawn for it standing for the noise sampler's output (R155;
notes/assumptions/2.md); `p` the port of FOLD. -/
def State.sealElem (s : State) (c : SealCfg) (p k a m g : Nat) : Nat :=
  if a < c.m ∧ m < c.m ∧ g < c.m then (a + c.m - m + g + (if c.dp then (s.drawn p k).toNat else 0)) % c.m
  else (Config.freeValue (s.freeCtr + k)).toNat % c.m

/-- The output line of a line of a, of m and of the group mask. -/
def State.sealLine (s : State) (c : SealCfg) (p : Nat) (a m g : Bytes) : Bytes :=
  let es := ringSize c.ring
  ((List.range (64 / es)).map (fun i => le es (s.sealElem c p i (field a (es * i) es) (field m (es * i) es) (field g (es * i) es)))).flatten

/-- SEAL has ended at this stage: nothing of it is kept (R100). -/
def Stage.sealEnd (x : Stage) : Stage := { x with sealPos := 0, sealing := false, sealSave := [] }

/-- The bank or HBM address of the line in progress of the SEAL at a stage's PC (R100). -/
def Stage.sealLineAt (x : Stage) : Nat :=
  (Desc.of (x.dr (x.fetch.toNat / 2 ^ 46 % 32))).base + x.sealPos * 64

/-- The SEAL's descriptors at a stage's PC. -/
def Stage.sealDesc (x : Stage) (sh : Nat) : Desc := Desc.of (x.dr (x.fetch.toNat / 2 ^ sh % 32))

/-- The fault is an uncorrectable word of the line in progress of the range at `base` (R210). -/
def Stage.sealEccAt (x : Stage) (e : FaultInfo) (base : Nat) : Bool :=
  decide (e.code = Code.eccUncorrectable ∧ e.origin = Origin.mem ∧ e.addr / 64 * 64 = base + x.sealPos * 64)

/-- Daxna seals again after the fault of a SEAL, or the round aborts (R210): the entropy source refused; RELEASE output had
begun, unless the accumulator is uncorrectable (DESIGN CHOICE, notes/assumptions/13.md); a fault that ends the round. -/
def Stage.sealsAgain (x : Stage) (e : FaultInfo) : Bool :=
  decide (e.code = Code.entropyUnavailable ∨ e.code = Code.keyRevoked ∨ e.code = Code.integrityFail ∨
    e.code = Code.thermalHalt) ||
  (decide (x.fetch.toNat % 4 = 2 ∧ 0 < x.sealPos) && !x.sealEccAt e (x.sealDesc 46).base)

/-- What a SEAL's fault does to its shard (R210): the failing block of the mask sum is expanded again, it is sealed again as
it is, the round aborts, or the shard fails. -/
def State.sealOutcome (s : State) (l : Loc) (e : FaultInfo) : State :=
  let x := s.stage l.ix
  let m := (x.sealDesc 41).base
  if x.sealEccAt e m then s.sumAgain (s.sctx l.d l.s) m e.addr
  else if x.sealsAgain e then s
  else s.sumFails (s.sctx l.d l.s) m

/-- A fault of a SEAL in progress: the stage zeroes what it holds of it, then faults; the record names the line in
progress (R100); the shard fails where R210 says so. -/
def State.sealFault (s s0 : State) (l : Loc) (e : FaultInfo) : State :=
  if s.bound l.d l.s then
    ((s.sealOutcome l e).setStage l.ix (s.stage l.ix).sealEnd).stageFault l { e with addr := (s.stage l.ix).sealLineAt }
  else s.memFault s0 l e

/-- A SEAL that has read nothing faults, and its shard with it where R210 says so. -/
def State.sealStartFault (s : State) (l : Loc) (e : FaultInfo) : State := (s.sealOutcome l e).stageFault l e

/-- A running stage faults from outside its instruction, which may be a SEAL in progress (R100, R156). -/
def State.haltStage (s : State) (l : Loc) (e : FaultInfo) : State :=
  let x := s.stage l.ix
  if x.sealPos = 0 ∧ ¬ x.sealing then s.stageFault l e else s.sealFault s l e

/-- The tile under construction of a RELEASE stream: the FP32 elements of one line appended (R155). -/
def relTile (c : SealCfg) (pos : Nat) (old : Option Tile) (v : Bytes) : Tile :=
  let es := ringSize c.ring
  let n := v.length / es
  let t := (if pos = 0 then none else old).getD { Tile.zero with tag := BitVec.ofNat 64 (pos * 64 / es) }
  let k := t.vcnt.toNat / 4
  let pat := fun i =>
    let e := field v (es * i) es
    f32OfInt (if c.ring = 2 then centre e c.m else if c.ring = 0 then (BitVec.ofNat 32 e).toInt else (BitVec.ofNat 64 e).toInt)
      (-(c.frac : Int))
  { t with
    vcnt := BitVec.ofNat 16 (4 * (k + n))
    words := f32Words (fun i => if i < k then (t.h i).toNat else if i < k + n then pat (i - k) else 0) }

/-- Beats of a tile reach CONVERT's input; a complete tile stands in its slot. The target counts as bound to receive this
stream, until its LAST tile (R93, R266). -/
def State.relPush (s : State) (l : Loc) (f : Fields) (t : Tile) (whole : Bool) : State :=
  let k := relStage l f
  let x := s.stage k
  let u := s.strand (relStrand l f)
  (s.setStage k (if whole then { x with slots := x.slots ++ [t], filling := none } else { x with filling := some t })).setStrand
    (relStrand l f) { u with release := true, stream := if whole ∧ t.last then none else some (iNum l.d l.s) }

/-- The lines of the first component that the digits of one output line reach: four for each limb (R260). -/
def encAddrs (h : Hdr) (o : Nat) : List Nat :=
  ((List.range h.limbs).map (fun b => (List.range 4).map (fun k => h.ptr + b * 2 ^ h.logn * 8 + o * 4 + 64 * k))).flatten

/-- The digits of the output line v at offset o added into the line at address a of the first component (R260); a residue
not below its prime gives a free one. -/
def State.encLine (s : State) (p : PSet) (h : Hdr) (o : Nat) (v : Bytes) (a : Nat) (old : Bytes) : Bytes :=
  let N := 2 ^ h.logn
  ((List.range 8).map (fun i =>
    let k := (a - h.ptr) / 8 + i
    let q := p.q (k / N)
    let x := field old (8 * i) 8
    let m := field v (2 * (k % N) - o) 2
    le 8 (if x < q then (x + m) % q
      else (Config.freeValue (s.freeCtr + 16 + k / N * 32 + (k % N - o / 2))).toNat % q))).flatten

/-- The digits of one output line go into the first component line by line; each line is kept as it was until the SEAL has
ended (R156). -/
def State.encLines (s : State) (l : Loc) (g : Nat → Bytes → Bytes) : List Nat → Run
  | [] => ⟨s, [], none, false, 0⟩
  | a :: as =>
    let x := s.readLine l.req a true
    if x.stall then ⟨x.st, [], none, true, 0⟩
    else if x.code ≠ Code.ok then ⟨x.st, [], some (.mem x.code a), false, 0⟩
    else
      let y := x.st.writeLine l.req a (g a x.data) true
      if y.stall then ⟨y.st, [], none, true, 0⟩
      else if y.code ≠ Code.ok then ⟨y.st, [], some (.mem y.code a), false, 0⟩
      else
        let z := y.st.stage l.ix
        (y.st.setStage l.ix { z with sealSave := (a, x.data) :: z.sealSave }).encLines l g as

/-- Line k of a REMASK destination is written: the first begins the record of its SEAL, in place of one that overlaps (R337). -/
def State.sealWrote (s : State) (i base total k : Nat) : State :=
  let old := s.sealed.get (fun _ => []) i
  let xs :=
    if k = 0 then
      old.filter (fun x => decide (x.base + 64 * x.total ≤ base ∨ base + 64 * total ≤ x.base)) ++ [⟨base, total, 1⟩]
    else old.map (fun x =>
      if base ≤ x.base ∧ x.base + 64 * x.total = base + 64 * total then { x with lines := (base + 64 * (k + 1) - x.base) / 64 } else x)
  { s with sealed := s.sealed.put (fun _ => []) i xs }

/-- The output line v at offset o goes out in its form (R155); the data of ENCRYPT's line waits for no more than the lines
it still reaches, those kept in sealSave being done. -/
def State.sealPut (s : State) (l : Loc) (f : Fields) (c : SealCfg) (o : Nat) (v : Bytes) : Run :=
  if c.form = 0 then
    let w := s.writeLine (s.bankReq l (c.dst + o)) (c.dst + o) v true
    if w.stall then ⟨w.st, [], none, true, 0⟩
    else if w.code ≠ Code.ok then ⟨w.st, [], some (.mem w.code (c.dst + o)), false, 0⟩
    else ⟨w.st.sealWrote (iNum l.d l.s) c.dst ((c.len + 63) / 64) (o / 64), [], none, false, 1⟩
  else if c.form = 1 then
    let x := s.stage l.ix
    let h := s.hdr l (Desc.of (x.dr f.d)).index
    match s.pset h.ctx h.pset with
    | none => ⟨s, [], some (.insn Code.formatError), false, 0⟩
    | some p => s.encLines l (s.encLine p h o v) ((encAddrs h o).filter (fun a => decide (a ∉ x.sealSave.map Prod.fst)))
  else
    let t := { relTile c (o / 64) (s.stage (relStage l f)).filling v with last := decide (c.len ≤ o + 64) }
    ⟨s.relPush l f t (t.last || decide (t.vcnt.toNat = 16384)), [], none, false, 1⟩

/-- The next line of SEAL: read from both ranges, combined, put out; `g` is its group-mask line (R155). -/
def State.sealStep (s : State) (l : Loc) (f : Fields) (c : SealCfg) (g : Bytes) : Run :=
  let o := (s.stage l.ix).sealPos * 64
  if c.form = 2 ∧ (s.relBusy l f ∨ ((o = 0 ∨ (s.stage (relStage l f)).filling = none) ∧ s.relFull l f)) then ⟨s, [], none, true, 0⟩
  else
    let x := s.readLine l.req (c.acc + o) true
    if x.stall then ⟨x.st, [], none, true, 0⟩
    else if x.code ≠ Code.ok then ⟨x.st, [], some (.mem x.code (c.acc + o)), false, 0⟩
    else
      let y := x.st.readLine l.req (c.msum + o) true
      if y.stall then ⟨y.st, [], none, true, 0⟩
      else if y.code ≠ Code.ok then ⟨y.st, [], some (.mem y.code (c.msum + o)), false, 0⟩
      else
        let p := Port.fold (iNum l.d l.s)
        let w := y.st.sealPut l f c o ((y.st.sealLine c p x.data y.data g).take (c.len - o))
        if w.stall ∨ w.err ≠ none then w
        else
          let z := w.st.stage l.ix
          let t := (w.st.setStage l.ix { z with sealPos := z.sealPos + 1 }).took (if c.form = 1 then 2064 else 16)
          { w with st := if c.dp then t.draw p 16 else t }

/-- The next n lines; `g` gives the group-mask line of an offset. -/
def State.sealLines (s : State) (l : Loc) (f : Fields) (c : SealCfg) (g : Nat → Bytes) : Nat → Run
  | 0 => ⟨s, [], none, false, 0⟩
  | n + 1 =>
    let r := s.sealStep l f c (g ((s.stage l.ix).sealPos * 64))
    if r.stall ∨ r.err ≠ none then r else r.st.sealLines l f c g n

/-- A SEAL takes the encryption of zero at DATA_PTR, or gives it back (R262). -/
def State.takeZero (s : State) (l : Loc) (ptr : Nat) (on : Bool) : State :=
  let k := s.sctx l.d l.s
  let x := s.ctx k
  s.setCtx k { x with zeros := x.zeros.map (fun z => if z.ptr = ptr then { z with taken := on } else z) }

/-- An encryption of zero at DATA_PTR that no SEAL has taken (R262). -/
def State.zeroFree (s : State) (l : Loc) (ptr : Nat) : Bool :=
  (s.ctx (s.sctx l.d l.s)).zeros.any (fun z => decide (z.ptr = ptr) && !z.taken)

/-- Lines written back one after another, each by its requester, whatever becomes of one of them; whether one waits. -/
def State.putBack (s : State) (r : State → Nat → Requester) : List (Nat × Bytes) → State × Bool
  | [] => (s, false)
  | e :: es =>
    let w := s.writeLine (r s e.1) e.1 e.2 true
    if w.stall then (w.st, true) else w.st.putBack r es

/-- The output of a refused SEAL is undone: the lines of a REMASK destination are zeroed, an ENCRYPT destination takes its
first component back, and its encryption of zero is free again (R156, R262); whether a line waits. -/
def State.sealUndo (s : State) (l : Loc) (c : SealCfg) (ptr : Nat) (x : Stage) : State × Bool :=
  if c.form = 0 then
    let z := s.putBack (fun t a => t.bankReq l a)
      ((List.range x.sealPos).map (fun k => (c.dst + 64 * k, List.replicate (min 64 (c.len - 64 * k)) 0)))
    ({ z.1 with sealed := z.1.sealed.put (fun _ => []) (iNum l.d l.s) [] }, z.2)
  else if c.form = 1 then
    let z := s.putBack (fun _ _ => l.req) x.sealSave
    (z.1.takeZero l ptr false, z.2)
  else (s, false)

/-- SEAL refused by the entropy source. Its output is undone, and waits where its memory waits; a RELEASE stream ends with a DATA_ERR tile, which waits for
its credit; the instruction counts as not executed (R156). -/
def State.sealRefused (s : State) (l : Loc) (f : Fields) (x : Stage) (c : SealCfg) : State :=
  let e : FaultInfo := ⟨Code.entropyUnavailable, Origin.keyPort, 0, 0, false⟩
  if x.sealPos = 0 ∧ c.form ≠ 1 then s.sealFault s l e
  else if c.form = 2 then
    let t := (s.stage (relStage l f)).filling
    if t = none ∧ s.relFull l f then s.waits
    else (s.relPush l f { t.getD Tile.zero with dataErr := true, last := true } true).sealFault s l e
  else
    let z := s.sealUndo l c (s.hdr l (Desc.of (x.dr f.d)).index).ptr x
    if z.2 then z.1.waits else z.1.sealFault s l e

/-- A SEAL with FORM = ENCRYPT has ended: the encryption of zero it took is bound (R262). -/
def State.bindZero (s : State) (l : Loc) (c : SealCfg) (ptr : Nat) : State :=
  let k := s.sctx l.d l.s
  let x := s.ctx k
  if c.form = 1 ∧ x.zeros.any (fun z => decide (z.ptr = ptr)) then
    let s1 := s.setCtx k { x with zeros := x.zeros.filter (fun z => decide (z.ptr ≠ ptr)) }
    match s1.round k with
    | some r => s1.setRound k { r with bound := r.bound + 1 }
    | none => s1
  else s

/-- The lines of a block have run: SEAL retires with the last line, and otherwise stands where it is with its lines done.
`taken`: the input slots once the block's group-mask tile has been read to its end; `ptr`: DATA_PTR of ENCRYPT's
destination. -/
def State.sealAfter (s : State) (l : Loc) (c : SealCfg) (ptr : Nat) (taken : Option (List Tile)) (r : Run) : State :=
  if r.stall then (r.st.setStage l.ix { r.st.stage l.ix with sealing := true }).waits
  else match r.err with
  | some e => r.st.sealFault s l e
  | none =>
    let z := r.st.stage l.ix
    let y := match taken with
      | some ts => { z with slots := ts, owed := z.owed + 1 }
      | none => z
    if c.len ≤ z.sealPos * 64 then (r.st.bindZero l c ptr).retire l y.sealEnd else (r.st.setStage l.ix y).waits

/-- The next block of SEAL: what is left of 64 lines, with the group-mask tile of the block (R155). A SEAL RELEASE whose target
takes another stream waits before anything else of it (R266). -/
def State.sealBlock (s : State) (l : Loc) (f : Fields) (x : Stage) (c : SealCfg) : State :=
  let n := min (64 - x.sealPos % 64) ((c.len + 63) / 64 - x.sealPos)
  let p := (s.hdr l (Desc.of (x.dr f.d)).index).ptr
  if c.form = 2 ∧ s.relBusy l f then s.waits
  else match (if c.dp then s.entPort else .served) with
  | .stall => s.waits
  | .refused => s.sealRefused l f x c
  | .served =>
    if c.gm then
      match x.takeSlot l.g with
      | none => s.waits
      | some (t, y) =>
        if t.dataErr then (s.setStage l.ix y).sealFault s l ⟨Code.eccUncorrectable, Origin.inChan, 0, 0, false⟩
        else s.sealAfter l c p (some y.slots) (s.sealLines l f c (fun o => sub (t.bytes 4096) (o % 4096) 64) n)
    else s.sealAfter l c p none (s.sealLines l f c (fun _ => []) n)

/-- The conditions on the ranges of R155; ENCRYPT's lengths are R259's. -/
def State.sealRanges (s : State) (l : Loc) (f : Fields) (c : SealCfg) (da db dd : Desc) : Bool :=
  let k := s.sctx l.d l.s
  (s.grantedRange l true da.base da.length || s.hbmRange k da.base da.length) &&
  (s.grantedRange l false db.base db.length || s.hbmRange k db.base db.length) &&
  (decide (c.form = 1) || decide (db.length = da.length)) &&
  (if c.form = 0 then decide (dd.length = da.length) &&
      (s.grantedRange l false dd.base dd.length || s.ctxBankRange k dd.base dd.length || s.hbmRange k dd.base dd.length)
   else true) &&
  (if c.form = 2 then s.relTarget l f else true)

/-- The destination and the lengths of ENCRYPT suit (R155, R259, R260): its data lies in the context's HBM. -/
def State.encFits (s : State) (c : SealCfg) (h : Hdr) (msum : Nat) : Bool :=
  decide (h.typ = 1) && !h.ntt && decide (h.ptLog = 16) && decide (h.scale = 0) && decide (c.len = 2 * 2 ^ h.logn) &&
  decide (msum = 2 * 2 ^ h.logn) && (s.pset h.ctx h.pset).isSome && s.hbmRange h.ctx h.ptr h.len

/-- SEAL begins: its conditions in the order of R155 and R131; nothing is read before they hold. SEAL ENCRYPT waits until its
destination is an encryption of zero that Daxna still has to give, and takes it (R262; DESIGN CHOICE,
notes/assumptions/131.md). -/
def State.sealStart (s : State) (l : Loc) (f : Fields) (x : Stage) (c : SealCfg) (da db dd : Desc) : State :=
  if c.form = 1 ∧ poisoned (s.cipher l dd.index) then (s.sealOutcome l (.insn Code.poisonedOperand)).refuseRelease l
  else if ¬ s.sealRanges l f c da db dd then s.sealStartFault l (.mem Code.accessBounds da.base)
  else if c.form = 1 then
    (let h := s.hdr l dd.index
     match s.hdrCheck (s.sctx l.d l.s) h with
     | some e => s.sealStartFault l (.insn e)
     | none =>
       if ¬ s.encFits c h db.length then s.sealStartFault l (.insn Code.formatError)
       else if x.sealing then s.sealBlock l f x c
       else if s.zeroFree l h.ptr then
         (let y := { x with sealing := true }
          ((s.takeZero l h.ptr true).setStage l.ix y).sealBlock l f y c)
       else s.waits)
  else if c.len = 0 then s.retire l x
  else s.sealBlock l f x c

/-- SEAL (R155, R156, R266): one 4 KiB block at a time; the command is given again until the last (notes/assumptions/13.md). -/
def execSeal (l : Loc) (f : Fields) (s : State) : Result :=
  let form := f.imf 1 0
  let ring := f.imf 3 2
  let dp := decide (f.imf 4 4 = 1)
  .next (s.issue l 0x68 f
    { stages := [St.fold], dst := if form = 2 then .none else .d, sa := .d, sb := .d, sc := if dp then .s else .none
      qsel := decide (ring = 2), imm := 0x1F7F, extra := decide (form ≠ 3) && decide (ring ≠ 3) } (fun x =>
    let da := Desc.of (x.dr f.a)
    let db := Desc.of (x.dr f.b)
    let dd := Desc.of (x.dr f.d)
    let q := (x.qr f.qsel).toNat
    let c : SealCfg := ⟨form, ring, ringMod ring q, dp, decide (f.imf 5 5 = 1), f.imf 12 8, da.base, db.base, dd.base, da.length⟩
    if ¬ (da.ok l.s 1 [1] && db.ok l.s 1 [1]) ∨ (form = 0 ∧ ¬ dd.ok l.s 1 [1]) ∨ (form = 1 ∧ ¬ dd.ok l.s 1 [3]) ∨
        (ring = 2 ∧ q = 0) ∨ (dp ∧ x.sr f.c = 0) then s.sealStartFault l (.insn Code.formatError)
    else if x.sealPos = 0 then s.sealStart l f x c da db dd
    else s.sealBlock l f x c))

end Sys2Proof.Machine
end

