-- ==== Sys2Proof/Machine/Governor.lean ====
section
/-! DEFINITION. Meanings of the governor's commands (R449–R469, R495, R496). -/

namespace Sys2Proof.Machine

/-! ### Reasons (R465) -/

namespace Reason
def peak : Nat := 0
def sustained : Nat := 1
def thermal : Nat := 2
def springBudget : Nat := 3
def domainLock : Nat := 4
def regulator : Nat := 5
def external : Nat := 6
end Reason

/-- Reason i is active. -/
def State.reason (s : State) (i : Nat) : Bool := s.fld Reg.govReason i i = 1

/-- Reason i becomes active or inactive; a change writes a record, and activity sets STICKY (R465, R469). -/
def State.setReason (s : State) (i : Nat) (on : Bool) : State :=
  if s.reason i = on then s
  else
    let s1 := s.setFld Reg.govReason i i (b2n on)
    let s2 := if on then s1.setFld Reg.govReason (16 + i) (16 + i) 1 else s1
    s2.post 2 (Ev.of 5 2 Code.ok 4 0 0 (i + 2 ^ 8 * b2n on))

/-! ### The point -/

/-- A code of 3 in a point field acts as MEAN (R453). -/
def pointOf (x : Nat) : Nat := if x = 3 then 1 else x

/-- Point in force on every compute die. -/
def State.point (s : State) : Nat := s.fld Reg.govStat 31 30

/-- The hint of a strand: the highest hint of its stages (R132). -/
def State.strandHint (s : State) (d st : Nat) : Option Nat :=
  (List.range (kindStages (strandKind st))).foldl (fun m g =>
    match (s.stage (stageIx d st g)).hint, m with
    | some h, some x => some (max h.toNat x)
    | some h, none => some h.toNat
    | none, m => m) none

/-- The highest hint of any bound strand (R453). -/
def State.hint (s : State) : Option Nat :=
  allStrands.foldl (fun m e =>
    if s.bound e.1 e.2 then
      match s.strandHint e.1 e.2, m with
      | some h, some x => some (max h x)
      | some h, none => some h
      | none, m => m
    else m) none

/-- LIMIT_MS as it acts (R469). -/
def State.springLimit (s : State) : Nat := min (s.fld Reg.govSpring 15 0) 500
/-- SPRING_USED (R458). -/
def State.springUsed (s : State) : Nat := (s.gov.spring.filter (fun b => b)).length
/-- spring_blocked after a look at the budget (R453, R458). -/
def State.springBlocked (s : State) : Bool :=
  s.springLimit ≤ s.springUsed ∨ (s.gov.springBlk ∧ ¬ (s.springUsed + 100 ≤ s.springLimit))

/-- EXTERNAL holds: LOCK_THROTTLE_N acts, or COOLANT_OK is low after its filter (R453, R496). -/
def State.external (s : State) : Bool := s.gov.extPin || s.gov.coolantLow

/-- min(want, max_point) of R453. -/
def State.wantPoint (s : State) : Nat :=
  min (pointOf ((s.hint).getD (s.fld Reg.govCtl 29 28))) (pointOf (s.fld Reg.govCtl 27 26))

/-- STICKY of a reason that is still active reads 1 again after a clear (R469; log 142). -/
def State.stickyActive (s : State) : State :=
  s.setFld Reg.govReason 22 16 (s.fld Reg.govReason 22 16 ||| s.fld Reg.govReason 6 0)

/-- The terms of R453 with their reasons, each a bound on the point. -/
def State.ownTerms (s : State) : List (Nat × Nat) :=
  [(Reason.springBudget, if s.gov.springBlk then 1 else 2), (Reason.thermal, s.gov.thermalPt.toNat),
   (Reason.sustained, s.gov.sustPt.toNat), (Reason.external, if s.external then pointOf (s.fld Reg.govCtl 25 24) else 2)]

/-- own of R453. -/
def State.ownPoint (s : State) : Nat := (s.ownTerms).foldl (fun p t => min p t.2) s.wantPoint

/-- LOCK_EN. -/
def State.lockEn (s : State) : Bool := s.fld Reg.govCtl 31 31 = 1

/-- point of R453, REGULATOR apart. -/
def State.decided (s : State) : Nat :=
  match s.gov.lockApplied with
  | some p => if s.lockEn then min s.ownPoint p.toNat else s.ownPoint
  | none => s.ownPoint

/-- REGULATOR holds the point (R451). -/
def State.regHeld (s : State) : Bool := s.reason Reason.regulator

/-- The clocks of every die move to a point: one record per die, each with its core COUNT (R29, R450). -/
def State.moveClocks (s : State) (p : Nat) : State :=
  (List.range 4).foldl (fun t d =>
    t.post 2 { Ev.of 5 1 Code.ok 0 d 0 (p + 2 ^ 8 * s.point) with dom := 0x10 + d }) (s.setFld Reg.govStat 31 30 p)

/-- VCORE in mV at a point with a trim of n steps: the middle of the band of R449 and 5 mV a step (R452). -/
def vcoreMv (p : Nat) (n : Int) : Nat := ((if p = 0 then 680 else if p = 1 then 780 else 860) + 5 * n).toNat

/-- VCORE of compute die d is asked for over AVSBus, at point p with a trim of n (R450). -/
def State.avsSend (s : State) (d p : Nat) (n : Int) : State := s.emit (.avs (3 + d) (vcoreMv p n))

/-- The requests of point p for every die, each with its trim. -/
def State.avsPoint (s : State) (p : Nat) : State :=
  (List.range 4).foldl (fun t d => t.avsSend d p (t.gov.trim.get (fun _ => (0 : Int)) d)) s

/-- The request in progress: a trim step's for its die, a change of point's for every die. -/
def State.avsRequest (s : State) (p : Nat) : State :=
  match s.gov.trimReq with
  | some (d, n) => s.avsSend d p n
  | none => s.avsPoint p

/-- The voltage request before the one in progress is restored (R451). -/
def State.avsRestore (s : State) : State :=
  match s.gov.trimReq with
  | some (d, _) => s.avsSend d s.gov.prevPt.toNat (s.gov.trim.get (fun _ => (0 : Int)) d)
  | none => s.avsPoint s.gov.prevPt.toNat

/-- A change of point starts (R450): raising asks for the voltage first, lowering moves the clocks first. -/
def State.startChange (s : State) (p : Nat) : State :=
  if p = s.point ∨ s.gov.change ≠ .none then s
  else
    let g := { s.gov with change := .awaitAck (BitVec.ofNat 2 p), prevPt := BitVec.ofNat 2 s.point, misses := 0, trimReq := none }
    let s1 := { s with gov := g }
    let s2 := if p < s.point then s1.moveClocks p else s1
    (s2.setFld Reg.govStat 25 25 1).avsRequest p

/-! ### Demand table (R461–R463) -/

/-- This module's id (R323). -/
def State.modId (s : State) : Nat := s.fld (Reg.twTopo 0) 13 0

/-- lock_point: the lowest point in the table (R461). -/
def lockPoint (t : Table LockEnt) : Option (BitVec 2) :=
  t.foldl (fun m e =>
    match e.2.point, m with
    | some p, some q => some (if p.toNat < q.toNat then p else q)
    | some p, none => some p
    | none, m => m) none

/-- A lock point is below another; none is above both points. -/
def lockFalls (old new : Option (BitVec 2)) : Bool :=
  match new, old with
  | some p, some q => decide (p.toNat < q.toNat)
  | some _, none => true
  | none, _ => false

/-- GOV_STAT.LOCK_POINT and GOV_LOCK_SRC follow the table; a fall of lock_point is applied at once (R462, R463). -/
def State.lockRefresh (s : State) : State :=
  let lp := lockPoint s.gov.table
  let src := s.gov.table.find? (fun e => e.2.point ≠ none ∧ e.2.point = lp)
  let s1 := (s.setFld Reg.govStat 29 28 (match lp with | some p => p.toNat | none => 3)).setReg Reg.govLockSrc
    (match src with
     | some e => BitVec.ofNat 32 (0x80000000 + e.2.reason.toNat * 2 ^ 16 + e.1 % 16384)
     | none => 0)
  if lockFalls s.gov.lockApplied lp then { s1 with gov := { s1.gov with lockApplied := lp } } else s1

/-- An entry of the demand table. -/
def State.setLockEnt (s : State) (m : Nat) (e : LockEnt) : State :=
  { s with gov := { s.gov with table := s.gov.table.put (fun _ => LockEnt.zero) m e } }
def State.lockEnt (s : State) (m : Nat) : LockEnt := s.gov.table.get (fun _ => LockEnt.zero) m

/-- The reason that holds own below min(want, max_point), lowest bit first. -/
def State.ownReason (s : State) : Option Nat :=
  (List.range 7).find? (fun i => (s.ownTerms).any (fun t => t.1 = i ∧ t.2 ≤ s.ownPoint ∧ t.2 < s.wantPoint))

/-- LOCK_DEMAND or LOCK_RELEASE for this module's own reason (R461, R372): the point is lowered before the message, and a
reason that takes over from another at the same point sends a new demand (log 87). -/
def State.lockSend (s : State) : State :=
  if ¬ s.lockEn then s
  else match s.ownReason, s.gov.demand with
  | some i, d =>
    let p := BitVec.ofNat 2 s.ownPoint
    if d = some p ∧ (s.lockEnt s.modId).reason = BitVec.ofNat 8 i then s
    else
      let q := s.gov.lseq + 1
      let s1 := ({ s with gov := { s.gov with lseq := q, demand := some p } }.setLockEnt s.modId
        ⟨some p, q, BitVec.ofNat 8 i⟩).lockRefresh
      s1.sendCtrl none 4 (be 1 p.toNat ++ be 1 i ++ be 4 q.toNat)
  | none, some _ =>
    let q := s.gov.lseq + 1
    let s1 := ({ s with gov := { s.gov with lseq := q, demand := none } }.setLockEnt s.modId ⟨none, q, 0⟩).lockRefresh
    s1.sendCtrl none 5 ([0, 0] ++ be 4 q.toNat)
  | none, none => s

/-- Another module's demand holds the lock point at own, which a reason of this module holds as well: both are recorded
(R463; log 87). -/
def State.lockCoincides (s : State) (q : BitVec 2) : Bool :=
  decide (q.toNat = s.ownPoint ∧ s.ownPoint < s.wantPoint) &&
  s.gov.table.any (fun e => decide (e.1 ≠ s.modId ∧ e.2.point = some q))

/-- Reasons as the decision leaves them (R453, R463); while REGULATOR holds the point, no other term does. -/
def State.decideReasons (s : State) : State :=
  let p := s.decided
  let free := !s.regHeld
  let s1 := (s.ownTerms).foldl (fun t r => t.setReason r.1 (free && decide (r.2 ≤ p ∧ r.2 < s.wantPoint))) s
  s1.setReason Reason.domainLock (free && s.lockEn && (match s.gov.lockApplied with
    | some q => decide (q.toNat < s.ownPoint) || s.lockCoincides q | none => false))

/-- One decision (R453). -/
def State.govDecide (s : State) : State :=
  let s0 := { s with gov := { s.gov with springBlk := s.springBlocked } }
  let s1 := s0.setFld Reg.govStat 27 26 ((s0.hint).getD 3)
  let s2 := s1.decideReasons
  let s3 := if s2.regHeld then s2 else s2.startChange s2.decided
  s3.lockSend

/-- GOV_DECISION (R453). -/
def execGovDecision (s : State) : Result := .next (s.govDecide.done Code.ok)

/-- LOCK_THROTTLE: low for the 1 µs filter makes EXTERNAL act (R454, R495). -/
def execLockThrottle (lowNs : Nat) (s : State) : Result :=
  let s1 := { s with pins := { s.pins with lockN := false } }
  if 1000 ≤ lowNs then .next (({ s1 with gov := { s1.gov with extPin := true } }.govDecide).done Code.ok)
  else .next (s1.done Code.ok)

/-- LOCK_THROTTLE_RELEASE: EXTERNAL ends once the pin has been high for 1 ms (R454). -/
def execLockThrottleRelease (highUs : Nat) (s : State) : Result :=
  let s1 := { s with pins := { s.pins with lockN := true } }
  if 1000 ≤ highUs then .next (({ s1 with gov := { s1.gov with extPin := false } }.govDecide).done Code.ok)
  else .next (s1.done Code.ok)

/-- MAIN_REQ (R508): raised while every condition holds; once MAIN is applied it stays. -/
def State.mainReqRefresh (s : State) : State :=
  let ok := s.pins.auxOk && s.pins.coolantOk && decide (6 ≤ s.boot.next) && decide (s.fld Reg.supStat 28 26 = 0) &&
    !s.pins.tripOut && s.sup.mainAbsent && decide (s.lc ≠ 4)
  { s with pins := { s.pins with mainReq := ok || (s.pins.mainReq && s.sup.mainPresent) } }

/-- COOLANT_CHANGE: the level after the 1 ms filter starts or ends the effects of R496, whether MAIN is applied or not
(log 86). -/
def execCoolantChange (high : Bool) (heldUs : Nat) (s : State) : Result :=
  let s1 := { s with pins := { s.pins with coolantOk := high } }.mainReqRefresh
  if 1000 ≤ heldUs ∧ s1.gov.coolantLow ≠ !high then
    .next ((({ s1 with gov := { s1.gov with coolantLow := !high } }.post 2
      (Ev.of 5 6 Code.ok 4 0 0 (b2n (!high)))).govDecide).done Code.ok)
  else .next (s1.done Code.ok)

/-! ### Power caps -/

/-- A cap as it acts (R455). -/
def capOf (w : Nat) : Nat := max 600 (min 2300 w)

/-- Sum of a list divided by its length. -/
def mean (l : List Nat) : Nat := if l.length = 0 then 0 else l.sum / l.length

/-- Stages that wait at BARW with filler running. -/
def State.fillerOn (s : State) : List Nat :=
  if s.gov.fillerCut then []
  else (s.stages.filter (fun e => match e.2.wait with | .barw _ => !e.2.fillerOut | _ => false)).map (fun e => e.1)

/-- BUBBLE_RATIO and HBM_LIMIT. -/
def State.bubbles (s : State) : Nat := s.fld Reg.govStat 23 16
def State.hbmLimit (s : State) : Nat := s.fld Reg.govStat 15 12

/-- BUBBLE_RATIO follows the three bubble counts. -/
def State.showBubbles (s : State) : State :=
  s.setFld Reg.govStat 23 16 (min 240 (s.gov.peakBub + s.gov.sustBub + s.gov.thermBub))

/-- Rise of the bubbles towards 240; the excess sets it in a proportion that the spec does not give (R456). -/
def State.bubbleRise (s : State) : Nat := 1 + s.free.toNat % (240 - s.bubbles)

/-- The projected excess is taken out in the order of R456: filler, bubbles, HBM limit. -/
def State.peakStep (s : State) : State :=
  if s.fillerOn ≠ [] then { s with gov := { s.gov with fillerCut := true } }
  else if s.bubbles < 240 then
    ({ s with gov := { s.gov with peakBub := s.gov.peakBub + s.bubbleRise } }.showBubbles).took 1
  else s.setFld Reg.govStat 15 12 (min 6 (s.hbmLimit + 1))

/-- One step of relaxation, in reverse order (R456): 1/8 of the HBM rate, bubbles by an amount the spec does not give, the
filler. -/
def State.relaxStep (s : State) : State :=
  if 0 < s.hbmLimit then s.setFld Reg.govStat 15 12 (s.hbmLimit - 1)
  else if 0 < s.gov.peakBub then
    ({ s with gov := { s.gov with peakBub := s.gov.peakBub - (1 + s.free.toNat % s.gov.peakBub) } }.showBubbles).took 1
  else { s with gov := { s.gov with fillerCut := false } }

/-- Everything that R456 took out has been given back. -/
def State.peakOver (s : State) : Bool := decide (s.hbmLimit = 0 ∧ s.gov.peakBub = 0) && !s.gov.fillerCut

/-- The energy of a 10 µs sample, in µJ: within 5% of what MAIN measures, shared among the contexts and GOV_ENERGY_SYS by
coefficients of the part, which the spec does not give (R467). -/
def State.attribute (s : State) (mainW : Nat) : State :=
  let e := (950 * mainW + s.free.toNat % (100 * mainW + 1)) / 100
  let r := (List.range 16).foldl (fun (a : State × Nat) c =>
    if a.1.fld (Reg.ctxStat c) 31 29 = 0 then a
    else
      let x := a.1.free.toNat % (a.2 + 1)
      ((a.1.took 1).count64 (Reg.govEnergy c) x, a.2 - x)) (s.took 1, e)
  r.1.count64 Reg.govEnergySys r.2

/-- A sample joins the two averages, and GOV_PWR shows them (R455). -/
def State.sampled (s : State) (mainW : Nat) : State :=
  let l := (mainW :: s.gov.samples).take 1000000
  { s with gov := { s.gov with samples := l } }.setReg Reg.govPwr
    (BitVec.ofNat 32 (min (mean (l.take 100)) 65535 * 2 ^ 16 + min (mean l) 65535))

/-- POWER_SAMPLE: MAIN power is sampled, its energy attributed, and the 1 ms projection checked against PEAK_W (R455, R456,
R467). -/
def execPowerSample (mainW : Nat) (s : State) : Result :=
  let p := mean ((mainW :: s.gov.samples).take 100)
  let cap := capOf (s.fld Reg.govCap 31 16)
  let s1 := (s.sampled mainW).attribute mainW
  if cap < p then
    .next ((({ s1 with gov := { s1.gov with relax := 0 } }.peakStep).setReason Reason.peak true).done Code.ok)
  else if p * 100 ≤ cap * 95 then
    (if 10 ≤ s1.gov.relax then
      let s2 := s1.relaxStep
      .next ((if s2.peakOver then s2.setReason Reason.peak false else s2).done Code.ok)
     else .next ({ s1 with gov := { s1.gov with relax := s1.gov.relax + 1 } }.done Code.ok))
  else .next ({ s1 with gov := { s1.gov with relax := 0 } }.done Code.ok)

/-- SUSTAINED_STEP: every 100 ms the 10 s average moves sustained_point; at NEAP bubbles take its place, and they go once the
average no longer exceeds SUST_W (R457). -/
def execSustainedStep (s : State) : Result :=
  let avg := s.fld Reg.govPwr 15 0
  let cap := capOf (s.fld Reg.govCap 15 0)
  if cap < avg then
    if s.gov.sustPt = 0 then
      if s.bubbles < 240 then
        .next ((({ s with gov := { s.gov with underSust := 0, sustBub := s.gov.sustBub + s.bubbleRise } }.showBubbles).took 1).done
          Code.ok)
      else .next ({ s with gov := { s.gov with underSust := 0 } }.done Code.ok)
    else .next ({ s with gov := { s.gov with underSust := 0, sustPt := s.gov.sustPt - 1 } }.done Code.ok)
  else
    let s1 := { s with gov := { s.gov with sustBub := 0 } }.showBubbles
    if avg + 50 ≤ cap then
      (if 9 ≤ s.gov.underSust then
        let g := { s1.gov with underSust := 0, sustPt := if s.gov.sustPt = 2 then 2 else s.gov.sustPt + 1 }
        .next ({ s1 with gov := g }.done Code.ok)
       else .next ({ s1 with gov := { s1.gov with underSust := s.gov.underSust + 1 } }.done Code.ok))
    else .next ({ s1 with gov := { s1.gov with underSust := 0 } }.done Code.ok)

/-- SPRING_LIMIT_REACHED (R458). -/
def execSpringLimitReached (s : State) : Result :=
  if s.springLimit ≤ s.springUsed then
    .next (({ s with gov := { s.gov with springBlk := true } }.govDecide).done Code.ok)
  else .next s.idle

/-- VCORE_TRIM: 5 mV up below the floor, 5 mV down after 1 h above the ceiling, within the range of R449, by the
handshake of R450; the trim is stored once the voltage has settled (R452). REGULATOR holds VCORE (R451). -/
def execVcoreTrim (d : Fin 4) (m : Margin) (s : State) : Result :=
  let t := s.gov.trim.get (fun _ => (0 : Int)) d.val
  let n := match m with
    | .belowFloor => min 8 (t + 1)
    | .inBand => t
    | .aboveCeilingHour => max (-8) (t - 1)
  if s.regHeld ∨ s.gov.change ≠ .none then .next s.waits
  else if n = t then .next (s.done Code.ok)
  else
    let p := BitVec.ofNat 2 s.point
    let g := { s.gov with trimReq := some (d.val, n), change := .awaitAck p, misses := 0, prevPt := p }
    .next ((({ s with gov := g }.setFld Reg.govStat 25 25 1).avsRequest s.point).done Code.ok)

/-- AVS_ACK: the request is acknowledged, then settled; a rise moves the clocks only then (R450), and a trim is stored (R452).
Where REGULATOR was set meanwhile, neither happens and the previous request is restored (R451). -/
def execAvsAck (settled : Bool) (s : State) : Result :=
  match s.gov.change with
  | .none => .next s.idle
  | .awaitAck p =>
    if settled then .next s.idle
    else .next ({ s with gov := { s.gov with change := .awaitSettle p } }.done Code.ok)
  | .awaitSettle p =>
    if settled then
      let s1 := s.setFld Reg.govStat 25 25 0
      let fin (t : State) : State := { t with gov := { t.gov with change := .none, misses := 0, trimReq := none } }
      if s.regHeld then .next ((fin (if s.point < p.toNat ∨ s.gov.trimReq ≠ none then s1.avsRestore else s1)).done Code.ok)
      else match s.gov.trimReq with
        | some (d, n) => .next ((fin { s1 with gov := { s1.gov with trim := s1.gov.trim.put (fun _ => (0 : Int)) d n } }).done Code.ok)
        | none => .next ((fin (if s.point < p.toNat then s1.moveClocks p.toNat else s1)).done Code.ok)
    else .next s.idle

/-- AVS_TIMEOUT: a missed acknowledgement or settled status repeats the request; the third in a row sets REGULATOR (R451). -/
def execAvsTimeout (s : State) : Result :=
  match s.gov.change with
  | .none => .next s.idle
  | c =>
    let p := match c with | .awaitAck p => p | .awaitSettle p => p | .none => 1
    let rail := match s.gov.trimReq with | some (d, _) => 3 + d | none => 3
    if s.gov.misses < 2 then
      .next (({ s with gov := { s.gov with misses := s.gov.misses + 1, change := .awaitAck p } }.avsRequest p.toNat).done Code.ok)
    else
      let s1 := s.avsRestore
      let s2 := { s1 with gov := { s1.gov with misses := 0, change := .none, trimReq := none } }.setFld Reg.govStat 25 24 1
      .next (((s2.setReason Reason.regulator true).post 2 (Ev.of 5 3 Code.regulatorFault 4 0 rail 3)).done Code.regulatorFault)

/-- A write of GOV_CTL.CLR_REG (R451); a latch of R515 goes on holding REG_FAULT. -/
def State.clrReg (s : State) : State :=
  ({ s with gov := { s.gov with misses := 0 } }.setFld Reg.govStat 24 24 (b2n (decide (s.fld Reg.supStat 28 26 ≠ 0)))).setReason Reason.regulator false

/-- GOV_CLR_REG (R451). -/
def execGovClrReg (s : State) : Result := .next (s.clrReg.done Code.ok)

/-- FILLER_TIMEOUT: the filler of a stage that has waited at BARW for MAX_US fades to zero (R464). -/
def execFillerTimeout (l : Loc) (s : State) : Result :=
  let x := s.stage l.ix
  match x.wait with
  | .barw _ => .next ((s.setStage l.ix { x with fillerOut := true }).done Code.ok)
  | _ => .next s.idle

/-! ### Frequency lock -/

/-- LOCK_DEMAND_REFRESH: the demand is sent again with the same LSEQ (R461). -/
def execLockDemandRefresh (s : State) : Result :=
  match s.gov.demand with
  | some p =>
    if s.lockEn then
      .next ((s.sendCtrl none 4 (be 1 p.toNat ++ be 1 (s.lockEnt s.modId).reason.toNat ++ be 4 s.gov.lseq.toNat)).done Code.ok)
    else .next s.idle
  | none => .next s.idle

/-- LOCK_DEMAND_RECEIVE: an LSEQ at or above the source's last is acted on; a fall of lock_point decides at once
(R462, R463). -/
def execLockDemandReceive (src : BitVec 14) (point : Byte) (reason : Byte) (lseq : Word) (s : State) : Result :=
  if s.lockEn ∧ pointOf point.toNat ≤ 1 ∧ (s.lockEnt src.toNat).lseq.toNat ≤ lseq.toNat then
    let s1 := (s.setLockEnt src.toNat ⟨some (BitVec.ofNat 2 (pointOf point.toNat)), lseq, reason⟩).lockRefresh
    .next ((if lockFalls (lockPoint s.gov.table) (lockPoint s1.gov.table) then s1.govDecide else s1).done Code.ok)
  else .next s.idle

/-- LOCK_RELEASE_RECEIVE: an LSEQ above the source's last clears its entry (R462). -/
def execLockReleaseReceive (src : BitVec 14) (lseq : Word) (s : State) : Result :=
  if s.lockEn ∧ (s.lockEnt src.toNat).lseq.toNat < lseq.toNat then
    .next ((s.setLockEnt src.toNat ⟨none, lseq, 0⟩).lockRefresh.done Code.ok)
  else .next s.idle

/-- LOCK_ENTRY_EXPIRE: an entry not refreshed for 50 ms is cleared (R462). -/
def execLockEntryExpire (src : BitVec 14) (s : State) : Result :=
  let e := s.lockEnt src.toNat
  .next ((s.setLockEnt src.toNat { e with point := none, reason := 0 }).lockRefresh.done Code.ok)

/-- LOCK_RISE_HOLDOFF: lock_point has held its higher value for 10 ms and the rise is applied (R462). -/
def execLockRiseHoldoff (s : State) : Result :=
  .next ({ s with gov := { s.gov with lockApplied := lockPoint s.gov.table } }.done Code.ok)

end Sys2Proof.Machine
end

