-- ==== Sys2Proof/Machine/Reset.lean ====
section
/-! DEFINITION. Meanings of the reset, supply, boot and tamper commands, the thermal trip and the junction samples
(R415, R459, R460, R492–R494, R505–R539). -/

namespace Sys2Proof.Machine

/-! ### What a reset leaves (R519) -/

/-- Registers that a warm reset preserves: GOV_DUR, PD_REFUSE_CNT, PD_REFUSER, the supply registers, SYS_PROFILE,
SYS_RESET_CAUSE and the fuse values of LC_STATE. -/
def warmKeeps (a : Nat) : Bool :=
  (decide (regAddr 0x020 0x040 ≤ a) && decide (a < regAddr 0x020 0x078)) ||
  (decide (regAddr 0x020 0x200 ≤ a) && decide (a < regAddr 0x020 0x250)) ||
  a / 0x10000 == 0x013 || a / 0x10000 == 0x014 || a == Reg.sysProfile || a == Reg.sysResetCause

/-- The boot path from the AON ROM: the chain has run no step, no profile is active. -/
def Boot.restart (b : Boot) : Boot :=
  { b with running := true, next := 0, held := none, booted := [], profile := none, owner := none }

/-- The junction was above 90 °C at the last reading (R460, R493). -/
def State.hot (s : State) : Bool := 90 < s.fld Reg.govTherm 23 16

/-- Index of a cause in SYS_RESET_CAUSE (R539). -/
def causeBit : WarmCause → Nat
  | .pin => 1
  | .cmd => 2
  | .lifecycle => 3
  | .orderly => 4
  | .brownout => 5
  | .oc => 6
  | .rail => 7
  | .thermal => 8

/-- A cause is recorded: its bit, and LAST. -/
def State.recordCause (s : State) (i : Nat) : State :=
  (s.setFld Reg.sysResetCause i i 1).setFld Reg.sysResetCause 23 16 i

/-- What a warm reset keeps of the state, before the boot path runs (R519). -/
def State.warmKept (s : State) : State :=
  { State.reset with
    part := s.part
    regs := s.regs.filter (fun e => warmKeeps e.1)
    time := s.time.filter (fun e => e.1 = 0)
    passAt := (List.range 12).foldl (fun t k => t.put (fun _ => 0) k (s.time.get (fun _ => 0) 0)) []
    ecc := s.ecc.filter (fun e => e.1 * 16 < 4 * s.part.block)
    hss := ⟨s.hss.counter, 0, false, none⟩
    gov := { Gov.zero with trim := s.gov.trim, extPin := s.gov.extPin, coolantLow := s.gov.coolantLow }
    pins := { s.pins with tripOut := s.pins.tripOut && !s.pins.resetN }
    sup := s.sup
    boot := s.boot.restart
    freeCtr := s.freeCtr
    reply := s.reply
    out := s.out
    pending := s.pending }

/-- Clearing latches of R515 with the fault bits they caused. -/
def State.clearLatches (s : State) (oc : Bool) : State :=
  let s1 := s.setFld Reg.supStat 26 26 0
  if oc then
    let s2 := s1.setFld Reg.supStat 28 27 0
    let s3 := (List.range 16).foldl (fun t r => t.setFld (Reg.railStat r) 29 24 0) s2
    if s3.fld Reg.supStat 31 29 = 5 then s3.setFld Reg.supStat 31 29 0 else s3
  else if s1.fld Reg.supStat 28 27 = 0 ∧ s1.fld Reg.supStat 31 29 = 5 then s1.setFld Reg.supStat 31 29 0
  else s1

/-- The warm reset itself (R519, R520): causes recorded, latches cleared, the chain starts from the AON ROM; while
RESET_N is low the module stays in reset and holds THERM_TRIP_N low after a trip (R497). -/
def State.warmNow (s : State) (cause : WarmCause) : State :=
  let trip := decide (s.fld Reg.supStat 26 26 = 1)
  let k := s.warmKept
  let k1 := (k.setFld Reg.keyStat 28 28 (b2n s.tampered)).recordCause (causeBit cause)
  let k2 := (if trip then k1.recordCause 8 else k1).clearLatches (decide (cause = .pin))
  let k3 := k2.setFld Reg.govStat 24 24 (b2n (decide (k2.fld Reg.supStat 28 26 ≠ 0)))
  let k4 := k3.setFld Reg.govTherm 23 8 (s.fld Reg.govTherm 23 8)
  let k5 := k4.setReg Reg.lcState (s.reg Reg.lcState &&& 0x0002FF07)
  { k5 with boot := { k5.boot with inReset := !s.pins.resetN } }

/-- A warm reset is requested: it runs, or is held while a sensor reads above 90 °C (R493, R460). -/
def State.warmReset (s : State) (cause : WarmCause) : State :=
  if s.hot then
    let h := if s.boot.held = some .pin then some .pin else some cause
    { s with boot := { s.boot with held := h } }
  else s.warmNow cause

/-- The state right after AUX is applied (R519): flash, fuses and trims stay; pins keep their levels. -/
def State.coldState (s : State) : State :=
  { State.reset with
    part := s.part
    hss := ⟨s.hss.counter, 0, false, none⟩
    gov := { Gov.zero with trim := s.gov.trim }
    pins := { s.pins with
      profSel := 0, slotId := 0, auxOk := false, mainReq := false, tripOut := false, sampled := false }
    sup := { Sup.zero with mainPresent := s.sup.mainPresent, mainAbsent := !s.sup.mainPresent }
    boot := { s.boot.restart with running := false, cold := true, inReset := false }
    freeCtr := s.freeCtr
    reply := s.reply
    out := s.out
    pending := s.pending }

/-- COLD_RESET (R519). -/
def execColdReset (s : State) : Result := .next (s.coldState.done Code.ok)

/-! ### Tamper (R415, R494) -/

/-- A tamper event: every key slot zero, a running key command ends with KEY_REVOKED, TAMPERED, every context ended, the management
port DOWN, a security record. -/
def State.tamperEvent (s : State) : State :=
  let s0 := match s.hss.run with
    | some (op, n) => s.keyDone op n Code.keyRevoked
    | none => s
  let s1 := ({ s0 with keys := [], pstate := [] }.setFld Reg.keyStat 28 28 1).endAll Code.keyRevoked
  let s2 := { s1 with mgmt := { s1.mgmt with adm := .down } }
  s2.post 3 (Ev.of 6 1 Code.keyRevoked 4 0 0 0)

/-- TAMPER: twenty low samples in a row (R494); it acts from AON power good. -/
def execTamper (lowSamples : Nat) (s : State) : Result :=
  let s1 := { s with pins := { s.pins with tamperN := false } }
  if 20 ≤ lowSamples ∧ s.pins.auxOk then .next (s1.tamperEvent.done Code.ok)
  else .next (s1.done Code.ok)

/-- AON_POWER_GOOD: AUX_OK rises, TAMPER_N is monitored, the entropy source starts, the boot path runs (R428, R494,
R506); TAMPERED is set before any identity slot is derived if TAMPER_N is low. -/
def execAonPowerGood (tamperLow : Bool) (s : State) : Result :=
  if s.pins.auxOk then .next s.idle
  else
    let s1 := ({ s with
      pins := { s.pins with auxOk := true, tamperN := !tamperLow }
      boot := { s.boot with running := true, inReset := !s.pins.resetN } }.setReg Reg.supAux
        (BitVec.ofNat 32 (11400 + s.free.toNat % 1201))).took 1
    .next ((if tamperLow then s1.tamperEvent else s1).mainReqRefresh.done Code.ok)

/-- PIN_SAMPLE: PROFILE_SEL and SLOT_ID are sampled once, after AUX_OK at cold reset (R492). -/
def execPinSample (profileSel : Fin 4) (slotId : Fin 64) (s : State) : Result :=
  let p := { s.pins with profLive := profileSel, slotLive := slotId }
  .next ({ s with pins := if s.pins.auxOk ∧ ¬ s.pins.sampled then
    { p with profSel := profileSel, slotId := slotId, sampled := true } else p }.done Code.ok)

/-! ### Rails (R511–R518) -/

def State.supState (s : State) : Nat := s.fld Reg.supStat 31 29
def State.setSupState (s : State) (x : Nat) : State := s.setFld Reg.supStat 31 29 x
/-- RAIL_STAT.STATE. -/
def State.rail (s : State) (r : Nat) : Nat := s.fld (Reg.railStat r) 31 30
def State.setRail (s : State) (r x : Nat) : State := s.setFld (Reg.railStat r) 31 30 x
/-- A rail is switched off: VOUT reads zero. -/
def State.railOff (s : State) (r : Nat) : State := (s.setRail r 0).setFld (Reg.railStat r) 15 0 0
def State.mainV (s : State) (mv10 : BitVec 16) : State := s.setFld Reg.supStat 15 0 mv10.toNat

/-- Rails that step k of a power-up enables (R512). -/
def upRails (k : Nat) : List Nat :=
  if k = 0 then [2] else if k = 1 then [3, 4, 5, 6, 7, 8, 9, 10] else if k = 2 then [11] else if k = 3 then [12]
  else if k = 4 then [13] else if k = 5 then [14] else if k = 6 then [15] else []

/-- Rails that step k of a power-down switches off (R513). -/
def downRails (k : Nat) : List Nat := if k < 7 then upRails (6 - k) else []

/-- Every stage stops issuing and every lane stops and goes dark (R513, R460). -/
def State.stopAll (s : State) : State :=
  let s1 := allStrands.foldl (fun t e => t.stopStages e.1 e.2) s
  let s2 := (List.range (16 * s.part.ldCount)).foldl (fun t k => t.setFld (Reg.laneStat (k / 16) (k % 16)) 31 29 0) s1
  let s3 := (List.range (16 * s.part.ldCount)).foldl (fun t k => t.setFld (Reg.bundleMap (k / 16) (k % 16)) 27 16 0) s2
  { s3 with lanes := [], bundles := [] }

/-- Every switched domain OFF (R447). -/
def State.allOff (s : State) : State :=
  { (List.range 64).foldl (fun t n => t.setFld (Reg.pdStat n) 31 29 3) s with pd := [] }

/-- A power-down starts (R513); the brown-out timing takes over an orderly one that runs, and takes every switched domain to
OFF (R447). -/
def State.startDown (s : State) (brown : Bool) : State :=
  let runs := decide (s.supState = 3 ∨ s.supState = 4)
  let s1 := if runs then s else { s.stopAll with sup := { s.sup with step := 0, brown := false } }
  let s2 := if brown ∧ s.supState ≠ 4 then s1.addFld Reg.supCnt 31 16 1 else s1
  let g := { s2.gov with change := .none, misses := 0 }
  let s3 := if brown then s2.allOff else s2
  ({ s3 with gov := g, sup := { s3.sup with brown := s3.sup.brown || brown } }.setFld Reg.govStat 25 25 0).setSupState
    (if brown ∨ s.supState = 4 then 4 else 3)

/-- The record of a latch (R515, R544): the rail number and its fault bits; MAIN and the trip have no rail number. -/
def State.latchEvent (s : State) (r : Option Nat) (latch : Nat) : State :=
  let n := match r with | some r => r | none => s.free.toNat % 32
  let f := match r with | some r => s.fld (Reg.railStat r) 31 24 | none => 0
  ((s.setFld Reg.govStat 24 24 1).post 2
    (Ev.of 5 4 (if latch = 2 then Code.thermalHalt else Code.regulatorFault) 4 0 n (n + f * 2 ^ 8 + latch * 2 ^ 16))).took 1

/-- RAIL_LATCH: a rail fault and its brown-out (R515). -/
def State.railFault (s : State) (r : Option Nat) : State :=
  (((((s.setFld Reg.supStat 27 27 1).addFld Reg.supCnt 7 0 1).latchEvent r 1).recordCause 7).startDown true)

/-- MAIN feeds the module and is asked for. -/
def State.mainOn (s : State) : Bool := s.sup.mainPresent && s.pins.mainReq

/-- MAIN_PRESENT: at or above 47 V for 1 ms; unrequested, it starts no rail and is recorded (R506, R509). -/
def execMainPresent (mv10 : BitVec 16) (s : State) : Result :=
  if mv10.toNat < 4700 ∨ ¬ s.pins.auxOk then .next (s.mainV mv10).idle
  else
    let s1 := { s with sup := { s.sup with mainPresent := true } }.mainV mv10
    .next ((if s.pins.mainReq then s1 else s1.post 2 (Ev.of 5 5 Code.formatError 4 0 0 1)).done Code.ok)

/-- MAIN_LOW: below 46 V for 5 µs; a brown-out starts (R506, R513). -/
def execMainLow (mv10 : BitVec 16) (s : State) : Result :=
  if 4600 ≤ mv10.toNat then .next (s.mainV mv10).idle
  else if s.mainOn then .next (((s.mainV mv10).startDown true).done Code.ok)
  else .next ((s.mainV mv10).done Code.ok)

/-- MAIN_HIGH: above 62 V for 5 µs; a brown-out, recorded as a rail fault of MAIN (R506, R515). -/
def execMainHigh (mv10 : BitVec 16) (s : State) : Result :=
  if mv10.toNat ≤ 6200 then .next (s.mainV mv10).idle
  else if s.mainOn then .next (((s.mainV mv10).railFault none).done Code.ok)
  else .next ((s.mainV mv10).done Code.ok)

/-- MAIN_OVERCURRENT: OC_LATCH, MAIN_REQ low at detection, a brown-out (R506, R515). -/
def execMainOvercurrent (s : State) : Result :=
  if s.sup.mainPresent then
    let s1 := (((s.setFld Reg.supStat 28 28 1).addFld Reg.supCnt 15 8 1).latchEvent none 0).recordCause 6
    let s2 := { s1 with
      pins := { s1.pins with mainReq := false }
      sup := { s1.sup with mainAbsent := false } }
    .next ((s2.startDown true).done Code.ok)
  else .next s.idle

/-- MAIN_ABSENT: below 20 V for 100 ms, so MAIN_REQ may rise again (R506, R514). -/
def execMainAbsent (mv10 : BitVec 16) (s : State) : Result :=
  if 2000 ≤ mv10.toNat then .next (s.mainV mv10).idle
  else
    .next (({ s with sup := { s.sup with mainPresent := false, mainAbsent := true } }.mainV mv10).mainReqRefresh.done
      Code.ok)

/-- MAIN_GOOD_FALL: an orderly power-down starts while MAIN is present (R513). -/
def execMainGoodFall (s : State) : Result :=
  let s1 := { s with pins := { s.pins with mainGood := false } }
  if s.mainOn ∧ s.supState < 3 then .next ((s1.startDown false).done Code.ok)
  else .next (s1.done Code.ok)

/-- MAIN_GOOD_WITHOUT_MAIN: no rail starts and a record is written (R509). -/
def execMainGoodWithoutMain (s : State) : Result :=
  let s1 := { s with pins := { s.pins with mainGood := true } }
  if s.sup.mainPresent then .next (s1.done Code.ok)
  else .next ((s1.post 2 (Ev.of 5 5 Code.formatError 4 0 0 2)).done Code.ok)

/-- The rails of a power-up step are enabled. -/
def State.enableStep (s : State) (k : Nat) : State :=
  (upRails k).foldl (fun t r => t.setRail r 1) { s with sup := { s.sup with step := k } }

/-- POWER_UP_START: with MAIN_REQ, MAIN_GOOD and MAIN present, VANA is enabled; fault bits of rails that caused no latch
clear (R512, R518). -/
def execPowerUpStart (s : State) : Result :=
  if s.mainOn ∧ s.supState = 0 then
    let s1 := (List.range 16).foldl (fun t r => t.setFld (Reg.railStat r) 29 24 0)
      { s with pins := { s.pins with mainGood := true } }
    .next (((s1.enableStep 0).setSupState 1).done Code.ok)
  else .next s.idle

/-- RAIL_GOOD: the rail is good; when every rail of the step is, the next step enables its rails, and after VLASER the
module is POWERED (R512). -/
def execRailGood (r : Fin 16) (mv : BitVec 16) (s : State) : Result :=
  if s.supState = 1 ∧ s.rail r.val = 1 then
    let s1 := (s.setRail r.val 2).setFld (Reg.railStat r.val) 15 0 mv.toNat
    if (upRails s.sup.step).all (fun q => s1.rail q = 2) then
      (if s.sup.step = 6 then .next ((s1.setSupState 2).done Code.ok)
       else .next ((s1.enableStep (s.sup.step + 1)).done Code.ok))
    else .next (s1.done Code.ok)
  else .next s.idle

/-- RAIL_TIMEOUT: a rail fault during power-up; the raised rails go down (R512, R515). -/
def execRailTimeout (r : Fin 16) (s : State) : Result :=
  if s.supState = 1 ∧ s.rail r.val = 1 then
    .next ((((s.setRail r.val 3).setFld (Reg.railStat r.val) 24 24 1).railFault (some r.val)).done Code.ok)
  else .next s.idle

/-- The end of a power-down (R513, R514): every switched domain is OFF (R447), MAIN_REQ low, then a warm reset, or a loss of
AON where AUX is lost. -/
def State.downEnd (s : State) : State :=
  let latched := decide (s.fld Reg.supStat 28 26 ≠ 0)
  let s1 := { s.allOff with
    pins := { s.pins with mainReq := false }
    sup := { s.sup with mainAbsent := !s.sup.mainPresent, step := 0, brown := false } }.setSupState (if latched then 5 else 0)
  if s.pins.auxOk then s1.warmReset (if s.sup.brown then .brownout else .orderly) else s1.coldState

/-- POWER_DOWN_STEP: the next rails are switched off; after the last, MAIN_REQ falls and the warm reset runs (R513). -/
def execPowerDownStep (s : State) : Result :=
  if s.supState = 3 ∨ s.supState = 4 then
    (if s.sup.step < 7 then
      .next (((downRails s.sup.step).foldl State.railOff
        { s with sup := { s.sup with step := s.sup.step + 1 } }).done Code.ok)
     else .next (s.downEnd.done Code.ok))
  else .next s.idle

/-- AUX_LOST: the brown-out sequence runs at once while MAIN is applied, then AON goes down; without MAIN it goes down at
once (R510). -/
def execAuxLost (s : State) : Result :=
  let s1 := ({ s with pins := { s.pins with auxOk := false } }.setReg Reg.supAux
    (BitVec.ofNat 32 (s.free.toNat % 10800))).took 1
  if s.mainOn then .next ((s1.startDown true).done Code.ok)
  else .next (s1.coldState.done Code.ok)

/-- A regulator is read over PMBus (R511): VHUB and the MAIN-fed rails. -/
def pmbusRail (r : Nat) : Bool := 1 ≤ r

/-- PMBUS_POLL (R516): an answer updates VOUT and fault bits, and a fault of a MAIN-fed rail while POWERED latches; three
misses in a row set NOACK and REGULATOR. -/
def execPmbusPoll (r : Fin 16) (answer : Option PmbusAnswer) (s : State) : Result :=
  if ¬ pmbusRail r.val then .next s.idle
  else match answer with
  | some a =>
    let s1 := { s with sup := { s.sup with polls := s.sup.polls.put (fun _ => 0) r.val 0 } }
    let old := s1.fld (Reg.railStat r.val) 29 26
    let s2 := (s1.setFld (Reg.railStat r.val) 29 26 (old ||| (b2n a.ov * 8 + b2n a.uv * 4 + b2n a.oc * 2 + b2n a.ot))).setFld
      (Reg.railStat r.val) 15 0 (if s.rail r.val = 0 ∧ 2 ≤ r.val then 0 else a.mv.toNat)
    if (a.ov ∨ a.uv ∨ a.oc ∨ a.ot) ∧ 2 ≤ r.val ∧ s.supState = 2 then
      .next (((s2.setRail r.val 3).railFault (some r.val)).done Code.ok)
    else .next (s2.done Code.ok)
  | none =>
    let n := s.sup.polls.get (fun _ => 0) r.val + 1
    let s1 := { s with sup := { s.sup with polls := s.sup.polls.put (fun _ => 0) r.val n } }
    if 3 ≤ n then
      .next (((s1.setFld (Reg.railStat r.val) 25 25 1).setReason Reason.regulator true).done Code.ok)
    else .next (s1.done Code.ok)

/-! ### Thermal trip and junction readings (R459, R460) -/

/-- Running stages of a strand as places. -/
def State.runningStages (s : State) : List Loc :=
  (List.finRange 4).flatMap (fun d => (List.finRange 12).flatMap (fun st =>
    ((List.finRange 8).map (fun g => (⟨d, st, g⟩ : Loc))).filter (fun l => (s.stage l.ix).run = .running)))

/-- THERMAL_TRIP (R460): running stages fault, lanes stop, rails off, THERM_TRIP_N low, rounds abort, TRIP_LATCH. -/
def execThermalTrip (sensor : Fin 44) (tempC : Nat) (s : State) : Result :=
  if tempC < 115 then .next s.idle
  else
    let s1 := s.runningStages.foldl (fun t l => t.haltStage l ⟨Code.thermalHalt, Origin.governor, 0, 0, false⟩) s
    let s2 := (List.range 16).foldl (fun t c => t.abortRound c) s1.stopAll
    let s3 := ((s2.allOff).setFld Reg.govTherm 23 16 (min tempC 255)).setFld Reg.govTherm 15 8 sensor.val
    let s4 := (List.range 15).foldl (fun t k => t.railOff (k + 1)) s3
    let s5 := ((s4.setFld Reg.supStat 26 26 1).setSupState 5).latchEvent none 2
    let g := { s5.gov with change := .none, misses := 0 }
    .next ({ s5.setFld Reg.govStat 25 25 0 with
      gov := g
      pins := { s5.pins with tripOut := true, mainReq := false }
      sup := { s5.sup with mainAbsent := !s5.sup.mainPresent, step := 0 } }.done Code.thermalHalt)

/-- The hottest reading and its sensor. -/
def hottest : Nat → List Byte → Nat × Nat
  | _, [] => (0, 0)
  | i, b :: bs =>
    let r := hottest (i + 1) bs
    if r.1 ≤ b.toNat then (b.toNat, i) else r

/-- TGT_C as it acts (R469). -/
def State.tgtC (s : State) : Nat := max 80 (min 100 (s.fld Reg.govTherm 31 24))

/-- At or above the target: every 10 readings one point down, at NEAP bubbles in its place (R459). -/
def State.thermUp (s : State) (h : Nat) : State :=
  let n := s.gov.hot
  let g := { s.gov with hot := n + 1, cool := 0 }
  if n % 10 ≠ 0 then { s with gov := g }
  else if s.gov.thermalPt.toNat = 0 then { s with gov := { g with thermBub := 32 * (h - s.tgtC) } }.showBubbles
  else { s with gov := { g with thermalPt := s.gov.thermalPt - 1 } }

/-- At or below the target less 5 °C: after 100 readings the bubbles go, then one point up every 100 (R459). -/
def State.thermDown (s : State) : State :=
  let n := s.gov.cool + 1
  let g := { s.gov with cool := n, hot := 0 }
  if n % 100 ≠ 0 then { s with gov := g }
  else if 0 < s.gov.thermBub then { s with gov := { g with thermBub := 0 } }.showBubbles
  else if s.gov.thermalPt.toNat < 2 then { s with gov := { g with thermalPt := s.gov.thermalPt + 1 } }
  else { s with gov := g }

/-- The ms just past enters the SPRING window (R458). -/
def State.springMs (s : State) : State :=
  let w := (decide (s.point = 2) :: s.gov.spring).take 10000
  { s with gov := { s.gov with spring := w } }.setFld Reg.govSpring 31 16 (w.filter (fun b => b)).length

/-- THERMAL_SAMPLE: each ms the hottest reading steps thermal_point or bubbles; a warm reset that is held runs once every
sensor reads 90 °C or below (R458–R460, R493). -/
def execThermalSample (readings : List Byte) (s : State) : Result :=
  let h := hottest 0 readings
  let s1 := ((s.setFld Reg.govTherm 23 16 h.1).setFld Reg.govTherm 15 8 h.2).springMs
  let s2 :=
    if s1.tgtC ≤ h.1 then s1.thermUp h.1
    else if h.1 + 5 ≤ s1.tgtC then s1.thermDown
    else { s1 with gov := { s1.gov with hot := 0, cool := 0 } }
  match s.boot.held with
  | some c => if h.1 ≤ 90 then .next ((s2.warmNow c).done Code.ok) else .next (s2.done Code.ok)
  | none => .next (s2.done Code.ok)

/-! ### Warm resets (R493, R520) -/

/-- RESET_PIN: 10 µs or more always starts a warm reset, less than 9.9 µs never; between them the outcome is free. -/
def execResetPin (lowNs : Nat) (s : State) : Result :=
  let s1 := { s with pins := { s.pins with resetN := false } }
  if 10000 ≤ lowNs ∨ (9900 ≤ lowNs ∧ bit (BitVec.ofNat 32 s.free.toNat) 0) then
    .next (((s1.took 1).warmReset .pin).done Code.ok)
  else .next ((s1.took 1).done Code.ok)

/-- RESET_N_RISE: the boot path starts when the pin rises, and a warm reset that the pin held is complete: THERM_TRIP_N is
released (R493, R497). -/
def execResetNRise (s : State) : Result :=
  .next ({ s with
    pins := { s.pins with resetN := true, tripOut := s.pins.tripOut && !s.boot.inReset }
    boot := { s.boot with inReset := false } }.done Code.ok)

/-- WARM_RESET (R520). -/
def execWarmReset (cause : WarmCause) (s : State) : Result := .next ((s.warmReset cause).done Code.ok)

/-- A write of SYS_RESET (R520). -/
def State.sysResetVal (s : State) (v : Word) : State := if v = 0x5A5A then s.warmReset .cmd else s

/-- SYS_RESET_WRITE (R520, R541). -/
def execSysResetWrite (a : Acc) (v : Word) (s : State) : Result :=
  .next (s.writeAccess a (fun t => ((if a.addr = Reg.sysReset then t.sysResetVal v else t.plainWrite a.addr v)).done Code.ok))

/-! ### The boot path (R526–R531) -/

/-- The chain stops (R528). -/
def State.bootStop (s : State) (code : Byte) : State :=
  { s.setFld Reg.sysBoot 23 16 code.toNat with
    boot := { s.boot with running := false }
    pins := { s.pins with mainReq := false } }

/-- The next step is k. -/
def State.bootNext (s : State) (k : Nat) : State := { s with boot := { s.boot with next := k } }

/-- A slot takes a derived key (R416). -/
def State.deriveSlot (s : State) (n : Nat) (mat : Nat) : State :=
  match slotAttr n with
  | some a => if s.lcUsable a then (s.setActive n ⟨a, BitVec.ofNat 512 mat, 0⟩).setPendingKey n KeyHalf.zero else s
  | none => s

/-- Order of P-384, for p384_from (R416). -/
def p384Order : Nat :=
  0xFFFFFFFFFFFFFFFFFFFFFFFFFFFFFFFFFFFFFFFFFFFFFFFFC7634D81F4372DDF581A0DB248B0A77AECEC196ACCC52973
/-- p384_from of R416. -/
def p384From (x : Bytes) : Nat := fromBE x % (p384Order - 1) + 1
/-- k_dev of R416. -/
def kDev : Bytes := be 48 (Config.hmac (be 32 (Config.deviceSecret.toNat % 2 ^ 256)) (ascii "A9 device")).toNat

/-- Step 1's slots: DEVICE_ID, DEVICE_HSS, SEAL (R416). -/
def State.deriveIdentity (s : State) : State :=
  if s.tampered then s
  else
    ((s.deriveSlot 0 (p384From (Config.hkdfExpand kDev (ascii "A9 devid ecdsa") 72))).deriveSlot 2
      (fromBE (Config.hkdfExpand kDev (ascii "A9 devid hss") 40))).deriveSlot 3
      (fromBE (Config.hkdfExpand kDev (ascii "A9 seal" ++ le 1 s.lc) 32))

/-- A measurement as bytes. -/
def State.measured (s : State) (a : Nat) : Bytes := ((List.range 12).map (fun i => le 4 (s.reg (a + 4 * i)).toNat)).flatten

/-- Step 3's slot: ALIAS, from the measurements and the lifecycle state (R416). -/
def State.deriveAlias (s : State) : State :=
  if s.tampered then s
  else
    let m := s.measured Reg.mRom ++ s.measured Reg.mFs ++ s.measured Reg.mHub ++ s.measured Reg.mDaxna ++ le 1 s.lc
    s.deriveSlot 1 (p384From (Config.hkdfExpand (be 48 (Config.hmac kDev m).toNat) (ascii "A9 alias") 72))

/-- Step 0 (R526, R447): fuses read, the first stage verified and measured. -/
def State.bootRom (s : State) : State :=
  let f := s.boot.fuses
  let s1 := (((((s.setFld (Reg.pdStat 56) 31 29 0).setReg Reg.rbFs (BitVec.ofNat 32 f.rbFs)).setReg Reg.rbHub
    (BitVec.ofNat 32 f.rbHub)).setReg Reg.rbDaxna (BitVec.ofNat 32 f.rbDaxna)).setReg Reg.keysetRev
    (BitVec.ofNat 32 f.keyset.toNat)).setFld Reg.sysBoot 7 0 0
  match s1.pickImage 1 with
  | none => s1.bootStop Code.signatureFail
  | some (n, o) =>
    ({ (s1.setDigest Reg.mRom Config.romDigest).setDigest Reg.mFs (Config.sha384 o.header) with
      boot := { s1.boot with booted := s1.boot.booted.put (fun _ => 0) 1 n } }).bootNext 1

/-- The lifecycle state and owner that the fuses and the records give (R534). -/
def State.lcDecide (s : State) : State :=
  let f := s.boot.fuses
  let hit (r : Option LcRec) : Option LcRec := match r with | some x => if x.tcount = f.tcount then some x else none | none => none
  let rec_ := match hit s.boot.recA with | some x => some x | none => hit s.boot.recB
  let base := ((s.setReg Reg.lcState 0).setFld Reg.lcState 17 17 (b2n f.retired)).setFld Reg.lcState 15 8 f.tcount
  if f.retired then base.setFld Reg.lcState 2 0 4
  else if f.tcount = 0 then base
  else match rec_ with
  | some x => { base.setFld Reg.lcState 2 0 x.state.toNat with boot := { base.boot with owner := x.owner } }
  | none => (base.setFld Reg.lcState 2 0 1).setFld Reg.lcState 30 30 1

/-- Step 1 (R526). -/
def State.bootFs (s : State) : State :=
  let s1 := ((s.setFld Reg.sysBoot 7 0 1).lcDecide).deriveIdentity
  match s1.pickImage 2 with
  | none => s1.bootStop Code.signatureFail
  | some (n, o) =>
    ({ s1.setDigest Reg.mHub (Config.sha384 o.header) with
      boot := { s1.boot with booted := s1.boot.booted.put (fun _ => 0) 2 n } }).bootNext 2

/-- One sealed record is unsealed; a record whose tag fails or whose attributes break R406 is erased and recorded (R413). -/
def State.unseal (s : State) (n : Nat) (r : SealedKey) : State :=
  match Config.gcmOpen ((s.active 3).mat.setWidth 256) r.nonce (sealAad n r.attr) r.ct r.tag,
    decide (slotAttr n = some r.attr) && bit r.attr 27 with
  | some b, true => if s.lcUsable r.attr then s.setActive n ⟨r.attr, BitVec.ofNat 512 (fromLE b), 0⟩ else s
  | _, _ => ({ s with boot := { s.boot with sealed := s.boot.sealed.del n } }).post 3 (Ev.of 6 2 Code.integrityFail 4 0 0 n)

/-- The lifecycle record that holds the present state (R534). -/
def State.presentRec (s : State) : Option LcRec :=
  [s.boot.recA, s.boot.recB].findSome? (fun r => match r with
    | some x => if x.tcount = s.boot.fuses.tcount then some x else none
    | none => none)

/-- The chain after a transition to OWNED or OWNED_DEBUG places the owner record's CAK into slot 8 and seals it (R537,
R533). -/
def State.placeCak (s : State) : State :=
  match s.boot.cakDue, s.presentRec, slotAttr 8 with
  | true, some r, some a =>
    if s.lcUsable a ∧ ¬ s.tampered then
      let s1 := (s.setActive 8 ⟨a, BitVec.ofNat 512 (fromLE (sub r.cak 0 32)), 0⟩).sealSlot 8
      { s1 with boot := { s1.boot with cakDue := false } }
    else s
  | _, _, _ => s

/-- Step 2 (R526, R413, R447). -/
def State.bootHub (s : State) : State :=
  let s1 := ((s.setFld Reg.sysBoot 7 0 2).setFld (Reg.pdStat 57) 31 29 0).setFld (Reg.pdStat 58) 31 29 0
  let s2 := if (s1.active 3).valid then s1.boot.sealed.foldl (fun t e => match e.2 with | some r => t.unseal e.1 r | none => t) s1 else s1
  let s2 := s2.placeCak
  match s2.pickImage 3 with
  | none => s2.bootStop Code.signatureFail
  | some (n, o) =>
    ({ s2.setDigest Reg.mDaxna (Config.sha384 o.header) with
      boot := { s2.boot with booted := s2.boot.booted.put (fun _ => 0) 3 n } }).bootNext 3

/-- Step 3 (R526). -/
def State.bootDaxna (s : State) : State := ((s.setFld Reg.sysBoot 7 0 3).deriveAlias.bootNext 4).fillPersist

/-- The profile in flash slot n, where it is valid on this part (R530). -/
def State.validProfile (s : State) (n : Nat) : Option SignedObj :=
  match s.flashObj (6 + n % 4) with
  | some o => if s.profileVerifies o && profileFits s.part o.body then some o else none
  | none => none

/-- The code with which a profile slot fails R530 (R544). -/
def State.slotCode (s : State) (n : Nat) : Byte :=
  match s.flashObj (6 + n % 4) with
  | some o => if s.profileVerifies o then Code.formatError else Code.signatureFail
  | none => Code.signatureFail

/-- Step 4 (R531): the selected slot, the next valid one with FALLBACK and a record, or NONE. -/
def State.bootProfile (s : State) : State :=
  let s1 := s.setFld Reg.sysBoot 7 0 4
  let sel := if s.boot.cold then s.pins.profSel.val
    else if s.fld Reg.sysProfile 31 31 = 1 then s.fld Reg.sysProfile 29 28 else s.fld Reg.sysProfile 25 24
  let s2 := { (s1.setReg Reg.sysProfile 0) with boot := { s1.boot with cold := false, next := 5 } }
  if s.lc = 4 then s2.setFld Reg.sysProfile 25 24 sel
  else match [0, 1, 2, 3].find? (fun k => (s2.validProfile (sel + k)).isSome) with
  | none => ((s2.setFld Reg.sysProfile 25 24 sel).setFld Reg.sysProfile 26 26 1).post 3
      (Ev.of 6 0x12 (s2.slotCode sel) 4 0 0 (sel + sel * 2 ^ 8 + 2 ^ 16))
  | some k =>
    match s2.validProfile (sel + k) with
    | none => s2
    | some o =>
      let s3 := (s2.setFld Reg.sysProfile 25 24 ((sel + k) % 4)).loadProfile o
      if k = 0 then s3
      else (s3.setFld Reg.sysProfile 27 27 1).post 3 (Ev.of 6 0x12 (s2.slotCode sel) 4 0 0 (sel + (sel + k) % 4 * 2 ^ 8))

/-- Step 5 (R526, R508). -/
def State.bootRails (s : State) : State := ((s.setFld Reg.sysBoot 7 0 5).bootNext 6).mainReqRefresh

/-- The granules of a table belong to a system index (R385). -/
def State.assignTable (s : State) (base size idx : Nat) : State :=
  let owners := List.replicate (size / 0x200000) (BitVec.ofNat 5 idx)
  { s with granule := Table.putList (fun _ => (31 : BitVec 5)) s.granule (base / 0x200000) owners }

/-- Step 6's granules: session tables to index 17, Tideway tables to index 18. -/
def State.assignTables (s : State) : State :=
  let b := s.profileBody
  if b = [] then s
  else
    let s1 := s.lds.foldl (fun t l => t.assignTable (pfEstTbl b l) (160 * 2 ^ 20) 17) s
    (s1.lds.foldl (fun t l => t.assignTable (pfCnBase b l) (4 * 2 ^ 20) 18) s1).assignTable (pfRgBase b) (32 * 2 ^ 20) 18

/-- Step 6 (R526, R447): keys 16–26, metadata, granules, dies, light dies and the PHY group ON; a domain in WAKE_FAILED stays
there until CLR_FAIL (R445). -/
def State.bootDies (s : State) : State :=
  let s1 := s.setFld Reg.sysBoot 7 0 6
  if s.fld Reg.entStat 31 29 = 3 then s1.bootStop Code.entropyUnavailable
  else
    let s2 := ([16, 17, 18, 19, 20, 21, 22, 23, 24, 25, 26].foldl (fun t n => t.fillSlot n) s1.fillPersist).assignTables
    ((List.range 64).foldl (fun t n =>
      if t.pdAbsent n ∨ t.pdState n = 6 then t else t.setFld (Reg.pdStat n) 31 29 0) s2).bootNext 7

/-- Security version of the image of a kind that booted. -/
def State.bootedSvn (s : State) (kind : Nat) : Nat :=
  match s.flashObj (2 * (kind - 1) + s.boot.booted.get (fun _ => 0) kind) with
  | some o => o.svn
  | none => 0

/-- Step 7 (R526, R524): READY, and each rollback counter rises to the SVN that booted. -/
def State.bootReady (s : State) : State :=
  let f := s.boot.fuses
  let f1 : Fuses := { f with
    rbFs := max f.rbFs (s.bootedSvn 1)
    rbHub := max f.rbHub (s.bootedSvn 2)
    rbDaxna := max f.rbDaxna (s.bootedSvn 3) }
  let s1 := ((s.setReg Reg.rbFs (BitVec.ofNat 32 f1.rbFs)).setReg Reg.rbHub (BitVec.ofNat 32 f1.rbHub)).setReg Reg.rbDaxna
    (BitVec.ofNat 32 f1.rbDaxna)
  { (s1.setFld Reg.sysBoot 7 0 7).setFld Reg.sysBoot 31 31 1 with
    boot := { s1.boot with fuses := f1, running := false, next := 8 } }

/-- BOOT_STEP: the chain's next step (R526); step 6 waits for POWERED and for a seeded DRBG, and a RETIRED module stays
at its rails step (R533). -/
def execBootStep (s : State) : Result :=
  if ¬ s.boot.running ∨ s.boot.inReset ∨ s.boot.held ≠ none then .next s.idle
  else if s.boot.next = 0 then .next (s.bootRom.done Code.ok)
  else if s.boot.next = 1 then .next (s.bootFs.done Code.ok)
  else if s.boot.next = 2 then .next (s.bootHub.done Code.ok)
  else if s.boot.next = 3 then .next (s.bootDaxna.done Code.ok)
  else if s.boot.next = 4 then .next (s.bootProfile.done Code.ok)
  else if s.boot.next = 5 then .next (s.bootRails.done Code.ok)
  else if s.boot.next = 6 then
    (if s.supState = 2 ∧ (s.entRunning ∨ s.fld Reg.entStat 31 29 = 3) then .next (s.bootDies.done Code.ok)
     else .next s.waits)
  else .next (s.bootReady.done Code.ok)

end Sys2Proof.Machine
end

