-- ==== Sys2Proof/Machine/Loader.lean ====
section
/-! DEFINITION. Binding a recipe to a strand (R102–R107): meanings of RECIPE_LOAD and RECIPE_LOAD_DONE. -/

namespace Sys2Proof.Machine

/-! ### The bind block (R107) -/

/-- D, Q and G entries of a stage. -/
def bindD (b : Bytes) (g i : Nat) : QWord := BitVec.ofNat 128 (field b (0x40 + 256 * g + 16 * i) 16)
def bindQ (b : Bytes) (g i : Nat) : Nat := field b (0x840 + 64 * g + 8 * i) 8
def bindG (b : Bytes) (g i : Nat) : Nat := field b (0xA40 + 32 * g + 8 * i) 8

/-- Every entry is valid, and zero where the strand kind has no such register (R107, R110). -/
def bindOk (b : Bytes) (kind : Nat) : Bool :=
  let n := kindStages kind
  (List.range 8).all (fun g =>
    (List.range 16).all (fun i => decide (bindD b g i = 0) || (decide (g < n) && descOk (bindD b g i))) &&
    (List.range 8).all (fun i => decide (bindQ b g i = 0) || (decide (g < n ∧ kind ≠ 2) && modulusOk (bindQ b g i))) &&
    (List.range 4).all (fun i => decide (bindG b g i = 0) || (decide (g < n ∧ kind = 1) && galoisOk (bindG b g i))))

/-- A stage with its program and starting values (R104). -/
def boundStage (img bind : Bytes) (kind g : Nat) : Stage :=
  let x := { Stage.zero with
    imem := wordsOf (recipeWords img g) (recipeWord img g)
    codeWords := recipeWords img g
    fvec := (List.range (recipeFvecN img g)).map (recipeFvec img g) }
  let y := (List.range 16).foldl (fun x i => if bindD bind g i = 0 then x else x.setD i (bindD bind g i)) x
  let z := (List.range 8).foldl (fun x i =>
    if bindQ bind g i = 0 then x else x.loadQ (kind * 8 + g) i (bindQ bind g i)) y
  (List.range 4).foldl (fun x i => if bindG bind g i = 0 then x else x.setG i (BitVec.ofNat 18 (bindG bind g i))) z

/-! ### A load -/

/-- What a load works on, as its GO found it: image and bind-block offsets, context and strand (R103, R104). -/
def State.load (s : State) (d : Nat) : LoadSt := s.loads.get (fun _ => LoadSt.zero) d
def State.ldOff (s : State) (d : Nat) : Nat := bits (s.load d).img 25 0
def State.ldBindOff (s : State) (d : Nat) : Nat := bits (s.load d).bind 25 0
def State.ldImage (s : State) (d : Nat) : Bytes := s.hubBytes (s.ldOff d) (field (s.hubBytes (s.ldOff d) 64) 8 4)
def State.ldBlock (s : State) (d : Nat) : Bytes := s.hubBytes (s.ldBindOff d) 0xB40

/-- Bytes [a, a + n) of hub SRAM are the secure world's alone (R471). -/
def secureHub (a n : Nat) : Bool := decide (a + n ≤ 0x2000000)

/-- LEN of a RECIPE entry (R419). -/
def recipeLen (kind : Nat) : Nat := if kind = 0 then 304 else if kind = 1 then 448 else 256

/-- The first check of R105 that fails, in the order given there. -/
def State.loadCheck (s : State) (d c st : Nat) : Byte :=
  let o := s.ldOff d
  if s.cst c ≠ CS.resident then Code.contextUnavailable
  else if ¬ secureHub o 64 ∨ ¬ secureHub o (field (s.hubBytes o 64) 8 4) ∨ ¬ secureHub (s.ldBindOff d) 0xB40 then
    Code.accessBounds
  else if o % 64 ≠ 0 ∨ s.ldBindOff d % 64 ≠ 0 then Code.formatError
  else if ¬ recipeOk (s.ldImage d) (strandKind st) ∨ ¬ bindOk (s.ldBlock d) (strandKind st) then Code.formatError
  else if ¬ s.logFits c (recipeLen (strandKind st) + 112) then Code.busy
  else Code.ok

/-- The measurement log takes the recipe's digests and the bind block (R106, R419, R420). -/
def State.logRecipe (s : State) (c d st : Nat) (img bind : Bytes) : State :=
  let k := strandKind st
  let body := le 1 d ++ le 1 st ++ le 1 k ++ le 1 (kindStages k) ++ le 4 0 ++ recipeDigest img k ++
    ((List.range (kindStages k)).map (stageDigest img)).flatten
  (s.logAdd c 2 (recipeLen k) body).logConfig c 2 d st (s.roundOrZero c) bind

/-- The strand takes its recipe and is READY (R104). -/
def State.bindStrand (s : State) (c d st : Nat) (img bind : Bytes) : State :=
  let k := strandKind st
  let s1 := (List.range (kindStages k)).foldl (fun t g => t.setStage (stageIx d st g) (boundStage img bind k g)) s
  let s2 := s1.setStrand (strandIx d st)
    { Strand.zero with params := wordsOf 8 (fun i => BitVec.ofNat 64 (field bind (8 * i) 8)) }
  (s2.setFld (Reg.strandStat d st) 15 12 c).setSst d st SS.ready

/-- The load of die d ends with a code. -/
def State.loadEnds (s : State) (d : Nat) (code : Byte) : State :=
  ((({ s with loads := s.loads.put (fun _ => LoadSt.zero) d LoadSt.zero }.setFld (Reg.ldCtl d) 31 31 0).setFld (Reg.ldStat d) 31 31 0).setFld (Reg.ldStat d) 23 16 code.toNat).done code

/-- RECIPE_LOAD: LD_CTL.GO (R103, R105). -/
def execRecipeLoad (d : Fin 4) (s : State) : Result :=
  let st := s.fld (Reg.ldCtl d.val) 3 0
  .next (if s.fld (Reg.ldStat d.val) 31 31 = 1 then s.done Code.busy
    else if 12 ≤ st then s.loadEnds d.val Code.formatError
    else s.onStrand d.val st (fun t =>
      if t.sst d.val st ≠ SS.unbound then t.loadEnds d.val Code.busy
      else
        let x : LoadSt := ⟨t.reg (Reg.ldCtl d.val), t.reg (Reg.ldImg d.val), t.reg (Reg.ldBind d.val)⟩
        (({ t with loads := t.loads.put (fun _ => LoadSt.zero) d.val x }.setFld (Reg.ldCtl d.val) 31 31 1).setFld (Reg.ldStat d.val) 31 31 1).done Code.ok))

/-- RECIPE_LOAD_DONE: the load has read, over the die's link to the hub (R16), checked, hashed and written (R104–R107). -/
def execRecipeLoadDone (d : Fin 4) (s : State) : Result :=
  let st := bits (s.load d.val).ctl 3 0
  let c := bits (s.load d.val).ctl 15 12
  .next (if s.fld (Reg.ldStat d.val) 31 31 = 0 then s.idle
    else s.across 8 d.val (fun u => u.loadEnds d.val Code.eccUncorrectable) (fun s =>
      let e := if s.sst d.val st = SS.unbound then s.loadCheck d.val c st else Code.busy
      if e = Code.ok then
        ((s.bindStrand c d.val st (s.ldImage d.val) (s.ldBlock d.val)).logRecipe c d.val st (s.ldImage d.val)
          (s.ldBlock d.val)).loadEnds d.val Code.ok
      else s.loadEnds d.val e))

end Sys2Proof.Machine
end

