-- ==== Sys2Proof/Machine/Pmp.lean ====
section
/-! DEFINITION. Requests of the management protocol (R397, R473–R477): acceptance, final responses, the journal. -/

namespace Sys2Proof

/-- The context of a request, and whether it names none (R473). -/
def PmpReq.c (p : PmpReq) : Nat := p.ctx.toNat % 16
def PmpReq.noCtx (p : PmpReq) : Bool := decide (128 ≤ p.ctx.toNat)
/-- [6:4] of byte 7 are zero and REQ_ID is nonzero. -/
def PmpReq.wellFormed (p : PmpReq) : Bool := decide (p.ctx.toNat / 16 % 8 = 0) && decide (p.reqId ≠ 0)

end Sys2Proof

namespace Sys2Proof.Machine





/-- Outstanding requests of connections that satisfy p have lost them (R477). -/
def State.orphans (s : State) (p : Nat → Bool) : State :=
  { s with mgmt := { s.mgmt with
    pending := s.mgmt.pending.map (fun w => if p w.conn then { w with conn := noConn } else w) } }

/-- A request that lost its connection and is sent again goes on as it stands, on the new connection (R477). -/
def State.adopt (s : State) (p : PmpReq) : State :=
  { s with mgmt := { s.mgmt with
    pending := s.mgmt.pending.map (fun w =>
      if w.ident = p.ident ∧ w.reqId = p.reqId then { w with conn := p.conn.val } else w) } }


/-- The final response with no body. -/
def State.answer (s : State) (p : PmpReq) (status : Byte) : State := s.final p.ident p.reqId status []

/-- A kept response of the same identity and REQ_ID, at most 60 s old. -/
def State.keptFor (s : State) (p : PmpReq) : Option Kept :=
  s.mgmt.kept.find? (fun k => decide (k.ident = p.ident ∧ k.reqId = p.reqId ∧ s.aon < k.time + 6000000000))

/-- Requests outstanding on a connection. -/
def State.outstanding (s : State) (conn : Nat) : Nat := (s.mgmt.pending.filter (fun w => w.conn = conn)).length

/-- What the admission state answers a command that it does not accept (R397, R533): `low` marks the commands that
SECURED accepts. -/
def State.admRefuses (s : State) (opc : Nat) : Option Byte :=
  if s.mgmt.adm = .admitted then none
  else if s.lc = 4 then
    (if opc = 0x0100 then none
     else if opc = 0x0101 ∨ opc = 0x0102 then some Code.lifecycleDenied else some Code.accessBounds)
  else if opc = 0x0100 ∨ opc = 0x0101 ∨ opc = 0x0102 then none
  else some Code.accessBounds

/-- A request that is accepted is outstanding and journalled; `k` carries it out and gives its final response, or leaves
it outstanding (R474, R477). -/
def State.accept (s : State) (p : PmpReq) (opc : Nat) (k : State → State) : State :=
  let m := s.mgmt
  k { s with mgmt := { m with
    pending := m.pending ++ [⟨p.conn.val, p.ident, p.reqId, p.ctx, BitVec.ofNat 16 opc, 0⟩] } }

/-- A request of an OPCODE; `named`: it names a context (R473–R475). -/
def State.pmp (s : State) (p : PmpReq) (opc : Nat) (named : Bool) (k : State → State) : State :=
  if s.mgmt.adm = .down ∨ p.conn ∉ s.mgmt.conns then s.idle
  else if s.hub.reset.isSome then s.waits
  else if 64 ≤ s.outstanding p.conn.val then s.pmpSend p.ident p.reqId 2 Code.busy []
  else if ¬ p.wellFormed then s.pmpSend p.ident p.reqId 2 Code.formatError []
  else match s.admRefuses opc with
  | some c => s.pmpSend p.ident p.reqId 2 c []
  | none =>
    match s.keptFor p with
    | some r => s.pmpSend r.ident r.reqId 2 r.status r.body
    | none =>
      if s.orphan p.ident p.reqId then (s.adopt p).done Code.ok
      else if s.mgmt.pending.any (fun w => decide (w.ident = p.ident ∧ w.reqId = p.reqId)) then
        s.pmpSend p.ident p.reqId 2 Code.formatError []
      else if named = p.noCtx ∨ (p.noCtx ∧ p.c ≠ 0) then s.pmpSend p.ident p.reqId 2 Code.formatError []
      else s.accept p opc k

/-- Outstanding requests of an OPCODE and context. -/
def State.waiting (s : State) (opc c : Nat) : List PmpWork :=
  s.mgmt.pending.filter (fun w => decide (w.opcode.toNat = opc ∧ w.ctx.toNat % 16 = c))

/-- Every outstanding request of an OPCODE and context gets its final response. -/
def State.finish (s : State) (opc c : Nat) (status : Byte) (body : List Nat) : State :=
  (s.waiting opc c).foldl (fun t w => t.final w.ident w.reqId status body) s

/-- What an outstanding request waits for. -/
def State.waitFor (s : State) (p : PmpReq) (arg : Nat) : State :=
  { s with mgmt := { s.mgmt with
    pending := s.mgmt.pending.map (fun w => if w.ident = p.ident ∧ w.reqId = p.reqId then { w with arg := arg } else w) } }

/-- Every outstanding request of an OPCODE that waits for `arg`, of a context where one is given, gets its final
response. -/
def State.finishArg (s : State) (opc : Nat) (c : Option Nat) (arg : Nat) (status : Byte) (body : List Nat) : State :=
  (s.mgmt.pending.filter (fun w => decide (w.opcode.toNat = opc ∧ w.arg = arg ∧ (c = none ∨ c = some w.ctx.toNat)))).foldl
    (fun t w => t.final w.ident w.reqId status body) s


end Sys2Proof.Machine
end

