-- ==== Sys2Proof/Machine/RoundOps.lean ====
section
/-! DEFINITION. Operations over sessions, datagrams and rounds that Estuary, contexts and rounds share: AIP datagrams
(R282–R285), and sessions by slot (R185). -/

namespace Sys2Proof

open Machine

/-- The 32-byte header of an AIP datagram (R282). -/
def Aip.hdr (m : Aip) : Bytes :=
  [m.version, m.typ, m.subtype, m.status] ++ be 8 m.sid.toNat ++ be 4 m.round.toNat ++ be 3 m.shard.toNat ++ [m.zero19] ++
  be 4 m.offset.toNat ++ be 2 m.length.toNat ++ be 6 m.seq.toNat

/-- A subtype is assigned for its type (R285). -/
def aipSubOk (t st : Nat) : Bool :=
  if t = 1 then decide (st = 1 ∨ st = 2)
  else if t = 3 then decide (1 ≤ st ∧ st ≤ 5)
  else if t = 4 ∨ t = 5 then decide (st = 0)
  else if t = 8 then decide (1 ≤ st ∧ st ≤ 3)
  else false

/-- Fields that R282 fixes at zero for a client's datagram: SESSION_ID in HELLO INIT, ROUND_ID in HELLO, OFFSET where the
subtype is no list, CHUNK or SKETCH (R282, R285). -/
def Aip.zerosOk (m : Aip) : Bool :=
  let t := m.typ.toNat
  let st := m.subtype.toNat
  (decide (t ≠ 1 ∨ st ≠ 1) || decide (m.sid = 0)) && (decide (t ≠ 1) || decide (m.round = 0)) &&
  (decide (t = 4 ∨ t = 5 ∨ (t = 3 ∧ st ≠ 1)) || decide (m.offset = 0))

/-- Step 1 of R295: a datagram that a client may send (R282, R283). -/
def Aip.ok (m : Aip) : Bool :=
  decide (m.version = 1) && aipSubOk m.typ.toNat m.subtype.toNat && decide (m.status = 0) && decide (m.zero19 = 0) &&
  decide (m.length.toNat = m.udpLen) && decide (48 ≤ m.length.toNat ∧ m.length.toNat ≤ 8240) && m.zerosOk

/-- An AIP datagram as it stands in a frame (R282). -/
def Aip.bytes (m : Aip) : Bytes := m.hdr ++ m.payload ++ le 16 m.tag.toNat

/-- The datagram is of a type and subtype. -/
def Aip.is (m : Aip) (t st : Nat) : Bool := decide (m.typ.toNat = t ∧ m.subtype.toNat = st)
/-- CHUNK or SKETCH: delivered to an I-strand. -/
def Aip.toStrand (m : Aip) : Bool := decide (m.typ.toNat = 4 ∨ m.typ.toNat = 5)
/-- Read words a CHUNK or SKETCH takes in its queue (R80). -/
def Aip.readWords (m : Aip) : Nat := (64 + m.length.toNat + 255) / 256

end Sys2Proof

namespace Sys2Proof.Machine

/-- A datagram the module sends, before Estuary gives it SEQ and a tag. -/
def mkAip (typ sub : Nat) (status : Byte) (sid : DWord) (round : Word) (shard off : Nat) (payload : Bytes) : Aip :=
  { version := 1, typ := BitVec.ofNat 8 typ, subtype := BitVec.ofNat 8 sub, status := status, sid := sid, round := round
    shard := BitVec.ofNat 24 shard, zero19 := 0, offset := BitVec.ofNat 32 off
    length := BitVec.ofNat 16 (48 + payload.length), seq := 0, payload := payload, tag := 0, udpLen := 48 + payload.length }

/-! ### Clients -/

/-- The LIVE session of context c whose client holds a slot. -/
def State.sessionOf (s : State) (c : Nat) (r : Round) (j u : Nat) : Option Nat :=
  (s.sess.find? (fun e => decide (e.2.st = 2 ∧ e.2.ctx.val = c ∧ r.slotOf j e.2.client = some u))).map (fun e => e.1)

/-- A datagram to the client of a slot, if it has a session. -/
def State.tell (s : State) (c : Nat) (r : Round) (j u op : Nat) (m : Aip) : State :=
  match s.sessionOf c r j u with
  | some i => s.postTx i op m
  | none => s

end Sys2Proof.Machine
end

