-- ==== Sys2Proof/Machine/RoundWork.lean ====
section
/-! DEFINITION. What Daxna reads and writes in memory for a round: its accesses (R383), the placement of bitmaps (R198,
R252), work lists (R206, R253), the F work entries and their inverse counts (R267, R270), interpolation (R196, R202). -/

namespace Sys2Proof.Machine

/-! ### Daxna's accesses -/

/-- The hub's own read of an object of a context, under the context's key index (R383). -/
def State.hubGet (s : State) (c a n : Nat) : Line := s.readSpan (.hub .secure (Fin.ofNat 19 c)) a n

/-- The hub's own write of an object of a context, under the context's key index (R383). -/
def State.hubPut (s : State) (c a : Nat) (d : Bytes) : Line := s.writeSpan (.hub .secure (Fin.ofNat 19 c)) a d

/-- Writes of Daxna one after another, and whether one of them waits for its memory; a write that is refused leaves its
object as it was. -/
def State.putAll (s : State) (c : Nat) : List (Nat × Bytes) → State × Bool
  | [] => (s, false)
  | e :: es =>
    let w := s.hubPut c e.1 e.2
    if w.stall then (w.st, true) else w.st.putAll c es

/-- A command that waits for its memory stands where it was; what it leaves is the wakes that its accesses started
(notes/assumptions/7.md). -/
def State.waitsFor (s t : State) : State :=
  ((List.range 64).foldl (fun u n =>
    if t.pdState n ≠ s.pdState n ∨ t.pd.get (fun _ => PdX.zero) n ≠ s.pd.get (fun _ => PdX.zero) n then u.startWake n else u) s).waits

/-- A command goes on after work that may wait for its memory. -/
def State.goOn (s : State) (x : State × Bool) (k : State → State) : State := if x.2 then s.waitsFor x.1 else k x.1

/-- n granules from address a lie in the fitted HBM data ranges. -/
def grFits (p : Part) (a n : Nat) : Bool :=
  match place p a with
  | .hbm _ o => decide (o + n * 0x200000 ≤ p.dataSize)
  | _ => false

/-- The range lies in HBM granules of the context. -/
def State.inCtxHbm (s : State) (c a n : Nat) : Bool :=
  grFits s.part a 0 && decide (a % s.part.block + n ≤ s.part.dataSize) &&
  (List.range ((a + n + 0x1FFFFF) / 0x200000 - a / 0x200000)).all (fun k => s.granuleOf (a / 0x200000 * 0x200000 + k * 0x200000) = c)

/-! ### Bitmaps (R198, R252) -/

/-- Banks that hold bitmaps of a context: owned with STRAND = 0xF and HUB_SEC = 1. -/
def State.mapBanks (s : State) (c : Nat) : List (Nat × Nat) :=
  allBanks.filter (fun e => s.bownedBy e.1 e.2 c && s.bhub e.1 e.2 && decide (s.bstrand e.1 e.2 = 0xF) && !s.bacc e.1 e.2)

/-- Daxna clears the bitmap banks in OPENING: each is written with CLR = 1 and granted as it was. -/
def State.clearMaps (s : State) (c : Nat) : State :=
  (s.mapBanks c).foldl (fun t e =>
    if t.bst e.1 e.2 = 1 then t.startHandover e.1 e.2 (t.reg (Reg.bankOwner e.1 e.2) &&& 0x0000F70F) true else t) s

/-- The bitmap banks have been cleared and granted again. -/
def State.mapsClear (s : State) (c : Nat) : Bool := allBanks.all (fun e => !s.bankComing c e.1 e.2)

/-- Shard-table entries of the I-strands bound to a context. -/
def State.shardEntries (s : State) (c : Nat) : List (Nat × Nat × Nat) :=
  (allStrands.filter (fun e => decide (e.2 < 4) && s.boundTo c e)).flatMap (fun e => (List.range 4).map (fun j => (e.1, e.2, j)))

/-- The entry that holds a shard: die, I-strand and entry. -/
def State.shardEntry (s : State) (c sh : Nat) : Option (Nat × Nat × Nat) :=
  (s.shardEntries c).find? (fun e =>
    decide (s.fld (Reg.shtCtl e.1 e.2.1 e.2.2) 31 30 ≠ 0 ∧ s.fld (Reg.shtCtl e.1 e.2.1 e.2.2) 23 0 = sh))

/-- Where Daxna places a bitmap of a shard: in one of the banks for bitmaps, on the die of the shard's owning strand once a
shard table names that strand. -/
def State.mapAddr (s : State) (c sh : Nat) (sketch : Bool) : Nat :=
  let p := Config.bitmapPlace c sh sketch
  let bs : List (Nat × Nat) := match s.shardEntry c sh with
    | some e => (s.mapBanks c).filter (fun b => decide (b.1 = e.1))
    | none => s.mapBanks c
  match bs[p.1 % bs.length]? with
  | some b => bankAddr b.1 b.2 (p.2 % 0x4000000)
  | none => 0

/-- The bitmaps of a module's shards. -/
def State.placeMaps (s : State) (c : Nat) (b : Bytes) : List (Nat × Nat × Nat) :=
  if s.mapBanks c = [] then []
  else (s.ownShards b).map (fun j => (j, s.mapAddr c (rdShard b j) false, s.mapAddr c (rdShard b j) true))

/-! ### Work lists (R206, R253, R267) -/

/-- One entry goes into a strand's work list: the next place of its two halves of 32 KiB, then COUNT behind it. Key of the
context's count, the strand's index, the entry; whether memory waits, and the entry's address if it was written. COUNT and the
reuse of a half follow the latest entry (DESIGN CHOICE, notes/assumptions/49.md). -/
def State.postWork (s : State) (c key ix : Nat) (rec : Bytes) : State × Bool × Option Nat :=
  let n := (s.ctx c).work.get (fun _ => 0) key
  let per := 32768 / rec.length - 1
  let a := Config.workList ix + n / per % 2 * 32768 + rec.length * (n % per)
  let w := s.hubPut c a (rec ++ le 4 (n % per + 1))
  if w.stall then (w.st, true, none)
  else if w.code ≠ Code.ok then (w.st, false, none)
  else (w.st.setCtx c { w.st.ctx c with work := (w.st.ctx c).work.put (fun _ => 0) key (n + 1) }, false, some a)

/-! ### F work entries (R267) -/

/-- 1 / n as FP32, rounded to nearest-even; 0 for n = 0: 61 bits of the quotient, the last one sticky. -/
def recip32 (n : Nat) : Nat :=
  if n = 0 then 0 else (f32.round 0 false false (2 ^ 60 / n * 2 + b2n (decide (2 ^ 60 % n ≠ 0))) (-61)).pat

/-- The inverse-count vector of a shard of this module: 1 / |S_c| for each chunk, from the final bitmap (R186, R267). -/
def State.ownCounts (s : State) (r : Round) (j : Nat) : Bytes :=
  ((List.range (rdChunks r.desc j)).map (fun k =>
    le 4 (recip32 ((List.range (rdCohort r.desc j)).filter (fun u => s.chunkBit r j u k)).length))).flatten

/-- The vector of a shard: this module's own, or the one its host has sent. -/
def State.countsOf (s : State) (r : Round) (j : Nat) : Option Bytes :=
  if rdHost r.desc j = s.ownId then some (s.ownCounts r j)
  else (r.counts.find? (fun e => decide (e.1.toNat = rdShard r.desc j))).map (fun e => e.2)

/-- An F-strand of the context failed with ECC_UNCORRECTABLE inside a shard's arrays in this round (R270). -/
def State.modelFault (s : State) (c : Nat) (b : Bytes) (j : Nat) : Bool :=
  match (s.ctx c).model with
  | none => false
  | some m =>
    match m.dir.find? (fun e => decide (e.shard.toNat = rdShard b j)) with
    | none => false
    | some e =>
      let n := 2 * (1 + m.nstate) * ((4 * e.elems.toNat + 16383) / 16384 * 16384)
      (s.ctx c).eccAt.any (fun a => overlap a 1 e.base.toNat n)

/-- F-strands bound to a context. -/
def State.fStrands (s : State) (c : Nat) : List (Nat × Nat) :=
  allStrands.filter (fun e => decide (10 ≤ e.2) && s.boundTo c e)

/-- The die on which a shard is sealed for this module's update: that of its shard-table entry, or of the queue that its
stream is received in (R197, R213). -/
def State.sealDie (s : State) (c : Nat) (b : Bytes) (j : Nat) : Option Nat :=
  if rdHost b j = s.ownId then (s.shardEntry c (rdShard b j)).map (fun e => e.1)
  else some (fseTarget (s.fse (Config.streamTag c (rdShard b j) % 65536)) / 4)

/-- The F-strand that updates a shard: one of the die on which it is sealed; which of them, the I-recipe's FSEL says
(R155, R267; DESIGN CHOICE, notes/assumptions/49.md). -/
def State.fStrandOf (s : State) (c : Nat) (b : Bytes) (j : Nat) : Option (Nat × Nat) :=
  let fs := (s.fStrands c).filter (fun e => decide (s.sealDie c b j = some e.1))
  fs[Config.updateStrand c (rdShard b j) % fs.length]?

/-- An F work entry (R267). -/
def fWorkRec (sh : Nat) (replay : Bool) (elems dirent inv chunk : Nat) : Bytes :=
  le 3 sh ++ le 1 (b2n replay) ++ le 4 elems ++ le 8 dirent ++ le 8 inv ++ le 2 chunk ++ le 6 0

/-- The done word of a shard's work entry: none until the F-recipe writes it over the entry's first bytes; its flag bit 0
(R267); as Daxna has taken it, or as it stands. -/
def State.doneWord (s : State) (r : Round) (j : Nat) : Option Bool :=
  match r.doneGot.find? (fun e => decide (e.1 = j)) with
  | some e => some e.2
  | none =>
    match r.posted.find? (fun e => decide (e.1 = j)) with
    | none => none
    | some e =>
      let w := fromLE (s.bytes e.2 4)
      if w / 2 = 0xD00000 / 2 then some (w.testBit 0) else none

/-- Daxna takes the done words that stand in the work lists. -/
def State.takeDone (s : State) (r : Round) : Round :=
  { r with doneGot := (r.posted.filterMap (fun e => (s.doneWord r e.1).map (fun x => (e.1, x)))) ++
      r.doneGot.filter (fun e => !r.posted.any (fun x => decide (x.1 = e.1))) }

/-- A half of an F-strand's work list can be filled again: the strand is done with every entry that stands in it (R206,
R267). -/
def State.halfDone (s : State) (c : Nat) (r : Round) (ix h : Nat) : Bool :=
  r.posted.all (fun e =>
    !overlap e.2 1 (Config.workList ix + h * 32768) 32768 || (s.doneWord r e.1).isSome || r.isFailed e.1 ||
    s.modelFault c r.desc e.1)

/-- INV_PTR may name the place: the context's HBM, or a bank granted to the F-strand, outside its work list (R267). -/
def State.invOk (s : State) (c : Nat) (f : Nat × Nat) (a n : Nat) : Bool :=
  !overlap a n (Config.workList (strandIx f.1 f.2)) 65536 &&
  (s.inCtxHbm c a n ||
   (match place s.part a with
    | .bank d b o => decide (d = f.1) && s.bownedBy d b c && decide (s.bstrand d b = f.2) && decide (o + n ≤ 0x4000000)
    | _ => false))

/-- The entry of a shard is posted: its vector, the entry, COUNT; nothing where no F-strand, no directory entry, no vector, no
place for it or no free half is there. -/
def State.postF (s : State) (c j : Nat) (replay : Bool) : State × Bool :=
  match s.round c, (s.ctx c).model with
  | some r0, some m =>
    let r := s.takeDone r0
    let sh := rdShard r.desc j
    let i := m.dir.findIdx (fun e => decide (e.shard.toNat = sh))
    let inv := Config.countVector c sh * 64 % 2 ^ 48
    match s.fStrandOf c r.desc j, s.countsOf r j with
    | some f, some v =>
      let ix := strandIx f.1 f.2
      let n := (s.ctx c).work.get (fun _ => 0) (100 + ix)
      if m.dir.length ≤ i ∨ ¬ s.invOk c f inv v.length ∨ ¬ s.halfDone c r ix (n / 1023 % 2) ∧ n % 1023 = 0 then (s, false)
      else
        let x := s.hubPut c inv v
        if x.stall then (x.st, true)
        else if x.code ≠ Code.ok then (x.st, false)
        else
          let y := x.st.postWork c (100 + ix) ix
            (fWorkRec sh replay (rdElems r.desc j) (m.base + 128 + 32 * i) inv (rdChunkElems r.desc))
          match y.2.2 with
          | some a => (y.1.setRound c { r with
              posted := (j, a) :: r.posted.filter (fun e => decide (e.1 ≠ j))
              doneGot := r.doneGot.filter (fun e => decide (e.1 ≠ j)) }, false)
          | none => (y.1, y.2.1)
    | _, _ => (s, false)
  | _, _ => (s, false)

/-- The entries of several shards, in order. -/
def State.postFs (s : State) (c : Nat) : List Nat → State × Bool
  | [] => (s, false)
  | j :: js =>
    let x := s.postF c j false
    if x.2 then x else x.1.postFs c js

/-- The first posted entry of an F-strand that is not done: the one a fault has stopped. -/
def State.stopped (s : State) (c : Nat) (r : Round) (e : Nat × Nat) : Option Nat :=
  (r.posted.reverse.find? (fun x =>
    decide (s.fStrandOf c r.desc x.1 = some e) && (s.doneWord r x.1).isNone)).map (fun x => x.1)

/-- Before a recovery replay Daxna posts the stopped entry again, with REPLAY = 1 (R270). -/
def State.replayF (s : State) (d st : Nat) : State × Bool :=
  let c := s.sctx d st
  match s.round c with
  | some r => if s.roundOpen c then (match s.stopped c r (d, st) with | some j => s.postF c j true | none => (s, false)) else (s, false)
  | none => (s, false)

/-! ### Interpolation (R196, R202) -/

/-- Inverse modulo the order of secp384r1. -/
def scalarInv (a : Nat) : Nat := powBits p384Order 384 (a % p384Order) (p384Order - 2)

/-- The value at zero of the polynomial of degree T − 1 through T points, over the secp384r1 scalar field. -/
def interpolate (xs : List (Nat × Nat)) : Nat :=
  (xs.map (fun e =>
    (xs.filter (fun o => decide (o.1 ≠ e.1))).foldl
      (fun acc o => acc * o.1 % p384Order * scalarInv (o.1 + p384Order - e.1) % p384Order) e.2)).sum % p384Order

end Sys2Proof.Machine
end

