-- ==== Sys2Proof/Machine/SelfTest.lean ====
section
/-! DEFINITION. Self-tests (R478–R480): meanings of BIST, CALIBRATE, REPLAY, BANKTEST, SELFTEST_DEFERRED_START,
SELFTEST_DONE and KAT_STEP. -/

namespace Sys2Proof.Machine

def State.testOf (s : State) (d : Nat) : Option TestSt := s.tests.get (fun _ => none) d
def State.setTest (s : State) (d : Nat) (x : Option TestSt) : State :=
  { s with tests := s.tests.put (fun _ => none) d x }

/-- An operation completes: ST_CTL keeps OP and TARGET; ST_STAT takes CODE, FAILS and TARGET; GO, BUSY and HELD read 0. -/
def State.stDone (s : State) (d op tgt : Nat) (code : Byte) (fails : Nat) : State :=
  ((s.setReg (Reg.stCtl d) (BitVec.ofNat 32 (op * 2 ^ 28 + tgt))).setReg (Reg.stStat d)
    (BitVec.ofNat 32 (code.toNat * 2 ^ 16 + fails * 2 ^ 8 + tgt))).done code

/-- An operation runs or is held: GO reads 1, and BUSY or HELD. -/
def State.stHolds (s : State) (d op tgt : Nat) (held : Bool) (code : Byte) : State :=
  ((s.setReg (Reg.stCtl d) (BitVec.ofNat 32 (2 ^ 31 + op * 2 ^ 28 + tgt))).setReg (Reg.stStat d)
    (BitVec.ofNat 32 ((if held then 2 ^ 30 else 2 ^ 31) + code.toNat * 2 ^ 16 + tgt))).done code

/-- An operation on die d while none runs: a write of ST_CTL while BUSY is ignored, a GO while one is HELD completes with
BUSY (R478, R479). -/
def State.stRun (s : State) (d : Nat) (k : State → State) : State :=
  match s.testOf d with
  | none => k s
  | some x => if x.held then (s.setFld (Reg.stStat d) 23 16 Code.busy.toNat).done Code.busy else s.idle

/-- GUARDED_ACT of a strand (R90, R95). -/
def State.forceGuard (s : State) (d st : Nat) (replay : Bool) : State :=
  let x := s.strand (strandIx d st)
  if strandKind st = 2 then
    (s.setStrand (strandIx d st) { x with forced := true, replay := replay }).setFld (Reg.strandStat d st) 25 25 1
  else s

/-- A strand test starts on an UNBOUND strand. -/
def State.startTest (s : State) (d op tgt : Nat) : State :=
  (((s.setSst d tgt SS.selftest).forceGuard d tgt false).setTest d (some ⟨op, tgt, false⟩)).stHolds d op tgt false Code.ok

/-- BIST (op 0) and CALIBRATE (op 1): at once on an UNBOUND strand, whose domain they wake (R442), held DEFERRED on a bound one. -/
def State.strandTest (s : State) (d op tgt : Nat) : State :=
  s.stRun d (fun t =>
    if t.sst d tgt = SS.unbound then t.onStrand d tgt (fun u => u.startTest d op tgt)
    else (t.setTest d (some ⟨op, tgt, true⟩)).stHolds d op tgt true Code.deferred)

/-- BIST. -/
def execBist (d : Fin 4) (st : Fin 12) (s : State) : Result := .next (s.toDie d.val (fun t => t.strandTest d.val 0 st.val))

/-- CALIBRATE. -/
def execCalibrate (d : Fin 4) (st : Fin 12) (s : State) : Result := .next (s.toDie d.val (fun t => t.strandTest d.val 1 st.val))

/-- REPLAY of an F-strand that is READY: the entry that a fault stopped is posted again, then ENABLE with GUARDED forced
(R90, R270). -/
def State.replay (s : State) (d tgt : Nat) : State :=
  s.stRun d (fun t =>
    if strandKind tgt ≠ 2 then t.stDone d 2 tgt Code.formatError 0
    else if t.sst d tgt ≠ SS.ready then t.stDone d 2 tgt Code.busy 0
    else s.goOn (t.replayF d tgt) (fun u => ((u.forceGuard d tgt true).runStrand d tgt).stDone d 2 tgt Code.ok 0))

/-- REPLAY. -/
def execReplay (d : Fin 4) (st : Fin 12) (s : State) : Result := .next (s.toDie d.val (fun t => t.replay d.val st.val))

/-- A test of a bank reaches its half-array: it waits for a wake, or fails with WAKE_FAIL (R442, R445). -/
def State.onHalf (s : State) (d b : Nat) (k : State → State) : State :=
  if s.pdState (pdBank d b) = 6 then s.done Code.wakeFail
  else if s.pdOn (pdBank d b) then k s
  else (s.startWake (pdBank d b)).waits

/-- BANKTEST of a FREE bank: STATE reads CLEARING while the march runs. -/
def State.bankTest (s : State) (d b : Nat) : State :=
  s.stRun d (fun t =>
    if t.bst d b ≠ 0 then t.stDone d 3 b Code.busy 0
    else t.onHalf d b (fun u =>
      let v := (u.setBank d b { u.bank d b with test := true }).setFld (Reg.bankOwner d b) 31 30 3
      (v.setTest d (some ⟨3, b, false⟩)).stHolds d 3 b false Code.ok))

/-- BANKTEST. -/
def execBanktest (d : Fin 4) (b : Fin 24) (s : State) : Result := .next (s.toDie d.val (fun t => t.bankTest d.val b.val))

/-- SELFTEST_DEFERRED_START: a held test starts once its strand is UNBOUND. -/
def execSelftestDeferredStart (d : Fin 4) (s : State) : Result :=
  .next (match s.testOf d.val with
    | some x => if x.held ∧ s.sst d.val x.target = SS.unbound then s.onStrand d.val x.target (fun u => u.startTest d.val x.op x.target)
      else s.idle
    | none => s.idle)

/-- Records of n failing words of a strand, in the form of R57; a strand's memories have no physical address, and the
syndrome is free (R544). -/
def State.failRecords (s : State) (d unit : Nat) : Nat → State
  | 0 => s
  | n + 1 =>
    ((s.post 0 (Ev.of 1 3 Code.eccUncorrectable 0 d unit (s.free.toNat % 65536))).took 1).failRecords d unit n

/-- Failing words of a bank, which keep failing (R60); which they are is free. Each is recorded with its address (R57). -/
def State.failWords (s : State) (d b : Nat) : Nat → State
  | 0 => s
  | n + 1 =>
    let w := bankAddr d b 0 / 16 + s.free.toNat % 4194304
    let s1 := (s.setMark w .uncorrectable).took 1
    ((s1.post 0 { Ev.of 1 1 Code.eccUncorrectable 0 d b (s1.free.toNat % 65536) with addr := w * 16 }).took 1).failWords d b n

/-- CODE of a test that found failing words. -/
def testCode (fails : Byte) : Byte := if fails = 0 then Code.ok else Code.eccUncorrectable

/-- What a test leaves: a strand UNBOUND with every memory zero; a bank zeroed, CLEAN and FREE (R479). -/
def State.testEnds (s : State) (d : Nat) (x : TestSt) (fails : Byte) : State :=
  if x.op = 3 then
    let s1 := s.clearBank d x.target
    let s2 := (s1.setBank d x.target { s1.bank d x.target with test := false }).setFld (Reg.bankOwner d x.target) 31 30 0
    s2.failWords d x.target fails.toNat
  else (s.unbindStrand d x.target).failRecords d x.target fails.toNat

/-- SELFTEST_DONE: the running test ends with FAILS failing words or stages; a TEST.RUN that waits is answered. -/
def execSelftestDone (d : Fin 4) (fails : Byte) (s : State) : Result :=
  .next (match s.testOf d.val with
    | some x =>
      if x.held then s.idle
      else
        let s1 := (s.testEnds d.val x fails).setTest d.val none
        let s2 := s1.finishArg 0x0107 none d.val (testCode fails) [(testCode fails).toNat, fails.toNat]
        s2.stDone d.val x.op x.target (testCode fails) fails.toNat
    | none => s.idle)

/-- Coding of an engine in an event record (R544). -/
def katCode : KatEngine → Nat
  | .keyStore => 0
  | .publicKey => 1
  | .breakwater => 2

/-- KAT_STEP: only while the engine has no request queued; a failed test is recorded, and the engine's requests answer
INTERNAL_ERROR from then on (R480). -/
def State.katStep (s : State) (e : KatEngine) (pass queued : Bool) : State :=
  if queued then s.idle
  else if pass then s.done Code.ok
  else
    let s1 := if e ∈ s.hub.katBad then s else { s with hub := { s.hub with katBad := s.hub.katBad ++ [e] } }
    (s1.post 3 (Ev.of 6 6 Code.internalError 4 0 0 (katCode e))).done Code.internalError

/-- KAT_STEP. -/
def execKatStep (e : KatEngine) (pass queued : Bool) (s : State) : Result := .next (s.katStep e pass queued)

end Sys2Proof.Machine
end

