-- ==== Sys2Proof/Machine/Hub.lean ====
section
/-! DEFINITION. The hub watchdog and the hub reset (R484, R485): meanings of HUB_WDT_KICK, HUB_WDT_EXPIRE, HUB_RST_WRITE
and HUB_RESET_DONE. -/

namespace Sys2Proof.Machine

/-- The watchdog's count restarts: the next expiry is a first one. -/
def State.wdtRestart (s : State) : State := { s with hub := { s.hub with nmi := false } }

/-- A write of HUB_WDT_KICK. -/
def State.wdtKick (s : State) (v : Word) : State := if v = 0xA9A9 then s.wdtRestart.done Code.ok else s.idle

/-- HUB_WDT_KICK. -/
def execHubWdtKick (world : World) (v : Word) (s : State) : Result :=
  .next (s.secureOnly world Reg.hubWdtKick (fun t => t.wdtKick v))

/-- A hub reset starts: the cores and their pair latches and buffers go, PMP's TCP connections end, the cause is recorded;
everything else runs on (R485, R539). Cause 0 is the watchdog, 1 HUB_RST, 2 PMP RESET. While RESET_N holds a warm reset it
is ignored (R520; log 142). -/
def State.hubResetStart (s : State) (cause : Fin 3) : State :=
  if s.boot.inReset then s
  else
    let s1 := ((s.wdtRestart).orphans (fun _ => true)).recordCause (if cause = 0 then 10 else 9)
    { s1 with
      latch := [], wbuf := []
      hub := { s1.hub with reset := some cause }
      mgmt := { s1.mgmt with conns := [] } }

/-- HUB_WDT_EXPIRE: the first expiry sets FIRED with a record and the interrupt; the second without a kick resets the hub,
or writes a second record. -/
def execHubWdtExpire (s : State) : Result :=
  if s.hub.reset.isSome then .next s.idle
  else if ¬ s.hub.nmi then
    let s1 := (s.setFld Reg.hubWdt 31 31 1).post 3 (Ev.of 7 2 Code.internalError 2 0 0 0)
    .next ({ s1 with hub := { s1.hub with nmi := true } }.done Code.ok)
  else if s.fld Reg.hubWdt 30 30 = 1 then .next ((s.hubResetStart 0).done Code.ok)
  else .next ((s.post 3 (Ev.of 7 3 Code.internalError 2 0 0 0)).done Code.ok)

/-- A write of HUB_RST. -/
def State.hubRst (s : State) (v : Word) : State :=
  if v = 1 ∧ s.hub.reset.isNone then (s.hubResetStart 1).done Code.ok else s.idle

/-- HUB_RST_WRITE. -/
def execHubRstWrite (world : World) (v : Word) (s : State) : Result :=
  .next (s.secureOnly world Reg.hubRst (fun t => t.hubRst v))

/-- HUB_RESET_DONE: Daxna serves again, with a record; journalled requests stay to be finished (R485, R477). -/
def execHubResetDone (s : State) : Result :=
  match s.hub.reset with
  | none => .next s.idle
  | some c =>
    .next (({ s with hub := { s.hub with reset := none } }.post 3 (Ev.of 7 4 Code.ok 2 0 0 c.val)).done Code.ok)

end Sys2Proof.Machine
end

