-- ==== Sys2Proof/Machine/Control.lean ====
section
/-! DEFINITION. Meanings of the control class (R160–R162): loops, branches, barriers between stages and between strands
(R124, R125, R370, R371), hints, fences, traps, halts. -/

namespace Sys2Proof.Machine

/-- LOOP (R161). -/
def execLoop (l : Loc) (f : Fields) (s : State) : Result :=
  .next (s.issue l 0xE0 f { stages := St.all, sa := .s, imm := 0x3FFF } (fun x =>
    let fin := f.i
    let n := (x.sr f.a).toNat
    let inside : Bool := match x.loops with | [] => true | r :: _ => decide (fin ≤ r.fin)
    if 4 ≤ x.loops.length ∨ fin ≤ x.pc ∨ x.codeWords ≤ fin ∨ inside = false then s.insnFault l Code.formatError
    else if n = 0 then s.retire l { x with pc := fin }
    else (s.setStage l.ix { x with pc := x.pc + 1, loops := ⟨x.pc + 1, fin, n - 1⟩ :: x.loops }).done Code.ok))

/-- A taken branch ends the loops whose body it leaves (R161). -/
def leaveLoops (target : Nat) : List LoopFrame → List LoopFrame
  | [] => []
  | r :: rs => if r.start ≤ target ∧ target ≤ r.fin then r :: rs else leaveLoops target rs

/-- BR's condition (R160). -/
def Stage.taken (x : Stage) (f : Fields) : Bool := x.pr (f.a % 8) != decide (f.a / 8 % 2 = 1)

/-- BR (R160, R162) and the returns from handler mode (R128). -/
def execBr (l : Loc) (f : Fields) (s : State) : Result :=
  .next (s.issue l 0xE1 f { stages := St.all, sa := .br, imm := 0xFFFFFF } (fun x =>
    if f.i = 0xFFFFFF ∨ f.i = 0xFFFFFE then
      if ¬ x.handler then s.insnFault l Code.formatError
      else if x.taken f then (s.handlerReturn l (if f.i = 0xFFFFFF then x.epc + 1 else x.epc)).done Code.ok
      else s.retire l x
    else if 2 ^ 14 ≤ f.i ∨ x.codeWords ≤ f.i then s.insnFault l Code.formatError
    else if x.taken f then
      (s.setStage l.ix { x with pc := f.i, loops := leaveLoops f.i x.loops }).done Code.ok
    else s.retire l x))

/-- A stage that waited at a barrier goes on at its next instruction. -/
def Stage.leave (x : Stage) : Stage :=
  let n := stepLoops x.pc x.loops
  { x with wait := .none, pc := n.1, loops := n.2 }

/-- Every stage of a mask has arrived. -/
def BarSt.full (b : BarSt) : Bool := b.mask &&& b.arrived == b.mask

/-- Arrival at BAR: the stage waits; once all participants have arrived every waiting stage leaves (R124). A stage
outside its own mask waits and counts as an arrival too (DESIGN CHOICE, notes/assumptions/104.md). -/
def State.barArrive (s : State) (l : Loc) (x : Stage) (n : Nat) (b : BarSt) : State :=
  let i := strandIx l.d l.s
  let y := s.strand i
  let b1 : BarSt := { b with arrived := b.arrived ||| BitVec.ofNat 8 (2 ^ l.g) }
  let s1 := s.setStage l.ix { x with wait := .bar n }
  if b1.full then
    let s2 := s1.eachStage l.d l.s (fun z => if z.wait = .bar n then z.leave else z)
    s2.setStrand i { y with bars := y.bars.put (fun _ => ⟨0, 0⟩) n ⟨0, 0⟩ }
  else s1.setStrand i { y with bars := y.bars.put (fun _ => ⟨0, 0⟩) n b1 }

/-- BAR (R124). -/
def execBar (l : Loc) (f : Fields) (s : State) : Result :=
  .next (s.issue l 0xE2 f { stages := St.all, imm := 0xF00FF } (fun x =>
    let n := f.imf 19 16
    let m := BitVec.ofNat 8 (f.imf 7 0)
    let b := (s.strand (strandIx l.d l.s)).bars.get (fun _ => ⟨0, 0⟩) n
    if b.arrived = 0 then (s.barArrive l x n ⟨m, 0⟩).done Code.ok
    else if b.mask = m then (s.barArrive l x n b).done Code.ok
    else s.insnFault l Code.formatError))

/-! ### Barriers between strands -/

/-- INST of a barrier (R371). -/
def State.barInstOf (s : State) (c n : Nat) : BitVec 16 := s.barInst.get (fun _ => 0) (c * 256 + n)
/-- The body of a barrier message (R369). -/
def State.barBody (s : State) (c n : Nat) : Bytes := be 1 c ++ be 1 n ++ be 2 (s.barInstOf c n).toNat

/-- Every stage that waits at the barrier leaves with P7; a stage that a drain has stopped there stays (R125). -/
def State.barwLeave (s : State) (c n : Nat) (p7 : Bool) : State :=
  allStrands.foldl (fun t e =>
    if t.boundTo c e then
      t.eachStage e.1 e.2 (fun z => if z.wait = .barw n ∧ z.run = .running then (z.setP 7 p7).leave else z)
    else t) s

/-- The instance ends: waiting stages leave, INST rises, ARRIVED reads zero (R371). -/
def State.barwEnd (s : State) (c n : Nat) (p7 : Bool) : State :=
  let s1 := (s.barwLeave c n p7).setFld (Reg.bwCfg c n) 25 16 0
  { s1 with
    barInst := s1.barInst.put (fun _ => 0) (c * 256 + n) (s1.barInstOf c n + 1)
    barMods := s1.barMods.put (fun _ => []) (c * 256 + n) [] }

/-- The coordinator counts a module once; at NMOD it broadcasts the release and the instance ends (R371). -/
def State.barCount (s : State) (c n : Nat) (m : BitVec 14) : State :=
  let k := c * 256 + n
  let ms := s.barMods.get (fun _ => []) k
  let ms1 := if ms.contains m then ms else m :: ms
  let s1 := { s with barMods := s.barMods.put (fun _ => []) k ms1 }
  if ms1.length = s.fld (Reg.bwGrp c) 14 0 then (s1.sendCtrl none 2 (s1.barBody c n)).barwEnd c n true else s1

/-- This module coordinates the context's group barriers. -/
def State.barCoord (s : State) (c : Nat) : Bool := s.fld (Reg.bwGrp c) 29 16 = s.modId

/-- One local arrival (R125, R370, R371). -/
def State.barwArrive (s : State) (c n : Nat) : State :=
  let s1 := s.addFld (Reg.bwCfg c n) 25 16 1
  if s1.fld (Reg.bwCfg c n) 25 16 ≠ s1.fld (Reg.bwCfg c n) 9 0 then s1
  else if s1.fld (Reg.bwCfg c n) 31 31 = 0 then s1.barwEnd c n true
  else if s1.barCoord c then s1.barCount c n (BitVec.ofNat 14 s1.modId)
  else s1.sendCtrl (some (BitVec.ofNat 14 (s1.fld (Reg.bwGrp c) 29 16))) 1 (s1.barBody c n)

/-- BARW (R125, R464); in a strand that drains the stage stops where it waits. -/
def execBarw (l : Loc) (f : Fields) (s : State) : Result :=
  .next (s.issue l 0xE3 f { stages := St.all, imm := 0xFF } (fun x =>
    let t := (s.setStage l.ix { x with wait := .barw f.i, fillerOut := false }).barwArrive (s.sctx l.d l.s) f.i
    (if t.sst l.d l.s = SS.draining then t.setStage l.ix (t.stage l.ix).stopBarw else t).done Code.ok))

/-- OPPT (R132). -/
def execOppt (l : Loc) (f : Fields) (s : State) : Result :=
  .next (s.issue l 0xE4 f { stages := St.all, imm := 3 } (fun x =>
    s.retire l { x with hint := if f.i = 3 then none else some (BitVec.ofNat 2 f.i) }))

/-- FENCE: memory accesses are complete when their instruction retires, so MEM holds at once (R121); OUT holds later
SENDs until the forwarded tiles now in the slots have left (R119). -/
def execFence (l : Loc) (f : Fields) (s : State) : Result :=
  .next (s.issue l 0xE5 f { stages := St.all, imm := 3 } (fun x =>
    let n := (x.slots.filter (fun t => decide (l.g < t.dest.toNat))).length
    s.retire l (if f.imf 1 1 = 1 then { x with fence := n } else x)))

/-- A value that the status table lists (R8, R9). -/
def listedCode (c : Nat) : Bool := listedCodes.any (fun x => decide (x.toNat = c))

/-- TRAP (R126, R127, R162). -/
def execTrap (l : Loc) (f : Fields) (s : State) : Result :=
  .next (s.issue l 0xE6 f { stages := St.all, imm := 0xFF } (fun _ =>
    if f.i = 0 ∨ ¬ listedCode f.i then s.insnFault l Code.formatError
    else s.stageFault l ⟨BitVec.ofNat 8 f.i, Origin.insn, 0, 0, true⟩))

/-- Every stage of the strand has executed HALT. -/
def State.allHalted (s : State) (d st : Nat) : Bool :=
  (List.range (kindStages (strandKind st))).all (fun g => decide ((s.stage (stageIx d st g)).run = .halted))

/-- HALT: the stage stops, and with the last one the strand is HALTED (R96); in handler mode it stops as for an
unhandled fault (R128). -/
def execHalt (l : Loc) (f : Fields) (s : State) : Result :=
  .next (s.issue l 0xE7 f { stages := St.all } (fun x =>
    if x.handler then
      let e := x.ecode.toNat
      (((s.setStage l.ix { x with pc := x.epc, handler := false }).faultHalt l
        ⟨BitVec.ofNat 8 e, e / 2 ^ 8 % 8, e / 2 ^ 11, s.reg64 (Reg.frBase l.d l.s l.g + 0x10), false⟩)).done Code.ok
    else
      let s1 := s.setStage l.ix { x with run := .halted }
      (if s1.allHalted l.d l.s then (s1.setSst l.d l.s SS.halted).endDrain l.d l.s
       else s1).done Code.ok))

/-- NOP. -/
def execNop (l : Loc) (f : Fields) (s : State) : Result :=
  .next (s.issue l 0xE8 f { stages := St.all } (fun x => s.retire l x))

end Sys2Proof.Machine
end

