-- ==== Sys2Proof/Machine/Estuary.lean ====
section
/-! DEFINITION. Client ingress (R277–R302): meanings of FRAME_RECEIVE, the session, gate and key port commands, and the
transmit queue. -/

namespace Sys2Proof.Machine

/-! ### Lanes and addresses -/

/-- LANE_STAT.STATE of a module lane (R306). -/
def State.laneState (s : State) (k : Nat) : Nat := s.fld (Reg.laneStat (k / 16) (k % 16)) 31 29
def State.setLaneState (s : State) (k v : Nat) : State := s.setFld (Reg.laneStat (k / 16) (k % 16)) 31 29 v
/-- An Ethernet lane that is up. -/
def State.ethUp (s : State) (k : Nat) : Bool :=
  decide (k / 16 < s.part.ldCount) && decide (s.laneMode k = 1) && decide (s.laneState k = 2)

/-- The profile's entry of an Ethernet lane: its offset in the body (R529). -/
def State.ethEntry (s : State) (k : Nat) : Option Nat :=
  let b := s.profileBody
  ((List.range (pfEthN b)).map (fun i => 0x100 + 32 * i)).find? (fun o => decide (field b o 1 = k))

/-- An entry's addresses: FLAGS, VLAN identifier, MAC, IPv4 and IPv6 address (R277, R529). -/
def laneV4 (b : Bytes) (o : Nat) : Bool := (field b (o + 1) 1).testBit 0
def laneV6 (b : Bytes) (o : Nat) : Bool := (field b (o + 1) 1).testBit 1
def laneVid (b : Bytes) (o : Nat) : Nat := field b (o + 2) 2
def laneMac (b : Bytes) (o : Nat) : Bytes := sub b (o + 4) 6
def laneIp4 (b : Bytes) (o : Nat) : Bytes := sub b (o + 12) 4
def laneIp6 (b : Bytes) (o : Nat) : Bytes := sub b (o + 16) 16

/-- The frame carries IPv6. -/
def isV6 (f : EthFrame) : Bool := decide (f.etherType = 0x86DD)

/-- The solicited-node multicast address of an IPv6 address, and the MAC address that carries it; the MAC address of broadcast
(R279; PRESUMED, notes/assumptions/96.md). -/
def solicitedIp (ip : Nat) : Nat := 0xFF02 * 2 ^ 112 + 2 ^ 32 + 0xFF * 2 ^ 24 + ip % 2 ^ 24
def solicitedMac (ip : Nat) : Nat := 0x3333FF * 2 ^ 24 + ip % 2 ^ 24
def broadcastMac : Nat := 2 ^ 48 - 1

/-- The frame is an ARP request for the lane's IPv4 address, to the lane or broadcast, or a Neighbor Solicitation for its IPv6
address, to the lane or to its solicited-node address (R279). -/
def State.answersAsk (s : State) (f : EthFrame) : Bool :=
  let b := s.profileBody
  match s.ethEntry f.lane.val, f.asks with
  | some o, some a =>
    let mac := fromBE (laneMac b o)
    let ip := fromBE (laneIp6 b o)
    if f.etherType = 0x0806 then
      laneV4 b o && decide (a.toNat = fromBE (laneIp4 b o)) && decide (f.dstMac.toNat = mac ∨ f.dstMac.toNat = broadcastMac)
    else
      isV6 f && decide (f.proto = 58) && laneV6 b o && decide (a.toNat = ip) &&
      decide (f.dstMac.toNat = mac ∨ f.dstMac.toNat = solicitedMac ip) &&
      decide (f.dstIp.toNat = ip ∨ f.dstIp.toNat = solicitedIp ip)
  | _, _ => false

/-- The frame is addressed to its lane: MAC, or broadcast or multicast for R279; VLAN; EtherType (R278). -/
def State.l2Ok (s : State) (f : EthFrame) : Bool :=
  let b := s.profileBody
  match s.ethEntry f.lane.val with
  | none => false
  | some o =>
    (decide (f.dstMac.toNat = fromBE (laneMac b o)) || s.answersAsk f) &&
    (match f.vids with
     | [] => true
     | [v] => decide (v.toNat = laneVid b o)
     | _ => false) &&
    decide (f.etherType = 0x0800 ∨ f.etherType = 0x86DD ∨ f.etherType = 0x0806)

/-- The IP destination is an address that the lane has (R277, R278). -/
def State.ipDstOk (s : State) (f : EthFrame) : Bool :=
  let b := s.profileBody
  match s.ethEntry f.lane.val with
  | none => false
  | some o =>
    if isV6 f then laneV6 b o && decide (f.dstIp.toNat = fromBE (laneIp6 b o))
    else laneV4 b o && decide (f.dstIp.toNat = fromBE (laneIp4 b o))

/-- A frame of ARP, ICMP, ICMPv6 or Neighbor Discovery (R279). -/
def askProto (f : EthFrame) : Bool :=
  decide (f.etherType = 0x0806) || decide (f.etherType = 0x0800 ∧ f.proto = 1) || (isV6 f && decide (f.proto = 58))

/-- Estuary counters (R302), by offset. -/
def State.estCount (s : State) (l o : Nat) : State := s.count (Reg.estCnt l o)
def State.estCount64 (s : State) (l o : Nat) : State := s.count64 (Reg.estCnt l o) 1

/-- The counter of the first check of R278 that the frame fails, with the frame check sequence and the UDP checksum set
aside; none for a frame that is answered under R279 or goes on. Other frames of R279's protocols count in L2_OTHER; under
IPv6 a fragment header is the fragment row's, every other next header the row before it (R278). -/
def State.frameRefused (s : State) (f : EthFrame) : Option Nat :=
  if ¬ f.fecOk then some 0x20
  else if f.size < 64 ∨ 9216 < f.size then some 0x24
  else if f.etherType = 0x8808 then some 0x28
  else if ¬ s.l2Ok f then some 0x2C
  else if s.answersAsk f then (if f.etherType = 0x0806 ∨ f.ipOk then none else some 0x34)
  else if askProto f then some 0x2C
  else if ¬ f.ipOk ∨ ¬ s.ipDstOk f ∨ (f.proto ≠ 17 ∧ ¬ (isV6 f ∧ f.proto = 44)) then some 0x34
  else if f.ipFrag ∨ f.proto ≠ 17 then some 0x38
  else if f.udpPort.toNat ≠ s.fld (Reg.estCtl (f.lane.val / 16)) 15 0 ∨ ¬ f.udpLenOk ∨ (isV6 f ∧ f.udpSum = .zero) then some 0x3C
  else none

/-! ### Frames that the module sends (R279, R281) -/

/-- Sum of 16-bit words in ones' complement arithmetic, and the Internet checksum of bytes (of an even number). -/
def onesSum : Bytes → Nat
  | [] => 0
  | [x] => x.toNat * 256
  | x :: y :: bs => x.toNat * 256 + y.toNat + onesSum bs
def ipCheck (bs : Bytes) : Nat :=
  let t := onesSum bs
  65535 - (if t = 0 then 0 else (t - 1) % 65535 + 1)

/-- Ethernet header from the lane with entry o: addresses, the lane's VLAN tag, EtherType (R281). -/
def ethHdr (b : Bytes) (o : Nat) (dst : BitVec 48) (typ : Nat) : Bytes :=
  be 6 dst.toNat ++ laneMac b o ++ (if laneVid b o = 0 then [] else be 2 0x8100 ++ be 2 (laneVid b o)) ++ be 2 typ

/-- IPv4 header: DF, TTL 64, protocol 17; type of service and identification, of which the spec says nothing, are `v`'s
bits (R281). -/
def ip4Hdr (v : Nat) (src dst : Bytes) (len : Nat) : Bytes :=
  let h (ck : Nat) : Bytes :=
    be 1 0x45 ++ be 1 (v / 65536) ++ be 2 (20 + len) ++ be 2 v ++ be 2 0x4000 ++ be 1 64 ++ be 1 17 ++ be 2 ck ++ src ++ dst
  h (ipCheck (h 0))

/-- IPv6 header with a next header and a hop limit; traffic class and flow label are `v`'s bits (R281). -/
def ip6Hdr (v next hops : Nat) (src dst : Bytes) (len : Nat) : Bytes :=
  be 4 (0x60000000 + v % 2 ^ 28) ++ be 2 len ++ be 1 next ++ be 1 hops ++ src ++ dst

/-- UDP datagram with its checksum over the pseudo-header (R281). -/
def udpBytes (src dst : Bytes) (sport dport : Nat) (p : Bytes) : Bytes :=
  let n := 8 + p.length
  let ck := ipCheck (src ++ dst ++ be 4 n ++ be 4 17 ++ (be 2 sport ++ be 2 dport ++ be 2 n ++ be 2 0 ++ p))
  be 2 sport ++ be 2 dport ++ be 2 n ++ be 2 (if ck = 0 then 65535 else ck) ++ p

/-- The frame of a datagram on lane k along a return path (R281). -/
def State.aipEth (s : State) (k : Nat) (ret : RetPath) (m : Aip) (v : Nat) : Bytes :=
  let b := s.profileBody
  let o := (s.ethEntry k).getD 0
  let port := s.fld (Reg.estCtl (k / 16)) 15 0
  if ret.ipv6 then
    let u := udpBytes (laneIp6 b o) (be 16 ret.ip.toNat) port ret.port.toNat m.bytes
    ethHdr b o ret.mac 0x86DD ++ ip6Hdr v 17 64 (laneIp6 b o) (be 16 ret.ip.toNat) u.length ++ u
  else
    let u := udpBytes (laneIp4 b o) (be 4 ret.ip.toNat) port ret.port.toNat m.bytes
    ethHdr b o ret.mac 0x0800 ++ ip4Hdr v (laneIp4 b o) (be 4 ret.ip.toNat) u.length ++ u

/-- The lane a datagram of a light die leaves on: the return lane, else the lowest Ethernet lane that is up (R281). -/
def State.txLane (s : State) (l : Nat) (ret : RetPath) : Option Nat :=
  if s.ethUp ret.lane.toNat ∧ ret.lane.toNat / 16 = l then some ret.lane.toNat
  else ((List.range 16).map (fun n => 16 * l + n)).find? (fun k => s.ethUp k)

/-- A datagram leaves light die l, and TX counts it (R281, R302). -/
def State.sendAip (s : State) (l : Nat) (ret : RetPath) (m : Aip) : State :=
  match s.txLane l ret with
  | some k => ((s.took 1).emit (.eth k (s.aipEth k ret m s.free.toNat))).count64 (Reg.estCnt l 0x18) 1
  | none => s

/-- The answer to an ARP request or a Neighbor Solicitation: the layouts of those protocols (R279; PRESUMED,
notes/assumptions/96.md). -/
def State.askReply (s : State) (f : EthFrame) : Bytes :=
  let b := s.profileBody
  let o := (s.ethEntry f.lane.val).getD 0
  if f.etherType = 0x0806 then
    padTo 60 (ethHdr b o f.ret.mac 0x0806 ++ be 8 0x0001080006040002 ++ laneMac b o ++ laneIp4 b o ++ be 6 f.ret.mac.toNat ++
      be 4 f.ret.ip.toNat)
  else
    let dst := be 16 f.ret.ip.toNat
    let na (ck : Nat) : Bytes := be 2 0x8800 ++ be 2 ck ++ be 4 0x60000000 ++ laneIp6 b o ++ be 2 0x0201 ++ laneMac b o
    ethHdr b o f.ret.mac 0x86DD ++ ip6Hdr 0 58 255 (laneIp6 b o) dst 32 ++
      na (ipCheck (laneIp6 b o ++ dst ++ be 4 32 ++ be 4 58 ++ na 0))

/-! ### Classification (R295, R296) -/

/-- The steering entry of a context and shard: the I-strand (R297). -/
def State.steer (s : State) (l c shard : Nat) : Option Nat :=
  ((List.range 64).find? (fun n => decide (s.fld (Reg.estSteerSh l n) 31 31 = 1 ∧ s.fld (Reg.estSteerSh l n) 27 24 = c ∧
    s.fld (Reg.estSteerSh l n) 23 0 = shard))).map (fun n => s.fld (Reg.estSteerTg l n) 3 0)

/-- The gate of R296: the counter of a datagram that it shuts out. -/
def State.gateShut (s : State) (l c : Nat) (r : SessRec) (m : Aip) : Option Nat :=
  let ph := s.fld (Reg.estGate l c) 3 0
  let t := m.typ.toNat
  if t = 4 then (if ph = 4 then none else some 0x54)
  else if t = 5 then
    (if (ph = 5 ∨ ph = 6) ∧
        (s.fld (Reg.estGate l c) 8 8 = 0 ∨ (r.admitted ∧ r.admitRound = s.reg (Reg.estRound l c))) then none else some 0x50)
  else if t = 3 then (if 1 ≤ ph ∧ ph ≤ 6 then none else some 0x50)
  else none

/-- The setup queue of a light die is full (R299). -/
def State.setupFull (s : State) (l len : Nat) : Bool :=
  let q := (s.estLd l).setup
  decide (1024 ≤ q.length) || decide (2 ^ 22 < (q.map (fun x => x.msg.length.toNat)).sum + len)

/-- Steps 2 to 5 of R295 for a datagram whose session record is r: the counter of the first that fails. -/
def State.sessionRefused (s : State) (l : Nat) (r : SessRec) (m : Aip) : Option Nat :=
  let c := r.ctx.val
  if ¬ (r.st = 2 ∨ (r.st = 1 ∧ m.is 1 2)) ∨ ¬ s.epochNow l r then some 0x44
  else if s.fld (Reg.estGate l c) 31 31 = 0 then some 0x48
  else if (m.typ.toNat = 3 ∨ m.toStrand) ∧ m.round ≠ s.reg (Reg.estRound l c) then some 0x4C
  else s.gateShut l c r m

/-- Steps 6 and 7 for a CHUNK or SKETCH of context c: the queue, or the counter of the step that fails. -/
def State.strandQueue (s : State) (l c : Nat) (m : Aip) : Nat ⊕ Nat :=
  match s.steer l c m.shard.toNat with
  | none => .inr 0x58
  | some q => if m.readWords ≤ s.queueFree q then .inl q else .inr 0x5C

/-- The packet of an ingress queue (R80, R82). -/
def ingressPkt (s : State) (l i lane : Nat) (m : Aip) (status : Byte) : Pkt :=
  { h0 := BitVec.ofNat 64 (2 ^ 31 + (if m.typ.toNat = 5 then 1 else 2) * 2 ^ 24 + status.toNat * 2 ^ 16 + m.length.toNat + i * 2 ^ 32)
    h1 := BitVec.ofNat 64 (s.stamp (0x20 + l))
    h2 := BitVec.ofNat 64 lane
    h3 := 0
    body := m.hdr ++ m.payload ++ le 16 m.tag.toNat
    words := m.readWords
    bad := false }

/-- The packet that n read words hold of a packet whose writing met FULL: STATUS FORMAT_ERROR, LENGTH the bytes stored after
the head slot (R83). -/
def Pkt.cut (p : Pkt) (n : Nat) : Pkt :=
  let b := p.body.take (256 * n - 64)
  { p with
    h0 := (p.h0 &&& 0xFFFFFFFFFF000000) ||| BitVec.ofNat 64 (Code.formatError.toNat * 2 ^ 16 + b.length)
    body := b, words := n }

/-- A write met FULL: OVERRUN is set and a record goes to queue 0 (R83, R84, R544). -/
def State.iqOverrun (s : State) (q : Nat) : State :=
  (s.setFld (Reg.iqStat (q / 4) (q % 4)) 31 31 1).post 0
    { Ev.of 0 2 Code.internalError 0 (q / 4) (q % 4) 0 with ctx := some (s.sctx (q / 4) (q % 4)) }

/-- A packet is written to an ingress queue by light die l; the one written before it has been published; a word poisoned
on the way stands in the packet as uncorrectable (R16, R80, R81). Of a packet that meets FULL the read words that found
room are published (R83); one written to a queue that empties is discarded (R85). -/
def State.writePkt (s : State) (l q : Nat) (p : Pkt) : State :=
  let y := s.crossPorts (route (4 + l) (q / 4))
  let x := s.queue q
  let n := s.queueFree q
  let u := { p with bad := p.bad || y.2 }
  if p.words ≤ n then y.1.setQueue q { x with pkts := x.pkts ++ x.wr.toList, wr := some u }
  else if x.zeroing then y.1
  else if n = 0 then y.1.iqOverrun q
  else (y.1.setQueue q { x with pkts := x.pkts ++ x.wr.toList ++ [u.cut n], wr := none }).iqOverrun q

/-- A sketch shut out by its gate: LATE_SKETCH counts, and its client is treated as refused, which it is told with CLOSE
ROUND; a client whose screening has ended in a refused outcome keeps that one (R190, R257, R258, R296). -/
def State.refuseSketch (s : State) (i : Nat) (m : Aip) : State :=
  let c := (s.session i).ctx.val
  match s.round c with
  | none => s
  | some r =>
    match s.shardIx r.desc m.shard.toNat with
    | none => s
    | some j =>
      match r.slotOf j (s.session i).client with
      | none => s
      | some u =>
        let x := r.client j u
        let s1 := s.setRound c { r with lateSketch := r.lateSketch + 1 }
        if x.screened = .undecided ∨ x.screened = .admitted then
          (s1.setRound c ({ r with lateSketch := r.lateSketch + 1 }.setClient j u { x with screened := .refused })).postTx i 0
            (mkAip 8 3 Code.ok 0 m.round m.shard.toNat 0 (le 8 0))
        else s1

/-- RETRY_AFTER in hardware for a HELLO INIT (R299). -/
def State.retryAfter (s : State) (l : Nat) (f : EthFrame) : State :=
  let x := sub f.aip.payload 0x5F 2
  let base := max 1 (s.fld (Reg.estBackoff l) 15 0)
  let us := (base + fromBE x % (s.fld (Reg.estBackoff l) 31 16 + 1)) * 1000
  (s.estCount l 0x60).sendAip l f.ret (mkAip 7 0 Code.retryAfter 0 0 0 0 (be 4 us ++ le 4 0))

/-- A datagram for the hub is queued in hub SRAM and counted (R295 step 7, R299, R302); one poisoned on its way to the hub
die is not used there (R16). -/
def State.toSetup (s : State) (l : Nat) (i : Option Nat) (ret : RetPath) (m : Aip) : State :=
  let y := s.crossPorts (route (4 + l) 8)
  let x := y.1.estLd l
  (if y.2 then y.1 else y.1.setEstLd l { x with setup := x.setup ++ [⟨i, ret, m⟩] }).estCount64 l 0x10

/-- A datagram for the hub of the session with entry e and record r: room, then its tag (R295 steps 7 and 8); the return
path is rewritten (R291). -/
def State.hubDeliver (s : State) (l e : Nat) (r : SessRec) (f : EthFrame) : State :=
  let m := f.aip
  if s.setupFull l m.length.toNat then s.estCount l 0x64
  else match r.keys.bind (fun ks => Config.gcmOpen ks.1 ([0, 0, 0, 0, 0, 0] ++ be 6 m.seq.toNat) m.hdr m.payload m.tag) with
  | none => s.estCount l 0x68
  | some p => (s.putRec l e { r with ret := f.ret }).toSetup l (some (l * 2 ^ 20 + e)) f.ret { m with payload := p }

/-- Steps 2 to 8 for a datagram with its session's entry and record, if the lookup found one; `late`: its FCS or UDP
checksum fails, `cnt` being the counter of that check (R278, R280, R295). -/
def State.classify (s : State) (f : EthFrame) (late : Option Nat) (found : Option (Nat × SessRec)) : State :=
  let l := f.lane.val / 16
  let m := f.aip
  match found with
  | none => s.estCount l (late.getD 0x44)
  | some (e, r) =>
    let i := l * 2 ^ 20 + e
    match s.sessionRefused l r m with
    | some o =>
      match late with
      | some k => s.estCount l k
      | none => if o = 0x54 then (s.refuseSketch i m).estCount l o else s.estCount l o
    | none =>
      if m.toStrand then
        match s.strandQueue l r.ctx.val m with
        | .inr o => s.estCount l (late.getD o)
        | .inl q =>
          if late.isSome then ((s.writePkt l q (ingressPkt s l i f.lane.val m Code.formatError)).touchRec l e).estCount l 0x70
          else ((s.writePkt l q (ingressPkt s l i f.lane.val m Code.ok)).touchRec l e).estCount64 l 0x08
      else match late with
      | some k => s.estCount l k
      | none => s.hubDeliver l e r f

/-- A frame whose record is not in the cache waits in the miss buffer, 256 frames within 1 MiB, or is dropped (R295,
R298). -/
def State.missFrame (s : State) (f : EthFrame) : State :=
  let l := f.lane.val / 16
  let x := s.estLd l
  if 256 ≤ x.miss.length ∨ 2 ^ 20 < (x.miss.map (fun g => g.size)).sum + f.size then s.estCount l 0x6C
  else s.setEstLd l { x with miss := x.miss ++ [f] }

/-- A frame of the session waits in the miss buffer. -/
def State.missWaits (s : State) (l : Nat) (sid : DWord) : Bool := (s.estLd l).miss.any (fun g => decide (g.aip.sid = sid))

/-- HELLO INIT has no session: it goes to the hub, or is answered in hardware (R299). -/
def State.helloFrame (s : State) (f : EthFrame) : State :=
  let l := f.lane.val / 16
  if s.setupFull l f.aip.length.toNat then s.retryAfter l f else s.toSetup l none f.ret f.aip

/-- The counter of a failed FCS or UDP checksum. -/
def lateCounter (f : EthFrame) : Option Nat :=
  if ¬ f.fcsOk then some 0x20 else if f.udpSum = .wrong then some 0x3C else none

/-- A frame that passed the checks of R278 but the two of `late`; behind a frame of its session that waits in the miss
buffer it waits too (R298). -/
def State.aipFrame (s : State) (f : EthFrame) : State :=
  let l := f.lane.val / 16
  let late := lateCounter f
  if s.fld (Reg.estCtl l) 31 31 = 0 ∨ ¬ f.aip.ok then s.estCount l (late.getD 0x40)
  else if late.isSome ∧ ¬ f.aip.toStrand then s.estCount l (late.getD 0)
  else if f.aip.is 1 1 then s.helloFrame f
  else match s.cacheHit l f.aip.sid with
  | some x => if s.missWaits l f.aip.sid then s.missFrame f else s.classify f late (some x)
  | none => s.missFrame f

/-- Codewords of a received frame: corrected ones in FEC_CORR, a frame lost to one in ERR_CNT of its lane (R306). -/
def State.fecCount (s : State) (f : EthFrame) : State :=
  let a := Reg.laneStat (f.lane.val / 16) (f.lane.val % 16)
  (s.addFld a 15 0 f.fec).addFld a 23 16 (b2n (!f.fecOk))

/-- FRAME_RECEIVE (R278–R280, R295–R299). -/
def execFrameReceive (f : EthFrame) (s : State) : Result :=
  let l := f.lane.val / 16
  if ¬ s.ethUp f.lane.val then .next s.idle
  else
    let s1 := (s.fecCount f).estCount64 l 0x00
    .next ((match s1.frameRefused f with
      | some o => s1.estCount l (if f.fcsOk then o else 0x20)
      | none =>
        if s1.answersAsk f then
          (if f.fcsOk then (s1.estCount l 0x30).emit (.eth f.lane.val (s1.askReply f)) else s1.estCount l 0x20)
        else s1.aipFrame f).done Code.ok)

/-- SESSION_LOOKUP_DONE: the lookup of a frame of the miss buffer is done; a frame of the same session before it keeps it
waiting, frames of other sessions it overtakes (R298). The lookup reads both buckets and the record, which is cached. -/
def execSessionLookupDone (a : MissSlot) (s : State) : Result :=
  let l := a.ld.val
  let x := s.estLd l
  match x.miss[a.n.val]? with
  | none => .next s.idle
  | some f =>
    if (x.miss.take a.n.val).any (fun g => decide (g.aip.sid = f.aip.sid)) ∨ s.estStall l then .next s.waits
    else
      let s1 := s.setEstLd l { x with miss := x.miss.eraseIdx a.n.val }
      let y := s1.lookup l f.aip.sid
      match y.2 with
      | none => .next ((y.1.classify f (lateCounter f) none).done Code.ok)
      | some (_, _, e) =>
        let z := y.1.fetchRec l e
        .next ((z.st.classify f (lateCounter f) (if z.code = Code.ok ∧ z.record.sid = f.aip.sid then some (e, z.record)
          else none)).done Code.ok)

/-- KEY_PORT_REQUEST (R292). -/
def execKeyPortRequest (session : BitVec 22) (s : State) : Result :=
  let y := s.keyPort session.toNat
  .next (match y.2 with
    | .key _ => (y.1.emit (.key 0)).done Code.ok
    | .noKey => (y.1.emit (.key 1)).done Code.ok
    | .revoked => (y.1.emit (.key 2)).done Code.keyRevoked
    | .wait => s.waits
    | .failed c => y.1.done c)

/-! ### The setup queue -/

/-- Daxna takes the datagram at the front of a setup queue if it satisfies p; a hub under reset takes none (R485). -/
def State.takeSetup (s : State) (l : Nat) (p : SetupMsg → Bool) (k : SetupMsg → State → State) : State :=
  match (s.estLd l).setup with
  | [] => s.idle
  | m :: ms =>
    if ¬ p m then s.idle
    else if s.hub.reset.isSome then s.waits
    else (k m (s.setEstLd l { s.estLd l with setup := ms })).done Code.ok

/-- Daxna acts on a datagram once, by its session and SEQ (R286). -/
def State.once (s : State) (i : Nat) (m : Aip) (k : State → State) : State :=
  let r := s.session i
  if m.seq ∈ r.seen then s else k (s.setSession i { r with seen := m.seq :: r.seen })

/-- ACK RECEIVED (R285, R286). -/
def State.ackReceived (s : State) (i : Nat) (m : Aip) : State :=
  s.postTx i 0 (mkAip 6 1 Code.ok 0 m.round m.shard.toNat 0 (be 6 m.seq.toNat ++ [0, 0]))

/-- Fields of HELLO INIT (R287). -/
def helloX (m : Aip) : Bytes := sub m.payload 0 97
def helloCt (m : Aip) : Bytes := sub m.payload 0x64 1088
def helloClient (m : Aip) : QWord := BitVec.ofNat 128 (fromBE (sub m.payload 0x4A4 16))
def helloToken (m : Aip) : Bytes := sub m.payload 0x4B4 32

/-- The active context a client is enrolled in, with its key: EST_GATE.ACTIVE is set; of several, `pick` if it is one of them,
else the lowest (R288 does not say which). -/
def State.enrolled (s : State) (l pick : Nat) (client : QWord) : Option (Nat × Bytes) :=
  ((pick :: List.range 16).filter (fun c => decide (s.fld (Reg.estGate l c) 31 31 = 1))).findSome? (fun c =>
    ((s.ctx c).enrol.find? (fun e => decide (e.1 = client))).map (fun e => (c, e.2)))

/-- The ingress keys may be used to derive; with a use refused the tag cannot be computed, and the HELLO INIT is dropped (R288, R407;
DEDUCED, notes/assumptions/37.md). -/
def State.ingressOk (s : State) : Bool :=
  decide (s.keyUse 5 4 .hubSecure none = Code.ok ∧ s.keyUse 6 4 .hubSecure none = Code.ok)

/-- The session keys: k_c2m and k_m2c (R288). -/
def State.helloKeys (s : State) (m : Aip) (psk : Bytes) : BitVec 256 × BitVec 256 :=
  let ikm := Config.ecdh (be 48 (s.active 5).mat.toNat) (helloX m) ++ Config.kemDecap (s.active 6).mat (helloCt m) ++ psk
  let th := shaBytes (m.hdr ++ m.payload)
  ((Config.hkdf ikm (ascii "A9 aip v1") (ascii "c2m" ++ th)).setWidth 256,
   (Config.hkdf ikm (ascii "A9 aip v1") (ascii "m2c" ++ th)).setWidth 256)

/-- First 16 bytes of the admission MAC (R257). -/
def State.admMac (s : State) (c : Nat) (b : Bytes) : Bytes :=
  (be 48 (Config.hmac (be 64 (s.active (slotAdm c)).mat.toNat) b).toNat).take 16
/-- A token passes for the current round of context c (R257). -/
def State.tokenOk (s : State) (c : Nat) (t : Bytes) : Bool :=
  s.roundOpen c && (s.active (slotAdm c)).valid && decide (fromBE (sub t 0 4) = (s.curRound c).toNat) &&
  decide (field t 7 1 = 1) && decide (fromBE (sub t 12 4) = 0) && decide (sub t 16 16 = s.admMac c (sub t 0 16))

/-- A free session index of a light die: no record, no wait, no INSERT under way (R290, R293). -/
def State.freeIndex (s : State) (l : Nat) : Option Nat :=
  ((List.range (2 ^ 20)).map (fun e => l * 2 ^ 20 + e)).find? (fun i =>
    decide ((s.session i).st = 0) && !(s.session i).hold &&
    !((s.estLd l).tx.any (fun d => decide (d.op = 1 ∧ d.index.toNat = i))) &&
    !((s.estLd l).backlog.any (fun d => decide (d.op = 1 ∧ d.index.toNat = i))))

/-- CLOSE END under k_m2c for a HELLO INIT that gets no session (R288). -/
def State.refuseHello (s : State) (l : Nat) (ret : RetPath) (k : BitVec 256) (status : Byte) : State :=
  let m := { mkAip 8 1 status 0 0 0 0 (le 8 0) with seq := 1 }
  let e := Config.gcmSeal k ([1, 0, 0, 0, 0, 0] ++ be 6 1) m.hdr m.payload
  s.sendAip l ret { m with payload := e.1, tag := e.2 }

/-- Daxna drops a HELLO INIT without an answer, and counts it (R288). -/
def State.helloDropped (s : State) (l : Nat) : State :=
  s.setEstLd l { s.estLd l with helloDrops := (s.estLd l).helloDrops + 1 }

/-- SESSION_ID from the DRBG: nonzero, its two buckets different (R290). -/
def sidOf (v : DWord) : DWord :=
  let w := if v.toNat % 2 ^ 19 = v.toNat / 2 ^ 19 % 2 ^ 19 then v ^^^ 1 else v
  if w = 0 then 1 else w

/-- Daxna draws a SESSION_ID and posts the INSERT of a session with its KEYX SESSION (R285, R289–R291). -/
def State.postInsert (s : State) (l i : Nat) (r : SessRec) (client : QWord) (tries : Nat) : State :=
  let r1 := { r with sid := sidOf (s.drawn Port.daxna 0) }
  (s.draw Port.daxna 1).postDesc l
    { op := 1, ctx := r.ctx, index := BitVec.ofNat 22 i
      msg := mkAip 2 1 Code.ok r1.sid 0 0 0 (be 2 s.ownId ++ le 1 l ++ le 1 (b2n r.admitted) ++ le 4 0)
      record := r1, client := client, tries := tries, admitRound := 0 }

/-- A session is made: PENDING, ADMITTED by a TOKEN that passes (R289, R291). -/
def State.newSession (s : State) (l i c : Nat) (x : SetupMsg) (k : BitVec 256 × BitVec 256) : State :=
  let adm := s.tokenOk c (helloToken x.msg)
  s.postInsert l i
    { sid := 0, st := 1, ctx := Fin.ofNat 16 c, epoch := BitVec.ofNat 8 (s.fld (Reg.estGate l c) 23 16)
      admitted := adm, admitRound := if adm then s.curRound c else 0, keys := some k, txSeq := 0, ret := x.ret }
    (helloClient x.msg) 0

/-- HELLO INIT that proved its enrolment key (R288, R290). -/
def State.helloAccept (s : State) (l c : Nat) (x : SetupMsg) (k : BitVec 256 × BitVec 256) : State :=
  match s.entPort with
  | .served =>
    (match s.freeIndex l with
     | none => s.refuseHello l x.ret k.2 Code.busy
     | some i => s.newSession l i c x k)
  | _ => s.refuseHello l x.ret k.2 Code.entropyUnavailable

/-- Daxna takes a HELLO INIT; `t` is the state with it taken. A setup that needs a SESSION_ID waits while the entropy
source starts (R287–R290, R431). -/
def State.helloTaken (s : State) (l pick : Nat) (x : SetupMsg) (t : State) : State :=
  let m := x.msg
  if m.payload.length ≠ 1236 then (t.helloDropped l).done Code.ok
  else match t.enrolled l pick (helloClient m) with
  | none => (t.helloDropped l).done Code.ok
  | some (c, psk) =>
    let k := t.helloKeys m psk
    if ¬ t.ingressOk then (t.helloDropped l).done Code.ok else
    if (Config.gcmOpen k.1 ([0, 0, 0, 0, 0, 0] ++ be 6 m.seq.toNat) (m.hdr ++ m.payload) [] m.tag).isNone then
      (t.helloDropped l).done Code.ok
    else if t.entPort = .stall then s.waits
    else (t.helloAccept l c x k).done Code.ok

/-- HELLO_INIT (R287–R290); `ctx`: the context Daxna takes of several in which the client is enrolled. -/
def execHelloInit (ld : Fin 4) (ctx : Fin 16) (s : State) : Result :=
  let l := ld.val
  .next (match (s.estLd l).setup with
    | [] => s.idle
    | x :: xs =>
      if ¬ x.msg.is 1 1 then s.idle
      else if s.hub.reset.isSome then s.waits
      else s.helloTaken l ctx.val x (s.setEstLd l { s.estLd l with setup := xs }))

/-- A PENDING session becomes LIVE; the client's former one in the context ends (R289). -/
def State.goLive (s : State) (i : Nat) : State :=
  let r := s.session i
  if r.st ≠ 1 then s
  else
    let old := (s.sess.filter (fun e => decide (e.1 ≠ i ∧ e.2.st = 2 ∧ e.2.client = r.client ∧ e.2.ctx = r.ctx))).map (fun e => e.1)
    let s1 := old.foldl (fun t k => t.freeSession k) s
    let x := s1.fetchRec (i / 2 ^ 20) (i % 2 ^ 20)
    (x.st.putRec (i / 2 ^ 20) (i % 2 ^ 20) { x.record with st := 2 }).setSession i { r with st := 2 }

/-- HELLO_CONFIRM (R289). -/
def execHelloConfirm (ld : Fin 4) (s : State) : Result :=
  if s.estStall ld.val then .next s.waits
  else .next (s.takeSetup ld.val (fun x => x.msg.is 1 2) (fun x t =>
    match x.session with
    | none => t
    | some i => ((t.once i x.msg (fun u => u.goLive i))).ackReceived i x.msg))

/-- SESSION_PENDING_EXPIRE: 10 s without a confirmation (R289). -/
def execSessionPendingExpire (ld : Fin 4) (index : Fin 1048576) (s : State) : Result :=
  let i := ld.val * 2 ^ 20 + index.val
  if (s.session i).st ≠ 1 then .next s.idle
  else if s.estStall ld.val then .next s.waits
  else .next ((s.freeSession i).done Code.ok)

/-- CLOSE_END from a client: CLOSE END answers, and the record is freed, once; a resend is answered again (R285, R286,
R293). -/
def execCloseEnd (ld : Fin 4) (s : State) : Result :=
  .next (s.takeSetup ld.val (fun x => x.msg.is 8 1) (fun x t =>
    match x.session with
    | none => t
    | some i =>
      let op := if x.msg.seq ∈ (t.session i).seen then 0 else 3
      (t.once i x.msg (fun u => u)).postTx i op (mkAip 8 1 Code.ok 0 0 0 0 (le 8 0))))

/-- One ACK CHUNKS datagram: chunks per client, and runs from number `off` of the list on (R285). -/
def ackDatagram (m : Aip) (n : Nat) (runs : List (Nat × Nat)) (off : Nat) : Aip :=
  mkAip 6 2 Code.ok 0 m.round m.shard.toNat off
    (be 4 n ++ be 4 runs.length ++ (runs.map (fun e => be 4 e.1 ++ be 4 e.2)).flatten)

/-- The list of runs goes out in datagrams of at most 1,022; one goes out for an empty list (R285). -/
def State.sendRuns (s : State) (i : Nat) (m : Aip) (n : Nat) (runs : List (Nat × Nat)) : State :=
  (List.range (max 1 ((runs.length + 1021) / 1022))).foldl (fun t k =>
    t.postTx i 0 (ackDatagram m n ((runs.drop (1022 * k)).take 1022) (1022 * k))) s

/-- ACK CHUNKS on a shard: the client's missing chunks (R285, R286). On a shard that the round does not have on this module,
or with no round, the client has no chunks: the list is empty (DEDUCED, notes/assumptions/119.md). -/
def State.ackChunks (s : State) (i : Nat) (m : Aip) : State :=
  let c := (s.session i).ctx.val
  match s.round c with
  | none => s.sendRuns i m 0 []
  | some r =>
    match s.shardIx r.desc m.shard.toNat with
    | none => s.sendRuns i m 0 []
    | some j =>
      match r.slotOf j (s.session i).client with
      | none => s.sendRuns i m 0 []
      | some u =>
        let n := rdChunks r.desc j
        s.sendRuns i m n (missingRuns n (s.chunkBit r j u))

/-- CLOSE_DONE: the client asks for ACK CHUNKS; a CLOSE ROUND, which a client has no cause to send, is acknowledged
(R285, R286). -/
def execCloseDone (ld : Fin 4) (s : State) : Result :=
  .next (s.takeSetup ld.val (fun x => x.msg.is 8 2 || x.msg.is 8 3) (fun x t =>
    match x.session with
    | none => t
    | some i => if x.msg.is 8 2 then t.ackChunks i x.msg else t.ackReceived i x.msg))

/-- SESSION_INDEX_RELEASE: 1 ms has passed (R293). -/
def execSessionIndexRelease (ld : Fin 4) (index : Fin 1048576) (s : State) : Result :=
  let i := ld.val * 2 ^ 20 + index.val
  if (s.session i).hold then .next ((s.setSession i { s.session i with hold := false }).done Code.ok) else .next s.idle

/-! ### Gates -/

/-- Light die and context of an EST_GATE address. -/
def gateOfAddr (a : Nat) : Option (Nat × Nat) :=
  let p := a / 0x10000
  let o := a % 0x10000
  if 0x200 ≤ p ∧ p < 0x280 ∧ (p - 0x200) % 0x20 = 1 ∧ 0x140 ≤ o ∧ o < 0x180 ∧ o % 4 = 0 then
    some ((p - 0x200) / 0x20, (o - 0x140) / 4)
  else none

/-- A write of EST_GATE: EPOCH rises when ACTIVE goes from 0 to 1 (R294, R301). -/
def State.gateWrite (s : State) (l c : Nat) (v : Word) : State :=
  let s1 := if bit v 31 then s.gateOnLd l c else s.setFld (Reg.estGate l c) 31 31 0
  ((s1.setFld (Reg.estGate l c) 8 8 (bits v 8 8)).setFld (Reg.estGate l c) 3 0 (bits v 3 0)).done Code.ok

/-- EST_GATE_WRITE. -/
def execEstGateWrite (a : Acc) (v : Word) (s : State) : Result :=
  .next (s.writeAccess a (fun t =>
    match gateOfAddr a.addr with
    | some (l, c) => t.gateWrite l c v
    | none => t.done Code.ok))

/-- The descriptor that frees a session's record alone. -/
def freeDesc (i : Nat) (r : Session) : TxDesc :=
  { op := 4, ctx := r.ctx, index := BitVec.ofNat 22 i, msg := mkAip 0 0 0 r.sid 0 0 0 [], record := SessRec.zero
    client := 0, tries := 0, admitRound := 0 }

/-- Daxna frees the sessions of context c whose records its epoch or its shut gate has made dead (R294). -/
def State.freeDead (s : State) (c : Nat) : State :=
  s.sess.foldl (fun t e =>
    let l := e.1 / 2 ^ 20
    if e.2.st ≠ 0 ∧ e.2.ctx.val = c ∧
        (s.fld (Reg.estGate l c) 31 31 = 0 ∨ e.2.epoch.toNat ≠ s.fld (Reg.estGate l c) 23 16) then t.postDesc l (freeDesc e.1 e.2)
    else t) s

/-- SESSION_CACHE_FLUSH_DONE: the context's records have left the caches, and Daxna begins to free what is dead in the
region (R294). -/
def execSessionCacheFlushDone (ctx : Fin 16) (s : State) : Result :=
  .next (((s.flushCaches ctx.val).freeDead ctx.val).done Code.ok)

/-! ### The transmit queue (R300) -/

/-- SEQ from TX_SEQ, encryption under k_m2c, framing (R281, R284, R300). -/
def State.sendOn (s : State) (l e : Nat) (r : SessRec) (m : Aip) : State :=
  let seq := r.txSeq + 1
  let m1 := { m with sid := r.sid, seq := seq }
  let k := match r.keys with | some ks => ks.2 | none => 0
  let c := Config.gcmSeal k ([1, 0, 0, 0, 0, 0] ++ be 6 seq.toNat) m1.hdr m1.payload
  (s.putRec l e { r with txSeq := seq }).sendAip l r.ret { m1 with payload := c.1, tag := c.2 }

/-- A descriptor is done: an INSERT's record image is zeroed, STATUS, and DONE last, are written to its 32 bytes, and Daxna's
next takes its place (R300). -/
def State.descDone (s : State) (l slot : Nat) (d : TxDesc) (code : Byte) : State :=
  let s1 := s.setEstLd l { s.estLd l with txHead := (slot + 1) % 1024, done := (s.estLd l).done ++ [code] }
  (((s1.hubStore (imageAddr l slot) (List.replicate d.image.length 0)).hubStore (txAddr l slot + 1) [code]).hubStore
    (txAddr l slot + 3) [1]).fillTx l

/-- The descriptor at the front, if its OP is `op`, crosses from the hub die; one poisoned on the way is read again (R16).
The record operation and the sending; STATUS is written (R300); `fin`: what Daxna does on a STATUS. -/
def State.txStep (s : State) (l op : Nat) (k : TxDesc → State → State × Byte) (fin : TxDesc → Byte → State → State) : State :=
  let x := s.estLd l
  match x.tx with
  | [] => s.idle
  | d :: ds =>
    if d.op.toNat ≠ op then s.idle
    else if s.estStall l then s.waits
    else s.across 8 (4 + l) (fun u => u.done Code.eccUncorrectable) (fun u =>
      let r := k d (u.setEstLd l { x with tx := ds })
      (fin d r.2 (r.1.descDone l x.txHead d r.2)).done r.2)

/-- A record that no datagram can leave under: FREE, of another epoch, or with keys that do not unwrap (R291, R294,
R300). -/
def State.recGone (s : State) (l : Nat) (x : Fetched) : Bool :=
  decide (x.code ≠ Code.ok) || decide (x.record.st = 0) || !s.epochNow l x.record || x.record.keys.isNone

/-- A SEND after a record operation on a record that is not gone; its entry and the record go to f. -/
def State.txRecord (s : State) (l op : Nat) (f : TxDesc → Nat → SessRec → State → State) : State :=
  s.txStep l op (fun d t =>
    let e := d.index.toNat % 2 ^ 20
    let x := t.fetchRec l e
    if t.recGone l x then (x.st, Code.connectionClosed) else (f d e x.record x.st, Code.ok)) (fun _ _ t => t)

/-- TX_SEND. -/
def execTxSend (ld : Fin 4) (s : State) : Result :=
  .next (s.txRecord ld.val 0 (fun d e r t => t.sendOn ld.val e r d.msg))

/-- INSERT (R290): the lookup slot and the record, and Daxna's book. -/
def State.insertRec (s : State) (l pick : Nat) (d : TxDesc) : Option State :=
  let e := d.index.toNat % 2 ^ 20
  (s.insertSlot l pick d.record.sid e).map (fun t =>
    (t.putRec l e d.record).setSession d.index.toNat
      ⟨d.record.sid, d.record.st, d.record.ctx, d.record.epoch, d.client, false, [], []⟩)

/-- A failed insertion: Daxna draws a new SESSION_ID, up to four times, then answers BUSY; a source that has failed draws none
(R288, R290, R431). -/
def State.insertFailed (s : State) (l : Nat) (d : TxDesc) : State :=
  let k := match d.record.keys with | some ks => ks.2 | none => 0
  if 4 ≤ d.tries then s.refuseHello l d.record.ret k Code.busy
  else if s.entPort = .served then s.postInsert l d.index.toNat d.record d.client (d.tries + 1)
  else s.refuseHello l d.record.ret k Code.entropyUnavailable

/-- TX_INSERT_SEND: a failed insertion answers BUSY; `pick` says which slots it displaces (R290). The context's Estuary wrap key
wraps the record's keys: without it the record stays FREE (R407, R411; DEDUCED, notes/assumptions/99.md). While the entropy
source starts, a redraw waits (R429). -/
def execTxInsertSend (ld : Fin 4) (pick : Nat) (s : State) : Result :=
  if s.entPort = .stall then .next s.waits
  else .next (s.txStep ld.val 1 (fun d t =>
    if (t.wrapKey d.ctx.val 5).isNone then (t, Code.connectionClosed)
    else match t.insertRec ld.val pick d with
    | some u => (u.sendOn ld.val (d.index.toNat % 2 ^ 20) d.record d.msg, Code.ok)
    | none => (t, Code.busy)) (fun d code t => if code = Code.busy then t.insertFailed ld.val d else t))

/-- TX_SET_ADMITTED_SEND (R257). -/
def execTxSetAdmittedSend (ld : Fin 4) (s : State) : Result :=
  .next (s.txRecord ld.val 2 (fun d e r t =>
    t.sendOn ld.val e { r with admitted := true, admitRound := d.admitRound } d.msg))

/-- TX_FREE_SEND (R293). -/
def execTxFreeSend (ld : Fin 4) (s : State) : Result :=
  .next (s.txRecord ld.val 3 (fun d e r t => (t.sendOn ld.val e r d.msg).freeSession d.index.toNat))

/-- TX_FREE. -/
def execTxFree (ld : Fin 4) (s : State) : Result :=
  .next (s.txStep ld.val 4 (fun d t =>
    if (t.session d.index.toNat).st = 0 then (t, Code.connectionClosed) else (t.freeSession d.index.toNat, Code.ok))
    (fun _ _ t => t))

end Sys2Proof.Machine
end

