-- ==== Sys2Proof/Machine/Links.lean ====
section
/-! DEFINITION. Tideway lanes, bundles and link frames (R303–R322): meanings of the lane and link commands. -/

namespace Sys2Proof.Machine

/-! ### Lanes and bundles -/

def State.lane (s : State) (k : Nat) : LaneX := s.lanes.get (fun _ => LaneX.zero) k
def State.setLane (s : State) (k : Nat) (x : LaneX) : State := { s with lanes := s.lanes.put (fun _ => LaneX.zero) k x }

/-! LANE_STAT.STATE (R306). -/
namespace LS
def down : Nat := 0
def training : Nat := 1
def up : Nat := 2
def withdrawn : Nat := 3
def recal : Nat := 4
def mismatch : Nat := 5
end LS

/-- Bundle of a lane as light die × 16 + k, if it belongs to one (R306). -/
def State.bundleOf (s : State) (k : Nat) : Option Nat :=
  let b := s.fld (Reg.laneStat (k / 16) (k % 16)) 27 24
  if b = 15 then none else some (k / 16 * 16 + b)
/-- BUNDLE_MAP of a bundle. -/
def bmap (b : Nat) : Nat := Reg.bundleMap (b / 16) (b % 16)
/-- Module lanes of a bundle, and those that are UP. -/
def State.bundleLanes (s : State) (b : Nat) : List Nat :=
  ((List.range 16).filter (fun n => bit (s.reg (bmap b)) n)).map (fun n => b / 16 * 16 + n)
def State.liveLanes (s : State) (b : Nat) : List Nat := (s.bundleLanes b).filter (fun k => decide (s.laneState k = LS.up))
/-- BSTATE is not DOWN. -/
def State.bundleUp (s : State) (b : Nat) : Bool := decide (s.fld (bmap b) 27 26 ≠ 0)
def State.bundle (s : State) (b : Nat) : Bundle := s.bundles.get (fun _ => Bundle.zero) b
def State.setBundle (s : State) (b : Nat) (x : Bundle) : State :=
  { s with bundles := s.bundles.put (fun _ => Bundle.zero) b x }

/-- The bundle that serves a port (R315, R316). -/
def State.portBundle (s : State) (p : Nat) : Option Nat :=
  ((List.range (16 * s.part.ldCount))).find? (fun b => decide (s.fld (bmap b) 31 31 = 1 ∧ s.fld (bmap b) 30 28 = p))

/-- LIVE and BSTATE follow the lanes (R316). -/
def State.refreshBundle (s : State) (b : Nat) : State :=
  let n := (s.liveLanes b).length
  (s.setFld (bmap b) 20 16 n).setFld (bmap b) 27 26 (if n = 0 then 0 else if n = (s.bundleLanes b).length then 1 else 2)

/-- A lane of a bundle changes STATE. -/
def State.moveLane (s : State) (k v : Nat) : State :=
  let s1 := s.setLaneState k v
  match s.bundleOf k with
  | some b => s1.refreshBundle b
  | none => s1

/-- The lane is a TIDEWAY lane of a light die that is fitted and ON. -/
def State.twLane (s : State) (k : Nat) : Bool :=
  decide (k / 16 < s.part.ldCount) && decide (s.laneMode k = 2) && s.pdOn (pdLd (k / 16))

/-- The lane is an ETHERNET lane of a light die that is fitted and ON. -/
def State.ethLane (s : State) (k : Nat) : Bool :=
  decide (k / 16 < s.part.ldCount) && decide (s.laneMode k = 1) && s.pdOn (pdLd (k / 16))

/-- Tideway counters (R339). -/
def State.twCount (s : State) (l o : Nat) : State := s.count (Reg.twCnt l o)

/-- A link event of queue 1 (R307, R320, R544). -/
def State.laneEvent (s : State) (k kind : Nat) (code : Byte) (info : Nat) : State :=
  s.post 1 (Ev.of 8 kind code 1 (k / 16) (k % 16) info)

/-! ### Topology (R323–R325) -/

def State.topo (s : State) : Nat := (s.reg (Reg.twTopo 0)).toNat
/-- Size of dimension i, and a module's coordinate in it. -/
def State.dim (s : State) (i : Nat) : Nat := topoDim s.topo i
def State.groupSize (s : State) : Nat := s.dim 0 * s.dim 1 * s.dim 2
def State.coord (s : State) (m i : Nat) : Nat :=
  if i = 0 then m % s.dim 0 else if i = 1 then m / s.dim 0 % s.dim 1 else m / (s.dim 0 * s.dim 1)
/-- The module with these coordinates. -/
def State.modAt (s : State) (x y z : Nat) : Nat := x + s.dim 0 * (y + s.dim 1 * z)
/-- The neighbour at a port: 0 +X, 1 −X, 2 +Y, 3 −Y, 4 +Z, 5 −Z (R324). -/
def State.neighbour (s : State) (p : Nat) : Nat :=
  let i := p / 2
  let d := s.dim i
  let c := if p % 2 = 0 then (s.coord s.ownId i + 1) % d else (s.coord s.ownId i + d - 1) % d
  let f := fun j => if j = i then c else s.coord s.ownId j
  s.modAt (f 0) (f 1) (f 2)
/-- The port a peer names for the link at our port: the opposite one; in a dimension of size 2 both name + (R307). -/
def State.peerPort (s : State) (p : Nat) : Nat := if s.dim (p / 2) = 2 then p else p / 2 * 2 + (1 - p % 2)

/-! ### Coming up (R307) -/

/-- The port of a lane's bundle. -/
def State.lanePort (s : State) (k : Nat) : Nat :=
  match s.bundleOf k with
  | some b => s.fld (bmap b) 30 28
  | none => 7

/-! ### Link frames on the PCS (R308, R309, R311) -/

/-- One bit of CRC-32C, reflected (R309). -/
def crcShift (c : Word) : Word := if c.getLsbD 0 then (c >>> 1) ^^^ 0x82F63B78 else c >>> 1
/-- One byte. -/
def crcByte (c : Word) (b : Byte) : Word :=
  crcShift (crcShift (crcShift (crcShift (crcShift (crcShift (crcShift (crcShift (c ^^^ b.setWidth 32))))))))
/-- CRC-32C of bytes. -/
def crc32c (bs : Bytes) : Word := ~~~(bs.foldl crcByte 0xFFFFFFFF)

/-- A link frame: the fields of its header, and what stands between header and trailer (R309). -/
structure LinkFrame where
  kind   : Nat
  seq    : BitVec 24
  ack    : BitVec 24
  cvc    : Nat
  credit : Nat
  vc     : Nat
  body   : Bytes
deriving DecidableEq, Repr

/-- Bytes 0–11 of the header, and the header with HCRC (R309). -/
def LinkFrame.head (f : LinkFrame) : Bytes :=
  be 1 f.kind ++ be 3 f.seq.toNat ++ be 3 f.ack.toNat ++ be 1 (f.cvc * 16 + f.vc) ++ be 2 f.credit ++ be 2 f.body.length
def LinkFrame.hdr (f : LinkFrame) : Bytes := f.head ++ be 4 (crc32c f.head).toNat

/-- The frame: an IDLE frame is its header alone; the others have a body and the trailer, FCRC and four zero bytes
(R308, R309). -/
def LinkFrame.bytes (f : LinkFrame) : Bytes :=
  if f.kind = 0 then f.hdr else f.hdr ++ f.body ++ be 4 (crc32c (f.hdr ++ f.body)).toNat ++ be 4 0

/-- `n` data blocks and the terminate block that holds what is left (R308). -/
def dataBlocks : Nat → Bytes → List PcsBlock
  | 0, bs => [.term bs]
  | n + 1, bs => .data (bs.take 8) :: dataBlocks n (bs.drop 8)
/-- The blocks of a frame (R308). -/
def pcsBlocks (bs : Bytes) : List PcsBlock := .start (bs.take 7) :: dataBlocks ((bs.length - 7) / 8) (bs.drop 7)

/-- The 32-byte header of a packet (R311). -/
def packetHdr (p : Packet) : Bytes :=
  be 1 p.ptype.toNat ++ be 1 (p.cls.toNat * 64 + p.hops.toNat) ++ be 2 p.dst.toNat ++ be 2 p.src.toNat ++
  be 2 p.payload.length ++ be 4 p.group.toNat ++ be 4 0 ++ be 16 p.fields.toNat

/-- Body of a NOTICE: TYPE, a lane number, LAST_GOOD, zeros (R309). -/
def noticeBody (typ named : Nat) (lastGood : BitVec 24) : Bytes := padTo 16 (be 1 typ ++ be 1 named ++ be 3 lastGood.toNat)

/-- Body of a HELLO: TW_GROUP, the module id, the lane number, PORT (R307); their places are the model's (DESIGN CHOICE,
notes/assumptions/94.md). -/
def helloBody (group : Word) (modId lane port : Nat) : Bytes :=
  padTo 16 (be 4 group.toNat ++ be 2 modId ++ be 1 lane ++ be 1 port)

/-! ### Sending on a lane (R309, R312, R313, R317, R318) -/

def Bundle.queuedOn (x : Bundle) (n : Nat) : Nat := x.queued.get (fun _ => 0) n
def Bundle.setQueued (x : Bundle) (n v : Nat) : Bundle := { x with queued := x.queued.put (fun _ => 0) n v }

/-- A frame is queued on a lane and leaves as blocks of 8 bytes each (R308, R317). -/
def State.putFrame (s : State) (k : Nat) (f : LinkFrame) : State :=
  let bs := pcsBlocks f.bytes
  (match s.bundleOf k with
   | some b => s.setBundle b ((s.bundle b).setQueued (k % 16) ((s.bundle b).queuedOn (k % 16) + 8 * bs.length))
   | none => s).emit (.frame k bs)

/-- CVC and CREDIT of a header: the lowest VC that is owed credits, with what it is owed. -/
def Bundle.credit (x : Bundle) : Nat × Nat :=
  match x.owe with
  | [] => (0, 0)
  | (v, n) :: _ => (v, min n 65535)
def Bundle.paid (x : Bundle) : Bundle :=
  { x with owe := x.owe.put (fun _ => 0) x.credit.1 ((x.owe.get (fun _ => 0) x.credit.1) - x.credit.2) }

/-- A frame leaves on a lane of bundle b, with ACK and a credit return (R309). -/
def State.sendHdr (s : State) (b k kind : Nat) (seq : BitVec 24) (vc : Nat) (body : Bytes) : State :=
  let x := s.bundle b
  (s.setBundle b x.paid).putFrame k ⟨kind, seq, x.rxAck, x.credit.1, x.credit.2, vc, body⟩

/-- A NOTICE leaves on a lane (R309); a lane of no bundle has no ACK and no credits to carry. -/
def State.notice (s : State) (k typ named : Nat) (lastGood : BitVec 24) : State :=
  match s.bundleOf k with
  | some b => s.sendHdr b k 2 0 0 (noticeBody typ named lastGood)
  | none => s.putFrame k ⟨2, 0, 0, 0, 0, 0, noticeBody typ named lastGood⟩

/-- Bytes that the DATA frame of a packet takes on a lane, and the credits it uses (R311, R318). -/
def frameBytes (p : Packet) : Nat := 56 + p.payload.length
def frameCredits (p : Packet) : Nat := (32 + p.payload.length + 63) / 64

/-- How far b lies above a, modulo 2^24. -/
def ahead (a b : BitVec 24) : Nat := (b - a).toNat

/-- The live lane with the fewest queued bytes; ties go to the lower number (R317). -/
def State.bestLane (s : State) (b : Nat) (avoid : Option Nat) : Option Nat :=
  ((s.liveLanes b).filter (fun k => decide (some k ≠ avoid))).foldl (fun acc k =>
    match acc with
    | none => some k
    | some j => if (s.bundle b).queuedOn (k % 16) < (s.bundle b).queuedOn (j % 16) then some k else some j) none

/-- The bundle can take a packet on a VC: credits, the SEQ window and the replay memory (R312, R313, R318). -/
def State.canSend (s : State) (b vc : Nat) (p : Packet) : Bool :=
  let x := s.bundle b
  s.bundleUp b && decide (x.used.get (fun _ => 0) vc + frameCredits p ≤ 1024) && decide (ahead x.txAck x.txSeq < 4096) &&
  decide ((x.replay.map (fun f => frameBytes f.pkt)).sum + frameBytes p ≤ 262144 * (s.bundleLanes b).length)

/-- The DATA frame of a replay entry goes out on lane k, and the lane's history has it (R313). -/
def State.sendFrame (s : State) (b k : Nat) (f : ReplayFrame) : State :=
  let x := s.bundle b
  ((s.setBundle b { x with sends := (Fin.ofNat 16 k, f.seq) :: x.sends }).sendHdr b k 1 f.seq f.vc.val
    (packetHdr f.pkt ++ f.pkt.payload)).count64 (Reg.twCnt (b / 16) 0x08) 1

/-- A DATA frame leaves on the live lane with the fewest queued bytes (R312, R313, R317). -/
def State.sendData (s : State) (b : Nat) (vc : Fin 12) (p : Packet) : State :=
  match s.bestLane b none with
  | none => s
  | some k =>
    let x := s.bundle b
    let f : ReplayFrame := ⟨x.txSeq, Fin.ofNat 16 k, 0, vc, p⟩
    (s.setBundle b { x with
      txSeq := x.txSeq + 1
      used := x.used.put (fun _ => 0) vc.val (x.used.get (fun _ => 0) vc.val + frameCredits p)
      replay := x.replay ++ [f] }).sendFrame b k f

/-! ### Bundle down, withdrawal (R313, R319, R320) -/

/-- What a lane keeps when it leaves or rejoins spraying. -/
def LaneX.rejoined (x : LaneX) (cause : Option (Fin 5)) : LaneX :=
  { x with cause := cause, rejoinOut := false, rejoinIn := false }

/-- A bundle goes DOWN: its replay memory is discarded and counted, SEQ restarts, and with it LAST_GOOD; lanes with lock
train again. -/
def State.bundleDown (s : State) (b : Nat) : State :=
  let s1 := (s.setBundle b Bundle.zero).twCount (b / 16) 0x24
  let s2 := (s.bundleLanes b).foldl (fun t k =>
    let x := { t.lane k with lastGood := 0xFFFFFF, heard := false }
    if bit (t.reg (Reg.laneCtl (k / 16) (k % 16))) 28 then t.setLane k x
    else if x.lock then (t.setLane k (x.rejoined none)).setLaneState k LS.training
    else (t.setLane k x).setLaneState k LS.down) s1
  s2.refreshBundle b

/-- Frame f is sent again on another live lane; the sixteenth resend puts the bundle DOWN (R313). -/
def State.resend (s : State) (b : Nat) (f : ReplayFrame) : State :=
  if ¬ (s.bundle b).replay.any (fun g => decide (g.seq = f.seq)) then s
  else if 16 ≤ f.resends + 1 then s.bundleDown b
  else match s.bestLane b none with
  | none => s
  | some k =>
    let x := s.bundle b
    ((s.setBundle b { x with replay := x.replay.map (fun g =>
      if g.seq = f.seq then { g with lane := Fin.ofNat 16 k, resends := g.resends + 1 } else g) }).sendFrame b k f).twCount
      (b / 16) 0x1C

/-- Every unacknowledged frame that satisfies p is sent again. -/
def State.resendWhere (s : State) (b : Nat) (p : ReplayFrame → Bool) : State :=
  ((s.bundle b).replay.filter p).foldl (fun t f => t.resend b f) s

/-- Nothing of what a lane of bundle b has queued goes out any more; the frame being sent ends in an errored terminate block
(R320). -/
def State.cutOff (s : State) (b k : Nat) : State :=
  let t := s.setBundle b ((s.bundle b).setQueued (k % 16) 0)
  if 0 < (s.bundle b).queuedOn (k % 16) then t.emit (.frame k [.errTerm]) else t

/-- A lane is withdrawn, by the row of R319: what it has queued is cut off, NOTICE WITHDRAW, resends, the event (R320);
a bundle that loses its last live lane is DOWN. -/
def State.withdraw (s : State) (k : Nat) (cause : Fin 5) (state : Nat) (notice : Bool) : State :=
  let s1 := ((s.setLane k ((s.lane k).rejoined (some cause))).moveLane k state).twCount (k / 16) 0x20
  match s.bundleOf k with
  | none => s1
  | some b =>
    let s2 := (s1.cutOff b k).laneEvent k 2 Code.ok cause.val
    match s2.bestLane b none with
    | none => if s.bundleUp b then s2.bundleDown b else s2
    | some j =>
      let s3 := if notice then s2.notice j 2 (k % 16) 0 else s2
      s3.resendWhere b (fun f => decide (f.lane.val = k % 16))

/-! ### Receiving (R310, R312) -/

/-- The lane a NOTICE about lane k leaves on: the same lane, unless its transmitter is recalibrated, else another live lane
of the bundle (R310). -/
def State.noticeLane (s : State) (k : Nat) : Option Nat :=
  if s.laneState k ≠ LS.recal then some k
  else match s.bundleOf k with
  | some b => s.bestLane b (some k)
  | none => none

/-- A frame that fails its checks is counted and a NOTICE LANE_ERR is sent (R310). -/
def State.frameError (s : State) (k : Nat) : State :=
  let x := s.lane k
  let s1 := ((s.setLane k { x with errs := x.errs + 1 }).addFld (Reg.laneStat (k / 16) (k % 16)) 23 16 1).twCount (k / 16) 0x10
  match s.noticeLane k with
  | some j => s1.notice j 1 (k % 16) x.lastGood
  | none => s1

/-- Entries of a newest-first list of frames sent, without the oldest that are acknowledged. -/
def liveSends (p : BitVec 24 → Bool) (xs : List (Fin 16 × BitVec 24)) : List (Fin 16 × BitVec 24) :=
  (xs.reverse.dropWhile (fun e => !p e.2)).reverse

/-- ACK and CREDIT of a good header (R312, R318): frames below ACK leave the replay memory. -/
def State.useHdr (s : State) (b : Nat) (h : LinkHdr) : State :=
  let x := s.bundle b
  let y := if ahead x.txAck h.ack ≤ ahead x.txAck x.txSeq then
      { x with
        txAck := h.ack
        replay := x.replay.filter (fun f => decide (ahead x.txAck h.ack ≤ ahead x.txAck f.seq))
        sends := liveSends (fun q => decide (ahead x.txAck h.ack ≤ ahead x.txAck q)) x.sends }
    else x
  s.setBundle b { y with used := y.used.put (fun _ => 0) h.cvc.val (y.used.get (fun _ => 0) h.cvc.val - h.credit.toNat) }

/-- ACK passes every set bit at the bottom of the window; `n` bounds the bits. -/
def advanceAck : Nat → BitVec 24 → List (BitVec 24) → BitVec 24 × List (BitVec 24)
  | 0, a, bs => (a, bs)
  | n + 1, a, bs => if a ∈ bs then advanceAck n (a + 1) (bs.filter (fun x => decide (x ≠ a))) else (a, bs)

/-- A packet enters a router's input buffer. -/
def State.toRouter (s : State) (l : Nat) (r : RouterPkt) : State :=
  { s with router := s.router.put (fun _ => []) l (s.router.get (fun _ => []) l ++ [r]) }

/-- A good DATA frame passes the SEQ window (R312). -/
def State.acceptFrame (s : State) (k b : Nat) (h : LinkHdr) (p : Packet) : State :=
  let s1 := (s.setLane k { s.lane k with lastGood := h.seq }).useHdr b h
  let x := s1.bundle b
  let d := ahead x.rxAck h.seq
  if d < 4096 then
    (if h.seq ∈ x.rxBits then s1.twCount (b / 16) 0x14
     else
      let r := advanceAck 4096 x.rxAck (h.seq :: x.rxBits)
      ((s1.setBundle b { x with rxAck := r.1, rxBits := r.2 }).toRouter (b / 16) ⟨some b, h.vc, p, false⟩).count64
        (Reg.twCnt (b / 16) 0x00) 1)
  else if 2 ^ 23 ≤ d then s1.twCount (b / 16) 0x14
  else s1.twCount (b / 16) 0x18

/-- A lane of a bundle on which link headers flow. -/
def State.linkLane (s : State) (k : Nat) : Bool :=
  s.twLane k && (s.bundleOf k).isSome &&
  decide (s.laneState k = LS.up ∨ s.laneState k = LS.withdrawn ∨ s.laneState k = LS.recal)

/-- Corrected codewords of a received frame (R306). -/
def State.fecCorr (s : State) (k n : Nat) : State := s.addFld (Reg.laneStat (k / 16) (k % 16)) 15 0 n

/-- A frame received on lane k: its corrected codewords are counted; it is discarded with a NOTICE, or used (R306, R310). -/
def State.received (s : State) (k : Nat) (h : LinkHdr) (f : State → State) : State :=
  let s1 := s.fecCorr k h.fec
  (if h.good then f s1 else s1.frameError k).done Code.ok

/-- A frame other than a HELLO on a lane of a bundle. -/
def State.onLink (s : State) (k : Nat) (h : LinkHdr) (f : Nat → State → State) : State :=
  match s.bundleOf k with
  | some b =>
    if s.linkLane k then s.received k h (fun t => f b (t.setLane k { t.lane k with heard := true })) else s.idle
  | none => s.idle

/-- DATA_FRAME_RECEIVE. -/
def execDataFrameReceive (lane : Fin 64) (h : LinkHdr) (p : Packet) (s : State) : Result :=
  .next (s.onLink lane.val h (fun b t => t.acceptFrame lane.val b h p))

/-- IDLE_FRAME_SEND (R308). -/
def execIdleFrameSend (lane : Fin 64) (s : State) : Result :=
  let k := lane.val
  match s.bundleOf k with
  | some b => if s.linkLane k then .next ((s.sendHdr b k 0 0 0 []).done Code.ok) else .next s.idle
  | none => .next s.idle

/-- IDLE_FRAME_RECEIVE (R310, R312). -/
def execIdleFrameReceive (lane : Fin 64) (h : LinkHdr) (s : State) : Result :=
  .next (s.onLink lane.val h (fun b t => t.useHdr b h))

/-- LINK_ACK_SEND: ACK in the header of a frame on a live lane (R312). -/
def execLinkAckSend (ld : Fin 4) (k : Fin 16) (s : State) : Result :=
  let b := ld.val * 16 + k.val
  match s.bestLane b none with
  | some j => .next ((s.sendHdr b j 0 0 0 []).done Code.ok)
  | none => .next s.idle

/-- The frame was sent on lane n, and no later than LAST_GOOD's latest sending there only if that came after it (R313). -/
def Bundle.sentAfter (x : Bundle) (n : Fin 16) (lastGood seq : BitVec 24) : Bool :=
  ((x.sends.filter (fun e => decide (e.1 = n))).takeWhile (fun e => decide (e.2 ≠ lastGood))).any (fun e => decide (e.2 = seq))

/-- NOTICE_LANE_ERR_RECEIVE: frames sent on the lane after LAST_GOOD are sent again (R313). -/
def execNoticeLaneErrReceive (x : LaneFrame) (named : Fin 16) (lastGood : BitVec 24) (s : State) : Result :=
  .next (s.onLink x.lane.val x.h (fun b t =>
    let u := t.useHdr b x.h
    u.resendWhere b (fun f => decide (f.lane = named) && (u.bundle b).sentAfter named lastGood f.seq)))

/-- LINK_REPLAY_TIMEOUT: TW_LRTO since the frame was last sent (R313, R314). -/
def execLinkReplayTimeout (ld : Fin 4) (k : Fin 16) (seq : BitVec 24) (s : State) : Result :=
  let b := ld.val * 16 + k.val
  if (s.bundle b).replay.any (fun f => decide (f.seq = seq)) then
    .next ((s.resendWhere b (fun f => decide (f.seq = seq))).done Code.ok)
  else .next s.idle

/-! ### Coming up (R307) -/

/-- The check of a received HELLO. -/
def State.helloOk (s : State) (k : Nat) (group : Word) (modId : BitVec 14) (port : Byte) : Bool :=
  decide (group = s.reg (Reg.twGroup (k / 16))) && decide (modId.toNat = s.neighbour (s.lanePort k)) &&
  decide (port.toNat = s.peerPort (s.lanePort k)) && (s.bundleOf k).isSome

/-- LANE_CTL.WITHDRAW of a lane. -/
def State.keptOut (s : State) (k : Nat) : Bool := bit (s.reg (Reg.laneCtl (k / 16) (k % 16))) 28

/-- LANE_LOCK: block, alignment-marker and FEC lock; the lane's counter restarts (R29, R307). -/
def execLaneLock (lane : Fin 64) (s : State) : Result :=
  let k := lane.val
  let x := s.lane k
  if ¬ (s.twLane k ∨ s.ethLane k) ∨ x.lock then .next s.idle
  else
    let s1 := (s.setLane k { x with lock := true, errs := 0 }).zeroTime (fun d => d = 0x40 + k)
    .next ((if s.twLane k ∧ s.laneState k = LS.down then s1.moveLane k LS.training else s1).done Code.ok)

/-- The HELLO frame of a lane (R307); it carries the ACK of the lane's bundle, and returns no credits, which a peer that
rejects it would lose (DESIGN CHOICE, notes/assumptions/94.md). -/
def State.helloFrameOf (s : State) (k : Nat) : LinkFrame :=
  ⟨3, 0, (match s.bundleOf k with | some b => (s.bundle b).rxAck | none => 0), 0, 0, 0,
    helloBody (s.reg (Reg.twGroup (k / 16))) s.ownId k (s.lanePort k)⟩

/-- LANE_HELLO_SEND: a lane that has not passed the check sends HELLO (R307). -/
def execLaneHelloSend (lane : Fin 64) (s : State) : Result :=
  let k := lane.val
  if s.twLane k ∧ (s.laneState k = LS.training ∨ s.laneState k = LS.mismatch) then
    .next ((s.putFrame k (s.helloFrameOf k)).done Code.ok)
  else .next s.idle

/-- The lane is back in spraying. -/
def State.laneUp (s : State) (k : Nat) : State := (s.setLane k ((s.lane k).rejoined none)).moveLane k LS.up

/-- A lane that passed the check is UP; the rest of the header is used; WITHDRAW keeps it withdrawn (R305, R307, R319). -/
def State.helloPassed (s : State) (k : Nat) (h : LinkHdr) : State :=
  let s1 := match s.bundleOf k with
    | some b => s.useHdr b h
    | none => s
  let s2 := s1.setLane k { s1.lane k with heard := false }
  if s.keptOut k then s2.withdraw k 3 LS.withdrawn true else s2.laneUp k

/-- The check decides UP or MISMATCH (R307). -/
def State.helloCheck (s : State) (k : Nat) (h : LinkHdr) (group : Word) (modId : BitVec 14) (port : Byte) : State :=
  if s.helloOk k group modId port then (s.helloPassed k h).done Code.ok
  else
    ((s.moveLane k LS.mismatch).laneEvent k 1 Code.formatError (modId.toNat + port.toNat % 8 * 2 ^ 16)).done Code.formatError

/-- A HELLO on a lane in state `st`: one that fails its checks is discarded (R310). -/
def State.helloIn (s : State) (k st : Nat) (h : LinkHdr) (group : Word) (modId : BitVec 14) (port : Byte) : State :=
  if s.twLane k ∧ s.laneState k = st then
    (if h.good then (s.fecCorr k h.fec).helloCheck k h group modId port else ((s.fecCorr k h.fec).frameError k).done Code.ok)
  else s.idle

/-- A good HELLO on a lane that is past R307. Where the peer's lane was UP as well, the peer has put the bundle DOWN, and this
end repeats R307 with it (R313); a peer that still trains gets the HELLO it waits for (DEDUCED, notes/assumptions/94.md). -/
def State.helloAgain (s : State) (k : Nat) : State :=
  match s.bundleOf k with
  | some b =>
    if (s.lane k).heard then s.bundleDown b
    else if s.laneState k = LS.up then s.putFrame k (s.helloFrameOf k)
    else s
  | none => s

/-- LANE_HELLO_RECEIVE (R307, R313). -/
def execLaneHelloReceive (x : LaneFrame) (group : Word) (modId : BitVec 14) (port : Byte) (s : State) : Result :=
  let k := x.lane.val
  if s.linkLane k then .next (s.received k x.h (fun t => t.helloAgain k))
  else .next (s.helloIn k LS.training x.h group modId port)

/-- MISMATCH_RECHECK. -/
def execMismatchRecheck (x : LaneFrame) (group : Word) (modId : BitVec 14) (port : Byte) (s : State) : Result :=
  .next (s.helloIn x.lane.val LS.mismatch x.h group modId port)

/-! ### Lane events -/

/-- LANE_LOCK_LOSS (R319). -/
def execLaneLockLoss (lane : Fin 64) (s : State) : Result :=
  let k := lane.val
  let x := s.lane k
  if ¬ s.twLane k ∨ ¬ x.lock then .next s.idle
  else
    let s1 := s.setLane k { x with lock := false }
    .next ((if s.laneState k = LS.up then s1.withdraw k 0 LS.withdrawn true
      else if s.laneState k = LS.training ∨ s.laneState k = LS.mismatch then s1.moveLane k LS.down else s1).done Code.ok)

/-- LANE_ERROR_WINDOW: a 1 ms window ends; more than ERR_TH errors withdraw the lane (R305, R319). -/
def execLaneErrorWindow (lane : Fin 64) (s : State) : Result :=
  let k := lane.val
  let x := s.lane k
  let th := max 1 (s.fld (Reg.laneCtl (k / 16) (k % 16)) 15 8)
  if ¬ s.twLane k then .next s.idle
  else
    let s1 := s.setLane k { x with errs := 0 }
    .next ((if s.laneState k = LS.up ∧ th < x.errs then s1.withdraw k 1 LS.withdrawn true else s1).done Code.ok)

/-- NOTICE REJOIN leaves on the lane (R321). -/
def State.rejoinSend (s : State) (k : Nat) : State :=
  let x := s.lane k
  let s1 := (s.notice k 3 (k % 16) x.lastGood).setLane k { x with rejoinOut := true }
  if x.rejoinIn then s1.laneUp k else s1

/-- A recalibration request (R322): refused on the last live lane of a bundle. -/
def State.recalLane (s : State) (k : Nat) : State :=
  let ctl := Reg.laneCtl (k / 16) (k % 16)
  if ¬ s.twLane k then s.done Code.ok
  else if s.laneState k = LS.up then
    (match s.bundleOf k with
     | some b =>
       if (s.liveLanes b).length ≤ 1 then (s.setFld ctl 29 29 0).done Code.busy
       else ((s.setFld ctl 29 29 1).withdraw k 4 LS.recal true).done Code.ok
     | none => (s.setFld ctl 29 29 0).done Code.ok)
  else if s.laneState k = LS.withdrawn then
    (((s.setFld ctl 29 29 1).setLane k { s.lane k with cause := some 4 }).setLaneState k LS.recal).done Code.ok
  else (s.setFld ctl 29 29 0).done Code.ok

/-- LANE_RECAL. -/
def execLaneRecal (lane : Fin 64) (s : State) : Result := .next (s.recalLane lane.val)

/-- LANE_RECAL_DONE: after 150 µs the lane rejoins without the 10 ms wait; WITHDRAW keeps it withdrawn (R305, R319, R322). -/
def execLaneRecalDone (lane : Fin 64) (s : State) : Result :=
  let k := lane.val
  if s.twLane k ∧ s.laneState k = LS.recal then
    let s1 := (s.setFld (Reg.laneCtl (k / 16) (k % 16)) 29 29 0).setLaneState k LS.withdrawn
    .next ((if s.keptOut k then s1.setLane k { s.lane k with cause := some 3 } else s1.rejoinSend k).done Code.ok)
  else .next s.idle

/-- Lane of a LANE_CTL address. -/
def laneOfAddr (a : Nat) : Option Nat :=
  let p := a / 0x10000
  let o := a % 0x10000
  if 0x200 ≤ p ∧ p < 0x280 ∧ (p - 0x200) % 0x20 = 0 ∧ o < 0x40 ∧ o % 4 = 0 then some ((p - 0x200) / 0x20 * 16 + o / 4) else none

/-- A write of LANE_CTL (R305, R319, R321, R322). -/
def State.laneCtlWrite (s : State) (k : Nat) (v : Word) : State :=
  let ctl := Reg.laneCtl (k / 16) (k % 16)
  let old := s.fld ctl 28 28
  let s1 := ((s.setFld ctl 28 28 (bits v 28 28)).setFld ctl 27 27 (bits v 27 27)).setFld ctl 15 8 (bits v 15 8)
  let s2 :=
    if bit v 28 ∧ old = 0 ∧ s.twLane k then
      (if s.laneState k = LS.up then s1.withdraw k 3 LS.withdrawn true
       else if s.laneState k = LS.withdrawn then s1.setLane k { s1.lane k with cause := some 3, rejoinOut := false } else s1)
    else s1
  if bit v 29 then s2.recalLane k else s2.done Code.ok

/-- LANE_WITHDRAW_WRITE. -/
def execLaneWithdrawWrite (a : Acc) (v : Word) (s : State) : Result :=
  .next (s.writeAccess a (fun t =>
    match laneOfAddr a.addr with
    | some k => t.laneCtlWrite k v
    | none => t.done Code.ok))

/-- The module lane that a NOTICE received for bundle b names. -/
def noticeAbout (x : NoticeFrame) (b : Nat) : Nat := b / 16 * 16 + x.named.val

/-- NOTICE_WITHDRAW_RECEIVE: the peer withdrew the lane that it names (R319, R320). -/
def execNoticeWithdrawReceive (x : NoticeFrame) (s : State) : Result :=
  .next (s.onLink x.lane.val x.h (fun b t =>
    let u := t.useHdr b x.h
    if u.bundleOf (noticeAbout x b) = some b ∧ u.laneState (noticeAbout x b) = LS.up then
      u.withdraw (noticeAbout x b) 2 LS.withdrawn false
    else u))

/-- LANE_REJOIN: lock without error for 10 ms, AUTO_REJOIN or a completed WITHDRAW (R319, R321). -/
def execLaneRejoin (lane : Fin 64) (heldMs : Nat) (s : State) : Result :=
  let k := lane.val
  let x := s.lane k
  if s.twLane k ∧ s.laneState k = LS.withdrawn ∧ x.lock ∧ 10 ≤ heldMs ∧ ¬ s.keptOut k ∧ x.cause ≠ some 2 ∧
      (bit (s.reg (Reg.laneCtl (k / 16) (k % 16))) 27 ∨ x.cause = some 3) then
    .next ((s.rejoinSend k).done Code.ok)
  else .next s.idle

/-- The peer's NOTICE REJOIN on a withdrawn lane: the lane whose peer withdrew it answers, one that has sent its own is
back, WITHDRAW keeps it out (R305, R319, R321). -/
def State.rejoinIn (s : State) (k : Nat) : State :=
  let x := s.lane k
  let s1 := s.setLane k { x with rejoinIn := true }
  if s.keptOut k then s1
  else if x.cause = some 2 ∧ s.laneState k = LS.withdrawn then s1.rejoinSend k
  else if x.rejoinOut then s1.laneUp k
  else s1

/-- NOTICE_REJOIN_RECEIVE: for the lane that it names (R319, R321). -/
def execNoticeRejoinReceive (x : NoticeFrame) (s : State) : Result :=
  .next (s.onLink x.lane.val x.h (fun b t =>
    let u := t.useHdr b x.h
    if u.bundleOf (noticeAbout x b) = some b ∧ (u.laneState (noticeAbout x b) = LS.withdrawn ∨ u.laneState (noticeAbout x b) = LS.recal) then
      u.rejoinIn (noticeAbout x b)
    else u))

/-- ETHERNET_LANE_UP_DOWN (R306); a lane comes up with lock, which restarts its counter (R29). -/
def execEthernetLaneUpDown (lane : Fin 64) (up : Bool) (s : State) : Result :=
  let k := lane.val
  let x := s.lane k
  if s.ethLane k then
    let s1 := s.setLane k { x with lock := up }
    let s2 := if up ∧ ¬ x.lock then s1.zeroTime (fun d => d = 0x40 + k) else s1
    .next ((s2.setLaneState k (if up then LS.up else LS.down)).done Code.ok)
  else .next s.idle

/-- LANE_SIGNAL_DETECT: light on a lane of a light die in RETAIN is a wake source (R437). -/
def execLaneSignalDetect (lane : Fin 64) (s : State) : Result :=
  let n := pdLd (lane.val / 16)
  if lane.val / 16 < s.part.ldCount ∧ s.laneMode lane.val ≠ 0 ∧ (s.pdState n = 2 ∨ s.pdState n = 4) then
    .next ((s.startWake n).done Code.ok)
  else .next s.idle

end Sys2Proof.Machine
end

