-- ==== Sys2Proof/Machine/Router.lean ====
section
/-! DEFINITION. Packets, routes, broadcasts (R311, R324–R330), the fold in the network (R331–R338, R368): meanings of the
router and fold-stream commands. -/

namespace Sys2Proof

open Machine

/-- Byte i of the type fields of a packet (bytes 16–31 of its header). -/
def Packet.tf (p : Packet) (o n : Nat) : Nat := fromBE (sub (be 16 p.fields.toNat) (o - 16) n)
/-- The packet with bytes o to o + n − 1 of its type fields replaced. -/
def Packet.setTf (p : Packet) (o n v : Nat) : Packet :=
  let b := be 16 p.fields.toNat
  { p with fields := BitVec.ofNat 128 (fromBE (b.take (o - 16) ++ be n v ++ b.drop (o - 16 + n))) }

/-- REDUCE fields (R331). -/
def Packet.tag (p : Packet) : Nat := p.tf 16 2
def Packet.epoch (p : Packet) : Nat := p.tf 18 1
def Packet.contrib (p : Packet) : Nat := p.tf 19 1 / 32
def Packet.ring (p : Packet) : Nat := p.tf 19 1 / 8 % 4
def Packet.block (p : Packet) : Nat := p.tf 20 4
def Packet.last (p : Packet) : Bool := (p.tf 24 1).testBit 0
/-- CTRL fields (R330). -/
def Packet.bcast (p : Packet) : Bool := (p.tf 16 1).testBit 0

end Sys2Proof

namespace Sys2Proof.Machine

/-! ### Routes -/

/-- Offset to a destination in dimension i, and the port it takes there (R325). -/
def State.dimOffset (s : State) (dst i : Nat) : Nat :=
  (s.coord dst i + s.dim i - s.coord s.ownId i) % s.dim i
def State.dimPort (s : State) (dst i : Nat) : Nat := 2 * i + (if 2 * s.dimOffset dst i ≤ s.dim i then 0 else 1)
/-- Productive ports in the order x, y, z. -/
def State.productive (s : State) (dst : Nat) : List Nat :=
  ((List.range 3).filter (fun i => decide (s.dimOffset dst i ≠ 0))).map (s.dimPort dst)

/-- The hop out of port p crosses its dimension's dateline (R324). -/
def State.crosses (s : State) (p : Nat) : Bool :=
  let c := s.coord s.ownId (p / 2)
  if p % 2 = 0 then decide (c + 1 = s.dim (p / 2)) else decide (c = 0)

/-- The escape VC of a class for a hop by port p of a packet that came on VC `vc` by bundle `src` (R326): E1 once the
dateline of the dimension is crossed, E0 again on turning. -/
def State.escapeVc (s : State) (src : Option Nat) (vc cls p : Nat) : Nat :=
  let same : Bool := match src with
    | some b => decide (s.fld (bmap b) 30 28 / 2 = p / 2)
    | none => false
  cls * 3 + (if s.crosses p ∨ (same ∧ vc % 3 = 2) then 2 else 1)

/-- What the router decides for a packet: a bundle and VC, a wait, or a drop. -/
inductive Hop where
  | go (b vc : Nat)
  | wait
  | drop
deriving DecidableEq, Repr

/-- The bundle of port p is UP. -/
def State.portUp (s : State) (p : Nat) : Bool :=
  match s.portBundle p with
  | some b => s.bundleUp b
  | none => false

/-- A hop on an escape VC by the first of the ports given, of which the first is the dimension-order port (R326, R327). -/
def State.escapeHop (s : State) (r : RouterPkt) (cls : Nat) (ports : List Nat) : Hop :=
  match ports with
  | [] => .drop
  | p :: _ =>
    match s.portBundle p with
    | none => .drop
    | some b =>
      let vc := s.escapeVc r.bundle r.vc.val cls p
      if ¬ s.bundleUp b then .drop else if s.canSend b vc r.pkt then .go b vc else .wait

/-- Free credits of a VC of a bundle. -/
def State.freeCredits (s : State) (b vc : Nat) : Nat := 1024 - (s.bundle b).used.get (fun _ => 0) vc

/-- Adaptive minimal routing of REQ and RSP (R326). A port whose bundle is DOWN is never chosen: on an escape VC the packet
takes the first productive dimension whose bundle is UP (DEDUCED, notes/assumptions/95.md). -/
def State.adaptiveHop (s : State) (r : RouterPkt) (cls : Nat) : Hop :=
  let ports := (s.productive r.pkt.dst.toNat).filter s.portUp
  if r.vc.val % 3 ≠ 0 then s.escapeHop r cls ports
  else
    let best := (ports.filterMap s.portBundle).foldl (fun (acc : Option Nat) b =>
      if s.canSend b (cls * 3) r.pkt then
        (match acc with
         | none => some b
         | some c => if s.freeCredits c (cls * 3) < s.freeCredits b (cls * 3) then some b else some c)
      else acc) none
    match best with
    | some b => .go b (cls * 3)
    | none => s.escapeHop r cls ports

/-- The hop of a packet by its class: CTRL and RED by the dimension-order port alone (R326, R327). -/
def State.hop (s : State) (r : RouterPkt) : Hop :=
  let c := r.pkt.cls.toNat
  if c = 1 ∨ c = 2 then s.adaptiveHop r c else s.escapeHop r c (s.productive r.pkt.dst.toNat)

/-- The arrival checks of R329: the counter of the first that fails. -/
def State.arrivalDrop (s : State) (l : Nat) (r : RouterPkt) : Option Nat :=
  if r.bundle.isNone then none
  else if r.pkt.group ≠ s.reg (Reg.twGroup l) then some 0x28
  else if s.groupSize ≤ r.pkt.dst.toNat then some 0x2C
  else if s.dim 0 / 2 + s.dim 1 / 2 + s.dim 2 / 2 < r.pkt.hops.toNat then some 0x30
  else none

/-- The packet leaves its input buffer: its credits go back to the sender (R318). -/
def State.freeInput (s : State) (r : RouterPkt) : State :=
  match r.bundle with
  | none => s
  | some b =>
    let x := s.bundle b
    s.setBundle b { x with owe := x.owe.put (fun _ => 0) r.vc.val (x.owe.get (fun _ => 0) r.vc.val + frameCredits r.pkt) }

/-- A packet with one more hop. -/
def hopped (p : Packet) : Packet := { p with hops := p.hops + 1 }

/-! ### Broadcast (R330) -/

/-- Copies a module starts in dimension i: port and REM. -/
def State.bcastStart (s : State) (i : Nat) : List (Nat × Nat) :=
  let d := s.dim i
  [(2 * i, d / 2), (2 * i + 1, (d - 1) / 2)].filter (fun e => decide (0 < e.2))

/-- The copy of a broadcast for a port: REM of its dimension and STAGE. -/
def bcastCopy (p : Packet) (port rem : Nat) : Packet :=
  let i := port / 2
  ((((p.setTf 17 1 (if i = 0 then rem else 0)).setTf 18 1 (if i = 1 then rem else 0)).setTf 19 1
    (if i = 2 then rem else 0)).setTf 20 1 i)

/-- Copies that a module sends of a broadcast: as its source, or on receipt at a stage from a bundle. -/
def State.bcastPorts (s : State) (r : RouterPkt) : List (Nat × Nat) :=
  match r.bundle with
  | none => s.bcastStart 0 ++ s.bcastStart 1 ++ s.bcastStart 2
  | some b =>
    let i := r.pkt.tf 20 1
    let rem := r.pkt.tf (17 + i) 1
    let port := s.fld (bmap b) 30 28
    let on := 2 * i + (1 - port % 2)
    (if 1 < rem then [(on, rem - 1)] else []) ++ ((List.range 3).filter (fun j => decide (i < j))).flatMap s.bcastStart

/-- A packet crosses the package to the light die of bundle b and leaves there on a VC (R328); poisoned on the way, it does
not leave (R16). -/
def State.sendOver (s : State) (l b : Nat) (vc : Fin 12) (p : Packet) : State × Byte :=
  let y := s.crossPorts (route (4 + l) (4 + b / 16))
  if y.2 then (y.1, Code.eccUncorrectable) else (y.1.sendData b vc p, Code.ok)

/-- A copy leaves by its port, or is lost with NO_ROUTE where the port is DOWN (R327). -/
def State.sendCopy (s : State) (l : Nat) (r : RouterPkt) (e : Nat × Nat) : State :=
  match s.portBundle e.1 with
  | none => s.twCount l 0x2C
  | some b =>
    if ¬ s.bundleUp b then s.twCount l 0x2C
    else (s.sendOver l b (Fin.ofNat 12 (s.escapeVc r.bundle r.vc.val 0 e.1)) (hopped (bcastCopy r.pkt e.1 e.2))).1

/-- Every copy has the credits it needs, or its port is DOWN. -/
def State.copiesReady (s : State) (r : RouterPkt) : Bool :=
  (s.bcastPorts r).all (fun e =>
    match s.portBundle e.1 with
    | none => true
    | some b => !s.bundleUp b || s.canSend b (s.escapeVc r.bundle r.vc.val 0 e.1) r.pkt)

/-! ### Arbitration at an output (R318) -/

/-- The CTRL packet would leave by bundle b now. -/
def State.ctrlGoes (s : State) (l b : Nat) (r : RouterPkt) : Bool :=
  decide (r.pkt.cls = 0) && (s.arrivalDrop l r).isNone &&
  (if r.pkt.ptype = 3 ∧ r.pkt.bcast then
     s.copiesReady r && (s.bcastPorts r).any (fun e => s.portUp e.1 && decide (s.portBundle e.1 = some b))
   else
     decide (r.pkt.dst.toNat ≠ s.ownId) &&
     (match s.hop r with
      | .go c _ => decide (c = b)
      | _ => false))

/-- A CTRL packet waits that could leave by bundle b: it wins over every other class there (R318). -/
def State.ctrlAt (s : State) (b : Nat) : Bool :=
  s.lds.any (fun l => (s.router.get (fun _ => []) l).any (s.ctrlGoes l b))

/-- DATA_FRAME_SEND. -/
def execDataFrameSend (ld : Fin 4) (k : Fin 16) (vc : Fin 12) (p : Packet) (s : State) : Result :=
  let b := ld.val * 16 + k.val
  if s.fld (bmap b) 31 31 = 0 ∨ ¬ s.bundleUp b then .next s.idle
  else if s.canSend b vc.val p ∧ (vc.val < 3 ∨ ¬ s.ctrlAt b) then .next ((s.sendData b vc p).done Code.ok)
  else .next s.waits

/-! ### PACKET_FORWARD -/

def State.rbuf (s : State) (l : Nat) : List RouterPkt := s.router.get (fun _ => []) l
def State.setRbuf (s : State) (l : Nat) (rs : List RouterPkt) : State := { s with router := s.router.put (fun _ => []) l rs }

/-- The oldest packet of a buffer that satisfies p, with the packets that stay. -/
def takeFirst (p : RouterPkt → Bool) : List RouterPkt → Option (RouterPkt × List RouterPkt)
  | [] => none
  | r :: rs => if p r then some (r, rs) else (takeFirst p rs).map (fun x => (x.1, r :: x.2))

/-- Die of the unit a packet addressed to this module goes to: the home light die of its connection; the hub for others
(R328, R340). -/
def targetDie (p : Packet) : Nat := if p.ptype = 1 then 4 + p.tf 16 2 / 16384 else 8

/-- A packet reaches the unit it is for, across the package (R328); poisoned on the way, it does not (R16). A CTRL packet whose
MSG names no message is dropped and counted (R369). -/
def State.handOver (s : State) (l : Nat) (p : Packet) : State :=
  if p.ptype = 3 ∧ (p.tf 21 1 = 0 ∨ 6 < p.tf 21 1) then (s.count (Reg.cnCnt l 0x40)).done Code.ok
  else
    let y := s.crossPorts (route (4 + l) (targetDie p))
    if y.2 then y.1.done Code.eccUncorrectable else (y.1.emit (.packet p)).done Code.ok

/-- A CTRL broadcast: copies leave, the unit that MSG names gets it. -/
def State.forwardBcast (s : State) (l : Nat) (r : RouterPkt) (rest : List RouterPkt) : State :=
  if ¬ s.copiesReady r then s.waits
  else
    let s1 := (s.bcastPorts r).foldl (fun t e => t.sendCopy l r e) ((s.setRbuf l rest).freeInput r)
    if r.bundle.isNone then s1.done Code.ok else s1.handOver l r.pkt

/-- Bytes that an output holds on a VC: frames sent and not acknowledged. -/
def State.vcHeld (s : State) (b vc : Nat) : Nat :=
  (((s.bundle b).replay.filter (fun f => decide (f.vc.val = vc))).map (fun f => frameBytes f.pkt)).sum

/-- The router marks a REQ or RSP packet for an output whose VC holds more than CE_TH (R347). -/
def State.marks (s : State) (l b vc : Nat) (p : Packet) : Bool :=
  decide (p.ptype = 1) && decide (p.cls = 1 ∨ p.cls = 2) && decide (64 * s.fld (Reg.twCc l) 15 0 < s.vcHeld b vc)

/-- A CONN packet with CE set. -/
def withCe (p : Packet) : Packet := p.setTf 18 1 ((BitVec.ofNat 8 (p.tf 18 1) ||| 2).toNat)

/-- A packet other than REDUCE: dropped, delivered, or sent on (R326–R330). -/
def State.forwardPkt (s : State) (l : Nat) (r : RouterPkt) (rest : List RouterPkt) : State :=
  let gone := (s.setRbuf l rest).freeInput r
  match s.arrivalDrop l r with
  | some o => (gone.twCount l o).done Code.ok
  | none =>
    if r.pkt.ptype = 3 ∧ r.pkt.bcast then s.forwardBcast l r rest
    else if r.pkt.dst.toNat = s.ownId then gone.handOver l r.pkt
    else match s.hop r with
    | .drop => (gone.twCount l 0x2C).done Code.ok
    | .wait => s.waits
    | .go b vc =>
      if r.pkt.cls ≠ 0 ∧ s.ctrlAt b then s.waits
      else
      let s1 := if s.marks l b vc r.pkt then gone.count (Reg.cnCnt l 0x34) else gone
      let y := s1.sendOver l b (Fin.ofNat 12 vc) (hopped (if s.marks l b vc r.pkt then withCe r.pkt else r.pkt))
      y.1.done y.2

/-- PACKET_FORWARD: the oldest packet of a VC that is not a REDUCE packet. -/
def execPacketForward (ld : Fin 4) (vc : Fin 12) (s : State) : Result :=
  match takeFirst (fun r => decide (r.vc = vc ∧ r.pkt.ptype ≠ 2)) (s.rbuf ld.val) with
  | none => .next s.idle
  | some (r, rest) => .next (s.forwardPkt ld.val r rest)

/-! ### The fold stream table (R332, R333) -/



/-- Owner light die of an entry (R332). -/
def State.fseOwner (s : State) (v : QWord) : Nat :=
  if fseLocal v then s.homeLd (fseTarget v / 4)
  else match s.portBundle (fsePort v) with
  | some b => b / 16
  | none => 0

/-- FST_CTL takes OP and TAG, FST_STAT the result, on every light die; GO and BUSY read 0 again. -/
def State.fstDone (s : State) (op tag : Nat) (code : Byte) : State :=
  (s.lds.foldl (fun t l =>
    (t.setReg (Reg.fstCtl l) (BitVec.ofNat 32 (op * 2 ^ 29 + tag))).setFld (Reg.fstStat l) 23 16 code.toNat) s).done code

/-- FST_DATA as one entry, with its read-only fields and DONE zero. -/
def State.fstStaged (s : State) : QWord :=
  let b := ((List.range 4).map (fun i => le 4 (s.reg (Reg.fstData 0 i)).toNat)).flatten
  BitVec.ofNat 128 (fromLE ([(b.getD 0 0) &&& 0x9F, b.getD 1 0, (b.getD 2 0) &&& 0x87, (b.getD 3 0) &&& 0x0F] ++ sub b 4 4 ++
    le 4 0 ++ [(b.getD 12 0) &&& 0x0F, 0, 0, 0]))

/-- What WRITE refuses (R333). -/
def State.fstBad (s : State) (v : QWord) : Bool :=
  fseExpect v == 0 || fseRing v == 3 || (fseRing v == 2 && decide (1 < fseExpect v)) ||
  (!fseLocal v && (decide (5 < fsePort v) || !topoPort s.topo (fsePort v)))

/-- FST_WRITE. -/
def execFstWrite (tag : BitVec 16) (s : State) : Result :=
  let t := tag.toNat
  .next (s.toDie 4 (fun s => if fseArmed (s.fse t) then s.fstDone 0 t Code.busy
    else if s.fstBad s.fstStaged then s.fstDone 0 t Code.formatError
    else ((s.fstHeld t).setFse t s.fstStaged).fstDone 0 t Code.ok))

/-- FST_READ. -/
def execFstRead (tag : BitVec 16) (s : State) : Result :=
  let t := tag.toNat
  .next (s.toDie 4 (fun s =>
    (s.lds.foldl (fun u l => (List.range 4).foldl (fun w i =>
      w.setReg (Reg.fstData l i) (BitVec.ofNat 32 (field (le 16 (s.fseAt l t).toNat) (4 * i) 4))) u) s).fstDone 1 t Code.ok))

/-- FST_ARM. -/
def execFstArm (tag : BitVec 16) (s : State) : Result :=
  .next (s.toDie 4 (fun t => (t.setFse tag.toNat (fseFlag (t.fse tag.toNat) 6)).fstDone 2 tag.toNat Code.ok))

/-- FST_CLEAR. -/
def execFstClear (tag : BitVec 16) (s : State) : Result :=
  .next (s.toDie 4 (fun t => (t.fstClear tag.toNat).fstDone 3 tag.toNat Code.ok))

/-- FOLD_STREAM_EXPIRE: the entry's timer reached TW_FOLD_TMO (R336). -/
def execFoldStreamExpire (tag : BitVec 16) (s : State) : Result :=
  let t := tag.toNat
  let v := s.fse t
  let l := s.fseOwner v
  if fseValid (s.fseAt l t) ∧ fseArmed v ∧ ¬ fseExpired v ∧ fseDone v < fseNblocks v then
    .next (((((s.freeSlots t).setFse t (fseFlag v 5)).post 0
      { Ev.of 8 6 Code.retryExceeded 1 l 0 (t + fseEpoch v * 2 ^ 16 + fseDone v * 2 ^ 32) with
        ctx := if fseLocal v then some (fseCtx v) else none }).twCount l 0x44).done Code.ok)
  else .next s.idle

/-! ### REDUCE (R334, R335) -/

/-- The slot of (TAG, BLOCK) on a light die. -/
def State.slotFor (s : State) (l tag block : Nat) : Option RedSlot :=
  s.slots.find? (fun x => decide (x.ld = l ∧ x.tag.toNat = tag ∧ x.block.toNat = block))
def State.dropSlot (s : State) (l tag block : Nat) : State :=
  { s with slots := s.slots.filter (fun x => ¬ (x.ld = l ∧ x.tag.toNat = tag ∧ x.block.toNat = block)) }
def State.putSlot (s : State) (x : RedSlot) : State :=
  { s.dropSlot x.ld x.tag.toNat x.block.toNat with
    slots := (s.dropSlot x.ld x.tag.toNat x.block.toNat).slots ++ [x] }

/-- Payloads added modulo 2^32 or 2^64; n elements (R334). -/
def addBlocks (ring : Nat) (a b : Bytes) : Bytes :=
  let es := ringSize ring
  ((List.range (4096 / es)).map (fun i => le es ((field a (es * i) es + field b (es * i) es) % 2 ^ (8 * es)))).flatten

/-- DONE of an entry rises by one. -/
def State.fseCount (s : State) (tag : Nat) : State := s.setFse tag (fseSetDone (s.fse tag) (fseDone (s.fse tag) + 1))

/-- A REDUCE packet with new contents. -/
def redPacket (p : Packet) (contrib : Nat) (last : Bool) (data : Bytes) : Packet :=
  { (p.setTf 19 1 (contrib * 32 + p.ring * 8)).setTf 24 1 (b2n last) with payload := data }

/-- A packet emitted by OUT's bundle, which raises DONE; dropped and counted where that bundle is DOWN; none: it waits for
credits, or for a CTRL packet (R318, R327, R334). -/
def State.emitRed (s : State) (l : Nat) (src : Option Nat) (vc : Nat) (v : QWord) (p : Packet) : Option State :=
  match s.portBundle (fsePort v) with
  | none => some (s.twCount l 0x2C)
  | some b =>
    let w := s.escapeVc src vc 3 (fsePort v)
    if ¬ s.bundleUp b then some (s.twCount l 0x2C)
    else if s.canSend b w p ∧ ¬ s.ctrlAt b then some ((s.sendData b (Fin.ofNat 12 w) (hopped p)).fseCount p.tag) else none

/-- The queue entry of a delivered block; `src`: the module whose packet completed it (R338, R367; DESIGN CHOICE,
notes/assumptions/130.md). -/
def redPkt (s : State) (l tag : Nat) (v : QWord) (src : BitVec 14) (block : Nat) (data : Bytes) : Pkt :=
  { h0 := BitVec.ofNat 64 (0x83000000 + 4096 + src.toNat * 2 ^ 32)
    h1 := BitVec.ofNat 64 (s.stamp (0x20 + l))
    h2 := BitVec.ofNat 64 (block * 4096 / ringSize (fseRing v) % 2 ^ 32 + (tag + fseEpoch v * 2 ^ 16) * 2 ^ 32)
    h3 := 0
    body := padTo 4096 data, words := 17, bad := false }

/-- A block may be delivered: it is the next in order, its strand is bound to CTX, its queue has room (R338, R368). -/
def State.canDeliver (s : State) (v : QWord) (block : Nat) : Bool :=
  let i := fseTarget v
  decide (block = fseDone v) && s.boundTo (fseCtx v) (i / 4, i % 4) &&
  decide (17 ≤ s.queueFree (100 + strandIx (i / 4) (i % 4)))

/-- A block is delivered (R338). -/
def State.deliver (s : State) (l tag block : Nat) (src : BitVec 14) (data : Bytes) : State :=
  let v := s.fse tag
  let i := fseTarget v
  (s.publish (100 + strandIx (i / 4) (i % 4)) (redPkt s l tag v src block data)).fseCount tag

/-- OVERFOLD (R334). -/
def State.overfold (s : State) (l : Nat) (v : QWord) (tag block : Nat) : State :=
  ((s.dropSlot l tag block).twCount l 0x3C).post 0
    { Ev.of 8 5 Code.formatError 1 l 0 (tag + fseEpoch v * 2 ^ 16 + block * 2 ^ 32) with
      ctx := if fseLocal v then some (fseCtx v) else none }

/-- A free slot on a light die (R335). -/
def State.slotFree (s : State) (l : Nat) : Bool := decide ((s.slots.filter (fun x => x.ld = l)).length < 4096)

/-- The sum of a block is complete: by OUT, or, for LOCAL, delivered or held in a slot until its turn; none: it waits. -/
def State.complete_ (s : State) (l : Nat) (r : RouterPkt) (v : QWord) (last : Bool) (data : Bytes) : Option State :=
  let t := r.pkt.tag
  let b := r.pkt.block
  if fseLocal v then
    (if s.canDeliver v b then some ((s.dropSlot l t b).deliver l t b r.pkt.src data)
     else if (s.slotFor l t b).isSome ∨ s.slotFree l then
       some (s.putSlot ⟨l, BitVec.ofNat 16 t, BitVec.ofNat 32 b, r.pkt.src, fseExpect v, last, data⟩)
     else none)
  else
    (s.emitRed l r.bundle r.vc.val v (redPacket r.pkt (fseExpect v) last data)).map (fun u => u.dropSlot l t b)

/-- A packet with CONTRIB = EXPECT passes unchanged (R334): a slot that is held for its block stays, and a LOCAL block that
cannot be delivered waits for such a slot. -/
def State.passRed (s : State) (l : Nat) (r : RouterPkt) (v : QWord) : Option State :=
  if fseLocal v then (if (s.slotFor l r.pkt.tag r.pkt.block).isSome then none else s.complete_ l r v r.pkt.last r.pkt.payload)
  else s.emitRed l r.bundle r.vc.val v r.pkt

/-- A REDUCE packet merges at the owner light die (R334); none: it waits. -/
def State.merge (s : State) (l : Nat) (r : RouterPkt) (v : QWord) : Option State :=
  let p := r.pkt
  let sl := s.slotFor l p.tag p.block
  let n := (match sl with | some x => x.count | none => 0) + p.contrib
  if p.contrib = fseExpect v then s.passRed l r v
  else if fseRing v = 2 ∨ fseExpect v < n then some (s.overfold l v p.tag p.block)
  else
    let old := match sl with | some x => x.data | none => []
    let data := addBlocks (fseRing v) old p.payload
    let last := p.last || (match sl with | some x => x.last | none => false)
    if n = fseExpect v then s.complete_ l r v last data
    else if sl.isSome ∨ s.slotFree l then
      some (s.putSlot ⟨l, BitVec.ofNat 16 p.tag, BitVec.ofNat 32 p.block, p.src, n, last, data⟩)
    else none

/-- The packet needs a slot while none is free (R335). -/
def State.needsSlot (s : State) (l : Nat) (r : RouterPkt) (v : QWord) : Bool :=
  (decide (r.pkt.contrib ≠ fseExpect v) || fseLocal v) && (s.slotFor l r.pkt.tag r.pkt.block).isNone && !s.slotFree l

/-- A REDUCE packet at a light die: dropped, handed to the owner light die, where it keeps its input buffer (R318), merged, or
waiting (R329, R332, R334, R335). -/
def State.reduce (s : State) (l : Nat) (r : RouterPkt) (rest : List RouterPkt) : State :=
  let gone := (s.setRbuf l rest).freeInput r
  let v := s.fseAt l r.pkt.tag
  match s.arrivalDrop l r with
  | some o => (gone.twCount l o).done Code.ok
  | none =>
    if ¬ fseValid v then (gone.twCount l 0x34).done Code.ok
    else if s.fseOwner v ≠ l then
      let y := s.crossPorts (route (4 + l) (4 + s.fseOwner v))
      if y.2 then ((y.1.setRbuf l rest).freeInput r).done Code.eccUncorrectable
      else ((y.1.setRbuf l rest).toRouter (s.fseOwner v) { r with waited := false }).done Code.ok
    else if r.pkt.epoch ≠ fseEpoch v ∨ fseExpired v then (gone.twCount l 0x38).done Code.ok
    else match gone.merge l r v with
    | some t => t.done Code.ok
    | none =>
      if r.waited ∨ ¬ s.needsSlot l r v then s.waits
      else ((s.setRbuf l ({ r with waited := true } :: rest)).twCount l 0x40).waits

/-- REDUCE_RECEIVE: the oldest REDUCE packet of a light die. -/
def execReduceReceive (ld : Fin 4) (s : State) : Result :=
  match takeFirst (fun r => decide (r.pkt.ptype = 2)) (s.rbuf ld.val) with
  | none => .next s.idle
  | some (r, rest) => .next (s.reduce ld.val r rest)

/-- REDUCE_SLOT_WAIT_END: a packet that waited finds a slot (R335). -/
def execReduceSlotWaitEnd (ld : Fin 4) (s : State) : Result :=
  match takeFirst (fun r => decide (r.pkt.ptype = 2) && r.waited) (s.rbuf ld.val) with
  | none => .next s.idle
  | some (r, rest) => .next (s.reduce ld.val r rest)

/-- LOCAL_BLOCK_DELIVER: the block that is next in order leaves its slot (R368). -/
def execLocalBlockDeliver (tag : BitVec 16) (s : State) : Result :=
  let t := tag.toNat
  let v := s.fse t
  let l := s.fseOwner v
  match s.slotFor l t (fseDone v) with
  | none => .next s.idle
  | some x =>
    if ¬ (fseValid (s.fseAt l t) ∧ fseLocal v ∧ x.count = fseExpect v) then .next s.idle
    else if s.canDeliver v x.block.toNat then .next (((s.dropSlot l t x.block.toNat).deliver l t x.block.toNat x.src x.data).done Code.ok)
    else .next s.waits

/-! ### Fold-out engines (R337) -/

def State.foCtl (s : State) (l e : Nat) : Word := s.reg (Reg.fo l e 0)

/-- FOLD_OUT_GO: the engine starts from block 0. -/
def State.foldOutGo (s : State) (l e : Nat) : State :=
  (((s.setFld (Reg.fo l e 0) 31 31 1).setFld (Reg.fo l e 0) 30 30 0).setReg (Reg.fo l e 0x14) 0).done Code.ok

def execFoldOutGo (ld : Fin 4) (e : Fin 16) (s : State) : Result :=
  if ld.val < s.part.ldCount then .next (s.toDie (4 + ld.val) (fun t => t.foldOutGo ld.val e.val)) else .next s.idle

/-- The engine ends with a code. -/
def State.foldOutEnd (s : State) (l e : Nat) (code : Byte) : State :=
  (((s.setFld (Reg.fo l e 0) 31 31 0).setFld (Reg.fo l e 0) 30 30 1).setFld (Reg.fo l e 0x14) 31 24 code.toNat).done code

/-- The REDUCE packet of block b of an engine. -/
def State.foPacket (s : State) (l e b : Nat) (data : Bytes) : Packet :=
  let rt := s.reg (Reg.fo l e 0x10)
  let n := (s.reg (Reg.fo l e 0x0C)).toNat
  let f := be 2 (bits (s.foCtl l e) 15 0) ++ be 1 (bits rt 31 24) ++ be 1 (32 + bits rt 23 22 * 8) ++ be 4 b ++
    be 1 (b2n (decide (b + 1 = n))) ++ be 7 0
  { ptype := 2, cls := 3, hops := 0, dst := BitVec.ofNat 14 (bits rt 13 0), src := BitVec.ofNat 14 s.ownId
    group := s.reg (Reg.twGroup l), fields := BitVec.ofNat 128 (fromBE f), payload := padTo 4096 data }

/-- The watched I-strand's SEAL has written every line of the 4 KiB block at an address that it writes at all, and the block
has not been sent since (R337). -/
def State.sealReady (s : State) (i a : Nat) : Bool :=
  (s.sealed.get (fun _ => []) i).any (fun x =>
    decide (x.base ≤ a ∧ a < x.base + 64 * x.total ∧ min (a + 4096) (x.base + 64 * x.total) ≤ x.base + 64 * x.lines))

/-- The block at an address has been sent: the SEAL's record goes on behind it. -/
def State.sealSent (s : State) (i a : Nat) : State :=
  { s with sealed := s.sealed.put (fun _ => []) i ((s.sealed.get (fun _ => []) i).filterMap (fun x =>
      if x.base ≤ a ∧ a < x.base + 64 * x.total then
        (let k := (a + 4096 - x.base) / 64
         if x.total ≤ k then none else some { x with base := x.base + 64 * k, total := x.total - k, lines := x.lines - k })
      else some x)) }

/-- FOLD_OUT_BLOCK: the next block is read as DMA of CTX and sent; with WATCH_EN after SEAL has written it. -/
def State.foldOutBlock (s : State) (l e : Nat) : State :=
  let ctl := s.foCtl l e
  let b := s.fld (Reg.fo l e 0x14) 23 0
  let n := (s.reg (Reg.fo l e 0x0C)).toNat
  if ¬ bit ctl 31 then s.idle
  else if n ≤ b then s.foldOutEnd l e Code.ok
  else if bit ctl 29 ∧ ¬ s.sealReady (bits ctl 28 25) (s.reg64 (Reg.fo l e 4) % 2 ^ 48 + 4096 * b) then s.waits
  else
    let r := s.readSpan (.dma (Fin.ofNat 8 (4 + l)) (Fin.ofNat 16 (bits ctl 19 16))) (s.reg64 (Reg.fo l e 4) % 2 ^ 48 + 4096 * b) 4096
    if r.stall then r.st.waits
    else if r.code ≠ Code.ok then r.st.foldOutEnd l e r.code
    else
      let s0 := if bit ctl 29 then r.st.sealSent (bits ctl 28 25) (s.reg64 (Reg.fo l e 4) % 2 ^ 48 + 4096 * b) else r.st
      let s1 := (s0.toRouter l ⟨none, 10, s.foPacket l e b r.data, false⟩).setFld (Reg.fo l e 0x14) 23 0 (b + 1)
      if b + 1 = n then s1.foldOutEnd l e Code.ok else s1.done Code.ok

def execFoldOutBlock (ld : Fin 4) (e : Fin 16) (s : State) : Result := .next (s.foldOutBlock ld.val e.val)

end Sys2Proof.Machine
end

