-- ==== Sys2Proof/Machine/Conn.lean ====
section
/-! DEFINITION. Tideway connections, regions and barrier messages (R340–R374): meanings of their commands. -/

namespace Sys2Proof

open Machine

/-- CONN fields (R347). -/
def Packet.dconn (p : Packet) : Nat := p.tf 16 2
def Packet.op (p : Packet) : Nat := p.tf 18 1 / 16
def Packet.ackReq (p : Packet) : Bool := (p.tf 18 1).testBit 3
def Packet.lastPkt (p : Packet) : Bool := (p.tf 18 1).testBit 2
def Packet.ce (p : Packet) : Bool := (p.tf 18 1).testBit 1
def Packet.try_ (p : Packet) : Nat := p.tf 19 1 % 8
def Packet.psn (p : Packet) : Nat := p.tf 20 3
def Packet.rkey (p : Packet) : Nat := p.tf 24 4
def Packet.pktIdx (p : Packet) : Nat := p.tf 28 2
def Packet.sconn (p : Packet) : Nat := p.tf 30 2
/-- The extension: the first 16 bytes of the payload (R348). -/
def Packet.ext (p : Packet) : Bytes := p.payload.take 16
/-- OFFSET, MSG_LEN and IMM of an extension, big-endian as the header. -/
def Packet.offset (p : Packet) : Nat := fromBE (sub p.payload 0 8)
def Packet.msgLen (p : Packet) : Nat := fromBE (sub p.payload 8 4)
def Packet.imm (p : Packet) : Nat := fromBE (sub p.payload 12 4)
/-- Data bytes: between the extension and the tag. -/
def Packet.dataLen (p : Packet) : Nat := p.payload.length - 32

/-- The 32-byte header as associated data: byte 1 and CE zeroed (R346). -/
def Packet.aad (p : Packet) : Bytes :=
  let f := be 16 p.fields.toNat
  [p.ptype, 0] ++ be 2 p.dst.toNat ++ be 2 p.src.toNat ++ be 2 p.payload.length ++ be 4 p.group.toNat ++ [0, 0, 0, 0] ++
  f.take 2 ++ [(f.getD 2 0) &&& 0xFD] ++ f.drop 3

end Sys2Proof

namespace Sys2Proof.Machine

/-! ### Records and keys -/

/-- Keys by direction: `k1` from initiator to responder (R345). -/
def Conn.txKey (c : Conn) : BitVec 256 := if c.init then c.k1 else c.k2
def Conn.rxKey (c : Conn) : BitVec 256 := if c.init then c.k2 else c.k1

/-- The nonce of a packet (R346); `tx`: this side sends it. -/
def State.connNonce (s : State) (i : Nat) (tx asp : Bool) (tr n : Nat) : Bytes :=
  let c := s.conn i
  let fromInit := c.init == tx
  let m := if c.init then s.ownId else c.peer.toNat
  let k := if c.init then i else c.peerConn.toNat
  be 1 (b2n (!fromInit) * 128 + b2n asp * 64 + tr) ++ be 2 m ++ be 2 k ++ [0] ++ be 6 n

/-- A packet's class: RSP for READ_RESP, ACK, NAK and GONE (R348). -/
def opClass (op : Nat) : Nat := if 5 ≤ op ∧ op ≤ 8 then 2 else 1

/-- A CONN packet of this module, in clear. -/
def State.connPacket (s : State) (i op : Nat) (dst : BitVec 14) (dconn fl tr psn rkey idx : Nat) (payload : Bytes) : Packet :=
  { ptype := 1, cls := BitVec.ofNat 2 (opClass op), hops := 0, dst := dst, src := BitVec.ofNat 14 s.ownId
    group := s.reg (Reg.twGroup 0)
    fields := BitVec.ofNat 128 (fromBE (be 2 dconn ++ be 1 (op * 16 + fl) ++ be 1 tr ++ be 3 psn ++ [0] ++ be 4 rkey ++
      be 2 idx ++ be 2 i))
    payload := payload }

/-- The home light die's engine hands a packet to its router and counts it (R340, R374). -/
def State.sendConn (s : State) (i : Nat) (p : Packet) : State :=
  (s.toRouter (connLd i) ⟨none, Fin.ofNat 12 (p.cls.toNat * 3), p, false⟩).count64 (Reg.cnCnt (connLd i) 0x08) 1

/-- A packet under the key of its direction: extension, ciphertext, tag (R346). -/
def State.connSeal (s : State) (i : Nat) (asp : Bool) (n : Nat) (p : Packet) (ext data : Bytes) : Packet :=
  let q := { p with payload := ext ++ data ++ List.replicate 16 0 }
  let e := Config.gcmSeal (s.conn i).txKey (s.connNonce i true asp p.try_ n) (q.aad ++ ext) data
  { q with payload := ext ++ e.1 ++ be 16 e.2.toNat }

/-- The data of a received packet if its tag verifies. -/
def State.connOpen (s : State) (i : Nat) (asp : Bool) (n : Nat) (p : Packet) : Option Bytes :=
  let ct := sub p.payload 16 p.dataLen
  Config.gcmOpen (s.conn i).rxKey (s.connNonce i false asp p.try_ n) (p.aad ++ p.ext) ct
    (BitVec.ofNat 128 (fromBE (p.payload.drop (16 + p.dataLen))))

/-- Connection counters (R374). -/
def State.cnCount (s : State) (l o : Nat) : State := s.count (Reg.cnCnt l o)

/-- GONE to a packet's sender and connection (R348, R355). -/
def State.sendGone (s : State) (p : Packet) : State :=
  s.sendConn p.dconn (s.connPacket p.dconn 8 p.src p.sconn 0 0 0 0 0 ([Code.connectionClosed] ++ List.replicate 31 0))

/-- EPSN that the sender sends next, with the entry it belongs to (R346, R353). -/
def Conn.nextEntry (c : Conn) : Option WorkEntry := c.work.find? (fun w => decide (w.sent < w.pkts))
def Conn.nextEpsn (c : Conn) : Nat := match c.nextEntry with | some w => w.first + w.sent | none => c.nextPsn

/-- A CONN packet for this module (R311, R340). -/
def State.connHere (s : State) (p : Packet) : Bool := decide (p.ptype = 1) && decide (p.dst.toNat = s.ownId)

/-! ### Connection commands (R342) -/

/-- CN_DATA of a light die as bytes. -/
def State.cnStaged (s : State) (l : Nat) : Bytes := ((List.range 8).map (fun i => le 4 (s.reg (Reg.cnData l i)).toNat)).flatten

/-- CN_CTL takes OP and CONN, CN_STAT the result; GO and BUSY read 0 again. -/
def State.cnDone (s : State) (l op conn : Nat) (code : Byte) : State :=
  ((s.setReg (Reg.cnCtl l) (BitVec.ofNat 32 (op * 2 ^ 28 + conn))).setFld (Reg.cnStat l) 23 16 code.toNat).done code

/-- The key of a peer in the peer list (R343). -/
def State.peerKey (s : State) (m : BitVec 14) : Option Bytes := (s.mgmt.peers.find? (fun e => decide (e.1 = m))).map (fun e => e.2)

/-- A field of CN_DATA breaks R342. -/
def cnBad (b : Bytes) : Bool :=
  let q := field b 3 1
  let n := field b 12 2
  decide (16384 ≤ field b 0 2) || decide (field b 2 1 / 16 % 8 ≠ 0) || decide (2 ≤ q / 64) ||
  decide (q / 64 = 1 ∧ 12 ≤ q % 16) || decide (field b 4 4 = 0) || decide (field b 8 4 % 64 ≠ 0) ||
  !((List.range 9).any (fun k => decide (n = 2 ^ (k + 4)))) || !secureHub (field b 8 4) (64 * n) || decide (field b 14 2 ≠ 0)

/-- The record of an ESTABLISHED connection (R342, R544). -/
def State.connUpEvent (s : State) (i : Nat) : State :=
  s.post 1 { Ev.of 8 3 Code.ok 1 (connLd i) 0 (i + (s.conn i).peer.toNat * 2 ^ 16) with ctx := some (s.conn i).ctx.val }

/-- A handshake packet leaves and is kept for its resends (R344). -/
def State.sendHs (s : State) (i : Nat) (p : Packet) : State :=
  (s.setConn i { s.conn i with hsLast := some p, hsTries := 0 }).sendConn i p

/-- A handshake packet has been acted on (R374). -/
def State.hsTook (s : State) (i : Nat) : State := s.count64 (Reg.cnCnt (connLd i) 0x00) 1

/-- The payload of HS_INIT and of HS_RESP (R344). -/
def hsBody (pair : Word) (x k sig : Bytes) : Bytes :=
  be 4 pair.toNat ++ [0, 0, 0, 0] ++ padTo 97 x ++ k ++ [0, 0, 0, 0, 0, 0, 0] ++ sig

/-- The initiator starts: ephemeral keys through the public-key engine's port, HS_INIT (R344, R426). -/
def State.hsStart (s : State) (i : Nat) : State :=
  let b14 := s.drawnBytes Port.publicKey 14
  let x := BitVec.ofNat 384 (fromLE (b14.take 48))
  let k := BitVec.ofNat 512 (fromLE (b14.drop 48))
  let s2 := s.draw Port.publicKey 14
  let c := s2.conn i
  let b := hsBody c.pairId (Config.p384Public (be 48 x.toNat)) (padTo 1184 (Config.kemPublic k)) []
  (s2.setConn i { c with st := .handshake, ephX := x, ephK := k, hsInit := b }).sendHs i
    (s2.connPacket i 9 c.peer 0 0 0 0 0 0 b)

/-- A new record (R342, R360). -/
def openedConn (b : Bytes) : Conn :=
  { Conn.zero with
    st := .listen, peer := BitVec.ofNat 14 (field b 0 2), ctx := Fin.ofNat 16 (field b 2 1), init := (field b 2 1).testBit 7
    cqt := BitVec.ofNat 8 (field b 3 1), pairId := BitVec.ofNat 32 (field b 4 4), sqOff := field b 8 4
    sqSize := field b 12 2, window := 262144 }

/-- OPEN. -/
def State.cnOpen (s : State) (l i : Nat) : State :=
  let b := s.cnStaged l
  if (s.conn i).st ≠ .free then s.cnDone l 0 i Code.busy
  else if ¬ s.ctxLive (field b 2 1 % 16) then s.cnDone l 0 i Code.contextUnavailable
  else if cnBad b ∨ connLd i ≠ l ∨ (s.peerKey (BitVec.ofNat 14 (field b 0 2))).isNone then s.cnDone l 0 i Code.formatError
  else
    let s1 := s.setConn i (openedConn b)
    if ¬ (openedConn b).init then s1.cnDone l 0 i Code.ok
    else if ¬ s.katOk .publicKey then s.cnDone l 0 i Code.internalError
    else match s.entPort with
    | .stall => s.waits
    | .served => (s1.hsStart i).cnDone l 0 i Code.ok
      | .refused => s.cnDone l 0 i Code.entropyUnavailable

/-- CLOSE: keys and outstanding work go, the connection is FREE (R341, R345). -/
def State.cnClose (s : State) (l i : Nat) : State :=
  ((s.completeAll i 0 Code.connectionClosed Code.connectionClosed).setConn i Conn.zero).cnDone l 1 i Code.ok

/-- Coding of STATE (R342). -/
def connCode : ConnSt → Nat
  | .free => 0
  | .listen => 1
  | .handshake => 2
  | .established => 3
  | .paused => 4
  | .ended => 5

/-- A record as CN_DATA shows it. -/
def connBytes (c : Conn) : Bytes :=
  le 2 c.peer.toNat ++ le 1 (c.ctx.val + b2n c.init * 128) ++ [c.cqt] ++ le 4 c.pairId.toNat ++ le 4 c.sqOff ++
  le 2 c.sqSize ++ [0, 0] ++
  le 2 (if c.st = .established ∨ c.st = .paused ∨ c.st = .ended then c.peerConn.toNat else 0) ++
  le 1 (connCode c.st) ++ le 1 (b2n c.credit) ++ le 4 c.window ++ le 8 0

/-- READ. -/
def State.cnRead (s : State) (l i : Nat) : State :=
  let b := connBytes (s.conn i)
  ((List.range 8).foldl (fun t k => t.setReg (Reg.cnData l k) (BitVec.ofNat 32 (field b (4 * k) 4))) s).cnDone l 2 i Code.ok

/-- PAUSE and RESUME; in another state they change nothing. -/
def State.cnMove (s : State) (l op i : Nat) (a b : ConnSt) : State :=
  if (s.conn i).st = a then (s.setConn i { s.conn i with st := b }).cnDone l op i Code.ok else s.cnDone l op i Code.formatError

/-- A connection command on light die l. -/
def State.cnCommand (s : State) (l op i : Nat) : State :=
  if connLd i ≠ l then s.cnDone l op i Code.formatError
  else if op = 0 then s.cnOpen l i
  else if op = 1 then s.cnClose l i
  else if op = 2 then s.cnRead l i
  else if op = 3 then s.cnMove l 3 i .established .paused
  else if op = 4 then s.cnMove l 4 i .paused .established
  else s.cnDone l op i Code.formatError

/-- The home light die is fitted; a register of one that is not does nothing (R5). -/
def State.onHome (s : State) (conn : BitVec 16) (k : State → State) : Result :=
  if connLd conn.toNat < s.part.ldCount then .next (s.toDie (4 + connLd conn.toNat) k) else .next s.idle

def execCnOpen (conn : BitVec 16) (s : State) : Result := s.onHome conn (fun t => t.cnCommand (connLd conn.toNat) 0 conn.toNat)
def execCnClose (conn : BitVec 16) (s : State) : Result := s.onHome conn (fun t => t.cnCommand (connLd conn.toNat) 1 conn.toNat)
def execCnRead (conn : BitVec 16) (s : State) : Result := s.onHome conn (fun t => t.cnCommand (connLd conn.toNat) 2 conn.toNat)
def execCnPause (conn : BitVec 16) (s : State) : Result := s.onHome conn (fun t => t.cnCommand (connLd conn.toNat) 3 conn.toNat)
def execCnResume (conn : BitVec 16) (s : State) : Result := s.onHome conn (fun t => t.cnCommand (connLd conn.toNat) 4 conn.toNat)

/-! ### Handshake (R344, R345) -/

/-- The transcript hash. -/
def hsTh (ini resp : Bytes) : Bytes := shaBytes (ini ++ resp.take 1200 ++ List.replicate 96 0)

/-- Keys of both directions. -/
def hsKeys (ec kem th : Bytes) : BitVec 256 × BitVec 256 :=
  ((Config.hkdf (ec ++ kem) (ascii "A9 tw v1") (ascii "i2r" ++ th)).setWidth 256,
   (Config.hkdf (ec ++ kem) (ascii "A9 tw v1") (ascii "r2i" ++ th)).setWidth 256)

/-- A signature of the Tideway identity key; the module's identity is needed (R343, R344). -/
def State.twSign (s : State) (m : Bytes) : Bytes := padTo 96 (Config.ecdsaSign (s.active 4).mat m)

/-- A failed signature ends the connection (R344). -/
def State.hsFail (s : State) (i : Nat) : State :=
  ((s.cnCount (connLd i) 0x38).endConn i Code.signatureFail Code.signatureFail).done Code.signatureFail

/-- The responder answers a HS_INIT that matches its LISTEN connection: ten words for its ephemeral keys, six for the nonce of its
signature (R344, R426). -/
def State.hsAnswer (s : State) (i : Nat) (p : Packet) : State :=
  let b16 := s.drawnBytes Port.publicKey 16
  let x := BitVec.ofNat 384 (fromLE (b16.take 48))
  let r := sub b16 48 32
  let s2 := s.draw Port.publicKey 16
  let c := s2.conn i
  let kem := Config.kemEncap (sub p.payload 105 1184) r
  let b0 := hsBody c.pairId (Config.p384Public (be 48 x.toNat)) (padTo 1088 kem.1) []
  let th := hsTh p.payload b0
  let b := b0 ++ s2.twSign (ascii "A9 tw r" ++ th)
  let k := hsKeys (Config.ecdh (be 48 x.toNat) (sub p.payload 8 97)) kem.2 th
  let d := { c with
    st := .handshake, peerConn := BitVec.ofNat 16 p.sconn, k1 := k.1, k2 := k.2, hsInit := p.payload, hsResp := b }
  (((s2.hsTook i).setConn i d).sendHs i (s2.connPacket i 10 c.peer p.sconn 0 0 0 0 0 b)).done Code.ok

/-- The LISTEN connection that a HS_INIT matches. -/
def State.listener (s : State) (p : Packet) : Option Nat :=
  (s.conns.find? (fun e => decide (e.2.st = .listen ∧ e.2.peer = p.src ∧ e.2.pairId.toNat = fromBE (p.payload.take 4)))).map
    (fun e => e.1)

/-- A signature of the handshake needs a key that slot 4 gives for it, and a nonce: it waits while the source starts, and ends the
connection with the code of what refuses it (R407, R429, R431). -/
def State.hsSigned (s : State) (i : Nat) (k : State → State) : State :=
  let e := s.keyUse 4 3 .hubSecure none
  if e ≠ Code.ok then (s.endConn i e e).done e
  else match s.entPort with
  | .stall => s.waits
  | .served => k s
  | .refused => (s.endConn i Code.entropyUnavailable Code.entropyUnavailable).done Code.entropyUnavailable

/-- HS_INIT_RECEIVE. -/
def execHsInitReceive (p : Packet) (s : State) : Result :=
  if ¬ s.connHere p ∨ p.op ≠ 9 then .next s.idle
  else match s.listener p with
  | none => .next ((s.sendGone p).done Code.connectionClosed)
  | some i =>
    if p.payload.length ≠ 1296 then .next ((s.sendGone p).done Code.connectionClosed)
    else if ¬ s.katOk .publicKey then .next ((s.endConn i Code.internalError Code.internalError).done Code.internalError)
    else .next (s.hsSigned i (fun t => t.hsAnswer i p))

/-- A connection becomes ESTABLISHED: its window and epoch start (R342, R360). -/
def State.established (s : State) (i : Nat) (c : Conn) : State :=
  (s.setConn i { c with st := .established, ephX := 0, ephK := 0, window := 262144 }).connUpEvent i

/-- The initiator answers HS_RESP with HS_FIN and is ESTABLISHED. -/
def State.hsFinish (s : State) (i : Nat) (p : Packet) (th : Bytes) : State :=
  let c := s.conn i
  let k := hsKeys (Config.ecdh (be 48 c.ephX.toNat) (sub p.payload 8 97)) (Config.kemDecap c.ephK (sub p.payload 105 1088)) th
  let fin := s.twSign (ascii "A9 tw i" ++ th ++ p.payload.drop 1200)
  let s := s.draw Port.publicKey 6
  let q := s.connPacket i 11 c.peer p.sconn 0 0 0 0 0 fin
  (((s.hsTook i).established i { c with
    peerConn := BitVec.ofNat 16 p.sconn, k1 := k.1, k2 := k.2, hsResp := p.payload }).sendHs i q).done Code.ok

/-- HS_RESP_RECEIVE. A HS_RESP that comes again to an ESTABLISHED initiator has HS_FIN sent again. -/
def execHsRespReceive (p : Packet) (s : State) : Result :=
  let i := p.dconn
  let c := s.conn i
  if ¬ s.connHere p ∨ p.op ≠ 10 ∨ ¬ c.init ∨ c.peer ≠ p.src then .next s.idle
  else if c.st = .established ∧ c.hsResp = p.payload then
    (match c.hsLast with
     | some q => .next ((s.sendConn i q).done Code.ok)
     | none => .next s.idle)
  else if c.st ≠ .handshake ∨ fromBE (p.payload.take 4) ≠ c.pairId.toNat then .next s.idle
  else
    let th := hsTh c.hsInit p.payload
    match s.peerKey c.peer with
    | none => .next (s.hsFail i)
    | some k =>
      if p.payload.length = 1296 ∧ Config.ecdsaOk k (ascii "A9 tw r" ++ th) (p.payload.drop 1200) then .next (s.hsSigned i (fun t => t.hsFinish i p th))
      else .next (s.hsFail i)

/-- HS_FIN_RECEIVE. -/
def execHsFinReceive (p : Packet) (s : State) : Result :=
  let i := p.dconn
  let c := s.conn i
  if ¬ s.connHere p ∨ p.op ≠ 11 ∨ c.init ∨ c.st ≠ .handshake ∨ c.peer ≠ p.src ∨ c.peerConn.toNat ≠ p.sconn then .next s.idle
  else
    let th := hsTh c.hsInit c.hsResp
    match s.peerKey c.peer with
    | none => .next (s.hsFail i)
    | some k =>
      if p.payload.length = 96 ∧ Config.ecdsaOk k (ascii "A9 tw i" ++ th ++ c.hsResp.drop 1200) p.payload then
        .next (((s.hsTook i).established i { c with hsLast := none }).done Code.ok)
      else .next (s.hsFail i)

/-- HS_RESEND: every 1 ms each side sends its last handshake packet again until it gets an answer; HS_FIN is answered by the first
packet of the peer that verifies (notes/assumptions/61.md). After 7 resends the connection ends (R344). -/
def execHsResend (conn : BitVec 16) (s : State) : Result :=
  let i := conn.toNat
  let c := s.conn i
  match c.hsLast with
  | none => .next s.idle
  | some p =>
    if c.st ≠ .handshake ∧ c.st ≠ .established then .next s.idle
    else if 7 ≤ c.hsTries then .next ((s.endConn i Code.retryExceeded Code.retryExceeded).done Code.retryExceeded)
    else .next (((s.setConn i { c with hsTries := c.hsTries + 1 }).sendConn i p).done Code.ok)

/-! ### Regions (R350–R352, R357) -/

def State.rgStaged (s : State) (l : Nat) : Bytes := ((List.range 8).map (fun i => le 4 (s.reg (Reg.rgData l i)).toNat)).flatten

/-- RG_CTL takes OP and INDEX, RG_STAT the result. -/
def State.rgDone (s : State) (l op ix : Nat) (code : Byte) : State :=
  ((s.setReg (Reg.rgCtl l) (BitVec.ofNat 32 (op * 2 ^ 28 + ix))).setFld (Reg.rgStat l) 23 16 code.toNat).done code

/-- A field of RG_DATA breaks R351. -/
def rgBad (b : Bytes) : Bool :=
  decide (2 ^ 48 ≤ field b 0 8) || decide (field b 0 8 % 64 ≠ 0) || decide (field b 8 8 % 64 ≠ 0) || decide (field b 8 8 = 0) ||
  decide (16 ≤ field b 16 1) || decide (field b 17 1 = 0) || decide (8 ≤ field b 17 1) || decide (field b 19 1 ≠ 0) ||
  decide (field b 28 4 ≠ 0)

/-- The range may be registered for context c (R352): inside an HBM data range and clear of the module's tables, or
inside banks that BANK_OWNER gives to c, none an accumulator; clear of evaluation keys. -/
def State.rgRangeOk (s : State) (c a n : Nat) : Bool :=
  !(s.evk.any (fun e => decide (e.2.st ≠ 0) && overlap a n e.2.base.toNat e.2.length.toNat)) &&
  ((List.range 4).any (fun d => decide (s.part.blockBase d ≤ a ∧ a + n ≤ s.part.blockBase d + s.part.dataSize) &&
      !((pfTables s.part s.profileBody).any (fun t => overlap a n t.1 t.2.1))) ||
   (List.range 4).any (fun d => decide (bankAddr d 0 0 ≤ a ∧ a + n ≤ bankAddr d 24 0) &&
      (List.range 24).all (fun b => !overlap a n (bankAddr d b 0) 0x4000000 || (s.bownedBy d b c && !s.bacc d b))))

/-- REGISTER (R352). -/
def State.rgRegister (s : State) (l ix : Nat) : State :=
  let b := s.rgStaged l
  let c := field b 16 1 % 16
  if (s.region ix).st ≠ 0 then s.rgDone l 0 ix Code.busy
  else if ¬ s.ctxLive c then s.rgDone l 0 ix Code.contextUnavailable
  else if rgBad b then s.rgDone l 0 ix Code.formatError
  else if ¬ s.rgRangeOk c (field b 0 8) (field b 8 8) then s.rgDone l 0 ix Code.accessBounds
  else match s.entPort with
  | .stall => s.waits
  | .refused => s.rgDone l 0 ix Code.entropyUnavailable
  | .served =>
    let k := BitVec.ofNat 32 ((s.drawn Port.tideway 0).toNat % 4096 * 2 ^ 20 + ix)
    let r : Region := ⟨BitVec.ofNat 48 (field b 0 8), BitVec.ofNat 64 (field b 8 8), Fin.ofNat 16 c, BitVec.ofNat 3 (field b 17 1),
      1, k, 0⟩
    (((s.draw Port.tideway 1).setRegion ix r).setReg (Reg.rgData l 5) k).rgDone l 0 ix Code.ok

/-- REVOKE: REVOKING on every light die; BUSY until INFLIGHT reaches zero (R357). -/
def State.rgRevoke (s : State) (l ix : Nat) : State :=
  let r := s.region ix
  if r.st = 1 then
    (((s.setRegion ix { r with st := 2 }).setReg (Reg.rgCtl l) (BitVec.ofNat 32 (2 ^ 28 + ix))).setFld (Reg.rgStat l) 31 31 1).done
      Code.ok
  else s.rgDone l 1 ix Code.busy

/-- FREE: only in REVOKED (R352). -/
def State.rgFree (s : State) (l ix : Nat) : State :=
  if (s.region ix).st = 3 then (s.setRegion ix Region.zero).rgDone l 2 ix Code.ok else s.rgDone l 2 ix Code.busy

/-- An entry as RG_DATA shows it. -/
def regionBytes (r : Region) : Bytes :=
  le 8 r.base.toNat ++ le 8 r.length.toNat ++ le 1 r.ctx.val ++ le 1 r.rights.toNat ++ le 1 r.st.toNat ++ [0] ++
  le 4 r.rkey.toNat ++ le 4 r.inflight ++ le 4 0

/-- READ. -/
def State.rgRead (s : State) (l ix : Nat) : State :=
  let b := regionBytes (s.region ix)
  ((List.range 8).foldl (fun t k => t.setReg (Reg.rgData l k) (BitVec.ofNat 32 (field b (4 * k) 4))) s).rgDone l 3 ix Code.ok

/-- A region command written on light die l; while BUSY it is ignored. -/
def State.rgCommand (s : State) (l op ix : Nat) : State :=
  if s.fld (Reg.rgStat l) 31 31 = 1 then s.idle
  else if op = 0 then s.rgRegister l ix
  else if op = 1 then s.rgRevoke l ix
  else if op = 2 then s.rgFree l ix
  else if op = 3 then s.rgRead l ix
  else s.rgDone l op ix Code.formatError

/-- The region commands, written on LD0. -/
def execRgRegister (index : Fin 1048576) (s : State) : Result := .next (s.toDie 4 (fun t => t.rgCommand 0 0 index.val))
def execRgRevoke (index : Fin 1048576) (s : State) : Result := .next (s.toDie 4 (fun t => t.rgCommand 0 1 index.val))
def execRgFree (index : Fin 1048576) (s : State) : Result := .next (s.toDie 4 (fun t => t.rgCommand 0 2 index.val))
def execRgRead (index : Fin 1048576) (s : State) : Result := .next (s.toDie 4 (fun t => t.rgCommand 0 3 index.val))

/-- RG_REVOKE_DONE: INFLIGHT is zero, the region is REVOKED and BUSY clears where the command was written (R357). -/
def execRgRevokeDone (index : Fin 1048576) (s : State) : Result :=
  let ix := index.val
  let r := s.region ix
  if r.st ≠ 2 then .next s.idle
  else if r.inflight ≠ 0 then .next s.waits
  else
    .next (((s.setRegion ix { r with st := 3 }).rgSettled ix).done Code.ok)

/-! ### Sending (R353, R359–R363) -/

/-- Connections of a light die with packets outstanding (R340). -/
def State.workingSet (s : State) (l : Nat) : Nat :=
  (s.conns.filter (fun e => decide (connLd e.1 = l ∧ e.2.sent ≠ []))).length

/-- TW_DB: TAIL of a connection; with the working set full the wait is counted (R340, R353). -/
def State.ring (s : State) (l i tail : Nat) : State :=
  let c := s.conn i
  if connLd i ≠ l ∨ c.st = .free ∨ c.st = .ended then s.done Code.ok
  else
    let s1 := s.setConn i { c with sqTail := tail }
    (if c.sent = [] ∧ 1024 ≤ s.workingSet l then s1.cnCount l 0x3C else s1).done Code.ok

/-- DOORBELL: only the secure world writes page 0x205 (R342, R353). -/
def execDoorbell (world : World) (ld : Fin 4) (conn tail : BitVec 16) (s : State) : Result :=
  if s.part.ldCount ≤ ld.val then .next s.idle
  else .next (s.secureOnly world (Reg.twDb ld.val) (fun t => t.toDie (4 + ld.val) (fun u => u.ring ld.val conn.toNat tail.toNat)))

/-- The local side of an entry, in the order of R352; OK if it passes. -/
def State.entryCheck (s : State) (c : Conn) (w : WorkEntry) (raw : Bytes) : Byte :=
  let r := s.region (keyIx w.lkey)
  if r.st = 0 ∨ r.rkey ≠ w.lkey ∨ r.ctx ≠ c.ctx then Code.regionKeyInvalid
  else if r.st ≠ 1 then Code.regionRevoked
  else if w.op.toNat = 0 ∨ 4 < w.op.toNat ∨ 4 ≤ w.flags.toNat ∨ field raw 2 2 ≠ 0 ∨ fromLE (raw.drop 44) ≠ 0 ∨ w.len = 0 ∨
      (if w.op = 1 then 4032 else 264241152) < w.len ∨ (w.op = 1 ∧ w.rkey ≠ 0) then Code.formatError
  else if ¬ r.rights.getLsbD 2 ∨ r.length.toNat < w.loff + w.len then Code.accessBounds
  else Code.ok

/-- A response message stands in no completion order; entries complete in the order they were posted (R354). Entries
done, and the rest. -/
def drainWork : Bool → List WorkEntry → List WorkEntry × List WorkEntry
  | _, [] => ([], [])
  | blocked, w :: ws =>
    if w.done ∧ (w.op = 5 ∨ ¬ blocked) then
      let r := drainWork blocked ws
      (w :: r.1, r.2)
    else
      let r := drainWork (blocked || decide (w.op ≠ 5)) ws
      (r.1, w :: r.2)

/-- Completions of the entries that are done are written; their local regions are let go. -/
def State.drainConn (s : State) (i : Nat) : State :=
  let r := drainWork false (s.conn i).work
  let s1 := r.1.foldl (fun t w => (t.complete i w w.code).letWork w) s
  s1.setConn i { s1.conn i with work := r.2 }

/-- The engine takes the entry at the head of the send queue. -/
def State.takeEntry (s : State) (i : Nat) : State :=
  let c := s.conn i
  let w := s.workAt c c.sqHead
  let raw := s.hubBytes (c.sqOff + 64 * (c.sqHead % c.sqSize)) 64
  let next := (c.sqHead + 1) % 65536
  let code := s.entryCheck c w raw
  if code ≠ Code.ok then
    ((s.setConn i { c with sqHead := next, work := c.work ++ [{ w with code := code, done := true }] }).drainConn i).done code
  else
    let n := if w.op = 4 then 1 else (w.len + 4031) / 4032
    ((s.holdRegion w.lkey).setConn i { c with
      sqHead := next, nextPsn := c.nextPsn + n, work := c.work ++ [{ w with first := c.nextPsn, pkts := n }] }).done Code.ok

/-- SEND_QUEUE_ENTRY (R340, R353). The entry crosses from the hub die; one poisoned on the way is not taken, and is read
again (R16). -/
def execSendQueueEntry (conn : BitVec 16) (s : State) : Result :=
  let i := conn.toNat
  let c := s.conn i
  if c.st ≠ .established ∨ c.sqHead = c.sqTail then .next s.idle
  else if (s.workAt c c.sqHead).flags.getLsbD 1 ∧ c.work.any (fun w => decide (w.op = 4 ∧ ¬ w.done)) then .next s.waits
  else if c.sent = [] ∧ 1024 ≤ s.workingSet (connLd i) then .next s.waits
  else .next (s.across 8 (4 + connLd i) (fun u => u.done Code.eccUncorrectable) (fun u => u.takeEntry i))

/-- Data bytes of packet k of a message. -/
def WorkEntry.pktLen (w : WorkEntry) (k : Nat) : Nat := if w.op = 4 then 0 else min 4032 (w.len - 4032 * k)

/-- Address of an offset in the region of a key. -/
def State.regionAt (s : State) (k : Word) (off : Nat) : Nat := (s.region (keyIx k)).base.toNat + off

/-- The data of packet k, read from the local region (R353). -/
def State.pktData (s : State) (ld : Fin 4) (w : WorkEntry) (k : Nat) : Line :=
  if w.op = 4 then .ok s []
  else s.readSpan (.tideway ld (Fin.ofNat 1048576 (keyIx w.lkey))) (s.regionAt w.lkey (w.loff + 4032 * k)) (w.pktLen k)

/-- The extension of packet k of a message (R348). -/
def WorkEntry.ext (w : WorkEntry) (k : Nat) : Bytes :=
  let last := decide (k + 1 = w.pkts)
  let len := if last then w.len else 0
  if w.op = 1 then be 8 0 ++ be 4 w.len ++ be 4 w.imm.toNat
  else if w.op = 2 then be 8 (w.roff + 4032 * k) ++ be 4 len ++ be 4 0
  else if w.op = 3 then be 8 (w.roff + 4032 * k) ++ be 4 len ++ be 4 (if last then w.imm.toNat else 0)
  else if w.op = 4 then be 8 w.roff ++ be 4 w.len ++ be 4 0
  else be 8 0 ++ be 4 len ++ be 4 0

/-- ACKREQ of the packet with EPSN e sent for the t-th time (R362). -/
def Conn.wantsAck (c : Conn) (last : Bool) (e t : Nat) : Bool :=
  last || decide (e % 16 = 15) || decide (1 ≤ t) || (c.credit && decide (c.clim ≤ e + 5))

/-- A packet of a message is read, sealed and sent for the t-th time, after n retries, or the failed read ends the connection; TRY
holds t modulo 8, since a resend on a hint counts as no retry (R363, notes/assumptions/57.md). -/
def State.sendPkt (s : State) (i : Nat) (w : WorkEntry) (k t n : Nat) : State :=
  let c := s.conn i
  let e := w.first + k
  let r := s.pktData (Fin.ofNat 4 (connLd i)) w k
  if r.stall then r.st.waits
  else if r.code ≠ Code.ok then
    (r.st.endConnAt i (c.work.findIdx (fun x => decide (x.first = w.first ∧ x.pkts ≠ 0))) r.code Code.connectionClosed).done r.code
  else
    let last := decide (k + 1 = w.pkts)
    let fl := b2n (c.wantsAck last e t) * 8 + b2n last * 4
    let p := r.st.connPacket i w.op.toNat c.peer c.peerConn.toNat fl (t % 8) (e % 2 ^ 24)
      (if 2 ≤ w.op.toNat ∧ w.op.toNat ≤ 4 then w.rkey.toNat else 0) k []
    let q := r.st.connSeal i false e p (w.ext k) r.data
    let rec_ : SentPkt := ⟨e, t % 8, w.pktLen k, q, false, n⟩
    let d := { c with
      sent := (if t = 0 then c.sent ++ [rec_] else c.sent.map (fun x => if x.epsn = e then rec_ else x))
      work := (if t = 0 then c.work.map (fun x => if x.first = w.first ∧ x.pkts ≠ 0 then { x with sent := k + 1 } else x)
        else c.work) }
    ((r.st.setConn i d).sendConn i q).done Code.ok

/-- The limits of a new packet (R359–R361). -/
def Conn.mayNew (c : Conn) (e n : Nat) : Bool :=
  decide (e < c.cumIn + 1024) &&
  (if c.credit then decide (e < c.clim) else decide ((c.sent.map (fun x => x.bytes)).sum + n ≤ c.window))

/-- CONN_PACKET_SEND: the next packet of the connection, within its limits; a connection with nothing outstanding waits while the
working set is full (R340). -/
def execConnPacketSend (conn : BitVec 16) (s : State) : Result :=
  let i := conn.toNat
  let c := s.conn i
  match c.nextEntry with
  | none => .next s.idle
  | some w =>
    if c.st ≠ .established then .next s.idle
    else if c.sent = [] ∧ 1024 ≤ s.workingSet (connLd i) then .next s.waits
    else if c.mayNew (w.first + w.sent) (w.pktLen w.sent) then .next (s.sendPkt i w w.sent 0 0)
    else .next s.waits

/-- A connection to the root of the context's round fails or closes: the root has failed, and the round aborts (R215). -/
def State.rootLost (s : State) (i : Nat) : State :=
  let c := s.conn i
  match s.round c.ctx.val with
  | some r => if rdGroup r.desc ∧ rdRoot r.desc = c.peer.toNat then s.abortRound c.ctx.val else s
  | none => s

/-- A packet is sent again under TRY + 1, as a retry or on a hint; an eighth retry ends the connection (R346, R363). A READ_REQ
whose READ has completed has no entry any more and carries no data. -/
def State.resendPkt (s : State) (i : Nat) (x : SentPkt) (retry : Bool) : State :=
  let c := s.conn i
  let n := x.tries + b2n retry
  let j := c.work.findIdx (fun w => decide (w.first ≤ x.epsn ∧ x.epsn < w.first + w.pkts))
  match c.work[j]? with
  | none =>
    let t := (x.try_ + 1) % 8
    let q := s.connSeal i false x.epsn ((x.pkt.setTf 19 1 t).setTf 18 1 0x4C) x.pkt.ext []
    if 7 < n then ((s.endConn i Code.retryExceeded Code.connectionClosed).rootLost i).done Code.retryExceeded
    else
      ((s.setConn i { c with
        sent := c.sent.map (fun y => if y.epsn = x.epsn then ⟨x.epsn, t, 0, q, false, n⟩ else y) }).sendConn i q).done Code.ok
  | some w =>
    if 7 < n then ((s.endConnAt i j Code.retryExceeded Code.connectionClosed).rootLost i).done Code.retryExceeded
    else s.sendPkt i w (x.epsn - w.first) (x.try_ + 1) n

/-- READ_REQ_SERVE: the lowest READ_REQ accepted, once every packet below it has come, becomes a response message
(R355). -/
def execReadReqServe (conn : BitVec 16) (s : State) : Result :=
  let i := conn.toNat
  let c := s.conn i
  match c.reads with
  | [] => .next s.idle
  | r :: rs =>
    if c.st ≠ .established ∨ c.cum ≤ r.epsn then .next s.waits
    else
      let n := (r.bytes + 4031) / 4032
      let w : WorkEntry :=
        { op := 5, flags := 0, len := r.bytes, wrId := 0, lkey := r.rkey, rkey := 0, loff := r.offset, roff := 0, imm := 0
          first := c.nextPsn, pkts := n, sent := 0, code := Code.ok, done := false, resp := none, lost := 0 }
      .next ((s.setConn i { c with reads := rs, nextPsn := c.nextPsn + n, work := c.work ++ [w] }).done Code.ok)

/-! ### Receiving (R355–R358) -/

/-- The EPSN nearest CUM whose low 24 bits match; none: below zero (R346). -/
def nearest (base psn : Nat) : Option Nat :=
  let d := (psn + 2 ^ 24 - base % 2 ^ 24) % 2 ^ 24
  if d < 2 ^ 23 then some (base + d) else if 2 ^ 24 ≤ base + d then some (base + d - 2 ^ 24) else none

/-- CUM passes the set bits above it; `n` bounds them. -/
def passBits : Nat → Nat → List Nat → Nat × List Nat
  | 0, c, bs => (c, bs)
  | n + 1, c, bs => if c ∈ bs then passBits n (c + 1) (bs.filter (fun x => decide (x ≠ c))) else (c, bs)

/-- An EPSN counts as received: its bit is set, CUM advances, and an ACK is due where CUM passes a packet that asked for
one (R359, R362). -/
def Conn.take (c : Conn) (e : Nat) : Conn :=
  let r := passBits 1025 c.cum (e :: c.bits)
  { c with
    cum := r.1, bits := r.2, ackDue := c.ackDue || c.ackReqs.any (fun x => decide (x < r.1))
    ackReqs := c.ackReqs.filter (fun x => decide (r.1 ≤ x)) }

/-- Whether an EPSN has been received. -/
def Conn.got (c : Conn) (e : Nat) : Bool := decide (e < c.cum) || c.bits.contains e

/-- A NAK (R348, R362). -/
def State.sendNak (s : State) (i e : Nat) (code : Byte) (hint : Nat) : State :=
  let c := s.conn i
  let p := s.connPacket i 7 c.peer c.peerConn.toNat 0 0 (c.nextAsn % 2 ^ 24) 0 0 []
  let q := s.connSeal i true c.nextAsn p (be 6 e ++ [code, 0] ++ be 4 hint ++ be 4 0) []
  (s.setConn i { c with nextAsn := c.nextAsn + 1 }).sendConn i q

/-- Step 1 of R355: the connection the packet names. -/
def State.connNamed (s : State) (p : Packet) : Bool :=
  let c := s.conn p.dconn
  decide (c.st = .established ∨ c.st = .paused) && decide (c.peer = p.src) && decide (c.peerConn.toNat = p.sconn)

/-- Step 6 of R355: the code with which a region refuses, or none. -/
def State.regionRefuses (s : State) (c : Conn) (p : Packet) : Option Byte :=
  let r := s.region (p.rkey % 2 ^ 20)
  let n := if p.op = 4 then p.msgLen else p.dataLen
  if r.st = 0 ∨ r.rkey.toNat ≠ p.rkey ∨ r.ctx ≠ c.ctx then some Code.regionKeyInvalid
  else if r.st ≠ 1 then some Code.regionRevoked
  else if r.length.toNat < p.offset + n ∨ ¬ r.rights.getLsbD (if p.op = 4 then 1 else 0) then some Code.accessBounds
  else none

/-- The message a packet belongs to, with what the packet says of it (R356). -/
def Conn.rxOf (c : Conn) (p : Packet) (e : Nat) (failed : Bool) : RxMsg :=
  let f := e - p.pktIdx
  let m := (c.rx.find? (fun x => decide (x.first = f))).getD ⟨BitVec.ofNat 8 p.op, f, none, 0, 0, 0, false⟩
  let m1 := if p.lastPkt then { m with last := some e, msgLen := BitVec.ofNat 32 p.msgLen, imm := BitVec.ofNat 32 p.imm } else m
  { m1 with offset := BitVec.ofNat 64 (p.offset - 4032 * p.pktIdx), failed := m1.failed || failed }
def Conn.putRx (c : Conn) (m : RxMsg) : Conn := { c with rx := c.rx.filter (fun x => decide (x.first ≠ m.first)) ++ [m] }

/-- Every packet of a message has been received (R356). -/
def Conn.whole (c : Conn) (m : RxMsg) : Bool :=
  match m.last with
  | some n => (List.range (n + 1 - m.first)).all (fun k => c.got (m.first + k))
  | none => false

/-- The receive-queue entry of a SEND or a notification (R367). -/
def connPkt (s : State) (i kind len w0 w1 off : Nat) (body : Bytes) : Pkt :=
  { h0 := BitVec.ofNat 64 (0x80000000 + kind * 2 ^ 24 + len + (s.conn i).peer.toNat * 2 ^ 32 + i * 2 ^ 48)
    h1 := BitVec.ofNat 64 (s.stamp (0x20 + connLd i))
    h2 := BitVec.ofNat 64 (w0 + w1 * 2 ^ 32)
    h3 := BitVec.ofNat 64 (off % 2 ^ 48)
    body := body, words := (64 + len + 255) / 256, bad := false }

/-- Step 7: words the packet needs in the receive queue: a SEND, or the packet that completes a WRITE_NOTIFY. -/
def Conn.needs (c : Conn) (p : Packet) (e : Nat) : Nat :=
  if p.op = 1 then (64 + p.dataLen + 255) / 256
  else if p.op = 3 then
    (let m := c.rxOf p e false
     if (c.take e).whole m ∧ ¬ m.failed then 1 else 0)
  else 0

/-- The READ a READ_RESP packet answers: the one its message has been given, else the oldest that has none. -/
def Conn.readFor (c : Conn) (f : Nat) : Option WorkEntry :=
  match c.work.find? (fun w => decide (w.op = 4 ∧ w.resp = some f)) with
  | some w => some w
  | none => c.work.find? (fun w => decide (w.op = 4 ∧ w.resp = none ∧ ¬ w.done))
def Conn.setWork (c : Conn) (w : WorkEntry) : Conn :=
  { c with work := c.work.map (fun x => if x.first = w.first ∧ x.pkts ≠ 0 ∧ x.op = w.op then w else x) }

/-- The message of a packet ends if it is whole: the notification is written, a READ is done (R354, R356). -/
def State.msgEnd (s : State) (i : Nat) (m : RxMsg) : State :=
  let c := s.conn i
  if ¬ c.whole m then s
  else
    let s1 := s.setConn i { c with rx := c.rx.filter (fun x => decide (x.first ≠ m.first)) }
    if m.op = 3 ∧ ¬ m.failed then
      s1.publish (cqtRx c.cqt (connLd i)) (connPkt s1 i 2 0 m.imm.toNat m.msgLen.toNat m.offset.toNat [])
    else if m.op = 5 then
      (match c.work.find? (fun w => decide (w.op = 4 ∧ w.resp = some m.first)) with
       | some w => (s1.setConn i ((s1.conn i).setWork { w with done := true })).drainConn i
       | none => s1)
    else s1

/-- The packet's bit is set, its message takes note of it, and ends if it is whole. -/
def State.tookPkt (s : State) (i e : Nat) (p : Packet) (failed : Bool) : State :=
  let c := (s.conn i).take e
  if p.op = 1 ∨ p.op = 4 then s.setConn i c
  else
    let m := c.rxOf p e failed
    (s.setConn i (c.putRx m)).msgEnd i m

/-- A refusal with the bit set (R355 step 6). -/
def State.refusePkt (s : State) (i e : Nat) (p : Packet) (code : Byte) (counted : Bool) : State :=
  let s1 := if counted then s.cnCount (connLd i) 0x24 else s
  ((s1.tookPkt i e p true).sendNak i e code 0).done code

/-- A packet that was placed or acted on (R355 step 8). -/
def State.placed (s : State) (i e : Nat) (p : Packet) : State :=
  ((s.tookPkt i e p false).count64 (Reg.cnCnt (connLd i) 0x00) 1).done Code.ok

/-- WRITE and WRITE_NOTIFY place their data; the memory's own refusal is a NAK with its code. -/
def State.placeWrite (s : State) (i e : Nat) (p : Packet) (d : Bytes) : State :=
  let k := BitVec.ofNat 32 p.rkey
  let w := s.writeSpan (.tideway (Fin.ofNat 4 (connLd i)) (Fin.ofNat 1048576 (keyIx k))) (s.regionAt k p.offset) d
  if w.stall then w.st.waits
  else if w.code ≠ Code.ok then w.st.refusePkt i e p w.code false
  else w.st.placed i e p

/-- READ_RESP places its data in the READ's local region, or is consumed where that is no longer ACTIVE (R355). -/
def State.placeResp (s : State) (i e : Nat) (p : Packet) (d : Bytes) : State :=
  let c := s.conn i
  match c.readFor (e - p.pktIdx) with
  | none => s.placed i e p
  | some w =>
    let w1 := { w with resp := some (e - p.pktIdx) }
    if (s.region (keyIx w.lkey)).st ≠ 1 then
      (s.setConn i (c.setWork { w1 with code := if w.code = Code.ok then Code.regionRevoked else w.code })).placed i e p
    else
      let x := s.writeSpan (.tideway (Fin.ofNat 4 (connLd i)) (Fin.ofNat 1048576 (keyIx w.lkey))) (s.regionAt w.lkey (w.loff + 4032 * p.pktIdx))
        (d.take (w.len - 4032 * p.pktIdx))
      if x.stall then x.st.waits
      else
        (x.st.setConn i ((x.st.conn i).setWork
          { w1 with code := if w.code = Code.ok then x.code else w.code })).placed i e p

/-- A READ_REQ waits to be served, in EPSN order; its region is held (R355, R357). -/
def insRead (r : ReadReq) : List ReadReq → List ReadReq
  | [] => [r]
  | x :: xs => if r.epsn < x.epsn then r :: x :: xs else x :: insRead r xs
def State.acceptRead (s : State) (i e : Nat) (p : Packet) : State :=
  let c := s.conn i
  let r : ReadReq := ⟨e, BitVec.ofNat 32 p.rkey, p.offset, p.msgLen⟩
  ((s.setConn i { c with reads := insRead r c.reads }).holdRegion r.rkey).placed i e p

/-- Steps 5 to 8 for a packet whose tag verified. -/
def State.authPkt (s : State) (i e : Nat) (p : Packet) (d : Bytes) : State :=
  let l := connLd i
  let c0 := s.conn i
  let c := { c0 with ece := c0.ece + b2n p.ce, ackReqs := if p.ackReq then e :: c0.ackReqs else c0.ackReqs
                     ackDue := c0.ackDue || p.ackReq, hsLast := none }
  let s1 := s.setConn i c
  if c.st = .paused then ((s1.cnCount l 0x20).sendNak i e Code.contextUnavailable 500).done Code.contextUnavailable
  else match (if 2 ≤ p.op ∧ p.op ≤ 4 then s1.regionRefuses c p else none) with
  | some code => s1.refusePkt i e p code true
  | none =>
    if s1.queueFree (cqtRx c.cqt l) < c.needs p e then
      ((s1.cnCount l 0x28).sendNak i e Code.retryAfter 20).done Code.retryAfter
    else if p.op = 1 then
      (s1.publish (cqtRx c.cqt l) (connPkt s1 i 1 d.length p.imm p.msgLen 0 d)).placed i e p
    else if p.op = 4 then s1.acceptRead i e p
    else
      let t := if p.op = 5 then s1.placeResp i e p d else s1.placeWrite i e p d
      if t.reply.status = Code.deferred then { t with conns := s.conns } else t

/-- CONN_PACKET_RECEIVE: the arrival checks of R355 in their order; the handshake, ACK, NAK and GONE have their own
commands. -/
def execConnPacketReceive (p : Packet) (s : State) : Result :=
  let i := p.dconn
  let l := connLd i
  if ¬ s.connHere p ∨ (6 ≤ p.op ∧ p.op ≤ 11) then .next s.idle
  else if p.op = 0 ∨ 11 < p.op then .next ((s.cnCount l 0x1C).done Code.formatError)
  else if ¬ s.connNamed p then .next (((s.cnCount l 0x10).sendGone p).done Code.connectionClosed)
  else
    let c := s.conn i
    let old := (s.setConn i { c with ackDue := true }).cnCount l 0x14
    match nearest c.cum p.psn with
    | none => .next ((s.cnCount l 0x14).done Code.ok)
    | some e =>
      if e < c.cum then .next (old.done Code.ok)
      else if c.cum + 1024 ≤ e then .next ((s.cnCount l 0x14).done Code.ok)
      else if c.got e then .next (((s.setConn i { c with ackDue := true }).cnCount l 0x18).done Code.ok)
      else match s.connOpen i false e p with
      | none => .next ((s.cnCount l 0x1C).done Code.aeadFail)
      | some d => .next (s.authPkt i e p d)

/-! ### ACK, NAK, GONE, timers -/

/-- CLIM of an ACK (R361): the light die's outstanding grants bound it. -/
def State.climFor (s : State) (i : Nat) : Nat :=
  let c := s.conn i
  let total := ((s.conns.filter (fun e => decide (connLd e.1 = connLd i) && e.2.credit)).map (fun e => e.2.climOut - e.2.cum)).sum
  if ¬ c.credit then 0 else c.cum + (if total ≤ 16384 then max 1 (min 64 (s.fld (Reg.twCc (connLd i)) 23 16)) else 1)

/-- ACK_SEND: an ACK that is due leaves (R362). -/
def execAckSend (conn : BitVec 16) (s : State) : Result :=
  let i := conn.toNat
  let c := s.conn i
  if ¬ c.ackDue ∨ ¬ (c.st = .established ∨ c.st = .paused) then .next s.idle
  else
    let clim := s.climFor i
    let p := s.connPacket i 6 c.peer c.peerConn.toNat 0 0 (c.nextAsn % 2 ^ 24) 0 0 []
    let q := s.connSeal i true c.nextAsn p (be 6 c.cum ++ be 6 clim ++ be 2 (min 65535 c.ece) ++ be 2 0) []
    .next (((s.setConn i { c with ackDue := false, ece := 0, nextAsn := c.nextAsn + 1, climOut := clim }).sendConn i q).done Code.ok)

/-- Steps 1, 2 and 4 of R355 for an ACK or a NAK. -/
def State.answerPkt (s : State) (p : Packet) (op : Nat) (k : State → State) : State :=
  let i := p.dconn
  let l := connLd i
  let c := s.conn i
  if ¬ s.connHere p ∨ p.op ≠ op then s.idle
  else if ¬ s.connNamed p then ((s.cnCount l 0x10).sendGone p).done Code.connectionClosed
  else match nearest (c.lastAsn.getD 0) p.psn with
  | none => (s.cnCount l 0x14).done Code.ok
  | some n =>
    if (match c.lastAsn with | some a => decide (n ≤ a) | none => false) then (s.cnCount l 0x14).done Code.ok
    else match s.connOpen i true n p with
    | none => (s.cnCount l 0x1C).done Code.aeadFail
    | some _ =>
      k ((s.setConn i { c with lastAsn := some n, hsLast := none }).count64 (Reg.cnCnt l 0x00) 1)

/-- The connection moves to credit mode (R361). -/
def State.toCredit (s : State) (i : Nat) : State :=
  if (s.conn i).credit then s
  else (s.setConn i { s.conn i with credit := true, cleanEp := 0, markedEp := 0 }).cnCount (connLd i) 0x30

/-- Present limits of a window in bytes (R360). -/
def clampWin (w : Nat) : Nat := max 8192 (min 4194304 w)

/-- The end of an epoch (R360, R361); `slow`: the smoothed round-trip time is more than 8 µs above the least. -/
def State.epochEnd (s : State) (i : Nat) (slow : Bool) : State :=
  let c := s.conn i
  let marked := decide (0 < c.epMarked)
  let w1 := if marked then c.window * (2 * c.epAcked - c.epMarked) / (2 * c.epAcked) else c.window + 4096
  let w2 := if slow then w1 * 7 / 8 else w1
  let d := { c with
    window := if c.credit then c.window else clampWin w2
    epAcked := 0, epMarked := 0, epEnd := c.nextEpsn
    markedEp := if marked then c.markedEp + 1 else 0, cleanEp := if marked then 0 else c.cleanEp + 1 }
  if c.credit ∧ 64 ≤ d.cleanEp then s.setConn i { d with credit := false, window := 65536, cleanEp := 0 }
  else if ¬ c.credit ∧ max 1 (s.fld (Reg.twCc (connLd i)) 31 24) ≤ d.markedEp then (s.setConn i d).toCredit i
  else s.setConn i d

/-- Messages whose last EPSN lies below CUM are done; a READ waits for its response (R354). -/
def Conn.acked (c : Conn) : Conn :=
  { c with work := c.work.map (fun w =>
      if w.pkts ≠ 0 ∧ w.sent = w.pkts ∧ w.first + w.pkts ≤ c.cumIn ∧ (w.op ≠ 4 ∨ w.code ≠ Code.ok) then { w with done := true }
      else w) }

/-- The oldest packet that waits for no hint is sent again at once where it was sent before the last resend (R363). -/
def State.recoverOld (s : State) (i : Nat) : State :=
  let c := s.conn i
  match c.sent with
  | x :: _ => if x.epsn < c.recover ∧ ¬ x.held ∧ c.st = .established then s.resendPkt i x true else s
  | [] => s

/-- An ACK that advances CUM. -/
def State.advanceCum (s : State) (i cum ece : Nat) (slow : Bool) : State :=
  let c := s.conn i
  let n := cum - c.cumIn
  let d := { c with
    cumIn := cum, sent := c.sent.filter (fun x => decide (cum ≤ x.epsn)), hinted := false
    epAcked := c.epAcked + n, epMarked := c.epMarked + (if 0 < ece then n else 0) }
  let s1 := (s.setConn i d.acked).drainConn i
  let s2 := if c.epEnd < cum then s1.epochEnd i slow else s1
  (s2.recoverOld i).done Code.ok

/-- ACK_RECEIVE (R359–R363). -/
def execAckReceive (p : Packet) (rttExcess : Bool) (s : State) : Result :=
  .next (s.answerPkt p 6 (fun t =>
    let i := p.dconn
    let c := t.conn i
    let cum := fromBE (sub p.payload 0 6)
    let t1 := t.setConn i { c with clim := fromBE (sub p.payload 6 6) }
    if c.cumIn < cum ∧ cum ≤ c.nextEpsn then t1.advanceCum i cum (fromBE (sub p.payload 12 2)) rttExcess
    else t1.done Code.ok))

/-- A NAK with a hint holds the packet; with any other code its message takes the code, and a READ ends with it. -/
def State.nakked (s : State) (i e : Nat) (code : Byte) : State :=
  let c := s.conn i
  if code = Code.contextUnavailable ∨ code = Code.retryAfter then
    (s.setConn i { c with
      hinted := true, sent := c.sent.map (fun x => if x.epsn = e then { x with held := true } else x) }).done Code.ok
  else
    let d := { c with
      hinted := false
      work := c.work.map (fun w =>
        if w.first ≤ e ∧ e < w.first + w.pkts then
          { w with
            code := if w.code = Code.ok then code else w.code, done := w.done || decide (w.op = 4)
            lost := w.lost + w.pktLen (e - w.first) }
        else w) }
    ((s.setConn i d).drainConn i).done Code.ok

/-- NAK_RECEIVE (R9, R363). -/
def execNakReceive (p : Packet) (s : State) : Result :=
  .next (s.answerPkt p 7 (fun t => t.nakked p.dconn (fromBE (sub p.payload 0 6)) (codeOf (p.payload.getD 6 0))))

/-- GONE_RECEIVE: acted on only if SRC and SCONN name the peer of a connection (R365). -/
def execGoneReceive (p : Packet) (s : State) : Result :=
  if ¬ s.connHere p ∨ p.op ≠ 8 then .next s.idle
  else match s.connsWhere (fun c => decide (c.st = .established ∨ c.st = .paused) && decide (c.peer = p.src) &&
      decide (c.peerConn.toNat = p.sconn)) with
  | i :: _ =>
    .next ((((s.endConn i Code.connectionClosed Code.connectionClosed).rootLost i).count64 (Reg.cnCnt (connLd i) 0x00) 1).done
      Code.ok)
  | [] => .next s.idle

/-- RTO_EXPIRE: the connection moves to credit mode, and its oldest packet is sent again, unless a hint holds it (R361, R363). -/
def execRtoExpire (conn : BitVec 16) (s : State) : Result :=
  let i := conn.toNat
  let c := s.conn i
  match c.sent with
  | [] => .next s.idle
  | x :: _ =>
    if c.st ≠ .established then .next s.idle
    else
      let s1 := (s.cnCount (connLd i) 0x2C).toCredit i
      let s2 := s1.setConn i { s1.conn i with cleanEp := 0, recover := c.nextEpsn }
      if x.held then .next (s2.done Code.ok)
      else if (s.resendPkt i x true).reply.status = Code.deferred then .next (s.resendPkt i x true)
      else .next (s2.resendPkt i x true)

/-- NAK_HINT_EXPIRE: the oldest packet held on a hint is sent again, which counts as no retry (R363). -/
def execNakHintExpire (conn : BitVec 16) (s : State) : Result :=
  let i := conn.toNat
  match (s.conn i).sent.find? (fun x => x.held) with
  | none => .next s.idle
  | some x => if (s.conn i).st ≠ .established then .next s.waits else .next (s.resendPkt i x false)

/-- TW_PAUSE_EXPIRE: only hints for longer than TW_PAUSE (R363). -/
def execTwPauseExpire (conn : BitVec 16) (s : State) : Result :=
  let i := conn.toNat
  let c := s.conn i
  if c.st = .established ∧ c.hinted then
    let j := match c.sent.find? (fun x => x.held) with
      | some x => c.work.findIdx (fun w => decide (w.first ≤ x.epsn ∧ x.epsn < w.first + w.pkts))
      | none => 0
    .next ((s.endConnAt i j Code.retryExceeded Code.connectionClosed).done Code.retryExceeded)
  else .next s.idle

/-! ### Barriers of a group (R369–R371) -/

/-- A message for a context, number or INST that is not the present one is dropped and counted (R369). -/
def State.barCurrent (s : State) (ctx num : Byte) (inst : BitVec 16) : Bool :=
  decide (ctx.toNat < 16) && decide (s.fld (Reg.bwCfg ctx.toNat num.toNat) 31 31 = 1) &&
  decide (s.barInstOf ctx.toNat num.toNat = inst)
def State.ctrlStale (s : State) : State := (s.cnCount 0 0x40).done Code.ok

/-- BAR_ARRIVE_RECEIVE at the coordinator. -/
def execBarArriveReceive (src : BitVec 14) (ctx num : Byte) (inst : BitVec 16) (s : State) : Result :=
  if s.barCurrent ctx num inst ∧ s.barCoord ctx.toNat then .next ((s.barCount ctx.toNat num.toNat src).done Code.ok)
  else .next s.ctrlStale

/-- BAR_ARRIVE_RESEND: every 1 ms while the instance waits for its release. -/
def execBarArriveResend (ctx : Fin 16) (num : Fin 256) (s : State) : Result :=
  let a := Reg.bwCfg ctx.val num.val
  if s.fld a 31 31 = 1 ∧ 0 < s.fld a 9 0 ∧ s.fld a 9 0 ≤ s.fld a 25 16 ∧ ¬ s.barCoord ctx.val then
    .next ((s.sendCtrl (some (BitVec.ofNat 14 (s.fld (Reg.bwGrp ctx.val) 29 16))) 1 (s.barBody ctx.val num.val)).done Code.ok)
  else .next s.idle

/-- BAR_RELEASE_RECEIVE. -/
def execBarReleaseReceive (ctx num : Byte) (inst : BitVec 16) (s : State) : Result :=
  if s.barCurrent ctx num inst then .next ((s.barwEnd ctx.toNat num.toNat true).done Code.ok) else .next s.ctrlStale

/-- BAR_CANCEL_RECEIVE. -/
def execBarCancelReceive (ctx num : Byte) (inst : BitVec 16) (s : State) : Result :=
  if s.barCurrent ctx num inst then .next ((s.barwEnd ctx.toNat num.toNat false).done Code.ok) else .next s.ctrlStale

/-- CANCEL of the present instance; on the coordinator of a group barrier BAR_CANCEL is broadcast (R125, R370, R371). -/
def State.barCancel (s : State) (c n : Nat) : State :=
  let s1 := if s.fld (Reg.bwCfg c n) 31 31 = 1 ∧ s.barCoord c then s.sendCtrl none 3 (s.barBody c n) else s
  (s1.barwEnd c n false).done Code.ok

/-- BARRIER_CANCEL. -/
def execBarrierCancel (ctx : Fin 16) (num : Fin 256) (s : State) : Result := .next (s.barCancel ctx.val num.val)

end Sys2Proof.Machine
end

