-- ==== Sys2Proof/Machine/Context.lean ====
section
/-! DEFINITION. Contexts and granules (R375–R394): meanings of CX_CREATE, CX_PARK, PARK_DONE, CX_RESUME, CX_END,
END_DONE, GRANULE_ASSIGN, GRANULE_RELEASE and GRANULE_READ. -/

namespace Sys2Proof.Machine

/-! ### CX_CMD -/

/-- CX_STAT.BUSY. -/
def State.cxBusy (s : State) : Bool := s.fld Reg.cxStat 31 31 = 1

/-- A context command completes: CX_CMD keeps OP and CTX, CX_STAT takes CODE, GO and BUSY read 0 (R378). -/
def State.cxDone (s : State) (op c : Nat) (code : Byte) : State :=
  ((s.setReg Reg.cxCmd (BitVec.ofNat 32 (op * 2 ^ 28 + c))).setReg Reg.cxStat (BitVec.ofNat 32 (code.toNat * 2 ^ 16))).done code

/-- A context command runs on: GO and BUSY read 1 (R378). -/
def State.cxRuns (s : State) (op c : Nat) : State :=
  ((s.setReg Reg.cxCmd (BitVec.ofNat 32 (2 ^ 31 + op * 2 ^ 28 + c))).setFld Reg.cxStat 31 31 1).done Code.ok

/-- The running context command, if it is one of context c, completes. -/
def State.cxEnds (s : State) (c : Nat) (code : Byte) : State :=
  if s.cxBusy ∧ s.fld Reg.cxCmd 3 0 = c then s.cxDone (s.fld Reg.cxCmd 30 28) c code else s.done Code.ok

/-- A slot among these has a PENDING key, or is a memory or integrity slot with an ACTIVE one: GENERATE, VERIFY and COMMIT
answer BUSY (R409). -/
def State.slotsTaken (s : State) (ns : List Nat) : Bool :=
  ns.any (fun n => decide (s.pst n ≠ 0) || (decide ((n - 32) % 14 ≤ 1) && (s.active n).valid))

/-- The checks of CREATE (R378, R390, R415). -/
def State.createCheck (s : State) (c : Nat) : Byte :=
  if s.cst c ≠ CS.absent then Code.busy
  else if s.slotsTaken [slotMem c, slotInt c, slotWrap c] then Code.busy
  else if s.tampered then Code.keyRevoked
  else if s.lc ≠ 2 ∧ s.lc ≠ 3 then Code.lifecycleDenied
  else if pfCtxMax s.profileBody ≤ c then Code.contextUnavailable
  else if s.hub.noCreate then Code.integrityFail
  else if ¬ s.katOk .keyStore ∨ ¬ s.katOk .breakwater then Code.internalError
  else Code.ok

/-- Body of an OWNER_KEYS entry from the owner's two public keys: 97 bytes, then the LMS/HSS key (R419). -/
def ownerKeysBody (keys : Bytes) : Bytes := padTo 97 keys ++ List.replicate 7 0 ++ padTo 56 (keys.drop 97)

/-- CREATE, once the keys stand in slots bound to the context: GEN, an energy count of 0
(R467), an empty log with the owner's keys, the gate, RESIDENT (R379). -/
def State.createCtx (s : State) (c : Nat) (keys : Bytes) : State :=
  let s1 := s.setFld (Reg.ctxStat c) 7 0 ((s.fld (Reg.ctxStat c) 7 0 + 1) % 256)
  let s2 := (((s1.setReg64 (Reg.govEnergy c) 0).setCtx c { CtxSt.zero with ownerKeys := keys }).logClear c).logAdd c 1 168 (ownerKeysBody keys)
  (s2.gateOn c).setCst c CS.resident

/-- Slots of a context command filled: it waits while a key command runs or the source starts; on a failure they are empty again, and
the command completes with its code (R378, R408, R409). -/
def State.cxFill (s : State) (op c : Nat) (ns : List Nat) (k : State → State) : State :=
  if s.hss.run.isSome then s.waits
  else match s.entPort with
  | .stall => s.waits
  | .refused => s.cxDone op c Code.entropyUnavailable
  | .served =>
    let x := s.freshSlots ns
    if x.2 = Code.ok then k x.1 else (ns.foldl (fun t n => t.zeroSlot n) x.1).cxDone op c x.2

/-- CREATE as a command of CX_CMD. -/
def State.cxCreate (s : State) (c : Nat) (keys : Bytes) : State :=
  if s.cxBusy then s.idle
  else if s.createCheck c ≠ Code.ok then s.cxDone 0 c (s.createCheck c)
  else s.cxFill 0 c [slotMem c, slotInt c, slotWrap c] (fun t => (t.createCtx c keys).cxDone 0 c Code.ok)

/-- CX_CREATE. -/
def execCxCreate (ctx : Fin 16) (ownerKeys : Bytes) (s : State) : Result := .next (s.cxCreate ctx.val ownerKeys)

/-- A strand of the context still drains. -/
def State.ctxDrains (s : State) (c : Nat) : Bool :=
  allStrands.any (fun e => s.boundTo c e && decide (s.sst e.1 e.2 = SS.running ∨ s.sst e.1 e.2 = SS.draining))

/-- What follows the drain: strands reset and unbound, their queues emptied, fold-out engines cleared, banks cleared
(R380). -/
def State.leaveDies (s : State) (c : Nat) : State :=
  let s1 := (s.dropStrands c).clearFoldOut c
  s1.freeBanksWhere (fun w => wordOwner w c)

/-- No bank is owned by context c or on its way to it. -/
def State.banksGone (s : State) (c : Nat) : Bool :=
  s.ctxBanksClear c && allBanks.all (fun e => ¬ s.bankComing c e.1 e.2)

/-- The start of PARK: SWITCHING, gate closed, connections paused, strands draining, the wrap key destroyed (R380, R294). -/
def State.startPark (s : State) (c : Nat) : State :=
  let s1 := (((s.setCst c CS.switching).gateOff c).pauseConns c).zeroSlot (slotWrap c)
  let s2 := allStrands.foldl (fun t e => if t.boundTo c e then t.drainWrite e.1 e.2 else t) s1
  let s3 := s2.setCtx c { s2.ctx c with op := .park }
  if s3.ctxDrains c then s3 else s3.leaveDies c

/-- PARK as a command of CX_CMD. -/
def State.cxPark (s : State) (c : Nat) : State :=
  if s.cxBusy then s.idle
  else if s.cst c ≠ CS.resident ∨ s.roundOpen c then s.cxDone 1 c Code.busy
  else if s.hss.run.isSome then s.waits
  else (s.startPark c).cxRuns 1 c

/-- CX_PARK. -/
def execCxPark (ctx : Fin 16) (s : State) : Result := .next (s.cxPark ctx.val)

/-- Record of a PARK or END that is complete (R544). -/
def State.ctxEvent (s : State) (c q kind : Nat) (code : Byte) : State :=
  s.post q { Ev.of 6 kind code 2 0 0 0 with ctx := some c }

/-- The end of PARK: PARKED, a record, CX_STAT and the requests that wait for it (R380). -/
def State.parkDone (s : State) (c : Nat) : State :=
  let s1 := ((s.setCst c CS.parked).setCtx c { s.ctx c with op := .none }).ctxEvent c 0 0x10 Code.ok
  (s1.finish 0x0201 c Code.ok []).cxEnds c Code.ok

/-- PARK_DONE: it waits for the drains and the bank clears. A context that an integrity failure stopped meanwhile stays
FAULTED, and the command ends with that code (R392). -/
def execParkDone (ctx : Fin 16) (s : State) : Result :=
  let c := ctx.val
  .next (if (s.ctx c).op ≠ .park then s.idle
    else if s.cst c ≠ CS.switching then
      ((s.setCtx c { s.ctx c with op := .none }).finish 0x0201 c Code.integrityFail []).cxEnds c Code.integrityFail
    else if s.ctxDrains c then s.waits
    else if ¬ s.banksGone c ∨ allStrands.any (s.boundTo c) then (s.leaveDies c).waits
    else s.parkDone c)

/-- RESUME, once a fresh wrap key stands: the gate, the paused connections, RESIDENT (R382). -/
def State.resumeCtx (s : State) (c : Nat) : State :=
  ((s.gateOn c).resumeConns c).setCst c CS.resident

/-- RESUME as a command of CX_CMD. -/
def State.cxResume (s : State) (c : Nat) : State :=
  if s.cxBusy then s.idle
  else if s.cst c ≠ CS.parked ∨ s.slotsTaken [slotWrap c] then s.cxDone 2 c Code.busy
  else s.cxFill 2 c [slotWrap c] (fun t => (t.resumeCtx c).cxDone 2 c Code.ok)

/-- CX_RESUME. -/
def execCxResume (ctx : Fin 16) (s : State) : Result := .next (s.cxResume ctx.val)

/-- END as a command of CX_CMD: it is accepted while the PARK of the same context runs, and replaces it (R378, R393); the
commands that run in the context end (R476). -/
def State.cxEnd (s : State) (c : Nat) : State :=
  if s.cxBusy ∧ ¬ (s.fld Reg.cxCmd 3 0 = c ∧ s.fld Reg.cxCmd 30 28 = 1) then s.idle
  else if s.cst c = CS.absent then s.cxDone 3 c Code.contextUnavailable
  else if s.cst c = CS.ending then s.cxRuns 3 c
  else ((s.cancelWork c).endContext c Code.ok).cxRuns 3 c

/-- CX_END. -/
def execCxEnd (ctx : Fin 16) (s : State) : Result := .next (s.cxEnd ctx.val)

/-- The end of END: the granules are released, ABSENT, a record with the code that ended the context, CX_STAT and the requests that wait for it
(R393). -/
def State.endDone (s : State) (c : Nat) : State :=
  let code := BitVec.ofNat 8 (s.fld (Reg.ctxStat c) 23 16)
  let s0 := { s with granule := s.granule.filter (fun e => e.2.toNat ≠ c) }
  let s1 := ((s0.setCst c CS.absent).setCtx c CtxSt.zero).ctxEvent c 3 0x11 code
  (s1.finish 0x0202 c Code.ok []).cxEnds c Code.ok

/-- END_DONE: it waits for the bank clears. -/
def execEndDone (ctx : Fin 16) (s : State) : Result :=
  let c := ctx.val
  .next (if s.cst c ≠ CS.ending then s.idle
    else if ¬ s.banksGone c then (s.leaveDies c).waits
    else s.endDone c)

/-! ### Granules (R385, R387) -/

/-- BW_GR_CTL takes OP and keeps OWNER; BW_GR_STAT takes CODE and OWNER; GO and BUSY read 0. -/
def State.grDone (s : State) (op owner : Nat) (code : Byte) : State :=
  let s1 := s.setReg Reg.bwGrCtl (BitVec.ofNat 32 (op * 2 ^ 29 + s.fld Reg.bwGrCtl 28 24 * 2 ^ 24))
  (s1.setReg Reg.bwGrStat (BitVec.ofNat 32 (code.toNat * 2 ^ 16 + owner))).done code

/-- First granule address, granule count and owner. -/
def State.grStart (s : State) : Nat := s.reg64 Reg.bwGrStartLo % 2 ^ 48
def State.grCount (s : State) : Nat := s.fld Reg.bwGrCount 16 0
def State.grOwner (s : State) : Nat := s.fld Reg.bwGrCtl 28 24

/-- Checks 1 and 2 of R387. -/
def State.grCheck (s : State) (read : Bool) : Byte :=
  let n := if read then 1 else s.grCount
  if s.grStart % 0x200000 ≠ 0 then Code.formatError
  else if ¬ read ∧ (n = 0 ∨ 129024 < n ∨ 18 < s.grOwner ∨ (s.grOwner < 16 ∧ ¬ s.ctxLive s.grOwner)) then Code.formatError
  else if ¬ grFits s.part s.grStart n then Code.accessBounds
  else Code.ok

/-- A granule of the range has an owner that satisfies p. -/
def State.grAny (s : State) (a n : Nat) (p : Nat → Bool) : Bool :=
  s.granule.any (fun e => decide (a / 0x200000 ≤ e.1 ∧ e.1 < a / 0x200000 + n) && p e.2.toNat)

/-- The major counter of each of n level-0 blocks from block k rises. -/
def raiseMajors (t : Table (BitVec 58)) (k : Nat) : Nat → Table (BitVec 58)
  | 0 => t
  | n + 1 => raiseMajors (t.put (fun _ => 0) k (t.get (fun _ => 0) k + 1)) (k + 1) n

/-- The level-0 blocks of a range are changed nodes, save those that fail their check: a failed node stays failed (R389, R390). -/
def markDirty (s : State) (t : Table Bool) (a : Nat) : Nat → Table Bool
  | 0 => t
  | n + 1 =>
    let d := a / s.part.block
    let o := a % s.part.block
    markDirty s (if (s.badPath d o).isNone then t.put (fun _ => false) (nodeKey d 0 o) true else t) (a + 4096) n

/-- ASSIGN of n granules from address a: the owner, the major counters, the minor counters (R387). -/
def State.grAssign (s : State) (a n owner : Nat) : State :=
  { s with
    granule := Table.putList (fun _ => (31 : BitVec 5)) s.granule (a / 0x200000) (List.replicate n (BitVec.ofNat 5 owner))
    major := raiseMajors s.major (a / 4096) (512 * n)
    minor := s.minor.clear (fun k => decide (a / 64 ≤ k ∧ k < a / 64 + 32768 * n))
    dirty := markDirty s s.dirty a (512 * n) }

/-- Two address ranges meet. -/
def meets (a n b m : Nat) : Bool := decide (a < b + m) && decide (b < a + n)

/-- The range lies under a region that is not FREE or an evaluation-key entry that is ACTIVE or RETIRING (R387). -/
def State.grHeld (s : State) (a n : Nat) : Bool :=
  s.regions.any (fun e => decide (e.2.st ≠ 0) && meets a (n * 0x200000) e.2.base.toNat e.2.length.toNat) ||
  s.evk.any (fun e => decide (e.2.st ≠ 0) && meets a (n * 0x200000) e.2.base.toNat e.2.length.toNat)

/-- RELEASE of n granules: FREE; their lines stay as they are (R387). -/
def State.grRelease (s : State) (a n : Nat) : State :=
  { s with granule := s.granule.clear (fun k => decide (a / 0x200000 ≤ k ∧ k < a / 0x200000 + n)) }

/-- GRANULE_ASSIGN. -/
def execGranuleAssign (s : State) : Result :=
  .next (if s.grCheck false ≠ Code.ok then s.grDone 0 0 (s.grCheck false)
    else if s.grAny s.grStart s.grCount (fun _ => true) then s.grDone 0 0 Code.busy
    else (s.grAssign s.grStart s.grCount s.grOwner).grDone 0 0 Code.ok)

/-- GRANULE_RELEASE. -/
def execGranuleRelease (s : State) : Result :=
  .next (if s.grCheck false ≠ Code.ok then s.grDone 1 0 (s.grCheck false)
    else if s.grAny s.grStart s.grCount (fun o => decide (o ≠ s.grOwner)) ∨ s.grHeld s.grStart s.grCount then
      s.grDone 1 0 Code.busy
    else (s.grRelease s.grStart s.grCount).grDone 1 0 Code.ok)

/-- GRANULE_READ. -/
def execGranuleRead (s : State) : Result :=
  .next (if s.grCheck true ≠ Code.ok then s.grDone 2 0 (s.grCheck true)
    else s.grDone 2 (s.granuleOf s.grStart) Code.ok)

end Sys2Proof.Machine
end

