-- ==== Sys2Proof/Machine/Evk.lean ====
section
/-! DEFINITION. The evaluation-key registry (R240–R243): meanings of EK_ENTER, EK_RETIRE, EK_READ and EVK_RETIRE_DONE. -/

namespace Sys2Proof.Machine

def State.evkEnt (s : State) (c i : Nat) : EvkEnt := s.evk.get (fun _ => EvkEnt.zero) (c * 64 + i)
def State.setEvk (s : State) (c i : Nat) (e : EvkEnt) : State :=
  { s with evk := s.evk.put (fun _ => EvkEnt.zero) (c * 64 + i) e }

/-- EK_DATA as it stands. -/
def State.ekStaged (s : State) : Bytes := ((List.range 8).map (fun i => le 4 (s.reg (Reg.ekData i)).toNat)).flatten

/-- A command completes: EK_CTL keeps OP, CTX and INDEX; EK_STAT takes the entry's state, CODE and INUSE. -/
def State.ekDone (s : State) (op c i : Nat) (code : Byte) : State :=
  let e := s.evkEnt c i
  let s1 := s.setReg Reg.ekCtl (BitVec.ofNat 32 (op * 2 ^ 26 + c * 2 ^ 16 + i))
  (s1.setReg Reg.ekStat (BitVec.ofNat 32 (e.st.toNat * 2 ^ 29 + code.toNat * 2 ^ 16 + e.inuse % 256))).done code

/-- GALOIS of a purpose in a set: odd and below 2^(LOGN+1) for GALOIS (2), zero otherwise (R238, R239). -/
def evkGaloisOk (purpose galois logn : Nat) : Bool :=
  if purpose = 2 then decide (galois % 2 = 1 ∧ galois < 2 ^ (logn + 1)) else decide (galois = 0)

/-- PURPOSE, PARAMSET and GALOIS are in range in a context. -/
def State.evkFieldsOk (s : State) (c purpose paramset galois : Nat) : Bool :=
  decide (1 ≤ purpose ∧ purpose ≤ 5) &&
  (match s.pset c paramset with
   | some p => evkGaloisOk purpose galois p.logn
   | none => false)

/-- The range meets an entry that is not EMPTY, of any context. -/
def State.evkMeets (s : State) (a n : Nat) : Bool :=
  s.evk.any (fun e => decide (e.2.st ≠ 0) && meets a n e.2.base.toNat e.2.length.toNat)

/-- The fields of EK_DATA are out of range, or the range overlaps an entry (R240). -/
def State.ekBad (s : State) (c : Nat) (b : Bytes) : Bool :=
  decide (field b 0 8 ≥ 2 ^ 48 ∨ field b 0 8 % 64 ≠ 0 ∨ field b 8 8 % 64 ≠ 0 ∨ field b 8 8 = 0 ∨ field b 0x19 3 ≠ 0) ||
  !s.evkFieldsOk c (field b 0x18 1) (field b 0x16 2) (field b 0x1C 4) || s.evkMeets (field b 0 8) (field b 8 8)

/-- The entry that 32 bytes of EK_DATA describe, ACTIVE. -/
def ekEntry (b : Bytes) (digest : BitVec 384) : EvkEnt :=
  { st := 1, base := BitVec.ofNat 48 (field b 0 8), length := BitVec.ofNat 64 (field b 8 8)
    keytag := BitVec.ofNat 48 (field b 0x10 6), paramset := BitVec.ofNat 16 (field b 0x16 2)
    purpose := BitVec.ofNat 8 (field b 0x18 1), galois := BitVec.ofNat 32 (field b 0x1C 4), inuse := 0, digest := digest }

/-- The 32 bytes that READ shows of an entry. -/
def EvkEnt.bytes (e : EvkEnt) : Bytes :=
  le 8 e.base.toNat ++ le 8 e.length.toNat ++ le 6 e.keytag.toNat ++ le 2 e.paramset.toNat ++ [e.purpose, 0, 0, 0] ++
  le 4 e.galois.toNat

/-- EK_ENTER. The entry's digest is that of the key stream as memory holds it. -/
def execEkEnter (ctx : Fin 16) (index : Fin 64) (s : State) : Result :=
  let c := ctx.val
  let b := s.ekStaged
  .next (if ¬ s.ctxLive c then s.ekDone 0 c index.val Code.contextUnavailable
    else if (s.evkEnt c index.val).st ≠ 0 then s.ekDone 0 c index.val Code.busy
    else if s.ekBad c b then s.ekDone 0 c index.val Code.formatError
    else
      let e := ekEntry b (Config.sha384 (s.bytes (field b 0 8) (field b 8 8)))
      (s.setEvk c index.val e).ekDone 0 c index.val Code.ok)

/-- ACTIVE to RETIRING (R243). -/
def State.retireEvk (s : State) (c i : Nat) : State := s.setEvk c i { s.evkEnt c i with st := 2 }

/-- EK_RETIRE of an ACTIVE entry. -/
def execEkRetire (ctx : Fin 16) (index : Fin 64) (s : State) : Result :=
  let c := ctx.val
  .next (if ¬ s.ctxLive c then s.ekDone 1 c index.val Code.contextUnavailable
    else if (s.evkEnt c index.val).st ≠ 1 then s.ekDone 1 c index.val Code.formatError
    else (s.retireEvk c index.val).ekDone 1 c index.val Code.ok)

/-- EK_READ. -/
def execEkRead (ctx : Fin 16) (index : Fin 64) (s : State) : Result :=
  let c := ctx.val
  .next (if ¬ s.ctxLive c then s.ekDone 2 c index.val Code.contextUnavailable
    else
      let b := (s.evkEnt c index.val).bytes
      let s1 := (List.range 8).foldl (fun t i => t.setReg (Reg.ekData i) (BitVec.ofNat 32 (field b (4 * i) 4))) s
      s1.ekDone 2 c index.val Code.ok)

/-- Body of an EVK or EVK_RETIRED entry of the log (R419). -/
def evkLogBody (e : EvkEnt) : Bytes :=
  [e.purpose, 0] ++ le 2 e.paramset.toNat ++ le 4 e.galois.toNat ++ le 6 e.keytag.toNat ++ [0, 0] ++ digestBytes e.digest

/-- EVK_RETIRE_DONE: a RETIRING entry that nothing streams from becomes EMPTY, the log takes an EVK_RETIRED entry, and the
request completes (R243); while the log has no room the retire does not complete (R419). -/
def execEvkRetireDone (ctx : Fin 16) (index : Fin 64) (s : State) : Result :=
  let c := ctx.val
  let e := s.evkEnt c index.val
  .next (if e.st ≠ 2 ∨ e.inuse ≠ 0 then s.idle
    else if ¬ s.logFits c 72 then s.waits
    else
      let s1 := (s.setEvk c index.val EvkEnt.zero).logAdd c 4 72 (evkLogBody e)
      (s1.finishArg 0x0401 (some c) index.val Code.ok []).done Code.ok)

end Sys2Proof.Machine
end

