-- ==== Sys2Proof/Machine/Keys.lean ====
section
/-! DEFINITION. The key store's commands (R408–R418): meanings of KEY_GENERATE, KEY_VERIFY, KEY_COMMIT, KEY_DISCARD,
KEY_INVALIDATE, KEY_CMD_STATEMENT, KEY_PUBLIC and HSS_TREE_BUILD_DONE. -/

namespace Sys2Proof.Machine





/-! ### GENERATE, VERIFY, COMMIT, DISCARD, INVALIDATE (R409) -/

/-- Slots that GENERATE never fills: derived, CAK, reserved, released. -/
def noGenerate (n : Nat) : Bool := decide (n ≤ 3 ∨ (8 ≤ n ∧ n ≤ 15) ∨ (27 ≤ n ∧ n ≤ 31)) || releasedSlot n

/-- The PENDING attributes are what R406 fixes for the slot, ORIGIN 0 among them. -/
def State.attrFits (s : State) (n : Nat) : Bool :=
  match slotAttr n with
  | some a => decide ((s.pendingKey n).attr ||| 0x80000000 = a)
  | none => false

/-- KEY_GENERATE: the root reseeds first, and may fail in that (R425, R430). -/
def execKeyGenerate (slot : Fin 256) (s : State) : Result :=
  let n := slot.val
  .next (s.keyCmdRun 0 n (fun s =>
    if noGenerate n ∨ ¬ s.attrFits n then s.keyDone 0 n Code.attributeDenied
    else if s.pst n ≠ 0 then s.keyDone 0 n Code.busy
    else match s.entPort with
    | .stall => s.keyWaits 0 n
    | .refused => s.keyDone 0 n Code.entropyUnavailable
    | .served =>
      let t := s.reseedRoot
      if ¬ t.entRunning then t.keyDone 0 n Code.entropyUnavailable
      else
        let k : KeyHalf := ⟨(t.pendingKey n).attr ||| 0x80000000, t.freshKey, 0⟩
        (((t.setPendingKey n k).draw Port.keyStore 8).setPstate n 1).keyDone 0 n Code.ok))


/-- VERIFY: PSTATE VERIFIED, or the half is emptied. -/
def State.verifySlot (s : State) (n : Nat) : State :=
  (if s.answers (s.pendingKey n) then s.setPstate n 2 else (s.setPendingKey n KeyHalf.zero).setPstate n 0).took 4

/-- KEY_VERIFY. -/
def execKeyVerify (slot : Fin 256) (s : State) : Result :=
  let n := slot.val
  .next (s.keyCmdRun 1 n (fun s =>
    if s.pst n ≠ 1 then s.keyDone 1 n Code.busy
    else if s.answers (s.pendingKey n) then (s.verifySlot n).keyDone 1 n Code.ok
    else (s.verifySlot n).keyDone 1 n Code.signatureFail))

/-- Memory and integrity slots (R409). -/
def memSlot (n : Nat) : Bool := decide (16 ≤ n ∧ n ≤ 21) || (decide (32 ≤ n) && decide ((n - 32) % 14 ≤ 1))

/-- COMMIT: the halves swap and the old ACTIVE half is zeroed; a PERSIST slot is sealed (R409, R413). -/
def State.commitSlot (s : State) (n : Nat) : State :=
  (((s.setActive n (s.pendingKey n)).setPendingKey n KeyHalf.zero).setPstate n 0).sealSlot n

/-- KEY_COMMIT. -/
def execKeyCommit (slot : Fin 256) (s : State) : Result :=
  let n := slot.val
  .next (s.keyCmdRun 2 n (fun s =>
    if s.pst n ≠ 2 ∨ (memSlot n ∧ (s.active n).valid) then s.keyDone 2 n Code.busy
    else (s.commitSlot n).keyDone 2 n Code.ok))

/-- KEY_DISCARD. -/
def execKeyDiscard (slot : Fin 256) (s : State) : Result :=
  let n := slot.val
  .next (s.keyCmdRun 3 n (fun s => ((s.setPendingKey n KeyHalf.zero).setPstate n 0).keyDone 3 n Code.ok))

/-- INVALIDATE: both halves zero, a sealed copy erased; with a memory or integrity key of a context its connections end (R365). -/
def State.invalidateSlot (s : State) (n : Nat) : State :=
  let s1 := s.zeroSlot n
  let s2 := { s1 with boot := { s1.boot with sealed := s1.boot.sealed.del n } }
  if memSlot n then s2.endConns ((n - 32) / 14) else s2

/-- KEY_INVALIDATE: ignored while another command runs; it does not wait for a failed engine (R408, R486). -/
def execKeyInvalidate (slot : Fin 256) (s : State) : Result :=
  let n := slot.val
  .next (if s.keyOther 4 n then s.idle
    else if n < 32 then s.keyDone 4 n Code.attributeDenied else (s.invalidateSlot n).keyDone 4 n Code.ok)

/-! ### Public keys and signatures (R416–R418) -/


/-- Bytes padded with zeros to a multiple of 8. -/
def pad8 (b : Bytes) : Bytes := padTo ((b.length + 7) / 8 * 8) b

/-- The leaf counter has reached 2^30 (R417). -/
def State.leavesOut (s : State) : Bool := decide (2 ^ 30 ≤ s.hss.counter)

/-- The next leaf. -/
def State.leaf (s : State) : Nat := if s.hss.block = 0 then s.hss.counter else s.hss.counter - s.hss.block

/-- The next leaf needs a block, and the flash write that reserves it fails (R417); whether it does is a free value. -/
def State.leafFails (s : State) : Bool := decide (s.hss.block = 0) && Config.leafWriteFails s.freeCtr

/-- A leaf is taken: a block of 64 is reserved first where none is left, and the counter written past it; after the last
leaf of a lower tree the next tree has to be built (R417). -/
def State.takeLeaf (s : State) : State :=
  let h : HssSt := if s.hss.block = 0 then { s.hss with counter := s.hss.counter + 64, block := 64 } else s.hss
  { s with hss := { h with block := h.block - 1, tree := h.tree && decide ((s.leaf + 1) % 32768 ≠ 0) } }.took 1

/-- The alias certificate as it stands (R416). -/
def State.aliasCert (s : State) : Bytes :=
  Config.aliasCert (s.measured Reg.mRom ++ s.measured Reg.mFs ++ s.measured Reg.mHub ++ s.measured Reg.mDaxna ++
    le 1 s.lc ++ (s.active 1).public)

/-- Both signatures over signed bytes: ECDSA by ALIAS, 96 bytes, then HSS by DEVICE_HSS, 3,292 bytes (R417). -/
def State.signBoth (s : State) (b : Bytes) : Bytes :=
  padTo 96 (Config.ecdsaSign (s.active 1).mat b) ++ padTo 3292 (Config.lmsSign (s.active 2).mat s.leaf b)

/-- What a request for both signatures answers before it runs: KEY_REVOKED while TAMPERED, or with the leaves used up, or
with no identity; INTERNAL_ERROR with the public-key engine failed. -/
def State.signCheck (s : State) : Byte :=
  if s.tampered ∨ s.leavesOut ∨ ¬ (s.active 1).valid ∨ ¬ (s.active 2).valid then Code.keyRevoked
  else if ¬ s.katOk .publicKey then Code.internalError
  else Code.ok

/-- Signatures wait while the lower tree is built (R417) and while the entropy port stalls; `refuse` answers a source that
gives no output, and a failed write of the leaf counter, which withholds the signature. -/
def State.signed (s wait : State) (refuse : Byte → State → State) (k : State → State) : State :=
  if ¬ s.hss.tree then wait
  else match s.entPort with
  | .stall => wait
  | .refused => refuse Code.entropyUnavailable s
  | .served => if s.leafFails then refuse Code.internalError (s.took 1) else k s

/-- The statement of a slot over a nonce: its signed bytes, then both signatures (R418). -/
def State.statement (s : State) (n : Nat) (nonce : Bytes) : Bytes :=
  let k := s.active n
  let pub := k.public
  let kcv : DWord := if k.typ ≤ 2 then k.kcvOf else 0
  let body := le 4 0x4B535431 ++ le 2 1 ++ le 1 n ++ le 1 s.lc ++ le 4 k.attr.toNat ++ le 2 pub.length ++ [0, 0] ++
    padTo 32 nonce ++ le 4 (s.reg (Reg.twGroup 0)).toNat ++ le 2 s.ownId ++ [0, 0] ++ le 4 s.leaf ++ le 4 0 ++
    shaBytes s.aliasCert ++ le 8 kcv.toNat ++ le 8 0 ++ pad8 pub
  body ++ s.signBoth body

/-- KEY_BUF names the secure world's part of hub SRAM, on 64 bytes. -/
def State.keyBufOk (s : State) (n : Nat) : Bool :=
  decide (s.fld Reg.keyBuf 25 0 % 64 = 0) && secureHub (s.fld Reg.keyBuf 25 0) n

/-- KEY_CMD_STATEMENT. -/
def execKeyCmdStatement (slot : Fin 256) (s : State) : Result :=
  let n := slot.val
  let o := s.fld Reg.keyBuf 25 0
  .next (s.keyCmdRun 5 n (fun s =>
    if ¬ (s.active n).valid then s.keyDone 5 n Code.keyRevoked
    else if s.signCheck ≠ Code.ok then s.keyDone 5 n s.signCheck
    else if ¬ s.keyBufOk (s.statement n (s.hubBytes o 32)).length then s.keyDone 5 n Code.formatError
    else s.signed (s.keyWaits 5 n) (fun code t => t.keyDone 5 n code)
      (fun t => (((t.hubStore o (t.statement n (t.hubBytes o 32))).takeLeaf).draw Port.publicKey 6).keyDone 5 n Code.ok)))

/-- KEY_PUBLIC. -/
def execKeyPublic (slot : Fin 256) (s : State) : Result :=
  let n := slot.val
  let k := s.active n
  .next (s.keyCmdRun 6 n (fun s =>
    if ¬ k.valid ∨ s.tampered then s.keyDone 6 n Code.keyRevoked
    else if k.typ ≤ 2 ∨ ¬ s.keyBufOk k.public.length then s.keyDone 6 n Code.formatError
    else (s.hubStore (s.fld Reg.keyBuf 25 0) k.public).keyDone 6 n Code.ok))

/-- HSS_TREE_BUILD_DONE: the lower tree stands. -/
def execHssTreeBuildDone (s : State) : Result := .next ({ s with hss := { s.hss with tree := true } }.done Code.ok)

end Sys2Proof.Machine
end

