-- ==== Sys2Proof/Machine/Mgmt.lean ====
section
/-! DEFINITION. The management port and the commands of PMP that concern the module and its contexts (R396–R402, R421,
R473–R485, R532): meanings of MKA_LIVE to CONTEXT_STATUS, PMP_CONNECTION_END and MALFORMED_PMP_REQUEST. -/

namespace Sys2Proof.Machine

/-! ### The port (R396–R398, R473, R474) -/

def State.setAdm (s : State) (x : AdmSt) : State := { s with mgmt := { s.mgmt with adm := x } }

/-- MKA has a CAK: slot 8 in OWNED and OWNED_DEBUG, the bootstrap CAK otherwise (R533, R538), none while TAMPERED (R415);
Daxna runs (R526). -/
def State.cakThere (s : State) : Bool :=
  !s.tampered && decide (4 ≤ s.boot.next) && (if s.lc = 2 ∨ s.lc = 3 then (s.active 8).valid else true)

/-- MKA_LIVE. -/
def execMkaLive (sakInstalled : Bool) (s : State) : Result :=
  if s.mgmt.adm = .down ∧ sakInstalled ∧ s.cakThere then .next ((s.setAdm .secured).done Code.ok) else .next s.idle

/-- MGMT_LINK_LOSS: DOWN from any state; nothing passes any more, so the TCP connections end (R396, R397). -/
def execMgmtLinkLoss (s : State) : Result :=
  let s1 := (s.setAdm .down).orphans (fun _ => true)
  .next ({ s1 with mgmt := { s1.mgmt with conns := [] } }.done Code.ok)

/-- ADMISSION_EXPIRE. -/
def execAdmissionExpire (s : State) : Result :=
  if s.mgmt.adm = .admitted then .next (((s.setAdm .secured).post 3 (Ev.of 6 0x15 Code.ok 4 0 0 0)).done Code.ok)
  else .next s.idle

/-- NONCE_EXPIRE (R402). -/
def execNonceExpire (n : BitVec 64) (s : State) : Result :=
  .next ({ s with mgmt := { s.mgmt with nonces := s.mgmt.nonces.filter (fun x => x ≠ n) } }.done Code.ok)

/-- PMP_CONNECT: one of 8 places, or a refusal (R473). -/
def execPmpConnect (s : State) : Result :=
  if s.mgmt.adm = .down then .next s.idle
  else if s.hub.reset.isSome then .next s.waits
  else match (List.finRange 8).find? (fun k => decide (k ∉ s.mgmt.conns)) with
  | some k => .next ({ s with mgmt := { s.mgmt with conns := s.mgmt.conns ++ [k] } }.val k.val)
  | none => .next (s.done Code.busy)

/-- PMP_CONNECTION_END (R473, R477). -/
def execPmpConnectionEnd (conn : Fin 8) (s : State) : Result :=
  let s1 := s.orphans (fun k => decide (k = conn.val))
  .next ({ s1 with mgmt := { s1.mgmt with conns := s1.mgmt.conns.filter (fun k => k ≠ conn) } }.done Code.ok)

/-- MALFORMED_PMP_REQUEST: FORMAT_ERROR, or BUSY from its header alone (R474). -/
def execMalformedPmpRequest (conn : Fin 8) (reqId : BitVec 64) (s : State) : Result :=
  if s.mgmt.adm = .down ∨ conn ∉ s.mgmt.conns then .next s.idle
  else if s.hub.reset.isSome then .next s.waits
  else if 64 ≤ s.outstanding conn.val then .next (s.pmpSend 0 reqId 2 Code.busy [])
  else .next (s.pmpSend 0 reqId 2 Code.formatError [])

/-- PMP_DEFERRED: an outstanding request gets an interim response (R474). -/
def execPmpDeferred (p : PmpReq) (s : State) : Result :=
  if s.mgmt.pending.any (fun w => decide (w.ident = p.ident ∧ w.reqId = p.reqId ∧ w.conn ≠ noConn)) ∧ s.hub.reset.isNone then
    .next (s.pmpSend p.ident p.reqId 1 Code.deferred [])
  else .next s.idle

/-! ### Attestation and admission -/

/-- Bytes as a response body. -/
def toBody (b : Bytes) : List Nat := b.map (fun x => x.toNat)

/-- A certificate in the chain: its length, then it, padded to a multiple of 8 (R421). -/
def chainEntry (c : Bytes) : Bytes := pad8 (le 4 c.length ++ c)

def State.certChain (s : State) : Bytes :=
  chainEntry Config.deviceCerts.1 ++ chainEntry Config.deviceCerts.2 ++ chainEntry s.aliasCert

/-- A log as R419 lays it out: KIND, zero, LEN, SEQ, body. -/
def logBytes : Nat → List LogEntry → Bytes
  | _, [] => []
  | i, e :: t => [e.kind, 0] ++ le 2 e.len ++ le 4 i ++ e.body ++ logBytes (i + 1) t

/-- A context's section: header and whole log. -/
def State.ctxSection (s : State) (c : Nat) : Bytes :=
  le 1 c ++ le 1 (s.cst c) ++ le 1 (s.fld (Reg.ctxStat c) 7 0) ++ [0] ++ le 4 (s.ctx c).log.length ++ le 4 (s.logUsed c) ++
  le 4 0 ++ logBytes 0 (s.ctx c).log

/-- Contexts that are not ABSENT, and those of them in a mask. -/
def State.ctxsIn (s : State) (m : Nat) : List Nat := (List.range 16).filter (fun c => m.testBit c && decide (s.cst c ≠ CS.absent))
def maskOf (l : List Nat) : Nat := (l.map (fun c => 2 ^ c)).sum

/-- The signed bytes of a report (R421). -/
def State.reportBody (s : State) (nonce : Bytes) (m : Nat) : Bytes :=
  let chain := s.certChain
  let secs := ((s.ctxsIn m).map s.ctxSection).flatten
  le 4 0x41545231 ++ le 2 1 ++ le 1 s.lc ++ le 1 (b2n (decide (s.lc = 0 ∨ s.lc = 3))) ++
  le 4 (0x150 + chain.length + secs.length) ++ le 4 3292 ++ padTo 32 nonce ++ le 4 (s.reg (Reg.twGroup 0)).toNat ++
  le 2 s.ownId ++ le 2 (maskOf (s.ctxsIn 0xFFFF)) ++ le 2 (maskOf (s.ctxsIn m)) ++ [0, 0] ++ le 4 s.part.caps.toNat ++
  le 4 s.leaf ++ le 4 chain.length ++ le 4 s.boot.fuses.rbFs ++ le 4 s.boot.fuses.rbHub ++ le 4 s.boot.fuses.rbDaxna ++
  List.replicate 12 0 ++ s.measured Reg.mProfile ++ s.measured Reg.mRom ++ s.measured Reg.mFs ++ s.measured Reg.mHub ++
  s.measured Reg.mDaxna ++ chain ++ secs

/-- The report with both signatures. -/
def State.report (s : State) (nonce : Bytes) (m : Nat) : Bytes := s.reportBody nonce m ++ s.signBoth (s.reportBody nonce m)

/-- A report is issued: one leaf is used, and its digest is the last one issued (R398, R417). -/
def State.issued (s : State) (b : Bytes) : State :=
  let s1 := s.takeLeaf.draw Port.publicKey 6
  { s1 with mgmt := { s1.mgmt with report := Config.sha384 b } }

/-- ATTEST_GET. -/
def execAttestGet (p : PmpReq) (nonce : Bytes) (mask : BitVec 16) (s : State) : Result :=
  .next (s.pmp p 0x0100 false (fun t =>
    if t.signCheck ≠ Code.ok then t.answer p t.signCheck
    else t.signed s.waits (fun code u => u.answer p code) (fun u =>
      let b := u.report nonce mask.toNat
      (u.issued b).final p.ident p.reqId Code.ok (toBody b))))

/-- ADMIT_BEGIN: a report over the operator's nonce, and a fresh N_m (R398). -/
def execAdmitBegin (p : PmpReq) (nonce : Bytes) (s : State) : Result :=
  .next (s.pmp p 0x0101 false (fun t =>
    if t.signCheck ≠ Code.ok then t.answer p t.signCheck
    else t.signed s.waits (fun code u => u.answer p code) (fun r =>
      let b := r.report nonce 0
      let v := r.issued b
      let n := v.drawn Port.daxna 0
      let u := v.draw Port.daxna 1
      { u with mgmt := { u.mgmt with nonceM := some n } }.final p.ident p.reqId Code.ok (toBody (b ++ le 8 n.toNat)))))

/-- An object's two signatures verify under one of the Plostad key sets that KEYSET_REV has not revoked. -/
def State.plostadSet (s : State) (b : Bytes) (g : Sigs) : Bool :=
  [0, 1, 2, 3].any (fun k => decide (s.boot.fuses.keyset.toNat ≤ k) && Config.ecdsaOk (Config.bootKeys k).1 b g.ecdsa &&
    Config.lmsOk (Config.bootKeys k).2 b g.lms)

/-- Both signatures verify under the owner platform keys. -/
def State.ownerSet (s : State) (b : Bytes) (g : Sigs) : Bool :=
  match s.boot.owner with
  | some k => Config.ecdsaOk k.1 b g.ecdsa && Config.lmsOk k.2 b g.lms
  | none => false

/-- The signer of LIFECYCLE envelopes in the present state (R533). -/
def State.platformSigned (s : State) (b : Bytes) (g : Sigs) : Bool :=
  if s.lc ≤ 1 then s.plostadSet b g else if s.lc ≤ 3 then s.ownerSet b g else false

/-- A ticket's signatures: under the admission keys of the active profile, or, with none, the platform's keys (R398, R531,
R538). -/
def State.ticketSigned (s : State) (b : Bytes) (g : Sigs) : Bool :=
  let pb := s.profileBody
  if pb = [] then s.platformSigned b g
  else Config.ecdsaOk (pfAdmEcdsa pb) b g.ecdsa && Config.lmsOk (pfAdmLms pb) b g.lms

/-- A ticket names the last report and the outstanding N_m, and verifies (R398). -/
def State.ticketOk (s : State) (t : Bytes) : Bool :=
  decide (0xA0 < t.length) && decide (field t 0 4 = 0x41444D31) && decide (1 ≤ field t 4 4 ∧ field t 4 4 ≤ 86400) &&
  decide (sub t 8 48 = digestBytes s.mgmt.report) && decide (s.mgmt.nonceM = some (BitVec.ofNat 64 (field t 0x38 8))) &&
  s.ticketSigned (t.take 0x40) ⟨sub t 0x40 96, t.drop 0xA0⟩

/-- ADMIT_TICKET: ADMITTED, or SIGNATURE_FAIL; N_m is discarded in both cases. -/
def execAdmitTicket (p : PmpReq) (ticket : Bytes) (s : State) : Result :=
  .next (s.pmp p 0x0102 false (fun t =>
    let u := { t with mgmt := { t.mgmt with nonceM := none } }
    if t.ticketOk ticket then
      ((u.setAdm .admitted).post 3 (Ev.of 6 0x13 Code.ok 4 0 0 (field ticket 4 4))).answer p Code.ok
    else (u.post 3 (Ev.of 6 0x14 Code.signatureFail 4 0 0 0)).answer p Code.signatureFail))

/-- BOUNCE_NONCE: at most 64 are outstanding, a further one discards the oldest (R402). -/
def execBounceNonce (p : PmpReq) (s : State) : Result :=
  .next (s.pmp p 0x0103 false (fun t =>
    match t.entPort with
    | .stall => s.waits
    | .refused => t.answer p Code.entropyUnavailable
    | .served =>
      let n := t.drawn Port.daxna 0
      let l := t.mgmt.nonces ++ [n]
      let u := t.draw Port.daxna 1
      { u with mgmt := { u.mgmt with nonces := l.drop (l.length - 64) } }.final p.ident p.reqId Code.ok
        (toBody (le 8 n.toNat))))

/-- KEY_STATEMENT (R418). -/
def execKeyStatement (p : PmpReq) (slot : Fin 256) (nonce : Bytes) (s : State) : Result :=
  .next (s.pmp p 0x0104 false (fun t =>
    if ¬ (t.active slot.val).valid then t.answer p Code.keyRevoked
    else if t.signCheck ≠ Code.ok then t.answer p t.signCheck
    else if ¬ t.katOk .keyStore then t.answer p Code.internalError
    else t.signed s.waits (fun code u => u.answer p code) (fun u =>
      ((u.takeLeaf).draw Port.publicKey 6).final p.ident p.reqId Code.ok (toBody (u.statement slot.val nonce)))))

/-! ### The module -/

/-- PROFILE.SET's answer (R532). -/
def State.profileCode (s : State) (slot : Byte) (o : SignedObj) : Byte :=
  let prof := decide (o.kind = 4)
  if ¬ (if prof then s.profileVerifies o else s.imageOk o.kind o) then Code.signatureFail
  else if (prof ∧ (3 < slot.toNat ∨ ¬ profileFits s.part o.body)) ∨ (¬ prof ∧ slot ≠ 0xFF) then Code.formatError
  else if prof ∧ s.boot.profile.isSome ∧ slot.toNat = s.fld Reg.sysProfile 25 24 then Code.busy
  else Code.ok

/-- The object is stored; a profile with ACTIVATE = 1 waits for the next warm reset (R532, R539). -/
def State.storeObj (s : State) (slot activate : Byte) (o : SignedObj) : State :=
  if o.kind = 4 then
    let s1 := s.setFlashObj (6 + slot.toNat) o
    if activate = 1 then (s1.setFld Reg.sysProfile 31 31 1).setFld Reg.sysProfile 29 28 slot.toNat else s1
  else s.setFlashObj (2 * (o.kind - 1) + (1 - s.boot.booted.get (fun _ => 0) o.kind)) o

/-- PROFILE_SET. -/
def execProfileSet (p : PmpReq) (slot activate : Byte) (o : SignedObj) (s : State) : Result :=
  .next (s.pmp p 0x0105 false (fun t =>
    if t.profileCode slot o = Code.ok then (t.storeObj slot activate o).answer p Code.ok
    else t.answer p (t.profileCode slot o)))

/-- What SYS.STATUS returns (R475), then SLOT_ID (R492). -/
def State.sysStatus (s : State) : List Nat :=
  [(s.reg Reg.sysId).toNat, Config.sysRev.toNat, s.part.caps.toNat, (s.reg Reg.lcState).toNat, (s.reg Reg.govStat).toNat,
    (s.reg Reg.govReason).toNat] ++ (List.range 16).map (fun c => (s.reg (Reg.ctxStat c)).toNat) ++ [s.pins.slotId.val]

/-- SYS_STATUS. -/
def execSysStatus (p : PmpReq) (s : State) : Result :=
  .next (s.pmp p 0x0106 false (fun t => t.final p.ident p.reqId Code.ok t.sysStatus))

/-- An operation of ST_CTL, with the codes 4–7 and targets that do not exist completing with FORMAT_ERROR (R478). -/
def State.stOp (s : State) (d op tgt : Nat) : State :=
  if 3 < op ∨ (op = 3 ∧ 24 ≤ tgt) ∨ (op < 3 ∧ 12 ≤ tgt) then s.stRun d (fun t => t.stDone d op tgt Code.formatError 0)
  else if op = 2 then s.replay d tgt
  else if op = 3 then s.bankTest d tgt
  else s.strandTest d op tgt

/-- TEST.RUN of a die's operation on t, the state before with the request accepted: it is answered when the operation
completes (R479); one that waits for its domain or its memory stands as it was. -/
def State.testDie (s t : State) (p : PmpReq) (d op tgt : Nat) : State :=
  if (t.testOf d).isSome then (t.stOp d op tgt).answer p Code.busy
  else
    let u := t.stOp d op tgt
    if (u.testOf d).isSome then (u.waitFor p d).done u.reply.status
    else if u.reply.status = Code.deferred then s.waitsFor u
    else u.final p.ident p.reqId u.reply.status [u.reply.status.toNat, 0]

/-- An engine by its coding in R544. -/
def katOf (n : Fin 3) : KatEngine := if n = 0 then .keyStore else if n = 1 then .publicKey else .breakwater

/-- TEST_RUN. -/
def execTestRun (p : PmpReq) (sel : TestSel) (s : State) : Result :=
  .next (s.pmp p 0x0107 false (fun t =>
    match sel with
    | .die d op tgt => s.testDie t p d.val op.toNat tgt.toNat
    | .hbmRetrain _ => t.final p.ident p.reqId Code.ok [0, 0]
    | .laneRecal k =>
      let u := t.recalLane k.val
      u.final p.ident p.reqId u.reply.status [u.reply.status.toNat, 0]
    | .kat e =>
      let c := if t.katOk (katOf e) then Code.ok else Code.internalError
      t.final p.ident p.reqId c [c.toNat, 0]))

/-- EVENT.READ: up to n records of queue 1 or 2, which it consumes (R475, R481). -/
def State.eventRead (s : State) (p : PmpReq) (q n : Nat) : State :=
  let h := s.fld (Reg.evqHead q) 11 0
  let k := min (min n 1024) (s.fld (Reg.evqStat q) 11 0)
  let b := ((List.range k).map (fun i => s.hubBytes (evqBase q + 64 * ((h + i) % 4096)) 64)).flatten
  ((s.setFld (Reg.evqHead q) 11 0 ((h + k) % 4096)).evqRefresh q).final p.ident p.reqId Code.ok (toBody b)

/-- EVENT_READ. -/
def execEventRead (p : PmpReq) (queue : Byte) (n : Nat) (s : State) : Result :=
  .next (s.pmp p 0x0108 false (fun t =>
    if queue = 1 ∨ queue = 2 then t.eventRead p queue.toNat n else t.answer p Code.formatError))

/-- PMP_RESET: answered first (R475). -/
def execPmpReset (p : PmpReq) (body : Byte) (s : State) : Result :=
  .next (s.pmp p 0x0109 false (fun t =>
    if body = 0 then ((t.answer p Code.ok).warmReset .cmd).done Code.ok
    else if body = 1 then ((t.answer p Code.ok).hubResetStart 2).done Code.ok
    else t.answer p Code.formatError))

/-! ### Contexts -/

/-- CONTEXT_CREATE; it waits while a context command runs. -/
def execContextCreate (p : PmpReq) (ownerKeys : Bytes) (s : State) : Result :=
  .next (s.pmp p 0x0200 true (fun t =>
    if ownerKeys.length ≠ 153 ∧ ownerKeys.length ≠ 145 then t.answer p Code.formatError
    else if t.cxBusy then s.waits
    else
      let u := t.cxCreate p.c ownerKeys
      if u.reply.status = Code.deferred then s.waits else u.answer p u.reply.status))

/-- CONTEXT_SWITCH: PARK is answered when it is done, RESUME at once. -/
def execContextSwitch (p : PmpReq) (resume : Bool) (s : State) : Result :=
  .next (s.pmp p 0x0201 true (fun t =>
    if t.cxBusy then s.waits
    else
      let u := if resume then t.cxResume p.c else t.cxPark p.c
      if u.reply.status = Code.deferred then s.waits
      else if u.cxBusy then u
      else u.answer p u.reply.status))

/-- CONTEXT_REMOVE: answered when END is done; a PARK of the same context gives way to it (R378). -/
def execContextRemove (p : PmpReq) (s : State) : Result :=
  .next (s.pmp p 0x0202 true (fun t =>
    if t.cxBusy ∧ t.fld Reg.cxCmd 3 0 ≠ p.c then s.waits
    else if t.cst p.c = CS.absent then t.answer p Code.contextUnavailable
    else if t.cst p.c = CS.ending then t.done Code.ok
    else t.cxEnd p.c))

/-- CONTEXT_STATUS: CTX_STAT, the count of refused poisoned releases, the free log bytes (R225, R419, R475). -/
def execContextStatus (p : PmpReq) (s : State) : Result :=
  .next (s.pmp p 0x0203 true (fun t =>
    t.final p.ident p.reqId Code.ok [(t.reg (Reg.ctxStat p.c)).toNat, (t.ctx p.c).poisoned, 0x40000 - t.logUsed p.c]))

end Sys2Proof.Machine
end

