-- ==== Sys2Proof/Machine/Bounce.lean ====
section
/-! DEFINITION. Bounce envelopes and the lifecycle (R399–R403, R412, R414, R533–R538): meanings of KEY_RELEASE,
OWNERSHIP_SET, LIFECYCLE_SET, CLIENT_ENROL and PEER_LIST. -/

namespace Sys2Proof

open Machine

def Envelope.op (e : Envelope) : Nat := field e.header 4 1
def Envelope.ctxNo (e : Envelope) : Nat := field e.header 5 1
def Envelope.nonce (e : Envelope) : BitVec 64 := BitVec.ofNat 64 (field e.header 8 8)
/-- Both signatures. -/
def Envelope.sigs (e : Envelope) : Sigs := ⟨e.ecdsa, e.lms⟩

/-- MAGIC, OP, reserved bytes, lengths and CTX of an envelope (R400). -/
def Envelope.ok (e : Envelope) (op : Nat) (ctx : Nat) : Bool :=
  decide (e.header.length = 128 ∧ field e.header 0 4 = 0x424E4331 ∧ e.op = op ∧ e.ctxNo = ctx) && zeroAt e.header 6 2 &&
  zeroAt e.header 0x79 7 && decide (field e.header 0x10 4 = e.cipher.length ∧ 16 ≤ e.cipher.length ∧ e.cipher.length ≤ 1048064) &&
  decide (field e.header 0x14 4 = e.lms.length ∧ e.ecdsa.length = 96)

end Sys2Proof

namespace Sys2Proof.Machine

/-- OP is permitted in the lifecycle state (R535). -/
def opInState (op lc : Nat) : Bool :=
  if op = 3 then decide (lc = 1) else if op = 4 then decide (lc < 4) else decide (lc = 2 ∨ lc = 3)

/-- Step 4 of R401: the context owner's keys, or the platform's keys of the present state (R533). -/
def State.envSigned (s : State) (e : Envelope) (op c : Nat) : Bool :=
  let b := e.header ++ e.cipher
  if op = 3 ∨ op = 4 then s.platformSigned b e.sigs
  else
    let k := (s.ctx c).ownerKeys
    Config.ecdsaOk (k.take 97) b e.ecdsa && Config.lmsOk (k.drop 97) b e.lms

/-- Step 5: HPKE open with the bounce key (R400, R407). -/
def State.envOpen (s : State) (e : Envelope) : Option Bytes :=
  Config.hpkeOpen (s.active 7).mat (sub e.header 0x18 97)
    (ascii "A9 bounce v1" ++ le 1 e.op ++ le 1 e.ctxNo ++ sub e.header 8 8) e.header e.cipher

/-- The small buffer that an envelope stands in, zeroed once it has been handled (R399; notes/assumptions/73.md). -/
def State.bounceZero (s : State) : State :=
  { s with hubMem := Table.clear (fun o => decide (0x3A00000 ≤ o ∧ o < 0x3B00000)) s.hubMem }

/-- An envelope, opened in the order of R401; `k` takes the plaintext. Its buffer is zeroed whatever the outcome (R399). -/
def State.envelope (s : State) (p : PmpReq) (e : Envelope) (op : Nat) (named : Bool) (k : Bytes → State → State) : State :=
  (if ¬ e.ok op (if named then p.c else 0) then s.answer p Code.formatError
  else if named ∧ ¬ s.ctxLive p.c then s.answer p Code.contextUnavailable
  else if e.nonce ∉ s.mgmt.nonces then s.answer p Code.formatError
  else
    let t := { s with mgmt := { s.mgmt with nonces := s.mgmt.nonces.filter (fun n => n ≠ e.nonce) } }
    if ¬ opInState op t.lc then t.answer p Code.lifecycleDenied
    else if ¬ t.envSigned e op p.c then t.answer p Code.signatureFail
    else if ¬ t.katOk .publicKey then t.answer p Code.internalError
    else if t.keyUse 7 4 .hubSecure none ≠ Code.ok then t.answer p (t.keyUse 7 4 .hubSecure none)
    else match t.envOpen e with
    | none => t.answer p Code.aeadFail
    | some b => k b t).bounceZero

/-! ### KEY_RELEASE (R412) -/

/-- The attribute word of a released key. -/
def relAttr (b : Bytes) : Word := BitVec.ofNat 32 (field b 4 4)

/-- Contents of an 80-byte KEY_RELEASE plaintext. -/
def releaseFormatOk (b : Bytes) : Bool :=
  decide (b.length = 80 ∧ 4 ≤ field b 0 1 ∧ field b 0 1 ≤ 13) && zeroAt b 1 3 && !(bit (relAttr b) 31) &&
  decide (relAttr b &&& 0x0000C080 = 0)

/-- The attributes that R412 allows for context c. -/
def releaseAttrOk (b : Bytes) (c : Nat) : Bool :=
  let a := relAttr b
  decide (bits a 30 28 = 0 ∨ bits a 30 28 = 2) && bit a 26 && !(bit a 27) && bit a 25 && decide (bits a 24 21 = c) &&
  decide (bits a 13 8 ≠ 0 ∧ bits a 13 8 &&& 0x3A = 0) && decide (bits a 20 16 ≠ 0 ∧ bits a 20 16 &&& 0x13 = 0)

/-- The key goes to PENDING, is verified and committed; a VERIFY failure leaves the slot's old key (R412). -/
def State.releaseKey (s : State) (p : PmpReq) (b : Bytes) : State :=
  let n := slotMem p.c + field b 0 1
  let k : KeyHalf := ⟨relAttr b ||| 0x80000000, BitVec.ofNat 512 (fromLE (sub b 0x10 64)), BitVec.ofNat 64 (field b 8 8)⟩
  let t := (s.setPendingKey n k).setPstate n 1
  if t.answers k then ((t.verifySlot n).commitSlot n).answer p Code.ok else (t.verifySlot n).answer p Code.signatureFail

/-- KEY_RELEASE; the bounce path waits while a key command runs (R408). -/
def execKeyRelease (p : PmpReq) (e : Envelope) (s : State) : Result :=
  .next (if s.hss.run.isSome then s.waits else s.pmp p 0x0600 true (fun t => t.envelope p e 1 true (fun b u =>
    if ¬ releaseFormatOk b then u.answer p Code.formatError
    else if ¬ releaseAttrOk b p.c then u.answer p Code.attributeDenied
    else if ¬ u.katOk .keyStore then u.answer p Code.internalError
    else u.releaseKey p b)))

/-! ### Lifecycle transitions (R414, R535–R537) -/

/-- Permitted transitions (R535); with TCOUNT at 255 only RETIRED. -/
def transitionOk (op src tgt tcount : Nat) : Bool :=
  if op = 3 then decide (src = 1 ∧ tgt = 2 ∧ tcount < 255)
  else (tgt == 4 && decide (src < 4)) ||
    (decide (tcount < 255) && ((src == 0 && tgt == 1) || (src == 2 && (tgt == 3 || tgt == 1)) ||
      (src == 3 && (tgt == 2 || tgt == 1))))

/-- SHA-384 of the DEVICE_ID public key. -/
def State.deviceDigest (s : State) : Bytes := shaBytes (s.active 0).public

/-- Contents of a transition's plaintext (R536). -/
def State.transitionFormatOk (s : State) (op : Nat) (b : Bytes) : Bool :=
  decide (b.length = if op = 3 then 296 else 64) && transitionOk op s.lc (field b 0 1) s.boot.fuses.tcount && zeroAt b 1 3 &&
  decide (field b 4 4 = s.boot.fuses.tcount) && decide (sub b 8 48 = s.deviceDigest) && zeroAt b 0x38 8 &&
  (if op = 3 then zeroAt b 0xA1 7 && decide (1 ≤ field b 0xE0 1 ∧ field b 0xE0 1 ≤ 32) && zeroAt b 0xE1 7 else true)

/-- Steps 4 and 5 of R537: the new record in the slot that does not hold the present one, and the fuse. -/
def State.commitTransition (s : State) (tgt : Nat) (owner : Option (Bytes × Bytes)) (ca : Bytes × Bytes) : State :=
  let f := s.boot.fuses
  if tgt = 4 then
    { s with boot := { s.boot with fuses := { f with retired := true }, recA := none, recB := none } }
  else
    let r : LcRec := ⟨f.tcount + 1, BitVec.ofNat 3 tgt, if tgt = 1 then none else owner, if tgt = 1 then [] else ca.1,
      if tgt = 1 then [] else ca.2⟩
    let inA := match s.boot.recA with | some x => decide (x.tcount = f.tcount) | none => false
    let b := if inA then { s.boot with recB := some r } else { s.boot with recA := some r }
    { s with boot := { b with fuses := { f with tcount := f.tcount + 1 }, cakDue := decide (tgt = 2 ∨ tgt = 3) } }

/-- A transition (R537): answered first; every slot zero, the sealed area erased, every context ended, the record and the
fuse; then a warm reset with cause LIFECYCLE, whose chain derives the identity slots for the new state. -/
def State.transition (s : State) (p : PmpReq) (tgt : Nat) (owner : Option (Bytes × Bytes)) (ca : Bytes × Bytes) : State :=
  let s1 := (s.answer p Code.ok).setFld Reg.lcState 31 31 1
  let s2 := { s1 with keys := [], pstate := [], boot := { s1.boot with sealed := [] } }
  (((s2.endAll Code.keyRevoked).commitTransition tgt owner ca).warmReset .lifecycle).done Code.ok

/-- The owner keys of an OWNERSHIP plaintext. -/
def ownerOf (b : Bytes) : Bytes × Bytes := (sub b 0x40 97, sub b 0xA8 56)
/-- The CAK and the CKN of an OWNERSHIP plaintext (R403, R536). -/
def cakOf (b : Bytes) : Bytes × Bytes := (sub b 0x108 32, sub b 0xE8 (field b 0xE0 1))

/-- OWNERSHIP_SET. -/
def execOwnershipSet (p : PmpReq) (e : Envelope) (s : State) : Result :=
  .next (if s.hss.run.isSome then s.waits else s.pmp p 0x0601 false (fun t =>
    if t.fld Reg.lcState 31 31 = 1 then t.answer p Code.busy
    else t.envelope p e 3 false (fun b u =>
      if u.transitionFormatOk 3 b then u.transition p 2 (some (ownerOf b)) (cakOf b) else u.answer p Code.formatError)))

/-- LIFECYCLE_SET. -/
def execLifecycleSet (p : PmpReq) (e : Envelope) (s : State) : Result :=
  .next (if s.hss.run.isSome then s.waits else s.pmp p 0x0602 false (fun t =>
    if t.fld Reg.lcState 31 31 = 1 then t.answer p Code.busy
    else t.envelope p e 4 false (fun b u =>
      if u.transitionFormatOk 4 b then
        u.transition p (field b 0 1) u.boot.owner (match u.presentRec with | some r => (r.cak, r.ckn) | none => ([], []))
      else u.answer p Code.formatError)))

/-! ### Enrolment and peers -/

/-- Records of n bytes. -/
def listRecords (n : Nat) (b : Bytes) : List Bytes := (List.range (b.length / n)).map (fun i => sub b (n * i) n)

/-- Enrolment keys: CLIENT_ID, 16 bytes, and its 32-byte key; an identifier enrolled before takes the new key (R288). -/
def State.enrol (s : State) (c : Nat) (b : Bytes) : State :=
  let new := (listRecords 48 b).map (fun r => (BitVec.ofNat 128 (fromBE (r.take 16)), r.drop 16))
  let x := s.ctx c
  s.setCtx c { x with enrol := x.enrol.filter (fun e => ¬ new.any (fun n => n.1 = e.1)) ++ new }

/-- CLIENT_ENROL. -/
def execClientEnrol (p : PmpReq) (e : Envelope) (s : State) : Result :=
  .next (s.pmp p 0x0603 true (fun t => t.envelope p e 5 true (fun b u =>
    if b.length % 48 ≠ 0 ∨ b = [] then u.answer p Code.formatError else (u.enrol p.c b).answer p Code.ok)))

/-- Peer records: module id, 2 bytes, and its 97-byte identity key (R343). -/
def peersOf (b : Bytes) : List (BitVec 14 × Bytes) :=
  (listRecords 99 b).map (fun r => (BitVec.ofNat 14 (field r 0 2), r.drop 2))

/-- PEER_LIST: the list is replaced. -/
def execPeerList (p : PmpReq) (e : Envelope) (s : State) : Result :=
  .next (s.pmp p 0x0604 true (fun t => t.envelope p e 6 true (fun b u =>
    if b.length % 99 ≠ 0 ∨ b = [] ∨ ¬ ((peersOf b).map (fun x => x.1)).Nodup then u.answer p Code.formatError
    else { u with mgmt := { u.mgmt with peers := peersOf b } }.answer p Code.ok)))

end Sys2Proof.Machine
end

