-- ==== Sys2Proof/Machine/Shards.lean ====
section
/-! DEFINITION. Shard tables and seed tables of the I-strands (R197, R206): meanings of SHT_CTL_WRITE, SEED_WRITE and
SEED_CLEAR. -/

namespace Sys2Proof.Machine

/-- A write of SHT_CTL: EMPTY to OPEN, OPEN to CLOSING or CLOSED to EMPTY; any other is ignored (R197). -/
def State.shtWrite (s : State) (d i j : Nat) (v : Word) : State :=
  let old := s.fld (Reg.shtCtl d i j) 31 30
  let new := bits v 31 30
  if (old = 0 ∧ new = 1) ∨ (old = 1 ∧ new = 2) ∨ (old = 3 ∧ new = 0) then
    (s.setReg (Reg.shtCtl d i j) (v &&& 0xC0FFFFFF)).done Code.ok
  else s.done Code.ok

/-- SHT_CTL_WRITE. -/
def execShtCtlWrite (world : World) (d i j : Fin 4) (v : Word) (s : State) : Result :=
  .next (s.secureOnly world (Reg.shtCtl d.val i.val j.val) (fun t =>
    t.toDie d.val (fun u => u.onStrand d.val i.val (fun w => w.shtWrite d.val i.val j.val v))))

/-- Entry number of a seed entry among all I-strands. -/
def seedKeyOf (d i e : Nat) : Nat := iNum d i * 4096 + e

/-- SEED_CTL with its self-clearing bits: GO writes the staged entry, CLEAR zeroes the entry (R206). -/
def State.seedCommit (s : State) (d i e : Nat) (v : BitVec 512) : State :=
  ({ s with
      seeds := s.seeds.put (fun _ => 0) (seedKeyOf d i e) v
      seedShard := s.seedShard.put (fun _ => 0) (seedKeyOf d i e) 0 }.setReg (Reg.seedCtl d i) (BitVec.ofNat 32 e)).done Code.ok

/-- The staged entry of an I-strand. -/
def State.staged (s : State) (d i : Nat) : BitVec 512 := s.seedBuf.get (fun _ => 0) (iNum d i)

/-- SEED_DATA word k of the staged entry. -/
def State.seedData (s : State) (d i k : Nat) (v : Word) : State :=
  let b := le 64 (s.staged d i).toNat
  let w := BitVec.ofNat 512 (fromLE (b.take (4 * k) ++ le 4 v.toNat ++ b.drop (4 * k + 4)))
  { s with seedBuf := s.seedBuf.put (fun _ => 0) (iNum d i) w }

/-- SEED_WRITE. -/
def execSeedWrite (world : World) (d i : Fin 4) (entry : Fin 4096) (s : State) : Result :=
  .next (s.secureOnly world (Reg.seedCtl d.val i.val) (fun t =>
    t.toDie d.val (fun u => u.onStrand d.val i.val (fun w => w.seedCommit d.val i.val entry.val (w.staged d.val i.val)))))

/-- SEED_CLEAR. -/
def execSeedClear (world : World) (d i : Fin 4) (entry : Fin 4096) (s : State) : Result :=
  .next (s.secureOnly world (Reg.seedCtl d.val i.val) (fun t =>
    t.toDie d.val (fun u => u.onStrand d.val i.val (fun w => w.seedCommit d.val i.val entry.val 0))))

end Sys2Proof.Machine
end

