-- ==== Sys2Proof/Machine/Masks.lean ====
section
/-! DEFINITION. Masks of a round (R185, R186, R204–R207, R212, R213): PRG keys, the seed-table entries of a mask sum and of a
group mask, and how Daxna fills the seed tables. -/

namespace Sys2Proof.Machine

/-- The PRG key of a seed, b_u or s_uv (R205). -/
def prgKey (b : Bytes) (j : Nat) (seed : Bytes) : BitVec 256 :=
  (Config.hkdf seed [] (ascii "A9 mask" ++ be 4 (rdId b).toNat ++ be 3 (rdShard b j))).setWidth 256

/-- The PRG key of the group mask of a shard's stream at an epoch (R212); ROUND_ID, SHARD and the epoch stand big-endian in 4, 3
and one byte (DESIGN CHOICE, notes/assumptions/136.md). -/
def groupKey (b : Bytes) (j : Nat) (epoch : Byte) (gseed : Bytes) : BitVec 256 :=
  (Config.hkdf gseed [] (ascii "A9 group" ++ be 4 (rdId b).toNat ++ be 3 (rdShard b j) ++ [epoch])).setWidth 256

/-- A seed-table entry (R206). -/
def seedRec (key : BitVec 256) (minus : Bool) (first n : Nat) : BitVec 512 :=
  BitVec.ofNat 512 (fromLE (le 32 key.toNat ++ [1] ++ le 1 (b2n minus) ++ le 6 0 ++ le 8 first ++ le 8 n ++ le 8 0))

/-- NBLOCKS of an entry. -/
def seedBlocks (e : BitVec 512) : Nat := field (le 64 e.toNat) 48 8

/-- Elements of one counter block (R205). -/
def perBlock (ring : Nat) : Nat := if ring = 0 then 4 else if ring = 1 then 2 else 1

/-- The entries of one seed over the chunks of shard entry j that satisfy p: one for each run of them (R206). -/
def seedRuns (b : Bytes) (j : Nat) (key : BitVec 256) (minus : Bool) (p : Nat → Bool) : List (BitVec 512) :=
  let k := rdChunkElems b / perBlock (rdRing b)
  (missingRuns (rdChunks b j) (fun c => !p c)).map (fun e => seedRec key minus (e.1 * k) (e.2 * k))

/-- The entries of the mask sum of shard entry j, each with the shard's number (R186): b_u over the chunks of u in the sum, and
s_uv, with sgn(u, v), over the chunks where u is in the sum and its neighbour v is not. -/
def State.maskEntries (s : State) (r : Round) (j : Nat) : List (Nat × BitVec 512) :=
  ((List.range (rdCohort r.desc j)).flatMap (fun v =>
    let x := r.client j v
    (match x.secretB with
      | some k => if x.inSum then seedRuns r.desc j (prgKey r.desc j k) false (s.chunkBit r j v) else []
      | none => []) ++
    x.pair.flatMap (fun e => seedRuns r.desc j (prgKey r.desc j e.2) (decide (v < e.1))
      (fun c => s.chunkBit r j e.1 c && !s.chunkBit r j v c)))).map (fun e => (rdShard r.desc j, e))

/-! ### Filling the tables (R206, R207) -/

/-- Part k of n of a list of entries, in proportion to block counts (R207). -/
def partByBlocks (k n : Nat) (xs : List (Nat × BitVec 512)) : List (Nat × BitVec 512) :=
  let t := max 1 (xs.map (fun e => seedBlocks e.2)).sum
  (xs.foldl (fun (acc : Nat × List (Nat × BitVec 512)) e =>
    (acc.1 + seedBlocks e.2, if acc.1 * n / t = k then acc.2 ++ [e] else acc.2)) (0, [])).2

/-- I-strands of a die bound to a context. -/
def State.iStrandsOn (s : State) (c d : Nat) : List Nat := (List.range 4).filter (fun i => s.boundTo c (d, i))

/-- The module's shards of a die that have not failed. -/
def State.shardsOn (s : State) (c : Nat) (r : Round) (d : Nat) : List Nat :=
  (s.ownShards r.desc).filter (fun j =>
    !r.isFailed j && (match s.shardEntry c (rdShard r.desc j) with | some e => decide (e.1 = d) | none => false))

/-- What I-strand i of die d expands: the mask sums of its own shards; where the die has more I-strands than shards, its part
of every shard of the die (R207). -/
def State.feedList (s : State) (c : Nat) (r : Round) (d i : Nat) : List (Nat × BitVec 512) :=
  let is := s.iStrandsOn c d
  let js := s.shardsOn c r d
  if is.length ≤ js.length then
    (js.filter (fun j => match s.shardEntry c (rdShard r.desc j) with | some e => decide (e.2.1 = i) | none => false)).flatMap
      (s.maskEntries r)
  else js.flatMap (fun j => partByBlocks (is.idxOf i) is.length (s.maskEntries r j))

/-- Entries, each with its shard, go into I-strand i of die d from place `at_`; the rest of the n places reads zero. The words
cross from the hub die, which writes again what was poisoned on the way (R16, R206). -/
def State.putSeeds (s : State) (d i at_ n : Nat) (xs : List (Nat × BitVec 512)) : State :=
  let k := iNum d i * 4096 + at_
  let t := (s.crossPorts (route 8 d)).1
  { t with
    seeds := Table.putList (fun _ => 0) t.seeds k (xs.map (fun e => e.2) ++ List.replicate (n - xs.length) 0)
    seedShard := Table.putList (fun _ => 0) t.seedShard k (xs.map (fun e => e.1 + 1) ++ List.replicate (n - xs.length) 0) }

/-- The batch list of entries that stand from place `at_` on: entry number, SIGN, FIRST_BLOCK and NBLOCKS of each, then COUNT
(R206); the widths 2, 1, 4 and 4 bytes, with a zero byte behind SIGN, are the model's (DESIGN CHOICE, notes/assumptions/49.md). -/
def batchList (at_ : Nat) (xs : List (Nat × BitVec 512)) : Bytes :=
  (xs.zipIdx.map (fun e =>
    let b := le 64 e.1.2.toNat
    le 2 (at_ + e.2) ++ sub b 33 1 ++ [0] ++ sub b 40 4 ++ sub b 48 4)).flatten ++ le 4 xs.length

/-- Half h of an I-strand's table is filled, and then its batch list in the strand's work range, COUNT last (R206); whether
memory waits. -/
def State.putHalf (s : State) (c : Nat) (e : Nat × Nat) (h : Nat) (xs : List (Nat × BitVec 512)) : State × Bool :=
  let t := s.putSeeds e.1 e.2 (h * 2048) 2048 xs
  let w := t.hubPut c (Config.workList (strandIx e.1 e.2) + h * 32768) (batchList (h * 2048) xs)
  (w.st, w.stall)

/-- The next half of an I-strand's table is filled, if entries are left for it (R206). -/
def State.feedHalf (s : State) (c : Nat) (e : Nat × Nat) : State × Bool :=
  match s.round c with
  | none => (s, false)
  | some r =>
    let k := iNum e.1 e.2
    let n := r.fed.get (fun _ => 0) k
    let xs := ((s.feedList c r e.1 e.2).drop n).take 2048
    if xs = [] then (s, false)
    else (s.setRound c { r with fed := r.fed.put (fun _ => 0) k (n + xs.length) }).putHalf c e (n / 2048 % 2) xs

/-- Work on one strand after another; the first whose memory waits ends it. -/
def State.eachStrand (s : State) (f : State → Nat × Nat → State × Bool) : List (Nat × Nat) → State × Bool
  | [] => (s, false)
  | e :: es =>
    let x := f s e
    if x.2 then x else x.1.eachStrand f es

/-- The I-strands bound to a context. -/
def State.iStrands (s : State) (c : Nat) : List (Nat × Nat) := allStrands.filter (fun e => decide (e.2 < 4) && s.boundTo c e)

/-- The next half of every I-strand's table. -/
def State.feedMasks (s : State) (c : Nat) : State × Bool := s.eachStrand (fun t e => t.feedHalf c e) (s.iStrands c)

/-- Entries of the mask sums are left to fill. -/
def State.masksLeft (s : State) (c : Nat) (r : Round) : Bool :=
  (s.iStrands c).any (fun e => decide (r.fed.get (fun _ => 0) (iNum e.1 e.2) < (s.feedList c r e.1 e.2).length))

/-! ### Group masks (R212, R213) -/

/-- The entry of g_host for a shard: the host adds it if its module id is the lower one. -/
def groupEntry (r : Round) (j : Nat) (gseed : Bytes) : BitVec 512 :=
  seedRec (groupKey r.desc j r.epoch gseed) (decide (rdRoot r.desc < rdHost r.desc j)) 0
    (rdElems r.desc j / perBlock (rdRing r.desc))

/-- The group masks that this module expands, with the I-strand that does and the shard: on a host its own shards', on the root
g_host of every foreign stream, in the I-strand that seals it (R213). -/
def State.groupMasks (s : State) (c : Nat) (r : Round) : List (Nat × Nat × BitVec 512) :=
  let root := decide (rdRoot r.desc = s.ownId)
  ((List.range (rdN r.desc)).filter (fun j =>
      !r.isFailed j && !r.lostHosts.contains (BitVec.ofNat 14 (rdHost r.desc j)) && decide (rdHost r.desc j ≠ rdRoot r.desc) &&
      (root || decide (rdHost r.desc j = s.ownId)))).filterMap (fun j =>
    let partner := if root then rdHost r.desc j else rdRoot r.desc
    let sh := rdShard r.desc j
    match r.gseeds.find? (fun e => decide (e.1.toNat = partner)) with
    | none => none
    | some g =>
      if root then some (fseTarget (s.fse (Config.streamTag c sh % 65536)), sh, groupEntry r j g.2)
      else (s.shardEntry c sh).map (fun e => (iNum e.1 e.2.1, sh, groupEntry r j g.2)))

/-- The group masks go into the seed tables, from their first place. -/
def State.feedGroup (s : State) (c : Nat) : State × Bool :=
  match s.round c with
  | none => (s, false)
  | some r =>
    if ¬ rdGroup r.desc then (s, false)
    else
      let ms := s.groupMasks c r
      s.eachStrand (fun t e =>
        let xs := (ms.filter (fun m => decide (m.1 = iNum e.1 e.2))).map (fun m => m.2)
        if xs = [] then (t, false)
        else
          let y := t.putHalf c e 0 (xs.take 2048)
          if y.2 ∨ xs.length ≤ 2048 then y else y.1.putHalf c e 1 ((xs.drop 2048).take 2048)) (s.iStrands c)

/-! ### A block of a mask sum again (R210) -/

/-- The part of an entry that lies in counter blocks lo to lo + n − 1. -/
def clipEntry (lo n : Nat) (e : BitVec 512) : Option (BitVec 512) :=
  let b := le 64 e.toNat
  let f := field b 40 8
  let from_ := max f lo
  let upto := min (f + field b 48 8) (lo + n)
  if from_ < upto then some (seedRec (e.setWidth 256) (decide (field b 33 1 ≠ 0)) from_ (upto - from_)) else none

/-- The entries of a shard's mask sum, or of a foreign stream's, that cover the 4 KiB block at `a` of the sum at `base`, cut to
it; with the I-strand whose sum it is. -/
def State.againEntries (s : State) (c : Nat) (r : Round) (j base a : Nat) : Option (Nat × Nat) × List (Nat × BitVec 512) :=
  let k := 4096 / ringSize (rdRing r.desc) / perBlock (rdRing r.desc)
  let own := decide (rdHost r.desc j = s.ownId)
  let sh := rdShard r.desc j
  let ms := (s.groupMasks c r).filter (fun m => decide (m.2.1 = sh))
  let xs := if own then s.maskEntries r j else ms.map (fun m => m.2)
  let e := if own then (s.shardEntry c sh).map (fun e => (e.1, e.2.1)) else (ms.head?).map (fun m => (m.1 / 4, m.1 % 4))
  (e, xs.filterMap (fun x => (clipEntry ((a - base) / 4096 * k) k x.2).map (fun y => (x.1, y))))

/-- The next half of the entries from which the I-recipe rewrites a block that a SEAL found uncorrectable (R210). -/
def State.feedAgain (s : State) (c : Nat) : State × Bool :=
  match s.round c with
  | none => (s, false)
  | some r =>
    match r.redo with
    | [] => (s, false)
    | (j, base, a, n) :: rest =>
      let y := s.againEntries c r j base a
      let xs := (y.2.drop n).take 2048
      match y.1 with
      | none => (s.setRound c { r with redo := rest }, false)
      | some e =>
        if xs = [] then (s.setRound c { r with redo := rest }, false)
        else (s.setRound c { r with
          redo := if y.2.length ≤ n + 2048 then rest else (j, base, a, n + 2048) :: rest }).putHalf c e (n / 2048 % 2) xs

end Sys2Proof.Machine
end

