-- ==== Sys2Proof/Machine/Rounds.lean ====
section
/-! DEFINITION. Masked-aggregation rounds (R185–R216, R249–R258, R270, R372): meanings of the round commands. Daxna's
register writes of a round are commands of their own; here are its states, gates, messages, logs and secrets. -/

namespace Sys2Proof.Machine

/-! ### The descriptor's checks (R187, R188, R193, R249, R250) -/

def rdTotal (b : Bytes) : Nat := ((List.range (rdN b)).map (fun j => rdCohort b j)).sum
/-- Effective K of the smallest cohort (R193). -/
def rdKmin (b : Bytes) : Nat := (List.range (rdN b)).foldl (fun m j => min m (rdKeff b j)) (rdK b)

/-- Entry j of the descriptor is out of range. -/
def rdEntryBad (b : Bytes) (j : Nat) : Bool :=
  let e := rdElems b j
  decide (2 ^ 24 ≤ rdShard b j) || decide (e = 0 ∨ 2 ^ 28 < e) || decide (e % rdChunkElems b ≠ 0) ||
  decide (rdCohort b j < 2 ∨ 2 ^ 20 < rdCohort b j) || decide (2 ^ 14 ≤ rdHost b j) || decide (field b (0x8E + 16 * j) 2 ≠ 0)

/-- Window k in ms (R187). -/
def rdWin (b : Bytes) (k : Nat) : Nat := field b (0x18 + 4 * k) 4
def rdWinBad (b : Bytes) (k : Nat) : Bool :=
  if k = 3 ∧ ¬ rdScreen b then decide (rdWin b k ≠ 0) else decide (rdWin b k = 0 ∨ 3600000 < rdWin b k)

/-- A field of the header is out of range, or a reserved byte is not zero. -/
def rdHeadBad (c : Nat) (b : Bytes) : Bool :=
  let k := field b 8 2
  let ch := field b 0xC 2
  decide (rdId b = 0) || decide (field b 4 1 ≠ c) || decide (2 < rdRing b) ||
  decide (64 ≤ field b 6 1) || decide (rdRing b ≠ 2 ∧ field b 6 1 ≠ 0) || decide (8 ≤ field b 7 1) ||
  decide (k ≠ 0 ∧ (k % 2 = 1 ∨ k < 8 ∨ 256 < k)) || decide (ch ≠ 0 ∧ (ch % 64 ≠ 0 ∨ 8192 < ch)) ||
  decide (rdOutput b ≠ 1 ∧ rdOutput b ≠ 2) || decide (31 < field b 0xF 1) || decide (¬ rdDp b ∧ field b 0x10 8 ≠ 0) ||
  (List.range 6).any (rdWinBad b) || decide (2 ^ 14 ≤ rdCoord b ∨ 2 ^ 14 ≤ rdRoot b) || decide (¬ rdGroup b ∧ rdRoot b ≠ 0) ||
  decide (fromLE (sub b 0x38 0x48) ≠ 0)

/-- ROUND_ID has been used in the context: by a held round or by a logged descriptor (R187, R420). -/
def State.roundUsed (s : State) (c : Nat) (id : Word) : Bool :=
  (match s.round c with | some r => decide (rdId r.desc = id) | none => false) ||
  (s.ctx c).log.any (fun e => decide (e.kind = 6 ∧ field e.body 0 1 = 1 ∧ field e.body 4 4 = id.toNat))

/-- Free entries of the session tables. -/
def State.freeSessions (s : State) : Nat :=
  s.part.ldCount * 2 ^ 20 - (s.sess.filter (fun e => decide (e.2.st ≠ 0) || e.2.hold)).length

/-- An ACTIVE registry entry of the context: PURPOSE, PARAMSET, KEYTAG, GALOIS (R240, R250). -/
def State.hasKey (s : State) (c purpose set keytag galois : Nat) : Bool :=
  s.evk.any (fun e => decide (e.1 / 64 = c ∧ e.2.st = 1 ∧ e.2.purpose.toNat = purpose ∧ e.2.paramset.toNat = set ∧
    e.2.keytag.toNat = keytag ∧ e.2.galois.toNat = galois))

/-- Fields of a screening configuration (R249). -/
def scSketch (b : Bytes) : Nat := field b 0 2
def scPack (b : Bytes) : Nat := field b 2 2
def scKeytag (b : Bytes) : Nat := field b 8 6

/-- 5^(2^k) mod 2N. -/
def rotGalois (n k : Nat) : Nat := (List.range k).foldl (fun g _ => g * g % (2 * n)) (5 % (2 * n))

/-- A configuration keeps R249 in context c. -/
def State.screenFields (s : State) (c : Nat) (b : Bytes) : Bool :=
  decide (b.length = 64) && decide (field b 6 2 = 0 ∧ field b 0xE 2 = 0 ∧ fromLE (b.drop 0x24) = 0) &&
  decide (field b 0x18 8 < 2 ^ 48) &&
  (match s.pset c (scSketch b), s.pset c (scPack b) with
   | some p, some q =>
     s.inCtxHbm c (field b 0x10 8) (2 ^ p.logn * 8) && decide (p.family = 1 ∧ p.limbs = 1 ∧ p.lweSet ≠ 0 ∧ q.family = 1 ∧ q.limbs = 1 ∧ q.lweSet = p.lweSet)
   | _, _ => false)

/-- The keys that a screened round needs are registered (R250). -/
def State.screenKeys (s : State) (c : Nat) (b : Bytes) : Bool :=
  match s.pset c (scSketch b) with
  | none => false
  | some p =>
    let t := scKeytag b
    s.hasKey c 1 (scSketch b) t 0 && (List.range (p.logn - 1)).all (fun k => s.hasKey c 2 (scSketch b) t (rotGalois (2 ^ p.logn) k)) &&
    s.hasKey c 3 (scSketch b) t 0 && s.hasKey c 5 p.lweSet t 0 && s.hasKey c 4 (scPack b) t 0

/-- The cohort lists of a request: one for each shard entry, of COHORT clients, each named once (R185). -/
def cohortsOk (b : Bytes) (cs : List (List QWord)) : Bool :=
  decide (cs.length = rdN b) && (List.range (rdN b)).all (fun j =>
    decide ((cs.getD j []).length = rdCohort b j) && decide (cs.getD j []).Nodup)

/-- ROUND.OPEN refuses the request with FORMAT_ERROR. -/
def State.roundBad (s : State) (c : Nat) (b : Bytes) (cs : List (List QWord)) : Bool :=
  let n := rdN b
  decide (n = 0 ∨ 2 ^ 24 < n) || decide (b.length ≠ 128 + 16 * n) || rdHeadBad c b || (List.range n).any (rdEntryBad b) ||
  !decide (((List.range n).map (rdShard b)).Nodup) || !cohortsOk b cs || decide (2 ^ 30 < rdTotal b) ||
  decide (rdT b < rdKmin b / 2 + 1 ∨ rdKmin b < rdT b) ||
  decide (s.freeSessions < ((s.ownShards b).map (rdCohort b)).sum) || s.roundUsed c (rdId b) ||
  (rdScreen b && (match (s.ctx c).screen with
    | some r => !s.screenFields c r || !s.screenKeys c r
    | none => true))

/-! ### The graph (R192) -/

def graphKey (b : Bytes) (j : Nat) : BitVec 256 :=
  (Config.hkdf (sub b 0x40 32) [] (ascii "A9 graph" ++ be 4 (rdId b).toNat ++ be 3 (rdShard b j))).setWidth 256
/-- rank(u), compared as a 128-bit integer. -/
def graphRank (b : Bytes) (j u : Nat) : Nat :=
  fromBE (le 16 (Config.aes256 (graphKey b j) (BitVec.ofNat 128 (fromLE (be 16 u)))).toNat)
/-- Slots sorted by rank. -/
def graphOrder (b : Bytes) (j : Nat) : List Nat :=
  (List.range (rdCohort b j)).mergeSort (fun u v => decide (graphRank b j u ≤ graphRank b j v))
/-- n(u) over the whole cohort. -/
def graphOf (b : Bytes) (j u : Nat) : List Nat :=
  let c := rdCohort b j
  let k := rdK b
  if c ≤ k then (List.range c).filter (fun v => decide (v ≠ u))
  else
    let o := graphOrder b j
    let p := o.idxOf u
    ((List.range (k / 2)).map (fun d => o.getD ((p + d + 1) % c) 0)) ++
    ((List.range (k / 2)).map (fun d => o.getD ((p + c - (d + 1)) % c) 0))
/-- Neighbours once the clients that sent no ADVERTISE are out of the graph (R189). -/
def Round.near (r : Round) (j u : Nat) : List Nat := (graphOf r.desc j u).filter (fun v => (r.client j v).adv.isSome)

/-- A change to every client of the module's shards. -/
def State.eachOwn (s : State) (r : Round) (f : Nat → Nat → Client → Client) : Round :=
  (s.ownShards r.desc).foldl (fun t j => t.eachClient j (f j)) r

/-! ### Datagrams of a round -/

/-- A list cut into parts of n; one empty part for an empty list. -/
def partsOf {α : Type} (n : Nat) (xs : List α) : List (List α) :=
  (List.range (max 1 ((xs.length + n - 1) / n))).map (fun q => (xs.drop (q * n)).take n)

/-- A list subtype to a client: `n` records a datagram, OFFSET the index of its first record (R285); an empty list still goes
out in one datagram, as NEIGHBOURS and COLLECT need (R194, R201). -/
def State.tellList (s : State) (c : Nat) (r : Round) (j u typ sub n : Nat) (pre : Bytes) (recs : List Bytes) : State :=
  (partsOf n recs).zipIdx.foldl (fun t e =>
    t.tell c r j u 0 (mkAip typ sub Code.ok 0 (rdId r.desc) (rdShard r.desc j) (e.2 * n) (pre ++ e.1.flatten))) s

/-- CLOSE ROUND to a client: its part in the round ends (R285). -/
def State.closeRound (s : State) (c : Nat) (r : Round) (j u : Nat) (status : Byte) : State :=
  s.tell c r j u 0 (mkAip 8 3 status 0 (rdId r.desc) (rdShard r.desc j) 0 (le 8 0))

/-- KEYX NEIGHBOURS to a client (R194, R285). -/
def State.tellNear (s : State) (c : Nat) (r : Round) (j u : Nat) : State :=
  let recs := (r.near j u).map (fun v =>
    match (r.client j v).adv with
    | some a => be 4 v ++ a.1 ++ a.2.1 ++ [0, 0]
    | none => [])
  s.tellList c r j u 2 2 40 (sub r.desc 0x40 32 ++ be 4 u ++ be 2 (rdKeff r.desc j) ++ [0, 0]) recs

/-- The place of v's ciphertext for u in the share store: 128 × K bytes a client, in the order of its neighbours (R195). -/
def shareAt (c : Nat) (b : Bytes) (j v u : Nat) : Nat :=
  Config.shareStore c (rdShard b j) + 128 * (v * rdK b + (graphOf b j v).idxOf u)

/-- SHARE DELIVER to a client: the ciphertexts addressed to it, as the share store gives them (R195); one that cannot be read
is left out. -/
def State.tellShares (s : State) (c : Nat) (r : Round) (j u : Nat) : State :=
  let x := ((r.near j u).filter (fun v => (r.client j v).shares.contains u)).foldl (fun (acc : State × List Bytes) v =>
    let y := acc.1.hubGet c (shareAt c r.desc j v u) 128
    (y.st, if y.code = Code.ok ∧ ¬ y.stall then acc.2 ++ [y.data] else acc.2)) (s, [])
  x.1.tellList c r j u 3 3 64 [] x.2

/-! ### Secrets (R200–R202) -/

/-- b_u and s_u are needed (R200). -/
def Round.needB (r : Round) (j u : Nat) : Bool := (r.client j u).inSum && (r.client j u).adv.isSome
def Round.needS (r : Round) (j u : Nat) : Bool :=
  let x := r.client j u
  x.adv.isSome && (decide (x.cls = .partly) || (decide (x.cls = .absent) && (r.near j u).any (fun v => (r.client j v).inSum)))
/-- Every secret of entry j that is needed has verified, and its clients are classified. -/
def Round.secretsDone (r : Round) (j : Nat) : Bool :=
  (List.range (rdCohort r.desc j)).all (fun u =>
    decide ((r.client j u).cls ≠ .unclassified) && (!r.needB j u || (r.client j u).secretB.isSome) &&
    (!r.needS j u || (r.client j u).secretS.isSome))

/-! ### Sketches (R251–R253) -/

/-- Pieces of a sketch under the context's configuration; a last short piece has no bit of its own
(DESIGN CHOICE, notes/assumptions/138.md). -/
def State.pieceCount (s : State) (c : Nat) (b : Bytes) : Nat :=
  match (s.ctx c).screen with
  | some r => (match s.pset c (scSketch r) with | some p => 2 * 2 ^ p.logn * 8 / rdChunk b | none => 0)
  | none => 0
/-- Every piece bit of a client's sketch is set. -/
def State.sketchWhole (s : State) (c : Nat) (r : Round) (j u : Nat) : Bool :=
  let n := s.pieceCount c r.desc
  match r.maps.find? (fun e => decide (e.1 = j)) with
  | some e => (List.range n).all (fun k => s.bitAt e.2.2 (u * n + k))
  | none => false

/-! ### Leaving a state (R189) -/

/-- Modules that share a group seed with this one (R212). -/
def State.seedPartners (s : State) (b : Bytes) : List Nat :=
  if ¬ rdGroup b then []
  else if rdRoot b = s.ownId then
    (((List.range (rdN b)).map (rdHost b)).filter (fun m => decide (m ≠ s.ownId))).eraseDups
  else [rdRoot b]

/-- A group seed for each partner (R212): the one that the partner of lower module id has sent, or one drawn here and sent to
the partner of higher id. A seed that has not arrived is a free value (notes/assumptions/2.md). -/
def State.groupSeeds (s : State) (r : Round) : List Nat → List (BitVec 14 × Bytes) × State
  | [] => ([], s)
  | m :: ms =>
    match r.gseeds.find? (fun e => decide (e.1.toNat = m)) with
    | some e =>
      let x := s.groupSeeds r ms
      (e :: x.1, x.2)
    | none =>
      let g := s.drawnBytes Port.daxna 4
      let u := s.draw Port.daxna 4
      let t := if s.ownId < m then u.emit (.daxna (BitVec.ofNat 14 m) 1 g) else u
      let x := t.groupSeeds r ms
      ((BitVec.ofNat 14 m, g) :: x.1, x.2)

/-- The other modules of a round. -/
def State.others (s : State) (b : Bytes) : List Nat :=
  ((rdRoot b :: rdCoord b :: (List.range (rdN b)).map (rdHost b)).filter (fun m =>
    decide (m ≠ s.ownId) && (rdGroup b || decide (m ≠ rdRoot b)))).eraseDups

/-- A message to every other module of a round. -/
def State.tellAll (s : State) (b : Bytes) (kind : Nat) (body : Bytes) : State :=
  (s.others b).foldl (fun t m => t.emit (.daxna (BitVec.ofNat 14 m) kind body)) s

/-- GRAPH_SEED: the coordinator draws it and sends it to every module of the round; another module takes what has arrived
(R192). A seed that has not arrived is a free value. -/
def State.graphSeed (s : State) (r : Round) : Bytes × State :=
  if s.isCoord r.desc then
    let g := s.drawnBytes Port.daxna 4
    (g, (s.draw Port.daxna 4).tellAll r.desc 0 (be 4 (rdId r.desc).toNat ++ g))
  else match r.seedGot with
  | some g => (g, s)
  | none => (s.freeBytes 4, s.took 4)

/-- A TYPE 1 header under a set with LIMBS 1 and LEVEL 0, its data behind it. -/
def plainHdr (c set logn : Nat) (scale : Int) (ntt : Bool) (keytag a : Nat) : Bytes :=
  le 64 ({ typ := 1, logn := logn, limbs := 1, level := 0, scale := scale, flags := mkFlags false ntt false, ctx := c
           keytag := keytag, pset := set, ptr := a + 64, dnum := 0, ops := 0, lweN := 0, ptLog := 0, z29 := 0
           len := dataLen 1 logn 1 0 0, z40 := 0 } : Hdr).enc.toNat

/-- The headers of the sketch store: a record of each client, shard-major and slot-minor (R252). -/
def State.sketchHeaders (s : State) (c : Nat) (b : Bytes) : List (Nat × Bytes) :=
  match (s.ctx c).screen with
  | none => []
  | some r =>
    match s.pset c (scSketch r) with
    | none => []
    | some p =>
      (List.range ((s.ownShards b).map (rdCohort b)).sum).map (fun i =>
        let a := Config.sketchStore c + i * (64 + 2 * 2 ^ p.logn * 8)
        (a, plainHdr c (scSketch r) p.logn (BitVec.ofNat 16 (field r 4 2)).toInt true (scKeytag r) a))

/-- OPENING ends: bitmaps are placed, the sketch store is laid out, GRAPH_SEED and the group seeds are known, the descriptor
is logged (R189, R192, R198, R212, R252, R420); an entry that does not fit the log, or a source that starts, holds it (R419, R429). -/
def State.leaveOpening (s : State) (c : Nat) (r : Round) : State × Bool :=
  let w := s.putAll c (if rdScreen r.desc then s.sketchHeaders c r.desc else [])
  if w.2 then w
  else if ¬ w.1.logFits c 112 ∨ w.1.entPort = .stall then (w.1, true)
  else
    let g := w.1.graphSeed r
    let b := r.desc.take 0x40 ++ g.1 ++ r.desc.drop 0x60
    let x := g.2.groupSeeds r (s.seedPartners b)
    ((x.2.setRound c { r with
      desc := b, graphSeed := BitVec.ofNat 256 (fromLE g.1), gseeds := x.1, maps := s.placeMaps c b }).logConfig c 1 0 0 (rdId b) b,
      false)

/-- ADVERTISE ends: clients that sent none are dropped, the others get their neighbours (R189, R194). -/
def State.leaveAdvertise (s : State) (c : Nat) (r : Round) : State :=
  let r1 := s.eachOwn r (fun _ _ x => if x.adv.isSome then x else { x with dropped := true })
  (s.ownShards r.desc).foldl (fun t j => (List.range (rdCohort r.desc j)).foldl (fun u k =>
    if (r1.client j k).adv.isSome then u.tellNear c r1 j k else u) t) (s.setRound c r1)

/-- Neighbours of a client for whom no share of it is stored: those that did not advertise have none (R195). -/
def Round.sharesMissing (r : Round) (j u : Nat) : Nat :=
  ((graphOf r.desc j u).filter (fun v => !((r.client j u).shares.contains v))).length

/-- HBM sleeps: the state in which its wake has started. -/
def State.hbmWait (s : State) : Option State :=
  match s.hbmGate with
  | some l => if l.stall then some l.st else none
  | none => none

/-- SHARE ends: ciphertexts are delivered; a client whose shares are missing for more than K_eff − T neighbours is
dropped (R195). The store must be awake. -/
def State.leaveShare (s : State) (c : Nat) (r : Round) : State × Bool :=
  match s.hbmWait with
  | some t => (t, true)
  | none =>
    let r1 := s.eachOwn r (fun j u x =>
      if rdKeff r.desc j - rdT r.desc < r.sharesMissing j u then { x with dropped := true } else x)
    ((s.ownShards r.desc).foldl (fun t j => (List.range (rdCohort r.desc j)).foldl (fun w u =>
      if (r1.client j u).dropped then w else w.tellShares c r1 j u) t) (s.setRound c r1), false)

/-- SCREEN ends: an undecided client with a piece missing is INCOMPLETE (R258); it gets no CLOSE (DESIGN CHOICE,
notes/assumptions/140.md). -/
def State.leaveScreen (s : State) (c : Nat) (r : Round) : State :=
  s.setRound c (s.eachOwn r (fun j u x =>
    if x.screened = .undecided ∧ ¬ s.sketchWhole c r j u then { x with screened := .incomplete } else x))

/-- COLLECT ends: a shard with a secret that has not verified is FAILED (R203). -/
def State.leaveCollect (s : State) (c : Nat) (r : Round) : State :=
  (s.ownShards r.desc).foldl (fun t j =>
    match t.round c with
    | some q => if q.secretsDone j then t else t.shardFails c q j
    | none => t) s

/-- What a module does when a state of the round ends, and whether it waits for memory. -/
def State.leave (s : State) (c : Nat) (r : Round) : State × Bool :=
  match r.state with
  | .opening => s.leaveOpening c r
  | .advertise => (s.leaveAdvertise c r, false)
  | .share => s.leaveShare c r
  | .screen => (s.leaveScreen c r, false)
  | .input => (s, false)
  | .collect => (s.leaveCollect c r, false)
  | .expand => (s, false)
  | .seal => (s, false)
  | .fold => (s, false)
  | .update => (s, false)
  | .readyCommit => (s, false)
  | .committed => (s, false)
  | .aborted => (s, false)

/-- The state after one (R189). -/
def nextRState (b : Bytes) : RState → RState
  | .opening => .advertise
  | .advertise => .share
  | .share => if rdScreen b then .screen else .input
  | .screen => .input
  | .input => .collect
  | .collect => .expand
  | .expand => .seal
  | .seal => if rdGroup b then .fold else if rdOutput b = 2 then .update else .readyCommit
  | .fold => if rdOutput b = 2 then .update else .readyCommit
  | .update => .readyCommit
  | .readyCommit => .readyCommit
  | .committed => .committed
  | .aborted => .aborted

/-- EST_GATE.PHASE of a state (R296, R301). -/
def phaseOf : RState → Nat
  | .opening => 1
  | .advertise => 2
  | .share => 3
  | .screen => 4
  | .input => 5
  | .collect => 6
  | .expand => 6
  | .seal => 6
  | .fold => 6
  | .update => 6
  | .readyCommit => 6
  | .committed => 0
  | .aborted => 0

/-- An export pins the copy of a shard that its next update would write: the one that is not current (R275). -/
def State.copyPinned (s : State) (c sh : Nat) : Bool :=
  match (s.ctx c).model with
  | none => false
  | some m => m.pins.any (fun p => p.dir.any (fun e =>
      decide (e.shard.toNat = sh) && m.dir.any (fun x => decide (x.shard.toNat = sh) && decide (e.cur ≠ x.cur))))

/-- The shards whose update this module runs: its own, or, at the root of a group, every shard; none of a failed shard or
a lost host (R203, R209, R214). -/
def State.updates (s : State) (r : Round) : List Nat :=
  if rdOutput r.desc ≠ 2 ∨ (rdGroup r.desc ∧ rdRoot r.desc ≠ s.ownId) then []
  else ((List.range (rdN r.desc)).filter (fun j =>
    (rdGroup r.desc || decide (rdHost r.desc j = s.ownId)) && !r.isFailed j &&
    !(r.lostHosts.contains (BitVec.ofNat 14 (rdHost r.desc j)))))

/-- C-strands bound to a context. -/
def State.cStrands (s : State) (c : Nat) : List (Nat × Nat) :=
  allStrands.filter (fun e => decide (4 ≤ e.2 ∧ e.2 < 10) && s.boundTo c e)
/-- Number of a C-strand, 0 to 23. -/
def cNum (e : Nat × Nat) : Nat := e.1 * 6 + (e.2 - 4)
def State.listedOn (s : State) (c k : Nat) : Nat := (s.ctx c).work.get (fun _ => 0) k

/-- Coefficients of an admission group. -/
def State.packN (s : State) (c : Nat) : Nat :=
  match (s.ctx c).screen with
  | some b => (match s.pset c (scPack b) with | some p => 2 ^ p.logn | none => 4096)
  | none => 4096

/-- The admission groups' headers and zero data: for each C-strand as many groups as the module's clients can fill (R253);
SCALE_EXP 0 and coefficient form (DESIGN CHOICE, notes/assumptions/139.md). -/
def State.groupHeaders (s : State) (c : Nat) (b : Bytes) : List (Nat × Bytes) :=
  match (s.ctx c).screen with
  | none => []
  | some r =>
    match s.pset c (scPack r) with
    | none => []
    | some p =>
      let n := (((s.ownShards b).map (rdCohort b)).sum + 2 ^ p.logn - 1) / 2 ^ p.logn
      (s.cStrands c).flatMap (fun e => (List.range n).map (fun g =>
        let a := Config.groupHeader c (cNum e) g
        (a, plainHdr c (scPack r) p.logn 0 false (scKeytag r) a ++ List.replicate (2 * 2 ^ p.logn * 8) 0)))

/-- A host sends the inverse-count vectors of its shards to the root before it seals (R267). -/
def State.sendCounts (s : State) (r : Round) : State :=
  ((s.ownShards r.desc).filter (fun j => !r.isFailed j)).foldl (fun t j =>
    t.emit (.daxna (BitVec.ofNat 14 (rdRoot r.desc)) 2 (be 3 (rdShard r.desc j) ++ s.ownCounts r j))) s

/-- The entries of shards that this module updates and that stand in no work list yet: its own shards', or those of foreign
streams, which it lets run in FOLD (R267). -/
def State.unposted (s : State) (r : Round) (own : Bool) : List Nat :=
  (s.updates r).filter (fun j => (decide (rdHost r.desc j = s.ownId) == own) && !r.posted.any (fun e => decide (e.1 = j)) &&
    !r.doneGot.any (fun e => decide (e.1 = j)))

/-- What Daxna does on entering SEAL: group masks, and the F work entries of the shards that this module updates, its own now,
those of foreign streams in FOLD (R213, R267). -/
def State.enterSeal (s : State) (c : Nat) (r : Round) (own : Bool) : State × Bool :=
  let x := s.feedGroup c
  if x.2 then x
  else
    let s1 := x.1
    let s2 := if own ∧ rdOutput r.desc = 2 ∧ rdGroup r.desc ∧ rdRoot r.desc ≠ s.ownId then s1.sendCounts r else s1
    s2.postFs c (s.unposted r own)

/-- What Daxna does on entering a state of the round. -/
def State.enterWork (s : State) (c : Nat) (st : RState) (r : Round) : State × Bool :=
  match st with
  | .opening => (s, false)
  | .advertise => (s, false)
  | .share => (s, false)
  | .screen => s.putAll c (s.groupHeaders c r.desc)
  | .input => (s, false)
  | .collect => (s, false)
  | .expand =>
    let x := s.feedMasks c
    if x.2 then x else x.1.feedMasks c
  | .seal => s.enterSeal c r true
  | .fold => s.enterSeal c r false
  | .update => (s, false)
  | .readyCommit => (s, false)
  | .committed => (s, false)
  | .aborted => (s, false)

/-- A state is entered: the gate's PHASE, on the coordinator of a group PHASE, and the work that begins with it (R189, R296,
R372). -/
def State.enterR (s : State) (c : Nat) (st : RState) : State × Bool :=
  match s.round c with
  | none => (s, false)
  | some r =>
    let said := decide (r.phase = rstateCode st)
    let r1 := { r with state := st, closing := false, exportWait := decide (st = .update) && (s.updates r).any (fun j => s.copyPinned c (rdShard r.desc j)) }
    let s1 := (s.setRound c r1).gatePhase c (phaseOf st)
    (if said then s1 else s1.phaseCast c).enterWork c st r1

/-- The round still needs random output (R191, R431): the seeds of OPENING, noise until its SEALs are done. -/
def Round.needsRandom (r : Round) : Bool :=
  decide (r.state = .opening) || (rdDp r.desc && decide (rstateCode r.state ≤ 7)) ||
  (rdDp r.desc && rdGroup r.desc && decide (r.state = .fold))

/-- The round's window count stands still: the entropy source does not run (R431). -/
def State.roundPaused (s : State) (r : Round) : Bool := r.needsRandom && !s.entRunning

/-! ### Input close (R199) -/

/-- No entry is OPEN or CLOSING. -/
def State.shardsClosed (s : State) (c : Nat) : Bool :=
  (s.shardEntries c).all (fun e => decide (s.fld (Reg.shtCtl e.1 e.2.1 e.2.2) 31 30 ≠ 1 ∧ s.fld (Reg.shtCtl e.1 e.2.1 e.2.2) 31 30 ≠ 2))

/-- Once every entry reads CLOSED the module enters COLLECT; a paused round stays in its state (R199, R431). -/
def State.closeEnd (s : State) (c : Nat) : State :=
  match s.round c with
  | some r => if r.closing ∧ s.shardsClosed c ∧ ¬ s.roundPaused r then (s.enterR c .collect).1 else s
  | none => s

/-- INPUT ends: CLOSING to every OPEN entry of the round. -/
def State.closeInput (s : State) (c : Nat) (r : Round) : State :=
  let s1 := (s.shardEntries c).foldl (fun t e =>
    if t.fld (Reg.shtCtl e.1 e.2.1 e.2.2) 31 30 = 1 then t.setFld (Reg.shtCtl e.1 e.2.1 e.2.2) 31 30 2 else t) s
  (((s1.setRound c { r with closing := true }).gatePhase c 6).phaseCast c).closeEnd c

/-- SHARD_CLOSED: INFLIGHT is zero. -/
def execShardClosed (d i j : Fin 4) (s : State) : Result :=
  let a := Reg.shtCtl d.val i.val j.val
  if s.fld a 31 30 = 2 ∧ s.fld (Reg.shtFlight d.val i.val j.val) 7 0 = 0 then
    .next (((s.setFld a 31 30 3).closeEnd (s.sctx d.val i.val)).done Code.ok)
  else .next s.idle

/-- The round's present state ends and the next is entered; INPUT first closes. -/
def State.advance (s : State) (c : Nat) : State × Bool :=
  match s.round c with
  | none => (s, false)
  | some r =>
    if r.state = .input then (if r.closing then s else s.closeInput c r, false)
    else
      let x := s.leave c r
      if x.2 then x else x.1.enterR c (nextRState r.desc r.state)

/-- The states up to code `n` are passed; `fuel` bounds them. -/
def State.advanceTo (s : State) (c n : Nat) : Nat → State × Bool
  | 0 => (s, false)
  | fuel + 1 =>
    match s.round c with
    | none => (s, false)
    | some r =>
      if n ≤ rstateCode r.state ∨ r.closing then (s, false)
      else
        let x := s.advance c
        if x.2 then x else x.1.advanceTo c n fuel

/-! ### ROUND.OPEN, STATUS, COMMIT, ABORT -/

/-- A round accepted: OPENING (R189). -/
def newRound (b : Bytes) (cohorts : List (List QWord)) : Round :=
  { desc := b, state := .opening, graphSeed := 0, clients := [], failed := [], epoch := 0, lostHosts := [], gseeds := []
    cohorts := cohorts, seedGot := none, maps := [], posted := [], counts := [], fed := [], bound := 0
    exportWait := false, closing := false, lateShare := 0, lateSketch := 0, phaseSends := 0, redo := [], doneGot := [], stored := [] }

/-- OPENING starts: the current round of Estuary, the gate, barriers at INST 0, empty seed tables and work lists, bitmap banks
cleared (R189, R198, R253, R296, R371). -/
def State.startRound (s : State) (c : Nat) (b : Bytes) (cohorts : List (List QWord)) : State :=
  let s1 := ((s.setCtx c { s.ctx c with work := [], eccAt := [], exports := [] }).clearMaps c).setRound c (newRound b cohorts)
  let s2 := s1.lds.foldl (fun t l =>
    (t.setReg (Reg.estRound l c) (rdId b)).setFld (Reg.estGate l c) 8 8 (b2n (rdScreen b))) s1
  let s3 := { s2 with
    barInst := s2.barInst.clear (fun k => decide (k / 256 = c)), barMods := s2.barMods.clear (fun k => decide (k / 256 = c)) }
  let s4 := allStrands.foldl (fun t e => if e.2 < 4 ∧ t.boundTo c e then t.zeroSeeds (iNum e.1 e.2) else t) s3
  (s4.gatePhase c 1).phaseCast c

/-- The admission key of a screened round, by GENERATE, VERIFY and COMMIT of its slot (R257, R409). -/
def State.admKey (s : State) (c : Nat) : State × Byte :=
  if s.pst (slotAdm c) ≠ 0 then (s, Code.busy) else s.freshSlot (slotAdm c)

/-- ROUND_OPEN: of several conditions the highest code is reported (R10, R188). -/
def execRoundOpen (p : PmpReq) (q : RoundReq) (s : State) : Result :=
  .next (s.pmp p 0x0300 true (fun t =>
    if ¬ t.ctxLive p.c then t.answer p Code.contextUnavailable
    else if t.roundBad p.c q.desc q.cohorts then t.answer p Code.formatError
    else if t.roundOpen p.c ∨ ¬ t.logFits p.c 112 then t.answer p Code.busy
    else match t.entPort with
    | .stall => s.waits
    | .refused => t.answer p Code.entropyUnavailable
    | .served =>
      let x := if rdScreen q.desc then t.admKey p.c else (t, Code.ok)
      if x.2 = Code.ok then (x.1.startRound p.c q.desc q.cohorts).answer p Code.ok else x.1.answer p x.2))

/-- Encryptions of zero that the SEALs of the round take on this module up to its present state: its own shards', and, in FOLD
on the root, every stream's (R259, R262). -/
def State.zerosNeeded (s : State) (c : Nat) (r : Round) : Nat :=
  if rdOutput r.desc ≠ 1 ∨ (rdGroup r.desc ∧ rdRoot r.desc ≠ s.ownId) then 0
  else
    let js := if r.state = .fold then List.range (rdN r.desc) else s.ownShards r.desc
    ((js.filter (fun j => !r.isFailed j && !r.lostHosts.contains (BitVec.ofNat 14 (rdHost r.desc j)))).map (fun j =>
      (rdElems r.desc j * ringSize (rdRing r.desc) + 2 * (s.ctx c).zeroN - 1) / (2 * (s.ctx c).zeroN))).sum

/-- Encryptions of zero that the round's SEALs still need on this module. -/
def State.zerosLeft (s : State) (c : Nat) (r : Round) : Nat := s.zerosNeeded c r - r.bound

/-- ZERO_SHORT: the pool has too few for the SEALs still to run (R262). -/
def State.zeroShort (s : State) (c : Nat) (r : Round) : Bool :=
  decide (r.state = .seal ∨ r.state = .fold) && decide ((s.ctx c).zeros.length < s.zerosLeft c r)

/-- Clients of the module's shards with a screening outcome. -/
def State.outcomes (s : State) (r : Round) (x : Screening) : Nat :=
  ((s.ownShards r.desc).map (fun j =>
    ((List.range (rdCohort r.desc j)).filter (fun u => decide ((r.client j u).screened = x))).length)).sum

/-- What ROUND.STATUS reports: state, late datagrams, ZERO_SHORT, EXPORT_WAIT, fold epoch, screening outcomes, then the
numbers of FAILED, SATURATED and MODEL_FAULT shards, each list after its length. -/
def State.statusBody (s : State) (c : Nat) (r : Round) : List Nat :=
  let us := s.updates r
  let sat := us.filter (fun j => s.doneWord r j = some true)
  let bad := us.filter (fun j => s.modelFault c r.desc j)
  [rstateCode r.state, r.lateShare, r.lateSketch, b2n (s.zeroShort c r), b2n r.exportWait, r.epoch.toNat] ++
  [Screening.admitted, .refused, .incomplete, .groupFailed, .undecided].map (s.outcomes r) ++
  [r.failed.length] ++ r.failed.map (fun x => x.toNat) ++ [sat.length] ++ sat.map (rdShard r.desc) ++
  [bad.length] ++ bad.map (rdShard r.desc)

/-- ROUND_STATUS. -/
def execRoundStatus (p : PmpReq) (s : State) : Result :=
  .next (s.pmp p 0x0301 true (fun t =>
    match t.round p.c with
    | some r => t.final p.ident p.reqId Code.ok (t.statusBody p.c r)
    | none => t.answer p Code.ok))

/-- A directory entry in memory (R269). -/
def DirEnt.bytes (e : DirEnt) : Bytes :=
  le 3 e.shard.toNat ++ le 1 (b2n e.cur) ++ le 4 e.elems.toNat ++ le 3 e.page.toNat ++ le 5 0 ++ le 8 e.gen.toNat ++ le 8 e.base.toNat

/-- The directory and GEN_HWM of a model as they stand in HBM. -/
def State.putModel (s : State) (c : Nat) (m : Model) : Line :=
  let w := s.hubPut c (m.base + 0x10) (le 8 m.genHwm.toNat)
  if w.stall then w else w.st.hubPut c (m.base + 128) ((m.dir.map DirEnt.bytes).flatten)

/-- The shards to flip: done word written, flag clear, and no fault of the model (R270). -/
def State.flips (s : State) (c : Nat) (r : Round) : List (BitVec 24) :=
  ((s.updates r).filter (fun j => decide (s.doneWord r j = some false) && !s.modelFault c r.desc j)).map
    (fun j => BitVec.ofNat 24 (rdShard r.desc j))

/-- The model after a commit: CUR flips, GEN becomes GEN_HWM + 1, GEN_HWM rises to it. -/
def Model.flip (m : Model) (sh : List (BitVec 24)) : Model :=
  if sh = [] then m
  else { m with
    genHwm := m.genHwm + 1
    dir := m.dir.map (fun e => if sh.contains e.shard then { e with cur := !e.cur, gen := m.genHwm + 1 } else e) }

/-- Commit on this module, and whether it waits for memory (R216, R270). -/
def State.commit (s : State) (c : Nat) : State × Bool :=
  match s.round c with
  | none => (s, false)
  | some r0 =>
    let r := { s.takeDone r0 with posted := [] }
    let t := s.setRound c r
    match (s.ctx c).model with
    | none => (t.endRound c .committed, false)
    | some m =>
      let m1 := m.flip (t.flips c r)
      let w := t.putModel c m1
      if w.stall then (w.st, true)
      else if w.code ≠ Code.ok then (w.st.endRound c .committed, false)
      else ((w.st.setCtx c { w.st.ctx c with model := some m1 }).endRound c .committed, false)

/-- ROUND_COMMIT: only in READY_COMMIT (R216, R476). -/
def execRoundCommit (p : PmpReq) (s : State) : Result :=
  .next (s.pmp p 0x0302 true (fun t =>
    match t.round p.c with
    | none => t.answer p Code.formatError
    | some r =>
      if r.state = .aborted then t.answer p Code.ok
      else if r.state ≠ .readyCommit then t.answer p Code.busy
      else s.goOn (t.commit p.c) (fun u => u.answer p Code.ok)))

/-- ROUND_ABORT: in every state except COMMITTED (R191, R476). -/
def execRoundAbort (p : PmpReq) (s : State) : Result :=
  .next (s.pmp p 0x0303 true (fun t =>
    match t.round p.c with
    | none => t.answer p Code.formatError
    | some r =>
      if r.state = .committed then t.answer p Code.busy
      else if r.state = .aborted then t.answer p Code.ok
      else (t.endRound p.c .aborted).answer p Code.ok))

/-! ### Work done and windows -/

/-- SEALs are done once each has taken its encryption of zero; with too few in the pool the round stays (R262). A block of a mask
sum that a SEAL found uncorrectable is expanded again first (R210), and F work entries that found no free half are posted
(R267). -/
def State.sealsDone (s : State) (c : Nat) (r : Round) : State :=
  let own := decide (r.state = .seal)
  if r.redo ≠ [] then s.goOn (s.feedAgain c) (fun t => t.done Code.ok)
  else if s.unposted r own ≠ [] then s.goOn (s.postFs c (s.unposted r own)) (fun t => t.done Code.ok)
  else if s.zeroShort c r then s.waits
  else if 0 < s.zerosLeft c r then s.idle
  else s.goOn (s.advance c) (fun t => t.done Code.ok)

/-- Work of a state of the round is done: the coordinator moves on (R189). -/
def State.workDone (s : State) (c : Nat) (r : Round) (w : RoundWork) : State :=
  let on := s.goOn (s.advance c) (fun t => t.done Code.ok)
  match w, r.state with
  | .opening, .opening => if s.entRunning ∧ s.mapsClear c then on else s.waits
  | .collect, .collect =>
    if s.roundPaused r then s.waits else if (s.ownShards r.desc).all r.secretsDone then on else s.idle
  | .expand, .expand =>
    if s.roundPaused r then s.waits else if s.masksLeft c r then s.goOn (s.feedMasks c) (fun t => t.done Code.ok) else on
  | .seal, .seal => if s.roundPaused r then s.waits else s.sealsDone c r
  | .fold, .fold => if s.roundPaused r then s.waits else s.sealsDone c r
  | .update, .update =>
    if r.exportWait then s.waits
    else if (s.updates r).all (fun j => (s.doneWord r j).isSome || s.modelFault c r.desc j) then on
    else s.idle
  | _, _ => s.idle

/-- What has reached a module is kept with its round: GRAPH_SEED where it does not coordinate, group seeds of partners with
a lower module id, count vectors (R192, R212, R267). -/
def State.learn (s : State) (r : Round) (n : RoundNews) : Round :=
  { r with
    seedGot := if s.isCoord r.desc then none else n.graphSeed <|> r.seedGot
    gseeds := n.gseeds.filter (fun e => decide (e.1.toNat < s.ownId)) ++ r.gseeds
    counts := n.counts ++ r.counts }

/-- A module that does not coordinate: it keeps what has reached it, fills the next halves of its seed tables (R206), posts F work
entries that found no free half (R267), and expands again a block that a SEAL found uncorrectable (R210). -/
def State.memberWork (s : State) (c : Nat) (r : Round) (w : RoundWork) (n : RoundNews) : State :=
  let own := decide (r.state = .seal)
  if w = .expand ∧ r.state = .expand ∧ s.masksLeft c r then s.goOn (s.feedMasks c) (fun t => t.done Code.ok)
  else if (w = .seal ∨ w = .fold) ∧ (r.state = .seal ∨ r.state = .fold) ∧ r.redo ≠ [] then
    s.goOn (s.feedAgain c) (fun t => t.done Code.ok)
  else if (w = .seal ∨ w = .fold) ∧ (r.state = .seal ∨ r.state = .fold) ∧ s.unposted r own ≠ [] then
    s.goOn (s.postFs c (s.unposted r own)) (fun t => t.done Code.ok)
  else if n = ⟨none, [], []⟩ then s.idle
  else s.done Code.ok

/-- ROUND_WORK_DONE. -/
def execRoundWorkDone (ctx : Fin 16) (w : WorkEnd) (s : State) : Result :=
  s.byDaxna (match s.round ctx.val with
    | some r =>
      if ¬ s.roundOpen ctx.val then .next s.idle
      else
        let r1 := s.learn r w.news
        let t := s.setRound ctx.val r1
        .next (if s.isCoord r.desc then t.workDone ctx.val r1 w.work else t.memberWork ctx.val r1 w.work w.news)
    | none => .next s.idle)

/-- A window of the coordinator ends (R23, R189, R199). -/
def State.windowEnd (s : State) (c : Nat) (r : Round) : State :=
  let on := s.goOn (s.advance c) (fun t => t.done Code.ok)
  match r.state with
  | .opening => (s.endRound c .aborted).done Code.ok
  | .advertise => on
  | .share => on
  | .screen => on
  | .input => on
  | .collect => on
  | .expand => s.idle
  | .seal => s.idle
  | .fold => s.idle
  | .update => s.idle
  | .readyCommit => s.idle
  | .committed => s.idle
  | .aborted => s.idle

/-- PHASE_WINDOW_EXPIRE: the window count stands still while the source has failed (R431). -/
def execPhaseWindowExpire (ctx : Fin 16) (s : State) : Result :=
  match s.round ctx.val with
  | some r =>
    if ¬ s.isCoord r.desc then .next s.idle
    else if s.roundPaused r ∨ s.hub.reset.isSome then .next s.waits
    else .next (s.windowEnd ctx.val r)
  | none => .next s.idle

/-! ### Survivors (R200, R201) -/

/-- Class of a client from its bits. -/
def State.classOf (s : State) (r : Round) (j u : Nat) (x : Client) : ClientClass :=
  let n := rdChunks r.desc j
  let k := ((List.range n).filter (fun i => s.chunkBit r j u i)).length
  if x.dropped ∨ (rdScreen r.desc ∧ x.screened ≠ .admitted) ∨ k = 0 then .absent
  else if k = n then .complete else .partly

/-- The record of neighbour v in a collect request: KIND and PARTIAL; none where nothing is needed of it. -/
def Round.collectRec (r : Round) (j v : Nat) : Option Bytes :=
  let k := b2n (r.needB j v) + 2 * b2n (r.needS j v)
  if k = 0 then none else some (be 4 v ++ le 1 k ++ le 1 (b2n (decide ((r.client j v).cls = .partly))) ++ [0, 0])

/-- Every client of entry j is classified, and each survivor gets its collect request. -/
def State.classify_ (s : State) (c : Nat) (r : Round) (j : Nat) : State :=
  let r1 := r.eachClient j (fun u x => { x with cls := s.classOf r j u x })
  let r2 := r1.eachClient j (fun _ x => { x with asked := x.inSum })
  (List.range (rdCohort r.desc j)).foldl (fun t u =>
    if (r2.client j u).inSum then t.tellList c r2 j u 3 4 1022 [] ((r1.near j u).filterMap (r1.collectRec j)) else t)
    (s.setRound c r2)

/-- CLIENT_CLASSIFY: in COLLECT, once for a shard. -/
def execClientClassify (ctx : Fin 16) (shard : BitVec 24) (s : State) : Result :=
  s.byDaxna (match s.round ctx.val with
    | none => .next s.idle
    | some r =>
      match s.shardIx r.desc shard.toNat with
      | none => .next s.idle
      | some j =>
        if r.state = .collect ∧ (r.client j 0).cls = .unclassified then .next ((s.classify_ ctx.val r j).done Code.ok)
        else .next s.idle)

/-! ### SHARE datagrams (R190, R194, R195, R201) -/

/-- CLOSE ROUND with RETRY_EXCEEDED for a SHARE datagram out of its phase (R190). -/
def State.closeShare (s : State) (i : Nat) (m : Aip) : State :=
  s.postTx i 0 (mkAip 8 3 Code.retryExceeded 0 m.round m.shard.toNat 0 (le 8 0))

/-- Daxna takes a SHARE datagram: a resend of one it has acted on gets its answer again; one of a round that the context does
not run is dropped and counted; in its phase it acts once and acknowledges, otherwise the datagram is late or early and the
client's part in the round ends (R190, R286). -/
def State.shareMsg (s : State) (l : Nat) (sub : Nat → Bool) (phase : RState)
    (act : Nat → Round → Nat → Nat → Aip → State → State) : Result :=
  .next (s.takeSetup l (fun x => decide (x.msg.typ = 3) && sub x.msg.subtype.toNat) (fun x t =>
    match x.session with
    | none => t
    | some i =>
      let y := t.session i
      let c := y.ctx.val
      if x.msg.seq ∈ y.seen then (if x.msg.seq ∈ y.closed then t.closeShare i x.msg else t.ackReceived i x.msg)
      else match t.round c with
      | none => t.estCount l 0x4C
      | some r =>
        if ¬ t.roundOpen c ∨ rdId r.desc ≠ x.msg.round then t.estCount l 0x4C
        else if r.state ≠ phase then
          ((t.setRound c { r with lateShare := r.lateShare + 1 }).setSession i
            { y with seen := x.msg.seq :: y.seen, closed := x.msg.seq :: y.closed }).closeShare i x.msg
        else match t.shardIx r.desc x.msg.shard.toNat with
        | none => t.ackReceived i x.msg
        | some j =>
          match r.slotOf j y.client with
          | none => t.ackReceived i x.msg
          | some u => (t.once i x.msg (act c r j u x.msg)).ackReceived i x.msg))

/-- ADVERTISE: the client's keys and commitment, once. -/
def advertiseAct (c : Nat) (r : Round) (j u : Nat) (m : Aip) (t : State) : State :=
  let x := r.client j u
  if m.payload.length ≠ 248 ∨ x.adv.isSome then t
  else t.setRound c (r.setClient j u { x with adv := some (sub m.payload 0 97, sub m.payload 97 97, sub m.payload 194 48) })

/-- SHARE_ADVERTISE. -/
def execShareAdvertise (ld : Fin 4) (s : State) : Result :=
  s.shareMsg ld.val (fun k => decide (k = 1)) .advertise advertiseAct

/-- Records of a payload. -/
def recordsOf (n : Nat) (b : Bytes) : List Bytes := (List.range (b.length / n)).map (fun q => sub b (q * n) n)

/-- SHARES: one ciphertext for each neighbour, into the share store (R195). -/
def sharesAct (c : Nat) (r : Round) (j u : Nat) (m : Aip) (t : State) : State :=
  if (r.client j u).dropped then t
  else
    let good := (recordsOf 128 m.payload).filter (fun e =>
      decide (fromBE (sub e 4 4) = u ∧ fromLE (sub e 120 8) = 0) && (r.near j u).contains (fromBE (sub e 0 4)))
    good.foldl (fun w e =>
      match w.round c with
      | none => w
      | some q =>
        let v := fromBE (sub e 0 4)
        let x := q.client j u
        if x.shares.contains v then w
        else
          let y := w.hubPut c (shareAt c q.desc j u v) e
          if y.stall ∨ y.code ≠ Code.ok then y.st
          else
            let q1 := q.setClient j u { x with shares := x.shares ++ [v] }
            y.st.setRound c { q1 with stored := shareAt c q.desc j u v :: q1.stored }) t

/-- SHARE_SHARES: the share store must be awake. -/
def execShareShares (ld : Fin 4) (s : State) : Result :=
  match s.hbmWait with
  | some t => .next (s.waitsFor t)
  | none => s.shareMsg ld.val (fun k => decide (k = 2)) .share sharesAct

/-- REVEAL: the shares that the collect request named. -/
def revealAct (c : Nat) (r : Round) (j u : Nat) (m : Aip) (t : State) : State :=
  if ¬ (r.client j u).asked then t
  else
    t.setRound c ((recordsOf 56 m.payload).foldl (fun w e =>
      let v := fromBE (sub e 0 4)
      let pw := decide (field e 4 1 = 2)
      let y := w.client j v
      if (r.near j u).contains v ∧ (if pw then w.needS j v else decide (field e 4 1 = 1) && w.needB j v) ∧
          ¬ y.revealed.any (fun z => decide (z.1 = pw ∧ z.2.1 = u)) then
        w.setClient j v { y with revealed := y.revealed ++ [(pw, u, sub e 8 48)] }
      else w) r)

/-- SHARE_REVEAL; DELIVER and COLLECT, which a client has no cause to send, are acknowledged with it. -/
def execShareReveal (ld : Fin 4) (s : State) : Result :=
  s.shareMsg ld.val (fun k => decide (3 ≤ k)) .collect (fun c r j u m t => if m.subtype = 5 then revealAct c r j u m t else t)

/-! ### Reconstruction (R202, R204) -/

/-- The value at zero of T shares, 48 bytes big-endian: the share of slot v stands at x = v + 1 (R196). -/
def interp (xs : List (Bool × Nat × Bytes)) : Bytes := be 48 (interpolate (xs.map (fun e => (e.2.1 + 1, fromBE e.2.2))))

/-- A value verifies: b against H_u, s against S_u. -/
def verifies (b : Bytes) (a : Bytes × Bytes × Bytes) (pw : Bool) (v : Bytes) : Bool :=
  if pw then decide (Config.p384Public v = a.2.1)
  else decide (shaBytes (ascii "A9 self" ++ be 4 (rdId b).toNat ++ v.drop 16) = a.2.2)

/-- From the first T shares to arrive; while that fails, each time the share received earliest gives way to the next. -/
def reconstruct (b : Bytes) (a : Bytes × Bytes × Bytes) (pw : Bool) (t : Nat) (xs : List (Bool × Nat × Bytes)) : Option Bytes :=
  ((List.range (xs.length + 1 - t)).map (fun k => interp ((xs.drop k).take t))).find? (verifies b a pw)

/-- SECRET_INTERPOLATE. -/
def execSecretInterpolate (ctx : Fin 16) (shard : BitVec 24) (slot : Nat) (pairwise : Bool) (s : State) : Result :=
  s.byDaxna (match s.round ctx.val with
    | none => .next s.idle
    | some r =>
      match s.shardIx r.desc shard.toNat with
      | none => .next s.idle
      | some j =>
        let x := r.client j slot
        let xs := x.revealed.filter (fun e => decide (e.1 = pairwise))
        match x.adv with
        | none => .next s.idle
        | some a =>
          if r.state ≠ .collect ∨ rdCohort r.desc j ≤ slot ∨ ¬ (if pairwise then r.needS j slot else r.needB j slot) ∨
              xs.length < rdT r.desc then .next s.idle
          else match reconstruct r.desc a pairwise (rdT r.desc) xs with
          | none => .next (s.done Code.signatureFail)
          | some v =>
            let y := if pairwise then { x with secretS := some v } else { x with secretB := some (v.drop 16) }
            .next ((s.setRound ctx.val (r.setClient j slot y)).done Code.ok))

/-- s_uv (R204); ROUND_ID, SHARD and the slots stand big-endian in 4, 3, 4 and 4 bytes (DESIGN CHOICE,
notes/assumptions/136.md). -/
def pairSeed (b : Bytes) (j v u : Nat) (sv su : Bytes) : Bytes :=
  le 32 ((Config.hkdf (Config.ecdh sv su) (be 4 (rdId b).toNat ++ be 3 (rdShard b j))
    (ascii "A9 pair" ++ be 4 (min u v) ++ be 4 (max u v))).setWidth 256).toNat

/-- PAIRWISE_SEED_DERIVE: from the reconstructed secret of v, ABSENT or PARTIAL, and a neighbour u in the sum. -/
def execPairwiseSeedDerive (ctx : Fin 16) (shard : BitVec 24) (v u : Nat) (s : State) : Result :=
  s.byDaxna (match s.round ctx.val with
    | none => .next s.idle
    | some r =>
      match s.shardIx r.desc shard.toNat with
      | none => .next s.idle
      | some j =>
        match (r.client j v).secretS, (r.client j u).adv with
        | some sv, some a =>
          let x := r.client j v
          if (r.near j v).contains u ∧ (r.client j u).inSum ∧ (x.cls = .absent ∨ x.cls = .partly) then
            let e := (u, pairSeed r.desc j v u sv a.2.1)
            .next ((s.setRound ctx.val (r.setClient j v { x with
              pair := x.pair.filter (fun y => decide (y.1 ≠ u)) ++ [e] })).done Code.ok)
          else .next s.idle
        | _, _ => .next s.idle)

/-! ### Groups (R203, R214) -/

/-- SHARD_FAIL_REPORT: a module learns of a FAILED shard; the coordinator has the root CLEAR its stream (R203). -/
def execShardFailReport (ctx : Fin 16) (shard : BitVec 24) (s : State) : Result :=
  s.byDaxna (match s.round ctx.val with
    | none => .next s.idle
    | some r =>
      match (List.range (rdN r.desc)).find? (fun j => decide (rdShard r.desc j = shard.toNat)) with
      | none => .next s.idle
      | some j =>
        if ¬ s.roundOpen ctx.val ∨ ¬ rdGroup r.desc then .next s.idle
        else .next (((s.setRound ctx.val (r.failShard j)).clearStream ctx.val r.desc shard.toNat).done Code.ok))

/-- Hosts whose stream has not completed: of a shard that has not failed, with blocks left (R214). -/
def State.lateHosts (s : State) (c : Nat) (r : Round) : List (BitVec 14) :=
  (((List.range (rdN r.desc)).filter (fun j =>
    let v := s.fse (Config.streamTag c (rdShard r.desc j) % 65536)
    decide (rdHost r.desc j ≠ rdRoot r.desc) && !r.isFailed j && decide (fseDone v < fseNblocks v))).map
      (fun j => BitVec.ofNat 14 (rdHost r.desc j))).eraseDups

/-- The epoch's REMASK work on a host is cancelled: a SEAL in progress gives up its lines, the group-mask tiles in FOLD's input
slots are dropped, and nothing of its output goes out (R214). -/
def State.cancelRemask (s : State) (c : Nat) : State :=
  (s.iStrands c).foldl (fun t e =>
    let ix := strandIx e.1 e.2 * 8 + St.fold
    let x := t.stage ix
    { t.setStage ix { x.sealEnd with slots := [], owed := x.owed + x.slots.length } with
      sealed := t.sealed.put (fun _ => []) (iNum e.1 e.2) [] }) (s.clearFoldOut c)

/-- A fold epoch ends (R214): the late hosts are failed and their clients dropped, the epoch's REMASK work is cancelled, and
epoch E + 1 starts with new group masks; whether memory waits. -/
def State.epochEnds (s : State) (c : Nat) (r : Round) (hs : List (BitVec 14)) : State × Bool :=
  let r1 := (List.range (rdN r.desc)).foldl (fun t j =>
    if hs.contains (BitVec.ofNat 14 (rdHost r.desc j)) then t.eachClient j (fun _ x => { x with dropped := true }) else t) r
  let s1 := s.setRound c { r1 with lostHosts := (r.lostHosts ++ hs).eraseDups, epoch := r.epoch + 1 }
  (if rdRoot r.desc = s.ownId then s1 else s1.cancelRemask c).feedGroup c

/-- What the late hosts' message holds: the new epoch, then the hosts. -/
def lateBody (r : Round) (hs : List (BitVec 14)) : Bytes := [r.epoch + 1] ++ (hs.map (fun h => be 2 h.toNat)).flatten

/-- FOLD_EPOCH_END: a stream of the root's has expired. The coordinator ends the epoch and tells every module; a root that does
not coordinate reports the late hosts to it; `late`: the hosts that such a message names. -/
def execFoldEpochEnd (ctx : Fin 16) (x : EpochEnd) (s : State) : Result :=
  s.byDaxna (let c := ctx.val
    let late := x.late
    match s.round c with
    | none => .next s.idle
    | some r =>
      let root := decide (rdRoot r.desc = s.ownId)
      let expired := root && fseExpired (s.fse x.tag.toNat)
      let hs := if root then s.lateHosts c r else late
      if r.state ≠ .fold ∨ ¬ rdGroup r.desc then .next s.idle
      else if s.isCoord r.desc then
        (if expired ∨ (¬ root ∧ late ≠ []) then
          .next (s.goOn ((s.tellAll r.desc 5 (lateBody r hs)).epochEnds c r hs) (fun t => t.done Code.ok))
         else .next s.idle)
      else if late ≠ [] then .next (s.goOn (s.epochEnds c r late) (fun t => t.done Code.ok))
      else if expired then .next ((s.emit (.daxna (BitVec.ofNat 14 (rdCoord r.desc)) 5 (lateBody r hs))).done Code.ok)
      else .next s.idle)

/-! ### Screening (R252, R253, R256–R258) -/

/-- Entries of a C-strand that are listed and not decided. -/
def State.openWork (s : State) (r : Round) (k : Nat) : Nat :=
  ((s.ownShards r.desc).map (fun j => ((List.range (rdCohort r.desc j)).filter (fun u =>
    let x := r.client j u
    decide (x.screened = .undecided) && (match x.listed with | some e => decide (e.1 = k) | none => false))).length)).sum

/-- A work entry (R253). -/
def workRec (shard slot group pos : Nat) : Bytes := le 3 shard ++ [0] ++ le 4 slot ++ le 2 group ++ le 2 pos ++ le 4 0

/-- One complete sketch goes to the C-strand with the fewest entries outstanding: its entry is written, then COUNT. -/
def State.listSketch (s : State) (c j u : Nat) : State :=
  match s.round c with
  | none => s
  | some r =>
    let best := (s.cStrands c).foldl (fun (acc : Option (Nat × Nat)) e =>
      match acc with
      | none => some e
      | some f => if s.openWork r (cNum e) < s.openWork r (cNum f) then some e else acc) none
    match best with
    | none => s
    | some e =>
      let k := cNum e
      let n := s.listedOn c k
      let np := s.packN c
      let w := s.postWork c k (strandIx e.1 e.2) (workRec (rdShard r.desc j) u (n / np) (n % np))
      if w.2.2.isNone then w.1
      else
        let t := w.1.setCtx c { w.1.ctx c with
          exports := (w.1.ctx c).exports.filter (fun a => decide (a ≠ Config.groupHeader c k (n / np))) }
        t.setRound c (r.setClient j u { r.client j u with listed := some (k, n / np, n % np) })

/-- A client is admitted: its session is marked and gets the token (R257). -/
def State.admitClient (s : State) (c j u : Nat) : State :=
  match s.round c with
  | none => s
  | some r =>
    let s1 := s.setRound c (r.setClient j u { r.client j u with screened := .admitted })
    let tk := be 4 (rdId r.desc).toNat ++ be 3 (rdShard r.desc j) ++ [1] ++ be 4 u ++ be 4 0
    match s.sessionOf c r j u with
    | none => s1
    | some i =>
      s1.postDesc (i / 2 ^ 20)
        { op := 2, ctx := (s.session i).ctx, index := BitVec.ofNat 22 i
          msg := mkAip 2 3 Code.ok (s.session i).sid (rdId r.desc) (rdShard r.desc j) 0 (tk ++ s.admMac c tk)
          record := SessRec.zero, client := 0, tries := 0, admitRound := rdId r.desc }

/-- A client is refused: it receives CLOSE with status OK (R257). -/
def State.refuseClient (s : State) (c j u : Nat) : State :=
  match s.round c with
  | none => s
  | some r => (s.setRound c (r.setClient j u { r.client j u with screened := .refused })).closeRound c r j u Code.ok

/-- Clients listed under a group: entry, slot, position. -/
def State.groupClients (s : State) (c k g : Nat) : List (Nat × Nat × Nat) :=
  match s.round c with
  | none => []
  | some r =>
    (s.ownShards r.desc).flatMap (fun j => (List.range (rdCohort r.desc j)).filterMap (fun u =>
      match (r.client j u).listed with
      | some e => if e.1 = k ∧ e.2.1 = g then some (j, u, e.2.2) else none
      | none => none))

/-- Screening may still decide clients: INPUT has not ended (R258). -/
def Round.decides (r : Round) : Bool := decide (rstateCode r.state ≤ 4) && !r.closing

/-- The combination of a group decides its undecided clients: bit 1 admits, bit 0 refuses (R256, R258). -/
def State.decideGroup (s : State) (c k g : Nat) (bits : Bytes) : State :=
  (s.groupClients c k g).foldl (fun t e =>
    match t.round c with
    | none => t
    | some r =>
      if (r.client e.1 e.2.1).screened ≠ .undecided ∨ ¬ r.decides then t
      else if (bits.getD (e.2.2 / 8) 0).getLsbD (e.2.2 % 8) then t.admitClient c e.1 e.2.1 else t.refuseClient c e.1 e.2.1) s

/-- A group's combination answered POISONED_OPERAND, or the group faulted (R258); its clients get no CLOSE (DESIGN CHOICE,
notes/assumptions/140.md). -/
def State.failGroup (s : State) (c k g : Nat) : State :=
  (s.groupClients c k g).foldl (fun t e =>
    match t.round c with
    | none => t
    | some r =>
      let x := r.client e.1 e.2.1
      if x.screened = .undecided ∧ r.decides then t.setRound c (r.setClient e.1 e.2.1 { x with screened := .groupFailed }) else t) s

/-- A group has been posted: it is full, or no further sketch can reach it because SCREEN has ended and every whole sketch is
listed, and the C-recipe has exported it (R253, R256). -/
def State.groupPosted (s : State) (c k g : Nat) : Bool :=
  (s.ctx c).exports.contains (Config.groupHeader c k g) &&
  (decide ((g + 1) * s.packN c ≤ s.listedOn c k) ||
  (match s.round c with
   | some r =>
     decide (g * s.packN c < s.listedOn c k ∧ 3 < rstateCode r.state) &&
     (s.ownShards r.desc).all (fun j => (List.range (rdCohort r.desc j)).all (fun u =>
       let x := r.client j u
       x.dropped || x.listed.isSome || decide (x.screened ≠ .undecided) || !s.sketchWhole c r j u))
   | none => false))

/-- The C-recipe of a FAULTED strand has stopped inside the first group that it has not posted: that group has faulted
(R258). -/
def State.failStopped (s : State) (c : Nat) : State :=
  (s.cStrands c).foldl (fun t e =>
    let k := cNum e
    if t.sst e.1 e.2 = SS.faulted then
      match (List.range ((t.listedOn c k + t.packN c - 1) / t.packN c)).find? (fun g => !t.groupPosted c k g) with
      | some g => t.failGroup c k g
      | none => t
    else t) s

/-- SKETCH_SCAN: every newly complete sketch is listed, and groups of stopped strands fail. -/
def execSketchScan (ctx : Fin 16) (s : State) : Result :=
  s.byDaxna (let c := ctx.val
    match s.round c with
    | none => .next s.idle
    | some r =>
      if ¬ rdScreen r.desc ∨ ¬ s.roundOpen c ∨ rstateCode r.state < 3 then .next s.idle
      else .next (((s.ownShards r.desc).foldl (fun t j => (List.range (rdCohort r.desc j)).foldl (fun w u =>
        let x := r.client j u
        if ¬ x.dropped ∧ x.listed.isNone ∧ x.screened = .undecided ∧ w.sketchWhole c r j u then w.listSketch c j u else w) t) (s.failStopped c)).done
          Code.ok))

/-- UPDATE_START: an update of the shard starts unless an export pins the copies; then it waits and EXPORT_WAIT is
reported (R275). -/
def execUpdateStart (ctx : Fin 16) (shard : BitVec 24) (s : State) : Result :=
  s.byDaxna (match s.round ctx.val with
    | none => .next s.idle
    | some r =>
      if r.state ≠ .update ∨ ¬ (s.updates r).any (fun j => decide (rdShard r.desc j = shard.toNat)) then .next s.idle
      else if s.copyPinned ctx.val shard.toNat then .next (s.setRound ctx.val { r with exportWait := true }).waits
      else .next ((s.setRound ctx.val { r with exportWait := false }).done Code.ok))

/-! ### PHASE (R372) -/

/-- The first copy of a pair of ROUND_ID and state: a module of the round that does not coordinate it follows. -/
def State.phaseAct (s : State) (c n : Nat) (id : Word) : State × Bool :=
  match s.round c with
  | none => (s, false)
  | some r =>
    if ¬ s.roundOpen c ∨ rdId r.desc ≠ id ∨ ¬ rdGroup r.desc ∨ s.isCoord r.desc then (s, false)
    else if s.roundPaused r ∧ n < 11 then (s, true)
    else if n = 12 then (s.endRound c .aborted, false)
    else if n = 11 then s.commit c
    else s.advanceTo c n 12

/-- PHASE_RECEIVE. -/
def execPhaseReceive (ctx state : Byte) (round : Word) (s : State) : Result :=
  s.byDaxna (if s.phases.contains (round, state) then .next s.idle
    else if 16 ≤ ctx.toNat ∨ 12 < state.toNat then .next s.idle
    else .next (s.goOn ({ s with phases := (round, state) :: s.phases }.phaseAct ctx.toNat state.toNat round)
      (fun t => t.done Code.ok)))

/-- PHASE_RESEND: every 1 ms for 10 ms. -/
def execPhaseResend (ctx : Fin 16) (s : State) : Result :=
  s.byDaxna (match s.round ctx.val with
    | none => .next s.idle
    | some r =>
      if r.phaseSends = 0 then .next s.idle
      else .next (((s.setRound ctx.val { r with phaseSends := r.phaseSends - 1 }).sendCtrl none 6
        (be 1 ctx.val ++ be 1 r.phase ++ be 4 (rdId r.desc).toNat)).done Code.ok))

end Sys2Proof.Machine
end

