-- ==== Sys2Proof/Machine/Entropy.lean ====
section
/-! DEFINITION. The entropy source (R422–R435): meanings of ENT_STARTUP_DONE, OSC_TEST_FAIL, ENT_RESTART_ATTEMPT,
ENT_RESTART, ENT_OSC_EN_WRITE, ENT_DATA_READ, ENTROPY_REQUEST, DRBG_RESEED and PORT_RESEED. -/

namespace Sys2Proof.Machine

/-- Every stalled request completes with ENTROPY_UNAVAILABLE (R429). -/
def State.dropStalled (s : State) : State := { s with ent := { s.ent with stalled := [] } }

/-- ENT_FAILED: the source is DEAD; every round that still needs random output aborts (R432, R191). -/
def State.entDead (s : State) : State :=
  let s1 := (s.setEntState ES.dead).post 3 (Ev.of 6 5 Code.entropyUnavailable 4 0 0 0)
  (List.range 16).foldl (fun t c =>
    match t.round c with
    | some r => if r.needsRandom then t.abortRound c else t
    | none => t) s1

/-- A startup begins: the enabled oscillators are in use, nothing carries over (R428, R432). -/
def State.entBegin (s : State) : State :=
  let s1 := ((s.setEntState ES.startup).setInUse (s.fld Reg.entOscEn 7 0)).setReg Reg.entHealth 0
  ({ s1 with ent := { s1.ent with excl := 0, tests := [] } }).zeroDrbg

/-- ENT_HEALTH after the startup test: the oscillators and the interleaved stream that failed it (R433). -/
def State.startupHealth (s : State) (o : OscMask) (x : CombTest) : State :=
  let m := s.oscInUse
  let s1 := (s.setFld Reg.entHealth 7 0 (s.fld Reg.entHealth 7 0 ||| (m &&& o.rct.toNat))).setFld Reg.entHealth 15 8
    (s.fld Reg.entHealth 15 8 ||| (m &&& o.apt.toNat))
  s1.health none x.rct x.apt

/-- The source is RUNNING: the root is instantiated from the three conditioned blocks taken and every port from the root, output is
there, the stalled requests are served, the PERSIST slots that wait are generated, paused rounds go on; a restart writes a
record (R428, R432, R413). -/
def State.entUp (s : State) (restart : Bool) : State :=
  let n := s.fld Reg.entStat 23 22
  let s1 := (s.setEntState ES.running).emptySet false
  let s2 := { s1 with ent := { s1.ent with excl := 0, stalled := [] }.instantiate }
  let s3 := if restart then s2.post 3 (Ev.of 6 4 Code.ok 4 0 0 n) else s2
  (List.range 16).foldl (fun t c => t.closeEnd c) ((s3.setFld Reg.entCtl 31 31 0).fillPersist)

/-- A startup fails: FAILED, or DEAD after the third attempt or a RESTART (R428, R432). -/
def State.entDown (s : State) : State :=
  let n := s.fld Reg.entStat 23 22
  let s1 := (s.dropStalled.zeroDrbg).setFld Reg.entCtl 31 31 0
  if n = 3 ∨ s.fld Reg.entCtl 31 31 = 1 then s1.entDead else s1.setEntState ES.failed

/-- A startup test that six oscillators passed: the conditioner absorbs bits until it has released three blocks, all under the
tests of R423; then the source is RUNNING, or the startup has failed (R428). -/
def State.startupEnd (s : State) (us : Nat) : State :=
  let again := decide (s.fld Reg.entStat 23 22 ≠ 0 ∨ s.fld Reg.entCtl 31 31 = 1)
  let t := if 6 ≤ oscCount s.oscInUse ∧ ¬ s.combBad ∧ us ≤ 20000 then s.takeBlocks 3 else s
  if 6 ≤ oscCount t.oscInUse ∧ ¬ t.combBad ∧ us ≤ 20000 ∧ t.ent.taken.length = 3 then (t.entUp again).done Code.ok
  else t.entDown.done Code.entropyUnavailable

/-- ENT_STARTUP_DONE: the oscillators that failed the startup test, and what the interleaved stream failed; the source starts
once AON power is good (R428). -/
def execEntStartupDone (failed : OscMask) (interleaved : CombTest) (us : Nat) (s : State) : Result :=
  if s.entState ≠ ES.startup ∨ ¬ s.pins.auxOk then .next s.idle
  else .next (((s.startupHealth failed interleaved).setInUse
    (s.oscInUse &&& (255 - (failed.rct ||| failed.apt).toNat))).startupEnd us)

/-- OSC_TEST_FAIL (R423, R428, R430): an oscillator is excluded; the interleaved stream fails the source, or the startup. -/
def execOscTestFail (osc : Option (Fin 8)) (rct apt : Bool) (s : State) : Result :=
  if ¬ (rct ∨ apt) ∨ (s.entState ≠ ES.running ∧ s.entState ≠ ES.startup) then .next s.idle
  else match osc with
  | some o => if s.oscInUse.testBit o.val then .next ((s.oscFails o rct apt).done Code.ok) else .next s.idle
  | none =>
    let t := s.combFails rct apt
    .next ((if s.entState = ES.startup then t.entDown else t).done Code.ok)

/-- ENT_RESTART_ATTEMPT: from FAILED, 10 ms after the failure (R432). -/
def execEntRestartAttempt (s : State) : Result :=
  if s.entState = ES.failed ∧ s.fld Reg.entStat 23 22 < 3 then
    .next ((s.entBegin.setFld Reg.entStat 23 22 (s.fld Reg.entStat 23 22 + 1)).done Code.ok)
  else .next s.idle

/-- RESTART: one further attempt from DEAD (R432). -/
def State.entRestart (s : State) : State :=
  if s.entState = ES.dead then (s.entBegin.setFld Reg.entCtl 31 31 1).done Code.ok else s.idle

/-- ENT_RESTART. -/
def execEntRestart (world : World) (s : State) : Result := .next (s.secureOnly world Reg.entCtl State.entRestart)

/-- A write of ENT_OSC_EN: ignored with fewer than six bits; a bit written 0 takes its oscillator out at once (R434). -/
def State.oscEnWrite (s : State) (v : Word) : State :=
  let m := bits v 7 0
  if oscCount m < 6 then s.idle
  else
    let s0 := (s.setReg Reg.entOscEn (BitVec.ofNat 32 m)).setInUse (s.oscInUse &&& m)
    let s1 := if s0.oscInUse = s.oscInUse then s0 else s0.dropBlock
    (if s.entState = ES.running ∧ oscCount s1.oscInUse < 6 then s1.entFail else s1).done Code.ok

/-- ENT_OSC_EN_WRITE. -/
def execEntOscEnWrite (world : World) (v : Word) (s : State) : Result :=
  .next (s.secureOnly world Reg.entOscEn (fun t => t.oscEnWrite v))

/-- A read of ENT_DATA_LO: 64 new bits, of which [63:32] are latched; zero with EMPTY and ERR while there is no output
(R433, R431). -/
def State.entReadLo (s : State) (core : Nat) : State :=
  if s.entState = ES.running then
    let v := (s.drawn Port.reg 0).toNat
    let s1 := { s with latch := s.latch.put (fun _ => none) core (some (Reg.entDataLo, BitVec.ofNat 32 (v / 2 ^ 32))) }
    (s1.draw Port.reg 1).val (v % 2 ^ 32)
  else
    ({ s with latch := s.latch.put (fun _ => none) core (some (Reg.entDataLo, 0)) }.setFld Reg.entStat 28 27 3).val 0

/-- A read of ENT_DATA_HI: the core's latched bits; with none, bits the spec does not give (R34). -/
def State.entReadHi (s : State) (core : Nat) : State :=
  match s.latch.get (fun _ => none) core with
  | some (a, v) =>
    if a = Reg.entDataLo then ({ s with latch := s.latch.put (fun _ => none) core none }).val v.toNat
    else if s.entState = ES.running then (s.took 1).val (s.free.toNat % 2 ^ 32)
    else (s.setFld Reg.entStat 28 27 3).val 0
  | none =>
    if s.entState = ES.running then (s.took 1).val (s.free.toNat % 2 ^ 32) else (s.setFld Reg.entStat 28 27 3).val 0

/-- ENT_DATA_READ. -/
def execEntDataRead (a : Acc) (s : State) : Result :=
  .next (s.access a false (fun t =>
    if a.addr = Reg.entDataHi then t.entReadHi a.core.val else t.entReadLo a.core.val))

/-- A port gives n blocks of 128 bits: they are put out to the unit that asked (R426, R427). -/
def State.giveBlocks (s : State) (port n : Nat) : State :=
  ((s.draw port (2 * n)).emit (.words ((s.drawnBytes port (2 * n)).map (fun b => b.toNat)))).done Code.ok

/-- ENTROPY_REQUEST: a port stalls it in STARTUP, serves it whole in RUNNING, refuses it otherwise (R427, R429, R431); the
key store's requests reseed the root first (R425). -/
def execEntropyRequest (port : Fin 37) (blocks : Nat) (s : State) : Result :=
  match s.entPort with
  | .stall => .next { s with ent := { s.ent with stalled := s.ent.stalled ++ [port.val] } }.waits
  | .refused => .next (s.done Code.entropyUnavailable)
  | .served =>
    let s1 := if port.val = 32 then s.reseedRoot else s
    .next (if s1.entRunning then s1.giveBlocks port.val blocks else s1.done Code.entropyUnavailable)

/-- DRBG_RESEED: the root takes two fresh blocks, every 1 ms (R425). -/
def execDrbgReseed (s : State) : Result :=
  if s.entState = ES.running then .next (s.reseedRoot.done Code.ok)
  else .next s.idle

/-- PORT_RESEED: a port that has given 2^20 blocks is reseeded from the root (R426). -/
def execPortReseed (port : Fin 37) (s : State) : Result :=
  if s.entState = ES.running ∧ 2 ^ 20 ≤ s.ent.blocks.get (fun _ => 0) port.val then
    .next ((s.reseedPort port.val).done Code.ok)
  else .next s.idle

end Sys2Proof.Machine
end

