-- ==== Sys2Proof/Machine/Owner.lean ====
section
/-! DEFINITION. What a context's owner imports and combines through PMP (R238–R239, R243–R249, R253–R262): meanings of
EVK_IMPORT, EVK_RETIRE, ZERO_IMPORT, SCREEN_SET, SCREEN_GROUP, DEC_COMBINE, DEC_SHARE and COMBINE_DEADLINE. -/

namespace Sys2Proof.Machine

/-- A hub access within a request: it waits, fails with its code, or goes on. `s0` is the state before the request. -/
def Line.req (x : Line) (s0 : State) (bad : Byte → State → State) (ok : State → Bytes → State) : State :=
  if x.stall then s0.waitsFor x.st else if x.code ≠ Code.ok then bad x.code x.st else ok x.st x.data

/-- Both signatures verify under the context's owner keys (R379). -/
def State.ownerSigned (s : State) (c : Nat) (b : Bytes) (g : Sigs) : Bool :=
  let k := (s.ctx c).ownerKeys
  Config.ecdsaOk (k.take 97) b g.ecdsa && Config.lmsOk (k.drop 97) b g.lms

/-- The range meets a region that is not FREE. -/
def State.regionMeets (s : State) (a n : Nat) : Bool :=
  s.regions.any (fun e => decide (e.2.st ≠ 0) && meets a n e.2.base.toNat e.2.length.toNat)

/-! ### Evaluation keys (R238, R239) -/

/-- Fields of a manifest. -/
def mfPurpose (m : Bytes) : Nat := field m 4 1
def mfPset (m : Bytes) : Nat := field m 6 2
def mfKeytag (m : Bytes) : Nat := field m 8 6
def mfGalois (m : Bytes) : Nat := field m 0x10 4
def mfLength (m : Bytes) : Nat := field m 0x18 8
def mfDigest (m : Bytes) : Bytes := sub m 0x20 48

/-- Fields and reserved bytes of a manifest that both kinds of import share. -/
def manifestOk (c : Nat) (m : Bytes) : Bool :=
  decide (m.length = 128) && decide (field m 0 4 = 0x45564B31) && decide (field m 5 1 = c) && zeroAt m 0xE 2 &&
  zeroAt m 0x14 4 && zeroAt m 0x50 48

/-- Step 2 of R239, with the range's alignment and the inline form's length. -/
def State.evkManifestOk (s : State) (c : Nat) (m : Bytes) (a : Nat) (inline : Option Bytes) : Bool :=
  manifestOk c m && s.ctxLive c && s.evkFieldsOk c (mfPurpose m) (mfPset m) (mfGalois m) &&
  decide (mfLength m % 64 = 0 ∧ 0 < mfLength m ∧ a % 64 = 0 ∧ a < 2 ^ 48) &&
  (match inline with | some b => decide (b.length = mfLength m) | none => true)

/-- A chunk header is TYPE 3 with the manifest's KEYTAG and PARAMSET. -/
def State.evkHdrOk (s : State) (c : Nat) (m : Bytes) (h : Hdr) : Bool :=
  (s.hdrCheck c h).isNone && decide (h.typ = 3 ∧ h.keytag = mfKeytag m ∧ h.pset = mfPset m)

/-- Step 5 of R239: the chunks have the count and shape that PURPOSE requires (R226, R232, R233). -/
def State.evkShapeOk (s : State) (c : Nat) (m b : Bytes) : Bool :=
  match s.pset c (mfPset m) with
  | none => false
  | some p =>
    let hdrAt := fun o => Hdr.of (BitVec.ofNat 512 (fromLE (sub b o 64)))
    let h := hdrAt 0
    let one := s.evkHdrOk c m h && decide (p.family = 1 ∧ mfLength m = 64 + h.len)
    if mfPurpose m ≤ 2 then one && decide (h.limbs = p.limbs + p.special ∧ h.dnum = p.dnum)
    else if mfPurpose m ≤ 4 then one && decide (h.limbs = 1 + p.special ∧ p.lweSet ≠ 0)
    else
      let dl := 2 * p.dnum * 2 ^ p.logn * 8
      decide (p.family = 2 ∧ mfLength m = rfrLen p.lweN dl) &&
      (rfrChunks 0 p.lweN dl).all (fun e => s.evkHdrOk c m (hdrAt e.1) && rfrShape p (mfPset m) (hdrAt e.1))

/-- The entry a manifest enters. -/
def mfEntry (m : Bytes) (a : Nat) : EvkEnt :=
  { st := 1, base := BitVec.ofNat 48 a, length := BitVec.ofNat 64 (mfLength m), keytag := BitVec.ofNat 48 (mfKeytag m)
    paramset := BitVec.ofNat 16 (mfPset m), purpose := BitVec.ofNat 8 (mfPurpose m), galois := BitVec.ofNat 32 (mfGalois m)
    inuse := 0, digest := BitVec.ofNat 384 (fromBE (mfDigest m)) }

/-- A free entry of the context's registry. -/
def State.evkFree (s : State) (c : Nat) : Option Nat := (List.range 64).find? (fun i => decide ((s.evkEnt c i).st = 0))

/-- Steps 4 to 6 on the bytes of the range, and the entry. -/
def State.evkCode (s : State) (c : Nat) (m b : Bytes) : Byte :=
  if shaBytes b ≠ mfDigest m then Code.signatureFail
  else if ¬ s.evkShapeOk c m b then Code.formatError
  else if (s.evkFree c).isNone ∨ ¬ s.logFits c 72 then Code.busy
  else Code.ok

/-- An import that fails after an inline key was written zeroes the range before it answers (R239). -/
def State.evkUndo (s : State) (p : PmpReq) (m : Bytes) (a : Nat) (inline : Option Bytes) (code : Byte) : State :=
  match inline with
  | some _ => (s.hubPut p.c a (List.replicate (mfLength m) 0)).st.answer p code
  | none => s.answer p code

/-- The key is entered and the log takes its entry (R239). -/
def State.evkEnter (s : State) (p : PmpReq) (m : Bytes) (a : Nat) : State :=
  match s.evkFree p.c with
  | some i =>
    ((s.setEvk p.c i (mfEntry m a)).logAdd p.c 3 72 (evkLogBody (mfEntry m a))).final p.ident p.reqId Code.ok [i]
  | none => s.answer p Code.busy

/-- Steps 4 to 6 and the entry, after an inline key has been written. -/
def State.evkFinish (s s0 : State) (p : PmpReq) (m : Bytes) (a : Nat) (inline : Option Bytes) : State :=
  (s.hubGet p.c a (mfLength m)).req s0 (fun e t => t.evkUndo p m a inline e) (fun t b =>
    if t.evkCode p.c m b = Code.ok then t.evkEnter p m a else t.evkUndo p m a inline (t.evkCode p.c m b))

/-- EVK_IMPORT (R239). -/
def execEvkImport (p : PmpReq) (manifest : Bytes) (sigs : Sigs) (base : BitVec 64) (inline : Option Bytes) (s : State) :
    Result :=
  let a := base.toNat
  .next (s.pmp p 0x0400 true (fun t =>
    if ¬ t.ownerSigned p.c manifest sigs then t.answer p Code.signatureFail
    else if ¬ t.evkManifestOk p.c manifest a inline then t.answer p Code.formatError
    else if ¬ t.inCtxHbm p.c a (mfLength manifest) ∨ t.regionMeets a (mfLength manifest) ∨ t.evkMeets a (mfLength manifest) then
      t.answer p Code.accessBounds
    else match inline with
    | some b => (t.hubPut p.c a b).req s (fun e u => u.evkUndo p manifest a inline e) (fun u _ => u.evkFinish s p manifest a inline)
    | none => t.evkFinish s p manifest a inline))

/-- EVK_RETIRE: answered when the entry is EMPTY (R243). -/
def execEvkRetire (p : PmpReq) (index : Fin 64) (s : State) : Result :=
  .next (s.pmp p 0x0401 true (fun t =>
    if ¬ t.ctxLive p.c then t.answer p Code.contextUnavailable
    else if (t.evkEnt p.c index.val).st ≠ 1 then t.answer p Code.formatError
    else if ¬ t.logFits p.c 72 then t.answer p Code.busy
    else ((t.retireEvk p.c index.val).waitFor p index.val).done Code.ok))

/-! ### Encryptions of zero (R262) and the screening configuration (R249) -/

/-- A header is one that SEAL with FORM = ENCRYPT accepts (R259). -/
def State.zeroHdrOk (s : State) (c : Nat) (h : Hdr) : Bool :=
  (s.hdrCheck c h).isNone && decide (h.typ = 1 ∧ h.ptLog = 16 ∧ h.scale = 0) && !h.ntt && !h.poison

/-- The ciphertexts at the given headers, in order: each header and its data; a failure's code. -/
def State.readZeros (s : State) (c : Nat) : List Nat → Line
  | [] => .ok s []
  | a :: l =>
    let x := s.hubGet c a 64
    if x.stall ∨ x.code ≠ Code.ok then x
    else
      let h := Hdr.of (BitVec.ofNat 512 (fromLE x.data))
      if ¬ x.st.zeroHdrOk c h then .fail x.st Code.formatError
      else if ¬ x.st.inCtxHbm c h.ptr h.len then .fail x.st Code.accessBounds
      else
        let y := x.st.hubGet c h.ptr h.len
        if y.stall ∨ y.code ≠ Code.ok then y
        else
          let z := y.st.readZeros c l
          { z with data := x.data ++ y.data ++ z.data }

/-- The ciphertexts at header addresses `as` among the bytes read for them. -/
def zerosOf : List DWord → Bytes → List ZeroCt
  | [], _ => []
  | a :: l, b =>
    let h := Hdr.of (BitVec.ofNat 512 (fromLE (b.take 64)))
    ⟨a, h.ptr, 2 ^ h.logn, false⟩ :: zerosOf l (b.drop (64 + h.len))

/-- ZERO_IMPORT: the manifest's digest covers the ciphertexts in order; the pool joins the round-configuration digest. -/
def execZeroImport (p : PmpReq) (manifest : Bytes) (sigs : Sigs) (headers : List (BitVec 64)) (s : State) : Result :=
  let as := headers.map (fun h => h.toNat)
  .next (s.pmp p 0x0402 true (fun t =>
    if ¬ t.ownerSigned p.c manifest sigs then t.answer p Code.signatureFail
    else if ¬ manifestOk p.c manifest ∨ ¬ t.ctxLive p.c ∨ headers = [] ∨ ¬ (headers ++ (t.ctx p.c).zeros.map (fun z => z.header)).Nodup then
      t.answer p Code.formatError
    else if ¬ as.all (fun a => t.inCtxHbm p.c a 64) then t.answer p Code.accessBounds
    else (t.readZeros p.c as).req s (fun e u => u.answer p e) (fun u b =>
      if shaBytes b ≠ mfDigest manifest then u.answer p Code.signatureFail
      else if ¬ u.logFits p.c 112 then u.answer p Code.busy
      else
        let x := u.ctx p.c
        ((u.setCtx p.c { x with
            zeros := x.zeros ++ zerosOf headers b
            zeroN := ((zerosOf headers b).map (fun z => z.n)).headD x.zeroN }).logConfig p.c 5 0 0 (u.roundOrZero p.c) b).answer p Code.ok)))

/-- SCREEN_SET: before ROUND.OPEN (R249). -/
def execScreenSet (p : PmpReq) (record : Bytes) (s : State) : Result :=
  .next (s.pmp p 0x0403 true (fun t =>
    if ¬ t.ctxLive p.c then t.answer p Code.contextUnavailable
    else if ¬ t.screenFields p.c record then t.answer p Code.formatError
    else if t.roundOpen p.c ∨ ¬ t.logFits p.c 112 then t.answer p Code.busy
    else ((t.setCtx p.c { t.ctx p.c with screen := some record }).logConfig p.c 4 0 0 0 record).answer p Code.ok))

/-- SCREEN_GROUP: the group's header and data (R256). -/
def execScreenGroup (p : PmpReq) (strand : Fin 24) (group : BitVec 16) (s : State) : Result :=
  let g := group.toNat
  .next (s.pmp p 0x0404 true (fun t =>
    if ¬ t.ctxLive p.c then t.answer p Code.contextUnavailable
    else if ¬ t.roundOpen p.c ∨ t.listedOn p.c strand.val ≤ g * t.packN p.c then t.answer p Code.formatError
    else if ¬ t.groupPosted p.c strand.val g then t.answer p Code.busy
    else (t.hubGet p.c (Config.groupHeader p.c strand.val g) 64).req s (fun e u => u.answer p e) (fun u hb =>
      let h := Hdr.of (BitVec.ofNat 512 (fromLE hb))
      (u.hubGet p.c h.ptr h.len).req s (fun e v => v.answer p e) (fun v b =>
        v.final p.ident p.reqId Code.ok (toBody (hb ++ b))))))

/-! ### Threshold combination (R244–R248) -/

/-- The member that a 104-byte record names. -/
def memberOf (b : Bytes) : Member := ⟨BitVec.ofNat 16 (fromBE (b.take 2)), b.drop 7, none⟩

/-- The range lies in a range of the context: its HBM, or a bank it owns (R248, R375). -/
def State.inCtx (s : State) (c a n : Nat) : Bool :=
  s.inCtxHbm c a n ||
  (match place s.part a with
   | .bank d b o => decide (o + n ≤ 0x4000000) && decide (s.bst d b = 1) && s.bownedBy d b c
   | _ => false)

/-- What the owner's signatures of a DEC.COMBINE cover: the address, the deadline, the members (R245). -/
def combineSigned (header : BitVec 64) (deadlineMs : Nat) (members : List Bytes) : Bytes :=
  be 8 header.toNat ++ be 4 deadlineMs ++ members.flatten

/-- A read of what the combine recipe loads: an object in a bank of the context as the context's own accesses see it, any
other as the hub sees it (R246, R248). -/
def State.ownGet (s : State) (c a n : Nat) : Line :=
  match place s.part a with
  | .bank d _ _ => s.readSpan (.dma (Fin.ofNat 8 d) (Fin.ofNat 16 c)) a n
  | _ => s.hubGet c a n

/-- Step 2 of R245, with the deadline's range; a request that names no member fails it (DESIGN CHOICE,
notes/assumptions/137.md). -/
def membersOk (deadlineMs : Nat) (members : List Bytes) : Bool :=
  decide (1 ≤ deadlineMs ∧ deadlineMs ≤ 60000) && decide (members ≠ []) &&
  members.all (fun b => decide (b.length = 104 ∧ (memberOf b).id ≠ 0) && zeroAt b 2 5) &&
  decide (members.map (fun b => (memberOf b).id)).Nodup

/-- The C-strand and group whose header lies at an address. -/
def State.groupAt (s : State) (c a : Nat) : Option (Nat × Nat) :=
  ((List.range 24).flatMap (fun k => (List.range ((s.listedOn c k + s.packN c - 1) / s.packN c)).map (fun g => (k, g)))).find?
    (fun e => decide (Config.groupHeader c e.1 e.2 = a))

/-- A poisoned source is refused and counted; an admission group fails by it (R131, R225, R258). -/
def State.combineRefused (s : State) (c a : Nat) : State :=
  let s1 := s.setCtx c { s.ctx c with poisoned := (s.ctx c).poisoned + 1 }
  match s.groupAt c a with
  | some e => s1.failGroup c e.1 e.2
  | none => s1

/-- DEC_COMBINE: the request waits for its shares (R245, R246, R248); a header address that is not a multiple of 64 is answered
ACCESS_BOUNDS (DESIGN CHOICE, notes/assumptions/137.md). -/
def execDecCombine (p : PmpReq) (header : BitVec 64) (deadlineMs : Nat) (members : List Bytes) (sigs : Sigs) (s : State) :
    Result :=
  let a := header.toNat
  .next (s.pmp p 0x0405 true (fun t =>
    if ¬ t.ownerSigned p.c (combineSigned header deadlineMs members) sigs then t.answer p Code.signatureFail
    else if ¬ membersOk deadlineMs members then t.answer p Code.formatError
    else if ¬ t.ctxLive p.c then t.answer p Code.contextUnavailable
    else if a % 64 ≠ 0 ∨ ¬ t.inCtx p.c a 64 then t.answer p Code.accessBounds
    else (t.ownGet p.c a 64).req s (fun e u => u.answer p e) (fun u hb =>
      let h := Hdr.of (BitVec.ofNat 512 (fromLE hb))
      if (u.hdrCheck p.c h).isSome ∨ h.typ = 3 then u.answer p ((u.hdrCheck p.c h).getD Code.formatError)
      else if h.poison then (u.combineRefused p.c a).answer p Code.poisonedOperand
      else
        let x := u.ctx p.c
        let k : Comb := ⟨p.reqId, BitVec.ofNat 48 a, BitVec.ofNat 48 h.keytag, members.map memberOf⟩
        (u.setCtx p.c { x with combs := x.combs ++ [k] }).done Code.ok)))

/-- The combination of a REQ_ID in a context. -/
def State.combOf (s : State) (c : Nat) (id : DWord) : Option Comb := (s.ctx c).combs.find? (fun k => decide (k.reqId = id))
/-- A combination is replaced, or dropped with the shares it holds. -/
def State.setComb (s : State) (c : Nat) (k : Comb) : State :=
  let x := s.ctx c
  s.setCtx c { x with combs := x.combs.map (fun e => if e.reqId = k.reqId then k else e) }
def State.dropComb (s : State) (c : Nat) (id : DWord) : State :=
  let x := s.ctx c
  s.setCtx c { x with combs := x.combs.filter (fun e => e.reqId ≠ id) }

/-- What a member signs with its share (R245). -/
def shareSigned (comb : DWord) (header : Bytes) (member : BitVec 16) (share : Bytes) : Bytes :=
  ascii "A9 dshare" ++ be 8 comb.toNat ++ shaBytes header ++ be 2 member.toNat ++ share

/-- The DEC.COMBINE request of a combination gets its final response. -/
def State.finishComb (s : State) (c : Nat) (id : DWord) (status : Byte) (body : List Nat) : State :=
  (s.mgmt.pending.filter (fun w => decide (w.opcode.toNat = 0x0405 ∧ w.ctx.toNat = c ∧ w.reqId = id))).foldl
    (fun t w => t.final w.ident w.reqId status body) s

/-! The combine recipe (R218, R244, R246, R256). -/

/-- The first component limb by limb in coefficient form: coefficient i of limb b. -/
def firstComp (p : PSet) (h : Hdr) (data : Bytes) (b i : Nat) : Nat :=
  let x := fun k => field data (8 * (b * 2 ^ h.logn + k)) 8
  if h.ntt then inttOf (p.q b) h.logn x i else x i

/-- The phase c0 + Σ d_j modulo the prime of limb b (R246); a residue that is not below its prime counts by its remainder,
and a word that a share lacks counts 0 (DESIGN CHOICE, notes/assumptions/137.md). -/
def phaseLimb (p : PSet) (h : Hdr) (data : Bytes) (shares : List Bytes) (b i : Nat) : Nat :=
  (firstComp p h data b i + (shares.map (fun d => field d (8 * (b * 2 ^ h.logn + i)) 8)).sum) % p.q b

/-- A residue of each limb as one integer modulo their product, centred (R175). -/
def centredPhase (p : PSet) (n : Nat) (x : Nat → Nat) : Int :=
  let q := ((List.range n).map p.q).foldl (· * ·) 1
  centre (((List.range n).map (fun b =>
    let m := q / p.q b
    x b * powMod m (p.q b - 2) (p.q b) % p.q b * m)).sum % q) q

/-- The centred phase of coefficient i of a TYPE 1 ciphertext. -/
def phaseAt (p : PSet) (h : Hdr) (data : Bytes) (shares : List Bytes) (i : Nat) : Int :=
  centredPhase p h.limbs (fun b => phaseLimb p h data shares b i)

/-- The bit of a coefficient of an admission group: 1 in [⌊q/8⌋, ⌊3q/8⌋) (R256). -/
def admitBit (q : Nat) (x : Int) : Bool := decide (((q / 8 : Nat) : Int) ≤ x ∧ x < ((3 * q / 8 : Nat) : Int))

/-- The bits of an admission group, 512 bytes for 4,096 positions, the lowest position in bit 0 of the first byte. -/
def admitBits (n q : Nat) (x : Nat → Int) : Bytes :=
  (List.range (n / 8)).map (fun k => BitVec.ofNat 8 (((List.range 8).map (fun i => b2n (admitBit q (x (8 * k + i))) * 2 ^ i)).sum))

/-- The decoded values of a combination (R218, R246, R256): bits of an admission group; of an exact ciphertext each
coefficient's message in two bytes; of an approximate one the owner's slots; of TYPE 2 the value of the agreed placement. -/
def decoded (p : PSet) (h : Hdr) (data : Bytes) (shares : List Bytes) (group : Bool) : Bytes :=
  let n := 2 ^ h.logn
  if h.typ = 2 then
    placedOf (p.q 0) ((field data (8 * h.lweN) 8 + (shares.map (fun d => field d 0 8)).sum) % p.q 0)
  else
    let x := phaseAt p h data shares
    if group then admitBits n (p.q 0) x
    else if h.ptLog = 0 then Config.approxValues h.scale ((List.range n).map x)
    else ((List.range n).map (fun i => le 2 ((x i) % (2 ^ h.ptLog : Nat)).toNat)).flatten
where placedOf (q phi : Nat) : Bytes := Config.placedValue q phi

/-- Every share is there: the recipe decodes the phase, the values go out and the shares are zeroed; an admission group's
bits decide its clients (R246, R256). `s0`: the state to which the command returns while memory wakes. -/
def State.combineRun (s s0 : State) (c : Nat) (k : Comb) : State :=
  (s.ownGet c k.header.toNat 64).req s0 (fun e t => ((t.dropComb c k.reqId).finishComb c k.reqId e []).done Code.ok) (fun t hb =>
    let h := Hdr.of (BitVec.ofNat 512 (fromLE hb))
    if h.poison then
      (((t.dropComb c k.reqId).combineRefused c k.header.toNat).finishComb c k.reqId Code.poisonedOperand []).done Code.ok
    else if ¬ t.inCtx c h.ptr h.len then ((t.dropComb c k.reqId).finishComb c k.reqId Code.accessBounds []).done Code.ok
    else (t.ownGet c h.ptr h.len).req s0 (fun e u => ((u.dropComb c k.reqId).finishComb c k.reqId e []).done Code.ok) (fun u data =>
      match u.pset c h.pset with
      | none => ((u.dropComb c k.reqId).finishComb c k.reqId Code.formatError []).done Code.ok
      | some p =>
        let g := u.groupAt c k.header.toNat
        let v := decoded p h data (k.members.filterMap (fun m => m.share)) g.isSome
        let w := match g with
          | some e => (u.dropComb c k.reqId).decideGroup c e.1 e.2 v
          | none => u.dropComb c k.reqId
        (w.finishComb c k.reqId Code.ok (toBody v)).done Code.ok))

/-- A member of a combination that has sent no share yet. -/
def Comb.open (k : Comb) (m : BitVec 16) : Option Member := k.members.find? (fun x => decide (x.id = m) && x.share.isNone)

/-- A share counts. -/
def Comb.take (k : Comb) (m : BitVec 16) (share : Bytes) : Comb :=
  { k with members := k.members.map (fun x => if x.id = m then { x with share := some share } else x) }

/-- Every named share is there. -/
def Comb.full (k : Comb) : Bool := k.members.all (fun x => x.share.isSome)

/-- Steps 5 and 6 of R245, for the member that the combination names. -/
def Comb.shareCode (k : Comb) (x : Member) (keytag : BitVec 48) (share sig header : Bytes) : Byte :=
  if ¬ Config.ecdsaOk x.key (shareSigned k.reqId header x.id share) sig then Code.signatureFail
  else if keytag ≠ k.keytag then Code.keytagMismatch
  else Code.ok

/-- DEC_SHARE: steps 3 and 4 of R245 before the header is read; a share that passes counts; the last one runs the
combination. -/
def execDecShare (p : PmpReq) (comb : BitVec 64) (member : BitVec 16) (keytag : BitVec 48) (share sig : Bytes) (s : State) :
    Result :=
  .next (s.pmp p 0x0406 true (fun t =>
    match t.combOf p.c comb with
    | none => t.answer p Code.formatError
    | some k =>
      match k.open member with
      | none => t.answer p Code.formatError
      | some x => (t.ownGet p.c k.header.toNat 64).req s (fun e u => u.answer p e) (fun u hb =>
        let e := k.shareCode x keytag share sig hb
        if e ≠ Code.ok then u.answer p e
        else
          let k1 := k.take member share
          let v := (u.setComb p.c k1).answer p Code.ok
          if k1.full then v.combineRun s p.c k1 else v)))

/-- COMBINE_DEADLINE: with shares missing, those received are zeroed and the request is answered RETRY_AFTER (R247). -/
def execCombineDeadline (ctx : Fin 16) (comb : BitVec 64) (s : State) : Result :=
  s.byDaxna (.next (match s.combOf ctx.val comb with
      | none => s.idle
      | some k =>
        if k.full then s.idle
        else ((s.dropComb ctx.val comb).finishComb ctx.val comb Code.retryAfter []).done Code.retryAfter))

end Sys2Proof.Machine
end

