-- ==== Sys2Proof/Machine/ModelXfer.lean ====
section
/-! DEFINITION. A context's model in and out (R268–R275): meanings of MODEL_IMPORT and MODEL_EXPORT. -/

namespace Sys2Proof.Machine

/-! ### The object (R268, R269) -/

/-- Directory entry j, from its 32 bytes. -/
def dirEntOf (b : Bytes) : DirEnt :=
  { shard := BitVec.ofNat 24 (field b 0 3), cur := (field b 3 1).testBit 0, elems := BitVec.ofNat 32 (field b 4 4)
    page := BitVec.ofNat 24 (field b 8 3), gen := BitVec.ofNat 64 (field b 16 8), base := BitVec.ofNat 48 (field b 24 8) }

/-- The 32-byte entries of a directory. -/
def dirParts (dir : Bytes) : List Bytes := (List.range (dir.length / 32)).map (fun j => sub dir (32 * j) 32)

/-- Reserved bits of an entry are zero and its fields in range; its pages end within the 2^24 of a model (R269). -/
def dirEntOk (b : Bytes) : Bool :=
  decide (field b 3 1 ≤ 1) && zeroAt b 11 5 && decide (field b 24 8 < 2 ^ 48 ∧ field b 24 8 % 16384 = 0) &&
  decide (1 ≤ field b 4 4) && decide (field b 8 3 + (field b 4 4 + 2 ^ 21 - 1) / 2 ^ 21 ≤ 2 ^ 24)

/-- Header of a model object of context c with n directory entries. -/
def modelHdrOk (c : Nat) (h : Bytes) (n : Nat) : Bool :=
  decide (h.length = 128 ∧ field h 0 4 = 0x4D444C31 ∧ field h 4 1 = c) &&
  decide (field h 5 1 = 0 ∨ field h 5 1 = 1 ∨ field h 5 1 = 3) && zeroAt h 6 2 && decide (field h 8 4 = n ∧ 1 ≤ n ∧ n ≤ 2 ^ 24) &&
  zeroAt h 0xC 4 && decide (field h 0x18 8 < 256) && zeroAt h 0x50 48

/-- STRIDE and the pages of a shard; element count of page p. -/
def DirEnt.stride (e : DirEnt) : Nat := (4 * e.elems.toNat + 16383) / 16384 * 16384
def DirEnt.pages (e : DirEnt) : Nat := (e.elems.toNat + 2 ^ 21 - 1) / 2 ^ 21
def DirEnt.pageElems (e : DirEnt) (p : Nat) : Nat := min (2 ^ 21) (e.elems.toNat - p * 2 ^ 21)
/-- Address of page p of array a in the current copy. -/
def DirEnt.addr (e : DirEnt) (nstate a p : Nat) : Nat :=
  e.base.toNat + (b2n e.cur * (1 + nstate) + a) * e.stride + 4 * (p * 2 ^ 21)

/-- No two shards share a page number (R269, R273). -/
def pagesApart : List DirEnt → Bool
  | [] => true
  | e :: l => l.all (fun f => !meets e.page.toNat e.pages f.page.toNat f.pages) && pagesApart l

/-- Every GEN is above the GEN_HWM of the context's model (R273). -/
def State.gensAbove (s : State) (c : Nat) (dir : List DirEnt) : Bool :=
  match (s.ctx c).model with
  | some m => dir.all (fun e => decide (m.genHwm.toNat < e.gen.toNat))
  | none => dir.all (fun e => decide (0 < e.gen.toNat))

/-- The object and every array of it lie in the context's HBM. -/
def State.modelFits (s : State) (c base nstate : Nat) (dir : List DirEnt) : Bool :=
  decide (base % 64 = 0) && s.inCtxHbm c base (128 + 32 * dir.length) &&
  dir.all (fun e => s.inCtxHbm c e.base.toNat (2 * (1 + nstate) * e.stride))

/-- Pages of a model in order of page number: entry and page within it. -/
def pageOrder (dir : List DirEnt) : List (DirEnt × Nat) :=
  (dir.flatMap (fun e => (List.range e.pages).map (fun p => (e, p)))).mergeSort
    (fun x y => decide (x.1.page.toNat + x.2 ≤ y.1.page.toNat + y.2))

/-- What the records carry, in order: entry, page within it, array (R273). -/
def recordOrder (dir : List DirEnt) (arrays : Nat) : List (DirEnt × Nat × Nat) :=
  (pageOrder dir).flatMap (fun x => (List.range arrays).map (fun a => (x.1, x.2, a)))

/-- The 64-byte header of a wrapped record (R274). -/
def recHdr (dir fmt c : Nat) (x : DirEnt × Nat × Nat) : Bytes :=
  le 4 0x57504731 ++ le 1 dir ++ le 1 x.2.2 ++ le 1 fmt ++ le 1 c ++ le 3 (x.1.page.toNat + x.2.1) ++ [0] ++
  le 4 (x.1.pageElems x.2.1) ++ le 8 x.1.gen.toNat ++ List.replicate 40 0

/-- The 12-byte nonce of a wrapped record. -/
def recNonce (dir fmt : Nat) (x : DirEnt × Nat × Nat) : Bytes :=
  le 1 dir ++ le 1 (x.2.2 * 16 + fmt) ++ be 3 (x.1.page.toNat + x.2.1) ++ be 7 x.1.gen.toNat

/-- KW of a slot. -/
def State.kw (s : State) (slot : Nat) : BitVec 256 := (s.active slot).mat.setWidth 256

/-- The plaintext of a record, if its tag verifies and it has the page's elements. -/
def State.openRec (s : State) (slot c : Nat) (x : (DirEnt × Nat × Nat) × WrappedRec) : Option Bytes :=
  match Config.gcmOpen (s.kw slot) (recNonce 0 0 x.1) (recHdr 0 0 c x.1) x.2.cipher x.2.tag with
  | some b => if b.length = 4 * x.1.1.pageElems x.1.2.1 then some b else none
  | none => none

/-- Every plaintext, or none. -/
def allSome : List (Option Bytes) → Option (List Bytes)
  | [] => some []
  | none :: _ => none
  | some b :: l => match allSome l with
    | some r => some (b :: r)
    | none => none

/-- Writes to the context's HBM one after another; the first that fails ends them. -/
def State.hubPuts (s : State) (c : Nat) : List (Nat × Bytes) → Line
  | [] => .ok s []
  | (a, b) :: l =>
    let x := s.hubPut c a b
    if x.stall ∨ x.code ≠ Code.ok then x else x.st.hubPuts c l

/-- GEN_HWM after an import: the highest generation ever held. -/
def State.newHwm (s : State) (c : Nat) (h : Bytes) (dir : List DirEnt) : Nat :=
  dir.foldl (fun m e => max m e.gen.toNat) (max (field h 0x10 8) (match (s.ctx c).model with | some m => m.genHwm.toNat | none => 0))

/-- The header as it stands in HBM: with GEN_HWM and IMPORT_DIGEST. -/
def modelHdr (h : Bytes) (hwm : Nat) (digest : BitVec 384) : Bytes :=
  h.take 0x10 ++ le 8 hwm ++ sub h 0x18 8 ++ be 48 digest.toNat ++ List.replicate 48 0

/-- The checks of MODEL.IMPORT before any record is opened (R273). -/
def State.importCode (s : State) (c : Nat) (h dir : Bytes) (base : Nat) (records : List WrappedRec) : Byte :=
  let es := (dirParts dir).map dirEntOf
  if ¬ s.ctxLive c then Code.contextUnavailable
  else if s.roundOpen c then Code.busy
  else if ¬ modelHdrOk c h es.length ∨ dir.length % 32 ≠ 0 ∨ ¬ (dirParts dir).all dirEntOk ∨ ¬ pagesApart es ∨
      ¬ s.gensAbove c es then Code.formatError
  else if ¬ s.modelFits c base (field h 5 1) es then Code.accessBounds
  else if s.keyUse (field h 0x18 8) 6 .breakwater (some c) ≠ Code.ok then s.keyUse (field h 0x18 8) 6 .breakwater (some c)
  else if records.map (fun r => r.header) ≠ (recordOrder es (1 + field h 5 1)).map (recHdr 0 0 c) then Code.formatError
  else if ¬ s.logFits c 64 then Code.busy
  else Code.ok

/-- The model is written and registered, and its digest joins the log. -/
def State.importRun (s s0 : State) (p : PmpReq) (h dir : Bytes) (base : Nat) (plain : List Bytes) : State :=
  let es := (dirParts dir).map dirEntOf
  let n := field h 5 1
  let dg := Config.sha384 (h.take 0x20 ++ List.replicate 48 0 ++ h.drop 0x50 ++ dir ++ plain.flatten)
  let hwm := s.newHwm p.c h es
  let pages := ((recordOrder es (1 + n)).map (fun x => x.1.addr n x.2.2 x.2.1)).zip plain
  (s.hubPuts p.c ((base, modelHdr h hwm dg) :: (base + 128, dir) :: pages)).req s0
    (fun e t => (t.setCtx p.c { t.ctx p.c with model := none }).answer p e)
    (fun t _ =>
      let m : Model := ⟨n, BitVec.ofNat 64 hwm, BitVec.ofNat 64 (field h 0x18 8), dg, es, base, []⟩
      ((t.setCtx p.c { t.ctx p.c with model := some m }).logAdd p.c 5 64 (le 8 hwm ++ digestBytes dg)).answer p Code.ok)

/-- The page buffers, zeroed once the records in them have been handled (R399; notes/assumptions/73.md). -/
def State.pageZero (s : State) : State :=
  { s with hubMem := Table.clear (fun o => decide (0x2800000 ≤ o ∧ o < 0x3A00000)) s.hubMem }

/-- MODEL_IMPORT: where a record's tag fails nothing of the model is kept (R273). -/
def execModelImport (p : PmpReq) (header dir : Bytes) (base : BitVec 64) (records : List WrappedRec) (s : State) : Result :=
  .next (s.pmp p 0x0500 true (fun t =>
    let e := t.importCode p.c header dir base.toNat records
    (if e ≠ Code.ok then t.answer p e
    else
      let es := (dirParts dir).map dirEntOf
      match allSome (((recordOrder es (1 + field header 5 1)).zip records).map (t.openRec (field header 0x18 8) p.c)) with
      | none => (t.setCtx p.c { t.ctx p.c with model := none }).answer p Code.aeadFail
      | some plain => t.importRun s p header dir base.toNat plain).pageZero))

/-! ### Export (R275) -/

/-- FP32 elements in FMT: BF16 is rounded to nearest, ties to even (R265). -/
def inFmt (fmt : Nat) (b : Bytes) : Bytes :=
  if fmt = 0 then b
  else ((List.range (b.length / 4)).map (fun i => le 2 (fromF32 1 0 false (field b (4 * i) 4)).pat)).flatten

/-- The pages read, one after another: their plaintexts, or the code of the first that fails. -/
def State.readPages (s : State) (c nstate : Nat) : List (DirEnt × Nat × Nat) → List Bytes → State × Byte × List Bytes × Bool
  | [], acc => (s, Code.ok, acc.reverse, false)
  | x :: l, acc =>
    let r := s.hubGet c (x.1.addr nstate x.2.2 x.2.1) (4 * x.1.pageElems x.2.1)
    if r.stall then (r.st, Code.ok, [], true)
    else if r.code ≠ Code.ok then (r.st, r.code, [], false)
    else r.st.readPages c nstate l (r.data :: acc)

/-- One record of an export, as it goes out: header, ciphertext, tag. -/
def State.sealRec (s : State) (slot c fmt : Nat) (x : (DirEnt × Nat × Nat) × Bytes) : Bytes :=
  let h := recHdr 1 fmt c x.1
  let g := Config.gcmSeal (s.kw slot) (recNonce 1 fmt x.1) h (inFmt fmt x.2)
  h ++ g.1 ++ be 16 g.2.toNat

/-- The model's header as IMPORT_DIGEST takes it, with the digest zero. -/
def Model.hdr (m : Model) (c : Nat) : Bytes :=
  le 4 0x4D444C31 ++ le 1 c ++ le 1 m.nstate ++ [0, 0] ++ le 4 m.dir.length ++ le 4 0 ++ le 8 m.genHwm.toNat ++
  le 8 m.kwSlot.toNat ++ List.replicate 96 0

/-- An export pins the copies it reads (R275), and lets them go. -/
def State.pinModel (s : State) (c : Nat) (p : ExportPin) : State :=
  match (s.ctx c).model with
  | some m => s.setCtx c { s.ctx c with model := some { m with pins := p :: m.pins } }
  | none => s
def State.unpinModel (s : State) (c : Nat) (id : DWord) : State :=
  match (s.ctx c).model with
  | some m => s.setCtx c { s.ctx c with model := some { m with pins := m.pins.filter (fun p => decide (p.reqId ≠ id)) } }
  | none => s

/-- The copies that the request has pinned, or those current now. -/
def Model.pinOf (m : Model) (id : DWord) : ExportPin :=
  (m.pins.find? (fun p => decide (p.reqId = id))).getD ⟨id, m.dir, m.genHwm⟩

/-- MODEL_EXPORT: the copies it reads are pinned until it ends (R275); while memory wakes it waits with them pinned, and given
again it goes on with those copies. A FAULTED context may export what still verifies (R392). The response carries the digest of
the plaintext in the format given, and the records. -/
def execModelExport (p : PmpReq) (states : Bool) (fmt : Byte) (s : State) : Result :=
  let pin := ((s.ctx p.c).model).map (fun m => m.pinOf p.reqId)
  .next ((s.unpinModel p.c p.reqId).pmp p 0x0501 true (fun t =>
    if ¬ t.ctxLive p.c ∧ t.cst p.c ≠ CS.faulted then t.answer p Code.contextUnavailable
    else match (t.ctx p.c).model, pin with
    | some m0, some x =>
      let m := { m0 with dir := x.dir, genHwm := x.genHwm }
      let slot := m.kwSlot.toNat
      let e := t.keyUse slot 5 .breakwater (some p.c)
      let xs := recordOrder m.dir (if states then 1 + m.nstate else 1)
      if 1 < fmt.toNat then t.answer p Code.formatError
      else if e ≠ Code.ok then t.answer p e
      else
        let r := t.readPages p.c m.nstate xs []
        if r.2.2.2 then ((s.unpinModel p.c p.reqId).pinModel p.c x).waitsFor r.1
        else if r.2.1 ≠ Code.ok then r.1.answer p r.2.1
        else
          let dg := Config.sha384 (m.hdr p.c ++ (m.dir.map DirEnt.bytes).flatten ++ (r.2.2.1.map (inFmt fmt.toNat)).flatten)
          let recs := ((xs.zip r.2.2.1).map (t.sealRec slot p.c fmt.toNat)).flatten
          r.1.final p.ident p.reqId Code.ok (toBody (digestBytes dg ++ recs))
    | _, _ => t.answer p Code.formatError))

end Sys2Proof.Machine
end

