-- ==== Sys2Proof/Machine/Registers.lean ====
section
/-! DEFINITION. Register accesses of hub cores (R34–R37, R541): what a read shows, what a write of each register starts, the
pairs of 64-bit values; meanings of REGISTER_WRITE, PAIR_LO_READ, PAIR_HI_READ, PAIR_LO_WRITE, PAIR_HI_WRITE and
READ_CLEAR. -/

namespace Sys2Proof.Machine

/-! ### What a read shows -/

/-- ALERT_SRC (R498). -/
def State.alertSrc (s : State) : Nat :=
  b2n s.tampered * 64 + b2n (decide (s.fld Reg.entStat 31 29 = 3)) * 32 + s.fld Reg.hubWdt 31 31 * 16 +
  s.fld Reg.govStat 24 24 * 8 + b2n s.gov.coolantLow * 4 +
  b2n (decide (s.reg Reg.govReason &&& 0x6F ≠ 0)) * 2 + s.fld (Reg.evqStat 3) 30 30

/-- The module drives ALERT_N low (R498). -/
def State.alertOut (s : State) : Bool := decide (BitVec.ofNat 32 s.alertSrc &&& s.reg Reg.alertMask ≠ 0)

/-- PIN_STAT (R499). -/
def State.pinStat (s : State) : Nat :=
  let p := s.pins
  b2n p.tamperN * 2 ^ 31 + b2n p.lockN * 2 ^ 30 + b2n p.coolantOk * 2 ^ 29 + b2n p.mainGood * 2 ^ 28 + b2n p.resetN * 2 ^ 27 +
  b2n p.tripOut * 2 ^ 26 + b2n s.alertOut * 2 ^ 25 + b2n p.mainReq * 2 ^ 24 + p.profLive.val * 2 ^ 22 + p.profSel.val * 2 ^ 20 +
  p.slotLive.val * 2 ^ 14 + p.slotId.val * 2 ^ 8

/-- IQ_STAT, TQ_STAT_RX and TQ_STAT_CQ: the read side's view of a queue under the stored OVERRUN bit (R84, R366). -/
def State.queueStat (s : State) (addr q : Nat) : Word :=
  let free := queueSize q - (s.queue q).used
  (s.reg addr &&& 0x80000000) |||
    BitVec.ofNat 32 (b2n (decide (free = 0)) * 2 ^ 30 + b2n (decide ((s.queue q).pkts = [])) * 2 ^ 29 + free % 16384)

/-- Bits of a list of conditions, the first lowest. -/
def bitsOf : List Bool → Nat
  | [] => 0
  | b :: bs => b2n b + 2 * bitsOf bs

/-- CTX_STRAND of a context, 48 bits (R377). -/
def State.ctxStrands (s : State) (c : Nat) : Nat := bitsOf (allStrands.map (fun e => s.boundTo c e))
/-- CTX_BANK[d] of a context. -/
def State.ctxBanks (s : State) (c d : Nat) : Nat := bitsOf ((List.range 24).map (fun b => s.bownedBy d b c))
/-- CTX_GRAN of a context. -/
def State.ctxGrans (s : State) (c : Nat) : Nat := (s.granule.filter (fun e => decide (e.2.toNat = c))).length
/-- BANK_ACC of a die (R87). -/
def State.accBits (s : State) (d : Nat) : Nat := bitsOf ((List.range 24).map (fun b => s.bacc d b))

/-- PFORM of a prime (R169). -/
def pform (q : Nat) : Nat :=
  match formOf q with
  | some f => f.kind * 2 ^ 30 + f.a * 2 ^ 24 + f.b * 2 ^ 16 + f.c * 2 ^ 8 + twoadic q
  | none => 0

/-- The prime table (R169): entry p, offset o of the entry. -/
def primeWord (p o : Nat) : Nat :=
  let q := romQ p
  if o = 0 then q % 2 ^ 32
  else if o = 4 then q / 2 ^ 32
  else if o = 8 then (psiOf q).getD 0 % 2 ^ 32
  else if o = 0xC then (psiOf q).getD 0 / 2 ^ 32
  else if o = 0x10 then pform q
  else if o = 0x14 then log256 q % 2 ^ 16
  else 0

/-- Word at offset o of the window of DBG_TILE_SEL (R93); a strand, stage or tile register that does not exist reads zero
(DESIGN CHOICE, notes/assumptions/102.md). -/
def State.dbgWord (s : State) (o : Nat) : Nat :=
  let v := s.reg Reg.dbgTileSel
  let d := bits v 29 28
  let st := bits v 27 24
  let g := bits v 23 21
  let k := strandKind st
  let shown := decide (s.fld Reg.dbgCtl 0 0 = 1) && decide (st < 12) && decide (g < kindStages k) &&
    decide (s.sst d st = SS.halted ∨ s.sst d st = SS.faulted) && !(decide (k = 0) && decide (g = 4)) &&
    !(decide (k = 2) && (s.strand (strandIx d st)).release)
  if shown ∧ o < (if k = 0 then 4096 else if k = 1 then 32768 else 16384) then
    let t := (s.stage (stageIx d st g)).t.get (fun _ => Tile.zero) (bits v 20 16)
    (t.words.get (fun _ => 0) (o / 8)).toNat / 2 ^ (32 * (o / 4 % 2)) % 2 ^ 32
  else 0

/-- Whole hours of the AON clock since the present patrol pass of a stack began, at most 0xFFFF (R543). -/
def State.passHours (s : State) (k : Nat) : Nat :=
  min 0xFFFF ((s.time.get (fun _ => 0) 0 - s.passAt.get (fun _ => 0) k).toNat / 360000000000)

/-- The slot that KEY_SLOT_SEL names. -/
def State.keySel (s : State) : Nat := s.fld Reg.keySlotSel 7 0

/-- What a read of a defined register shows where the module computes it; none: the stored word. -/
def State.computed (s : State) (a : Nat) : Option Word :=
  let p := a / 0x10000
  let o := a % 0x10000
  let num (n : Nat) : Option Word := some (BitVec.ofNat 32 n)
  if p = 0 then
    if o = 0x004 then some (Config.sysRev &&& 0xFFFF0000)
    else if o = 0x008 then some s.part.caps
    else if o = 0x040 then num s.pinStat
    else if o = 0x044 then num s.alertSrc
    else none
  else if p = 0x010 then (if s.pdAbsent (o / 4) then num 0 else none)
  else if p = 0x011 then (if s.pdAbsent (o / 4) then num 0x75000000 else none)
  else if p = 0x040 then
    if o = 0x008 then some (s.active s.keySel).attr
    else if o = 0x00C then some (s.pendingKey s.keySel).attr
    else if o = 0x010 then some (setBits (s.reg a) 30 29 (s.pst s.keySel))
    else if o = 0x018 then num (s.hss.counter % 2 ^ 30)
    else none
  else if 0x080 ≤ p ∧ p ≤ 0x08F then
    let c := p - 0x080
    if o = 0x000 then some (setBits (s.reg a) 28 28 (b2n (s.ctxKeys c)))
    else if o = 0x004 then num (s.ctxStrands c % 2 ^ 32)
    else if o = 0x008 then num (s.ctxStrands c / 2 ^ 32)
    else if 0x010 ≤ o ∧ o < 0x020 then num (s.ctxBanks c ((o - 0x010) / 4))
    else if o = 0x020 then num (s.ctxGrans c)
    else none
  else if 0x100 ≤ p ∧ p < 0x200 then
    let d := (p - 0x100) / 0x40
    let q := (p - 0x100) % 0x40
    if q = 0 then
      if 0x080 ≤ o ∧ o < 0x090 then some (s.queueStat a (iNum d ((o - 0x080) / 4)))
      else if 0x0C0 ≤ o ∧ o < 0x0F0 then some (s.queueStat a (100 + strandIx d ((o - 0x0C0) / 4)))
      else if 0x100 ≤ o ∧ o < 0x130 then some (s.queueStat a (200 + strandIx d ((o - 0x100) / 4)))
      else none
    else if q = 1 then (if o = 0x200 then num (s.accBits d) else none)
    else if q = 4 then num (primeWord (o / 0x20) (o % 0x20))
    else none
  else if 0x200 ≤ p ∧ p < 0x280 then
    let l := (p - 0x200) / 0x20
    if (p - 0x200) % 0x20 = 1 ∧ o = 0x010 then
      num (min 1024 (s.est.get (fun _ => EstLd.zero) l).setup.length * 2 ^ 10 + (s.est.get (fun _ => EstLd.zero) l).miss.length)
    else none
  else if p = 0x300 then
    (if 0x100 ≤ o ∧ o < 0x1C0 ∧ o % 0x10 = 8 ∧ stackFitted s.part ((o - 0x100) / 0x10) then
      some (setBits (s.reg a) 15 0 (s.passHours ((o - 0x100) / 0x10)))
     else none)
  else if p = 0x3F0 then (if 0x8000 ≤ o then num (s.dbgWord (o - 0x8000)) else none)
  else none

/-- What a read of a register shows; an offset with no register and a WO register read zero (R37). -/
def State.view (s : State) (a : Nat) : Word :=
  match regInfo a with
  | none => 0
  | some i => if i.wo then 0 else (s.computed a).getD (s.reg a)

/-! ### Pairs (R34) -/

/-- The register is the _LO half of a pair. -/
def isPairLo (a : Nat) : Bool :=
  let p := a / 0x10000
  let o := a % 0x10000
  if p = 0x020 then decide (((0x040 ≤ o ∧ o < 0x078) ∨ (0x080 ≤ o ∧ o < 0x108)) ∧ o % 8 = 0)
  else if p = 0x030 then decide (o = 0x008)
  else if p = 0x060 then decide (o = 0x204 ∨ o = 0x304 ∨ o = 0x30C)
  else if 0x080 ≤ p ∧ p ≤ 0x08F then decide (o = 0x004)
  else if 0x100 ≤ p ∧ p < 0x200 then
    let q := (p - 0x100) % 0x40
    if q = 0 then decide (0x400 ≤ o ∧ o < 0x1000 ∧ (o % 0x20 = 0x04 ∨ o % 0x20 = 0x10 ∨ o % 0x20 = 0x18))
    else if q = 3 then decide (o < 0x100 ∧ (o % 0x40 = 0 ∨ o % 0x40 = 8))
    else if q = 4 then decide (o < 0x800 ∧ (o % 0x20 = 0 ∨ o % 0x20 = 8))
    else false
  else if 0x200 ≤ p ∧ p < 0x280 then
    let q := (p - 0x200) % 0x20
    if q = 1 then decide (o = 0x008)
    else if q = 2 then decide (o < 0x020 ∧ o % 8 = 0)
    else if q = 3 then decide (0x100 ≤ o ∧ o < 0x300 ∧ o % 0x20 = 4)
    else if q = 4 ∨ q = 6 then decide (o = 0 ∨ o = 8)
    else if q = 5 then decide (o = 0x220 ∨ o = 0x228)
    else false
  else false

/-- The register is the _HI half of a pair. -/
def isPairHi (a : Nat) : Bool := isPairLo (a - 4)

/-! ### Reads -/

/-- A read of an _LO register: bits [31:0], and bits [63:32] latched for the core (R34); ENT_DATA_LO takes new bits. -/
def State.readLo (s : State) (core a : Nat) : State :=
  if a = Reg.entDataLo then s.entReadLo core
  else { s with latch := s.latch.put (fun _ => none) core (some (a, s.view (a + 4))) }.val (s.view a).toNat

/-- A read of an _HI register: the latched bits of its pair, which empties the latch, or the live bits (R34). -/
def State.readHi (s : State) (core a : Nat) : State :=
  if a = Reg.entDataHi then s.entReadHi core
  else
    match s.latch.get (fun _ => none) core with
    | some (lo, v) =>
      if lo = a - 4 then { s with latch := s.latch.put (fun _ => none) core none }.val v.toNat else s.val (s.view a).toNat
    | none => s.val (s.view a).toNat

/-- A read of a register that is no half of a pair: what it shows, and its RC bits clear (R101, R448). -/
def State.readOne (s : State) (a : Nat) : State :=
  match regInfo a with
  | none => s.val 0
  | some i => (s.setReg a (s.reg a &&& ~~~i.rc)).val (s.view a).toNat

/-- A read that has passed the hub's checks. -/
def State.hubRead (s : State) (core a : Nat) : State :=
  if isPairLo a then s.readLo core a
  else if isPairHi a then s.readHi core a
  else s.readOne a

/-! ### Writes: what each register starts -/

/-- The state an operation that always answers leaves. -/
def State.after (s : State) (r : Result) : State :=
  match r with
  | .next t => t
  | .fault _ => s
  | .refused _ => s

/-- A plain write is complete. -/
def State.wrote (s : State) (a : Nat) (v : Word) : State := (s.plainWrite a v).done Code.ok

/-- What an entry that a register write starts meets: the spec leaves it to the activity of the domain's units, so free values
decide among the answers of R440 that R448 lists. -/
def State.freeReady (s : State) : PdReady :=
  let f := s.free.toNat
  let g := f / 64
  match f % 16 with
  | 0 => .level
  | 1 => .refuse (.stage (Fin.ofNat 8 g))
  | 2 => .refuse (.core (Fin.ofNat 16 g))
  | 3 => .refuse (.level (Fin.ofNat 5 g))
  | 4 => .refuse (.hbm (Fin.ofNat 12 g))
  | 5 => .wake (.stage (Fin.ofNat 8 g))
  | 6 => .wake (.lane (Fin.ofNat 64 g))
  | 7 => .wake (.hbm (Fin.ofNat 12 g))
  | 8 => .wake (.access (Fin.ofNat 16 g))
  | 9 => .wake (.bank (Fin.ofNat 24 g))
  | 10 => .wake (.queue (Fin.ofNat 3 g))
  | 11 => .wake (.beat (Fin.ofNat 8 g))
  | 12 => .wake (.answer (Fin.ofNat 2 g))
  | _ => .ready

/-- A write of PD_CTL[n] (R448): TGT, HOLD, CLR_FAIL, ENTER. -/
def State.pdCtlWrite (s : State) (n : Nat) (v : Word) : State :=
  if s.pdAbsent n then s.done Code.ok
  else
    let s1 := (s.setFld (Reg.pdCtl n) 25 24 (bits v 25 24)).holdWrite n (bit v 31)
    let s2 := if bit v 29 then s1.clrFailWrite n else s1
    (if bit v 30 then (s2.enterWrite n s2.freeReady).took 1 else s2).done Code.ok

/-- A write of KEY_CMD (R408). -/
def State.keyCmdWrite (s : State) (v : Word) : State :=
  let slot : Fin 256 := ⟨s.keySel % 256, Nat.mod_lt _ (by decide)⟩
  let op := bits v 30 28
  if ¬ bit v 31 then s.wrote Reg.keyCmd v
  else if op = 0 then s.after (execKeyGenerate slot s)
  else if op = 1 then s.after (execKeyVerify slot s)
  else if op = 2 then s.after (execKeyCommit slot s)
  else if op = 3 then s.after (execKeyDiscard slot s)
  else if op = 4 then s.after (execKeyInvalidate slot s)
  else if op = 5 then s.after (execKeyCmdStatement slot s)
  else if op = 6 then s.after (execKeyPublic slot s)
  else s.keyDone 7 slot.val Code.formatError

/-- A write of KEY_PENDING_ATTR: ignored unless PSTATE is EMPTY; VALID is not writable (R408). -/
def State.pendingAttrWrite (s : State) (v : Word) : State :=
  (if s.pst s.keySel = 0 then s.setPendingKey s.keySel { s.pendingKey s.keySel with attr := v &&& 0x7FFFFFFF } else s).done
    Code.ok

/-- A write of LD_CTL[d]; while a load runs its GO alone is ignored (R103, R105). -/
def State.ldCtlWrite (s : State) (d : Fin 4) (v : Word) : State :=
  let s1 := s.wrote (Reg.ldCtl d.val) v
  let s2 := if bit v 30 then s1.after (execRecipeUnbind d s1) else s1
  if bit v 31 then s2.after (execRecipeLoad d s2) else s2

/-- A write of PS_CTL (R182). -/
def State.psCtlWrite (s : State) (v : Word) : State :=
  let c : Fin 16 := ⟨bits v 19 16 % 16, Nat.mod_lt _ (by decide)⟩
  let i : Fin 256 := ⟨bits v 7 0 % 256, Nat.mod_lt _ (by decide)⟩
  let op := bits v 27 26
  if ¬ bit v 31 then s.wrote Reg.psCtl v
  else if op = 0 then s.after (execPsWrite c i s)
  else if op = 1 then s.after (execPsRead c i s)
  else if op = 2 then s.after (execPsClear c i s)
  else s.psDone 3 c.val i.val Code.formatError

/-- A write of EK_CTL (R240). -/
def State.ekCtlWrite (s : State) (v : Word) : State :=
  let c : Fin 16 := ⟨bits v 19 16 % 16, Nat.mod_lt _ (by decide)⟩
  let i : Fin 64 := ⟨bits v 5 0 % 64, Nat.mod_lt _ (by decide)⟩
  let op := bits v 27 26
  if ¬ bit v 31 then s.wrote Reg.ekCtl v
  else if op = 0 then s.after (execEkEnter c i s)
  else if op = 1 then s.after (execEkRetire c i s)
  else if op = 2 then s.after (execEkRead c i s)
  else s.ekDone 3 c.val i.val Code.formatError

/-- A write of CX_CMD (R378); a CREATE by register names no owner keys. -/
def State.cxCmdWrite (s : State) (v : Word) : State :=
  let c := bits v 3 0
  let op := bits v 30 28
  if ¬ bit v 31 then (if s.cxBusy then s.done Code.ok else s.wrote Reg.cxCmd v)
  else if op = 0 then s.cxCreate c []
  else if op = 1 then s.cxPark c
  else if op = 2 then s.cxResume c
  else if op = 3 then s.cxEnd c
  else if s.cxBusy then s.idle
  else s.cxDone op c Code.formatError

/-- A write of BW_GR_CTL (R387). -/
def State.grCtlWrite (s : State) (v : Word) : State :=
  let s1 := s.wrote Reg.bwGrCtl v
  let op := bits v 30 29
  if ¬ bit v 31 then s1
  else if op = 0 then s1.after (execGranuleAssign s1)
  else if op = 1 then s1.after (execGranuleRelease s1)
  else if op = 2 then s1.after (execGranuleRead s1)
  else s1.grDone 3 0 Code.formatError

/-- A write of STRAND_CTL (R94, R96); GUARDED is ignored on I- and C-strands. -/
def State.strandCtlWrite (s : State) (d st : Nat) (v : Word) : State :=
  let ctl := Reg.strandCtl d st
  let s1 := if strandKind st = 2 then
      let s0 := s.setFld ctl 28 28 (bits v 28 28)
      s0.setFld (Reg.strandStat d st) 25 25 (b2n (bit v 28 || (s.strand (strandIx d st)).forced))
    else s
  let s2 := s1.enableWrite d st (bit v 31)
  let s3 := if bit v 30 then s2.drainWrite d st else s2
  (if bit v 29 then s3.sresetWrite d st else s3).done Code.ok

/-- A write of ST_CTL (R478). -/
def State.stCtlWrite (s : State) (d : Nat) (v : Word) : State :=
  if bit v 31 then s.stOp d (bits v 30 28) (bits v 4 0)
  else match s.testOf d with
  | some _ => s.done Code.ok
  | none => s.wrote (Reg.stCtl d) v

/-- A write of SEED_CTL (R206). -/
def State.seedCtlWrite (s : State) (d i : Nat) (v : Word) : State :=
  if bit v 31 then s.seedCommit d i (bits v 11 0) (s.staged d i)
  else if bit v 30 then s.seedCommit d i (bits v 11 0) 0
  else s.wrote (Reg.seedCtl d i) v

/-- A register that every light die keeps alike (R333, R373). -/
def State.onAllLds (s : State) (p o : Nat) (v : Word) : State :=
  (s.lds.foldl (fun t l => t.plainWrite (regAddr (Reg.ldPage l + p) o) v) s).done Code.ok

/-- A write of FST_CTL (R333). -/
def State.fstCtlWrite (s : State) (v : Word) : State :=
  let tag : BitVec 16 := BitVec.ofNat 16 (bits v 15 0)
  let op := bits v 30 29
  if ¬ bit v 31 then s.onAllLds 3 0 v
  else if op = 0 then s.after (execFstWrite tag s)
  else if op = 1 then s.after (execFstRead tag s)
  else if op = 2 then s.after (execFstArm tag s)
  else s.after (execFstClear tag s)

/-- A write on the page of the fold stream table and the fold-out engines (R333, R337). -/
def State.foldPageWrite (s : State) (l o : Nat) (v : Word) : State :=
  if o = 0 then s.fstCtlWrite v
  else if o < 0x020 then s.onAllLds 3 o v
  else if 0x100 ≤ o ∧ o < 0x300 ∧ o % 0x20 = 0 ∧ bit v 31 then
    (s.plainWrite (regAddr (Reg.ldPage l + 3) o) v).foldOutGo l ((o - 0x100) / 0x20)
  else s.wrote (regAddr (Reg.ldPage l + 3) o) v

/-- A write on the page of the connection and region commands (R342, R351, R353, R373). -/
def State.connPageWrite (s : State) (l o : Nat) (v : Word) : State :=
  let a := regAddr (Reg.ldPage l + 5) o
  if o = 0 then
    (if bit v 31 then s.rgCommand l (bits v 30 28) (bits v 19 0)
     else if s.fld (Reg.rgStat l) 31 31 = 1 then s.done Code.ok else s.wrote a v)
  else if o = 0x100 then (if bit v 31 then s.cnCommand l (bits v 30 28) (bits v 15 0) else s.wrote a v)
  else if o = 0x200 then s.ring l (bits v 31 16) (bits v 15 0)
  else if o = 0x210 ∨ o = 0x214 ∨ o = 0x218 then s.onAllLds 5 o v
  else s.wrote a v

/-- A write of an EVQ register: queues 0 and 3 ignore the normal world; a HEAD beyond TAIL is ignored (R483). -/
def State.evqWrite (s : State) (w : World) (o : Nat) (v : Word) : State :=
  let q := o / 0x40
  if w = .normal ∧ (q = 0 ∨ q = 3) then s.done Code.ok
  else if o % 0x40 = 0 then
    let h := s.fld (Reg.evqHead q) 11 0
    let t := s.fld (Reg.evqTail q) 11 0
    (if (bits v 11 0 + 4096 - h) % 4096 ≤ (t + 4096 - h) % 4096 then
      (s.setFld (Reg.evqHead q) 11 0 (bits v 11 0)).evqRefresh q else s).done Code.ok
  else s.wrote (regAddr 0x380 o) v

/-- A write on a compute die's control and bank pages. -/
def State.cdWrite (s : State) (d : Fin 4) (q o : Nat) (v : Word) : State :=
  let a := regAddr (Reg.cdPage d.val + q) o
  if q = 0 then
    if o < 0x030 then s.strandCtlWrite d.val (o / 4) v
    else if o = 0x200 then s.stCtlWrite d.val v
    else if 0x400 ≤ o ∧ o < 0x1000 ∧ o % 0x20 = 0 ∧ bit v 31 then
      (s.clearRecord ⟨d, ⟨(o - 0x400) / 0x100 % 12, Nat.mod_lt _ (by decide)⟩,
        ⟨o / 0x20 % 8, Nat.mod_lt _ (by decide)⟩⟩).done Code.ok
    else s.wrote a v
  else if q = 1 then (if o < 0x060 then s.bankOwnerWrite d.val (o / 4) v else s.wrote a v)
  else if q = 5 then (if o < 0x100 ∧ o % 0x10 = 0 then s.shtWrite d.val (o / 0x40) (o % 0x40 / 0x10) v else s.wrote a v)
  else if q = 6 then
    if o < 0x400 ∧ o % 0x100 = 0 then s.seedCtlWrite d.val (o / 0x100) v
    else if o < 0x400 ∧ 0x40 ≤ o % 0x100 ∧ o % 0x100 < 0x80 then
      (s.seedData d.val (o / 0x100) ((o % 0x100 - 0x40) / 4) v).done Code.ok
    else s.wrote a v
  else s.wrote a v

/-- A write on a light die's pages. -/
def State.ldWrite (s : State) (l q o : Nat) (v : Word) : State :=
  if q = 0 ∧ o < 0x040 then s.laneCtlWrite (16 * l + o / 4) v
  else if q = 1 ∧ 0x140 ≤ o ∧ o < 0x180 then s.gateWrite l ((o - 0x140) / 4) v
  else if q = 3 then s.foldPageWrite l o v
  else if q = 5 then s.connPageWrite l o v
  else s.wrote (regAddr (Reg.ldPage l + q) o) v

/-- What a write of a defined register does. -/
def State.regWrite (s : State) (w : World) (a : Nat) (v : Word) : State :=
  let p := a / 0x10000
  let o := a % 0x10000
  if a = Reg.sysReset then (s.sysResetVal v).done Code.ok
  else if a = Reg.hubWdtKick then s.wdtKick v
  else if a = Reg.hubRst then s.hubRst v
  else if p = 0x010 then s.pdCtlWrite (o / 4) v
  else if a = Reg.govCtl then
    (if bit v 30 then (s.plainWrite a v).clrReg.done Code.ok else s.wrote a v)
  else if a = Reg.govReason then (s.wrote a v).stickyActive
  else if a = Reg.entCtl then (if bit v 31 then s.entRestart else s.done Code.ok)
  else if a = Reg.entOscEn then s.oscEnWrite v
  else if a = Reg.keyCmd then s.keyCmdWrite v
  else if a = Reg.keyPendingAttr then s.pendingAttrWrite v
  else if p = 0x050 ∧ o < 0x040 then
    (if o % 0x10 = 0 then s.ldCtlWrite ⟨o / 0x10 % 4, Nat.mod_lt _ (by decide)⟩ v else s.wrote a v)
  else if a = Reg.psCtl then s.psCtlWrite v
  else if a = Reg.ekCtl then s.ekCtlWrite v
  else if a = Reg.cxCmd then s.cxCmdWrite v
  else if a = Reg.bwGrCtl then s.grCtlWrite v
  else if a = Reg.bwFailStat then
    (if bit v 31 then
      (s.resetRegs (fun k => decide (Reg.bwFailStat ≤ k ∧ k ≤ Reg.bwFailTimeHi))).done Code.ok
     else s.done Code.ok)
  else if 0x080 ≤ p ∧ p ≤ 0x08F then
    (let t := s.wrote a v
     if 0x400 ≤ o ∧ o < 0x800 ∧ bit v 30 then t.barCancel (p - 0x080) ((o - 0x400) / 4) else t)
  else if 0x100 ≤ p ∧ p < 0x200 then
    s.cdWrite ⟨(p - 0x100) / 0x40 % 4, Nat.mod_lt _ (by decide)⟩ ((p - 0x100) % 0x40) o v
  else if 0x200 ≤ p ∧ p < 0x280 then s.ldWrite ((p - 0x200) / 0x20) ((p - 0x200) % 0x20) o v
  else if p = 0x380 then s.evqWrite w o v
  else s.wrote a v

/-- A write of an _LO register is held in the core's buffer (R34). -/
def State.writeLo (s : State) (core a : Nat) (v : Word) : State :=
  { s with wbuf := s.wbuf.put (fun _ => none) core (some (a, v)) }.done Code.ok

/-- A write of an _HI register commits the buffered _LO of its pair with it, or bits [63:32] alone (R34). -/
def State.writeHi (s : State) (core a : Nat) (v : Word) : State :=
  let s1 := s.dropWbuf core
  match s.wbuf.get (fun _ => none) core with
  | some (lo, w) => if lo = a - 4 then (s1.plainWrite lo w).wrote a v else s1.wrote a v
  | none => s1.wrote a v

/-- A write that has passed the hub's checks; an offset with no register ignores it (R37). -/
def State.hubWrite (s : State) (w : World) (core a : Nat) (v : Word) : State :=
  match regInfo a with
  | none => (s.dropWbuf core).done Code.ok
  | some _ =>
    if isPairLo a then s.writeLo core a v
    else if isPairHi a then s.writeHi core a v
    else (s.dropWbuf core).regWrite w a v

/-! ### The commands -/

/-- A write access of a hub core. -/
def State.accessWrite (s : State) (a : Acc) (v : Word) : State :=
  s.access a true (fun t => t.hubWrite a.world a.core.val a.addr v)
/-- A read access of a hub core. -/
def State.accessRead (s : State) (a : Acc) : State := s.access a false (fun t => t.hubRead a.core.val a.addr)

/-- REGISTER_WRITE. -/
def execRegisterWrite (a : Acc) (v : Word) (s : State) : Result := .next (s.accessWrite a v)
/-- PAIR_LO_READ. -/
def execPairLoRead (a : Acc) (s : State) : Result := .next (s.accessRead a)
/-- PAIR_HI_READ. -/
def execPairHiRead (a : Acc) (s : State) : Result := .next (s.accessRead a)
/-- PAIR_LO_WRITE. -/
def execPairLoWrite (a : Acc) (v : Word) (s : State) : Result := .next (s.accessWrite a v)
/-- PAIR_HI_WRITE. -/
def execPairHiWrite (a : Acc) (v : Word) (s : State) : Result := .next (s.accessWrite a v)
/-- READ_CLEAR. -/
def execReadClear (a : Acc) (s : State) : Result := .next (s.accessRead a)

end Sys2Proof.Machine
end

