-- ==== Sys2Proof/Machine/Dispatch.lean ====
section
/-! DEFINITION. The one dispatch of the machine: one arm per command, one direct call of its meaning. -/

namespace Sys2Proof.Machine

def exec (i : Instr) (s : State) : Host.Outcome State Fault Refusal :=
  match i with
  | .coldReset => Sys2Proof.Machine.execColdReset s
  | .aonPowerGood tamperLow => Sys2Proof.Machine.execAonPowerGood tamperLow s
  | .pinSample profileSel slotId => Sys2Proof.Machine.execPinSample profileSel slotId s
  | .auxLost => Sys2Proof.Machine.execAuxLost s
  | .mainPresent mv10 => Sys2Proof.Machine.execMainPresent mv10 s
  | .mainLow mv10 => Sys2Proof.Machine.execMainLow mv10 s
  | .mainHigh mv10 => Sys2Proof.Machine.execMainHigh mv10 s
  | .mainOvercurrent => Sys2Proof.Machine.execMainOvercurrent s
  | .mainAbsent mv10 => Sys2Proof.Machine.execMainAbsent mv10 s
  | .mainGoodFall => Sys2Proof.Machine.execMainGoodFall s
  | .powerUpStart => Sys2Proof.Machine.execPowerUpStart s
  | .railGood r mv => Sys2Proof.Machine.execRailGood r mv s
  | .railTimeout r => Sys2Proof.Machine.execRailTimeout r s
  | .powerDownStep => Sys2Proof.Machine.execPowerDownStep s
  | .pmbusPoll r answer => Sys2Proof.Machine.execPmbusPoll r answer s
  | .resetPin lowNs => Sys2Proof.Machine.execResetPin lowNs s
  | .warmReset cause => Sys2Proof.Machine.execWarmReset cause s
  | .sysResetWrite a v => Sys2Proof.Machine.execSysResetWrite a v s
  | .bootStep => Sys2Proof.Machine.execBootStep s
  | .tamper lowSamples => Sys2Proof.Machine.execTamper lowSamples s
  | .coolantChange high heldUs => Sys2Proof.Machine.execCoolantChange high heldUs s
  | .lockThrottle lowNs => Sys2Proof.Machine.execLockThrottle lowNs s
  | .lockThrottleRelease highUs => Sys2Proof.Machine.execLockThrottleRelease highUs s
  | .thermalTrip sensor tempC => Sys2Proof.Machine.execThermalTrip sensor tempC s
  | .thermalSample readings => Sys2Proof.Machine.execThermalSample readings s
  | .govDecision => Sys2Proof.Machine.execGovDecision s
  | .powerSample mainW => Sys2Proof.Machine.execPowerSample mainW s
  | .sustainedStep => Sys2Proof.Machine.execSustainedStep s
  | .springLimitReached => Sys2Proof.Machine.execSpringLimitReached s
  | .vcoreTrim d m => Sys2Proof.Machine.execVcoreTrim d m s
  | .avsAck settled => Sys2Proof.Machine.execAvsAck settled s
  | .avsTimeout => Sys2Proof.Machine.execAvsTimeout s
  | .govClrReg => Sys2Proof.Machine.execGovClrReg s
  | .fillerTimeout l => Sys2Proof.Machine.execFillerTimeout l s
  | .lockDemandRefresh => Sys2Proof.Machine.execLockDemandRefresh s
  | .lockDemandReceive src point reason lseq => Sys2Proof.Machine.execLockDemandReceive src point reason lseq s
  | .lockReleaseReceive src lseq => Sys2Proof.Machine.execLockReleaseReceive src lseq s
  | .lockEntryExpire src => Sys2Proof.Machine.execLockEntryExpire src s
  | .lockRiseHoldoff => Sys2Proof.Machine.execLockRiseHoldoff s
  | .pdIdleTimeout n r => Sys2Proof.Machine.execPdIdleTimeout n r s
  | .pdDeepTimeout n r => Sys2Proof.Machine.execPdDeepTimeout n r s
  | .pdEnter n r => Sys2Proof.Machine.execPdEnter n r s
  | .pdEntryDone n => Sys2Proof.Machine.execPdEntryDone n s
  | .pdHold n hold core => Sys2Proof.Machine.execPdHold n hold core s
  | .pdWake n unit id => Sys2Proof.Machine.execPdWake n unit id s
  | .pdWakeDone n => Sys2Proof.Machine.execPdWakeDone n s
  | .pdWakeTimeout n => Sys2Proof.Machine.execPdWakeTimeout n s
  | .pdClrFail n => Sys2Proof.Machine.execPdClrFail n s
  | .registerWrite a v => Sys2Proof.Machine.execRegisterWrite a v s
  | .pairLoRead a => Sys2Proof.Machine.execPairLoRead a s
  | .pairHiRead a => Sys2Proof.Machine.execPairHiRead a s
  | .pairLoWrite a v => Sys2Proof.Machine.execPairLoWrite a v s
  | .pairHiWrite a v => Sys2Proof.Machine.execPairHiWrite a v s
  | .readClear a => Sys2Proof.Machine.execReadClear a s
  | .bankOwnerWrite a v => Sys2Proof.Machine.execBankOwnerWrite a v s
  | .bankFreeClear a => Sys2Proof.Machine.execBankFreeClear a s
  | .bankHandoverDrainDone d b => Sys2Proof.Machine.execBankHandoverDrainDone d b s
  | .bankClearDone d b => Sys2Proof.Machine.execBankClearDone d b s
  | .hubMemoryAccess world key addr op busyLine => Sys2Proof.Machine.execHubMemoryAccess world key addr op busyLine s
  | .dmaTransfer d ctx src dst len => Sys2Proof.Machine.execDmaTransfer d ctx src dst len s
  | .aliasWrite r addr data busy => Sys2Proof.Machine.execAliasWrite r addr data busy s
  | .aliasExchange r addr data busy => Sys2Proof.Machine.execAliasExchange r addr data busy s
  | .eccWriteback wordAddr otherWrite => Sys2Proof.Machine.execEccWriteback wordAddr otherWrite s
  | .patrolLine d b line busy => Sys2Proof.Machine.execPatrolLine d b line busy s
  | .patrolPass d b ms => Sys2Proof.Machine.execPatrolPass d b ms s
  | .hbmPatrolLine stack saddr => Sys2Proof.Machine.execHbmPatrolLine stack saddr s
  | .hbmPhyRetrain stack idle => Sys2Proof.Machine.execHbmPhyRetrain stack idle s
  | .hbmLineRead r addr => Sys2Proof.Machine.execHbmLineRead r addr s
  | .hbmLineWrite r addr data => Sys2Proof.Machine.execHbmLineWrite r addr data s
  | .treeNodeWriteback d level node => Sys2Proof.Machine.execTreeNodeWriteback d level node s
  | .strandEnable d str on => Sys2Proof.Machine.execStrandEnable d str on s
  | .strandDrain d str => Sys2Proof.Machine.execStrandDrain d str s
  | .strandDrainDone d str => Sys2Proof.Machine.execStrandDrainDone d str s
  | .strandSreset d str => Sys2Proof.Machine.execStrandSreset d str s
  | .sresetDone d str => Sys2Proof.Machine.execSresetDone d str s
  | .faultRecordClear l => Sys2Proof.Machine.execFaultRecordClear l s
  | .tileArrive l badWord => Sys2Proof.Machine.execTileArrive l badWord s
  | .creditReturn l => Sys2Proof.Machine.execCreditReturn l s
  | .tileForward l => Sys2Proof.Machine.execTileForward l s
  | .iqPublish ix => Sys2Proof.Machine.execIqPublish ix s
  | .iqFreeReturn ix => Sys2Proof.Machine.execIqFreeReturn ix s
  | .iqZeroDone ix => Sys2Proof.Machine.execIqZeroDone ix s
  | .recipeLoad d => Sys2Proof.Machine.execRecipeLoad d s
  | .recipeLoadDone d => Sys2Proof.Machine.execRecipeLoadDone d s
  | .recipeUnbind d => Sys2Proof.Machine.execRecipeUnbind d s
  | .twiddlePrepareDone l q => Sys2Proof.Machine.execTwiddlePrepareDone l q s
  | .vaddQ l f => Sys2Proof.Machine.execVaddQ l f s
  | .vsubQ l f => Sys2Proof.Machine.execVsubQ l f s
  | .vmulQ l f => Sys2Proof.Machine.execVmulQ l f s
  | .vmacQ l f => Sys2Proof.Machine.execVmacQ l f s
  | .vnegQ l f => Sys2Proof.Machine.execVnegQ l f s
  | .vaddZ32 l f => Sys2Proof.Machine.execVaddZ32 l f s
  | .vsubZ32 l f => Sys2Proof.Machine.execVsubZ32 l f s
  | .vaddZ64 l f => Sys2Proof.Machine.execVaddZ64 l f s
  | .vsubZ64 l f => Sys2Proof.Machine.execVsubZ64 l f s
  | .vsplat l f => Sys2Proof.Machine.execVsplat l f s
  | .ntt l f => Sys2Proof.Machine.execNtt l f s
  | .intt l f => Sys2Proof.Machine.execIntt l f s
  | .perm l f => Sys2Proof.Machine.execPerm l f s
  | .bconv l f => Sys2Proof.Machine.execBconv l f s
  | .resc l f => Sys2Proof.Machine.execResc l f s
  | .modx l f => Sys2Proof.Machine.execModx l f s
  | .ldt l f => Sys2Proof.Machine.execLdt l f s
  | .stt l f => Sys2Proof.Machine.execStt l f s
  | .qpop l f => Sys2Proof.Machine.execQpop l f s
  | .send l f => Sys2Proof.Machine.execSend l f s
  | .recv l f => Sys2Proof.Machine.execRecv l f s
  | .ksw l f => Sys2Proof.Machine.execKsw l f s
  | .rfr l f => Sys2Proof.Machine.execRfr l f s
  | .extr l f => Sys2Proof.Machine.execExtr l f s
  | .pack l f => Sys2Proof.Machine.execPack l f s
  | .cmrg l f => Sys2Proof.Machine.execCmrg l f s
  | .seal l f => Sys2Proof.Machine.execSeal l f s
  | .fold l f => Sys2Proof.Machine.execFold l f s
  | .bsetx l f => Sys2Proof.Machine.execBsetx l f s
  | .prgx l f => Sys2Proof.Machine.execPrgx l f s
  | .aeadd l f => Sys2Proof.Machine.execAeadd l f s
  | .dpn l f => Sys2Proof.Machine.execDpn l f s
  | .fmaF32 l f => Sys2Proof.Machine.execFmaF32 l f s
  | .cvt l f => Sys2Proof.Machine.execCvt l f s
  | .sli l f => Sys2Proof.Machine.execSli l f s
  | .slu l f => Sys2Proof.Machine.execSlu l f s
  | .sadd l f => Sys2Proof.Machine.execSadd l f s
  | .ssub l f => Sys2Proof.Machine.execSsub l f s
  | .smul l f => Sys2Proof.Machine.execSmul l f s
  | .sand l f => Sys2Proof.Machine.execSand l f s
  | .sor l f => Sys2Proof.Machine.execSor l f s
  | .sxor l f => Sys2Proof.Machine.execSxor l f s
  | .sshl l f => Sys2Proof.Machine.execSshl l f s
  | .sshr l f => Sys2Proof.Machine.execSshr l f s
  | .scmp l f => Sys2Proof.Machine.execScmp l f s
  | .pset l f => Sys2Proof.Machine.execPset l f s
  | .srd l f => Sys2Proof.Machine.execSrd l f s
  | .swr l f => Sys2Proof.Machine.execSwr l f s
  | .qset l f => Sys2Proof.Machine.execQset l f s
  | .gset l f => Sys2Proof.Machine.execGset l f s
  | .dset l f => Sys2Proof.Machine.execDset l f s
  | .loop l f => Sys2Proof.Machine.execLoop l f s
  | .br l f => Sys2Proof.Machine.execBr l f s
  | .bar l f => Sys2Proof.Machine.execBar l f s
  | .barw l f => Sys2Proof.Machine.execBarw l f s
  | .oppt l f => Sys2Proof.Machine.execOppt l f s
  | .fence l f => Sys2Proof.Machine.execFence l f s
  | .trap l f => Sys2Proof.Machine.execTrap l f s
  | .halt l f => Sys2Proof.Machine.execHalt l f s
  | .nop l f => Sys2Proof.Machine.execNop l f s
  | .psWrite ctx index => Sys2Proof.Machine.execPsWrite ctx index s
  | .psRead ctx index => Sys2Proof.Machine.execPsRead ctx index s
  | .psClear ctx index => Sys2Proof.Machine.execPsClear ctx index s
  | .shtCtlWrite world d ix j v => Sys2Proof.Machine.execShtCtlWrite world d ix j v s
  | .shardClosed d ix j => Sys2Proof.Machine.execShardClosed d ix j s
  | .seedWrite world d ix entry => Sys2Proof.Machine.execSeedWrite world d ix entry s
  | .seedClear world d ix entry => Sys2Proof.Machine.execSeedClear world d ix entry s
  | .roundOpen p q => Sys2Proof.Machine.execRoundOpen p q s
  | .roundStatus p => Sys2Proof.Machine.execRoundStatus p s
  | .roundCommit p => Sys2Proof.Machine.execRoundCommit p s
  | .roundAbort p => Sys2Proof.Machine.execRoundAbort p s
  | .roundWorkDone ctx w => Sys2Proof.Machine.execRoundWorkDone ctx w s
  | .phaseWindowExpire ctx => Sys2Proof.Machine.execPhaseWindowExpire ctx s
  | .clientClassify ctx shard => Sys2Proof.Machine.execClientClassify ctx shard s
  | .shareAdvertise ld => Sys2Proof.Machine.execShareAdvertise ld s
  | .shareShares ld => Sys2Proof.Machine.execShareShares ld s
  | .shareReveal ld => Sys2Proof.Machine.execShareReveal ld s
  | .secretInterpolate ctx shard slot pairwise => Sys2Proof.Machine.execSecretInterpolate ctx shard slot pairwise s
  | .pairwiseSeedDerive ctx shard v u => Sys2Proof.Machine.execPairwiseSeedDerive ctx shard v u s
  | .shardFailReport ctx shard => Sys2Proof.Machine.execShardFailReport ctx shard s
  | .foldEpochEnd ctx x => Sys2Proof.Machine.execFoldEpochEnd ctx x s
  | .sketchScan ctx => Sys2Proof.Machine.execSketchScan ctx s
  | .updateStart ctx shard => Sys2Proof.Machine.execUpdateStart ctx shard s
  | .frameReceive f => Sys2Proof.Machine.execFrameReceive f s
  | .sessionLookupDone x => Sys2Proof.Machine.execSessionLookupDone x s
  | .keyPortRequest session => Sys2Proof.Machine.execKeyPortRequest session s
  | .helloInit ld ctx => Sys2Proof.Machine.execHelloInit ld ctx s
  | .helloConfirm ld => Sys2Proof.Machine.execHelloConfirm ld s
  | .sessionPendingExpire ld index => Sys2Proof.Machine.execSessionPendingExpire ld index s
  | .closeEnd ld => Sys2Proof.Machine.execCloseEnd ld s
  | .closeDone ld => Sys2Proof.Machine.execCloseDone ld s
  | .sessionIndexRelease ld index => Sys2Proof.Machine.execSessionIndexRelease ld index s
  | .estGateWrite a v => Sys2Proof.Machine.execEstGateWrite a v s
  | .sessionCacheFlushDone ctx => Sys2Proof.Machine.execSessionCacheFlushDone ctx s
  | .txSend ld => Sys2Proof.Machine.execTxSend ld s
  | .txInsertSend ld pick => Sys2Proof.Machine.execTxInsertSend ld pick s
  | .txSetAdmittedSend ld => Sys2Proof.Machine.execTxSetAdmittedSend ld s
  | .txFreeSend ld => Sys2Proof.Machine.execTxFreeSend ld s
  | .txFree ld => Sys2Proof.Machine.execTxFree ld s
  | .laneLock lane => Sys2Proof.Machine.execLaneLock lane s
  | .laneHelloSend lane => Sys2Proof.Machine.execLaneHelloSend lane s
  | .laneHelloReceive x group modId port => Sys2Proof.Machine.execLaneHelloReceive x group modId port s
  | .mismatchRecheck x group modId port => Sys2Proof.Machine.execMismatchRecheck x group modId port s
  | .dataFrameSend ld k vc p => Sys2Proof.Machine.execDataFrameSend ld k vc p s
  | .dataFrameReceive lane h p => Sys2Proof.Machine.execDataFrameReceive lane h p s
  | .idleFrameSend lane => Sys2Proof.Machine.execIdleFrameSend lane s
  | .idleFrameReceive lane h => Sys2Proof.Machine.execIdleFrameReceive lane h s
  | .linkAckSend ld k => Sys2Proof.Machine.execLinkAckSend ld k s
  | .noticeLaneErrReceive x named lastGood => Sys2Proof.Machine.execNoticeLaneErrReceive x named lastGood s
  | .linkReplayTimeout ld k seq => Sys2Proof.Machine.execLinkReplayTimeout ld k seq s
  | .laneLockLoss lane => Sys2Proof.Machine.execLaneLockLoss lane s
  | .laneErrorWindow lane => Sys2Proof.Machine.execLaneErrorWindow lane s
  | .laneWithdrawWrite a v => Sys2Proof.Machine.execLaneWithdrawWrite a v s
  | .noticeWithdrawReceive x => Sys2Proof.Machine.execNoticeWithdrawReceive x s
  | .laneRejoin lane heldMs => Sys2Proof.Machine.execLaneRejoin lane heldMs s
  | .noticeRejoinReceive x => Sys2Proof.Machine.execNoticeRejoinReceive x s
  | .laneRecal lane => Sys2Proof.Machine.execLaneRecal lane s
  | .laneRecalDone lane => Sys2Proof.Machine.execLaneRecalDone lane s
  | .packetForward ld vc => Sys2Proof.Machine.execPacketForward ld vc s
  | .reduceReceive ld => Sys2Proof.Machine.execReduceReceive ld s
  | .reduceSlotWaitEnd ld => Sys2Proof.Machine.execReduceSlotWaitEnd ld s
  | .foldStreamExpire tag => Sys2Proof.Machine.execFoldStreamExpire tag s
  | .fstWrite tag => Sys2Proof.Machine.execFstWrite tag s
  | .fstRead tag => Sys2Proof.Machine.execFstRead tag s
  | .fstArm tag => Sys2Proof.Machine.execFstArm tag s
  | .fstClear tag => Sys2Proof.Machine.execFstClear tag s
  | .foldOutGo ld e => Sys2Proof.Machine.execFoldOutGo ld e s
  | .foldOutBlock ld e => Sys2Proof.Machine.execFoldOutBlock ld e s
  | .localBlockDeliver tag => Sys2Proof.Machine.execLocalBlockDeliver tag s
  | .cnOpen conn => Sys2Proof.Machine.execCnOpen conn s
  | .cnClose conn => Sys2Proof.Machine.execCnClose conn s
  | .cnRead conn => Sys2Proof.Machine.execCnRead conn s
  | .cnPause conn => Sys2Proof.Machine.execCnPause conn s
  | .cnResume conn => Sys2Proof.Machine.execCnResume conn s
  | .hsInitReceive p => Sys2Proof.Machine.execHsInitReceive p s
  | .hsRespReceive p => Sys2Proof.Machine.execHsRespReceive p s
  | .hsFinReceive p => Sys2Proof.Machine.execHsFinReceive p s
  | .hsResend conn => Sys2Proof.Machine.execHsResend conn s
  | .rgRegister index => Sys2Proof.Machine.execRgRegister index s
  | .rgRevoke index => Sys2Proof.Machine.execRgRevoke index s
  | .rgRevokeDone index => Sys2Proof.Machine.execRgRevokeDone index s
  | .rgFree index => Sys2Proof.Machine.execRgFree index s
  | .rgRead index => Sys2Proof.Machine.execRgRead index s
  | .doorbell world ld conn tail => Sys2Proof.Machine.execDoorbell world ld conn tail s
  | .sendQueueEntry conn => Sys2Proof.Machine.execSendQueueEntry conn s
  | .connPacketSend conn => Sys2Proof.Machine.execConnPacketSend conn s
  | .connPacketReceive p => Sys2Proof.Machine.execConnPacketReceive p s
  | .readReqServe conn => Sys2Proof.Machine.execReadReqServe conn s
  | .ackSend conn => Sys2Proof.Machine.execAckSend conn s
  | .ackReceive p rttExcess => Sys2Proof.Machine.execAckReceive p rttExcess s
  | .nakReceive p => Sys2Proof.Machine.execNakReceive p s
  | .goneReceive p => Sys2Proof.Machine.execGoneReceive p s
  | .rtoExpire conn => Sys2Proof.Machine.execRtoExpire conn s
  | .nakHintExpire conn => Sys2Proof.Machine.execNakHintExpire conn s
  | .twPauseExpire conn => Sys2Proof.Machine.execTwPauseExpire conn s
  | .barArriveReceive src ctx num inst => Sys2Proof.Machine.execBarArriveReceive src ctx num inst s
  | .barArriveResend ctx num => Sys2Proof.Machine.execBarArriveResend ctx num s
  | .barReleaseReceive ctx num inst => Sys2Proof.Machine.execBarReleaseReceive ctx num inst s
  | .barCancelReceive ctx num inst => Sys2Proof.Machine.execBarCancelReceive ctx num inst s
  | .barrierCancel ctx num => Sys2Proof.Machine.execBarrierCancel ctx num s
  | .phaseReceive ctx state round => Sys2Proof.Machine.execPhaseReceive ctx state round s
  | .phaseResend ctx => Sys2Proof.Machine.execPhaseResend ctx s
  | .cxCreate ctx ownerKeys => Sys2Proof.Machine.execCxCreate ctx ownerKeys s
  | .cxPark ctx => Sys2Proof.Machine.execCxPark ctx s
  | .parkDone ctx => Sys2Proof.Machine.execParkDone ctx s
  | .cxResume ctx => Sys2Proof.Machine.execCxResume ctx s
  | .cxEnd ctx => Sys2Proof.Machine.execCxEnd ctx s
  | .endDone ctx => Sys2Proof.Machine.execEndDone ctx s
  | .granuleAssign => Sys2Proof.Machine.execGranuleAssign s
  | .granuleRelease => Sys2Proof.Machine.execGranuleRelease s
  | .granuleRead => Sys2Proof.Machine.execGranuleRead s
  | .ekEnter ctx index => Sys2Proof.Machine.execEkEnter ctx index s
  | .ekRetire ctx index => Sys2Proof.Machine.execEkRetire ctx index s
  | .ekRead ctx index => Sys2Proof.Machine.execEkRead ctx index s
  | .evkRetireDone ctx index => Sys2Proof.Machine.execEvkRetireDone ctx index s
  | .keyGenerate slot => Sys2Proof.Machine.execKeyGenerate slot s
  | .keyVerify slot => Sys2Proof.Machine.execKeyVerify slot s
  | .keyCommit slot => Sys2Proof.Machine.execKeyCommit slot s
  | .keyDiscard slot => Sys2Proof.Machine.execKeyDiscard slot s
  | .keyInvalidate slot => Sys2Proof.Machine.execKeyInvalidate slot s
  | .keyCmdStatement slot => Sys2Proof.Machine.execKeyCmdStatement slot s
  | .keyPublic slot => Sys2Proof.Machine.execKeyPublic slot s
  | .hssTreeBuildDone => Sys2Proof.Machine.execHssTreeBuildDone s
  | .entStartupDone passed interleavedOk us => Sys2Proof.Machine.execEntStartupDone passed interleavedOk us s
  | .oscTestFail osc rct apt => Sys2Proof.Machine.execOscTestFail osc rct apt s
  | .entRestartAttempt => Sys2Proof.Machine.execEntRestartAttempt s
  | .entRestart world => Sys2Proof.Machine.execEntRestart world s
  | .entOscEnWrite world v => Sys2Proof.Machine.execEntOscEnWrite world v s
  | .entDataRead a => Sys2Proof.Machine.execEntDataRead a s
  | .entropyRequest port blocks => Sys2Proof.Machine.execEntropyRequest port blocks s
  | .drbgReseed => Sys2Proof.Machine.execDrbgReseed s
  | .portReseed port => Sys2Proof.Machine.execPortReseed port s
  | .bist d str => Sys2Proof.Machine.execBist d str s
  | .calibrate d str => Sys2Proof.Machine.execCalibrate d str s
  | .replay d str => Sys2Proof.Machine.execReplay d str s
  | .banktest d b => Sys2Proof.Machine.execBanktest d b s
  | .selftestDeferredStart d => Sys2Proof.Machine.execSelftestDeferredStart d s
  | .selftestDone d fails => Sys2Proof.Machine.execSelftestDone d fails s
  | .katStep e pass queued => Sys2Proof.Machine.execKatStep e pass queued s
  | .hubWdtKick world v => Sys2Proof.Machine.execHubWdtKick world v s
  | .hubWdtExpire => Sys2Proof.Machine.execHubWdtExpire s
  | .hubRstWrite world v => Sys2Proof.Machine.execHubRstWrite world v s
  | .hubResetDone => Sys2Proof.Machine.execHubResetDone s
  | .mkaLive sakInstalled => Sys2Proof.Machine.execMkaLive sakInstalled s
  | .mgmtLinkLoss => Sys2Proof.Machine.execMgmtLinkLoss s
  | .admissionExpire => Sys2Proof.Machine.execAdmissionExpire s
  | .nonceExpire n => Sys2Proof.Machine.execNonceExpire n s
  | .pmpConnect => Sys2Proof.Machine.execPmpConnect s
  | .pmpDeferred p => Sys2Proof.Machine.execPmpDeferred p s
  | .attestGet p nonce mask => Sys2Proof.Machine.execAttestGet p nonce mask s
  | .admitBegin p nonce => Sys2Proof.Machine.execAdmitBegin p nonce s
  | .admitTicket p ticket => Sys2Proof.Machine.execAdmitTicket p ticket s
  | .bounceNonce p => Sys2Proof.Machine.execBounceNonce p s
  | .keyStatement p slot nonce => Sys2Proof.Machine.execKeyStatement p slot nonce s
  | .profileSet p slot activate o => Sys2Proof.Machine.execProfileSet p slot activate o s
  | .sysStatus p => Sys2Proof.Machine.execSysStatus p s
  | .testRun p t => Sys2Proof.Machine.execTestRun p t s
  | .eventRead p queue n => Sys2Proof.Machine.execEventRead p queue n s
  | .pmpReset p body => Sys2Proof.Machine.execPmpReset p body s
  | .contextCreate p ownerKeys => Sys2Proof.Machine.execContextCreate p ownerKeys s
  | .contextSwitch p resume => Sys2Proof.Machine.execContextSwitch p resume s
  | .contextRemove p => Sys2Proof.Machine.execContextRemove p s
  | .contextStatus p => Sys2Proof.Machine.execContextStatus p s
  | .evkImport p manifest sigs base inline => Sys2Proof.Machine.execEvkImport p manifest sigs base inline s
  | .evkRetire p index => Sys2Proof.Machine.execEvkRetire p index s
  | .zeroImport p manifest sigs headers => Sys2Proof.Machine.execZeroImport p manifest sigs headers s
  | .screenSet p record => Sys2Proof.Machine.execScreenSet p record s
  | .screenGroup p strand group => Sys2Proof.Machine.execScreenGroup p strand group s
  | .decCombine p header deadlineMs members sigs => Sys2Proof.Machine.execDecCombine p header deadlineMs members sigs s
  | .decShare p comb member keytag share sig => Sys2Proof.Machine.execDecShare p comb member keytag share sig s
  | .combineDeadline ctx comb => Sys2Proof.Machine.execCombineDeadline ctx comb s
  | .modelImport p header dir base records => Sys2Proof.Machine.execModelImport p header dir base records s
  | .modelExport p states fmt => Sys2Proof.Machine.execModelExport p states fmt s
  | .keyRelease p e => Sys2Proof.Machine.execKeyRelease p e s
  | .ownershipSet p e => Sys2Proof.Machine.execOwnershipSet p e s
  | .lifecycleSet p e => Sys2Proof.Machine.execLifecycleSet p e s
  | .clientEnrol p e => Sys2Proof.Machine.execClientEnrol p e s
  | .peerList p e => Sys2Proof.Machine.execPeerList p e s
  | .resetNRise => Sys2Proof.Machine.execResetNRise s
  | .mainGoodWithoutMain => Sys2Proof.Machine.execMainGoodWithoutMain s
  | .ethernetLaneUpDown lane up => Sys2Proof.Machine.execEthernetLaneUpDown lane up s
  | .laneSignalDetect lane => Sys2Proof.Machine.execLaneSignalDetect lane s
  | .pmpConnectionEnd conn => Sys2Proof.Machine.execPmpConnectionEnd conn s
  | .malformedPmpRequest conn reqId => Sys2Proof.Machine.execMalformedPmpRequest conn reqId s

end Sys2Proof.Machine
end

