-- ==== Sys2Proof/Decode.lean ====
section
/-! DEFINITION. The command a word spells by the opcode table's bits. No row of the table of this block gives bits: a
command reaches the module as a register access, a datagram, a packet, a pin level or an event, and no word spells it.
The encoding of Grirad instruction words is in Machine/Operands.lean. -/

namespace Sys2Proof

/-- No row gives bits, so no word spells a command. -/
def decodeTableWord (_nbits _w : Nat) : Option Instr := none

end Sys2Proof
end

