-- ==== Sys2Proof/Machine/Tick.lean ====
section
/-! DEFINITION. What passes while no command waits: one cycle of the AON clock (R28, R29, R469). -/

namespace Sys2Proof.Machine

/-- Clock domains whose COUNT runs apart from AON: the DOMAIN codes of R28. -/
def otherDomains : List Nat :=
  [1, 2, 3] ++ (List.range 4).map (fun d => 0x10 + d) ++ (List.range 4).map (fun d => 0x18 + d) ++
  (List.range 4).map (fun l => 0x20 + l) ++ (List.range 64).map (fun n => 0x40 + n)

/-- Whether the counter of a domain runs: a switched domain is ON or IDLE (R29, R436). A compute die's core clock and HBM
controller clock count while their rails are GOOD, VCORE_CDd and the three of the HBM PHYs (R506); a lane counts on a
light die that runs. In ENTERING, WAKING and WAKE_FAILED, of which R29 does not speak, the counter stands (DESIGN CHOICE,
notes/assumptions/93.md). -/
def State.runs (s : State) (dom : Nat) : Bool :=
  let rail (r : Nat) : Bool := s.fld (Reg.railStat r) 31 30 = 2
  if dom = 1 then s.pdState 56 ≤ 1
  else if dom = 2 then s.pdState 58 ≤ 1
  else if 0x10 ≤ dom ∧ dom < 0x14 then rail (3 + (dom - 0x10))
  else if 0x18 ≤ dom ∧ dom < 0x1C then rail 11 && rail 12 && rail 13
  else if 0x20 ≤ dom ∧ dom < 0x24 then s.pdState (pdLd (dom - 0x20)) ≤ 1
  else if 0x40 ≤ dom then s.pdState (pdLd ((dom - 0x40) / 16)) ≤ 1
  else true

/-- The COUNT of one domain rises by a number of cycles that no relation of R25 fixes. -/
def State.runClock (s : State) (dom : Nat) : State :=
  if s.runs dom then
    let c := s.time.get (fun _ => 0) dom + BitVec.ofNat 56 s.free.toNat
    { s with time := s.time.put (fun _ => 0) dom c, freeCtr := s.freeCtr + 1 }
  else s

/-- GOV_DUR of every active reason rises by one µs every 100 AON cycles (R466). -/
def State.runDurations (s : State) : State :=
  if (s.time.get (fun _ => 0) 0).toNat % 100 ≠ 0 then s
  else (List.range 7).foldl (fun t i => if bit (t.reg Reg.govReason) i then t.count64 (Reg.govDur i) 1 else t) s

/-- A lane sends 500 bytes, 400 Gb/s for 10 ns (R303, R311); what it has queued falls by as much (R317). -/
def Bundle.drained (x : Bundle) : Bundle :=
  { x with queued := x.queued.foldl (fun q e => q.put (fun _ => 0) e.1 (e.2 - 500)) x.queued }

/-- Every lane with queued bytes sends for one AON cycle. -/
def State.drainLanes (s : State) : State :=
  { s with bundles := s.bundles.foldl (fun t e => t.put (fun _ => Bundle.zero) e.1 e.2.drained) s.bundles }

/-- One AON cycle: the AON count rises by one, every other running counter by a free number, durations run, lanes send. -/
def State.tick (s : State) : State :=
  let s1 := { s with time := s.time.put (fun _ => 0) 0 (s.time.get (fun _ => 0) 0 + 1) }
  otherDomains.foldl (fun t dom => t.runClock dom) s1.runDurations.drainLanes

end Sys2Proof.Machine
end

