-- ==== Sys2Proof/Safety.lean ====
section
/-! DEFINITION. The terms that claims are stated in: what a safe run of the module keeps, when a stage takes an
instruction, and what an instruction leaves unchanged. -/

namespace Sys2Proof.Machine

/-- HBM, banks and hub SRAM are held in canonical form, so equal contents are equal data. -/
def State.Inv (s : State) : Prop := s.memWf = true

/-- A step either stops or answers a state in which the invariant holds. -/
def State.SafeStep (s : State) : Prop := ∀ t, step s = .next t → t.Inv

/-- A stage takes the command: it may issue, the instruction stands at its PC inside the program, and every field has a
permitted value (R96, R134, R135). -/
def State.issues (s : State) (l : Loc) (opc : Nat) (f : Fields) (sh : Shape) : Prop :=
  s.canIssue l = true ∧ (s.stage l.ix).pc < (s.stage l.ix).codeWords ∧ (s.stage l.ix).fetch = f.word opc ∧
  sh.ok l f = true

/-- The tile that an instruction takes as SA, and the stage after it is taken: the register, or under INSLOT the oldest
complete slot for this stage (R118); none where it is absent or cannot be used (R78, R126). -/
def Stage.source (x : Stage) (l : Loc) (f : Fields) : Option (Tile × Stage) :=
  if f.hint = 2 then
    (match x.takeSlot l.g with
     | some (t, y) => if t.dataErr then none else some (t, y)
     | none => none)
  else if (x.tr f.a).bad.isSome then none
  else some (x.tr f.a, x)

/-- None of these tile registers has an uncorrectable word. -/
def Stage.readable (x : Stage) (regs : List Nat) : Prop := ∀ r, r ∈ regs → (x.tr r).bad = none

/-- The stage z is the stage y with T[d] written and the instruction retired: no other register, slot, credit or flag
differs, and PC and loop stack are those of R161. -/
def Stage.wroteT (y z : Stage) (d : Nat) : Prop :=
  z = { y with t := z.t, pc := z.pc, loops := z.loops } ∧ (z.pc, z.loops) = stepLoops y.pc y.loops ∧
  ∀ r, r ≠ d → z.tr r = y.tr r

/-- Between s and t only stage i differs, with the reply and the count of free values: every register, memory, queue,
table, other stage and unit is as it was. -/
def State.onlyStage (s t : State) (i : Nat) : Prop :=
  t = { s with stages := t.stages, freeCtr := t.freeCtr, reply := t.reply } ∧ ∀ j, j ≠ i → t.stage j = s.stage j

/-- A run of line accesses that neither stalls nor fails. -/
def Run.good (r : Run) : Prop := r.stall = false ∧ r.err = none

/-- The descriptors that DST, SA, SB and SC name, and the cipher headers in the entries they name (R113, R114). -/
abbrev State.descD (s : State) (l : Loc) (f : Fields) : Desc := Desc.of ((s.stage l.ix).dr f.d)
abbrev State.descA (s : State) (l : Loc) (f : Fields) : Desc := Desc.of ((s.stage l.ix).dr f.a)
abbrev State.descB (s : State) (l : Loc) (f : Fields) : Desc := Desc.of ((s.stage l.ix).dr f.b)
abbrev State.descC (s : State) (l : Loc) (f : Fields) : Desc := Desc.of ((s.stage l.ix).dr f.c)
abbrev State.hdrD (s : State) (l : Loc) (f : Fields) : Hdr := s.hdr l (s.descD l f).index
abbrev State.hdrA (s : State) (l : Loc) (f : Fields) : Hdr := s.hdr l (s.descA l f).index
abbrev State.hdrB (s : State) (l : Loc) (f : Fields) : Hdr := s.hdr l (s.descB l f).index

/-- The context of the strand at a place. -/
abbrev State.ctxOf (s : State) (l : Loc) : Nat := s.sctx l.d l.s

/-- The module accepts a management request of an OPCODE; `named`: its command names a context. The port is up and the
connection open, the hub is not under reset, fewer than 64 requests are outstanding on the connection, the header is well
formed, the admission state serves the command, and no request of its identity and REQ_ID is kept or outstanding
(R397, R473–R477). -/
def State.accepts (s : State) (p : PmpReq) (opc : Nat) (named : Bool) : Prop :=
  s.mgmt.adm ≠ .down ∧ p.conn ∈ s.mgmt.conns ∧ s.hub.reset = none ∧ s.outstanding p.conn.val < 64 ∧
  p.wellFormed = true ∧ s.admRefuses opc = none ∧ s.keptFor p = none ∧
  (∀ w, w ∈ s.mgmt.pending → ¬ (w.ident = p.ident ∧ w.reqId = p.reqId)) ∧
  p.noCtx = !named ∧ (p.noCtx = true → p.c = 0)

/-- The state with the accepted request outstanding. -/
abbrev State.accepted (s : State) (p : PmpReq) (opc : Nat) : State :=
  { s with mgmt := { s.mgmt with
    pending := s.mgmt.pending ++ [⟨p.conn.val, p.ident, p.reqId, p.ctx, BitVec.ofNat 16 opc, 0⟩] } }

/-- The state with a request's final response given: kept, and sent on its connection. -/
abbrev State.answered (s : State) (p : PmpReq) (status : Byte) (body : List Nat) : State :=
  { s with
    mgmt := { s.mgmt with kept := ((⟨p.ident, p.reqId, status, body, s.aon⟩ : Kept) :: s.mgmt.kept).take 1024 }
    out := s.out ++ [.pmp p.ident p.reqId 2 status body]
    reply := ⟨status, 0⟩ }

/-- The state with the rest of a light die's setup queue, after Daxna has taken the datagram at its front. -/
abbrev State.setupRest (s : State) (l : Nat) (ms : List SetupMsg) : State := s.setEstLd l { s.estLd l with setup := ms }

/-- The descriptor d stands first in a light die's transmit queue, its session region can be read, and it crosses from the hub
die with no uncorrectable word; u is the state once it has crossed (R16, R300). -/
def State.txReady (s u : State) (l : Nat) (d : TxDesc) (ds : List TxDesc) : Prop :=
  (s.estLd l).tx = d :: ds ∧ s.estStall l = false ∧ s.crossPorts (route 8 (4 + l)) = (u, false)

/-- The state with that descriptor taken, and a state once its STATUS and DONE are written. -/
abbrev State.txTaken (s u : State) (l : Nat) (ds : List TxDesc) : State := u.setEstLd l { s.estLd l with tx := ds }
abbrev State.txDone (t s : State) (l : Nat) (d : TxDesc) (code : Byte) : State := (t.descDone l (s.estLd l).txHead d code).done code

/-- The state in which a good link frame other than a HELLO is used: its corrected codewords are counted, and the lane knows
that its peer's is UP (R306, R313). -/
abbrev State.linkHeard (s : State) (k : Nat) (h : LinkHdr) : State :=
  (s.fecCorr k h.fec).setLane k { s.lane k with heard := true }

/-- A received frame passes every check of R278 and goes on as an AIP datagram to an Estuary that is on; its frame check
sequence and UDP checksum are set aside (R278, R280, R295). -/
def State.frameGoesOn (t : State) (f : EthFrame) : Prop :=
  t.frameRefused f = none ∧ t.answersAsk f = false ∧ t.fld (Reg.estCtl (f.lane.val / 16)) 31 31 = 1 ∧ f.aip.ok = true

/-- The state in which a received frame is checked: its codewords and RX are counted (R302, R306). -/
abbrev State.frameIn (s : State) (f : EthFrame) : State := (s.fecCount f).estCount64 (f.lane.val / 16) 0x00

end Sys2Proof.Machine
end

