-- ==== Sys2Proof/WellFormed.lean ====
section
/-! DEFINITION. Commands that the outside can form: operands that lie where the spec gives the thing they name. What a
command asks for and the module refuses (a wrong width, a bad length of a request) is well-formed: the meaning answers it. -/

namespace Sys2Proof

/-- Stages of a strand: 5 on an I-strand, 8 on a C-strand, 4 on an F-strand (R61). -/
def Loc.wf (l : Loc) : Bool :=
  decide (l.stage.val < if l.strand.val < 4 then 5 else if l.strand.val < 10 then 8 else 4)

/-- An offset in the 64 MiB register space (R31). -/
def Acc.wf (a : Acc) : Bool := decide (a.addr < 0x4000000)

/-- Seeds of 32 bytes and vectors of whole FP32 values (R192, R212, R267). -/
def RoundNews.wf (n : RoundNews) : Bool :=
  (match n.graphSeed with | some g => decide (g.length = 32) | none => true) &&
  n.gseeds.all (fun e => decide (e.2.length = 32)) && n.counts.all (fun e => decide (e.2.length % 4 = 0))

/-- A command is well-formed. -/
def Instr.wf (i : Instr) : Bool :=
  match i with
  | .coldReset => true
  | .aonPowerGood _ => true
  | .pinSample _ _ => true
  | .auxLost => true
  | .mainPresent _ => true
  | .mainLow _ => true
  | .mainHigh _ => true
  | .mainOvercurrent => true
  | .mainAbsent _ => true
  | .mainGoodFall => true
  | .powerUpStart => true
  | .railGood _ _ => true
  | .railTimeout _ => true
  | .powerDownStep => true
  | .pmbusPoll _ _ => true
  | .resetPin _ => true
  | .warmReset _ => true
  | .sysResetWrite a _ => a.wf
  | .bootStep => true
  | .tamper _ => true
  | .coolantChange _ _ => true
  | .lockThrottle _ => true
  | .lockThrottleRelease _ => true
  | .thermalTrip _ _ => true
  | .thermalSample readings => decide (readings.length = 44)
  | .govDecision => true
  | .powerSample _ => true
  | .sustainedStep => true
  | .springLimitReached => true
  | .vcoreTrim _ _ => true
  | .avsAck _ => true
  | .avsTimeout => true
  | .govClrReg => true
  | .fillerTimeout l => l.wf
  | .lockDemandRefresh => true
  | .lockDemandReceive _ _ _ _ => true
  | .lockReleaseReceive _ _ => true
  | .lockEntryExpire _ => true
  | .lockRiseHoldoff => true
  | .pdIdleTimeout _ _ => true
  | .pdDeepTimeout _ _ => true
  | .pdEnter _ _ => true
  | .pdEntryDone _ => true
  | .pdHold _ _ _ => true
  | .pdWake _ _ _ => true
  | .pdWakeDone _ => true
  | .pdWakeTimeout _ => true
  | .pdClrFail _ => true
  | .registerWrite a _ => a.wf
  | .pairLoRead a => a.wf
  | .pairHiRead a => a.wf
  | .pairLoWrite a _ => a.wf
  | .pairHiWrite a _ => a.wf
  | .readClear a => a.wf
  | .bankOwnerWrite a _ => a.wf
  | .bankFreeClear a => a.wf
  | .bankHandoverDrainDone _ _ => true
  | .bankClearDone _ _ => true
  | .hubMemoryAccess _ _ _ _ _ => true
  | .dmaTransfer _ _ _ _ _ => true
  | .aliasWrite _ addr data _ => decide (1 ≤ data.length ∧ addr % 64 + data.length ≤ 64)
  | .aliasExchange _ addr data _ => decide (1 ≤ data.length ∧ addr % 64 + data.length ≤ 64)
  | .eccWriteback _ _ => true
  | .patrolLine _ _ _ _ => true
  | .patrolPass _ _ _ => true
  | .hbmPatrolLine _ _ => true
  | .hbmPhyRetrain _ _ => true
  | .hbmLineRead _ addr => decide (addr % 64 = 0)
  | .hbmLineWrite _ addr data => decide (addr % 64 = 0) && decide (data.length = 64)
  | .treeNodeWriteback _ _ _ => true
  | .strandEnable _ _ _ => true
  | .strandDrain _ _ => true
  | .strandDrainDone _ _ => true
  | .strandSreset _ _ => true
  | .sresetDone _ _ => true
  | .faultRecordClear l => l.wf
  | .tileArrive l _ => l.wf
  | .creditReturn l => l.wf
  | .tileForward l => l.wf
  | .iqPublish _ => true
  | .iqFreeReturn _ => true
  | .iqZeroDone _ => true
  | .recipeLoad _ => true
  | .recipeLoadDone _ => true
  | .recipeUnbind _ => true
  | .twiddlePrepareDone l _ => l.wf
  | .vaddQ l _ => l.wf
  | .vsubQ l _ => l.wf
  | .vmulQ l _ => l.wf
  | .vmacQ l _ => l.wf
  | .vnegQ l _ => l.wf
  | .vaddZ32 l _ => l.wf
  | .vsubZ32 l _ => l.wf
  | .vaddZ64 l _ => l.wf
  | .vsubZ64 l _ => l.wf
  | .vsplat l _ => l.wf
  | .ntt l _ => l.wf
  | .intt l _ => l.wf
  | .perm l _ => l.wf
  | .bconv l _ => l.wf
  | .resc l _ => l.wf
  | .modx l _ => l.wf
  | .ldt l _ => l.wf
  | .stt l _ => l.wf
  | .qpop l _ => l.wf
  | .send l _ => l.wf
  | .recv l _ => l.wf
  | .ksw l _ => l.wf
  | .rfr l _ => l.wf
  | .extr l _ => l.wf
  | .pack l _ => l.wf
  | .cmrg l _ => l.wf
  | .seal l _ => l.wf
  | .fold l _ => l.wf
  | .bsetx l _ => l.wf
  | .prgx l _ => l.wf
  | .aeadd l _ => l.wf
  | .dpn l _ => l.wf
  | .fmaF32 l _ => l.wf
  | .cvt l _ => l.wf
  | .sli l _ => l.wf
  | .slu l _ => l.wf
  | .sadd l _ => l.wf
  | .ssub l _ => l.wf
  | .smul l _ => l.wf
  | .sand l _ => l.wf
  | .sor l _ => l.wf
  | .sxor l _ => l.wf
  | .sshl l _ => l.wf
  | .sshr l _ => l.wf
  | .scmp l _ => l.wf
  | .pset l _ => l.wf
  | .srd l _ => l.wf
  | .swr l _ => l.wf
  | .qset l _ => l.wf
  | .gset l _ => l.wf
  | .dset l _ => l.wf
  | .loop l _ => l.wf
  | .br l _ => l.wf
  | .bar l _ => l.wf
  | .barw l _ => l.wf
  | .oppt l _ => l.wf
  | .fence l _ => l.wf
  | .trap l _ => l.wf
  | .halt l _ => l.wf
  | .nop l _ => l.wf
  | .psWrite _ _ => true
  | .psRead _ _ => true
  | .psClear _ _ => true
  | .shtCtlWrite _ _ _ _ _ => true
  | .shardClosed _ _ _ => true
  | .seedWrite _ _ _ _ => true
  | .seedClear _ _ _ _ => true
  | .roundOpen _ _ => true
  | .roundStatus _ => true
  | .roundCommit _ => true
  | .roundAbort _ => true
  | .roundWorkDone _ w => w.news.wf
  | .phaseWindowExpire _ => true
  | .clientClassify _ _ => true
  | .shareAdvertise _ => true
  | .shareShares _ => true
  | .shareReveal _ => true
  | .secretInterpolate _ _ slot _ => decide (slot < 2 ^ 20)
  | .pairwiseSeedDerive _ _ v u => decide (v < 2 ^ 20 ∧ u < 2 ^ 20)
  | .shardFailReport _ _ => true
  | .foldEpochEnd _ _ => true
  | .sketchScan _ => true
  | .updateStart _ _ => true
  | .frameReceive _ => true
  | .sessionLookupDone _ => true
  | .keyPortRequest _ => true
  | .helloInit _ _ => true
  | .helloConfirm _ => true
  | .sessionPendingExpire _ _ => true
  | .closeEnd _ => true
  | .closeDone _ => true
  | .sessionIndexRelease _ _ => true
  | .estGateWrite a _ => a.wf
  | .sessionCacheFlushDone _ => true
  | .txSend _ => true
  | .txInsertSend _ _ => true
  | .txSetAdmittedSend _ => true
  | .txFreeSend _ => true
  | .txFree _ => true
  | .laneLock _ => true
  | .laneHelloSend _ => true
  | .laneHelloReceive _ _ _ _ => true
  | .mismatchRecheck _ _ _ _ => true
  | .dataFrameSend _ _ _ _ => true
  | .dataFrameReceive _ _ _ => true
  | .idleFrameSend _ => true
  | .idleFrameReceive _ _ => true
  | .linkAckSend _ _ => true
  | .noticeLaneErrReceive _ _ _ => true
  | .linkReplayTimeout _ _ _ => true
  | .laneLockLoss _ => true
  | .laneErrorWindow _ => true
  | .laneWithdrawWrite a _ => a.wf
  | .noticeWithdrawReceive _ => true
  | .laneRejoin _ _ => true
  | .noticeRejoinReceive _ => true
  | .laneRecal _ => true
  | .laneRecalDone _ => true
  | .packetForward _ _ => true
  | .reduceReceive _ => true
  | .reduceSlotWaitEnd _ => true
  | .foldStreamExpire _ => true
  | .fstWrite _ => true
  | .fstRead _ => true
  | .fstArm _ => true
  | .fstClear _ => true
  | .foldOutGo _ _ => true
  | .foldOutBlock _ _ => true
  | .localBlockDeliver _ => true
  | .cnOpen _ => true
  | .cnClose _ => true
  | .cnRead _ => true
  | .cnPause _ => true
  | .cnResume _ => true
  | .hsInitReceive _ => true
  | .hsRespReceive _ => true
  | .hsFinReceive _ => true
  | .hsResend _ => true
  | .rgRegister _ => true
  | .rgRevoke _ => true
  | .rgRevokeDone _ => true
  | .rgFree _ => true
  | .rgRead _ => true
  | .doorbell _ _ _ _ => true
  | .sendQueueEntry _ => true
  | .connPacketSend _ => true
  | .connPacketReceive _ => true
  | .readReqServe _ => true
  | .ackSend _ => true
  | .ackReceive _ _ => true
  | .nakReceive _ => true
  | .goneReceive _ => true
  | .rtoExpire _ => true
  | .nakHintExpire _ => true
  | .twPauseExpire _ => true
  | .barArriveReceive _ _ _ _ => true
  | .barArriveResend _ _ => true
  | .barReleaseReceive _ _ _ => true
  | .barCancelReceive _ _ _ => true
  | .barrierCancel _ _ => true
  | .phaseReceive _ _ _ => true
  | .phaseResend _ => true
  | .cxCreate _ _ => true
  | .cxPark _ => true
  | .parkDone _ => true
  | .cxResume _ => true
  | .cxEnd _ => true
  | .endDone _ => true
  | .granuleAssign => true
  | .granuleRelease => true
  | .granuleRead => true
  | .ekEnter _ _ => true
  | .ekRetire _ _ => true
  | .ekRead _ _ => true
  | .evkRetireDone _ _ => true
  | .keyGenerate _ => true
  | .keyVerify _ => true
  | .keyCommit _ => true
  | .keyDiscard _ => true
  | .keyInvalidate _ => true
  | .keyCmdStatement _ => true
  | .keyPublic _ => true
  | .hssTreeBuildDone => true
  | .entStartupDone _ _ _ => true
  | .oscTestFail _ _ _ => true
  | .entRestartAttempt => true
  | .entRestart _ => true
  | .entOscEnWrite _ _ => true
  | .entDataRead a => a.wf
  | .entropyRequest _ _ => true
  | .drbgReseed => true
  | .portReseed _ => true
  | .bist _ _ => true
  | .calibrate _ _ => true
  | .replay _ _ => true
  | .banktest _ _ => true
  | .selftestDeferredStart _ => true
  | .selftestDone _ _ => true
  | .katStep _ _ _ => true
  | .hubWdtKick _ _ => true
  | .hubWdtExpire => true
  | .hubRstWrite _ _ => true
  | .hubResetDone => true
  | .mkaLive _ => true
  | .mgmtLinkLoss => true
  | .admissionExpire => true
  | .nonceExpire _ => true
  | .pmpConnect => true
  | .pmpDeferred _ => true
  | .attestGet _ nonce _ => decide (nonce.length = 32)
  | .admitBegin _ nonce => decide (nonce.length = 32)
  | .admitTicket _ _ => true
  | .bounceNonce _ => true
  | .keyStatement _ _ nonce => decide (nonce.length = 32)
  | .profileSet _ _ _ _ => true
  | .sysStatus _ => true
  | .testRun _ _ => true
  | .eventRead _ _ _ => true
  | .pmpReset _ _ => true
  | .contextCreate _ _ => true
  | .contextSwitch _ _ => true
  | .contextRemove _ => true
  | .contextStatus _ => true
  | .evkImport _ _ _ _ _ => true
  | .evkRetire _ _ => true
  | .zeroImport _ _ _ _ => true
  | .screenSet _ _ => true
  | .screenGroup _ _ _ => true
  | .decCombine _ _ _ _ _ => true
  | .decShare _ _ _ _ _ _ => true
  | .combineDeadline _ _ => true
  | .modelImport _ _ _ _ _ => true
  | .modelExport _ _ _ => true
  | .keyRelease _ _ => true
  | .ownershipSet _ _ => true
  | .lifecycleSet _ _ => true
  | .clientEnrol _ _ => true
  | .peerList _ _ => true
  | .resetNRise => true
  | .mainGoodWithoutMain => true
  | .ethernetLaneUpDown _ _ => true
  | .laneSignalDetect _ => true
  | .pmpConnectionEnd _ => true
  | .malformedPmpRequest _ _ => true

end Sys2Proof
end

