-- ==== Sys2Proof/Certificates/Slice0/Obligations.lean ====
section
/-! DEFINITION. The statements for the provers: what each command of the module does, and what every step keeps. -/

open Sys2Proof Sys2Proof.Machine

/-- A step takes the command at the front of the queue and is that command's meaning on the state with the queue's rest. -/
def Obligations.StepRunsFront : Prop :=
  ∀ (s : State) (c : Instr) (cs : List Instr), s.pending = c :: cs → step s = exec c { s with pending := cs }

/-- After reset the memories are in canonical form and no command waits. -/
def Obligations.ResetState : Prop :=
  State.reset.Inv ∧ State.reset.pending = [] ∧ State.reset.mem = [] ∧ State.reset.lc = 0 ∧
  (∀ a, State.reset.reg a = regReset a) ∧ (∀ n, n < 63 → State.reset.pdState n = bits (regReset (Reg.pdStat n)) 31 29)

/-- Every step keeps the memories in canonical form and the part what it is, and takes exactly the front of the queue: what a
command does never reaches the queue of commands. -/
def Obligations.StepKeeps : Prop :=
  ∀ (s t : State), step s = .next t → (s.Inv → t.Inv) ∧ t.part = s.part ∧ t.pending = s.pending.tail

/-- No command stops the module: every step answers a next state, and a failure is a status in it. -/
def Obligations.StepNeverStops : Prop :=
  ∀ (s : State), ∃ t, step s = .next t

/-- On an empty queue one AON cycle passes: the AON count rises by one, a stopped domain's count stands, active limit reasons
lengthen every 100 cycles, each lane sends 500 of its queued bytes, and nothing else of the module changes (the model's
choice, notes/assumptions/6.md). Values that the specification leaves open are free values (notes/assumptions/2.md). -/
def Obligations.EmptyQueueTicks : Prop :=
  ∀ (s : State), s.pending = [] → ∃ t, step s = .next t ∧ t.time.get (fun _ => 0) 0 = s.time.get (fun _ => 0) 0 + 1 ∧
    (∀ d, d ∈ otherDomains → s.runs d = false → t.time.get (fun _ => 0) d = s.time.get (fun _ => 0) d) ∧
    ((t.time.get (fun _ => 0) 0).toNat % 100 ≠ 0 → t.regs = s.regs) ∧
    (∀ i, i < 7 → bit (s.reg Reg.govReason) i = false → t.reg64 (Reg.govDur i) = s.reg64 (Reg.govDur i)) ∧
    t = { s with time := t.time, regs := t.regs, freeCtr := t.freeCtr, bundles := t.bundles } ∧
    ((s.bundles.map (fun e => e.1)).Nodup → ∀ b n, ((s.bundle b).queued.map (fun e => e.1)).Nodup →
      (t.bundle b).queuedOn n = (s.bundle b).queuedOn n - 500)

/-- Event queues: a record offered to a queue with room is written whole at TAIL, which advances, and no unread record is
overwritten; a full queue drops it, sets OVERRUN and counts it; the interrupt follows COUNT and the threshold (R481–R483,
R544). -/
def Obligations.EventQueues : Prop :=
  (∀ (s : State) (q : Nat) (e : Ev), q < 4 →
    (s.fld (Reg.evqTail q) 11 0 + 1) % 4096 ≠ s.fld (Reg.evqHead q) 11 0 →
    (s.post q e).fld (Reg.evqTail q) 11 0 = (s.fld (Reg.evqTail q) 11 0 + 1) % 4096 ∧
    (s.post q e).fld (Reg.evqHead q) 11 0 = s.fld (Reg.evqHead q) 11 0 ∧
    (s.post q e).hubBytes (evqBase q + 64 * s.fld (Reg.evqTail q) 11 0) 64 =
      e.bytes (s.evSeq.get (fun _ => 0) q) (s.stamp e.dom) ∧
    (∀ a, (a < evqBase q + 64 * s.fld (Reg.evqTail q) 11 0 ∨ evqBase q + 64 * s.fld (Reg.evqTail q) 11 0 + 64 ≤ a) →
      (s.post q e).hubBytes a 1 = s.hubBytes a 1) ∧
    (s.post q e).fld (Reg.evqStat q) 11 0 = (s.fld (Reg.evqTail q) 11 0 + 4097 - s.fld (Reg.evqHead q) 11 0) % 4096 ∧
    (s.post q e).fld (Reg.evqStat q) 30 30 = 1) ∧
  (∀ (s : State) (q : Nat) (e : Ev), q < 4 →
    (s.fld (Reg.evqTail q) 11 0 + 1) % 4096 = s.fld (Reg.evqHead q) 11 0 →
    (s.post q e).hubMem = s.hubMem ∧ (s.post q e).fld (Reg.evqTail q) 11 0 = s.fld (Reg.evqTail q) 11 0 ∧
    (s.post q e).fld (Reg.evqStat q) 31 31 = 1 ∧
    (s.post q e).reg (Reg.evqDrop q) = BitVec.ofNat 32 (min ((s.reg (Reg.evqDrop q)).toNat + 1) 0xFFFFFFFF)) ∧
  (∀ (s : State) (q : Nat) (e : Ev), (s.post q e).evSeq.get (fun _ => 0) q = s.evSeq.get (fun _ => 0) q + 1 ∧
    (s.post q e).mem = s.mem ∧ (∀ r, r ≠ q → (s.post q e).evSeq.get (fun _ => 0) r = s.evSeq.get (fun _ => 0) r)) ∧
  (∀ (e : Ev) (n : Word) (t : Nat), (e.bytes n t).length = 64) ∧
  (∀ (s : State) (q : Nat), s.evqIrq q = true ↔ (s.fld (Reg.evqCtl q) 31 31 = 1 ∧
    1 ≤ s.fld (Reg.evqStat q) 11 0 ∧ s.fld (Reg.evqCtl q) 11 0 ≤ s.fld (Reg.evqStat q) 11 0))

/-- A write to BANK_OWNER while STATE is HANDOVER or CLEARING changes WR_IGNORED and nothing else of the module, whatever the
word; in any other state a write that asks for no accumulator is taken, unless a round holds the bank (R46). -/
def Obligations.OwnerWriteIgnored : Prop :=
  (∀ (s : State) (a : Acc) (v : Word) (d : Fin 4) (b : Fin 24), a.addr = Reg.bankOwner d.val b.val → a.width = 4 →
    a.world = .secure → s.linksClean = true → (s.bst d.val b.val = 2 ∨ s.bst d.val b.val = 3) →
    exec (.bankOwnerWrite a v) s = .next (((s.dropWbuf a.core.val).setFld (Reg.bankStat d.val b.val) 28 28 1).done Code.ok)) ∧
  (∀ (s : State) (a : Acc) (v : Word) (d : Fin 4) (b : Fin 24), a.addr = Reg.bankOwner d.val b.val → a.width = 4 →
    a.world = .secure → s.linksClean = true → s.bst d.val b.val ≠ 2 → s.bst d.val b.val ≠ 3 → bits v 10 10 = 0 →
    s.bankPinned d.val b.val = false → s.pdState (pdBank d.val b.val) ≠ 6 → exec (.bankOwnerWrite a v) s =
      .next (((s.dropWbuf a.core.val).startHandover d.val b.val (v &&& 0x0000F70F) (s.ownerClears d.val b.val v)).done Code.ok))

/-- The offset in each dimension is the difference of the coordinates modulo its size; the + port serves offsets up to half
the size, the - port those above; a port is productive exactly where its dimension's offset is not zero (R325). -/
def Obligations.DimensionOffsets : Prop :=
  ∀ (s : State) (dst i : Nat), i < 3 → s.coord s.ownId i < s.dim i →
    (s.dimOffset dst i : Int) = ((s.coord dst i : Int) - (s.coord s.ownId i : Int)) % (s.dim i : Int) ∧
    (0 < s.dimOffset dst i → s.dimOffset dst i ≤ s.dim i / 2 → s.dimPort dst i = 2 * i) ∧
    (s.dim i / 2 < s.dimOffset dst i → s.dimPort dst i = 2 * i + 1) ∧
    (s.dimPort dst i ∈ s.productive dst ↔ s.dimOffset dst i ≠ 0) ∧
    (∀ p, p ∈ s.productive dst → ∃ j, j < 3 ∧ s.dimOffset dst j ≠ 0 ∧ p = s.dimPort dst j)

/-- A write of ENT_OSC_EN with fewer than six bits set is ignored; a bit written 0 takes its oscillator out of use at once,
which ends RUNNING where fewer than six remain; a bit written 1 puts none in use before the next startup or restart
attempt, which takes every oscillator that ENT_OSC_EN names (R434). A command without its condition changes nothing but
the reply (the model's choice, notes/assumptions/7.md). -/
def Obligations.OscillatorEnable : Prop :=
  (∀ (s : State) (v : Word), oscCount (bits v 7 0) < 6 → exec (.entOscEnWrite .secure v) s = .next s.idle) ∧
  (∀ (s : State) (v : Word), 6 ≤ oscCount (bits v 7 0) → ∃ t, exec (.entOscEnWrite .secure v) s = .next t ∧
    t.fld Reg.entOscEn 7 0 = bits v 7 0 ∧ t.oscInUse = (s.oscInUse &&& bits v 7 0) ∧
    t.entState = (if s.entState = 1 ∧ oscCount (s.oscInUse &&& bits v 7 0) < 6 then 2 else s.entState) ∧
    (s.entState = 1 → oscCount (s.oscInUse &&& bits v 7 0) < 6 → t.ent.inst = false ∧ t.ent.blocks = []) ∧
    (∀ a, a ≠ Reg.entOscEn → a ≠ Reg.entStat → t.reg a = s.reg a) ∧ t.mem = s.mem ∧ t.hubMem = s.hubMem ∧
    t.keys = s.keys ∧ t.reply = ⟨Code.ok, 0⟩) ∧
  (∀ (s : State), s.entBegin.oscInUse = s.fld Reg.entOscEn 7 0 ∧ s.entBegin.entState = 0)

/-- Power domains. One or more cases of each command, each with the whole next state; of other cases nothing is said. Without
HOLD, without a wake level and with nothing in State that refuses, PD_IDLE_TIMEOUT, PD_DEEP_TIMEOUT and PD_ENTER towards a
deeper TGT show ENTERING and keep the target. PD_ENTRY_DONE without a kept wake level or HOLD shows the target. PD_HOLD
with 0 clears HOLD. PD_WAKE in IDLE, RETAIN or a permitted OFF shows WAKING and answers DEFERRED; in ENTERING it keeps the
wake level; it answers OK in ON and WAKE_FAIL in WAKE_FAILED. PD_WAKE_DONE of a wake not from OFF shows ON, with the
handovers that waited started. PD_WAKE_TIMEOUT shows WAKE_FAILED, drops those handovers and writes one record. PD_CLR_FAIL
without HOLD shows OFF. The register writes drop the core's buffered low half (R34, R440–R446, R448). A wait is the reply
DEFERRED (the model's choice, notes/assumptions/7.md). -/
def Obligations.PowerDomainCommands : Prop :=
  (∀ (s : State) (n : Fin 64), s.pdState n.val = 0 → s.fld (Reg.pdCtl n.val) 31 31 = 0 → 1 ≤ s.pdTgt n.val →
    s.pdLevel n.val = false → s.pdRefusal n.val 1 = none →
    exec (.pdIdleTimeout n .ready) s = .next ((((s.setPdx n.val ⟨1, false, 0⟩).setFld (Reg.pdStat n.val) 31 29 4).setFld
      (Reg.pdCtl n.val) 30 30 0).done Code.ok)) ∧
  (∀ (s : State) (n : Fin 64), s.pdState n.val = 1 → s.fld (Reg.pdCtl n.val) 31 31 = 0 → 2 ≤ s.pdTgt n.val →
    s.pdLevel n.val = false → s.pdRefusal n.val (s.pdTgt n.val) = none →
    exec (.pdDeepTimeout n .ready) s = .next ((((s.setPdx n.val ⟨s.pdTgt n.val, false, 0⟩).setFld (Reg.pdStat n.val) 31 29
      4).setFld (Reg.pdCtl n.val) 30 30 0).done Code.ok)) ∧
  (∀ (s : State) (n : PdCall), s.pdAbsent n.n.val = false → s.fld (Reg.pdCtl n.n.val) 31 31 = 0 → s.pdState n.n.val < 4 →
    s.pdState n.n.val < s.pdTgt n.n.val → s.pdLevel n.n.val = false → s.pdRefusal n.n.val (s.pdTgt n.n.val) = none →
    exec (.pdEnter n .ready) s = .next (((((s.dropWbuf n.core.val).setPdx n.n.val ⟨s.pdTgt n.n.val, false, 0⟩).setFld
      (Reg.pdStat n.n.val) 31 29 4).setFld (Reg.pdCtl n.n.val) 30 30 1).done Code.ok)) ∧
  (∀ (s : State) (n : Fin 64), s.pdState n.val = 4 → (s.pdx n.val).wake = false → s.fld (Reg.pdCtl n.val) 31 31 = 0 →
    exec (.pdEntryDone n) s = .next ((((s.setPdx n.val ⟨0, false, 0⟩).setFld (Reg.pdStat n.val) 31 29
      (s.pdx n.val).target).setFld (Reg.pdCtl n.val) 30 30 0).done Code.ok)) ∧
  (∀ (s : State) (n : Fin 64) (core : Fin 16), s.pdAbsent n.val = false →
    exec (.pdHold n false core) s = .next (((s.dropWbuf core.val).setFld (Reg.pdCtl n.val) 31 31 0).done Code.ok)) ∧
  (∀ (s : State) (n : Fin 64) (unit : Fin 16) (id : Byte),
    (s.pdState n.val = 1 ∨ s.pdState n.val = 2 ∨ (s.pdState n.val = 3 ∧ s.pdMayOff n.val = true)) →
    exec (.pdWake n unit id) s = .next (((s.setPdx n.val { s.pdx n.val with
      from_ := s.pdState n.val }).setFld (Reg.pdStat n.val) 31 29 5).waits)) ∧
  (∀ (s : State) (n : Fin 64) (unit : Fin 16) (id : Byte), s.pdState n.val = 4 →
    exec (.pdWake n unit id) s = .next ((s.setPdx n.val { s.pdx n.val with
      wake := true }).waits)) ∧
  (∀ (s : State) (n : Fin 64) (unit : Fin 16) (id : Byte), s.pdState n.val = 0 →
    exec (.pdWake n unit id) s = .next (s.done Code.ok)) ∧
  (∀ (s : State) (n : Fin 64) (unit : Fin 16) (id : Byte), s.pdState n.val = 6 →
    exec (.pdWake n unit id) s = .next (s.done Code.wakeFail)) ∧
  (∀ (s : State) (n : Fin 64), s.pdState n.val = 5 → (s.pdx n.val).from_ ≠ 3 →
    exec (.pdWakeDone n) s = .next ((((s.setPdx n.val ⟨0, false, 0⟩).resumeHandovers n.val).setFld (Reg.pdStat n.val) 31 29
      0).done Code.ok)) ∧
  (∀ (s : State) (n : Fin 64), s.pdState n.val = 5 →
    exec (.pdWakeTimeout n) s = .next (((((s.setPdx n.val ⟨0, false, 0⟩).dropHandovers n.val).setFld (Reg.pdStat n.val) 31 29
      6).post 2 (Ev.of 4 1 Code.wakeFail 4 0 n.val n.val)).done Code.wakeFail)) ∧
  (∀ (s : State) (n : PdCall), s.pdState n.n.val = 6 → s.fld (Reg.pdCtl n.n.val) 31 31 = 0 →
    exec (.pdClrFail n) s = .next (((s.dropWbuf n.core.val).setFld (Reg.pdStat n.n.val) 31 29 3).done Code.ok))

/-- Resets. COLD_RESET leaves the part and the waiting commands, memories that list nothing, every register at its reset
value, no contexts, keys, connections or sessions, flash and fuses and the trims as they were, the boot path not running
and MAIN_REQ low. WARM_RESET and RESET_PIN of 10 µs or more run the warm reset with the junction at 90 °C or below:
memories list nothing, contexts, keys, connections, sessions, stages and rounds are as at reset, flash and fuses stay and
the boot path starts at step 0; above 90 °C the request is held and nothing else changes. RESET_PIN below 9.9 µs and
RESET_N_RISE change the pin and the reset hold alone, but that the rise which ends a reset releases THERM_TRIP_N.
SYS_RESET_WRITE of 0x5A5A requests the warm reset; any other word changes nothing but the core's buffered half. TAMPER of
20 samples from AON power good runs the tamper event of the model, State.tamperEvent, and leaves the management port DOWN
(R494, R519, R520, R415, R460, R493). Values that the specification leaves open are free values (notes/assumptions/2.md). -/
def Obligations.ResetCommands : Prop :=
  (∀ s : State, ∃ t, exec .coldReset s = .next t ∧ t.part = s.part ∧ t.pending = s.pending ∧ t.mem = [] ∧ t.hubMem = [] ∧
    t.ctxs = [] ∧ t.keys = [] ∧ t.conns = [] ∧ t.sess = [] ∧ t.boot.flash = s.boot.flash ∧ t.boot.fuses = s.boot.fuses ∧
    t.boot.running = false ∧ t.pins.mainReq = false ∧ t.gov.trim = s.gov.trim ∧ ∀ a, t.reg a = regReset a) ∧
  (∀ (s : State) (cause : WarmCause), s.fld Reg.govTherm 23 16 ≤ 90 → ∃ t, exec (.warmReset cause) s = .next t ∧
    t = (s.warmNow cause).done Code.ok ∧ t.part = s.part ∧ t.pending = s.pending ∧ t.mem = [] ∧ t.hubMem = [] ∧ t.ctxs = [] ∧
    t.keys = [] ∧ t.conns = [] ∧ t.sess = [] ∧ t.stages = [] ∧ t.rounds = [] ∧ t.boot.flash = s.boot.flash ∧
    t.boot.fuses = s.boot.fuses ∧ t.boot.running = true ∧ t.boot.next = 0) ∧
  (∀ (s : State) (cause : WarmCause), 90 < s.fld Reg.govTherm 23 16 → exec (.warmReset cause) s = .next ({ s with
    boot := { s.boot with held := if s.boot.held = some WarmCause.pin then some WarmCause.pin else some cause } }.done Code.ok)) ∧
  (∀ (s : State) (ns : Nat), 10000 ≤ ns → s.fld Reg.govTherm 23 16 ≤ 90 →
    exec (.resetPin ns) s = .next ((({ s with pins := { s.pins with resetN := false } }.took 1).warmNow .pin).done
      Code.ok)) ∧
  (∀ (s : State) (ns : Nat), ns < 9900 →
    exec (.resetPin ns) s = .next (({ s with pins := { s.pins with resetN := false } }.took 1).done Code.ok)) ∧
  (∀ s : State, exec .resetNRise s = .next ({ s with
    pins := { s.pins with resetN := true, tripOut := s.pins.tripOut && !s.boot.inReset }
    boot := { s.boot with inReset := false } }.done Code.ok)) ∧
  (∀ (s : State) (a : Acc), a.addr = Reg.sysReset → a.width = 4 → s.fld Reg.govTherm 23 16 ≤ 90 →
    exec (.sysResetWrite a 0x5A5A) s = .next (((s.dropWbuf a.core.val).warmNow .cmd).done Code.ok)) ∧
  (∀ (s : State) (a : Acc) (v : Word), a.addr = Reg.sysReset → a.width = 4 → v ≠ 0x5A5A →
    exec (.sysResetWrite a v) s = .next ((s.dropWbuf a.core.val).done Code.ok)) ∧
  (∀ (s : State) (n : Nat), 20 ≤ n → s.pins.auxOk = true → ∃ t, exec (.tamper n) s = .next t ∧
    t = ({ s with pins := { s.pins with tamperN := false } }.tamperEvent).done Code.ok ∧ t.mgmt.adm = .down)

/-- Supplies. One case of each command, with the whole next state; of other cases nothing is said. AON_POWER_GOOD with
TAMPER_N high, PIN_SAMPLE the first time and again, AUX_LOST without MAIN; MAIN_PRESENT, MAIN_LOW, MAIN_HIGH and
MAIN_OVERCURRENT at their thresholds with MAIN on; MAIN_ABSENT, MAIN_GOOD_FALL of a module that runs,
MAIN_GOOD_WITHOUT_MAIN; POWER_UP_START; RAIL_GOOD of the last rail; RAIL_TIMEOUT; the first POWER_DOWN_STEP; the third
missed PMBUS_POLL (R492, R506, R509, R510, R512–R516). Boot, trip and junction. BOOT_STEP at step 5 (the rails) and after
step 6, with the whole next state; THERMAL_TRIP at 115 °C or above asserts THERM_TRIP_N, drops MAIN_REQ and answers
THERMAL_HALT; THERMAL_SAMPLE with no reset held shows the hottest reading, and memory, keys and contexts stay (R459, R460,
R526). Values that the specification leaves open are free values (notes/assumptions/2.md). -/
def Obligations.SuppliesAndBoot : Prop :=
  (∀ s : State, s.pins.auxOk = false → exec (.aonPowerGood false) s = .next ((({ s with
    pins := { s.pins with auxOk := true, tamperN := true }
    boot := { s.boot with running := true, inReset := !s.pins.resetN } }.setReg Reg.supAux
      (BitVec.ofNat 32 (11400 + s.free.toNat % 1201))).took 1).mainReqRefresh.done Code.ok)) ∧
  (∀ (s : State) (p : Fin 4) (i : Fin 64), s.pins.auxOk = true → s.pins.sampled = false → exec (.pinSample p i) s = .next ({ s with
    pins := { s.pins with profLive := p, slotLive := i, profSel := p, slotId := i, sampled := true } }.done Code.ok)) ∧
  (∀ (s : State) (p : Fin 4) (i : Fin 64), s.pins.sampled = true → exec (.pinSample p i) s = .next ({ s with
    pins := { s.pins with profLive := p, slotLive := i } }.done Code.ok)) ∧
  (∀ s : State, s.sup.mainPresent = false → exec .auxLost s = .next (((({ s with pins := { s.pins with auxOk := false } }.setReg
    Reg.supAux (BitVec.ofNat 32 (s.free.toNat % 10800))).took 1).coldState).done Code.ok)) ∧
  (∀ (s : State) (mv : BitVec 16), 4700 ≤ mv.toNat → s.pins.auxOk = true → s.pins.mainReq = true →
    exec (.mainPresent mv) s = .next (({ s with sup := { s.sup with mainPresent := true } }.setFld Reg.supStat 15 0
      mv.toNat).done Code.ok)) ∧
  (∀ (s : State) (mv : BitVec 16), mv.toNat < 4600 → s.sup.mainPresent = true → s.pins.mainReq = true →
    exec (.mainLow mv) s = .next (((s.setFld Reg.supStat 15 0 mv.toNat).startDown true).done Code.ok)) ∧
  (∀ (s : State) (mv : BitVec 16), 6200 < mv.toNat → s.sup.mainPresent = true → s.pins.mainReq = true →
    exec (.mainHigh mv) s = .next (((s.setFld Reg.supStat 15 0 mv.toNat).railFault none).done Code.ok)) ∧
  (∀ s u : State, s.sup.mainPresent = true →
    u = (((s.setFld Reg.supStat 28 28 1).addFld Reg.supCnt 15 8 1).latchEvent none 0).recordCause 6 →
    exec .mainOvercurrent s = .next (({ u with pins := { u.pins with mainReq := false }, sup := { u.sup with
      mainAbsent := false } }.startDown true).done Code.ok)) ∧
  (∀ (s : State) (mv : BitVec 16), mv.toNat < 2000 → exec (.mainAbsent mv) s = .next ((({ s with sup := { s.sup with
    mainPresent := false, mainAbsent := true } }.setFld Reg.supStat 15 0 mv.toNat).mainReqRefresh).done Code.ok)) ∧
  (∀ s : State, s.sup.mainPresent = true → s.pins.mainReq = true → s.fld Reg.supStat 31 29 < 3 →
    exec .mainGoodFall s = .next (({ s with pins := { s.pins with mainGood := false } }.startDown false).done Code.ok)) ∧
  (∀ s : State, s.sup.mainPresent = false → exec .mainGoodWithoutMain s = .next (({ s with pins := { s.pins with
    mainGood := true } }.post 2 (Ev.of 5 5 Code.formatError 4 0 0 2)).done Code.ok)) ∧
  (∀ s u : State, s.sup.mainPresent = true → s.pins.mainReq = true → s.fld Reg.supStat 31 29 = 0 →
    u = (List.range 16).foldl (fun t r => t.setFld (Reg.railStat r) 29 24 0)
      { s with pins := { s.pins with mainGood := true } } →
    exec .powerUpStart s = .next (((({ u with sup := { u.sup with step := 0 } }.setFld (Reg.railStat 2) 31 30 1).setFld
      Reg.supStat 31 29 1)).done Code.ok)) ∧
  (∀ (s : State) (mv : BitVec 16), s.fld Reg.supStat 31 29 = 1 → s.fld (Reg.railStat 15) 31 30 = 1 → s.sup.step = 6 →
    exec (.railGood 15 mv) s = .next ((((s.setFld (Reg.railStat 15) 31 30 2).setFld (Reg.railStat 15) 15 0 mv.toNat).setFld
      Reg.supStat 31 29 2).done Code.ok)) ∧
  (∀ (s : State) (r : Fin 16), s.fld Reg.supStat 31 29 = 1 → s.fld (Reg.railStat r.val) 31 30 = 1 →
    exec (.railTimeout r) s = .next ((((s.setFld (Reg.railStat r.val) 31 30 3).setFld (Reg.railStat r.val) 24 24
      1).railFault (some r.val)).done Code.ok)) ∧
  (∀ s : State, s.fld Reg.supStat 31 29 = 3 → s.sup.step = 0 → exec .powerDownStep s = .next ((({ s with sup := { s.sup with
    step := 1 } }.setFld (Reg.railStat 15) 31 30 0).setFld (Reg.railStat 15) 15 0 0).done Code.ok)) ∧
  (∀ (s : State) (r : Fin 16), 1 ≤ r.val → s.sup.polls.get (fun _ => 0) r.val = 2 → exec (.pmbusPoll r none) s = .next
    ((({ s with sup := { s.sup with polls := s.sup.polls.put (fun _ => 0) r.val 3 } }.setFld (Reg.railStat r.val) 25 25
      1).setReason Reason.regulator true).done Code.ok)) ∧
(∀ s : State, s.boot.running = true → s.boot.inReset = false → s.boot.held = none → s.boot.next = 5 →
    exec .bootStep s = .next (({ s.setFld Reg.sysBoot 7 0 5 with boot := { s.boot with next := 6 } }.mainReqRefresh).done
      Code.ok)) ∧
  (∀ s : State, s.boot.running = true → s.boot.inReset = false → s.boot.held = none → 7 ≤ s.boot.next →
    exec .bootStep s = .next (s.bootReady.done Code.ok)) ∧
  (∀ (s : State) (sensor : Fin 44) (c : Nat), 115 ≤ c → ∃ t, exec (.thermalTrip sensor c) s = .next t ∧
    t.pins.tripOut = true ∧ t.pins.mainReq = false ∧ t.reply = ⟨Code.thermalHalt, 0⟩) ∧
  (∀ (s : State) (readings : List Byte), s.boot.held = none → ∃ t, exec (.thermalSample readings) s = .next t ∧
    t.fld Reg.govTherm 23 16 = (hottest 0 readings).1 ∧ t.mem = s.mem ∧ t.keys = s.keys ∧ t.ctxs = s.ctxs ∧
    t.reply = ⟨Code.ok, 0⟩)

/-- The governor's commands. One or more cases of each, with the whole next state where no field is named alone; of other
cases nothing is said. LOCK_THROTTLE and its release past their filters, COOLANT_CHANGE short of its filter and past it; a
POWER_SAMPLE between 95% of PEAK_W and PEAK_W keeps every step and shows the 1 ms average; SUSTAINED_STEP over the cap
above NEAP, and within 50 W below it; SPRING_LIMIT_REACHED; VCORE_TRIM below the floor asks for 5 mV more; AVS_ACK and
AVS_TIMEOUT of a change of point: acknowledged, settled, settled with a rise, missed, missed three times (REGULATOR);
GOV_CLR_REG; FILLER_TIMEOUT (R450–R458, R464, R495, R496). GOV_DECISION sets the SPRING block anew; with no change running
and REGULATOR clear it starts the change to the point that the terms of R453 give once the reasons are brought up to date,
where that is not the point in force; with REGULATOR set no change starts; memory, keys and contexts stay (R453). The
frequency lock. LOCK_DEMAND_REFRESH of a demand that stands sends it again; a LOCK_DEMAND_RECEIVE whose LSEQ is not old,
of NEAP or MEAN or code 3, takes the entry, and decides at once where lock_point falls; a LOCK_RELEASE_RECEIVE with a
newer LSEQ, LOCK_ENTRY_EXPIRE and LOCK_RISE_HOLDOFF, each with the whole next state (R453, R461–R463). -/
def Obligations.Governor : Prop :=
  (∀ (s : State) (ns : Nat), 1000 ≤ ns → exec (.lockThrottle ns) s = .next ({ s with
    pins := { s.pins with lockN := false }, gov := { s.gov with extPin := true } }.govDecide.done Code.ok)) ∧
  (∀ (s : State) (us : Nat), 1000 ≤ us → exec (.lockThrottleRelease us) s = .next ({ s with
    pins := { s.pins with lockN := true }, gov := { s.gov with extPin := false } }.govDecide.done Code.ok)) ∧
  (∀ (s : State) (us : Nat), us < 1000 → exec (.coolantChange false us) s =
    .next (({ s with pins := { s.pins with coolantOk := false } }.mainReqRefresh).done Code.ok)) ∧
  (∀ (s : State) (us : Nat), 1000 ≤ us → s.gov.coolantLow = false →
    exec (.coolantChange false us) s = .next (({ s with
      pins := { s.pins with coolantOk := false }, gov := { s.gov with coolantLow := true } }.mainReqRefresh.post 2
        (Ev.of 5 6 Code.ok 4 0 0 1)).govDecide.done Code.ok)) ∧
  (∀ (s : State) (w : Nat), mean ((w :: s.gov.samples).take 100) ≤ capOf (s.fld Reg.govCap 31 16) →
    capOf (s.fld Reg.govCap 31 16) * 95 < mean ((w :: s.gov.samples).take 100) * 100 →
    exec (.powerSample w) s = .next ({ (s.sampled w).attribute w with gov := { ((s.sampled w).attribute w).gov with
      relax := 0 } }.done Code.ok)) ∧
  (∀ s : State, s.fld Reg.govPwr 15 0 ≤ capOf (s.fld Reg.govCap 15 0) →
    capOf (s.fld Reg.govCap 15 0) < s.fld Reg.govPwr 15 0 + 50 →
    exec .sustainedStep s = .next ({ { s with gov := { s.gov with sustBub := 0 } }.showBubbles with gov := { s.gov with
      sustBub := 0, underSust := 0 } }.done Code.ok)) ∧
  (∀ s : State, capOf (s.fld Reg.govCap 15 0) < s.fld Reg.govPwr 15 0 → s.gov.sustPt ≠ 0 →
    exec .sustainedStep s = .next ({ s with gov := { s.gov with underSust := 0, sustPt := s.gov.sustPt - 1 } }.done Code.ok)) ∧
  (∀ s : State, s.springLimit ≤ s.springUsed → exec .springLimitReached s =
    .next ({ s with gov := { s.gov with springBlk := true } }.govDecide.done Code.ok)) ∧
  (∀ (s : State) (d : Fin 4), s.fld Reg.govReason 5 5 = 0 → s.gov.change = .none →
    s.gov.trim.get (fun _ => (0 : Int)) d.val < 8 →
    exec (.vcoreTrim d .belowFloor) s = .next ((({ s with gov := { s.gov with
      trimReq := some (d.val, s.gov.trim.get (fun _ => (0 : Int)) d.val + 1)
      change := .awaitAck (BitVec.ofNat 2 s.point), misses := 0
      prevPt := BitVec.ofNat 2 s.point } }.setFld Reg.govStat 25 25 1).emit
        (.avs (3 + d.val) (vcoreMv s.point (s.gov.trim.get (fun _ => (0 : Int)) d.val + 1)))).done Code.ok)) ∧
  (∀ (s : State) (p : BitVec 2), s.gov.change = .awaitAck p →
    exec (.avsAck false) s = .next ({ s with gov := { s.gov with change := .awaitSettle p } }.done Code.ok)) ∧
  (∀ (s : State) (p : BitVec 2), s.gov.change = .awaitSettle p → s.gov.trimReq = none → s.fld Reg.govReason 5 5 = 0 →
    p.toNat ≤ s.point →
    exec (.avsAck true) s = .next ({ s.setFld Reg.govStat 25 25 0 with
      gov := { s.gov with change := .none, misses := 0, trimReq := none } }.done Code.ok)) ∧
  (∀ (s u : State) (p : BitVec 2), s.gov.change = .awaitSettle p → s.gov.trimReq = none → s.fld Reg.govReason 5 5 = 0 →
    s.point < p.toNat → u = (s.setFld Reg.govStat 25 25 0).moveClocks p.toNat →
    exec (.avsAck true) s = .next ({ u with gov := { u.gov with change := .none, misses := 0, trimReq := none } }.done
      Code.ok)) ∧
  (∀ (s : State) (p : BitVec 2), s.gov.change = .awaitAck p → s.gov.misses < 2 →
    exec .avsTimeout s = .next (({ s with gov := { s.gov with misses := s.gov.misses + 1, change := .awaitAck p
      } }.avsRequest p.toNat).done Code.ok)) ∧
  (∀ (s u : State) (p : BitVec 2), s.gov.change = .awaitAck p → s.gov.misses = 2 → s.gov.trimReq = none →
    u = s.avsPoint s.gov.prevPt.toNat →
    exec .avsTimeout s = .next (((({ u with gov := { u.gov with misses := 0, change := .none, trimReq := none } }.setFld Reg.govStat 25
      24 1).setReason Reason.regulator true).post 2 (Ev.of 5 3 Code.regulatorFault 4 0 3 3)).done Code.regulatorFault)) ∧
  (∀ s : State, s.fld Reg.supStat 28 26 = 0 → exec .govClrReg s = .next ((({ s with gov := { s.gov with misses := 0
    } }.setFld Reg.govStat 24 24 0).setReason Reason.regulator false).done Code.ok)) ∧
  (∀ (s : State) (l : Loc) (n : Nat), (s.stage l.ix).wait = .barw n →
    exec (.fillerTimeout l) s = .next ((s.setStage l.ix { s.stage l.ix with fillerOut := true }).done Code.ok)) ∧
(∀ s u : State, u = ({ s with gov := { s.gov with springBlk := s.springBlocked } }.setFld Reg.govStat 27 26
      ({ s with gov := { s.gov with springBlk := s.springBlocked } }.hint.getD 3)).decideReasons →
    ∃ t, exec .govDecision s = .next t ∧ t.gov.springBlk = s.springBlocked ∧
    t.mem = s.mem ∧ t.keys = s.keys ∧ t.ctxs = s.ctxs ∧ t.reply = ⟨Code.ok, 0⟩ ∧
    (s.fld Reg.govReason 5 5 = 1 → t.gov.change = s.gov.change) ∧
    (s.fld Reg.govReason 5 5 ≠ 1 → s.gov.change = .none → u.decided ≠ s.point →
      t.gov.change = .awaitAck (BitVec.ofNat 2 u.decided) ∧ t.gov.prevPt = BitVec.ofNat 2 s.point)) ∧
(∀ (s : State) (p : BitVec 2), s.gov.demand = some p → s.fld Reg.govCtl 31 31 = 1 →
    exec .lockDemandRefresh s = .next ((s.sendCtrl none 4 (be 1 p.toNat ++
      be 1 (s.lockEnt (s.fld (Reg.twTopo 0) 13 0)).reason.toNat ++ be 4 s.gov.lseq.toNat)).done Code.ok)) ∧
  (∀ (s u : State) (src : BitVec 14) (point reason : Byte) (q : Word), s.fld Reg.govCtl 31 31 = 1 →
    (point = 0 ∨ point = 1 ∨ point = 3) → (s.lockEnt src.toNat).lseq.toNat ≤ q.toNat →
    u = (s.setLockEnt src.toNat ⟨some (if point = 0 then 0 else 1), q, reason⟩).lockRefresh →
    exec (.lockDemandReceive src point reason q) s =
      .next ((if lockFalls (lockPoint s.gov.table) (lockPoint u.gov.table) then u.govDecide else u).done Code.ok)) ∧
  (∀ (s : State) (src : BitVec 14) (q : Word), s.fld Reg.govCtl 31 31 = 1 → (s.lockEnt src.toNat).lseq.toNat < q.toNat →
    exec (.lockReleaseReceive src q) s = .next ((s.setLockEnt src.toNat ⟨none, q, 0⟩).lockRefresh.done Code.ok)) ∧
  (∀ (s : State) (src : BitVec 14), exec (.lockEntryExpire src) s =
    .next ((s.setLockEnt src.toNat ⟨none, (s.lockEnt src.toNat).lseq, 0⟩).lockRefresh.done Code.ok)) ∧
  (∀ s : State, exec .lockRiseHoldoff s = .next ({ s with gov := { s.gov with
    lockApplied := lockPoint s.gov.table } }.done Code.ok))

/-- Register accesses of hub registers, one register for each kind, with the whole next state. REGISTER_WRITE of GOV_CAP and
ALERT_MASK writes the defined bits and drops the core's buffered half; PAIR_LO_READ and PAIR_HI_READ of GOV_ENERGY_SYS
latch bits [63:32] and give them, or the live bits without a latch; PAIR_LO_WRITE and PAIR_HI_WRITE of BW_GR_START hold
the low half and commit it, or write bits [63:32] alone; READ_CLEAR of PD_REFUSE_CNT gives the count and leaves 0 (R34,
R448, R469). The hub's checks on a REGISTER_WRITE: a page that R35 does not allot answers ACCESS_BOUNDS, the normal world
on a secure page ACCESS_BOUNDS with a security record, DBG outside MANUFACTURE and OWNED_DEBUG LIFECYCLE_DENIED, a wrong
width on page 0x020 FORMAT_ERROR; nothing else changes (R541). -/
def Obligations.RegisterAccesses : Prop :=
  (∀ (s : State) (a : Acc) (v : Word), a.addr = Reg.govCap → a.width = 4 →
    exec (.registerWrite a v) s = .next (((s.dropWbuf a.core.val).setReg Reg.govCap v).done Code.ok)) ∧
  (∀ (s : State) (a : Acc) (v : Word), a.addr = Reg.alertMask → a.width = 4 →
    exec (.registerWrite a v) s = .next (((s.dropWbuf a.core.val).setReg Reg.alertMask
      ((s.reg Reg.alertMask &&& ~~~0x7F) ||| (v &&& 0x7F))).done Code.ok)) ∧
  (∀ (s : State) (a : Acc), a.addr = Reg.govEnergySys → a.width = 4 →
    exec (.pairLoRead a) s = .next ({ s with latch := s.latch.put (fun _ => none) a.core.val (some (Reg.govEnergySys, s.reg (Reg.govEnergySys + 4))) }.val (s.reg Reg.govEnergySys).toNat)) ∧
  (∀ (s : State) (a : Acc) (v : Word), a.addr = Reg.govEnergySys + 4 → a.width = 4 →
    s.latch.get (fun _ => none) a.core.val = some (Reg.govEnergySys, v) →
    exec (.pairHiRead a) s = .next ({ s with latch := s.latch.put (fun _ => none) a.core.val none }.val v.toNat)) ∧
  (∀ (s : State) (a : Acc), a.addr = Reg.govEnergySys + 4 → a.width = 4 →
    s.latch.get (fun _ => none) a.core.val = none →
    exec (.pairHiRead a) s = .next (s.val (s.reg (Reg.govEnergySys + 4)).toNat)) ∧
  (∀ (s : State) (a : Acc) (v : Word), a.addr = Reg.bwGrStartLo → a.width = 4 → a.world = .secure →
    exec (.pairLoWrite a v) s = .next ({ s with wbuf := s.wbuf.put (fun _ => none) a.core.val (some (Reg.bwGrStartLo, v)) }.done Code.ok)) ∧
  (∀ (s : State) (a : Acc) (v w : Word), a.addr = Reg.bwGrStartHi → a.width = 4 → a.world = .secure →
    s.wbuf.get (fun _ => none) a.core.val = some (Reg.bwGrStartLo, w) →
    exec (.pairHiWrite a v) s = .next ((((s.dropWbuf a.core.val).setReg Reg.bwGrStartLo w).setReg Reg.bwGrStartHi
      ((s.reg Reg.bwGrStartHi &&& ~~~0xFFFF) ||| (v &&& 0xFFFF))).done Code.ok)) ∧
  (∀ (s : State) (a : Acc) (v : Word), a.addr = Reg.bwGrStartHi → a.width = 4 → a.world = .secure →
    s.wbuf.get (fun _ => none) a.core.val = none →
    exec (.pairHiWrite a v) s = .next (((s.dropWbuf a.core.val).setReg Reg.bwGrStartHi
      ((s.reg Reg.bwGrStartHi &&& ~~~0xFFFF) ||| (v &&& 0xFFFF))).done Code.ok)) ∧
  (∀ (s : State) (a : Acc) (n : Fin 64), a.addr = Reg.pdRefuseCnt n.val → a.width = 4 →
    exec (.readClear a) s = .next ((s.setReg (Reg.pdRefuseCnt n.val) 0).val (s.reg (Reg.pdRefuseCnt n.val)).toNat)) ∧
(∀ (s : State) (a : Acc) (v : Word), pageAllotted (a.addr / 0x10000) = false →
    exec (.registerWrite a v) s = .next (s.done Code.accessBounds)) ∧
  (∀ (s : State) (a : Acc) (v : Word), a.world = .normal → a.addr / 0x10000 ∈ [0x030, 0x040, 0x050, 0x060, 0x300, 0x3F0] →
    exec (.registerWrite a v) s = .next ((s.post 3 { Ev.of 7 1 Code.accessBounds 2 0 0 1 with addr := 0x0F00_00000000 + a.addr }).done
      Code.accessBounds)) ∧
  (∀ (s : State) (a : Acc) (v : Word), a.world = .normal → 0x080 ≤ a.addr / 0x10000 → a.addr / 0x10000 ≤ 0x08F →
    exec (.registerWrite a v) s = .next ((s.post 3 { Ev.of 7 1 Code.accessBounds 2 0 0 1 with addr := 0x0F00_00000000 + a.addr }).done
      Code.accessBounds)) ∧
  (∀ (s : State) (a : Acc) (v : Word), a.world = .secure → a.addr / 0x10000 = 0x3F0 → s.lc ≠ 0 → s.lc ≠ 3 →
    exec (.registerWrite a v) s = .next (s.done Code.lifecycleDenied)) ∧
  (∀ (s : State) (a : Acc) (v : Word), a.world = .secure → a.addr / 0x10000 = 0x020 → a.width ≠ 4 →
    exec (.registerWrite a v) s = .next (s.done Code.formatError))

/-- BANK_OWNER. With the links clean and the world secure, BANK_OWNER_WRITE of an ignored word sets WR_IGNORED alone; of an
accepted word it starts the handover with the clear pass that R44 asks for; BANK_FREE_CLEAR starts the handover to no
owner with the pass. BANK_HANDOVER_DRAIN_DONE with the half-array ON installs the owner, or enters CLEARING;
BANK_CLEAR_DONE clears the bank and installs the owner (R42–R44, R46, R87). An access to a bank, owned or free, of a
requester that its owner word does not name: a read, and with clean links a write, answers ACCESS_BOUNDS and changes
nothing (R33, R45). -/
def Obligations.BankOwners : Prop :=
  (∀ (s : State) (a : Acc) (v : Word) (d : Fin 4) (b : Fin 24), a.addr = Reg.bankOwner d.val b.val → a.width = 4 →
    a.world = .secure → s.linksClean = true → s.ownerIgnored d.val b.val v = true →
    exec (.bankOwnerWrite a v) s = .next (((s.dropWbuf a.core.val).setFld (Reg.bankStat d.val b.val) 28 28 1).done Code.ok)) ∧
  (∀ (s : State) (a : Acc) (v : Word) (d : Fin 4) (b : Fin 24), a.addr = Reg.bankOwner d.val b.val → a.width = 4 →
    a.world = .secure → s.linksClean = true → s.ownerIgnored d.val b.val v = false → s.pdState (pdBank d.val b.val) ≠ 6 →
    exec (.bankOwnerWrite a v) s = .next (((s.dropWbuf a.core.val).startHandover d.val b.val (v &&& 0x0000F70F)
      (s.ownerClears d.val b.val v)).done Code.ok)) ∧
  (∀ (s : State) (a : Acc) (d : Fin 4) (b : Fin 24), a.addr = Reg.bankOwner d.val b.val → a.width = 4 →
    a.world = .secure → s.linksClean = true → s.ownerIgnored d.val b.val 0x0100F000 = false → s.pdState (pdBank d.val b.val) ≠ 6 →
    exec (.bankFreeClear a) s = .next (((s.dropWbuf a.core.val).startHandover d.val b.val 0x0000F000 true).done Code.ok)) ∧
  (∀ (s : State) (d : Fin 4) (b : Fin 24) (w : Word), (s.bank d.val b.val).target = some (w, false) →
    s.bst d.val b.val = 2 → s.pdOn (pdBank d.val b.val) = true →
    exec (.bankHandoverDrainDone d b) s = .next ((s.installOwner d.val b.val w).done Code.ok)) ∧
  (∀ (s : State) (d : Fin 4) (b : Fin 24) (w : Word), (s.bank d.val b.val).target = some (w, true) →
    s.bst d.val b.val = 2 → s.pdOn (pdBank d.val b.val) = true →
    exec (.bankHandoverDrainDone d b) s = .next ((s.setFld (Reg.bankOwner d.val b.val) 31 30 3).done Code.ok)) ∧
  (∀ (s : State) (d : Fin 4) (b : Fin 24) (w : Word) (c : Bool), (s.bank d.val b.val).target = some (w, c) →
    s.bst d.val b.val = 3 → s.pdOn (pdBank d.val b.val) = true →
    exec (.bankClearDone d b) s = .next (((s.clearBank d.val b.val).installOwner d.val b.val w).done Code.ok)) ∧
(∀ (s : State) (r : Requester) (d b o : Nat) (data : Bytes) (fold : Bool) (a : Nat), place s.part a = .bank d b o →
    s.bst d b ≠ 2 → s.bst d b ≠ 3 → s.bankAllows r d b fold = false →
    s.readLine r a fold = Line.fail s Code.accessBounds ∧
    (s.linksClean = true → s.writeLine r a data fold = Line.fail s Code.accessBounds))

/-- BANK_CLEAR_DONE of a clear pass, of a bank that was not freed meanwhile: it completes; every byte of the bank reads zero,
its check bits are good, CLEAN is set, BANK_OWNER holds the word the write named, and no byte outside the bank, no key, no
context and no byte of hub SRAM changes (R44). -/
def Obligations.BankClearZeroes : Prop :=
  ∀ (s : State) (d : Fin 4) (b : Fin 24) (w : Word), (s.bank d.val b.val).target = some (w, true) →
    s.bst d.val b.val = 3 → s.pdOn (pdBank d.val b.val) = true → (s.bank d.val b.val).freed = false →
    ∃ t, exec (.bankClearDone d b) s = .next t ∧
    (∀ o, o < 0x4000000 → t.byte (bankAddr d.val b.val o) = 0) ∧
    (∀ m, (m < bankAddr d.val b.val 0 ∨ bankAddr d.val b.val 0x4000000 ≤ m) → t.byte m = s.byte m) ∧
    (∀ o, o < 0x4000000 → t.mark (bankAddr d.val b.val o / 16) = .good) ∧
    t.fld (Reg.bankStat d.val b.val) 29 29 = 1 ∧ t.reg (Reg.bankOwner d.val b.val) = setBits w 31 30 (bits w 8 8) ∧
    (t.bank d.val b.val).target = none ∧ t.keys = s.keys ∧ t.ctxs = s.ctxs ∧ t.hubMem = s.hubMem

/-- HUB_MEMORY_ACCESS in hub SRAM with the management cluster's domain ON: the secure world's read and write, and the refusal,
with its record, of a normal-world write below 0x200_0000. DMA_TRANSFER of no bytes, and of bytes inside one line from one
bank to another with clean links, both banks granted and every word good. ALIAS_WRITE and ALIAS_EXCHANGE with clean links,
the bank granted and its line without an uncorrectable word; an exchange puts out the line as it was. An ALIAS_WRITE of
the hub that meets BANK_BUSY counts it and ends BUSY (R41, R45, R47, R48, R55, R471, R542). What a write and an alias
operation store in a line whose words are all correctable: the data, and memory | D or memory & ~D, on the bytes written,
every other byte as it was; after an alias operation CLEAN is 0 (R43, R47, R48, R56). -/
def Obligations.MemoryAccesses : Prop :=
  (∀ (s : State) (key : Fin 19) (o : Nat) (n : Nat), o + n ≤ 0x4000000 → n ≠ 0 → s.pdOn 56 = true →
    exec (.hubMemoryAccess .secure key (2 ^ 48 + o) (.read n) none) s = .next ({ s.emit (.words ((s.hubBytes o n).map
      (fun b => b.toNat))) with reply := ⟨Code.ok, BitVec.ofNat 64 (fromLE ((s.hubBytes o n).take 8))⟩ })) ∧
  (∀ (s : State) (key : Fin 19) (o : Nat) (data : Bytes), o + data.length ≤ 0x4000000 → s.pdOn 56 = true →
    exec (.hubMemoryAccess .secure key (2 ^ 48 + o) (.write data) none) s = .next ((s.hubStore o data).done Code.ok)) ∧
  (∀ (s : State) (key : Fin 19) (o : Nat) (data : Bytes), o + data.length ≤ 0x4000000 → o < 0x2000000 →
    exec (.hubMemoryAccess .normal key (2 ^ 48 + o) (.write data) none) s =
      .next ((s.post 3 { Ev.of 7 1 Code.accessBounds 2 0 0 3 with addr := o }).done Code.accessBounds)) ∧
  (∀ (s : State) (d : Fin 4) (ctx : Fin 16) (src dst : Nat), exec (.dmaTransfer d ctx src dst 0) s = .next (s.done Code.ok)) ∧
  (∀ (s : State) (d : Fin 4) (ctx : Fin 16) (src dst len d1 b1 o1 d2 b2 o2 : Nat), 1 ≤ len → src % 64 + len ≤ 64 →
    dst % 64 + len ≤ 64 → s.linksClean = true → place s.part (src / 64 * 64) = .bank d1 b1 o1 → place s.part dst = .bank d2 b2 o2 →
    s.bankGate (.dma (Fin.ofNat 8 d.val) ctx) d1 b1 false = none → s.bankGate (.dma (Fin.ofNat 8 d.val) ctx) d2 b2 false = none →
    (s.bank d1 b1).busy = 0 → (s.bank d2 b2).busy = 0 → s.inEvk dst = false →
    (∀ w, w ∈ lineWords (bankAddr d1 b1 o1) ∨ w ∈ lineWords (bankAddr d2 b2 o2) → s.mark w = .good) →
    exec (.dmaTransfer d ctx src dst len) s = .next (((s.eccWrite (bankAddr d2 b2 o2)
      (((s.bytes (bankAddr d1 b1 o1 / 64 * 64) 64).drop (src % 64)).take len)).st.soil d2 b2).done Code.ok)) ∧
  (∀ (s : State) (r : Requester) (d b : Nat) (o : Nat) (a : Nat) (data : Bytes), place s.part a = .setAlias d b o →
    1 ≤ data.length → a % 64 + data.length ≤ 64 → (∀ l g, r ≠ .tideway l g) → s.linksClean = true → s.bankGate r d b false = none → (s.bank d b).busy = 0 →
    s.inEvk (bankAddr d b o) = false → s.anyUe (lineWords (bankAddr d b o)) = false →
    exec (.aliasWrite r a data false) s = .next ((s.aliasOp d b o true data).st.done
      (if 0 < s.corrected (lineWords (bankAddr d b o)) then Code.eccCorrected else Code.ok))) ∧
  (∀ (s : State) (r : Requester) (d b : Nat) (o : Nat) (a : Nat) (data : Bytes), place s.part a = .clrAlias d b o →
    1 ≤ data.length → a % 64 + data.length ≤ 64 → (∀ l g, r ≠ .tideway l g) → s.linksClean = true → s.bankGate r d b false = none → (s.bank d b).busy = 0 →
    s.inEvk (bankAddr d b o) = false → s.anyUe (lineWords (bankAddr d b o)) = false →
    exec (.aliasExchange r a data false) s = .next { (s.aliasOp d b o false data).st.emit
        (.words ((s.bytes (bankAddr d b o / 64 * 64) 64).map (fun x => x.toNat))) with
      reply := ⟨if 0 < s.corrected (lineWords (bankAddr d b o)) then Code.eccCorrected else Code.ok,
        BitVec.ofNat 64 (fromLE ((s.bytes (bankAddr d b o / 64 * 64) 64).take 8))⟩ }) ∧
  (∀ (s : State) (w : World) (key : Fin 19) (d b : Nat) (o : Nat) (a : Nat) (data : Bytes), place s.part a = .setAlias d b o →
    s.bankGate (.hub w key) d b false = none →
    exec (.aliasWrite (.hub w key) a data true) s = .next ((s.addFld (Reg.bankStat d b) 23 16 1).done Code.busy)) ∧
(∀ (s : State) (a : Nat) (data : Bytes), s.anyUe (lineWords a) = false →
    (∀ i, i < data.length → (s.eccWrite a data).st.byte (a + i) = data.getD i 0) ∧
    (∀ m, (m < a ∨ a + data.length ≤ m) → (s.eccWrite a data).st.byte m = s.byte m)) ∧
  (∀ (s : State) (d b : Fin 24) (o : Nat) (set : Bool) (data : Bytes),
    s.anyUe (lineWords (bankAddr d.val b.val o)) = false →
    (∀ i, i < data.length → (s.aliasOp d.val b.val o set data).st.byte (bankAddr d.val b.val o + i) =
      if set then s.byte (bankAddr d.val b.val o + i) ||| data.getD i 0
      else s.byte (bankAddr d.val b.val o + i) &&& ~~~(data.getD i 0)) ∧
    (∀ m, (m < bankAddr d.val b.val o ∨ bankAddr d.val b.val o + data.length ≤ m) →
      (s.aliasOp d.val b.val o set data).st.byte m = s.byte m) ∧
    (s.aliasOp d.val b.val o set data).st.fld (Reg.bankStat d.val b.val) 29 29 = 0)

/-- ECC_WRITEBACK of a word with one bad nibble makes it good, and changes nothing where another write came first. PATROL_LINE
of a bank that is not CLEARING and whose half-array is ON: without errors the line is no longer owed; with BANK_BUSY it is
counted and owed. PATROL_PASS with no line owed sets or clears PATROL_LAG at 2 s. HBM_PATROL_LINE at the patrol's place,
short of the stack's last line: an uncorrectable word answers ECC_UNCORRECTABLE and HBM keeps its bytes; otherwise every
word of the line is good after it. HBM_PHY_RETRAIN in an idle window. TREE_NODE_WRITEBACK of a changed node of level 5,
and of a lower one whose parents pass: its counter rises by one, it leaves the cache, and its parent is changed (R41, R56,
R58, R59, R389, R444, R480). HBM lines through Breakwater, at a multiple of 64 the requester may use (secure hub cores,
indices 0 to 16, a registered region). HBM_LINE_READ: a granule of another index answers ACCESS_BOUNDS; with clean links,
the PHY ON and no bad node a line never written gives zeros, a good written line its plaintext. HBM_LINE_WRITE of a whole
line, its minor counter below 63: it completes, the line is the data and reads back under its key, its MAC holds, its
version rises, and no other byte, key or context changes. A line whose MAC does not hold gives no data. A word a
die-to-die link corrects is counted at its port and an uncorrectable one is reported and poisons; a poisoned write fails
and a poisoned read gives nothing; routes follow the ring (R14, R16, R33, R57, R384–R386, R388, R390). -/
def Obligations.ErrorCodeAndBreakwater : Prop :=
  (∀ (s : State) (w : Nat) (n : Fin 36) (x : BitVec 4), s.mark (w / 16) = .oneNibble n x →
    exec (.eccWriteback w false) s = .next ((s.setMark (w / 16) .good).done Code.ok)) ∧
  (∀ (s : State) (w : Nat), exec (.eccWriteback w true) s = .next (s.done Code.ok)) ∧
  (∀ (s : State) (d : Fin 4) (b : Fin 24) (line : Fin 1048576), s.bst d.val b.val ≠ 3 →
    s.pdOn (pdBank d.val b.val) = true →
    s.anyUe (lineWords (bankAddr d.val b.val (line.val * 64))) = false →
    s.corrected (lineWords (bankAddr d.val b.val (line.val * 64))) = 0 →
    exec (.patrolLine d b line false) s = .next ((s.setBank d.val b.val { s.bank d.val b.val with
      missed := (s.bank d.val b.val).missed.filter (fun l => l ≠ line.val) }).done Code.ok)) ∧
  (∀ (s : State) (d : Fin 4) (b : Fin 24) (line : Fin 1048576), s.bst d.val b.val ≠ 3 →
    s.pdOn (pdBank d.val b.val) = true →
    exec (.patrolLine d b line true) s = .next (((s.addFld (Reg.bankStat d.val b.val) 23 16 1).setBank d.val b.val
      { s.bank d.val b.val with missed := line.val :: (s.bank d.val b.val).missed }).done Code.ok)) ∧
  (∀ (s : State) (d : Fin 4) (b : Fin 24) (ms : Nat), (s.bank d.val b.val).missed = [] → s.pdOn (pdBank d.val b.val) = true →
    exec (.patrolPass d b ms) s = .next ((s.setFld (Reg.bankStat d.val b.val) 30 30 (if 2000 < ms then 1 else 0)).done
      Code.ok)) ∧
  (∀ (s : State) (stack : Fin 12) (saddr : Nat), s.fld Reg.hbmScrubCtl 31 31 = 1 → stackFitted s.part stack.val = true →
    s.pdOn 63 = true → saddr + 64 < 0x600000000 → saddr / 64 = s.patrol.get (fun _ => 0) stack.val →
    s.anyUe (lineWords (stackAddr s.part stack.val saddr)) = true →
    ∃ t, exec (.hbmPatrolLine stack saddr) s = .next t ∧ t.reply = ⟨Code.eccUncorrectable, 0⟩ ∧ t.mem = s.mem ∧
      t.patrol.get (fun _ => 0) stack.val = saddr / 64 + 1) ∧
  (∀ (s : State) (stack : Fin 12) (saddr : Nat), s.fld Reg.hbmScrubCtl 31 31 = 1 → stackFitted s.part stack.val = true →
    s.pdOn 63 = true → saddr + 64 < 0x600000000 → saddr / 64 = s.patrol.get (fun _ => 0) stack.val →
    s.anyUe (lineWords (stackAddr s.part stack.val saddr)) = false →
    ∃ t, exec (.hbmPatrolLine stack saddr) s = .next t ∧ t.reply = ⟨Code.ok, 0⟩ ∧ t.mem = s.mem ∧
      (∀ w, w ∈ lineWords (stackAddr s.part stack.val saddr) → t.mark w = .good) ∧
      t.patrol.get (fun _ => 0) stack.val = saddr / 64 + 1) ∧
  (∀ (s : State) (stack : Fin 12), exec (.hbmPhyRetrain stack true) s = .next (s.done Code.ok)) ∧
  (∀ (s : State) (d : Fin 4) (level : Fin 6) (node : Nat),
    s.dirty.get (fun _ => false) ((d.val * 8 + level.val) * 2 ^ 32 + node) = true →
    (level.val = 5 ∨ s.badAbove d.val (level.val + 1) node = none) →
    ∃ t, exec (.treeNodeWriteback d level node) s = .next t ∧ t.reply = ⟨Code.ok, 0⟩ ∧
      t.nodeCnt.get (fun _ => 0) ((d.val * 8 + level.val) * 2 ^ 32 + node) =
        s.nodeCnt.get (fun _ => 0) ((d.val * 8 + level.val) * 2 ^ 32 + node) + 1 ∧
      (node < 2 ^ 32 → t.dirty.get (fun _ => false) ((d.val * 8 + level.val) * 2 ^ 32 + node) = false) ∧
      t.cached.get (fun _ => false) ((d.val * 8 + level.val) * 2 ^ 32 + node) = false ∧
      (level.val < 5 → t.dirty.get (fun _ => false) ((d.val * 8 + level.val + 1) * 2 ^ 32 + node / 8) = true) ∧
      t.mem = s.mem ∧ t.regs = s.regs) ∧
(∀ (s : State) (r : Requester) (a d o : Nat), place s.part a = .hbm d o → a % 64 = 0 → mayHbm r = true →
    s.inReach r a = true → s.granuleOf a ≠ s.keyIndex r →
    exec (.hbmLineRead r a) s = .next (s.done Code.accessBounds)) ∧
  (∀ (s : State) (r : Requester) (a d o : Nat), place s.part a = .hbm d o → a % 64 = 0 → mayHbm r = true →
    s.inReach r a = true → s.linksClean = true → s.bwDenied (s.keyIndex r) a 1 = none → s.pdOn 63 = true →
    s.badPath (a / s.part.block) (a % s.part.block) = none → s.minorOf a = 0 →
    exec (.hbmLineRead r a) s = .next { (s.loadPath a).emit (.words (List.replicate 64 0)) with reply := ⟨Code.ok, 0⟩ }) ∧
  (∀ (s : State) (r : Requester) (a d o : Nat), place s.part a = .hbm d o → a % 64 = 0 → mayHbm r = true →
    s.inReach r a = true → s.linksClean = true → s.bwDenied (s.keyIndex r) a 1 = none → s.pdOn 63 = true →
    s.badPath (a / s.part.block) (a % s.part.block) = none → s.minorOf a ≠ 0 → (∀ w, w ∈ lineWords a → s.mark w = .good) →
    s.lineBad (s.keyIndex r) a = false →
    exec (.hbmLineRead r a) s = .next { (s.loadPath a).emit (.words ((s.plainLine (s.keyIndex r) a).map (fun b => b.toNat))) with
      reply := ⟨Code.ok, BitVec.ofNat 64 (fromLE ((s.plainLine (s.keyIndex r) a).take 8))⟩ }) ∧
  (∀ (s : State) (r : Requester) (a d o : Nat) (data : Bytes), place s.part a = .hbm d o → a % 64 = 0 → data.length = 64 →
    mayHbm r = true → s.inReach r a = true → s.linksClean = true → s.bwDenied (s.keyIndex r) a 0 = none → s.inEvk a = false →
    s.pdOn 63 = true → s.badPath (a / s.part.block) (a % s.part.block) = none → (s.minorOf a).toNat < 63 →
    ∃ t, exec (.hbmLineWrite r a data) s = .next t ∧ t.reply = ⟨Code.ok, 0⟩ ∧ t.bytes a 64 = data ∧
      (∀ m, (m < a ∨ a + 64 ≤ m) → t.byte m = s.byte m) ∧ s.version a < t.version a ∧ t.keys = s.keys ∧ t.ctxs = s.ctxs ∧
      t.macHolds (s.keyIndex r) a = true ∧ t.plainLine (s.keyIndex r) a = data) ∧
  (∀ (s : State) (k a : Nat), s.bwDenied k a 1 = none → s.hbmGate = none →
    s.badPath (a / s.part.block) (a % s.part.block) = none → s.minorOf a ≠ 0 → s.anyUe (lineWords a) = false →
    s.lineBad k a = true → (s.hbmRead k a).code = Code.integrityFail ∧ (s.hbmRead k a).data = []) ∧
  (∀ (s : State) (k : Nat) (ks : List Nat), (s.port k).mark = .uncorrectable →
    s.crossPorts (k :: ks) = ((s.setPort k ⟨.good, (s.port k).ce⟩).portUe k, true)) ∧
  (∀ (s : State) (k : Nat) (ks : List Nat) (n : Fin 36) (x : BitVec 4), (s.port k).mark = .oneNibble n x →
    s.crossPorts (k :: ks) = (s.setPort k ⟨.good, (s.port k).ce + 1⟩).crossPorts ks) ∧
  (∀ (s : State) (k : Nat) (ks : List Nat), (s.port k).mark = .good → s.crossPorts (k :: ks) = s.crossPorts ks) ∧
  (∀ (s t : State) (r : Requester) (a d o : Nat), place s.part a = .hbm d o → a % 64 = 0 →
    (s.readHere r a false).stall = false → (s.readHere r a false).code = Code.ok →
    (s.readHere r a false).st.crossPorts (route d (requesterDie r)) = (t, true) →
    exec (.hbmLineRead r a) s = .next (t.done Code.eccUncorrectable)) ∧
  (∀ (s t : State) (r : Requester) (a d o : Nat) (data : Bytes), place s.part a = .hbm d o →
    s.crossPorts (route (requesterDie r) d) = (t, true) →
    exec (.hbmLineWrite r a data) s = .next (t.done Code.eccUncorrectable) ∧ t.mem = s.mem) ∧
  (∀ (a b : Nat), a < 4 → b < 4 → route a b = if a = b then [] else if (a + 1) % 4 = b ∨ (b + 1) % 4 = a then [a * 16 + b]
    else [a * 16 + (a + 1) % 4, (a + 1) % 4 * 16 + b]) ∧
  (∀ (l d : Nat), l < 4 → d < 4 → route (4 + l) d = ((4 + l) * 16 + l) :: route l d ∧ route 8 d = [8 * 16 + d])

/-- Strand control, with clean links and the strand's domain ON. STRAND_ENABLE of a READY strand starts every stage and the
strand runs; cleared on a running strand it reads 0. STRAND_DRAIN of a running strand: DRAINING; STRAND_DRAIN_DONE:
HALTED. STRAND_SRESET of a READY, HALTED or FAULTED strand zeroes it, and an I-strand's counters, with SRESET reading 1;
SRESET_DONE leaves it READY. FAULT_RECORD_CLEAR clears the record and its FAULT_STAGES bit. TWIDDLE_PREPARE_DONE takes a Q
register out of PREPARING (R94–R96, R99, R101, R171). -/
def Obligations.StrandControl : Prop :=
  (∀ (s : State) (d : Fin 4) (st : Fin 12), s.linksClean = true → s.pdOn (pdStrand d.val st.val) = true → s.sst d.val st.val = SS.ready →
    (s.strand (strandIx d.val st.val)).sreset = false →
    exec (.strandEnable d st true) s = .next (((((s.eachStage d.val st.val (fun x => { x with run := .running })).setFld
      (Reg.strandCtl d.val st.val) 31 31 1).setFld (Reg.strandStat d.val st.val) 31 29 2)).done Code.ok)) ∧
  (∀ (s : State) (d : Fin 4) (st : Fin 12), s.linksClean = true → s.pdOn (pdStrand d.val st.val) = true → s.sst d.val st.val = SS.running →
    exec (.strandEnable d st false) s = .next ((s.setFld (Reg.strandCtl d.val st.val) 31 31 0).done Code.ok)) ∧
  (∀ (s : State) (d : Fin 4) (st : Fin 12), s.linksClean = true → s.pdOn (pdStrand d.val st.val) = true → s.sst d.val st.val = SS.running →
    exec (.strandDrain d st) s = .next ((((s.eachStage d.val st.val Stage.stopBarw).setFld
      (Reg.strandCtl d.val st.val) 30 30 1).setFld
      (Reg.strandStat d.val st.val) 31 29 3).done Code.ok)) ∧
  (∀ (s : State) (d : Fin 4) (st : Fin 12), s.sst d.val st.val = SS.draining →
    exec (.strandDrainDone d st) s = .next ((((s.stopStages d.val st.val).setFld (Reg.strandCtl d.val st.val) 30 30 0).setFld
      (Reg.strandStat d.val st.val) 31 29 4).done Code.ok)) ∧
  (∀ (s : State) (d : Fin 4) (st : Fin 12), s.linksClean = true → s.pdOn (pdStrand d.val st.val) = true →
    (s.sst d.val st.val = SS.ready ∨ s.sst d.val st.val = SS.halted ∨ s.sst d.val st.val = SS.faulted) →
    ∃ t u, exec (.strandSreset d st) s = .next t ∧ u = ((s.zeroStrand d.val st.val).clearCounts d.val st.val).setFld
        (Reg.strandCtl d.val st.val) 29 29 1 ∧
      t = (u.setStrand (strandIx d.val st.val) { u.strand (strandIx d.val st.val) with sreset := true }).done Code.ok ∧
      t.fld (Reg.strandCtl d.val st.val) 29 29 = 1 ∧
      (t.strand (strandIx d.val st.val)).sreset = true ∧ t.mem = s.mem ∧ t.keys = s.keys) ∧
  (∀ (s : State) (d : Fin 4) (st : Fin 12), (s.strand (strandIx d.val st.val)).sreset = true →
    exec (.sresetDone d st) s = .next ((((s.setStrand (strandIx d.val st.val) { s.strand (strandIx d.val st.val) with
      sreset := false }).setFld (Reg.strandCtl d.val st.val) 29 29 0).setFld (Reg.strandStat d.val st.val) 31 29 1).done
      Code.ok)) ∧
  (∀ (s : State) (l : Loc), s.linksClean = true → s.pdOn (pdStrand l.d l.s) = true → ∃ t, exec (.faultRecordClear l) s = .next t ∧
    (∀ a, Reg.frBase l.d l.s l.g ≤ a → a < Reg.frBase l.d l.s l.g + 0x20 →
      t.reg a = regReset a) ∧ t.fld (Reg.strandStat l.d l.s) (16 + l.g) (16 + l.g) = 0 ∧ t.stages = s.stages ∧
    t.mem = s.mem ∧ t.reply = ⟨Code.ok, 0⟩) ∧
  (∀ (s : State) (l : Loc) (q : Fin 8), exec (.twiddlePrepareDone l q) s = .next ((s.setStage l.ix { s.stage l.ix with
    prep := (s.stage l.ix).prep &&& ~~~(BitVec.ofNat 8 (2 ^ q.val)) }).done Code.ok))

/-- Channels, with the strand's domain ON. TILE_ARRIVE of a good tile for this stage or a later one: it completes in a slot;
of a tile for an earlier stage: the stage faults FORMAT_ERROR with origin input channel. CREDIT_RETURN of a stage that is
not the first: its sender has one credit more. TILE_FORWARD of a stage with a credit, whose own SEND does not wait or did
not have the last turn: the oldest tile for a later stage leaves (R74–R78). Ingress queues. IQ_PUBLISH of a packet being
written: it is published, and the queue's level is raised; IQ_FREE_RETURN: the freed words return; IQ_ZERO_DONE: the queue
is empty and its writer sees 8,192 free words (R81, R85, R442). -/
def Obligations.ChannelsAndIngress : Prop :=
  (∀ (s : State) (l : Loc) (t : Tile) (ts : List Tile), l.g ≠ 0 → s.pdOn (pdStrand l.d l.s) = true →
    (s.stage (l.ix - 1)).chan = t :: ts → l.g ≤ t.dest.toNat →
    exec (.tileArrive l false) s = .next ((((s.setStage (l.ix - 1) { s.stage (l.ix - 1) with chan := ts }).setStage l.ix
      { (s.setStage (l.ix - 1) { s.stage (l.ix - 1) with chan := ts }).stage l.ix with
        slots := ((s.setStage (l.ix - 1) { s.stage (l.ix - 1) with chan := ts }).stage l.ix).slots ++ [t] })).done Code.ok)) ∧
  (∀ (s : State) (l : Loc) (t : Tile) (ts : List Tile), l.g ≠ 0 → s.pdOn (pdStrand l.d l.s) = true →
    (s.stage (l.ix - 1)).chan = t :: ts → t.dest.toNat < l.g →
    exec (.tileArrive l false) s = .next ((((s.setStage (l.ix - 1) { s.stage (l.ix - 1) with chan := ts }).setStage l.ix
      { (s.setStage (l.ix - 1) { s.stage (l.ix - 1) with chan := ts }).stage l.ix with
        owed := ((s.setStage (l.ix - 1) { s.stage (l.ix - 1) with chan := ts }).stage l.ix).owed + 1 })).stageFault l
          ⟨Code.formatError, Origin.inChan, 0, 0, false⟩)) ∧
  (∀ (s : State) (l : Loc), l.g ≠ 0 → (s.stage l.ix).owed ≠ 0 → s.pdOn (pdStrand l.d l.s) = true →
    ∃ t, exec (.creditReturn l) s = .next t ∧
    (t.stage (l.ix - 1)).credits = (s.stage (l.ix - 1)).credits + 1 ∧ (t.stage l.ix).owed = (s.stage l.ix).owed - 1 ∧
    t.regs = s.regs ∧ t.mem = s.mem ∧ t.reply = ⟨Code.ok, 0⟩) ∧
  (∀ (s : State) (l : Loc) (t : Tile) (rest : List Tile), s.pdOn (pdStrand l.d l.s) = true →
    takeTile (fun x => l.g < x.dest.toNat) (s.stage l.ix).slots = some (t, rest) → (s.stage l.ix).credits ≠ 0 →
    ((s.stage l.ix).fwdLast = false ∨ s.ownSend l = false) →
    exec (.tileForward l) s = .next ((s.setStage l.ix { s.stage l.ix with
      slots := rest, credits := (s.stage l.ix).credits - 1, chan := (s.stage l.ix).chan ++ [t]
      owed := (s.stage l.ix).owed + 1, fence := (s.stage l.ix).fence - 1, fwdLast := true }).done Code.ok)) ∧
(∀ (s : State) (i : Fin 16) (p : Pkt), (s.queue i.val).wr = some p → exec (.iqPublish i) s = .next (((s.setQueue i.val
    { s.queue i.val with pkts := (s.queue i.val).pkts ++ [p], wr := none }).queueLevel i.val).done Code.ok)) ∧
  (∀ (s : State) (i : Fin 16), exec (.iqFreeReturn i) s = .next ((s.setQueue i.val { s.queue i.val with unret := 0 }).done
    Code.ok)) ∧
  (∀ (s : State) (i : Fin 16), (s.queue i.val).zeroing = true → ∃ t, exec (.iqZeroDone i) s = .next t ∧
    t = (s.setQueue i.val { PktQ.zero with ce := (s.queue i.val).ce }).done Code.ok ∧ t.queueFree i.val = 8192)

/-- Recipes, with the strand's domain ON. RECIPE_LOAD begins on an UNBOUND strand, and answers BUSY on a bound one;
RECIPE_LOAD_DONE with clean links and every check passed leaves the strand READY, bound to the context, LD_STAT.CODE OK
and HBM and the keys as they were; for a context that is not RESIDENT it ends with CONTEXT_UNAVAILABLE. RECIPE_UNBIND of a
READY, HALTED or FAULTED strand leaves it UNBOUND and every stage of it zero (R103–R105, R108). -/
def Obligations.Recipes : Prop :=
  (∀ (s : State) (d : Fin 4), s.fld (Reg.ldStat d.val) 31 31 = 0 → s.fld (Reg.ldCtl d.val) 3 0 < 12 →
    s.pdOn (pdStrand d.val (s.fld (Reg.ldCtl d.val) 3 0)) = true → s.sst d.val (s.fld (Reg.ldCtl d.val) 3 0) = SS.unbound →
    exec (.recipeLoad d) s = .next ((({ s with loads := s.loads.put (fun _ => LoadSt.zero) d.val ⟨s.reg (Reg.ldCtl d.val), s.reg (Reg.ldImg d.val), s.reg (Reg.ldBind d.val)⟩ }.setFld
      (Reg.ldCtl d.val) 31 31 1).setFld (Reg.ldStat d.val) 31 31 1).done Code.ok)) ∧
  (∀ (s : State) (d : Fin 4), s.fld (Reg.ldStat d.val) 31 31 = 0 → s.fld (Reg.ldCtl d.val) 3 0 < 12 →
    s.pdOn (pdStrand d.val (s.fld (Reg.ldCtl d.val) 3 0)) = true → s.sst d.val (s.fld (Reg.ldCtl d.val) 3 0) ≠ SS.unbound →
    exec (.recipeLoad d) s = .next (((({ s with loads := s.loads.put (fun _ => LoadSt.zero) d.val LoadSt.zero }.setFld
      (Reg.ldCtl d.val) 31 31 0).setFld (Reg.ldStat d.val) 31 31 0).setFld
      (Reg.ldStat d.val) 23 16 2).done Code.busy)) ∧
  (∀ (s : State) (d : Fin 4), s.fld (Reg.ldStat d.val) 31 31 = 1 → s.linksClean = true →
    s.sst d.val (bits (s.load d.val).ctl 3 0) = SS.unbound → bits (s.load d.val).ctl 3 0 < 12 →
    s.loadCheck d.val (bits (s.load d.val).ctl 15 12) (bits (s.load d.val).ctl 3 0) = Code.ok →
    ∃ t, exec (.recipeLoadDone d) s = .next t ∧ t.fld (Reg.ldStat d.val) 31 31 = 0 ∧ t.fld (Reg.ldStat d.val) 23 16 = 0 ∧
      t.sst d.val (bits (s.load d.val).ctl 3 0) = SS.ready ∧
      t.sctx d.val (bits (s.load d.val).ctl 3 0) = bits (s.load d.val).ctl 15 12 ∧ t.mem = s.mem ∧
      t.keys = s.keys ∧ t.reply = ⟨Code.ok, 0⟩) ∧
  (∀ (s : State) (d : Fin 4), s.fld (Reg.ldStat d.val) 31 31 = 1 → s.linksClean = true →
    s.cst (bits (s.load d.val).ctl 15 12) ≠ CS.resident → s.sst d.val (bits (s.load d.val).ctl 3 0) = SS.unbound →
    exec (.recipeLoadDone d) s = .next (((({ s with loads := s.loads.put (fun _ => LoadSt.zero) d.val LoadSt.zero }.setFld
      (Reg.ldCtl d.val) 31 31 0).setFld (Reg.ldStat d.val) 31 31 0).setFld
      (Reg.ldStat d.val) 23 16 0x23).done Code.contextUnavailable)) ∧
  (∀ (s : State) (d : Fin 4), s.fld (Reg.ldCtl d.val) 3 0 < 12 → s.pdOn (pdStrand d.val (s.fld (Reg.ldCtl d.val) 3 0)) = true →
    (s.sst d.val (s.fld (Reg.ldCtl d.val) 3 0) = SS.ready ∨ s.sst d.val (s.fld (Reg.ldCtl d.val) 3 0) = SS.halted ∨
      s.sst d.val (s.fld (Reg.ldCtl d.val) 3 0) = SS.faulted) →
    ∃ t, exec (.recipeUnbind d) s = .next t ∧ t.sst d.val (s.fld (Reg.ldCtl d.val) 3 0) = SS.unbound ∧
      t.strand (strandIx d.val (s.fld (Reg.ldCtl d.val) 3 0)) = Strand.zero ∧
      (∀ g, g < kindStages (strandKind (s.fld (Reg.ldCtl d.val) 3 0)) →
        t.stage (stageIx d.val (s.fld (Reg.ldCtl d.val) 3 0) g) = Stage.zero) ∧ t.mem = s.mem ∧ t.reply = ⟨Code.ok, 0⟩)

/-- VADD.Q, VSUB.Q, VMUL.Q, VMAC.Q, VNEG.Q and BCONV of both phases, of a stage that takes the instruction, with a nonzero
modulus, readable sources and operands in range (below q; BCONV phase 1's source below 2^60): element i of the destination
is the sum, difference, product, product plus sum, negation, or product by a constant, modulo q; beside that tile register
and PC and loop stack nothing of the module changes (R141, R143, R161). VADD.Z32, VSUB.Z32, VADD.Z64 and VSUB.Z64, of a
stage that takes the instruction and whose sources are readable: the next state, with every element wrapping at its width
and the source tile's header; VSPLAT: every element is the scalar, VCNT is whole and LAST 0 (R137, R141). -/
def Obligations.VectorArithmetic : Prop :=
  (∀ (s : State) (l : Loc) (f : Fields) (t : Tile) (y : Stage), s.issues l 0x00 f
      { stages := St.zq, dst := .t, sa := .t, sb := .t, qsel := true, hints := [0, 2] } →
    (s.stage l.ix).qr f.qsel ≠ 0 → (s.stage l.ix).readable [f.b] → (s.stage l.ix).source l f = some (t, y) →
    (∀ i, i < l.words → (t.w i).toNat < ((s.stage l.ix).qr f.qsel).toNat ∧
      ((y.tr f.b).w i).toNat < ((s.stage l.ix).qr f.qsel).toNat) →
    ∃ u, exec (.vaddQ l f) s = .next u ∧ s.onlyStage u l.ix ∧ y.wroteT (u.stage l.ix) f.d ∧ u.reply = ⟨Code.ok, 0⟩ ∧
      (∀ i, i < l.words → (((u.stage l.ix).tr f.d).w i).toNat =
        ((t.w i).toNat + ((y.tr f.b).w i).toNat) % ((s.stage l.ix).qr f.qsel).toNat)) ∧
  (∀ (s : State) (l : Loc) (f : Fields) (t : Tile) (y : Stage), s.issues l 0x01 f
      { stages := St.zq, dst := .t, sa := .t, sb := .t, qsel := true, hints := [0, 2] } →
    (s.stage l.ix).qr f.qsel ≠ 0 → (s.stage l.ix).readable [f.b] → (s.stage l.ix).source l f = some (t, y) →
    (∀ i, i < l.words → (t.w i).toNat < ((s.stage l.ix).qr f.qsel).toNat ∧
      ((y.tr f.b).w i).toNat < ((s.stage l.ix).qr f.qsel).toNat) →
    ∃ u, exec (.vsubQ l f) s = .next u ∧ s.onlyStage u l.ix ∧ y.wroteT (u.stage l.ix) f.d ∧ u.reply = ⟨Code.ok, 0⟩ ∧
      (∀ i, i < l.words → ((((u.stage l.ix).tr f.d).w i).toNat : Int) =
        ((t.w i).toNat - ((y.tr f.b).w i).toNat : Int) % (((s.stage l.ix).qr f.qsel).toNat : Int))) ∧
  (∀ (s : State) (l : Loc) (f : Fields) (t : Tile) (y : Stage), s.issues l 0x02 f
      { stages := St.zq, dst := .t, sa := .t, sb := f.bFile, qsel := true, hints := [0, 2], imm := 1 } →
    (s.stage l.ix).qr f.qsel ≠ 0 → (s.stage l.ix).readable f.bRegs → (s.stage l.ix).source l f = some (t, y) →
    (∀ i, i < l.words → (t.w i).toNat < ((s.stage l.ix).qr f.qsel).toNat ∧
      y.operandB f ((s.stage l.ix).qr f.qsel).toNat i < ((s.stage l.ix).qr f.qsel).toNat) →
    ∃ u, exec (.vmulQ l f) s = .next u ∧ s.onlyStage u l.ix ∧ y.wroteT (u.stage l.ix) f.d ∧ u.reply = ⟨Code.ok, 0⟩ ∧
      (∀ i, i < l.words → (((u.stage l.ix).tr f.d).w i).toNat =
        (t.w i).toNat * y.operandB f ((s.stage l.ix).qr f.qsel).toNat i % ((s.stage l.ix).qr f.qsel).toNat)) ∧
  (∀ (s : State) (l : Loc) (f : Fields) (t : Tile) (y : Stage), s.issues l 0x03 f
     
      { stages := St.zq, dst := .t, sa := .t, sb := f.bFile, sc := .t, qsel := true, hints := [0, 2], imm := 1 } →
    (s.stage l.ix).qr f.qsel ≠ 0 → (s.stage l.ix).readable (f.c :: f.bRegs) → (s.stage l.ix).source l f = some (t, y) →
    (∀ i, i < l.words → (t.w i).toNat < ((s.stage l.ix).qr f.qsel).toNat ∧
      y.operandB f ((s.stage l.ix).qr f.qsel).toNat i < ((s.stage l.ix).qr f.qsel).toNat ∧
      ((y.tr f.c).w i).toNat < ((s.stage l.ix).qr f.qsel).toNat) →
    ∃ u, exec (.vmacQ l f) s = .next u ∧ s.onlyStage u l.ix ∧ y.wroteT (u.stage l.ix) f.d ∧ u.reply = ⟨Code.ok, 0⟩ ∧
      (∀ i, i < l.words → (((u.stage l.ix).tr f.d).w i).toNat = (((y.tr f.c).w i).toNat +
        (t.w i).toNat * y.operandB f ((s.stage l.ix).qr f.qsel).toNat i) % ((s.stage l.ix).qr f.qsel).toNat)) ∧
  (∀ (s : State) (l : Loc) (f : Fields) (t : Tile) (y : Stage), s.issues l 0x04 f
      { stages := St.zq, dst := .t, sa := .t, qsel := true, hints := [0, 2] } →
    (s.stage l.ix).qr f.qsel ≠ 0 → (s.stage l.ix).source l f = some (t, y) →
    (∀ i, i < l.words → (t.w i).toNat < ((s.stage l.ix).qr f.qsel).toNat) →
    ∃ u, exec (.vnegQ l f) s = .next u ∧ s.onlyStage u l.ix ∧ y.wroteT (u.stage l.ix) f.d ∧ u.reply = ⟨Code.ok, 0⟩ ∧
      (∀ i, i < l.words → ((((u.stage l.ix).tr f.d).w i).toNat : Int) =
        (-((t.w i).toNat : Int)) % (((s.stage l.ix).qr f.qsel).toNat : Int))) ∧
  (∀ (s : State) (l : Loc) (f : Fields) (t : Tile) (y : Stage), f.imf 0 0 = 0 → s.issues l 0x23 f
      { stages := [St.base], dst := .t, sa := .t, sc := .s, qsel := true, hints := [0, 2], imm := 1 } →
    (s.stage l.ix).qr f.qsel ≠ 0 → (s.stage l.ix).source l f = some (t, y) →
    (∀ i, i < l.words → (t.w i).toNat < ((s.stage l.ix).qr f.qsel).toNat ∧
      (y.sr f.c).toNat < ((s.stage l.ix).qr f.qsel).toNat) →
    ∃ u, exec (.bconv l f) s = .next u ∧ s.onlyStage u l.ix ∧ y.wroteT (u.stage l.ix) f.d ∧ u.reply = ⟨Code.ok, 0⟩ ∧
      (∀ i, i < l.words → (((u.stage l.ix).tr f.d).w i).toNat =
        (t.w i).toNat * (y.sr f.c).toNat % ((s.stage l.ix).qr f.qsel).toNat)) ∧
  (∀ (s : State) (l : Loc) (f : Fields) (t : Tile) (y : Stage), f.imf 0 0 = 1 → s.issues l 0x23 f
      { stages := [St.base], dst := .t, sa := .t, sc := .s, qsel := true, hints := [0, 2], imm := 1 } →
    (s.stage l.ix).qr f.qsel ≠ 0 → (s.stage l.ix).readable [f.d] → (s.stage l.ix).source l f = some (t, y) →
    (∀ i, i < l.words → (t.w i).toNat < 2 ^ 60 ∧ (y.sr f.c).toNat < ((s.stage l.ix).qr f.qsel).toNat ∧
      ((y.tr f.d).w i).toNat < ((s.stage l.ix).qr f.qsel).toNat) →
    ∃ u, exec (.bconv l f) s = .next u ∧ s.onlyStage u l.ix ∧ y.wroteT (u.stage l.ix) f.d ∧ u.reply = ⟨Code.ok, 0⟩ ∧
      (∀ i, i < l.words → (((u.stage l.ix).tr f.d).w i).toNat = (((y.tr f.d).w i).toNat +
        (t.w i).toNat % ((s.stage l.ix).qr f.qsel).toNat * (y.sr f.c).toNat) % ((s.stage l.ix).qr f.qsel).toNat)) ∧
(∀ (s : State) (l : Loc) (f : Fields) (t : Tile) (y : Stage), s.issues l 0x08 f
      { stages := [St.add], dst := .t, sa := .t, sb := .t, hints := [0, 2] } →
    (s.stage l.ix).readable [f.b] → (s.stage l.ix).source l f = some (t, y) → exec (.vaddZ32 l f) s = .next (s.retire l
      (y.setT f.d { t with words := halvesOf 1024 (fun i => t.h i + (y.tr f.b).h i) }))) ∧
  (∀ (s : State) (l : Loc) (f : Fields) (t : Tile) (y : Stage), s.issues l 0x09 f
      { stages := [St.add], dst := .t, sa := .t, sb := .t, hints := [0, 2] } →
    (s.stage l.ix).readable [f.b] → (s.stage l.ix).source l f = some (t, y) → exec (.vsubZ32 l f) s = .next (s.retire l
      (y.setT f.d { t with words := halvesOf 1024 (fun i => t.h i - (y.tr f.b).h i) }))) ∧
  (∀ (s : State) (l : Loc) (f : Fields) (t : Tile) (y : Stage), s.issues l 0x0A f
      { stages := [St.add], dst := .t, sa := .t, sb := .t, hints := [0, 2] } →
    (s.stage l.ix).readable [f.b] → (s.stage l.ix).source l f = some (t, y) → exec (.vaddZ64 l f) s = .next (s.retire l
      (y.setT f.d { t with words := wordsOf 512 (fun i => t.w i + (y.tr f.b).w i) }))) ∧
  (∀ (s : State) (l : Loc) (f : Fields) (t : Tile) (y : Stage), s.issues l 0x0B f
      { stages := [St.add], dst := .t, sa := .t, sb := .t, hints := [0, 2] } →
    (s.stage l.ix).readable [f.b] → (s.stage l.ix).source l f = some (t, y) → exec (.vsubZ64 l f) s = .next (s.retire l
      (y.setT f.d { t with words := wordsOf 512 (fun i => t.w i - (y.tr f.b).w i) }))) ∧
  (∀ (s : State) (l : Loc) (f : Fields), s.issues l 0x10 f
      { stages := St.all, dst := .t, sa := .s, imm := 1, extra := decide (f.i = 1) || decide (l.kind ≠ 2) } →
    ∃ u, exec (.vsplat l f) s = .next u ∧ s.onlyStage u l.ix ∧
    (s.stage l.ix).wroteT (u.stage l.ix) f.d ∧ ((u.stage l.ix).tr f.d).vcnt = BitVec.ofNat 16 l.tbytes ∧
    ((u.stage l.ix).tr f.d).last = false ∧ (∀ i, i < l.words → ((u.stage l.ix).tr f.d).w i =
      if f.i = 1 then ((s.stage l.ix).sr f.a).setWidth 32 ++ ((s.stage l.ix).sr f.a).setWidth 32
      else (s.stage l.ix).sr f.a))

/-- NTT and INTT of a stage that takes them, with the checks of R173 passed, no PREPARING and a readable group: only the
registers of the destination group change, and, of a prime modulus with the operands below it, the limb is the transform
of R172. PERM into a second group, in NTT form and in coefficient form: only the destination group changes, and it is the
automorphism of R142 and R174 of the source limb. NTT with a modulus register of zero that is not PREPARING faults
FORMAT_ERROR. -/
def Obligations.Transforms : Prop :=
  (∀ (s : State) (l : Loc) (f : Fields), s.issues l 0x20 f
      { stages := [St.ntt], dst := .t, qsel := true, imm := 0x1F, extra := lognOk (f.imf 4 0) && groupOk (f.imf 4 0) f.d } →
    (s.stage l.ix).qr f.qsel ≠ 0 → f.imf 4 0 + 1 ≤ twoadic ((s.stage l.ix).qr f.qsel).toNat →
    (s.stage l.ix).preparing f.qsel = false → psiOf ((s.stage l.ix).qr f.qsel).toNat ≠ none →
    (s.stage l.ix).readable (groupRegs f.d (groupSize (f.imf 4 0))) →
    ∃ u, exec (.ntt l f) s = .next u ∧ s.onlyStage u l.ix ∧ u.reply = ⟨Code.ok, 0⟩ ∧
      (∀ r, (r < f.d ∨ f.d + groupSize (f.imf 4 0) ≤ r) → (u.stage l.ix).tr r = (s.stage l.ix).tr r) ∧
      (isPrime ((s.stage l.ix).qr f.qsel).toNat = true →
        (∀ i, i < 2 ^ f.imf 4 0 → (s.stage l.ix).limb f.d i < ((s.stage l.ix).qr f.qsel).toNat) →
        ∀ j, j < 2 ^ f.imf 4 0 → (u.stage l.ix).limb f.d j =
          nttOf ((s.stage l.ix).qr f.qsel).toNat (f.imf 4 0) ((s.stage l.ix).limb f.d) j)) ∧
  (∀ (s : State) (l : Loc) (f : Fields), s.issues l 0x21 f
      { stages := [St.intt], dst := .t, qsel := true, imm := 0x1F, extra := lognOk (f.imf 4 0) && groupOk (f.imf 4 0) f.d } →
    (s.stage l.ix).qr f.qsel ≠ 0 → f.imf 4 0 + 1 ≤ twoadic ((s.stage l.ix).qr f.qsel).toNat →
    (s.stage l.ix).preparing f.qsel = false → psiOf ((s.stage l.ix).qr f.qsel).toNat ≠ none →
    (s.stage l.ix).readable (groupRegs f.d (groupSize (f.imf 4 0))) →
    ∃ u, exec (.intt l f) s = .next u ∧ s.onlyStage u l.ix ∧ u.reply = ⟨Code.ok, 0⟩ ∧
      (∀ r, (r < f.d ∨ f.d + groupSize (f.imf 4 0) ≤ r) → (u.stage l.ix).tr r = (s.stage l.ix).tr r) ∧
      (isPrime ((s.stage l.ix).qr f.qsel).toNat = true →
        (∀ i, i < 2 ^ f.imf 4 0 → (s.stage l.ix).limb f.d i < ((s.stage l.ix).qr f.qsel).toNat) →
        ∀ j, j < 2 ^ f.imf 4 0 → (u.stage l.ix).limb f.d j =
          inttOf ((s.stage l.ix).qr f.qsel).toNat (f.imf 4 0) ((s.stage l.ix).limb f.d) j)) ∧
  (∀ (s : State) (l : Loc) (f : Fields), f.imf 5 5 = 0 → s.issues l 0x22 f
      { stages := [St.perm], dst := .t, sa := .t, gsel := true, imm := 0x3F, extra :=
        lognOk (f.imf 4 0) && groupOk (f.imf 4 0) f.d && groupOk (f.imf 4 0) f.a && decide (f.d ≠ f.a) } →
    ((s.stage l.ix).gr f.gsel).toNat < 2 ^ (f.imf 4 0 + 1) →
    (s.stage l.ix).readable (groupRegs f.a (groupSize (f.imf 4 0))) →
    ∃ u, exec (.perm l f) s = .next u ∧ s.onlyStage u l.ix ∧ u.reply = ⟨Code.ok, 0⟩ ∧
      (∀ r, (r < f.d ∨ f.d + groupSize (f.imf 4 0) ≤ r) → (u.stage l.ix).tr r = (s.stage l.ix).tr r) ∧
      (∀ j, j < 2 ^ f.imf 4 0 → (u.stage l.ix).limb f.d j =
        (s.stage l.ix).limb f.a (permSlot (f.imf 4 0) ((s.stage l.ix).gr f.gsel).toNat j))) ∧
  (∀ (s : State) (l : Loc) (f : Fields), f.imf 5 5 = 1 → s.issues l 0x22 f
      { stages := [St.perm], dst := .t, sa := .t, qsel := true, gsel := true, imm := 0x3F, extra :=
        lognOk (f.imf 4 0) && groupOk (f.imf 4 0) f.d && groupOk (f.imf 4 0) f.a && decide (f.d ≠ f.a) } →
    ((s.stage l.ix).gr f.gsel).toNat < 2 ^ (f.imf 4 0 + 1) → (s.stage l.ix).qr f.qsel ≠ 0 →
    (s.stage l.ix).readable (groupRegs f.a (groupSize (f.imf 4 0))) →
    (∀ i, i < 2 ^ f.imf 4 0 → (s.stage l.ix).limb f.a i < ((s.stage l.ix).qr f.qsel).toNat) →
    ∃ u, exec (.perm l f) s = .next u ∧ s.onlyStage u l.ix ∧ u.reply = ⟨Code.ok, 0⟩ ∧
      (∀ r, (r < f.d ∨ f.d + groupSize (f.imf 4 0) ≤ r) → (u.stage l.ix).tr r = (s.stage l.ix).tr r) ∧
      (∀ j, j < 2 ^ f.imf 4 0 → (u.stage l.ix).limb f.d j =
        if (permCoef (f.imf 4 0) ((s.stage l.ix).gr f.gsel).toNat j).2 then (((s.stage l.ix).qr f.qsel).toNat -
          (s.stage l.ix).limb f.a (permCoef (f.imf 4 0) ((s.stage l.ix).gr f.gsel).toNat j).1) %
            ((s.stage l.ix).qr f.qsel).toNat
        else (s.stage l.ix).limb f.a (permCoef (f.imf 4 0) ((s.stage l.ix).gr f.gsel).toNat j).1)) ∧
  (∀ (s : State) (l : Loc) (f : Fields), s.issues l 0x20 f
      { stages := [St.ntt], dst := .t, qsel := true, imm := 0x1F, extra := lognOk (f.imf 4 0) && groupOk (f.imf 4 0) f.d } →
    (s.stage l.ix).qr f.qsel = 0 → (s.stage l.ix).preparing f.qsel = false → exec (.ntt l f) s = .next (s.stageFault l (.insn Code.formatError)))

/-- SLI, SLU, SADD, SSUB, SMUL, SAND, SOR, SXOR, SSHL, SSHR and SRD, of a stage that takes the instruction: the next state,
with S[DST] written and the instruction retired (R109–R111, R159, R161). SCMP, PSET, SWR, QSET, GSET and DSET, of a stage
that takes the instruction: the predicate, F_STAT, modulus, exponent or descriptor written (SCMP and PSET leave P0 reading
1; SWR acts on F-stages alone), for a valid modulus, ROM index, exponent or descriptor; QSET of an invalid modulus faults
FORMAT_ERROR (R109–R111, R113, R159, R164). -/
def Obligations.ScalarsAndPredicates : Prop :=
  (∀ (s : State) (l : Loc) (f : Fields), s.issues l 0xC0 f { stages := St.all, dst := .s, imm := 0xFFFFFF } →
    exec (.sli l f) s = .next (s.retire l ((s.stage l.ix).setS f.d (f.imm.signExtend 64)))) ∧
  (∀ (s : State) (l : Loc) (f : Fields), s.issues l 0xC1 f { stages := St.all, dst := .s, imm := 0xFFFFFF } →
    exec (.slu l f) s = .next (s.retire l ((s.stage l.ix).setS f.d
      (BitVec.ofNat 64 (((s.stage l.ix).sr f.d).toNat * 2 ^ 24 + f.imm.toNat))))) ∧
  (∀ (s : State) (l : Loc) (f : Fields), s.issues l 0xC2 f { stages := St.all, dst := .s, sa := .s, sb := .s } →
    exec (.sadd l f) s = .next (s.retire l ((s.stage l.ix).setS f.d ((s.stage l.ix).sr f.a + (s.stage l.ix).sr f.b)))) ∧
  (∀ (s : State) (l : Loc) (f : Fields), s.issues l 0xC3 f { stages := St.all, dst := .s, sa := .s, sb := .s } →
    exec (.ssub l f) s = .next (s.retire l ((s.stage l.ix).setS f.d ((s.stage l.ix).sr f.a - (s.stage l.ix).sr f.b)))) ∧
  (∀ (s : State) (l : Loc) (f : Fields), s.issues l 0xC4 f { stages := St.all, dst := .s, sa := .s, sb := .s } →
    exec (.smul l f) s = .next (s.retire l ((s.stage l.ix).setS f.d ((s.stage l.ix).sr f.a * (s.stage l.ix).sr f.b)))) ∧
  (∀ (s : State) (l : Loc) (f : Fields), s.issues l 0xC5 f { stages := St.all, dst := .s, sa := .s, sb := .s } →
    exec (.sand l f) s = .next (s.retire l ((s.stage l.ix).setS f.d ((s.stage l.ix).sr f.a &&& (s.stage l.ix).sr f.b)))) ∧
  (∀ (s : State) (l : Loc) (f : Fields), s.issues l 0xC6 f { stages := St.all, dst := .s, sa := .s, sb := .s } →
    exec (.sor l f) s = .next (s.retire l ((s.stage l.ix).setS f.d ((s.stage l.ix).sr f.a ||| (s.stage l.ix).sr f.b)))) ∧
  (∀ (s : State) (l : Loc) (f : Fields), s.issues l 0xC7 f { stages := St.all, dst := .s, sa := .s, sb := .s } →
    exec (.sxor l f) s = .next (s.retire l ((s.stage l.ix).setS f.d ((s.stage l.ix).sr f.a ^^^ (s.stage l.ix).sr f.b)))) ∧
  (∀ (s : State) (l : Loc) (f : Fields), s.issues l 0xC8 f { stages := St.all, dst := .s, sa := .s, imm := 0x3F } →
    exec (.sshl l f) s = .next (s.retire l ((s.stage l.ix).setS f.d ((s.stage l.ix).sr f.a <<< f.imf 5 0)))) ∧
  (∀ (s : State) (l : Loc) (f : Fields), s.issues l 0xC9 f { stages := St.all, dst := .s, sa := .s, imm := 0x7F } →
    exec (.sshr l f) s = .next (s.retire l ((s.stage l.ix).setS f.d (if f.imf 6 6 = 1 then
      ((s.stage l.ix).sr f.a).sshiftRight (f.imf 5 0) else (s.stage l.ix).sr f.a >>> f.imf 5 0)))) ∧
  (∀ (s : State) (l : Loc) (f : Fields), s.issues l 0xCC f { stages := St.all, dst := .s, imm := 0xF } →
    exec (.srd l f) s = .next (s.retire l ((s.stage l.ix).setS f.d (s.sysReg l (s.stage l.ix) f.i)))) ∧
(∀ (s : State) (l : Loc) (f : Fields), s.issues l 0xCA f
      { stages := St.all, dst := .p, sa := .s, sb := .s, imm := 7, extra := decide (f.i ≤ 5) } →
    ∃ u, exec (.scmp l f) s = .next u ∧ s.onlyStage u l.ix ∧ u.reply = ⟨Code.ok, 0⟩ ∧
    (u.stage l.ix).pr 0 = true ∧ (f.d ≠ 0 → (u.stage l.ix).pr f.d =
      (if f.i = 0 then decide ((s.stage l.ix).sr f.a = (s.stage l.ix).sr f.b)
       else if f.i = 1 then decide ((s.stage l.ix).sr f.a ≠ (s.stage l.ix).sr f.b)
       else if f.i = 2 then decide (((s.stage l.ix).sr f.a).toNat < ((s.stage l.ix).sr f.b).toNat)
       else if f.i = 3 then decide (((s.stage l.ix).sr f.b).toNat ≤ ((s.stage l.ix).sr f.a).toNat)
       else if f.i = 4 then decide (((s.stage l.ix).sr f.a).toInt < ((s.stage l.ix).sr f.b).toInt)
       else decide (((s.stage l.ix).sr f.b).toInt ≤ ((s.stage l.ix).sr f.a).toInt))) ∧
    (∀ r, r < 8 → r ≠ f.d → (u.stage l.ix).pr r = (s.stage l.ix).pr r)) ∧
  (∀ (s : State) (l : Loc) (f : Fields), s.issues l 0xCB f { stages := St.all, dst := .p, sa := .p, sb := .p, imm := 3 } →
    exec (.pset l f) s = .next (s.retire l ((s.stage l.ix).setP f.d
      (if f.i = 0 then (s.stage l.ix).pr f.a && (s.stage l.ix).pr f.b
       else if f.i = 1 then (s.stage l.ix).pr f.a || (s.stage l.ix).pr f.b
       else if f.i = 2 then (s.stage l.ix).pr f.a != (s.stage l.ix).pr f.b
       else (s.stage l.ix).pr f.a && !(s.stage l.ix).pr f.b)))) ∧
  (∀ (s : State) (l : Loc) (f : Fields), l.kind = 2 → s.issues l 0xCD f
      { stages := St.all, sa := .s, imm := 0xF, extra := decide (f.i = 5) } → exec (.swr l f) s = .next ((s.retire l { s.stage l.ix with
        fstat := (s.stage l.ix).fstat &&& ~~~((s.stage l.ix).sr f.a) }).fsatRefresh l)) ∧
  (∀ (s : State) (l : Loc) (f : Fields), l.kind ≠ 2 → s.issues l 0xCD f
      { stages := St.all, sa := .s, imm := 0xF, extra := decide (f.i = 5) } → exec (.swr l f) s = .next (s.retire l (s.stage l.ix))) ∧
  (∀ (s : State) (l : Loc) (f : Fields), s.issues l 0xCE f { stages := St.is ++ St.cs, dst := .q, sa := .s, imm := 1 } →
    f.i = 0 → modulusOk ((s.stage l.ix).sr f.a).toNat = true → exec (.qset l f) s = .next (s.retire l
      ((s.stage l.ix).loadQ l.name f.d ((s.stage l.ix).sr f.a).toNat))) ∧
  (∀ (s : State) (l : Loc) (f : Fields), s.issues l 0xCE f { stages := St.is ++ St.cs, dst := .q, sa := .s, imm := 1 } →
    f.i = 1 → ((s.stage l.ix).sr f.a).toNat < 64 → exec (.qset l f) s = .next (s.retire l
      ((s.stage l.ix).loadQ l.name f.d (romQ ((s.stage l.ix).sr f.a).toNat)))) ∧
  (∀ (s : State) (l : Loc) (f : Fields), s.issues l 0xCE f { stages := St.is ++ St.cs, dst := .q, sa := .s, imm := 1 } →
    f.i = 0 → modulusOk ((s.stage l.ix).sr f.a).toNat = false →
    exec (.qset l f) s = .next (s.stageFault l (.insn Code.formatError))) ∧
  (∀ (s : State) (l : Loc) (f : Fields), s.issues l 0xCF f { stages := St.cs, dst := .g, sa := .s } →
    ((s.stage l.ix).sr f.a).toNat % 2 = 1 → ((s.stage l.ix).sr f.a).toNat < 2 ^ 18 → exec (.gset l f) s = .next (s.retire l
      ((s.stage l.ix).setG f.d (BitVec.ofNat 18 ((s.stage l.ix).sr f.a).toNat)))) ∧
  (∀ (s : State) (l : Loc) (f : Fields), s.issues l 0xD0 f { stages := St.all, dst := .d, sa := .s, sb := .s } →
    ((s.stage l.ix).sr f.b).toNat / 2 ^ 56 ≤ 4 → ((s.stage l.ix).sr f.a).toNat % 64 = 0 →
    exec (.dset l f) s = .next (s.retire l ((s.stage l.ix).setD f.d ((s.stage l.ix).sr f.b ++ (s.stage l.ix).sr f.a))))

/-- Tile loads and stores through a memory descriptor (R113, R145): LDT, at a 64-byte aligned offset whose lines the
descriptor gives and the accesses reach without a stall or a failure, completes with its tile register holding a tile of
the bytes those line reads deliver, in the state the reads leave; STT of a stage other than ROUND, with a whole source
tile under the same conditions, completes in the state that writing the tile's bytes to those lines leaves, its registers
as before. A descriptor that is not in form is FORMAT_ERROR on STT; one whose lines LDT's offset leaves is ACCESS_BOUNDS
at the descriptor's base. Of ROUND's STT and of failing accesses nothing is said here. -/
def Obligations.TileMoves : Prop :=
  (∀ (s : State) (l : Loc) (f : Fields) (ls : List Nat), s.issues l 0x40 f (ldtShape l) →
    (s.descA l f).ok l.s 1 [1, 2, 3] = true → (s.descA l f).kind ≠ 3 →
    (s.stage l.ix).offset f % 64 = 0 →
    (s.descA l f).lines ((s.stage l.ix).offset f) (moveSize l f) = some ls →
    (bankOnly l = true → ls.any s.isHbm = false) → (s.runLines l.req false (ls.map (fun a => (a, none)))).stall = false →
    (s.runLines l.req false (ls.map (fun a => (a, none)))).err = none →
    exec (.ldt l f) s = .next ((s.runLines l.req false (ls.map (fun a => (a, none)))).st.retire l ((s.stage l.ix).setT f.d
      (Tile.fresh l.tbytes (loadedWords l f (s.runLines l.req false (ls.map (fun a => (a, none)))).data))))) ∧
  (∀ (s : State) (l : Loc) (f : Fields) (ls : List Nat), s.issues l 0x41 f (sttShape l) → l.kind ≠ 2 →
    (s.descD l f).ok l.s 1 [1, 2, 3] = true → (s.descD l f).kind ≠ 3 →
    (s.stage l.ix).offset f % 64 = 0 → ((s.stage l.ix).tr f.a).bad = none →
    (s.descD l f).lines ((s.stage l.ix).offset f) (moveSize l f) = some ls →
    (bankOnly l = true → ls.any s.isHbm = false) →
    (s.runLines l.req false (tileOps (((s.stage l.ix).tr f.a).bytes l.tbytes) ls)).stall = false →
    (s.runLines l.req false (tileOps (((s.stage l.ix).tr f.a).bytes l.tbytes) ls)).err = none →
    exec (.stt l f) s = .next ((s.runLines l.req false (tileOps (((s.stage l.ix).tr f.a).bytes l.tbytes) ls)).st.retire l
      ((s.stage l.ix).raiseFlags f.a false false))) ∧
  (∀ (s : State) (l : Loc) (f : Fields), s.issues l 0x41 f (sttShape l) →
    (s.descD l f).ok l.s 1 [1, 2, 3] = false →
    exec (.stt l f) s = .next (s.stageFault l (.insn Code.formatError))) ∧
  (∀ (s : State) (l : Loc) (f : Fields), s.issues l 0x40 f (ldtShape l) →
    (s.descA l f).ok l.s 1 [1, 2, 3] = true → (s.descA l f).kind ≠ 3 →
    (s.stage l.ix).offset f % 64 = 0 →
    (s.descA l f).lines ((s.stage l.ix).offset f) (moveSize l f) = none →
    exec (.ldt l f) s = .next (s.stageFault l (.mem Code.accessBounds (s.descA l f).base)))

/-- Cipher headers through a CIPHER descriptor (R114, R116, R131, R145), with the form fields zero, a LENGTH of at least 64
and a line the stage may reach: LDT whose reads neither stall nor fail completes with the named entry of the strand's
table equal to the 64 bytes read, once the header passes its check, and takes the check's code where it does not; STT
whose entry is not poisoned and whose writes neither stall nor fail completes in the state those writes leave, with the
export that a store of hint 3 notes; STT with hint 3 of a poisoned entry is POISONED_OPERAND, writes no memory, and adds 1
to the context's count of refused releases. QPOP, SEND and RECV (R118, R119, R146–R148). QPOP of the strand's Tideway
queue, in a RUNNING strand: the whole packet at the head leaves the queue, its head words go to scalars and its tiles to
tile registers that all exist, and P6 is set where the instruction asks for it; with an empty queue and that bit it
completes with P6 clear. SEND with a credit, no fence and no forwarded tile whose turn it is puts its source tile on the
channel with the DEST and LAST of the instruction and takes one credit; without a credit it waits. RECV takes the oldest
slot's tile into its register where that tile has no data error; without one it waits. Of QPOP's other queues nothing is
said here. -/
def Obligations.HeadersAndStreams : Prop :=
  (∀ (s : State) (l : Loc) (f : Fields) (r : Run), s.issues l 0x40 f (ldtShape l) →
    (s.descA l f).ok l.s 1 [3] = true → f.d = 0 → f.b = 0 → f.i = 0 → 64 ≤ (s.descA l f).length →
    (bankOnly l = true → s.isHbm (s.descA l f).base = false) →
    r = s.runLines l.req false (readOps (s.descA l f).base 64) → r.good →
    r.st.hdrCheck (r.st.ctxOf l) (Hdr.of (BitVec.ofNat 512 (fromLE r.data))) = none →
    exec (.ldt l f) s = .next ((r.st.setCipher l (s.descA l f).index (BitVec.ofNat 512 (fromLE r.data))).retire l
      (s.stage l.ix))) ∧
  (∀ (s : State) (l : Loc) (f : Fields) (r : Run) (e : Byte), s.issues l 0x40 f (ldtShape l) →
    (s.descA l f).ok l.s 1 [3] = true → f.d = 0 → f.b = 0 → f.i = 0 → 64 ≤ (s.descA l f).length →
    (bankOnly l = true → s.isHbm (s.descA l f).base = false) →
    r = s.runLines l.req false (readOps (s.descA l f).base 64) → r.good →
    r.st.hdrCheck (r.st.ctxOf l) (Hdr.of (BitVec.ofNat 512 (fromLE r.data))) = some e →
    exec (.ldt l f) s = .next (r.st.stageFault l (.insn e))) ∧
  (∀ (s : State) (l : Loc) (f : Fields) (r : Run), s.issues l 0x41 f (sttShape l) →
    (s.descD l f).ok l.s 1 [3] = true → f.b = 0 → f.i = 0 → 64 ≤ (s.descD l f).length →
    (bankOnly l = true → s.isHbm (s.descD l f).base = false) →
    poisoned (s.cipher l (s.descD l f).index) = false →
    r = s.runLines l.req false (writeOps (s.descD l f).base (le 64 (s.cipher l (s.descD l f).index).toNat)) → r.good →
    exec (.stt l f) s = .next ((r.st.noteExport l f (s.descD l f).base).retire l (s.stage l.ix))) ∧
  (∀ (s : State) (l : Loc) (f : Fields), s.issues l 0x41 f (sttShape l) → f.hint = 3 →
    (s.descD l f).ok l.s 1 [3] = true → f.b = 0 → f.i = 0 → 64 ≤ (s.descD l f).length →
    (bankOnly l = true → s.isHbm (s.descD l f).base = false) →
    poisoned (s.cipher l (s.descD l f).index) = true →
    exec (.stt l f) s = .next ((s.setCtx (s.ctxOf l) { s.ctx (s.ctxOf l) with
      poisoned := (s.ctx (s.ctxOf l)).poisoned + 1 }).stageFault l (.insn Code.poisonedOperand))) ∧
(∀ (s : State) (l : Loc) (f : Fields) (p : Pkt) (ps : List Pkt), s.issues l 0x42 f
      { stages := [St.intake, St.load, St.convert], dst := .t, sa := .s, imm := 0x13, extra := decide (f.imf 1 0 ≠ 3) &&
        (decide (f.imf 1 0 ≠ 0) || decide (l.name = St.intake)) && decide (f.a ≤ 29) } →
    f.imf 1 0 = 1 → s.sst l.d l.s = SS.running → (s.queue (100 + strandIx l.d l.s)).pkts = p :: ps → p.bad = false →
    f.d + (plainPktTiles l p).length ≤ l.tregs →
    exec (.qpop l f) s = .next ((s.setQueue (100 + strandIx l.d l.s) { s.queue (100 + strandIx l.d l.s) with
      pkts := ps, unret := 0, ce := (s.queue (100 + strandIx l.d l.s)).ce + p.fixed }).retire l (if f.imf 4 4 = 1 then
        (((s.stage l.ix).headWords f.a p).putTiles f.d (plainPktTiles l p)).setP 6 true
      else ((s.stage l.ix).headWords f.a p).putTiles f.d (plainPktTiles l p)))) ∧
  (∀ (s : State) (l : Loc) (f : Fields), s.issues l 0x42 f
      { stages := [St.intake, St.load, St.convert], dst := .t, sa := .s, imm := 0x13, extra := decide (f.imf 1 0 ≠ 3) &&
        (decide (f.imf 1 0 ≠ 0) || decide (l.name = St.intake)) && decide (f.a ≤ 29) } →
    f.imf 1 0 = 1 → f.imf 4 4 = 1 → (s.queue (100 + strandIx l.d l.s)).pkts = [] →
    exec (.qpop l f) s = .next (s.retire l ((s.stage l.ix).setP 6 false))) ∧
  (∀ (s : State) (l : Loc) (f : Fields) (t : Tile) (y : Stage), s.issues l 0x43 f
      { stages := [0, 1, 2, 3, 8, 9, 10, 11, 12, 13, 14, 16, 17, 18], sa := .t, hints := [0, 2], imm := 0xF, extra :=
        decide (l.g < f.imf 2 0) && decide (f.imf 2 0 < kindStages l.kind) } →
    (s.stage l.ix).credits ≠ 0 → (s.stage l.ix).fence = 0 → (s.stage l.ix).fwdTurn l.g = false → (s.stage l.ix).source l f = some (t, y) →
    exec (.send l f) s = .next (s.retire l { y with
      chan := y.chan ++ [{ t with dest := BitVec.ofNat 8 (f.imf 2 0), last := decide (f.imf 3 3 = 1) }]
      credits := y.credits - 1, fwdLast := false })) ∧
  (∀ (s : State) (l : Loc) (f : Fields), s.issues l 0x43 f
      { stages := [0, 1, 2, 3, 8, 9, 10, 11, 12, 13, 14, 16, 17, 18], sa := .t, hints := [0, 2], imm := 0xF, extra :=
        decide (l.g < f.imf 2 0) && decide (f.imf 2 0 < kindStages l.kind) } →
    (s.stage l.ix).credits = 0 → exec (.send l f) s = .next (s.done Code.deferred)) ∧
  (∀ (s : State) (l : Loc) (f : Fields) (t : Tile) (y : Stage), s.issues l 0x44 f
      { stages := [1, 2, 3, 4, 9, 10, 11, 12, 13, 14, 15, 17, 18, 19], dst := .t } →
    (s.stage l.ix).takeSlot l.g = some (t, y) → t.dataErr = false →
    exec (.recv l f) s = .next (s.retire l (y.setT f.d t))) ∧
  (∀ (s : State) (l : Loc) (f : Fields), s.issues l 0x44 f
      { stages := [1, 2, 3, 4, 9, 10, 11, 12, 13, 14, 15, 17, 18, 19], dst := .t } →
    (s.stage l.ix).takeSlot l.g = none → exec (.recv l f) s = .next (s.done Code.deferred))

/-- CMRG (R129, R130, R152, R153) on entries in form whose headers pass their checks: with two sources, and with one source
and the scale step of its immediate, it completes with the merged header in the destination's entry where that header is
poisoned, or where the sources suit each other and stay within their level's operations; with two sources that suit each
other but go over the operations it is LEVEL_EXHAUSTED and leaves a poisoned entry of SA's LEVEL and SCALE_EXP; with two
sources that do not suit each other it is FORMAT_ERROR. -/
def Obligations.CipherMerge : Prop :=
  (∀ (s : State) (l : Loc) (f : Fields) (h : Hdr), f.imf 1 0 ≠ 1 → s.issues l 0x64 f
      { stages := St.cs, dst := .d, sa := .d, sb := .d, imm := 0xFFFF03,
        extra := decide (f.imf 1 0 ≠ 3) && decide (f.imf 23 8 = 0) } →
    (s.descD l f).ok l.s 1 [3] = true → (s.descA l f).ok l.s 1 [3] = true → (s.descB l f).ok l.s 1 [3] = true →
    s.hdrCheck (s.ctxOf l) (s.hdrA l f) = none → s.hdrCheck (s.ctxOf l) (s.hdrB l f) = none →
    s.hdrCheck (s.ctxOf l) (s.hdrD l f) = none →
    h = cmrgEntry (f.imf 1 0) 0 (s.hdrA l f) (s.hdrB l f) (s.hdrD l f) →
    (h.poison = true ∨ (cmrgBad (f.imf 1 0) 0 (s.hdrA l f) (s.hdrB l f) = false ∧
      s.opsOver (s.ctxOf l) (f.imf 1 0) (s.hdrA l f) (s.hdrB l f) = false)) →
    exec (.cmrg l f) s = .next ((s.putHdr l (s.descD l f).index h).retire l (s.stage l.ix))) ∧
  (∀ (s : State) (l : Loc) (f : Fields) (h : Hdr), f.imf 1 0 = 1 → s.issues l 0x64 f
      { stages := St.cs, dst := .d, sa := .d, imm := 0xFFFF03 } →
    (s.descD l f).ok l.s 1 [3] = true → (s.descA l f).ok l.s 1 [3] = true →
    s.hdrCheck (s.ctxOf l) (s.hdrA l f) = none → s.hdrCheck (s.ctxOf l) (s.hdrD l f) = none →
    h = cmrgEntry 1 (BitVec.ofNat 16 (f.imf 23 8)).toInt (s.hdrA l f) (s.hdrA l f) (s.hdrD l f) →
    (h.poison = true ∨ (cmrgBad 1 (BitVec.ofNat 16 (f.imf 23 8)).toInt (s.hdrA l f) (s.hdrA l f) = false ∧
      s.opsOver (s.ctxOf l) 1 (s.hdrA l f) (s.hdrA l f) = false)) →
    exec (.cmrg l f) s = .next ((s.putHdr l (s.descD l f).index h).retire l (s.stage l.ix))) ∧
  (∀ (s : State) (l : Loc) (f : Fields) (h : Hdr), f.imf 1 0 ≠ 1 → s.issues l 0x64 f
      { stages := St.cs, dst := .d, sa := .d, sb := .d, imm := 0xFFFF03,
        extra := decide (f.imf 1 0 ≠ 3) && decide (f.imf 23 8 = 0) } →
    (s.descD l f).ok l.s 1 [3] = true → (s.descA l f).ok l.s 1 [3] = true → (s.descB l f).ok l.s 1 [3] = true →
    s.hdrCheck (s.ctxOf l) (s.hdrA l f) = none → s.hdrCheck (s.ctxOf l) (s.hdrB l f) = none →
    s.hdrCheck (s.ctxOf l) (s.hdrD l f) = none →
    h = cmrgEntry (f.imf 1 0) 0 (s.hdrA l f) (s.hdrB l f) (s.hdrD l f) → h.poison = false →
    cmrgBad (f.imf 1 0) 0 (s.hdrA l f) (s.hdrB l f) = false →
    s.opsOver (s.ctxOf l) (f.imf 1 0) (s.hdrA l f) (s.hdrB l f) = true →
    exec (.cmrg l f) s = .next ((s.putHdr l (s.descD l f).index { h.poisonedOf with
      level := (s.hdrA l f).level, scale := (s.hdrA l f).scale }).stageFault l (.insn Code.levelExhausted))) ∧
  (∀ (s : State) (l : Loc) (f : Fields) (h : Hdr), f.imf 1 0 ≠ 1 → s.issues l 0x64 f
      { stages := St.cs, dst := .d, sa := .d, sb := .d, imm := 0xFFFF03,
        extra := decide (f.imf 1 0 ≠ 3) && decide (f.imf 23 8 = 0) } →
    (s.descD l f).ok l.s 1 [3] = true → (s.descA l f).ok l.s 1 [3] = true → (s.descB l f).ok l.s 1 [3] = true →
    s.hdrCheck (s.ctxOf l) (s.hdrA l f) = none → s.hdrCheck (s.ctxOf l) (s.hdrB l f) = none →
    s.hdrCheck (s.ctxOf l) (s.hdrD l f) = none →
    h = cmrgEntry (f.imf 1 0) 0 (s.hdrA l f) (s.hdrB l f) (s.hdrD l f) → h.poison = false →
    cmrgBad (f.imf 1 0) 0 (s.hdrA l f) (s.hdrB l f) = true →
    exec (.cmrg l f) s = .next (s.stageFault l (.insn Code.formatError)))

/-- RESC and MODX (R129, R130, R144, R177, R178) on a TYPE 1 source in coefficient form whose header and destination pass
their checks: a poisoned source completes with the destination's header written and no data moved; with the level to drop
and accesses that neither stall nor fail, the source is read, the result's words are written at the new header's DATA_PTR
and then the header, and the instruction completes; RESC without a level is LEVEL_EXHAUSTED and leaves the poisoned
header. RFR (R129, R151, R234–R236, R241) on B sources of TYPE 2 and one LWE size, set and key tag, whose headers and
destinations pass their checks, with a table of a legal size: a stream not registered as a refresh key is ACCESS_BOUNDS; a
poisoned source completes with every result's header written poisoned; otherwise, with the stream long enough, its chunks,
the table and the sources read and nothing stalling or failing, every result's words are written at its destination's
DATA_PTR, then every header, and RFR completes. Values that the specification leaves open are free values
(notes/assumptions/2.md). -/
def Obligations.LevelDropsAndRefresh : Prop :=
  (∀ (s : State) (l : Loc) (f : Fields) (p : Machine.PSet) (new : Hdr), s.issues l 0x24 f
      { stages := [St.base], dst := .d, sa := .d } →
    (s.descD l f).ok l.s 1 [3] = true → (s.descA l f).ok l.s 1 [3] = true →
    s.hdrCheck (s.ctxOf l) (s.hdrA l f) = none → s.hdrCheck (s.ctxOf l) (s.hdrD l f) = none →
    s.pset (s.ctxOf l) (s.hdrA l f).pset = some p →
    (s.hdrA l f).typ = 1 → (s.hdrA l f).ntt = false → (s.hdrA l f).ptLog = 0 →
    new = s.rescEntry true 1 p (s.hdrA l f) (s.hdrD l f) →
    ((s.hdrA l f).poison = true →
      exec (.resc l f) s = .next (((s.took 1).putHdr l (s.descD l f).index new).retire l (s.stage l.ix))) ∧
    ((s.hdrA l f).poison = false → (s.hdrA l f).level = 0 →
      exec (.resc l f) s = .next ((s.putHdr l (s.descD l f).index new.poisonedOf).stageFault l
        (.insn Code.levelExhausted))) ∧
    (∀ r w : Run, (s.hdrA l f).poison = false → 1 ≤ (s.hdrA l f).level →
      r = (s.took 1).runLines l.req false (readOps (s.hdrA l f).ptr (s.hdrA l f).len) → r.good →
      w = (r.st.took (2 * new.limbs * 2 ^ (s.hdrA l f).logn)).runLines l.req false
        (writeOps new.ptr (r.st.rescOut true p (s.hdrA l f) new r.data)) → w.good →
      exec (.resc l f) s = .next ((w.st.putHdr l (s.descD l f).index new).retire l (s.stage l.ix)))) ∧
  (∀ (s : State) (l : Loc) (f : Fields) (p : Machine.PSet) (new : Hdr), s.issues l 0x25 f
      { stages := [St.base], dst := .d, sa := .d, imm := 0x3F } →
    (s.descD l f).ok l.s 1 [3] = true → (s.descA l f).ok l.s 1 [3] = true →
    s.hdrCheck (s.ctxOf l) (s.hdrA l f) = none → s.hdrCheck (s.ctxOf l) (s.hdrD l f) = none →
    s.pset (s.ctxOf l) (s.hdrA l f).pset = some p →
    (s.hdrA l f).typ = 1 → (s.hdrA l f).ntt = false → f.i ≠ 0 → f.i < (s.hdrA l f).limbs →
    new = s.rescEntry false ((s.hdrA l f).limbs - f.i) p (s.hdrA l f) (s.hdrD l f) →
    ((s.hdrA l f).poison = true →
      exec (.modx l f) s = .next (((s.took 1).putHdr l (s.descD l f).index new).retire l (s.stage l.ix))) ∧
    (∀ r w : Run, (s.hdrA l f).poison = false → (s.hdrA l f).limbs - f.i ≤ (s.hdrA l f).level →
      r = (s.took 1).runLines l.req false (readOps (s.hdrA l f).ptr (s.hdrA l f).len) → r.good →
      w = (r.st.took (2 * new.limbs * 2 ^ (s.hdrA l f).logn)).runLines l.req false
        (writeOps new.ptr (r.st.rescOut false p (s.hdrA l f) new r.data)) → w.good →
      exec (.modx l f) s = .next ((w.st.putHdr l (s.descD l f).index new).retire l (s.stage l.ix)))) ∧
(∀ (s : State) (l : Loc) (f : Fields) (hs : List Hdr) (p : Machine.PSet), s.issues l 0x61 f
      { stages := [St.kacc], dst := .d, sa := .d, sb := .d, sc := .d, imm := 0xF } →
    (s.descD l f).ok l.s (f.i + 1) [3] = true → (s.descA l f).ok l.s (f.i + 1) [3] = true →
    (s.descB l f).ok l.s 1 [4] = true → (s.descC l f).ok l.s 1 [1] = true →
    hs = (List.range (f.i + 1)).map (fun k => s.hdr l ((s.descA l f).index + k)) →
    (∀ g, g ∈ hs → s.hdrCheck (s.ctxOf l) g = none ∧ g.typ = 2 ∧ g.lweN = (s.hdrA l f).lweN ∧
      g.pset = (s.hdrA l f).pset ∧ g.keytag = (s.hdrA l f).keytag) →
    (∀ k, k < f.i + 1 → s.hdrCheck (s.ctxOf l) (s.hdr l ((s.descD l f).index + k)) = none) →
    s.pset (s.ctxOf l) (s.hdrA l f).pset = some p → (s.descC l f).length ≤ 16384 → (s.descC l f).length % 8 = 0 →
    (s.keyRegistered (s.ctxOf l) (s.descB l f) [5] = false →
      exec (.rfr l f) s = .next (s.stageFault l (.insn Code.accessBounds))) ∧
    (s.keyRegistered (s.ctxOf l) (s.descB l f) [5] = true → hs.any Hdr.poison = true →
      exec (.rfr l f) s = .next (((List.range (f.i + 1)).foldl (fun t k => t.putHdr l ((s.descD l f).index + k)
        (rfrEntry (hs.getD k (s.hdrA l f)) (t.hdr l ((s.descD l f).index + k)) true)) s).retire l (s.stage l.ix))) ∧
    (∀ k b r w : Run, s.keyRegistered (s.ctxOf l) (s.descB l f) [5] = true → hs.any Hdr.poison = false →
      rfrLen p.lweN (dataLen 3 p.logn 1 p.dnum 0) ≤ (s.descB l f).length →
      k = s.readChunks l (s.chunkFault (s.ctxOf l) [(s.hdrA l f).keytag] (rfrShape p (s.hdrA l f).pset))
        (rfrChunks (s.descB l f).base p.lweN (dataLen 3 p.logn 1 p.dnum 0)) → k.good →
      b = k.st.runLines l.req false (readOps (s.descC l f).base (s.descC l f).length) → b.good →
      lutOk p (b.data.take (s.descC l f).length) = true →
      r = b.st.runLines l.req false ((hs.map (fun g => readOps g.ptr g.len)).flatten) → r.good →
      w = r.st.runLines l.req false (((List.range (f.i + 1)).map (fun j => writeOps (r.st.hdr l ((s.descD l f).index + j)).ptr
        (r.st.rfrOut p (s.hdrA l f) (b.data.take (s.descC l f).length) (sub r.data (j * (s.hdrA l f).len) (s.hdrA l f).len) j
          (Config.refreshKey (s.hdrA l f).keytag ((b.data.take (s.descC l f).length).length / 8) k.data)))).flatten) →
      w.good →
      exec (.rfr l f) s = .next ((((List.range (f.i + 1)).foldl (fun u j => u.putHdr l ((s.descD l f).index + j)
        (rfrEntry (hs.getD j (Hdr.of 0)) (u.hdr l ((s.descD l f).index + j)) false)) w.st).retire l (s.stage l.ix)).took
        ((f.i + 1) * (p.lweN + 2)))))

/-- Key switching, extraction and packing (R129, R149, R152, R227, R232, R241) on headers that pass their checks, of the types
and sizes each one asks for: a poisoned source completes with the destination's header written and no data moved; with the
key chunk and the sources read, none stalling or failing, the result's words are written at the new header's DATA_PTR and
then the header, and KSW, EXTR and PACK complete. KSW of a key stream that is not registered as a switching key is
ACCESS_BOUNDS. Values that the specification leaves open are free values (notes/assumptions/2.md). -/
def Obligations.KeyStreams : Prop :=
  (∀ (s : State) (l : Loc) (f : Fields) (p : Machine.PSet) (new kh : Hdr), s.issues l 0x60 f
      { stages := [St.kacc], dst := .d, sa := .d, sb := .d, imm := 1 } →
    (s.descD l f).ok l.s 1 [3] = true → (s.descA l f).ok l.s 1 [3] = true → (s.descB l f).ok l.s 1 [4] = true →
    s.hdrCheck (s.ctxOf l) (s.hdrA l f) = none → s.hdrCheck (s.ctxOf l) (s.hdrD l f) = none →
    s.pset (s.ctxOf l) (s.hdrA l f).pset = some p → (s.hdrA l f).typ = 1 →
    overlaps (s.hdrA l f).ptr (s.hdrA l f).len (s.hdrD l f).ptr (s.hdrA l f).len = false →
    new = kswEntry (s.hdrA l f) (s.hdrD l f) (decide (f.i = 1)) →
    (s.keyRegistered (s.ctxOf l) (s.descB l f) [1, 2] = false →
      exec (.ksw l f) s = .next (s.stageFault l (.insn Code.accessBounds))) ∧
    (s.keyRegistered (s.ctxOf l) (s.descB l f) [1, 2] = true → (s.hdrA l f).poison = true →
      exec (.ksw l f) s = .next ((s.putHdr l (s.descD l f).index new).retire l (s.stage l.ix))) ∧
    (∀ k r w : Run, s.keyRegistered (s.ctxOf l) (s.descB l f) [1, 2] = true → (s.hdrA l f).poison = false →
      k = s.readChunk l (s.chunkFault (s.ctxOf l) [(s.hdrA l f).keytag] (kswShape (s.hdrA l f))) (s.descB l f) → k.good →
      kh = Hdr.of (BitVec.ofNat 512 (fromLE (k.data.take 64))) →
      r = k.st.runLines l.req false (readOps (s.hdrA l f).ptr (s.hdrA l f).len) → r.good →
      w = (r.st.took (2 * (s.hdrA l f).limbs * 2 ^ (s.hdrA l f).logn)).runLines l.req false
        (writeOps new.ptr (r.st.kswOut p (s.hdrA l f) kh (decide (f.i = 1)) r.data (k.data.drop 64))) → w.good →
      exec (.ksw l f) s = .next ((w.st.putHdr l (s.descD l f).index new).retire l (s.stage l.ix)))) ∧
  (∀ (s : State) (l : Loc) (f : Fields) (p w0 : Machine.PSet) (new kh : Hdr), s.issues l 0x62 f
      { stages := [St.kacc], dst := .d, sa := .d, sb := .d, imm := 0x1FFFF } →
    (s.descD l f).ok l.s 1 [3] = true → (s.descA l f).ok l.s 1 [3] = true → (s.descB l f).ok l.s 1 [4] = true →
    s.hdrCheck (s.ctxOf l) (s.hdrA l f) = none → s.hdrCheck (s.ctxOf l) (s.hdrD l f) = none →
    s.pset (s.ctxOf l) (s.hdrA l f).pset = some p → p.lweSet ≠ 0 → s.pset (s.ctxOf l) p.lweSet = some w0 →
    (s.hdrA l f).typ = 1 → (s.hdrA l f).ntt = false → (s.hdrA l f).limbs = 1 → f.i < 2 ^ (s.hdrA l f).logn →
    s.keyRegistered (s.ctxOf l) (s.descB l f) [3] = true → new = extrEntry (s.hdrA l f) (s.hdrD l f) p.lweSet w0.lweN →
    ((s.hdrA l f).poison = true →
      exec (.extr l f) s = .next ((s.putHdr l (s.descD l f).index new).retire l (s.stage l.ix))) ∧
    (∀ k r w : Run, (s.hdrA l f).poison = false →
      k = s.readChunk l (s.chunkFault (s.ctxOf l) [(s.hdrA l f).keytag] (kswShape (s.hdrA l f))) (s.descB l f) → k.good →
      kh = Hdr.of (BitVec.ofNat 512 (fromLE (k.data.take 64))) →
      r = k.st.runLines l.req false (readOps (s.hdrA l f).ptr (s.hdrA l f).len) → r.good →
      w = (r.st.took (w0.lweN + 1)).runLines l.req false
        (writeOps new.ptr (r.st.extrOut p.first w0.lweN f.i (s.hdrA l f) kh r.data (k.data.drop 64))) → w.good →
      exec (.extr l f) s = .next ((w.st.putHdr l (s.descD l f).index new).retire l (s.stage l.ix)))) ∧
  (∀ (s : State) (l : Loc) (f : Fields) (p : Machine.PSet) (new kh : Hdr), s.issues l 0x63 f
      { stages := [St.kacc], dst := .d, sa := .d, sb := .d, imm := 0x1FFFF } →
    (s.descD l f).ok l.s 1 [3] = true → (s.descA l f).ok l.s 1 [3] = true → (s.descB l f).ok l.s 1 [4] = true →
    s.hdrCheck (s.ctxOf l) (s.hdrA l f) = none → s.hdrCheck (s.ctxOf l) (s.hdrD l f) = none →
    s.pset (s.ctxOf l) (s.hdrD l f).pset = some p → (s.hdrA l f).typ = 2 → (s.hdrD l f).typ = 1 →
    (s.hdrD l f).limbs = 1 → p.lweSet = (s.hdrA l f).pset → f.i < 2 ^ (s.hdrD l f).logn →
    s.keyRegistered (s.ctxOf l) (s.descB l f) [4] = true → new = packEntry (s.hdrA l f) (s.hdrD l f) →
    ((s.hdrA l f).poison = true ∨ (s.hdrD l f).poison = true →
      exec (.pack l f) s = .next ((s.putHdr l (s.descD l f).index new).retire l (s.stage l.ix))) ∧
    (∀ k r d w : Run, (s.hdrA l f).poison = false → (s.hdrD l f).poison = false →
      k = s.readChunk l (s.chunkFault (s.ctxOf l) [(s.hdrA l f).keytag, (s.hdrD l f).keytag] (kswShape (s.hdrD l f)))
        (s.descB l f) → k.good → kh = Hdr.of (BitVec.ofNat 512 (fromLE (k.data.take 64))) →
      r = k.st.runLines l.req false (readOps (s.hdrA l f).ptr (s.hdrA l f).len) → r.good →
      d = r.st.runLines l.req false (readOps (s.hdrD l f).ptr (s.hdrD l f).len) → d.good →
      w = (d.st.took (2 * 2 ^ (s.hdrD l f).logn)).runLines l.req false (writeOps new.ptr
        (d.st.packOut p.first (s.hdrA l f).lweN f.i (s.hdrD l f) kh d.data r.data (k.data.drop 64))) → w.good →
      exec (.pack l f) s = .next ((w.st.putHdr l (s.descD l f).index new).retire l (s.stage l.ix))))

/-- FOLD and BSETX (R48, R69, R154). FOLD with its guard true, a ring modulus that is not zero, a bank descriptor in form that
holds the tile's range, and a whole source tile, whose lines are all read, combined and written without a stall or a
failure, completes: the lines not yet done of the tile's range hold the sums or differences, and with the chunk-end bit
and a LAST tile the folded chunk is counted and leaves its shard. FOLD from a register with its guard false completes and
changes nothing but the PC and the loop stack. BSETX on a bank line that its exchange reaches sets the bit and completes
with the predicate saying that the bit was clear; where the bit was set and the instruction asks for it, it completes with
DUPLICATE_CHUNK, counts it, and a chunk leaves its shard. SEAL (R131, R155, R156) at its start. REMASK over Z_2^64 without
noise and group mask, whose descriptors are in form and whose ranges pass R155's conditions: of length 0 it completes at
once; of at most 4,096 bytes, with every line read, combined and written without a stall or a failure, it completes with
nothing of it kept. ENCRYPT without noise onto a poisoned destination is POISONED_OPERAND, counted against the context,
with the shard's outcome of R210. Of the other forms and of longer ranges nothing is said here. Values that the
specification leaves open are free values (notes/assumptions/2.md). -/
def Obligations.FoldAndSeal : Prop :=
  (∀ (s : State) (l : Loc) (f : Fields) (t : Tile) (y : Stage) (r : Run), s.issues l 0x69 f
      { stages := [St.fold], sa := .t, sb := .d, sc := .p, qsel := decide (f.imf 1 0 = 2), hints := [0, 2], imm := 0xF,
        extra := decide (f.imf 1 0 ≠ 3) } →
    (f.imf 1 0 = 2 → (s.stage l.ix).qr f.qsel ≠ 0) → (s.stage l.ix).pr f.c = true → (s.descB l f).ok l.s 1 [1] = true →
    (s.stage l.ix).source l f = some (t, y) → t.bad = none →
    (s.descB l f).base + t.tag.toNat % 2 ^ 32 * ringSize (f.imf 1 0) + t.vcnt.toNat ≤
      (s.descB l f).base + (s.descB l f).length →
    r = s.rmwLines l.req (s.foldLine t
      ((s.descB l f).base + t.tag.toNat % 2 ^ 32 * ringSize (f.imf 1 0)) (t.vcnt.toNat / ringSize (f.imf 1 0))
      (ringSize (f.imf 1 0)) (ringMod (f.imf 1 0) ((s.stage l.ix).qr f.qsel).toNat) (decide (f.imf 2 2 = 1)))
      ((linesOf ((s.descB l f).base + t.tag.toNat % 2 ^ 32 * ringSize (f.imf 1 0))
        (t.vcnt.toNat / ringSize (f.imf 1 0) * ringSize (f.imf 1 0))).drop (s.stage l.ix).foldPos) → r.good →
    exec (.fold l f) s = .next ((if f.imf 3 3 = 1 ∧ t.last = true then
      ((r.st.took (t.vcnt.toNat / ringSize (f.imf 1 0))).iCount64 l 0x08).someChunkLeaves l.d l.s
      else r.st.took (t.vcnt.toNat / ringSize (f.imf 1 0))).retire l { y with foldPos := 0 })) ∧
  (∀ (s : State) (l : Loc) (f : Fields), s.issues l 0x69 f
      { stages := [St.fold], sa := .t, sb := .d, sc := .p, qsel := decide (f.imf 1 0 = 2), hints := [0, 2], imm := 0xF,
        extra := decide (f.imf 1 0 ≠ 3) } →
    (f.imf 1 0 = 2 → (s.stage l.ix).qr f.qsel ≠ 0) → (s.stage l.ix).pr f.c = false → f.hint = 0 →
    exec (.fold l f) s = .next (s.retire l (s.stage l.ix))) ∧
  (∀ (s v : State) (l : Loc) (f : Fields) (d b o : Nat) (r : Line) (old : Bool), s.issues l 0x6A f
      { stages := [St.fold], dst := .p, sa := .d, sb := .s, imm := 1, extra := decide (1 ≤ f.d) && decide (f.d ≤ 6) } →
    (s.descA l f).ok l.s 1 [1] = true → ((s.stage l.ix).sr f.b).toNat / 8 < (s.descA l f).length →
    place s.part ((s.descA l f).base + ((s.stage l.ix).sr f.b).toNat / 8) = .bank d b o →
    r = s.writeLine (s.bankReq l ((s.descA l f).base + ((s.stage l.ix).sr f.b).toNat / 8))
      ((s.descA l f).base + ((s.stage l.ix).sr f.b).toNat / 8 + 0x80000000)
      [BitVec.ofNat 8 (2 ^ (((s.stage l.ix).sr f.b).toNat % 8))] false →
    r.stall = false → r.code = Code.ok → r.st.crossPorts (route d l.d) = (v, false) →
    old = (r.data.getD (((s.descA l f).base + ((s.stage l.ix).sr f.b).toNat / 8) % 64) 0).getLsbD
      (((s.stage l.ix).sr f.b).toNat % 8) →
    exec (.bsetx l f) s = .next (if old = true ∧ f.i = 1 then
      ((v.iCount l 0x1C).someChunkLeaves l.d l.s).retireWith l ((s.stage l.ix).setP f.d (!old)) Code.duplicateChunk
      else v.retire l ((s.stage l.ix).setP f.d (!old)))) ∧
(∀ (s : State) (l : Loc) (f : Fields) (c : SealCfg) (r : Run), f.imf 1 0 = 0 → f.imf 3 2 = 1 → f.imf 4 4 = 0 →
    f.imf 5 5 = 0 → s.issues l 0x68 f { stages := [St.fold], dst := .d, sa := .d, sb := .d, imm := 0x1F7F } →
    (s.descA l f).ok l.s 1 [1] = true → (s.descB l f).ok l.s 1 [1] = true → (s.descD l f).ok l.s 1 [1] = true →
    c = ⟨0, 1, 2 ^ 64, false, false, f.imf 12 8, (s.descA l f).base, (s.descB l f).base, (s.descD l f).base,
      (s.descA l f).length⟩ →
    (s.stage l.ix).sealPos = 0 → s.sealRanges l f c (s.descA l f) (s.descB l f) (s.descD l f) = true →
    (c.len = 0 → exec (.seal l f) s = .next (s.retire l (s.stage l.ix))) ∧
    (0 < c.len → c.len ≤ 4096 →
      r = s.sealLines l f c (fun _ => [])
        ((c.len + 63) / 64) → r.good → c.len ≤ (r.st.stage l.ix).sealPos * 64 →
      exec (.seal l f) s = .next (r.st.retire l (r.st.stage l.ix).sealEnd))) ∧
  (∀ (s : State) (l : Loc) (f : Fields), f.imf 1 0 = 1 → f.imf 3 2 = 1 → f.imf 4 4 = 0 → s.issues l 0x68 f
      { stages := [St.fold], dst := .d, sa := .d, sb := .d, imm := 0x1F7F } →
    (s.descA l f).ok l.s 1 [1] = true → (s.descB l f).ok l.s 1 [1] = true → (s.descD l f).ok l.s 1 [3] = true →
    (s.stage l.ix).sealPos = 0 → poisoned (s.cipher l (s.descD l f).index) = true →
    exec (.seal l f) s = .next ((s.sealOutcome l (.insn Code.poisonedOperand)).refuseRelease l))

/-- PRGX, AEADD and DPN (R65, R70, R157, R205, R427, R431). PRGX of a valid seed entry whose context's keys are there
completes with its tile the key stream under the entry's key, the context's round, the entry's shard and the block number,
and changes only the stage; of an entry past the table or not valid it is FORMAT_ERROR. AEADD of one whole LAST tile in a
register, whose key the port gives and brings across, completes with the opened packet's tiles and P6 set, or, where the
packet does not verify, completes with AEAD_FAIL, P6 clear, the failure counted and its chunk discarded. DPN with a noise
width and a modulus, of a source it can take, completes with the drawn noise added where the source of entropy serves,
every element over Z_q below q; where the source refuses it is ENTROPY_UNAVAILABLE. -/
def Obligations.CryptoInstructions : Prop :=
  (∀ (s : State) (l : Loc) (f : Fields), s.issues l 0x80 f { stages := [St.prg], dst := .t, sa := .s, sb := .s } →
    ((s.stage l.ix).sr f.a).toNat < 4096 → seedValid (s.seed (iNum l.d l.s) ((s.stage l.ix).sr f.a).toNat) = true →
    s.keysGone (s.ctxOf l) = false → ∃ u, exec (.prgx l f) s = .next u ∧ s.onlyStage u l.ix ∧
    (s.stage l.ix).wroteT (u.stage l.ix) f.d ∧ u.reply = ⟨Code.ok, 0⟩ ∧
    ((u.stage l.ix).tr f.d).tag = (s.stage l.ix).sr f.b ∧ ((u.stage l.ix).tr f.d).vcnt = 4096 ∧
    (∀ i, i < 512 → ((u.stage l.ix).tr f.d).w i = keyStream (seedKey (s.seed (iNum l.d l.s)
      ((s.stage l.ix).sr f.a).toNat)) (s.curRound (s.ctxOf l)) (s.prgShard l.d l.s ((s.stage l.ix).sr f.a).toNat)
      ((s.stage l.ix).sr f.b).toNat i)) ∧
  (∀ (s : State) (l : Loc) (f : Fields), s.issues l 0x80 f { stages := [St.prg], dst := .t, sa := .s, sb := .s } →
    (4096 ≤ ((s.stage l.ix).sr f.a).toNat ∨ seedValid (s.seed (iNum l.d l.s) ((s.stage l.ix).sr f.a).toNat) = false) →
    exec (.prgx l f) s = .next (s.stageFault l (.insn Code.formatError))) ∧
  (∀ (s v w : State) (l : Loc) (f : Fields) (k : BitVec 256), f.hint = 0 → s.issues l 0x81 f
      { stages := [St.aead], dst := .t, sa := .t, hints := [0, 2] } →
    ((s.stage l.ix).tr f.a).bad = none → ((s.stage l.ix).tr f.a).last = true → f.d + 1 ≤ l.tregs →
    s.keyPort (((s.stage l.ix).tr f.a).tag.toNat / 2 ^ 32 % 2 ^ 22) = (v, .key k) →
    v.crossPorts (route (4 + ((s.stage l.ix).tr f.a).tag.toNat / 2 ^ 32 % 2 ^ 22 / 2 ^ 20) l.d) = (w, false) →
    (∀ p, openPacket k [(s.stage l.ix).tr f.a] = some p →
      exec (.aeadd l f) s = .next (w.retire l (((s.stage l.ix).putTiles f.d
        (plainTiles p [(s.stage l.ix).tr f.a])).setP 6 true))) ∧
    (openPacket k [(s.stage l.ix).tr f.a] = none →
      exec (.aeadd l f) s = .next (((w.iCount l 0x18).chunkDiscarded l.d l.s ((s.stage l.ix).tr f.a).aip).retireWith l
        ((s.stage l.ix).setP 6 false) Code.aeadFail))) ∧
  (∀ (s : State) (l : Loc) (f : Fields) (t : Tile) (y : Stage), s.issues l 0x82 f
      { stages := [St.add], dst := .t, sa := .t, sb := .s, qsel := decide (f.imf 1 0 = 2), hints := [0, 2], imm := 3,
        extra := decide (f.imf 1 0 ≠ 3) } →
    (s.stage l.ix).sr f.b ≠ 0 → (f.imf 1 0 = 2 → (s.stage l.ix).qr f.qsel ≠ 0) → s.entPort = .served →
    (s.stage l.ix).source l f = some (t, y) → ∃ u, exec (.dpn l f) s = .next u ∧
    y.wroteT (u.stage l.ix) f.d ∧ u.reply = ⟨Code.ok, 0⟩ ∧
    (u.stage l.ix).tr f.d = { t with
      words := noisy (s.drawn (Port.add (iNum l.d l.s))) (f.imf 1 0) ((s.stage l.ix).qr f.qsel).toNat t } ∧ u.ent = (s.draw (Port.add (iNum l.d l.s)) 1024).ent ∧
    (f.imf 1 0 = 2 → ∀ i, i < 512 → (((u.stage l.ix).tr f.d).w i).toNat < ((s.stage l.ix).qr f.qsel).toNat)) ∧
  (∀ (s : State) (l : Loc) (f : Fields) (t : Tile) (y : Stage), s.issues l 0x82 f
      { stages := [St.add], dst := .t, sa := .t, sb := .s, qsel := decide (f.imf 1 0 = 2), hints := [0, 2], imm := 3,
        extra := decide (f.imf 1 0 ≠ 3) } →
    (s.stage l.ix).sr f.b ≠ 0 → (f.imf 1 0 = 2 → (s.stage l.ix).qr f.qsel ≠ 0) → s.entPort = .refused →
    (s.stage l.ix).source l f = some (t, y) →
    exec (.dpn l f) s = .next (s.stageFault l ⟨Code.entropyUnavailable, Origin.keyPort, 0, 0, false⟩))

/-- FMA.F32 and CVT (R88–R91, R158, R264, R265) of sources they can take complete. FMA.F32 leaves each element the fused
multiply-add under the instruction's rounding, the other tile registers and memory as they were. CVT on CONVERT leaves the
tile converted to FP32; on ROUND it leaves the tile converted to its format, raises SAT and NAN of the destination
register where an element did, and refreshes the strand's F_SAT. Exact conversion and its limits (R263–R265): a finite
pattern of formats 1 to 4 is the same number in FP32; every pattern converts to an FP32 pattern of 32 bits; a number
rounded to INT8 gives 8 bits, and a positive whole FP32 number of significand at least 128 gives 127. -/
def Obligations.FloatArithmetic : Prop :=
  (∀ (s : State) (l : Loc) (f : Fields) (t : Tile) (y : Stage), s.issues l 0xA0 f
      { stages := [St.fmaA, St.fmaB], dst := .t, sa := .t, sb := f.bFile, sc := .t, rnd := true, hints := [0, 2],
        imm := 1 } →
    (s.stage l.ix).readable (f.c :: f.bRegs) → (s.stage l.ix).source l f = some (t, y) →
    ∃ u, exec (.fmaF32 l f) s = .next u ∧ u.reply = ⟨Code.ok, 0⟩ ∧ u.mem = s.mem ∧
      (∀ i, i < 4096 → (((u.stage l.ix).tr f.d).h i).toNat = (fma f.rnd (s.guarded l) (t.h i).toNat
        (if f.imf 0 0 = 1 then (y.sr f.b).toNat % 2 ^ 32 else ((y.tr f.b).h i).toNat) ((y.tr f.c).h i).toNat).pat % 2 ^ 32) ∧
      (∀ r, r ≠ f.d → (u.stage l.ix).tr r = y.tr r)) ∧
  (∀ (s : State) (l : Loc) (f : Fields) (t : Tile) (y : Stage), l.name = St.convert → s.issues l 0xA1 f
      { stages := [St.convert, St.round], dst := .t, sa := .t, fmt := true, rnd := true, hints := [0, 2] } →
    (s.stage l.ix).source l f = some (t, y) →
    exec (.cvt l f) s = .next (s.retire l (y.setT f.d (cvtIn f.fmt t)))) ∧
  (∀ (s : State) (l : Loc) (f : Fields) (t : Tile) (y : Stage), l.name = St.round → s.issues l 0xA1 f
      { stages := [St.convert, St.round], dst := .t, sa := .t, fmt := true, rnd := true, hints := [0, 2] } →
    (s.stage l.ix).source l f = some (t, y) →
    exec (.cvt l f) s = .next ((s.retire l ((y.setT f.d (cvtOut f.fmt f.rnd (s.guarded l) t)).raiseFlags f.d
      (cvtFlags f.fmt f.rnd (s.guarded l) t).1 (cvtFlags f.fmt f.rnd (s.guarded l) t).2)).fsatRefresh l)) ∧
(∀ fmt v, 1 ≤ fmt → fmt ≤ 4 → v < 2 ^ (8 * fmtSize fmt) → ∀ s m e, (fmtOf fmt).decode v = .fin s m e →
    ∃ m' e', f32.decode (toF32 fmt v) = .fin s m' e' ∧
      (m : Int) * 2 ^ (e + 200).toNat = (m' : Int) * 2 ^ (e' + 200).toNat) ∧
  (∀ rnd guarded v, (toInt8 rnd guarded v).pat < 256) ∧
  (∀ rnd guarded s m e v, f32.decode v = .fin s m e → 0 ≤ e → 128 ≤ m → s = false → (toInt8 rnd guarded v).pat = 0x7F) ∧
  (∀ fmt v, fmt < 6 → v < 2 ^ (8 * fmtSize fmt) → toF32 fmt v < 2 ^ 32)

/-- The control class (R119, R124, R125, R132, R160, R161). LOOP with its end inside the program, behind its PC and inside the
loop around it, and fewer than four loops open, enters the body, or with a count of 0 goes on at its end; with four open,
or an end that is not behind its PC or not in the program, it is FORMAT_ERROR. BR to a place in the program is taken, and
leaves the loops it jumps out of, or goes on. BAR as the first to arrive, or with the mask of those that have, completes
as an arrival with its mask; with another mask it is FORMAT_ERROR. BARW completes as its strand's arrival and waits, but
in a strand that drains it stops. OPPT keeps its hint, FENCE of the input slots counts the forwarded tiles it waits for,
and NOP completes. -/
def Obligations.ControlFlow : Prop :=
  (∀ (s : State) (l : Loc) (f : Fields), s.issues l 0xE0 f { stages := St.all, sa := .s, imm := 0x3FFF } →
    (s.stage l.ix).loops.length < 4 → (s.stage l.ix).pc < f.i → f.i < (s.stage l.ix).codeWords →
    (∀ r rs, (s.stage l.ix).loops = r :: rs → f.i ≤ r.fin) → (s.stage l.ix).sr f.a ≠ 0 →
    exec (.loop l f) s = .next ((s.setStage l.ix { s.stage l.ix with
      pc := (s.stage l.ix).pc + 1
      loops := ⟨(s.stage l.ix).pc + 1, f.i, ((s.stage l.ix).sr f.a).toNat - 1⟩ :: (s.stage l.ix).loops }).done Code.ok)) ∧
  (∀ (s : State) (l : Loc) (f : Fields), s.issues l 0xE0 f { stages := St.all, sa := .s, imm := 0x3FFF } →
    (s.stage l.ix).loops.length < 4 → (s.stage l.ix).pc < f.i → f.i < (s.stage l.ix).codeWords →
    (∀ r rs, (s.stage l.ix).loops = r :: rs → f.i ≤ r.fin) → (s.stage l.ix).sr f.a = 0 →
    exec (.loop l f) s = .next (s.retire l { s.stage l.ix with pc := f.i })) ∧
  (∀ (s : State) (l : Loc) (f : Fields), s.issues l 0xE0 f { stages := St.all, sa := .s, imm := 0x3FFF } →
    (4 ≤ (s.stage l.ix).loops.length ∨ f.i ≤ (s.stage l.ix).pc ∨ (s.stage l.ix).codeWords ≤ f.i) →
    exec (.loop l f) s = .next (s.stageFault l (.insn Code.formatError))) ∧
  (∀ (s : State) (l : Loc) (f : Fields), s.issues l 0xE1 f { stages := St.all, sa := .br, imm := 0xFFFFFF } →
    f.i < 2 ^ 14 → f.i < (s.stage l.ix).codeWords → (s.stage l.ix).pr (f.a % 8) = true → f.a / 8 % 2 = 0 →
    exec (.br l f) s = .next ((s.setStage l.ix { s.stage l.ix with
      pc := f.i, loops := leaveLoops f.i (s.stage l.ix).loops }).done Code.ok)) ∧
  (∀ (s : State) (l : Loc) (f : Fields), s.issues l 0xE1 f { stages := St.all, sa := .br, imm := 0xFFFFFF } →
    f.i < 2 ^ 14 → f.i < (s.stage l.ix).codeWords → (s.stage l.ix).pr (f.a % 8) = true → f.a / 8 % 2 = 1 →
    exec (.br l f) s = .next (s.retire l (s.stage l.ix))) ∧
  (∀ (s : State) (l : Loc) (f : Fields), s.issues l 0xE2 f { stages := St.all, imm := 0xF00FF } →
    ((s.strand (strandIx l.d l.s)).bars.get (fun _ => ⟨0, 0⟩) (f.imf 19 16)).arrived = 0 →
    exec (.bar l f) s = .next ((s.barArrive l (s.stage l.ix) (f.imf 19 16) ⟨BitVec.ofNat 8 (f.imf 7 0), 0⟩).done Code.ok)) ∧
  (∀ (s : State) (l : Loc) (f : Fields) (b : BarSt), s.issues l 0xE2 f { stages := St.all, imm := 0xF00FF } →
    b = (s.strand (strandIx l.d l.s)).bars.get (fun _ => ⟨0, 0⟩) (f.imf 19 16) → b.arrived ≠ 0 →
    (b.mask = BitVec.ofNat 8 (f.imf 7 0) →
      exec (.bar l f) s = .next ((s.barArrive l (s.stage l.ix) (f.imf 19 16) b).done Code.ok)) ∧
    (b.mask ≠ BitVec.ofNat 8 (f.imf 7 0) → exec (.bar l f) s = .next (s.stageFault l (.insn Code.formatError)))) ∧
  (∀ (s t : State) (l : Loc) (f : Fields), s.issues l 0xE3 f { stages := St.all, imm := 0xFF } →
    t = (s.setStage l.ix { s.stage l.ix with wait := .barw f.i, fillerOut := false }).barwArrive (s.ctxOf l) f.i →
    (t.sst l.d l.s ≠ SS.draining → exec (.barw l f) s = .next (t.done Code.ok)) ∧
    (t.sst l.d l.s = SS.draining →
      exec (.barw l f) s = .next ((t.setStage l.ix (t.stage l.ix).stopBarw).done Code.ok))) ∧
  (∀ (s : State) (l : Loc) (f : Fields), s.issues l 0xE4 f { stages := St.all, imm := 3 } →
    exec (.oppt l f) s = .next (s.retire l { s.stage l.ix with
      hint := if f.i = 3 then none else some (BitVec.ofNat 2 f.i) })) ∧
  (∀ (s : State) (l : Loc) (f : Fields), s.issues l 0xE5 f { stages := St.all, imm := 3 } → f.i / 2 = 1 →
    exec (.fence l f) s = .next (s.retire l { s.stage l.ix with
      fence := ((s.stage l.ix).slots.filter (fun t => decide (l.g < t.dest.toNat))).length })) ∧
  (∀ (s : State) (l : Loc) (f : Fields), s.issues l 0xE8 f { stages := St.all } →
    exec (.nop l f) s = .next (s.retire l (s.stage l.ix)))

/-- Faults of a stage (R96, R98, R99, R126–R128). TRAP of a listed code is the fault of that code; of 0 or of a code that no
list holds it is FORMAT_ERROR. A fault whose code has a vector entry enters handler mode with SR_EPC and SR_ECODE and
leaves the strand's state and memory; any other, of a code that aborts no round, halts the stage and makes the strand
FAULTED; both write the record's VALID and LAST_CODE. In handler mode a taken return BR completes, clears VALID and goes
on at SR_EPC or behind it. HALT outside handler mode completes, and with the last stage the strand is HALTED; in handler
mode the stage and the strand fault at SR_EPC. What a stage does before an instruction's own effect, for whatever opcode,
form and effect (R96, R108, R135): a PC past the program, a word of an unassigned opcode, and the expected word with a
field that is not permitted are FORMAT_ERROR; a stage that may not issue takes nothing. -/
def Obligations.StageFaults : Prop :=
  (∀ (s : State) (l : Loc) (f : Fields), s.issues l 0xE6 f { stages := St.all, imm := 0xFF } → f.i ≠ 0 →
    listedCode f.i = true →
    exec (.trap l f) s = .next (s.stageFault l ⟨BitVec.ofNat 8 f.i, Origin.insn, 0, 0, true⟩)) ∧
  (∀ (s : State) (l : Loc) (f : Fields), s.issues l 0xE6 f { stages := St.all, imm := 0xFF } →
    (f.i = 0 ∨ listedCode f.i = false) →
    exec (.trap l f) s = .next (s.stageFault l (.insn Code.formatError))) ∧
  (∀ (s : State) (l : Loc) (x : FaultInfo) (h : Nat), (s.stage l.ix).handlerFor x = some h →
    (s.stageFault l x).stage l.ix = { s.stage l.ix with
      handler := true, pc := h, epc := (s.stage l.ix).pc, wait := .none
      ecode := BitVec.ofNat 16 (x.treg * 2 ^ 11 + x.origin * 2 ^ 8 + x.code.toNat) } ∧
    (s.stageFault l x).sst l.d l.s = s.sst l.d l.s ∧ (s.stageFault l x).fld (Reg.frBase l.d l.s l.g) 31 31 = 1 ∧
    (s.stageFault l x).fld (Reg.strandStat l.d l.s) 7 0 = x.code.toNat ∧
    (s.stageFault l x).mem = s.mem ∧ (s.stageFault l x).reply = ⟨x.code, 0⟩) ∧
  (∀ (s : State) (l : Loc) (x : FaultInfo), (s.stage l.ix).handlerFor x = none → x.code ≠ Code.keyRevoked →
    x.code ≠ Code.integrityFail → x.code ≠ Code.thermalHalt →
    (s.stageFault l x).stage l.ix = { s.stage l.ix with run := .faulted, wait := .none } ∧
    (s.stageFault l x).sst l.d l.s = SS.faulted ∧ (s.stageFault l x).fld (Reg.frBase l.d l.s l.g) 31 31 = 1 ∧
    (s.stageFault l x).fld (Reg.strandStat l.d l.s) 7 0 = x.code.toNat ∧ (s.stageFault l x).mem = s.mem ∧
    (s.stageFault l x).reply = ⟨x.code, 0⟩) ∧
  (∀ (s : State) (l : Loc) (f : Fields), s.issues l 0xE1 f { stages := St.all, sa := .br, imm := 0xFFFFFF } →
    (f.i = 0xFFFFFF ∨ f.i = 0xFFFFFE) → (s.stage l.ix).handler = true → (s.stage l.ix).taken f = true →
    ∃ u, exec (.br l f) s = .next u ∧ (u.stage l.ix) = { s.stage l.ix with
      handler := false, epc := 0, ecode := 0
      pc := if f.i = 0xFFFFFF then (s.stage l.ix).epc + 1 else (s.stage l.ix).epc } ∧
      u.fld (Reg.frBase l.d l.s l.g) 31 31 = 0 ∧ u.mem = s.mem) ∧
  (∀ (s : State) (l : Loc) (f : Fields), s.issues l 0xE7 f { stages := St.all } → (s.stage l.ix).handler = false →
    ∃ u, exec (.halt l f) s = .next u ∧ (u.stage l.ix) = { s.stage l.ix with run := .halted } ∧ u.mem = s.mem ∧
      u.sst l.d l.s = (if (s.setStage l.ix { s.stage l.ix with run := .halted }).allHalted l.d l.s then SS.halted
        else s.sst l.d l.s) ∧ u.reply = ⟨Code.ok, 0⟩) ∧
  (∀ (s : State) (l : Loc) (f : Fields), s.issues l 0xE7 f { stages := St.all } → (s.stage l.ix).handler = true →
    ∃ u, exec (.halt l f) s = .next u ∧ (u.stage l.ix).run = .faulted ∧ u.sst l.d l.s = SS.faulted ∧
      (u.stage l.ix).pc = (s.stage l.ix).epc ∧ u.mem = s.mem) ∧
(∀ (s : State) (l : Loc) (opc : Nat) (f : Fields) (sh : Shape) (k : Stage → State),
    (s.canIssue l = false → s.issue l opc f sh k = s.done Code.ok) ∧
    (s.canIssue l = true → (s.stage l.ix).codeWords ≤ (s.stage l.ix).pc →
      s.issue l opc f sh k = s.stageFault l (.insn Code.formatError)) ∧
    (s.canIssue l = true → (s.stage l.ix).pc < (s.stage l.ix).codeWords →
      assignedOpc ((s.stage l.ix).fetch.toNat / 2 ^ 56) = false →
      s.issue l opc f sh k = s.stageFault l (.insn Code.formatError)) ∧
    (s.canIssue l = true → (s.stage l.ix).pc < (s.stage l.ix).codeWords → (s.stage l.ix).fetch = f.word opc →
      sh.ok l f = false →
      s.issue l opc f sh k = s.stageFault l (.insn Code.formatError)))

/-- Fields of an instruction word of R133: each field of a word is the field it was built from. -/
def Obligations.InstructionWords : Prop :=
  ∀ (f g : Fields) (opc : Nat), opc < 256 → f.word opc = g.word opc → f = g

/-- Parameter sets (R180–R183, R419) of a live context. While it does not run and its log holds a CONFIG entry, PS_WRITE of a
valid staged record stores it in its slot and no other, and PS_CLEAR empties its slot; an invalid record is FORMAT_ERROR
and changes no slot. PS_READ returns its slot's record in PS_DATA. They leave memory and keys and complete with OK in
PS_STAT. PS_READ of a context that is not live is CONTEXT_UNAVAILABLE. Shard and seed tables of an I-strand that is ON,
over clean die links (R36, R197, R206): the secure world's write of SHT_CTL moves its state EMPTY to OPEN, OPEN to
CLOSING, CLOSED to EMPTY, with its other writable fields, and while CLOSING changes nothing; SEED_WRITE and SEED_CLEAR
leave their entry the staged one or zero and every other entry and memory as it was. The normal world's SHT_CTL write is
ACCESS_BOUNDS, recorded in queue 3. -/
def Obligations.SlotTables : Prop :=
  (∀ (s : State) (c : Fin 16) (i : Fin 256), s.ctxLive c.val = true → s.ctxRuns c.val = false →
    s.psetOk c.val s.psStaged = true → s.logFits c.val 112 = true → ∃ t, exec (.psWrite c i) s = .next t ∧
    t.psRecord c.val i.val = BitVec.ofNat 1024 (fromLE s.psStaged) ∧ t.fld Reg.psStat 23 16 = 0 ∧
    (∀ k, k ≠ c.val * 256 + i.val → t.psets.get (fun _ => 0) k = s.psets.get (fun _ => 0) k) ∧ t.mem = s.mem ∧
    t.keys = s.keys ∧ t.reply = ⟨Code.ok, 0⟩) ∧
  (∀ (s : State) (c : Fin 16) (i : Fin 256), s.ctxLive c.val = true → s.ctxRuns c.val = false →
    s.psetOk c.val s.psStaged = false → ∃ t, exec (.psWrite c i) s = .next t ∧ t.psets = s.psets ∧ t.ctxs = s.ctxs ∧
    t.fld Reg.psStat 23 16 = 0x19 ∧ t.reply = ⟨Code.formatError, 0⟩) ∧
  (∀ (s : State) (c : Fin 16) (i : Fin 256), s.ctxLive c.val = true → ∃ t, exec (.psRead c i) s = .next t ∧
    (∀ k, k < 32 → (t.reg (Reg.psData k)).toNat = (s.psRecord c.val i.val).toNat / 2 ^ (32 * k) % 2 ^ 32) ∧
    t.psets = s.psets ∧ t.ctxs = s.ctxs ∧ t.mem = s.mem ∧ t.reply = ⟨Code.ok, 0⟩) ∧
  (∀ (s : State) (c : Fin 16) (i : Fin 256), s.ctxLive c.val = true → s.ctxRuns c.val = false →
    s.logFits c.val 112 = true → ∃ t, exec (.psClear c i) s = .next t ∧ t.psRecord c.val i.val = 0 ∧
    t.pset c.val (0x8000 + i.val) = none ∧ t.mem = s.mem ∧ t.reply = ⟨Code.ok, 0⟩) ∧
  (∀ (s : State) (c : Fin 16) (i : Fin 256), s.ctxLive c.val = false → ∃ t, exec (.psRead c i) s = .next t ∧
    t.psets = s.psets ∧ t.fld Reg.psStat 23 16 = 0x23 ∧ t.reply = ⟨Code.contextUnavailable, 0⟩) ∧
(∀ (s : State) (d i j : Fin 4) (v : Word), s.linksClean = true → s.pdOn (pdStrand d.val i.val) = true →
    ((s.fld (Reg.shtCtl d.val i.val j.val) 31 30 = 0 ∧ bits v 31 30 = 1) ∨
      (s.fld (Reg.shtCtl d.val i.val j.val) 31 30 = 1 ∧ bits v 31 30 = 2) ∨
      (s.fld (Reg.shtCtl d.val i.val j.val) 31 30 = 3 ∧ bits v 31 30 = 0)) →
    exec (.shtCtlWrite .secure d i j v) s = .next ((s.setReg (Reg.shtCtl d.val i.val j.val) (v &&& 0xC0FFFFFF)).done
      Code.ok)) ∧
  (∀ (s : State) (d i j : Fin 4) (v : Word), s.linksClean = true → s.pdOn (pdStrand d.val i.val) = true →
    s.fld (Reg.shtCtl d.val i.val j.val) 31 30 = 2 → exec (.shtCtlWrite .secure d i j v) s = .next (s.done Code.ok)) ∧
  (∀ (s : State) (d i j : Fin 4) (v : Word), exec (.shtCtlWrite .normal d i j v) s = .next ((s.post 3
    { Ev.of 7 1 Code.accessBounds 2 0 0 1 with addr := 0x0F00_00000000 + Reg.shtCtl d.val i.val j.val }).done Code.accessBounds)) ∧
  (∀ (s : State) (d i : Fin 4) (e : Fin 4096), s.linksClean = true → s.pdOn (pdStrand d.val i.val) = true → ∃ t,
    exec (.seedWrite .secure d i e) s = .next t ∧ t.seed (iNum d.val i.val) e.val = s.staged d.val i.val ∧
    (∀ n k, k < 4096 → (n, k) ≠ (iNum d.val i.val, e.val) → t.seed n k = s.seed n k) ∧ t.mem = s.mem ∧
    t.reply = ⟨Code.ok, 0⟩) ∧
  (∀ (s : State) (d i : Fin 4) (e : Fin 4096), s.linksClean = true → s.pdOn (pdStrand d.val i.val) = true → ∃ t,
    exec (.seedClear .secure d i e) s = .next t ∧ t.seed (iNum d.val i.val) e.val = 0 ∧
    (∀ n k, k < 4096 → (n, k) ≠ (iNum d.val i.val, e.val) → t.seed n k = s.seed n k) ∧ t.mem = s.mem ∧
    t.reply = ⟨Code.ok, 0⟩)

/-- Requests of a round that the module accepts (R185, R187, R188, R191, R216, R476). ROUND.OPEN of a context that is there,
with a good descriptor, no open round, a log that holds the entry and an entropy source that serves: without screening it
starts the round and answers OK; with screening it does so once the admission key is filled. Of a context that is not
there it is CONTEXT_UNAVAILABLE, with a bad descriptor FORMAT_ERROR, with an open round BUSY; each of these changes
nothing but the answer. A good descriptor names each shard once and each client of a cohort list once. STATUS answers the
round's body. COMMIT in READY_COMMIT of a context without a model ends the round as COMMITTED; in another state but
ABORTED it is BUSY. ABORT ends an open round as ABORTED; of a COMMITTED round it is BUSY. -/
def Obligations.RoundRequests : Prop :=
  (∀ (s t : State) (p : PmpReq) (b : Bytes) (cs : List (List QWord)), s.accepts p 0x0300 true → s.ctxLive p.c = true →
    s.roundBad p.c b cs = false → s.roundOpen p.c = false → s.logFits p.c 112 = true → s.entRunning = true →
    t = s.accepted p 0x0300 →
    (rdScreen b = false → exec (.roundOpen p ⟨b, cs⟩) s = .next ((t.startRound p.c b cs).answer p Code.ok)) ∧
    (rdScreen b = true → (t.admKey p.c).2 = Code.ok →
      exec (.roundOpen p ⟨b, cs⟩) s = .next (((t.admKey p.c).1.startRound p.c b cs).answer p Code.ok))) ∧
  (∀ (s : State) (p : PmpReq) (b : Bytes) (cs : List (List QWord)), s.accepts p 0x0300 true → s.ctxLive p.c = false →
    exec (.roundOpen p ⟨b, cs⟩) s = .next (s.answered p Code.contextUnavailable [])) ∧
  (∀ (s : State) (p : PmpReq) (b : Bytes) (cs : List (List QWord)), s.accepts p 0x0300 true → s.ctxLive p.c = true →
    s.roundBad p.c b cs = true → exec (.roundOpen p ⟨b, cs⟩) s = .next (s.answered p Code.formatError [])) ∧
  (∀ (s : State) (p : PmpReq) (b : Bytes) (cs : List (List QWord)), s.accepts p 0x0300 true → s.ctxLive p.c = true →
    s.roundBad p.c b cs = false → s.roundOpen p.c = true →
    exec (.roundOpen p ⟨b, cs⟩) s = .next (s.answered p Code.busy [])) ∧
  (∀ (s : State) (c : Nat) (b : Bytes) (cs : List (List QWord)), s.roundBad c b cs = false → rdId b ≠ 0 ∧
    cs.length = rdN b ∧ b.length = 128 + 16 * rdN b ∧ ∀ j, j < rdN b → (cs.getD j []).length = rdCohort b j ∧
      (cs.getD j []).Nodup ∧ ∀ k, k < rdN b → rdShard b j = rdShard b k → j = k) ∧
  (∀ (s : State) (p : PmpReq) (r : Round), s.accepts p 0x0301 true → s.round p.c = some r →
    exec (.roundStatus p) s = .next (s.answered p Code.ok (s.statusBody p.c r))) ∧
  (∀ (s t : State) (p : PmpReq) (r : Round), s.accepts p 0x0302 true → s.round p.c = some r → r.state = .readyCommit →
    (s.ctx p.c).model = none →
    t = (s.accepted p 0x0302).setRound p.c { s.takeDone r with posted := [] } →
    exec (.roundCommit p) s = .next ((t.endRound p.c .committed).answer p Code.ok)) ∧
  (∀ (s : State) (p : PmpReq) (r : Round), s.accepts p 0x0302 true → s.round p.c = some r → r.state ≠ .readyCommit →
    r.state ≠ .aborted → exec (.roundCommit p) s = .next (s.answered p Code.busy [])) ∧
  (∀ (s : State) (p : PmpReq) (r : Round), s.accepts p 0x0303 true → s.round p.c = some r → s.roundOpen p.c = true →
    exec (.roundAbort p) s = .next (((s.accepted p 0x0303).endRound p.c .aborted).answer p Code.ok)) ∧
  (∀ (s : State) (p : PmpReq) (r : Round), s.accepts p 0x0303 true → s.round p.c = some r → r.state = .committed →
    exec (.roundAbort p) s = .next (s.answered p Code.busy []))

/-- A round's start and its end, over clean die links (R189, R191, R216, R296, R371). The start leaves the round OPENING with
its descriptor and cohorts, no client and no failed shard, Estuary's current round and gate set on every light die fitted,
every barrier of the context at INST 0, its owned bitmap banks in a handover, and no other context's round changed. The
end leaves the round in its last state, with clients, group seeds and graph seed destroyed, in the descriptor too, gates
closed, no current round, the admission key and the seed tables of the context's I-strands zero, sessions and evaluation
keys as they were; an abort drains its running strands. Entering a state sets it and PHASE, with clients and descriptor
kept. Progress of a round (R189, R192, R199, R206, R212, R262, R275, R372). On its coordinator, with the round not paused:
ROUND_WORK_DONE ends OPENING once entropy runs and the bitmaps are clear, fills the next half of the seed tables while
EXPAND has entries left and else ends it, and in SEAL, with no block to expand again and no F work entry to post, waits
while the pool has too few encryptions of zero and ends SEAL once none is needed. A window that ends aborts OPENING, ends
ADVERTISE, SHARE, SCREEN and COLLECT, and closes INPUT first. A state other than INPUT ends by what the module does on
leaving it, then the next is entered; leaving OPENING without screening waits neither for memory nor, with room in the log
and a source that is not starting, for anything else. SHARD_CLOSED closes a CLOSING entry with nothing in flight. A module
that does not coordinate keeps the seeds it is sent; PHASE_RECEIVE acts once for a pair of ROUND_ID and state, and ABORTED
ends the round; PHASE_RESEND sends PHASE again while sends are left. UPDATE_START of a shard in UPDATE completes, or waits
while an export pins its copies. A wait is the reply DEFERRED (the model's choice, notes/assumptions/7.md). -/
def Obligations.RoundCourse : Prop :=
  (∀ (s t : State) (c : Nat) (b : Bytes) (cs : List (List QWord)), c < 16 → s.linksClean = true →
    t = s.startRound c b cs → ∃ r,
    t.round c = some r ∧ r.desc = b ∧ r.cohorts = cs ∧ r.state = .opening ∧ r.clients = [] ∧ r.failed = [] ∧
    (∀ l, l < s.part.ldCount → t.reg (Reg.estRound l c) = rdId b ∧ t.fld (Reg.estGate l c) 3 0 = 1 ∧
      t.fld (Reg.estGate l c) 8 8 = b2n (rdScreen b)) ∧
    (∀ n, n < 256 → t.barInst.get (fun _ => 0) (c * 256 + n) = 0) ∧
    (∀ e, e ∈ s.mapBanks c → s.bst e.1 e.2 = 1 → t.bst e.1 e.2 = 2 ∨ t.bst e.1 e.2 = 3) ∧
    (∀ k, k ≠ c → t.round k = s.round k)) ∧
  (∀ (s t : State) (c : Nat) (r : Round) (st : RState), c < 16 → s.linksClean = true →
    s.round c = some r → t = s.endRound c st → ∃ u,
    t.round c = some u ∧ u.state = st ∧ u.clients = [] ∧ u.gseeds = [] ∧ u.graphSeed = 0 ∧
    u.desc = r.desc.take 0x40 ++ List.replicate 32 0 ++ r.desc.drop 0x60 ∧
    (∀ l, l < s.part.ldCount → t.fld (Reg.estGate l c) 3 0 = 0 ∧ t.reg (Reg.estRound l c) = 0) ∧
    t.active (slotAdm c) = KeyHalf.zero ∧
    (∀ d i e, d < 4 → i < 4 → e < 4096 → s.boundTo c (d, i) = true →
      t.seeds.get (fun _ => 0) (iNum d i * 4096 + e) = 0) ∧
    (∀ d x, d < 4 → x < 12 → st = .aborted → s.boundTo c (d, x) = true → s.sst d x = SS.running →
      t.sst d x = SS.draining) ∧
    t.sess = s.sess ∧ t.evk = s.evk) ∧
  (∀ (s : State) (c : Nat) (r : Round) (st : RState), c < 16 → s.linksClean = true → s.round c = some r →
    ∃ (t : State) (u w : Round),
    s.enterR c st = t.enterWork c st u ∧ t.round c = some w ∧ u.state = st ∧ u.closing = false ∧
    u.clients = r.clients ∧ u.desc = r.desc ∧ w.state = st ∧ w.closing = false ∧ w.clients = r.clients ∧ w.desc = r.desc ∧
    t.mem = s.mem ∧ ∀ l, l < s.part.ldCount → t.fld (Reg.estGate l c) 3 0 = phaseOf st) ∧
  (∀ (s : State) (c : Nat) (r : Round) (st : RState), st ≠ .screen → st ≠ .expand → st ≠ .seal → st ≠ .fold → c < 16 →
    s.linksClean = true → s.round c = some r → ∃ (t : State) (u : Round), s.enterR c st = (t, false) ∧ t.round c = some u ∧ u.state = st ∧ u.closing = false ∧
    u.clients = r.clients ∧ t.mem = s.mem ∧ ∀ l, l < s.part.ldCount → t.fld (Reg.estGate l c) 3 0 = phaseOf st) ∧
(∀ (s t : State) (c : Fin 16) (r : Round) (n : RoundNews), s.round c.val = some r → s.isCoord r.desc = true →
    r.state = .opening → s.entRunning = true → s.mapsClear c.val = true → t = s.setRound c.val (s.learn r n) →
    s.hub.reset = none → exec (.roundWorkDone c ⟨.opening, n⟩) s = .next (t.goOn (t.advance c.val) (fun u => u.done Code.ok))) ∧
  (∀ (s t : State) (c : Fin 16) (r q : Round) (n : RoundNews), s.round c.val = some r → s.isCoord r.desc = true →
    r.state = .expand → s.roundPaused r = false → q = s.learn r n → t = s.setRound c.val q →
    s.hub.reset = none → exec (.roundWorkDone c ⟨.expand, n⟩) s = .next (if t.masksLeft c.val q then
      t.goOn (t.feedMasks c.val) (fun u => u.done Code.ok)
      else t.goOn (t.advance c.val) (fun u => u.done Code.ok))) ∧
  (∀ (s t : State) (c : Fin 16) (r q : Round) (n : RoundNews), s.round c.val = some r → s.isCoord r.desc = true →
    r.state = .seal → s.roundPaused r = false → q = s.learn r n → t = s.setRound c.val q → r.redo = [] →
    t.unposted q true = [] → (s.ctx c.val).zeros.length < s.zerosNeeded c.val r - r.bound →
    s.hub.reset = none → exec (.roundWorkDone c ⟨.seal, n⟩) s = .next t.waits) ∧
  (∀ (s t : State) (c : Fin 16) (r q : Round) (n : RoundNews), s.round c.val = some r → s.isCoord r.desc = true →
    r.state = .seal → s.roundPaused r = false → q = s.learn r n → t = s.setRound c.val q → r.redo = [] →
    t.unposted q true = [] → s.zerosNeeded c.val r ≤ r.bound →
    s.hub.reset = none → exec (.roundWorkDone c ⟨.seal, n⟩) s = .next (t.goOn (t.advance c.val) (fun u => u.done Code.ok))) ∧
  (∀ (s : State) (c : Nat) (r : Round), s.round c = some r → r.state ≠ .input → s.advance c =
    if (s.leave c r).2 then s.leave c r else (s.leave c r).1.enterR c (nextRState r.desc r.state)) ∧
  (∀ (s : State) (c : Nat) (r : Round), rdScreen r.desc = false → s.logFits c 112 = true → s.entPort ≠ .stall →
    (s.leaveOpening c r).2 = false) ∧
  (∀ (s : State) (r : Round) (n : RoundNews), s.isCoord r.desc = false → n.graphSeed ≠ none →
    (s.learn r n).seedGot = n.graphSeed ∧ ∀ e, e ∈ n.gseeds → e.1.toNat < s.ownId → e ∈ (s.learn r n).gseeds) ∧
  (∀ (s : State) (c : Fin 16) (r : Round), s.round c.val = some r → s.isCoord r.desc = true → r.state = .opening →
    s.entRunning = true → s.hub.reset = none →
    exec (.phaseWindowExpire c) s = .next ((s.endRound c.val .aborted).done Code.ok)) ∧
  (∀ (s : State) (c : Fin 16) (r : Round), s.round c.val = some r → s.isCoord r.desc = true → s.roundPaused r = false →
    s.hub.reset = none → (r.state = .advertise ∨ r.state = .share ∨ r.state = .screen ∨ r.state = .collect) →
    exec (.phaseWindowExpire c) s = .next (s.goOn (s.advance c.val) (fun u => u.done Code.ok))) ∧
  (∀ (s : State) (c : Fin 16) (r : Round), s.round c.val = some r → s.isCoord r.desc = true → s.roundPaused r = false →
    s.hub.reset = none → r.state = .input → r.closing = false →
    exec (.phaseWindowExpire c) s = .next ((s.closeInput c.val r).done Code.ok)) ∧
  (∀ (s : State) (d i j : Fin 4), s.fld (Reg.shtCtl d.val i.val j.val) 31 30 = 2 →
    s.fld (Reg.shtFlight d.val i.val j.val) 7 0 = 0 → exec (.shardClosed d i j) s =
      .next (((s.setFld (Reg.shtCtl d.val i.val j.val) 31 30 3).closeEnd (s.sctx d.val i.val)).done Code.ok)) ∧
  (∀ (s : State) (c st : Byte) (id : Word), s.phases.contains (id, st) = true →
    s.hub.reset = none → exec (.phaseReceive c st id) s = .next (s.done Code.ok)) ∧
  (∀ (s : State) (c : Fin 16) (st : Byte) (id : Word) (r : Round), s.phases.contains (id, st) = false → st = 12 →
    s.round c.val = some r → s.roundOpen c.val = true → rdId r.desc = id → rdGroup r.desc = true →
    s.isCoord r.desc = false → s.hub.reset = none → exec (.phaseReceive (BitVec.ofNat 8 c.val) st id) s =
      .next ((({ s with phases := (id, st) :: s.phases } : State).endRound c.val .aborted).done Code.ok)) ∧
  (∀ (s : State) (c : Fin 16) (r : Round), s.round c.val = some r → r.phaseSends ≠ 0 → s.hub.reset = none → exec (.phaseResend c) s =
    .next (((s.setRound c.val { r with phaseSends := r.phaseSends - 1 }).sendCtrl none 6
      (be 1 c.val ++ be 1 r.phase ++ be 4 (rdId r.desc).toNat)).done Code.ok)) ∧
  (∀ (s : State) (c : Fin 16) (r : Round) (sh : BitVec 24), s.round c.val = some r → r.state = .update →
    (s.updates r).any (fun j => decide (rdShard r.desc j = sh.toNat)) = true → s.hub.reset = none → exec (.updateStart c sh) s =
    .next (if s.copyPinned c.val sh.toNat then (s.setRound c.val { r with exportWait := true }).waits
      else (s.setRound c.val { r with exportWait := false }).done Code.ok))

/-- Loss in a round (R200, R203, R214, R253, R258). In an open round with a module group, a failed shard that the round names
joins the failed shards, with every client of its cohort dropped; the fold root clears its stream, another coordinator
asks the root to, and any other module only keeps it. In FOLD with a module group, a coordinator whose fold root it is
ends the epoch when the stream has expired, naming the late hosts to every module; one that is not the root does so for
the hosts a report names, a module that does not coordinate for those its message names, and a root that does not
coordinate reports them. An epoch that ends rises by one, keeps the late hosts with the earlier ones and drops their
clients, then makes new group masks. In COLLECT, with no client of the shard classified, CLIENT_CLASSIFY does what the
module's classification does: a client that is not dropped, in a round without screening, is ABSENT with no chunk bit,
COMPLETE with every one, PARTIAL with some, and a dropped client is ABSENT. From INPUT's code on (3) in an open screening
round, SKETCH_SCAN first fails the group in which a FAULTED C-strand has stopped, then lists each newly complete sketch,
of the only C-strand with the next group and position; with none complete it lists nothing. -/
def Obligations.RoundLossAndSurvivors : Prop :=
  (∀ (s : State) (c : Fin 16) (sh : BitVec 24) (r : Round) (j : Nat), s.round c.val = some r →
    (List.range (rdN r.desc)).find? (fun k => decide (rdShard r.desc k = sh.toNat)) = some j →
    s.roundOpen c.val = true → rdGroup r.desc = true → s.hub.reset = none → ∃ t, exec (.shardFailReport c sh) s = .next t ∧
    t.round c.val = some (r.failShard j) ∧
    (rdRoot r.desc = s.ownId → t.fse (Config.streamTag c.val sh.toNat % 65536) = 0) ∧
    (rdRoot r.desc ≠ s.ownId → s.isCoord r.desc = true → t = ((s.setRound c.val (r.failShard j)).emit
      (.daxna (BitVec.ofNat 14 (rdRoot r.desc)) 4 (be 3 sh.toNat))).done Code.ok) ∧
    (rdRoot r.desc ≠ s.ownId → s.isCoord r.desc = false → t = (s.setRound c.val (r.failShard j)).done Code.ok)) ∧
  (∀ (r : Round) (j u : Nat), r.isFailed j = false → u < rdCohort r.desc j → rdCohort r.desc j ≤ 2 ^ 20 →
    (r.failShard j).client j u = { r.client j u with dropped := true } ∧
    (r.failShard j).failed = BitVec.ofNat 24 (rdShard r.desc j) :: r.failed) ∧
  (∀ (s : State) (c : Fin 16) (x : EpochEnd) (r : Round), s.round c.val = some r → r.state = .fold →
    rdGroup r.desc = true → s.isCoord r.desc = false → x.late ≠ [] →
    s.hub.reset = none → exec (.foldEpochEnd c x) s = .next (s.goOn (s.epochEnds c.val r x.late) (fun t => t.done Code.ok))) ∧
  (∀ (s : State) (c : Fin 16) (tag : BitVec 16) (r : Round), s.round c.val = some r → r.state = .fold →
    rdGroup r.desc = true → rdRoot r.desc = s.ownId → s.isCoord r.desc = false → fseExpired (s.fse tag.toNat) = true →
    s.hub.reset = none → exec (.foldEpochEnd c ⟨tag, []⟩) s = .next ((s.emit (.daxna (BitVec.ofNat 14 (rdCoord r.desc)) 5
      (lateBody r (s.lateHosts c.val r)))).done Code.ok)) ∧
  (∀ (s : State) (c : Fin 16) (x : EpochEnd) (r : Round) (hs : List (BitVec 14)), s.round c.val = some r →
    r.state = .fold → rdGroup r.desc = true → s.isCoord r.desc = true →
    (rdRoot r.desc = s.ownId ∧ fseExpired (s.fse x.tag.toNat) = true ∧ hs = s.lateHosts c.val r ∨
      rdRoot r.desc ≠ s.ownId ∧ x.late ≠ [] ∧ hs = x.late) →
    s.hub.reset = none → exec (.foldEpochEnd c x) s = .next (s.goOn ((s.tellAll r.desc 5 (lateBody r hs)).epochEnds c.val r hs)
      (fun t => t.done Code.ok))) ∧
  (∀ (s : State) (c : Nat) (r : Round) (hs : List (BitVec 14)), ∃ (t : State) (u : Round),
    s.epochEnds c r hs = (if rdRoot r.desc = s.ownId then t else t.cancelRemask c).feedGroup c ∧ t.round c = some u ∧
    u.epoch = r.epoch + 1 ∧ (∀ h, h ∈ r.lostHosts ∨ h ∈ hs → h ∈ u.lostHosts) ∧ u.desc = r.desc ∧ t.fst = s.fst ∧
    (∀ j k, j < rdN r.desc → BitVec.ofNat 14 (rdHost r.desc j) ∈ hs → k < rdCohort r.desc j →
      rdCohort r.desc j ≤ 2 ^ 20 → (u.client j k).dropped = true)) ∧
  (∀ (s : State) (c : Fin 16) (sh : BitVec 24) (r : Round) (j : Nat), s.round c.val = some r →
    s.shardIx r.desc sh.toNat = some j → r.state = .collect → (r.client j 0).cls = .unclassified →
    s.hub.reset = none → exec (.clientClassify c sh) s = .next ((s.classify_ c.val r j).done Code.ok)) ∧
  (∀ (s : State) (r : Round) (j u : Nat) (x : Client), x.dropped = false → rdScreen r.desc = false →
    ((∀ k, k < rdChunks r.desc j → s.chunkBit r j u k = false) → s.classOf r j u x = .absent) ∧
    (0 < rdChunks r.desc j → (∀ k, k < rdChunks r.desc j → s.chunkBit r j u k = true) →
      s.classOf r j u x = .complete) ∧
    (∀ k m, k < rdChunks r.desc j → m < rdChunks r.desc j → s.chunkBit r j u k = true →
      s.chunkBit r j u m = false → s.classOf r j u x = .partly)) ∧
  (∀ (s : State) (r : Round) (j u : Nat) (x : Client), x.dropped = true → s.classOf r j u x = .absent) ∧
  (∀ (s : State) (c : Fin 16) (r : Round), s.round c.val = some r → rdScreen r.desc = true → s.roundOpen c.val = true →
    3 ≤ rstateCode r.state → s.hub.reset = none → exec (.sketchScan c) s = .next (((s.ownShards r.desc).foldl (fun t j =>
      (List.range (rdCohort r.desc j)).foldl (fun w u =>
        if ¬ (r.client j u).dropped ∧ (r.client j u).listed.isNone ∧ (r.client j u).screened = .undecided ∧
          w.sketchWhole c.val r j u then w.listSketch c.val j u else w) t) (s.failStopped c.val)).done Code.ok)) ∧
  (∀ (s : State) (c : Fin 16) (r : Round), s.round c.val = some r → rdScreen r.desc = true → s.roundOpen c.val = true →
    3 ≤ rstateCode r.state → (∀ j u, j ∈ s.ownShards r.desc → u < rdCohort r.desc j →
      (s.failStopped c.val).sketchWhole c.val r j u = false) →
    s.hub.reset = none → exec (.sketchScan c) s = .next ((s.failStopped c.val).done Code.ok)) ∧
  (∀ (s : State) (c j u g p : Nat) (r : Round) (e : Nat × Nat), s.round c = some r → s.cStrands c = [e] →
    g = s.listedOn c (cNum e) / s.packN c → p = s.listedOn c (cNum e) % s.packN c →
    ∃ (t : State) (b : Bool) (x : Option Nat),
      s.postWork c (cNum e) (strandIx e.1 e.2) (workRec (rdShard r.desc j) u g p) = (t, b, x) ∧
      s.listSketch c j u = if x.isNone = true then t else
        (t.setCtx c { t.ctx c with exports := (t.ctx c).exports.filter (fun a =>
          decide (a ≠ Config.groupHeader c (cNum e) g)) }).setRound c
          (r.setClient j u { r.client j u with listed := some (cNum e, g, p) })) ∧
  (∀ (s : State) (c : Nat), (∀ e, e ∈ s.cStrands c → s.sst e.1 e.2 ≠ SS.faulted) → s.failStopped c = s) ∧
  (∀ (s : State) (c g : Nat) (e : Nat × Nat), s.cStrands c = [e] → s.sst e.1 e.2 = SS.faulted →
    (List.range ((s.listedOn c (cNum e) + s.packN c - 1) / s.packN c)).find? (fun k => !s.groupPosted c (cNum e) k) =
      some g → s.failStopped c = s.failGroup c (cNum e) g)

/-- SHARE datagrams, taken from the front of a setup queue with no hub reset; SHARES only while memory is awake, and it waits
otherwise (R190, R194, R195, R201, R286). One that has been acted on is acknowledged again, or, if it was late or early,
gets its CLOSE again, in any phase. One that is new: with no round of its ROUND_ID open it is dropped and counted
STALE_ROUND; in another phase of the open round LATE_SHARE counts it, it is kept as answered and CLOSE with RETRY_EXCEEDED
goes out; in its phase it is acted on once and acknowledged, or only acknowledged where it names no shard of the module or
a client outside the cohort. ADVERTISE is kept once, of 248 bytes. Secrets of COLLECT, of a shard of this module (R196,
R200–R202, R204). SECRET_INTERPOLATE of a secret that is needed, of a client that has advertised, with T shares of it
revealed, keeps the value that the shares give, or answers SIGNATURE_FAIL where none verifies. What is kept is the
interpolation of T shares that follow each other in order of arrival, and verifies against the client's advertisement;
none is kept only if no such run verifies. One share gives its own value at zero, two at x = 1 and x = 2 the value at zero
of their line, in the scalar field. PAIRWISE_SEED_DERIVE of an ABSENT or PARTIAL client with its secret kept and a
neighbour in the sum keeps the pair's seed and leaves its other seeds and the other clients as they were. -/
def Obligations.SharesAndSecrets : Prop :=
  (∀ (s t : State) (l : Fin 4) (m : SetupMsg) (ms : List SetupMsg) (i : Nat) (cmd : Instr) (sub : Byte)
    (ph : RState) (act : Nat → Round → Nat → Nat → Aip → State → State),
    (cmd, sub, ph, act) ∈ [(Instr.shareAdvertise l, (1 : Byte), RState.advertise, advertiseAct),
      (.shareShares l, 2, .share, sharesAct), (.shareReveal l, 5, .collect, revealAct)] →
    (s.estLd l.val).setup = m :: ms → s.hub.reset = none → m.msg.typ = 3 → m.msg.subtype = sub → m.session = some i →
    (sub = 2 → s.hbmWait = none) → t = s.setupRest l.val ms →
    (m.msg.seq ∈ (s.session i).seen → m.msg.seq ∉ (s.session i).closed →
      exec cmd s = .next ((t.ackReceived i m.msg).done Code.ok)) ∧
    (m.msg.seq ∈ (s.session i).seen → m.msg.seq ∈ (s.session i).closed →
      exec cmd s = .next ((t.closeShare i m.msg).done Code.ok)) ∧
    (m.msg.seq ∉ (s.session i).seen → s.round (s.session i).ctx.val = none →
      exec cmd s = .next ((t.estCount l.val 0x4C).done Code.ok)) ∧
    (∀ r, m.msg.seq ∉ (s.session i).seen → s.round (s.session i).ctx.val = some r →
      (s.roundOpen (s.session i).ctx.val = false ∨ rdId r.desc ≠ m.msg.round) →
      exec cmd s = .next ((t.estCount l.val 0x4C).done Code.ok)) ∧
    (∀ r, m.msg.seq ∉ (s.session i).seen → s.round (s.session i).ctx.val = some r →
      s.roundOpen (s.session i).ctx.val = true → rdId r.desc = m.msg.round → r.state ≠ ph →
      exec cmd s = .next ((((t.setRound (s.session i).ctx.val { r with lateShare := r.lateShare + 1 }).setSession i
        { s.session i with seen := m.msg.seq :: (s.session i).seen, closed := m.msg.seq :: (s.session i).closed }).closeShare
          i m.msg).done Code.ok)) ∧
    (∀ r, m.msg.seq ∉ (s.session i).seen → s.round (s.session i).ctx.val = some r →
      s.roundOpen (s.session i).ctx.val = true → rdId r.desc = m.msg.round → r.state = ph →
      s.shardIx r.desc m.msg.shard.toNat = none → exec cmd s = .next ((t.ackReceived i m.msg).done Code.ok)) ∧
    (∀ r j, m.msg.seq ∉ (s.session i).seen → s.round (s.session i).ctx.val = some r →
      s.roundOpen (s.session i).ctx.val = true → rdId r.desc = m.msg.round → r.state = ph →
      s.shardIx r.desc m.msg.shard.toNat = some j → exec cmd s =
      .next ((match r.slotOf j (s.session i).client with
        | none => t.ackReceived i m.msg
        | some u => (t.once i m.msg (act (s.session i).ctx.val r j u m.msg)).ackReceived i m.msg).done Code.ok))) ∧
  (∀ (s t : State) (l : Fin 4), s.hbmWait = some t → exec (.shareShares l) s = .next (s.waitsFor t)) ∧
  (∀ (s : State) (c : Nat) (r : Round) (j u : Nat) (m : Aip), m.payload.length = 248 → (r.client j u).adv = none → ∃ w,
    (advertiseAct c r j u m s).round c = some w ∧
    (w.client j u).adv = some (sub m.payload 0 97, sub m.payload 97 97, sub m.payload 194 48) ∧
    (∀ k, k ≠ u → w.client j k = r.client j k) ∧ w.state = r.state) ∧
  (∀ (s : State) (c : Nat) (r : Round) (j u : Nat) (m : Aip), (m.payload.length ≠ 248 ∨ (r.client j u).adv ≠ none) →
    advertiseAct c r j u m s = s) ∧
  (∀ (s : State) (i : Nat) (m : Aip) (k : State → State), m.seq ∈ (s.session i).seen → s.once i m k = s) ∧
(∀ (s : State) (c : Fin 16) (sh : BitVec 24) (u : Nat) (pw : Bool) (r : Round) (j : Nat) (a : Bytes × Bytes × Bytes),
    s.round c.val = some r → s.shardIx r.desc sh.toNat = some j → (r.client j u).adv = some a → r.state = .collect →
    u < rdCohort r.desc j → (if pw then r.needS j u else r.needB j u) = true →
    rdT r.desc ≤ ((r.client j u).revealed.filter (fun e => decide (e.1 = pw))).length →
    s.hub.reset = none → exec (.secretInterpolate c sh u pw) s =
      .next (match reconstruct r.desc a pw (rdT r.desc) ((r.client j u).revealed.filter (fun e => decide (e.1 = pw))) with
        | none => s.done Code.signatureFail
        | some v => (s.setRound c.val (r.setClient j u (if pw then { r.client j u with secretS := some v }
            else { r.client j u with secretB := some (v.drop 16) }))).done Code.ok)) ∧
  (∀ (b : Bytes) (a : Bytes × Bytes × Bytes) (pw : Bool) (n : Nat) (xs : List (Bool × Nat × Bytes)),
    match reconstruct b a pw n xs with
    | some v => verifies b a pw v = true ∧ ∃ k, k + n ≤ xs.length ∧ v = interp ((xs.drop k).take n)
    | none => ∀ k, k + n ≤ xs.length → verifies b a pw (interp ((xs.drop k).take n)) = false) ∧
  (∀ (s : State) (c : Fin 16) (sh : BitVec 24) (v u : Nat) (r : Round) (j : Nat) (sv : Bytes) (a : Bytes × Bytes × Bytes),
    s.round c.val = some r → s.shardIx r.desc sh.toNat = some j → (r.client j v).secretS = some sv →
    (r.client j u).adv = some a → (r.near j v).contains u = true → (r.client j u).inSum = true →
    ((r.client j v).cls = .absent ∨ (r.client j v).cls = .partly) → s.hub.reset = none → ∃ w,
    exec (.pairwiseSeedDerive c sh v u) s = .next ((s.setRound c.val w).done Code.ok) ∧
    (u, pairSeed r.desc j v u sv a.2.1) ∈ (w.client j v).pair ∧ (w.client j v).secretS = some sv ∧
    (∀ e, e ∈ (r.client j v).pair → e.1 ≠ u → e ∈ (w.client j v).pair) ∧
    (∀ k, k ≠ v → w.client j k = r.client j k) ∧ w.state = r.state) ∧
  (∀ x y : Nat, interpolate [(x, y)] = y % p384Order) ∧
  (∀ y z : Nat, interpolate [(1, y), (2, z)] = (2 * y + (p384Order - 1) * z) % p384Order)

/-- FRAME_RECEIVE (R16, R83, R278–R280, R295–R299). On a lane that is not up nothing happens. On one that is up the frame and
its codewords count, and then: the first check of R278 that it fails counts and nothing else changes; a question for the
lane's own address is answered and counted. Of a datagram that goes on: HELLO INIT with both checksums good needs no
session, and a full setup queue answers it RETRY_AFTER; another waits for its record, or is counted as dropped with no
room, where the record is not cached or a frame of its session waits already. With the record cached, no such frame
waiting and its session not refused, a CHUNK or SKETCH is written to its shard's ingress queue and counted, marked
FORMAT_ERROR where its FCS or UDP checksum failed; a datagram for the hub with both checksums good and room in the setup
queue is queued in clear if its tag holds, and counted as refused if not. A packet written with room stays behind the one
before it; one that meets FULL in a queue that is not being zeroed is cut to its room, marked, and sets OVERRUN. A word
poisoned on a die-to-die link marks the packet as uncorrectable, and a datagram so poisoned is counted and not queued.
Estuary's session checks (R295, R296): no usable record, or one of another epoch, is refused as that; a LIVE session of
the present epoch behind a closed gate as that; a CHUNK of another round, behind an open gate, as that. Input that is not
refused is of a LIVE session and of the present round, with the gate in INPUT or COLLECT, and in a screened round of a
client admitted to that round; a SKETCH that is not refused is of a LIVE session with the gate in SCREEN. -/
def Obligations.FrameReceive : Prop :=
  (∀ (s : State) (f : EthFrame), s.ethUp f.lane.val = false → exec (.frameReceive f) s = .next (s.done Code.ok)) ∧
  (∀ (s t : State) (f : EthFrame) (o : Nat), s.ethUp f.lane.val = true → t = s.frameIn f →
    t.frameRefused f = some o → exec (.frameReceive f) s =
      .next ((t.estCount (f.lane.val / 16) (if f.fcsOk then o else 0x20)).done Code.ok)) ∧
  (∀ (s t : State) (f : EthFrame), s.ethUp f.lane.val = true → t = s.frameIn f → t.frameRefused f = none →
    t.answersAsk f = true → exec (.frameReceive f) s = .next ((if f.fcsOk
      then (t.estCount (f.lane.val / 16) 0x30).emit (.eth f.lane.val (t.askReply f))
      else t.estCount (f.lane.val / 16) 0x20).done Code.ok)) ∧
  (∀ (s t : State) (f : EthFrame) (l e q : Nat) (r : SessRec), s.ethUp f.lane.val = true → t = s.frameIn f →
    t.frameGoesOn f → l = f.lane.val / 16 → f.aip.toStrand = true → t.cacheHit l f.aip.sid = some (e, r) →
    t.missWaits l f.aip.sid = false → t.sessionRefused l r f.aip = none → t.strandQueue l r.ctx.val f.aip = .inl q →
    exec (.frameReceive f) s = .next ((if (lateCounter f).isSome
      then ((t.writePkt l q (ingressPkt t l (l * 2 ^ 20 + e) f.lane.val f.aip Code.formatError)).touchRec l e).estCount l 0x70
      else ((t.writePkt l q (ingressPkt t l (l * 2 ^ 20 + e) f.lane.val f.aip Code.ok)).touchRec l e).estCount64 l 0x08).done
        Code.ok)) ∧
  (∀ (s t : State) (f : EthFrame) (l e : Nat) (r : SessRec), s.ethUp f.lane.val = true → t = s.frameIn f →
    t.frameGoesOn f → l = f.lane.val / 16 → lateCounter f = none → f.aip.toStrand = false → f.aip.is 1 1 = false →
    t.cacheHit l f.aip.sid = some (e, r) → t.missWaits l f.aip.sid = false → t.sessionRefused l r f.aip = none →
    t.setupFull l f.aip.length.toNat = false → exec (.frameReceive f) s =
      .next ((match r.keys.bind (fun ks => Config.gcmOpen ks.1 ([0, 0, 0, 0, 0, 0] ++ be 6 f.aip.seq.toNat) f.aip.hdr
          f.aip.payload f.aip.tag) with
        | none => t.estCount l 0x68
        | some b => (t.putRec l e { r with ret := f.ret }).toSetup l (some (l * 2 ^ 20 + e)) f.ret
            { f.aip with payload := b }).done Code.ok)) ∧
  (∀ (s t : State) (f : EthFrame), s.ethUp f.lane.val = true → t = s.frameIn f → t.frameGoesOn f →
    lateCounter f = none → f.aip.is 1 1 = true → exec (.frameReceive f) s =
      .next ((if t.setupFull (f.lane.val / 16) f.aip.length.toNat then t.retryAfter (f.lane.val / 16) f
        else t.toSetup (f.lane.val / 16) none f.ret f.aip).done Code.ok)) ∧
  (∀ (s t : State) (f : EthFrame) (l : Nat) (x : EstLd), s.ethUp f.lane.val = true → t = s.frameIn f →
    t.frameGoesOn f → l = f.lane.val / 16 → lateCounter f = none → f.aip.is 1 1 = false → x = t.estLd l →
    (t.cacheHit l f.aip.sid = none ∨ t.missWaits l f.aip.sid = true) →
    exec (.frameReceive f) s = .next ((if 256 ≤ x.miss.length ∨ 2 ^ 20 < (x.miss.map (fun g => g.size)).sum + f.size
      then t.estCount l 0x6C else t.setEstLd l { x with miss := x.miss ++ [f] }).done Code.ok)) ∧
  (∀ (s t : State) (l q : Nat) (p : Pkt) (b : Bool), s.crossPorts (route (4 + l) (q / 4)) = (t, b) →
    p.words ≤ s.queueFree q → s.writePkt l q p = t.setQueue q { s.queue q with
      pkts := (s.queue q).pkts ++ (s.queue q).wr.toList, wr := some { p with bad := p.bad || b } }) ∧
  (∀ (s t : State) (l q : Nat) (p : Pkt) (b : Bool), s.crossPorts (route (4 + l) (q / 4)) = (t, b) →
    s.queueFree q < p.words → 0 < s.queueFree q → (s.queue q).zeroing = false →
    s.writePkt l q p = (t.setQueue q { s.queue q with
      pkts := (s.queue q).pkts ++ (s.queue q).wr.toList ++ [{ p with bad := p.bad || b }.cut (s.queueFree q)]
      wr := none }).iqOverrun q) ∧
  (∀ (s t : State) (l q : Nat) (p : Pkt) (b : Bool), s.crossPorts (route (4 + l) (q / 4)) = (t, b) →
    0 < p.words → s.queueFree q = 0 → (s.queue q).zeroing = false → s.writePkt l q p = t.iqOverrun q) ∧
  (∀ (s t : State) (l : Nat) (i : Option Nat) (ret : RetPath) (m : Aip), s.crossPorts (route (4 + l) 8) = (t, true) →
    s.toSetup l i ret m = t.estCount64 l 0x10) ∧
(∀ (s : State) (l : Nat) (r : SessRec) (m : Aip), r.st = 0 → s.sessionRefused l r m = some 0x44) ∧
  (∀ (s : State) (l : Nat) (r : SessRec) (m : Aip), r.epoch.toNat ≠ s.fld (Reg.estGate l r.ctx.val) 23 16 →
    s.sessionRefused l r m = some 0x44) ∧
  (∀ (s : State) (l : Nat) (r : SessRec) (m : Aip), r.st = 2 →
    r.epoch.toNat = s.fld (Reg.estGate l r.ctx.val) 23 16 →
    s.fld (Reg.estGate l r.ctx.val) 31 31 = 0 → s.sessionRefused l r m = some 0x48) ∧
  (∀ (s : State) (l : Nat) (r : SessRec) (m : Aip), r.st = 2 →
    r.epoch.toNat = s.fld (Reg.estGate l r.ctx.val) 23 16 → s.fld (Reg.estGate l r.ctx.val) 31 31 = 1 → m.typ = 5 →
    m.round ≠ s.reg (Reg.estRound l r.ctx.val) → s.sessionRefused l r m = some 0x4C) ∧
  (∀ (s : State) (l : Nat) (r : SessRec) (m : Aip), m.typ = 5 → s.sessionRefused l r m = none →
    (r.st = 2 ∧ m.round = s.reg (Reg.estRound l r.ctx.val) ∧
    (s.fld (Reg.estGate l r.ctx.val) 3 0 = 5 ∨ s.fld (Reg.estGate l r.ctx.val) 3 0 = 6) ∧
    (s.fld (Reg.estGate l r.ctx.val) 8 8 = 1 → r.admitted = true ∧ r.admitRound = s.reg (Reg.estRound l r.ctx.val)))) ∧
  (∀ (s : State) (l : Nat) (r : SessRec) (m : Aip), m.typ = 4 → s.sessionRefused l r m = none →
    r.st = 2 ∧ s.fld (Reg.estGate l r.ctx.val) 3 0 = 4)

/-- Sessions (R286–R294, R298, R301, R407, R431). A HELLO INIT at the front of a setup queue, no hub reset: of another length,
of a client enrolled in no active context, or with the ingress keys refused, it is dropped; else one whose tag fails is
dropped, and one whose tag holds waits while the entropy source starts, and otherwise makes a PENDING session at a free
index, or is refused BUSY with none, ENTROPY_UNAVAILABLE with a failed source. HELLO CONFIRM of a session, its region
readable, makes it LIVE once and is acknowledged; the client's former LIVE sessions in the context end. A PENDING session
expires, and its index waits until it is released. CLOSE END at the front is answered, with the record freed by the first
only; CLOSE DONE gets ACK CHUNKS. The end of a cache flush leaves the context's dead records in no cache and frees the
dead sessions. A lookup that is done, with no earlier frame of its session waiting and the region readable, takes its
frame out and classifies it with the record found, if its SESSION_ID agrees; behind an earlier one of its session it
waits. A gate raised from 0 starts a new epoch. EST_GATE_WRITE and the key port (R291, R292, R294, R301). With the access
permitted, clean links and the light die's domain ON, a write of a gate is the write of its ACTIVE, SCREEN and PHASE. A
key is given only for a LIVE session of the present epoch behind an open gate whose context is not revoked, and it is the
record's first key. With the record delivered, KEY_PORT_REQUEST gives the key of such a session that has keys; answers
NO_KEY for a FREE one, one that is not LIVE, of another epoch or behind a closed gate, and REVOKED for one whose context
is revoked; for a light die that is not fitted it answers NO_KEY. A cached record is delivered as it is; a read that
failed answers its code, one that stalls waits. A wait is the reply DEFERRED (the model's choice, notes/assumptions/7.md). -/
def Obligations.SessionsAndGates : Prop :=
  (∀ (s t : State) (l : Fin 4) (m : SetupMsg) (ms : List SetupMsg) (x : Fin 16), (s.estLd l.val).setup = m :: ms →
    s.hub.reset = none → m.msg.is 1 1 = true → t = s.setupRest l.val ms →
    (m.msg.payload.length ≠ 1236 ∨ t.enrolled l.val x.val (helloClient m.msg) = none ∨ t.ingressOk = false) →
    exec (.helloInit l x) s = .next ((t.helloDropped l.val).done Code.ok)) ∧
  (∀ (s t : State) (l : Fin 4) (m : SetupMsg) (ms : List SetupMsg) (c : Nat) (psk : Bytes) (x : Fin 16),
    (s.estLd l.val).setup = m :: ms → s.hub.reset = none → m.msg.is 1 1 = true → m.msg.payload.length = 1236 →
    t = s.setupRest l.val ms → t.enrolled l.val x.val (helloClient m.msg) = some (c, psk) → t.ingressOk = true →
    exec (.helloInit l x) s =
      .next (match Config.gcmOpen (t.helloKeys m.msg psk).1 ([0, 0, 0, 0, 0, 0] ++ be 6 m.msg.seq.toNat)
          (m.msg.hdr ++ m.msg.payload) [] m.msg.tag with
        | none => (t.helloDropped l.val).done Code.ok
        | some _ => if t.entPort = .stall then s.waits else
            (t.helloAccept l.val c m (t.helloKeys m.msg psk)).done Code.ok)) ∧
  (∀ (s : State) (l c i : Nat) (m : SetupMsg) (k : BitVec 256 × BitVec 256), s.entPort = .served →
    s.freeIndex l = some i → s.helloAccept l c m k = s.newSession l i c m k) ∧
  (∀ (s : State) (l c : Nat) (m : SetupMsg) (k : BitVec 256 × BitVec 256), s.entPort = .served →
    s.freeIndex l = none → s.helloAccept l c m k = s.refuseHello l m.ret k.2 Code.busy) ∧
  (∀ (s : State) (l c : Nat) (m : SetupMsg) (k : BitVec 256 × BitVec 256), s.entPort = .refused →
    s.helloAccept l c m k = s.refuseHello l m.ret k.2 Code.entropyUnavailable) ∧
  (∀ (v : DWord), sidOf v ≠ 0 ∧ (sidOf v).toNat % 2 ^ 19 ≠ (sidOf v).toNat / 2 ^ 19 % 2 ^ 19) ∧
  (∀ (s t : State) (l : Fin 4) (m : SetupMsg) (ms : List SetupMsg) (i : Nat), (s.estLd l.val).setup = m :: ms →
    s.hub.reset = none → m.msg.is 1 2 = true → m.session = some i → s.estStall l.val = false →
    t = s.setupRest l.val ms →
    exec (.helloConfirm l) s = .next (((t.once i m.msg (fun u => u.goLive i)).ackReceived i m.msg).done Code.ok)) ∧
  (∀ (s : State) (i : Nat), (s.session i).st = 1 → ((s.goLive i).session i).st = 2 ∧
    (∀ k, k ≠ i → ((s.goLive i).session k).st = 2 → ((s.goLive i).session k).client = (s.session i).client →
      ((s.goLive i).session k).ctx ≠ (s.session i).ctx)) ∧
  (∀ (s : State) (l : Fin 4) (i : Fin 1048576), (s.session (l.val * 2 ^ 20 + i.val)).st = 1 →
    s.estStall l.val = false → ∃ t, exec (.sessionPendingExpire l i) s = .next t ∧
    t.session (l.val * 2 ^ 20 + i.val) = { Session.zero with hold := true } ∧
    (∀ k, k ≠ l.val * 2 ^ 20 + i.val → t.session k = s.session k) ∧ t.reply = ⟨Code.ok, 0⟩) ∧
  (∀ (s : State) (l : Fin 4) (i : Fin 1048576), (s.session (l.val * 2 ^ 20 + i.val)).hold = true → ∃ t,
    exec (.sessionIndexRelease l i) s = .next t ∧ (t.session (l.val * 2 ^ 20 + i.val)).hold = false ∧
    (∀ k, k ≠ l.val * 2 ^ 20 + i.val → t.session k = s.session k) ∧ t.reply = ⟨Code.ok, 0⟩) ∧
  (∀ (s : State) (l : Fin 4) (m : SetupMsg) (ms : List SetupMsg) (i : Nat), (s.estLd l.val).setup = m :: ms →
    s.hub.reset = none → m.msg.is 8 1 = true → m.session = some i → exec (.closeEnd l) s =
      .next ((((s.setupRest l.val ms).once i m.msg (fun u => u)).postTx i
        (if m.msg.seq ∈ (s.session i).seen then 0 else 3) (mkAip 8 1 Code.ok 0 0 0 0 (le 8 0))).done Code.ok)) ∧
  (∀ (s : State) (l : Fin 4) (m : SetupMsg) (ms : List SetupMsg) (i : Nat), (s.estLd l.val).setup = m :: ms →
    s.hub.reset = none → m.msg.is 8 2 = true → m.session = some i → exec (.closeDone l) s =
      .next (((s.setupRest l.val ms).ackChunks i m.msg).done Code.ok)) ∧
  (∀ (s : State) (c : Fin 16), exec (.sessionCacheFlushDone c) s =
    .next (((s.flushCaches c.val).freeDead c.val).done Code.ok)) ∧
  (∀ (s t : State) (c l e : Nat) (r : SessRec), t = s.flushCaches c → l < s.part.ldCount → t.cachedRec l e = some r →
    r.ctx.val = c → s.recDead l r = false) ∧
  (∀ (s : State) (c : Nat), (∀ e, e ∈ s.sess → e.2.st ≠ 0 → e.2.ctx.val = c →
    s.fld (Reg.estGate (e.1 / 2 ^ 20) c) 31 31 = 1 ∧ e.2.epoch.toNat = s.fld (Reg.estGate (e.1 / 2 ^ 20) c) 23 16) →
    s.freeDead c = s) ∧
  (∀ (s y z : State) (l : Fin 4) (n : Fin 256) (f : EthFrame), (s.estLd l.val).miss[n.val]? = some f →
    ((s.estLd l.val).miss.take n.val).any (fun g => decide (g.aip.sid = f.aip.sid)) = false → s.estStall l.val = false →
    z = s.setEstLd l.val { s.estLd l.val with miss := (s.estLd l.val).miss.eraseIdx n.val } →
    z.lookup l.val f.aip.sid = (y, none) →
    exec (.sessionLookupDone ⟨l, n⟩) s = .next ((y.classify f (lateCounter f) none).done Code.ok)) ∧
  (∀ (s : State) (f : EthFrame) (late : Option Nat),
    s.classify f late none = s.estCount (f.lane.val / 16) (late.getD 0x44)) ∧
  (∀ (s y z : State) (l : Fin 4) (n : Fin 256) (f : EthFrame) (b k e : Nat), (s.estLd l.val).miss[n.val]? = some f →
    ((s.estLd l.val).miss.take n.val).any (fun g => decide (g.aip.sid = f.aip.sid)) = false → s.estStall l.val = false →
    z = s.setEstLd l.val { s.estLd l.val with miss := (s.estLd l.val).miss.eraseIdx n.val } →
    z.lookup l.val f.aip.sid = (y, some (b, k, e)) → exec (.sessionLookupDone ⟨l, n⟩) s =
      .next (((y.fetchRec l.val e).st.classify f (lateCounter f) (if (y.fetchRec l.val e).code = Code.ok ∧
        (y.fetchRec l.val e).record.sid = f.aip.sid then some (e, (y.fetchRec l.val e).record) else none)).done Code.ok)) ∧
  (∀ (s : State) (l : Fin 4) (n : Fin 256) (f : EthFrame), (s.estLd l.val).miss[n.val]? = some f →
    ((s.estLd l.val).miss.take n.val).any (fun g => decide (g.aip.sid = f.aip.sid)) = true →
    exec (.sessionLookupDone ⟨l, n⟩) s = .next s.waits) ∧
  (∀ (s : State) (l c : Nat) (v : Word), l < 4 → c < 16 → bit v 31 = true → s.fld (Reg.estGate l c) 31 31 = 0 →
    (s.gateWrite l c v).fld (Reg.estGate l c) 23 16 = (s.fld (Reg.estGate l c) 23 16 + 1) % 256 ∧
    (s.gateWrite l c v).fld (Reg.estGate l c) 31 31 = 1 ∧ (s.gateWrite l c v).fld (Reg.estGate l c) 3 0 = bits v 3 0) ∧
(∀ (s : State) (a : Acc) (v : Word) (l c : Nat), s.accessCheck a true = none → s.linksClean = true → l < s.part.ldCount →
    s.pdState (pdLd l) = 0 → a.addr = Reg.estGate l c → c < 16 →
    exec (.estGateWrite a v) s = .next ((s.dropWbuf a.core.val).gateWrite l c v)) ∧
  (∀ (s : State) (l e : Nat) (r : SessRec), s.cachedRec l e = some r → s.fetchRec l e = ⟨s, Code.ok, false, r⟩) ∧
  (∀ (s : State) (i : BitVec 22) (x : Fetched), i.toNat / 2 ^ 20 < s.part.ldCount →
    x = s.fetchRec (i.toNat / 2 ^ 20) (i.toNat % 2 ^ 20) → x.stall = false → x.code = Code.ok → x.record.st = 2 →
    x.st.portRevoked x.record.ctx.val = false → x.st.epochNow (i.toNat / 2 ^ 20) x.record = true →
    x.st.fld (Reg.estGate (i.toNat / 2 ^ 20) x.record.ctx.val) 31 31 = 1 → x.record.keys ≠ none →
    exec (.keyPortRequest i) s = .next ((x.st.emit (.key 0)).done Code.ok)) ∧
  (∀ (s : State) (i : BitVec 22) (x : Fetched), i.toNat / 2 ^ 20 < s.part.ldCount →
    x = s.fetchRec (i.toNat / 2 ^ 20) (i.toNat % 2 ^ 20) → x.stall = false → x.code = Code.ok →
    (x.record.st = 0 ∨ x.st.portRevoked x.record.ctx.val = false ∧ (x.record.st ≠ 2 ∨
      x.st.epochNow (i.toNat / 2 ^ 20) x.record = false ∨
      x.st.fld (Reg.estGate (i.toNat / 2 ^ 20) x.record.ctx.val) 31 31 = 0)) →
    exec (.keyPortRequest i) s = .next ((x.st.emit (.key 1)).done Code.ok)) ∧
  (∀ (s : State) (i : BitVec 22) (x : Fetched), i.toNat / 2 ^ 20 < s.part.ldCount →
    x = s.fetchRec (i.toNat / 2 ^ 20) (i.toNat % 2 ^ 20) → x.stall = false → x.code = Code.ok → x.record.st ≠ 0 →
    x.st.portRevoked x.record.ctx.val = true →
    exec (.keyPortRequest i) s = .next ((x.st.emit (.key 2)).done Code.keyRevoked)) ∧
  (∀ (s : State) (i : BitVec 22) (x : Fetched), i.toNat / 2 ^ 20 < s.part.ldCount →
    x = s.fetchRec (i.toNat / 2 ^ 20) (i.toNat % 2 ^ 20) →
    (x.stall = true → exec (.keyPortRequest i) s = .next s.waits) ∧
    (x.stall = false → x.code ≠ Code.ok → exec (.keyPortRequest i) s = .next (x.st.done x.code))) ∧
  (∀ (s : State) (i : BitVec 22), s.part.ldCount ≤ i.toNat / 2 ^ 20 →
    exec (.keyPortRequest i) s = .next ((s.emit (.key 1)).done Code.ok)) ∧
  (∀ (s t : State) (i : Nat) (k : BitVec 256), s.keyPort i = (t, .key k) → ∃ r ks,
    r = (s.fetchRec (i / 2 ^ 20) (i % 2 ^ 20)).record ∧ r.st = 2 ∧ r.keys = some ks ∧ k = ks.1 ∧
    t.fld (Reg.estGate (i / 2 ^ 20) r.ctx.val) 31 31 = 1 ∧
    r.epoch.toNat = t.fld (Reg.estGate (i / 2 ^ 20) r.ctx.val) 23 16 ∧ t.portRevoked r.ctx.val = false)

/-- The transmit queue (R16, R281, R284, R288, R290, R300, R407, R429). With the region readable, the descriptor at the front,
once it has crossed to the light die, is carried out by its OP and its STATUS and DONE written. SEND, SET_ADMITTED and
FREE of a record that is there send its datagram; of one that is gone they answer CONNECTION_CLOSED. INSERT, once the
entropy source is not starting and the wrap key may be used, makes the lookup slot and the record and sends, or answers
BUSY, and then a new SESSION_ID is drawn and the INSERT posted again, up to four times, and after that the client is
refused BUSY; without the wrap key it answers CONNECTION_CLOSED, and while the source starts it waits. FREE alone frees a
session that is there. A descriptor poisoned on its way answers ECC_UNCORRECTABLE and stays. A datagram leaves with SEQ
one above the record's, from its session, on the lane of its return path, and the record, if not FREE and if it is cached,
keeps the new SEQ there. A wait is the reply DEFERRED (the model's choice, notes/assumptions/7.md). -/
def Obligations.TransmitQueue : Prop :=
  (∀ (s u t : State) (l : Fin 4) (d : TxDesc) (ds : List TxDesc) (e : Nat) (x : Fetched), s.txReady u l.val d ds →
    d.op = 0 → t = s.txTaken u l.val ds → e = d.index.toNat % 2 ^ 20 → x = t.fetchRec l.val e →
    t.recGone l.val x = false →
    exec (.txSend l) s = .next ((x.st.sendOn l.val e x.record d.msg).txDone s l.val d Code.ok)) ∧
  (∀ (s u t v : State) (l : Fin 4) (d : TxDesc) (ds : List TxDesc) (k : Nat), s.txReady u l.val d ds → d.op = 1 →
    s.entPort ≠ .stall → t = s.txTaken u l.val ds → t.wrapKey d.ctx.val 5 ≠ none → t.insertRec l.val k d = some v →
    exec (.txInsertSend l k) s =
      .next ((v.sendOn l.val (d.index.toNat % 2 ^ 20) d.record d.msg).txDone s l.val d Code.ok)) ∧
  (∀ (s u t : State) (l : Fin 4) (d : TxDesc) (ds : List TxDesc) (k : Nat), s.txReady u l.val d ds → d.op = 1 →
    s.entPort ≠ .stall → t = s.txTaken u l.val ds → t.wrapKey d.ctx.val 5 ≠ none → t.insertRec l.val k d = none →
    exec (.txInsertSend l k) s =
      .next (((t.descDone l.val (s.estLd l.val).txHead d Code.busy).insertFailed l.val d).done Code.busy)) ∧
  (∀ (s u t : State) (l : Fin 4) (d : TxDesc) (ds : List TxDesc) (k : Nat), s.txReady u l.val d ds → d.op = 1 →
    s.entPort ≠ .stall → t = s.txTaken u l.val ds → t.wrapKey d.ctx.val 5 = none →
    exec (.txInsertSend l k) s = .next (t.txDone s l.val d Code.connectionClosed)) ∧
  (∀ (s : State) (l : Fin 4) (k : Nat), s.entPort = .stall → exec (.txInsertSend l k) s = .next s.waits) ∧
  (∀ (s : State) (l : Nat) (d : TxDesc), d.tries < 4 → s.entPort = .served → s.insertFailed l d =
    s.postInsert l d.index.toNat d.record d.client (d.tries + 1)) ∧
  (∀ (s : State) (l : Nat) (d : TxDesc) (a b : BitVec 256), 4 ≤ d.tries → d.record.keys = some (a, b) →
    s.insertFailed l d = s.refuseHello l d.record.ret b Code.busy) ∧
  (∀ (s u t : State) (l : Fin 4) (d : TxDesc) (ds : List TxDesc) (e : Nat) (x : Fetched), s.txReady u l.val d ds →
    d.op = 2 → t = s.txTaken u l.val ds → e = d.index.toNat % 2 ^ 20 → x = t.fetchRec l.val e →
    t.recGone l.val x = false → exec (.txSetAdmittedSend l) s = .next ((x.st.sendOn l.val e
      { x.record with admitted := true, admitRound := d.admitRound } d.msg).txDone s l.val d Code.ok)) ∧
  (∀ (s u t : State) (l : Fin 4) (d : TxDesc) (ds : List TxDesc) (e : Nat) (x : Fetched), s.txReady u l.val d ds →
    d.op = 3 → t = s.txTaken u l.val ds → e = d.index.toNat % 2 ^ 20 → x = t.fetchRec l.val e →
    t.recGone l.val x = false → exec (.txFreeSend l) s =
      .next (((x.st.sendOn l.val e x.record d.msg).freeSession d.index.toNat).txDone s l.val d Code.ok)) ∧
  (∀ (s u t : State) (l : Fin 4) (d : TxDesc) (ds : List TxDesc), s.txReady u l.val d ds → d.op = 4 →
    t = s.txTaken u l.val ds → (t.session d.index.toNat).st ≠ 0 →
    exec (.txFree l) s = .next ((t.freeSession d.index.toNat).txDone s l.val d Code.ok)) ∧
  (∀ (s u t : State) (l : Fin 4) (d : TxDesc) (ds : List TxDesc) (e : Nat) (x : Fetched) (cmd : Instr), s.txReady u l.val d ds →
    (d.op, cmd) ∈ [((0 : Byte), Instr.txSend l), (2, .txSetAdmittedSend l), (3, .txFreeSend l)] →
    t = s.txTaken u l.val ds → e = d.index.toNat % 2 ^ 20 → x = t.fetchRec l.val e →
    t.recGone l.val x = true → exec cmd s = .next (x.st.txDone s l.val d Code.connectionClosed)) ∧
  (∀ (s : State) (l : Nat) (x : Fetched), (x.code ≠ Code.ok ∨ x.record.st = 0 ∨ x.record.keys = none ∨
    x.record.epoch.toNat ≠ s.fld (Reg.estGate l x.record.ctx.val) 23 16) → s.recGone l x = true) ∧
  (∀ (s u : State) (l : Fin 4) (d : TxDesc) (ds : List TxDesc) (k : Nat) (cmd : Instr), (s.estLd l.val).tx = d :: ds →
    (d.op, cmd) ∈ [((0 : Byte), Instr.txSend l), (1, .txInsertSend l k), (2, .txSetAdmittedSend l), (3, .txFreeSend l),
      (4, .txFree l)] → (d.op = 1 → s.entPort ≠ .stall) →
    s.estStall l.val = false → s.crossPorts (route 8 (4 + l.val)) = (u, true) →
    exec cmd s = .next (u.done Code.eccUncorrectable)) ∧
  (∀ (s t : State) (l e k : Nat) (r : SessRec) (m : Aip), t = s.putRec l e { r with txSeq := r.txSeq + 1 } →
    t.txLane l r.ret = some k → ∃ (x : Aip) (v : Nat), (s.sendOn l e r m).out = t.out ++ [.eth k (t.aipEth k r.ret x v)] ∧
      x.seq = r.txSeq + 1 ∧ x.sid = r.sid) ∧
  (∀ (s t : State) (l e : Nat) (r : SessRec) (m : Aip), t = s.storeRec l e { r with txSeq := r.txSeq + 1 } →
    t.cachedRec l e ≠ none → r.st ≠ 0 → (s.sendOn l e r m).cachedRec l e = some { r with txSeq := r.txSeq + 1 })

/-- A Tideway lane's states (R29, R305–R307, R310, R313, R319–R322). Lock on a lane that is DOWN starts training and restarts
its counter; a lane in training or MISMATCH sends HELLO. A good HELLO there that passes the check, of a lane of a bundle,
brings it UP, or leaves it withdrawn under WITHDRAW; one that fails it gives MISMATCH and FORMAT_ERROR; a bad one is
counted. A lane that is UP leaves by loss of lock, by more errors than ERR_TH in a window, by the peer's NOTICE that names
it, by recalibration with another live lane (else BUSY), each with its cause. It rejoins after 10 ms of lock without
WITHDRAW, not withdrawn by the peer, with AUTO_REJOIN or its own WITHDRAW ended; before 10 ms nothing happens; the peer's
REJOIN acts on the withdrawn or recalibrated lane that it names: WITHDRAW keeps it out, the one that the peer withdrew
answers, one that has sent its own is UP. Recalibration ends in a rejoin, or stays out under WITHDRAW. Light on a lane of
a die in RETAIN wakes it. Link frames (R306, R308–R318). A DATA frame that its mapped bundle can take, with no CTRL packet
in its way, takes the next SEQ, its credits and a place in the replay memory, and changes no other bundle; on a bundle
that is up without room, or with a CTRL packet in its way, it waits. On a lane on which frames flow, a good frame of DATA
passes the SEQ window, one of IDLE gives its ACK and credits, and a NOTICE LANE_ERR has what was sent on the lane it names
after LAST_GOOD sent again; a bad DATA or IDLE frame is counted and answered by a NOTICE. IDLE and ACK leave in a header;
a replay time-out sends its frame again. An ACK within the window frees what lies below it; a DATA frame inside the
window, not yet received, enters the router's buffer. A frame of 16 bytes, or 24 and its body, travels in two blocks and
one for each whole 8 bytes after the first 7. A DOWN bundle starts from nothing. A wait is the reply DEFERRED (the model's
choice, notes/assumptions/7.md). -/
def Obligations.LanesAndLinkFrames : Prop :=
  (∀ (s : State) (k : Fin 64), s.twLane k.val = true → (s.lane k.val).lock = false → s.laneState k.val = 0 → exec
    (.laneLock k) s = .next ((((s.setLane k.val { s.lane k.val with lock := true, errs := 0 }).zeroTime
      (fun d => d = 0x40 + k.val)).moveLane k.val 1).done Code.ok)) ∧
  (∀ (s : State) (k : Fin 64), s.twLane k.val = true → (s.laneState k.val = 1 ∨ s.laneState k.val = 5) →
    exec (.laneHelloSend k) s = .next ((s.putFrame k.val (s.helloFrameOf k.val)).done Code.ok)) ∧
  (∀ (s : State) (k : Nat) (f : LinkFrame), (s.putFrame k f).out = s.out ++ [.frame k (pcsBlocks f.bytes)] ∧
    (s.helloFrameOf k).kind = 3 ∧
    (s.helloFrameOf k).body = helloBody (s.reg (Reg.twGroup (k / 16))) s.ownId k (s.lanePort k)) ∧
  (∀ (s t : State) (k : Fin 64) (h : LinkHdr) (g : Word) (m : BitVec 14) (p : Byte) (b : Nat) (cmd : Instr) (st : Nat),
    (cmd, st) ∈ [(Instr.laneHelloReceive ⟨k, h⟩ g m p, 1), (.mismatchRecheck ⟨k, h⟩ g m p, 5)] → s.twLane k.val = true →
    s.laneState k.val = st → h.good = true → t = s.fecCorr k.val h.fec → t.helloOk k.val g m p = true →
    t.bundleOf k.val = some b → exec cmd s = .next ((if t.keptOut k.val then
      ((t.useHdr b h).setLane k.val { t.lane k.val with heard := false }).withdraw k.val 3 3 true
      else ((t.useHdr b h).setLane k.val { t.lane k.val with heard := false }).laneUp k.val).done Code.ok)) ∧
  (∀ (s : State) (k : Nat), s.laneUp k = (s.setLane k { s.lane k with
    cause := none, rejoinOut := false, rejoinIn := false }).moveLane k 2) ∧
  (∀ (s : State) (k : Fin 64) (h : LinkHdr) (g : Word) (m : BitVec 14) (p : Byte) (cmd : Instr) (st : Nat),
    (cmd, st) ∈ [(Instr.laneHelloReceive ⟨k, h⟩ g m p, 1), (.mismatchRecheck ⟨k, h⟩ g m p, 5)] → s.twLane k.val = true →
    s.laneState k.val = st → h.good = true → (s.fecCorr k.val h.fec).helloOk k.val g m p = false →
    ∃ t, exec cmd s = .next t ∧ t.laneState k.val = 5 ∧ t.reply = ⟨Code.formatError, 0⟩) ∧
  (∀ (s : State) (k : Fin 64) (h : LinkHdr) (g : Word) (m : BitVec 14) (p : Byte), s.twLane k.val = true →
    s.laneState k.val = 1 → h.good = false →
    exec (.laneHelloReceive ⟨k, h⟩ g m p) s = .next (((s.fecCorr k.val h.fec).frameError k.val).done Code.ok)) ∧
  (∀ (s : State) (k : Fin 64), s.twLane k.val = true → (s.lane k.val).lock = true → s.laneState k.val = 2 →
    exec (.laneLockLoss k) s = .next (((s.setLane k.val { s.lane k.val with lock := false }).withdraw k.val 0 3
      true).done Code.ok)) ∧
  (∀ (s : State) (k : Fin 64), s.twLane k.val = true → s.laneState k.val = 2 →
    exec (.laneErrorWindow k) s = .next ((if max 1 (s.fld (Reg.laneCtl (k.val / 16) (k.val % 16)) 15 8) <
        (s.lane k.val).errs
      then (s.setLane k.val { s.lane k.val with errs := 0 }).withdraw k.val 1 3 true
      else s.setLane k.val { s.lane k.val with errs := 0 }).done Code.ok)) ∧
  (∀ (s t : State) (k : Fin 64) (h : LinkHdr) (n : Fin 16) (b : Nat), s.linkLane k.val = true →
    s.bundleOf k.val = some b → h.good = true → t = (s.linkHeard k.val h).useHdr b h →
    t.bundleOf (noticeAbout ⟨k, h, n⟩ b) = some b → t.laneState (noticeAbout ⟨k, h, n⟩ b) = 2 →
    exec (.noticeWithdrawReceive ⟨k, h, n⟩) s = .next ((t.withdraw (noticeAbout ⟨k, h, n⟩ b) 2 3 false).done Code.ok)) ∧
  (∀ (s : State) (k : Fin 64) (ms : Nat), s.twLane k.val = true → s.laneState k.val = 3 → (s.lane k.val).lock = true →
    10 ≤ ms → bit (s.reg (Reg.laneCtl (k.val / 16) (k.val % 16))) 28 = false → (s.lane k.val).cause ≠ some 2 →
    (bit (s.reg (Reg.laneCtl (k.val / 16) (k.val % 16))) 27 = true ∨ (s.lane k.val).cause = some 3) →
    exec (.laneRejoin k ms) s = .next ((s.rejoinSend k.val).done Code.ok)) ∧
  (∀ (s : State) (k : Fin 64) (ms : Nat), ms < 10 → exec (.laneRejoin k ms) s = .next (s.done Code.ok)) ∧
  (∀ (s t : State) (k : Fin 64) (h : LinkHdr) (n : Fin 16) (b : Nat), s.linkLane k.val = true →
    s.bundleOf k.val = some b → h.good = true → t = (s.linkHeard k.val h).useHdr b h →
    t.bundleOf (noticeAbout ⟨k, h, n⟩ b) = some b →
    (t.laneState (noticeAbout ⟨k, h, n⟩ b) = 3 ∨ t.laneState (noticeAbout ⟨k, h, n⟩ b) = 4) →
    exec (.noticeRejoinReceive ⟨k, h, n⟩) s = .next ((t.rejoinIn (noticeAbout ⟨k, h, n⟩ b)).done Code.ok)) ∧
  (∀ (s : State) (k : Nat), s.keptOut k = true →
    s.rejoinIn k = s.setLane k { s.lane k with rejoinIn := true }) ∧
  (∀ (s : State) (k : Nat), s.keptOut k = false → (s.lane k).cause = some 2 → s.laneState k = 3 →
    s.rejoinIn k = (s.setLane k { s.lane k with rejoinIn := true }).rejoinSend k) ∧
  (∀ (s : State) (k : Nat), s.keptOut k = false → (s.lane k).cause ≠ some 2 → (s.lane k).rejoinOut = true →
    s.rejoinIn k = (s.setLane k { s.lane k with rejoinIn := true }).laneUp k) ∧
  (∀ (s : State) (k : Fin 64) (b : Nat), s.twLane k.val = true → s.laneState k.val = 2 → s.bundleOf k.val = some b →
    exec (.laneRecal k) s = .next (if (s.liveLanes b).length ≤ 1
      then (s.setFld (Reg.laneCtl (k.val / 16) (k.val % 16)) 29 29 0).done Code.busy
      else ((s.setFld (Reg.laneCtl (k.val / 16) (k.val % 16)) 29 29 1).withdraw k.val 4 4 true).done Code.ok)) ∧
  (∀ (s : State) (k : Fin 64), s.twLane k.val = true → s.laneState k.val = 4 →
    exec (.laneRecalDone k) s = .next ((if s.keptOut k.val
      then ((s.setFld (Reg.laneCtl (k.val / 16) (k.val % 16)) 29 29 0).setLaneState k.val 3).setLane k.val
        { s.lane k.val with cause := some 3 }
      else ((s.setFld (Reg.laneCtl (k.val / 16) (k.val % 16)) 29 29 0).setLaneState k.val 3).rejoinSend k.val).done
        Code.ok)) ∧
  (∀ (s : State) (a : Acc) (v : Word) (k : Fin 64), s.accessCheck a true = none → s.linksClean = true → k.val / 16 < s.part.ldCount →
    s.pdState (pdLd (k.val / 16)) = 0 → a.addr = Reg.laneCtl (k.val / 16) (k.val % 16) →
    exec (.laneWithdrawWrite a v) s = .next ((s.dropWbuf a.core.val).laneCtlWrite k.val v)) ∧
  (∀ (s t : State) (k : Fin 64) (up : Bool), s.ethLane k.val = true →
    t = s.setLane k.val { s.lane k.val with lock := up } → exec (.ethernetLaneUpDown k up) s =
      .next (((if up ∧ ¬ (s.lane k.val).lock then t.zeroTime (fun d => d = 0x40 + k.val) else t).setLaneState k.val
        (if up then 2 else 0)).done Code.ok)) ∧
  (∀ (s : State) (k : Fin 64), s.ethLane k.val = true → (s.lane k.val).lock = false → exec (.laneLock k) s =
    .next (((s.setLane k.val { s.lane k.val with lock := true, errs := 0 }).zeroTime
      (fun d => d = 0x40 + k.val)).done Code.ok)) ∧
  (∀ (s : State) (k : Fin 64), k.val / 16 < s.part.ldCount → s.laneMode k.val ≠ 0 → s.pdState (pdLd (k.val / 16)) = 2 →
    ∃ t, exec (.laneSignalDetect k) s = .next t ∧ t.pdState (pdLd (k.val / 16)) = 5 ∧ t.mem = s.mem ∧
    t.reply = ⟨Code.ok, 0⟩) ∧
(∀ (s : State) (l : Fin 4) (k : Fin 16) (vc : Fin 12) (p : Packet) (n : Nat),
    s.fld (bmap (l.val * 16 + k.val)) 31 31 = 1 → s.canSend (l.val * 16 + k.val) vc.val p = true →
    (vc.val < 3 ∨ s.ctrlAt (l.val * 16 + k.val) = false) → s.bundleOf n = some (l.val * 16 + k.val) →
    s.bestLane (l.val * 16 + k.val) none = some n → ∃ t f, exec (.dataFrameSend l k vc p) s = .next t ∧
    (t.bundle (l.val * 16 + k.val)).txSeq = (s.bundle (l.val * 16 + k.val)).txSeq + 1 ∧
    (t.bundle (l.val * 16 + k.val)).replay = (s.bundle (l.val * 16 + k.val)).replay ++ [f] ∧
    f.seq = (s.bundle (l.val * 16 + k.val)).txSeq ∧ f.pkt = p ∧ f.vc = vc ∧
    (t.bundle (l.val * 16 + k.val)).used.get (fun _ => 0) vc.val =
      (s.bundle (l.val * 16 + k.val)).used.get (fun _ => 0) vc.val + frameCredits p ∧
    (∀ b, b ≠ l.val * 16 + k.val → t.bundle b = s.bundle b) ∧ t.reply = ⟨Code.ok, 0⟩) ∧
  (∀ (s : State) (l : Fin 4) (k : Fin 16) (vc : Fin 12) (p : Packet), s.fld (bmap (l.val * 16 + k.val)) 31 31 = 1 →
    s.bundleUp (l.val * 16 + k.val) = true → (s.canSend (l.val * 16 + k.val) vc.val p = false ∨
      3 ≤ vc.val ∧ s.ctrlAt (l.val * 16 + k.val) = true) →
    exec (.dataFrameSend l k vc p) s = .next s.waits) ∧
  (∀ (s : State) (k : Fin 64) (h : LinkHdr) (p : Packet) (b : Nat), s.linkLane k.val = true →
    s.bundleOf k.val = some b → exec (.dataFrameReceive k h p) s = .next ((if h.good
      then (s.linkHeard k.val h).acceptFrame k.val b h p else (s.fecCorr k.val h.fec).frameError k.val).done Code.ok)) ∧
  (∀ (s : State) (k : Fin 64) (h : LinkHdr) (b : Nat), s.linkLane k.val = true → s.bundleOf k.val = some b →
    exec (.idleFrameReceive k h) s = .next ((if h.good then (s.linkHeard k.val h).useHdr b h
      else (s.fecCorr k.val h.fec).frameError k.val).done Code.ok)) ∧
  (∀ (s : State) (k : Fin 64) (b : Nat), s.linkLane k.val = true → s.bundleOf k.val = some b →
    exec (.idleFrameSend k) s = .next ((s.sendHdr b k.val 0 0 0 []).done Code.ok)) ∧
  (∀ (s : State) (l : Fin 4) (k : Fin 16) (n : Nat), s.bestLane (l.val * 16 + k.val) none = some n →
    exec (.linkAckSend l k) s = .next ((s.sendHdr (l.val * 16 + k.val) n 0 0 0 []).done Code.ok)) ∧
  (∀ (s u : State) (k : Fin 64) (h : LinkHdr) (n : Fin 16) (g : BitVec 24) (b : Nat), s.linkLane k.val = true →
    s.bundleOf k.val = some b → h.good = true → u = (s.linkHeard k.val h).useHdr b h →
    exec (.noticeLaneErrReceive ⟨k, h⟩ n g) s = .next ((u.resendWhere b (fun f =>
      decide (f.lane = n) && (u.bundle b).sentAfter n g f.seq)).done Code.ok)) ∧
  (∀ (x : Bundle) (n : Fin 16) (a : List (Fin 16 × BitVec 24)) (g q : BitVec 24) (b : List (Fin 16 × BitVec 24)),
    x.sends = a ++ (n, g) :: b → (n, g) ∉ a → (x.sentAfter n g q = true ↔ (n, q) ∈ a)) ∧
  (∀ f : LinkFrame, f.bytes.length = if f.kind = 0 then 16 else 24 + f.body.length) ∧
  (∀ bs : Bytes, (pcsBlocks bs).length = 2 + (bs.length - 7) / 8) ∧
  (∀ (s : State) (l : Fin 4) (k : Fin 16) (q : BitVec 24),
    (s.bundle (l.val * 16 + k.val)).replay.any (fun f => decide (f.seq = q)) = true →
    exec (.linkReplayTimeout l k q) s = .next ((s.resendWhere (l.val * 16 + k.val)
      (fun f => decide (f.seq = q))).done Code.ok)) ∧
  (∀ (s : State) (b : Nat) (h : LinkHdr) (f : ReplayFrame),
    ahead (s.bundle b).txAck h.ack ≤ ahead (s.bundle b).txAck (s.bundle b).txSeq →
    (f ∈ ((s.useHdr b h).bundle b).replay ↔ f ∈ (s.bundle b).replay ∧
      ahead (s.bundle b).txAck h.ack ≤ ahead (s.bundle b).txAck f.seq) ∧ ((s.useHdr b h).bundle b).txAck = h.ack) ∧
  (∀ (s : State) (k b : Nat) (h : LinkHdr) (p : Packet), ahead (s.bundle b).rxAck h.seq < 4096 →
    h.seq ∉ (s.bundle b).rxBits → (s.acceptFrame k b h p).rbuf (b / 16) = s.rbuf (b / 16) ++ [⟨some b, h.vc, p, false⟩]) ∧
  (∀ (s : State) (k b : Nat) (h : LinkHdr) (p : Packet), (4096 ≤ ahead (s.bundle b).rxAck h.seq ∨
    h.seq ∈ (s.bundle b).rxBits) → (s.acceptFrame k b h p).router = s.router) ∧
  (∀ (s : State) (b : Nat), (s.bundleDown b).bundle b = Bundle.zero)

/-- PACKET_FORWARD takes the oldest packet of the VC that is not REDUCE (R16, R318, R325–R330, R347, R369). One that fails an
arrival check is counted and dropped. Of one that passes and is no broadcast: addressed to this module it is given to its
unit, but a CTRL packet whose MSG names no message is counted and dropped, and one poisoned on its way across the package
does not arrive; otherwise it is sent on with one more hop, marked and counted where its VC holds too much, over clean
links, if a port serves it, waits for credits, or for a CTRL packet that can leave by the same port, and is counted and
dropped where no port serves it. A hop that is taken has room, by the port of a productive dimension. A broadcast leaves
as its copies once each can go, and is given to this module unless it comes from it; else it waits. A wait is the reply
DEFERRED (the model's choice, notes/assumptions/7.md). -/
def Obligations.PacketForward : Prop :=
  (∀ (s : State) (l : Fin 4) (vc : Fin 12) (r : RouterPkt) (rest : List RouterPkt) (o : Nat),
    takeFirst (fun x => decide (x.vc = vc ∧ x.pkt.ptype ≠ 2)) (s.rbuf l.val) = some (r, rest) →
    s.arrivalDrop l.val r = some o → exec (.packetForward l vc) s =
      .next ((((s.setRbuf l.val rest).freeInput r).twCount l.val o).done Code.ok)) ∧
  (∀ (s : State) (l : Fin 4) (vc : Fin 12) (r : RouterPkt) (rest : List RouterPkt),
    takeFirst (fun x => decide (x.vc = vc ∧ x.pkt.ptype ≠ 2)) (s.rbuf l.val) = some (r, rest) →
    s.arrivalDrop l.val r = none → (r.pkt.ptype ≠ 3 ∨ r.pkt.bcast = false) → r.pkt.dst.toNat = s.ownId →
    s.linksClean = true → (r.pkt.ptype = 3 → 1 ≤ r.pkt.tf 21 1 ∧ r.pkt.tf 21 1 ≤ 6) →
    exec (.packetForward l vc) s =
      .next ((((s.setRbuf l.val rest).freeInput r).emit (.packet r.pkt)).done Code.ok)) ∧
  (∀ (s : State) (l : Fin 4) (vc : Fin 12) (r : RouterPkt) (rest : List RouterPkt),
    takeFirst (fun x => decide (x.vc = vc ∧ x.pkt.ptype ≠ 2)) (s.rbuf l.val) = some (r, rest) →
    s.arrivalDrop l.val r = none → r.pkt.ptype = 3 → r.pkt.bcast = false → r.pkt.dst.toNat = s.ownId →
    (r.pkt.tf 21 1 = 0 ∨ 6 < r.pkt.tf 21 1) → exec (.packetForward l vc) s =
      .next ((((s.setRbuf l.val rest).freeInput r).count (Reg.cnCnt l.val 0x40)).done Code.ok)) ∧
  (∀ (s : State) (l : Fin 4) (vc : Fin 12) (r : RouterPkt) (rest : List RouterPkt) (b w : Nat),
    takeFirst (fun x => decide (x.vc = vc ∧ x.pkt.ptype ≠ 2)) (s.rbuf l.val) = some (r, rest) →
    s.arrivalDrop l.val r = none → (r.pkt.ptype ≠ 3 ∨ r.pkt.bcast = false) → r.pkt.dst.toNat ≠ s.ownId →
    s.hop r = .go b w → (r.pkt.cls = 0 ∨ s.ctrlAt b = false) →
    s.linksClean = true → exec (.packetForward l vc) s =
      .next (if s.marks l.val b w r.pkt then ((((s.setRbuf l.val rest).freeInput r).count (Reg.cnCnt l.val 0x34)).sendData b
          (Fin.ofNat 12 w) (hopped (withCe r.pkt))).done Code.ok
        else (((s.setRbuf l.val rest).freeInput r).sendData b (Fin.ofNat 12 w) (hopped r.pkt)).done Code.ok)) ∧
  (∀ (s : State) (l : Fin 4) (vc : Fin 12) (r : RouterPkt) (rest : List RouterPkt),
    takeFirst (fun x => decide (x.vc = vc ∧ x.pkt.ptype ≠ 2)) (s.rbuf l.val) = some (r, rest) →
    s.arrivalDrop l.val r = none → (r.pkt.ptype ≠ 3 ∨ r.pkt.bcast = false) → r.pkt.dst.toNat ≠ s.ownId →
    s.hop r = .drop → exec (.packetForward l vc) s =
      .next ((((s.setRbuf l.val rest).freeInput r).twCount l.val 0x2C).done Code.ok)) ∧
  (∀ (s t : State) (l : Fin 4) (vc : Fin 12) (r : RouterPkt) (rest : List RouterPkt),
    takeFirst (fun x => decide (x.vc = vc ∧ x.pkt.ptype ≠ 2)) (s.rbuf l.val) = some (r, rest) →
    s.arrivalDrop l.val r = none → r.pkt.ptype = 3 → r.pkt.bcast = true → t = (s.bcastPorts r).foldl
      (fun u e => u.sendCopy l.val r e) ((s.setRbuf l.val rest).freeInput r) →
    exec (.packetForward l vc) s = .next (if s.copiesReady r = false then s.waits
      else if r.bundle.isNone then t.done Code.ok else t.handOver l.val r.pkt)) ∧
  (∀ (s : State) (l : Fin 4) (vc : Fin 12) (r : RouterPkt) (rest : List RouterPkt),
    takeFirst (fun x => decide (x.vc = vc ∧ x.pkt.ptype ≠ 2)) (s.rbuf l.val) = some (r, rest) →
    s.arrivalDrop l.val r = none → (r.pkt.ptype ≠ 3 ∨ r.pkt.bcast = false) → r.pkt.dst.toNat ≠ s.ownId →
    s.hop r = .wait → exec (.packetForward l vc) s = .next s.waits) ∧
  (∀ (s : State) (l : Fin 4) (vc : Fin 12) (r : RouterPkt) (rest : List RouterPkt) (b w : Nat),
    takeFirst (fun x => decide (x.vc = vc ∧ x.pkt.ptype ≠ 2)) (s.rbuf l.val) = some (r, rest) →
    s.arrivalDrop l.val r = none → (r.pkt.ptype ≠ 3 ∨ r.pkt.bcast = false) → r.pkt.dst.toNat ≠ s.ownId →
    s.hop r = .go b w → r.pkt.cls ≠ 0 → s.ctrlAt b = true → exec (.packetForward l vc) s = .next s.waits) ∧
  (∀ (s t : State) (l : Fin 4) (vc : Fin 12) (r : RouterPkt) (rest : List RouterPkt),
    takeFirst (fun x => decide (x.vc = vc ∧ x.pkt.ptype ≠ 2)) (s.rbuf l.val) = some (r, rest) →
    s.arrivalDrop l.val r = none → (r.pkt.ptype ≠ 3 ∨ r.pkt.bcast = false) → r.pkt.dst.toNat = s.ownId →
    (r.pkt.ptype = 3 → 1 ≤ r.pkt.tf 21 1 ∧ r.pkt.tf 21 1 ≤ 6) →
    ((s.setRbuf l.val rest).freeInput r).crossPorts (route (4 + l.val) (targetDie r.pkt)) = (t, true) →
    exec (.packetForward l vc) s = .next (t.done Code.eccUncorrectable)) ∧
  (∀ (p : RouterPkt → Bool) (xs rest : List RouterPkt) (r : RouterPkt), takeFirst p xs = some (r, rest) →
    ∃ a b, xs = a ++ r :: b ∧ rest = a ++ b ∧ p r = true ∧ ∀ x, x ∈ a → p x = false) ∧
  (∀ (s : State) (r : RouterPkt) (b w : Nat), s.hop r = .go b w →
    s.canSend b w r.pkt = true ∧ ∃ p, p ∈ s.productive r.pkt.dst.toNat ∧ s.portBundle p = some b)

/-- The fold stream table, over clean die links (R332, R333, R336): WRITE answers BUSY for an armed entry and FORMAT_ERROR for
bad fields, and else writes the entry; READ gives the entry as each fitted light die holds it; ARM sets ARMED alone; CLEAR
zeroes the entry and frees the stream's slots. A stream valid on its owner, armed, not expired, with blocks left, that
expires is marked and its slots are freed. Each keeps the other entries, and WRITE, READ and ARM the slots. The fold in
the network (R329, R331–R335, R337, R338, R368). The oldest REDUCE packet of a light die, or the oldest that waited for a
slot, past its arrival checks: with no valid entry, or, at the entry's owner, of another epoch or an expired stream, it is
counted and dropped; at the owner, of a ring that adds, the first part of a block that needs more takes a free slot.
Addition is element by element modulo the ring, in any order with one result. A complete block that is next in order, of a
LOCAL stream whose strand is bound to CTX and whose queue has room, leaves its slot for the strand. GO, over clean links,
starts the fold-out engine of a fitted light die at block 0 and changes only its CTL and STAT. A running engine without
WATCH_EN sends the block it has read and goes on, ends OK after the last, ends with a read's error code, waits while the
read stalls; with WATCH_EN it waits until SEAL has written the block. A wait is the reply DEFERRED (the model's choice,
notes/assumptions/7.md). -/
def Obligations.FoldStreams : Prop :=
  (∀ (s : State) (tag : BitVec 16), s.linksClean = true → ∃ t, exec (.fstWrite tag) s = .next t ∧
    t.fst = (if fseArmed (s.fse tag.toNat) ∨ s.fstBad s.fstStaged then s.fst else (s.setFse tag.toNat s.fstStaged).fst) ∧
    t.slots = s.slots ∧ t.reply = ⟨if fseArmed (s.fse tag.toNat) then Code.busy
      else if s.fstBad s.fstStaged then Code.formatError else Code.ok, 0⟩) ∧
  (∀ (s : State) (tag : BitVec 16), s.linksClean = true → ∃ t, exec (.fstRead tag) s = .next t ∧ t.fst = s.fst ∧
    t.slots = s.slots ∧ (∀ l i, l < s.part.ldCount → i < 4 → t.reg (Reg.fstData l i) =
      BitVec.ofNat 32 (field (le 16 (s.fseAt l tag.toNat).toNat) (4 * i) 4)) ∧ t.reply = ⟨Code.ok, 0⟩) ∧
  (∀ (s : State) (tag : BitVec 16), s.linksClean = true → ∃ t, exec (.fstArm tag) s = .next t ∧
    t.fse tag.toNat = s.fse tag.toNat ||| 0x40 ∧ (∀ k, k ≠ tag.toNat → t.fse k = s.fse k) ∧ t.slots = s.slots ∧
    t.reply = ⟨Code.ok, 0⟩) ∧
  (∀ (s : State) (tag : BitVec 16), s.linksClean = true → ∃ t, exec (.fstClear tag) s = .next t ∧ t.fse tag.toNat = 0 ∧
    (∀ k, k ≠ tag.toNat → t.fse k = s.fse k) ∧ (∀ x, x ∈ t.slots ↔ x ∈ s.slots ∧ x.tag ≠ tag) ∧
    t.reply = ⟨Code.ok, 0⟩) ∧
  (∀ (s : State) (tag : BitVec 16), fseValid (s.fseAt (s.fseOwner (s.fse tag.toNat)) tag.toNat) = true →
    fseArmed (s.fse tag.toNat) = true →
    fseExpired (s.fse tag.toNat) = false → fseDone (s.fse tag.toNat) < fseNblocks (s.fse tag.toNat) → ∃ t,
    exec (.foldStreamExpire tag) s = .next t ∧ t.fse tag.toNat = s.fse tag.toNat ||| 0x20 ∧
    (∀ k, k ≠ tag.toNat → t.fse k = s.fse k) ∧ (∀ x, x ∈ t.slots ↔ x ∈ s.slots ∧ x.tag ≠ tag) ∧
    t.reply = ⟨Code.ok, 0⟩) ∧
(∀ (s : State) (l : Fin 4) (r : RouterPkt) (rest : List RouterPkt) (v : QWord) (cmd : Instr) (p : RouterPkt → Bool),
    (cmd, p) ∈ [(Instr.reduceReceive l, fun x => decide (x.pkt.ptype = 2)),
      (.reduceSlotWaitEnd l, fun x => decide (x.pkt.ptype = 2) && x.waited)] →
    takeFirst p (s.rbuf l.val) = some (r, rest) → s.arrivalDrop l.val r = none → v = s.fseAt l.val r.pkt.tag →
    (fseValid v = false → exec cmd s = .next ((((s.setRbuf l.val rest).freeInput r).twCount l.val 0x34).done Code.ok)) ∧
    (fseValid v = true → s.fseOwner v = l.val → (r.pkt.epoch ≠ fseEpoch v ∨ fseExpired v = true) →
      exec cmd s = .next ((((s.setRbuf l.val rest).freeInput r).twCount l.val 0x38).done Code.ok)) ∧
    (fseValid v = true → s.fseOwner v = l.val → r.pkt.epoch = fseEpoch v → fseExpired v = false → fseRing v ≠ 2 →
      r.pkt.contrib < fseExpect v → s.slotFor l.val r.pkt.tag r.pkt.block = none → s.slotFree l.val = true →
      exec cmd s = .next ((((s.setRbuf l.val rest).freeInput r).putSlot ⟨l.val, BitVec.ofNat 16 r.pkt.tag,
        BitVec.ofNat 32 r.pkt.block, r.pkt.src, r.pkt.contrib, r.pkt.last,
        addBlocks (fseRing v) [] r.pkt.payload⟩).done Code.ok))) ∧
  (∀ (ring : Nat) (a b c : Bytes), addBlocks ring a b = addBlocks ring b a ∧
    addBlocks ring (addBlocks ring a b) c = addBlocks ring a (addBlocks ring b c)) ∧
  (∀ (s : State) (tag : BitVec 16) (x : RedSlot) (v : QWord) (l : Nat), v = s.fse tag.toNat → l = s.fseOwner v →
    s.slotFor l tag.toNat (fseDone v) = some x → fseValid (s.fseAt l tag.toNat) = true → fseLocal v = true →
    x.count = fseExpect v → s.canDeliver v x.block.toNat = true → exec (.localBlockDeliver tag) s =
      .next (((s.dropSlot l tag.toNat x.block.toNat).deliver l tag.toNat x.block.toNat x.src x.data).done Code.ok)) ∧
  (∀ (s : State) (v : QWord) (b : Nat), s.canDeliver v b = true → b = fseDone v ∧
    s.sctx (fseTarget v / 4) (fseTarget v % 4) = fseCtx v ∧
    17 ≤ s.queueFree (100 + strandIx (fseTarget v / 4) (fseTarget v % 4))) ∧
  (∀ (s : State) (l : Fin 4) (e : Fin 16), l.val < s.part.ldCount → s.linksClean = true →
    ∃ t, exec (.foldOutGo l e) s = .next t ∧
    t.fld (Reg.fo l.val e.val 0) 31 31 = 1 ∧ t.fld (Reg.fo l.val e.val 0) 30 30 = 0 ∧
    t.reg (Reg.fo l.val e.val 0x14) = 0 ∧ (∀ a, a ≠ Reg.fo l.val e.val 0 → a ≠ Reg.fo l.val e.val 0x14 →
      t.reg a = s.reg a) ∧ t.mem = s.mem ∧ t.reply = ⟨Code.ok, 0⟩) ∧
  (∀ (s t : State) (l : Fin 4) (e : Fin 16) (r : Line) (b : Nat), bit (s.foCtl l.val e.val) 31 = true →
    bit (s.foCtl l.val e.val) 29 = false → b = s.fld (Reg.fo l.val e.val 0x14) 23 0 →
    b < (s.reg (Reg.fo l.val e.val 0x0C)).toNat →
    r = s.readSpan (.dma (Fin.ofNat 8 (4 + l.val)) (Fin.ofNat 16 (bits (s.foCtl l.val e.val) 19 16)))
      (s.reg64 (Reg.fo l.val e.val 4) % 2 ^ 48 + 4096 * b) 4096 →
    t = (r.st.toRouter l.val ⟨none, 10, s.foPacket l.val e.val b r.data, false⟩).setFld (Reg.fo l.val e.val 0x14) 23 0 (b + 1) →
    (r.stall = true → exec (.foldOutBlock l e) s = .next r.st.waits) ∧
    (r.stall = false → r.code ≠ Code.ok → exec (.foldOutBlock l e) s = .next (r.st.foldOutEnd l.val e.val r.code)) ∧
    (r.stall = false → r.code = Code.ok → exec (.foldOutBlock l e) s = .next (
      if b + 1 = (s.reg (Reg.fo l.val e.val 0x0C)).toNat then t.foldOutEnd l.val e.val Code.ok else t.done Code.ok))) ∧
  (∀ (s : State) (l : Fin 4) (e : Fin 16) (b : Nat), bit (s.foCtl l.val e.val) 31 = true →
    bit (s.foCtl l.val e.val) 29 = true → b = s.fld (Reg.fo l.val e.val 0x14) 23 0 →
    b < (s.reg (Reg.fo l.val e.val 0x0C)).toNat →
    s.sealReady (bits (s.foCtl l.val e.val) 28 25) (s.reg64 (Reg.fo l.val e.val 4) % 2 ^ 48 + 4096 * b) = false →
    exec (.foldOutBlock l e) s = .next s.waits)

/-- Connection and region commands, with clean links, on a fitted home light die (R341, R342, R350–R352, R357, R426). OPEN of
a connection that is FREE, with an active context, good fields and a listed peer: with INIT 0 the record is made, with
INIT 1, the public-key engine tested and the entropy source running, the handshake starts as well; on another connection
it answers BUSY, with a context that is not active CONTEXT_UNAVAILABLE. CLOSE leaves the connection FREE, its record zero,
and every other as it is; READ shows the record. PAUSE and RESUME move ESTABLISHED to PAUSED and back and answer
FORMAT_ERROR in another state. A region command with RG_STAT.BUSY clear: REGISTER of a FREE entry, with an active context,
good fields, a range that may be registered and a running source, makes it ACTIVE under a key that names its index; of an
entry that is not FREE it answers BUSY, and with a range that may not be registered ACCESS_BOUNDS. REVOKE of an ACTIVE
region makes it REVOKING and sets BUSY; it is REVOKED once INFLIGHT is zero and waits before; FREE zeroes an entry that is
REVOKED and answers BUSY for another; READ shows it. A wait is the reply DEFERRED (the model's choice,
notes/assumptions/7.md). Values that the specification leaves open are free values (notes/assumptions/2.md). -/
def Obligations.ConnectionsAndRegions : Prop :=
  (∀ (s : State) (n : BitVec 16) (l : Nat) (b : Bytes), s.linksClean = true → l = connLd n.toNat → l < s.part.ldCount → b = s.cnStaged l →
    (s.conn n.toNat).st = .free → s.ctxLive (field b 2 1 % 16) = true → cnBad b = false →
    (s.peerKey (BitVec.ofNat 14 (field b 0 2))).isSome = true → (field b 2 1).testBit 7 = false →
    exec (.cnOpen n) s = .next ((s.setConn n.toNat (openedConn b)).cnDone l 0 n.toNat Code.ok)) ∧
  (∀ (s : State) (n : BitVec 16) (l : Nat) (b : Bytes), s.linksClean = true → l = connLd n.toNat → l < s.part.ldCount → b = s.cnStaged l →
    (s.conn n.toNat).st = .free → s.ctxLive (field b 2 1 % 16) = true → cnBad b = false →
    (s.peerKey (BitVec.ofNat 14 (field b 0 2))).isSome = true → (field b 2 1).testBit 7 = true →
    s.katOk .publicKey = true → s.entRunning = true →
    exec (.cnOpen n) s = .next (((s.setConn n.toNat (openedConn b)).hsStart n.toNat).cnDone l 0 n.toNat Code.ok)) ∧
  (∀ (s : State) (n : BitVec 16), s.linksClean = true → connLd n.toNat < s.part.ldCount → (s.conn n.toNat).st ≠ .free →
    exec (.cnOpen n) s = .next (s.cnDone (connLd n.toNat) 0 n.toNat Code.busy)) ∧
  (∀ (s : State) (n : BitVec 16) (b : Bytes), s.linksClean = true → connLd n.toNat < s.part.ldCount → b = s.cnStaged (connLd n.toNat) →
    (s.conn n.toNat).st = .free → s.ctxLive (field b 2 1 % 16) = false →
    exec (.cnOpen n) s = .next (s.cnDone (connLd n.toNat) 0 n.toNat Code.contextUnavailable)) ∧
  (∀ (s : State) (n : BitVec 16), s.linksClean = true → connLd n.toNat < s.part.ldCount → ∃ t, exec (.cnClose n) s = .next t ∧
    t.conn n.toNat = Conn.zero ∧ (∀ k, k ≠ n.toNat → t.conn k = s.conn k) ∧ t.mem = s.mem ∧
    t.reply = ⟨Code.ok, 0⟩) ∧
  (∀ (s : State) (n : BitVec 16), s.linksClean = true → connLd n.toNat < s.part.ldCount → ∃ t, exec (.cnRead n) s = .next t ∧
    (∀ k, k < 8 → t.reg (Reg.cnData (connLd n.toNat) k) = BitVec.ofNat 32 (field (connBytes (s.conn n.toNat)) (4 * k) 4)) ∧
    t.conns = s.conns ∧ t.mem = s.mem ∧ t.reply = ⟨Code.ok, 0⟩) ∧
  (∀ (s : State) (n : BitVec 16) (cmd : Instr) (op : Nat) (a b : ConnSt),
    (cmd, op, a, b) ∈ [(Instr.cnPause n, 3, ConnSt.established, ConnSt.paused), (.cnResume n, 4, .paused, .established)] →
    s.linksClean = true → connLd n.toNat < s.part.ldCount → exec cmd s = .next (if (s.conn n.toNat).st = a
      then (s.setConn n.toNat { s.conn n.toNat with st := b }).cnDone (connLd n.toNat) op n.toNat Code.ok
      else s.cnDone (connLd n.toNat) op n.toNat Code.formatError)) ∧
  (∀ (s : State) (i : Fin 1048576) (b : Bytes) (c : Nat), s.linksClean = true → s.fld (Reg.rgStat 0) 31 31 = 0 → b = s.rgStaged 0 →
    c = field b 16 1 % 16 → (s.region i.val).st = 0 → s.ctxLive c = true → rgBad b = false →
    s.rgRangeOk c (field b 0 8) (field b 8 8) = true → s.entRunning = true → ∃ t k, exec (.rgRegister i) s = .next t ∧
    t.region i.val = ⟨BitVec.ofNat 48 (field b 0 8), BitVec.ofNat 64 (field b 8 8), Fin.ofNat 16 c,
      BitVec.ofNat 3 (field b 17 1), 1, k, 0⟩ ∧ keyIx k = i.val ∧ t.reg (Reg.rgData 0 5) = k ∧
    (∀ j, j ≠ i.val → t.region j = s.region j) ∧ t.mem = s.mem ∧ t.reply = ⟨Code.ok, 0⟩) ∧
  (∀ (s : State) (i : Fin 1048576), s.linksClean = true → s.fld (Reg.rgStat 0) 31 31 = 0 → (s.region i.val).st ≠ 0 →
    exec (.rgRegister i) s = .next (s.rgDone 0 0 i.val Code.busy)) ∧
  (∀ (s : State) (i : Fin 1048576) (b : Bytes), s.linksClean = true → s.fld (Reg.rgStat 0) 31 31 = 0 → (s.region i.val).st = 0 →
    b = s.rgStaged 0 → s.ctxLive (field b 16 1 % 16) = true → rgBad b = false →
    s.rgRangeOk (field b 16 1 % 16) (field b 0 8) (field b 8 8) = false →
    exec (.rgRegister i) s = .next (s.rgDone 0 0 i.val Code.accessBounds)) ∧
  (∀ (s : State) (i : Fin 1048576), s.linksClean = true → s.fld (Reg.rgStat 0) 31 31 = 0 → (s.region i.val).st = 1 → ∃ t,
    exec (.rgRevoke i) s = .next t ∧ t.region i.val = { s.region i.val with st := 2 } ∧
    (∀ j, j ≠ i.val → t.region j = s.region j) ∧ t.fld (Reg.rgStat 0) 31 31 = 1 ∧ t.mem = s.mem ∧
    t.reply = ⟨Code.ok, 0⟩) ∧
  (∀ (s : State) (i : Fin 1048576), (s.region i.val).st = 2 → (s.region i.val).inflight = 0 → ∃ t,
    exec (.rgRevokeDone i) s = .next t ∧ t.region i.val = { s.region i.val with st := 3 } ∧
    (∀ j, j ≠ i.val → t.region j = s.region j) ∧ t.mem = s.mem ∧ t.reply = ⟨Code.ok, 0⟩) ∧
  (∀ (s : State) (i : Fin 1048576), (s.region i.val).st = 2 → (s.region i.val).inflight ≠ 0 →
    exec (.rgRevokeDone i) s = .next s.waits) ∧
  (∀ (s : State) (i : Fin 1048576), s.linksClean = true → s.fld (Reg.rgStat 0) 31 31 = 0 → exec (.rgFree i) s =
    .next (if (s.region i.val).st = 3 then (s.setRegion i.val Region.zero).rgDone 0 2 i.val Code.ok
      else s.rgDone 0 2 i.val Code.busy)) ∧
  (∀ (s : State) (i : Fin 1048576), s.linksClean = true → s.fld (Reg.rgStat 0) 31 31 = 0 → ∃ t, exec (.rgRead i) s = .next t ∧
    (∀ k, k < 8 → t.reg (Reg.rgData 0 k) = BitVec.ofNat 32 (field (regionBytes (s.region i.val)) (4 * k) 4)) ∧
    t.regions = s.regions ∧ t.mem = s.mem ∧ t.reply = ⟨Code.ok, 0⟩)

/-- The handshake (R344, R345, R407, R426, R431). A HS_INIT that matches a LISTEN connection, the public-key engine tested, is
answered, and the connection keeps the peer's number and what came; one that matches none gets GONE. A signature is made
once slot 4 gives its key: a refused key ends the connection with the code, and while the entropy source starts it waits.
A HS_RESP of the connection's peer and PAIR_ID, with a listed peer, whose signature holds has HS_FIN sent and the
initiator ESTABLISHED under keys of both directions, which comes again on the same HS_RESP as long as no answer has come;
one whose signature fails ends the connection with SIGNATURE_FAIL and keys zeroed, as at the responder a HS_FIN; a good
one makes it ESTABLISHED. The last handshake packet is sent again up to seven times, and then the connection ends with
RETRY_EXCEEDED. A wait is the reply DEFERRED (the model's choice, notes/assumptions/7.md). -/
def Obligations.Handshake : Prop :=
  (∀ (s : State) (p : Packet) (i : Nat), s.connHere p = true → p.op = 9 → s.listener p = some i →
    p.payload.length = 1296 → s.katOk .publicKey = true → s.keyUse 4 3 .hubSecure none = Code.ok → s.entRunning = true →
    exec (.hsInitReceive p) s = .next (s.hsAnswer i p)) ∧
  (∀ (s : State) (p : Packet), s.connHere p = true → p.op = 9 → s.listener p = none →
    exec (.hsInitReceive p) s = .next ((s.sendGone p).done Code.connectionClosed)) ∧
  (∀ (s : State) (p : Packet) (i : Nat), ∃ d : Conn, (s.hsAnswer i p).conn i = d ∧ d.st = .handshake ∧
    d.peerConn = BitVec.ofNat 16 p.sconn ∧ d.hsInit = p.payload ∧ d.ctx = (s.conn i).ctx ∧ d.peer = (s.conn i).peer ∧
    d.hsTries = 0 ∧ (∀ k, k ≠ i → (s.hsAnswer i p).conn k = s.conn k)) ∧
  (∀ (s : State) (i : Nat) (k : State → State), (s.keyUse 4 3 .hubSecure none ≠ Code.ok → s.hsSigned i k =
      (s.endConn i (s.keyUse 4 3 .hubSecure none) (s.keyUse 4 3 .hubSecure none)).done (s.keyUse 4 3 .hubSecure none)) ∧
    (s.keyUse 4 3 .hubSecure none = Code.ok → s.entRunning = true → s.hsSigned i k = k s) ∧
    (s.keyUse 4 3 .hubSecure none = Code.ok → s.fld Reg.entStat 31 29 = 0 → s.hsSigned i k = s.waits)) ∧
  (∀ (s : State) (p : Packet) (k th : Bytes), s.connHere p = true → p.op = 10 → (s.conn p.dconn).init = true →
    (s.conn p.dconn).peer = p.src → (s.conn p.dconn).st = .handshake →
    fromBE (p.payload.take 4) = (s.conn p.dconn).pairId.toNat → s.peerKey (s.conn p.dconn).peer = some k →
    th = hsTh (s.conn p.dconn).hsInit p.payload → exec (.hsRespReceive p) s =
      .next (if p.payload.length = 1296 ∧ Config.ecdsaOk k (ascii "A9 tw r" ++ th) (p.payload.drop 1200) = true
        then s.hsSigned p.dconn (fun t => t.hsFinish p.dconn p th) else s.hsFail p.dconn)) ∧
  (∀ (s : State) (p : Packet) (i : Nat) (th : Bytes) (c d : Conn), c = s.conn i → d = (s.hsFinish i p th).conn i →
    d.st = .established ∧ d.peerConn = BitVec.ofNat 16 p.sconn ∧ d.hsLast.isSome = true ∧ d.hsTries = 0 ∧ (d.k1, d.k2) =
      hsKeys (Config.ecdh (be 48 c.ephX.toNat) (sub p.payload 8 97)) (Config.kemDecap c.ephK (sub p.payload 105 1088)) th) ∧
  (∀ (s : State) (p q : Packet), s.connHere p = true → p.op = 10 → (s.conn p.dconn).init = true →
    (s.conn p.dconn).peer = p.src → (s.conn p.dconn).st = .established → (s.conn p.dconn).hsResp = p.payload →
    (s.conn p.dconn).hsLast = some q → exec (.hsRespReceive p) s = .next ((s.sendConn p.dconn q).done Code.ok)) ∧
  (∀ (s : State) (p : Packet) (k : Bytes) (c : Conn), c = s.conn p.dconn → s.connHere p = true → p.op = 11 →
    c.init = false → c.st = .handshake → c.peer = p.src → c.peerConn.toNat = p.sconn → s.peerKey c.peer = some k →
    exec (.hsFinReceive p) s = .next (if p.payload.length = 96 ∧ Config.ecdsaOk k (ascii "A9 tw i" ++
        hsTh c.hsInit c.hsResp ++ c.hsResp.drop 1200) p.payload = true
      then (((s.hsTook p.dconn).established p.dconn { c with hsLast := none }).done Code.ok) else s.hsFail p.dconn)) ∧
  (∀ (s : State) (i : Nat) (c : Conn), ((s.established i c).conn i).st = .established ∧
    ((s.established i c).conn i).window = 262144 ∧ ((s.established i c).conn i).ephX = 0 ∧
    ((s.established i c).conn i).ephK = 0) ∧
  (∀ (s : State) (i : Nat), ((s.hsFail i).conn i).st = .ended ∧ ((s.hsFail i).conn i).k1 = 0 ∧
    ((s.hsFail i).conn i).k2 = 0 ∧ (s.hsFail i).reply = ⟨Code.signatureFail, 0⟩) ∧
  (∀ (s : State) (n : BitVec 16) (p : Packet), (s.conn n.toNat).hsLast = some p →
    ((s.conn n.toNat).st = .handshake ∨ (s.conn n.toNat).st = .established) →
    exec (.hsResend n) s = .next (if 7 ≤ (s.conn n.toNat).hsTries
      then (s.endConn n.toNat Code.retryExceeded Code.retryExceeded).done Code.retryExceeded
      else ((s.setConn n.toNat { s.conn n.toNat with hsTries := (s.conn n.toNat).hsTries + 1 }).sendConn n.toNat p).done
        Code.ok))

/-- Transfers (R340, R353, R355, R359–R362). TW_DB from the secure world, over clean links, for an ESTABLISHED connection of a
fitted die with packets outstanding, moves TAIL; from the normal world it is refused and recorded. A waiting entry without
FENCE of an ESTABLISHED connection with packets outstanding is taken over clean links: one whose check passes and that is
no READ gets its EPSNs and its region is held, and an entry that passes names an ACTIVE region of the context with LOCAL
set, and lies inside it. A new packet of such a connection leaves within the sender's limits and waits beyond them; the
limits are the ones of CUM, CLIM and WINDOW. One whose data is read leaves sealed, and its entry and the outstanding list
follow it. An arriving data packet of an unknown connection gets GONE; one in the window with its bit clear goes on if its
tag holds, and one with its bit set makes an ACK due and changes nothing else of the connection, of HBM and bank memory,
of the regions and the queues. Taking an EPSN sets its bit, keeps the others and never lowers CUM. A region that refuses
nothing is ACTIVE, of the packet's key and the connection's context, with the packet's range inside and the right set. The
lowest READ_REQ becomes a response message once CUM has passed it, and waits before. A wait is the reply DEFERRED (the
model's choice, notes/assumptions/7.md). -/
def Obligations.Transfers : Prop :=
  (∀ (s : State) (l : Fin 4) (n tail : BitVec 16), s.linksClean = true → l.val < s.part.ldCount → connLd n.toNat = l.val →
    (s.conn n.toNat).st = .established → (s.conn n.toNat).sent ≠ [] → exec (.doorbell .secure l n tail) s =
      .next ((s.setConn n.toNat { s.conn n.toNat with sqTail := tail.toNat }).done Code.ok)) ∧
  (∀ (s : State) (l : Fin 4) (n tail : BitVec 16), l.val < s.part.ldCount → exec (.doorbell .normal l n tail) s =
    .next ((s.post 3 { Ev.of 7 1 Code.accessBounds 2 0 0 1 with addr := 0x0F00_00000000 + Reg.twDb l.val }).done Code.accessBounds)) ∧
  (∀ (s : State) (n : BitVec 16) (c : Conn), c = s.conn n.toNat → c.st = .established → c.sqHead ≠ c.sqTail →
    (s.workAt c c.sqHead).flags.getLsbD 1 = false → c.sent ≠ [] → s.linksClean = true →
    exec (.sendQueueEntry n) s = .next (s.takeEntry n.toNat)) ∧
  (∀ (s : State) (i : Nat) (c : Conn) (w : WorkEntry), c = s.conn i → w = s.workAt c c.sqHead →
    s.entryCheck c w (s.hubBytes (c.sqOff + 64 * (c.sqHead % c.sqSize)) 64) = Code.ok → w.op ≠ 4 →
    s.takeEntry i = ((s.holdRegion w.lkey).setConn i { c with
      sqHead := (c.sqHead + 1) % 65536
      nextPsn := c.nextPsn + (w.len + 4031) / 4032
      work := c.work ++ [{ w with first := c.nextPsn, pkts := (w.len + 4031) / 4032 }] }).done Code.ok) ∧
  (∀ (s : State) (c : Conn) (w : WorkEntry) (raw : Bytes), s.entryCheck c w raw = Code.ok →
    (s.region (keyIx w.lkey)).st = 1 ∧ (s.region (keyIx w.lkey)).rkey = w.lkey ∧ (s.region (keyIx w.lkey)).ctx = c.ctx ∧
    (s.region (keyIx w.lkey)).rights.getLsbD 2 = true ∧ w.loff + w.len ≤ (s.region (keyIx w.lkey)).length.toNat) ∧
  (∀ (s : State) (n : BitVec 16) (c : Conn) (w : WorkEntry), c = s.conn n.toNat → c.nextEntry = some w →
    c.st = .established → c.sent ≠ [] → c.mayNew (w.first + w.sent) (w.pktLen w.sent) = true →
    exec (.connPacketSend n) s = .next (s.sendPkt n.toNat w w.sent 0 0)) ∧
  (∀ (s : State) (n : BitVec 16) (c : Conn) (w : WorkEntry), c = s.conn n.toNat → c.nextEntry = some w →
    c.st = .established → c.mayNew (w.first + w.sent) (w.pktLen w.sent) = false →
    exec (.connPacketSend n) s = .next s.waits) ∧
  (∀ (s : State) (i k : Nat) (w : WorkEntry) (c : Conn) (r : Line), c = s.conn i →
    r = s.pktData (Fin.ofNat 4 (connLd i)) w k → r.stall = false → r.code = Code.ok → ∃ p : Packet,
    s.sendPkt i w k 0 0 = ((r.st.setConn i { c with
      sent := c.sent ++ [⟨w.first + k, 0, w.pktLen k, r.st.connSeal i false (w.first + k) p (w.ext k) r.data, false, 0⟩]
      work := c.work.map (fun x => if x.first = w.first ∧ x.pkts ≠ 0 then { x with sent := k + 1 } else x) }).sendConn i
        (r.st.connSeal i false (w.first + k) p (w.ext k) r.data)).done Code.ok) ∧
  (∀ (c : Conn) (e n : Nat), c.mayNew e n = true → e < c.cumIn + 1024 ∧ (c.credit = true → e < c.clim) ∧
    (c.credit = false → (c.sent.map (fun x => x.bytes)).sum + n ≤ c.window)) ∧
  (∀ (s : State) (p : Packet), s.connHere p = true → 1 ≤ p.op → p.op ≤ 5 → s.connNamed p = false →
    exec (.connPacketReceive p) s = .next (((s.cnCount (connLd p.dconn) 0x10).sendGone p).done Code.connectionClosed)) ∧
  (∀ (s : State) (p : Packet) (e : Nat), s.connHere p = true → 1 ≤ p.op → p.op ≤ 5 → s.connNamed p = true →
    nearest (s.conn p.dconn).cum p.psn = some e → e < (s.conn p.dconn).cum + 1024 → (s.conn p.dconn).got e = false →
    exec (.connPacketReceive p) s = .next (match s.connOpen p.dconn false e p with
      | none => (s.cnCount (connLd p.dconn) 0x1C).done Code.aeadFail
      | some d => s.authPkt p.dconn e p d)) ∧
  (∀ (s : State) (p : Packet) (e : Nat), s.connHere p = true → 1 ≤ p.op → p.op ≤ 5 → s.connNamed p = true →
    nearest (s.conn p.dconn).cum p.psn = some e → e < (s.conn p.dconn).cum + 1024 → (s.conn p.dconn).got e = true →
    ∃ t, exec (.connPacketReceive p) s = .next t ∧ t.mem = s.mem ∧ t.regions = s.regions ∧ t.queues = s.queues ∧
    t.conn p.dconn = { s.conn p.dconn with ackDue := true } ∧ t.reply = ⟨Code.ok, 0⟩) ∧
  (∀ (c : Conn) (e : Nat), (c.take e).got e = true ∧ (∀ k, c.got k = true → (c.take e).got k = true) ∧
    c.cum ≤ (c.take e).cum) ∧
  (∀ (s : State) (c : Conn) (p : Packet), s.regionRefuses c p = none →
    (s.region (p.rkey % 2 ^ 20)).st = 1 ∧ (s.region (p.rkey % 2 ^ 20)).rkey.toNat = p.rkey ∧
    (s.region (p.rkey % 2 ^ 20)).ctx = c.ctx ∧
    p.offset + (if p.op = 4 then p.msgLen else p.dataLen) ≤ (s.region (p.rkey % 2 ^ 20)).length.toNat ∧
    (s.region (p.rkey % 2 ^ 20)).rights.getLsbD (if p.op = 4 then 1 else 0) = true) ∧
  (∀ (s : State) (n : BitVec 16) (r : ReadReq) (rs : List ReadReq) (c : Conn), c = s.conn n.toNat → c.reads = r :: rs →
    c.st = .established → r.epsn < c.cum → ∃ t w, exec (.readReqServe n) s = .next t ∧ (t.conn n.toNat).reads = rs ∧
    (t.conn n.toNat).work = c.work ++ [w] ∧ w.op = 5 ∧ w.len = r.bytes ∧ w.lkey = r.rkey ∧ w.loff = r.offset ∧
    w.first = c.nextPsn ∧ (t.conn n.toNat).nextPsn = c.nextPsn + w.pkts ∧ t.mem = s.mem ∧ t.reply = ⟨Code.ok, 0⟩) ∧
  (∀ (s : State) (n : BitVec 16) (r : ReadReq) (rs : List ReadReq), (s.conn n.toNat).reads = r :: rs →
    (s.conn n.toNat).cum ≤ r.epsn → exec (.readReqServe n) s = .next s.waits)

/-- Answers and timers of a connection, and barrier messages (R125, R355, R361–R363, R365, R369–R371). An ACK that is due on
an ESTABLISHED connection leaves with the next ASN, and is due no more. An ACK or NAK of a known connection with an ASN
above the last is used if its tag holds; an ACK whose ASN is not above it is counted and dropped. A NAK with
CONTEXT_UNAVAILABLE or RETRY_AFTER holds its packet. GONE of a connection's peer ends it with CONNECTION_CLOSED. On an
ESTABLISHED connection the retransmission timer moves to credit mode and sends the oldest packet, unless a hint holds it,
again as a retry, after seven of which it ends with RETRY_EXCEEDED; a hint that ends sends its packet again as no retry. A
resent packet without an entry goes under the next TRY. Only hints for longer than TW_PAUSE end the connection. BAR_ARRIVE
at the coordinator, BAR_RELEASE and BAR_CANCEL count for the present instance and are counted as stale otherwise. An
instance of a group barrier that waits for its release sends BAR_ARRIVE again, away from the coordinator; the end of a
barrier by a command is broadcast by the coordinator of a group barrier. -/
def Obligations.ConnAnswersAndBarriers : Prop :=
  (∀ (s : State) (n : BitVec 16), (s.conn n.toNat).ackDue = true → (s.conn n.toNat).st = .established → ∃ t,
    exec (.ackSend n) s = .next t ∧ (t.conn n.toNat).ackDue = false ∧ (t.conn n.toNat).ece = 0 ∧
    (t.conn n.toNat).nextAsn = (s.conn n.toNat).nextAsn + 1 ∧ (t.conn n.toNat).climOut = s.climFor n.toNat ∧
    (t.conn n.toNat).cum = (s.conn n.toNat).cum ∧ t.mem = s.mem ∧ t.reply = ⟨Code.ok, 0⟩) ∧
  (∀ (s u : State) (p : Packet) (x : Bool) (m cum : Nat), s.connHere p = true → p.op = 6 → s.connNamed p = true →
    nearest ((s.conn p.dconn).lastAsn.getD 0) p.psn = some m → (∀ a, (s.conn p.dconn).lastAsn = some a → a < m) →
    u = ((s.setConn p.dconn { s.conn p.dconn with lastAsn := some m, hsLast := none }).count64
      (Reg.cnCnt (connLd p.dconn) 0x00) 1) → cum = fromBE (sub p.payload 0 6) →
    exec (.ackReceive p x) s = .next (match s.connOpen p.dconn true m p with
      | none => (s.cnCount (connLd p.dconn) 0x1C).done Code.aeadFail
      | some _ =>
        if (s.conn p.dconn).cumIn < cum ∧ cum ≤ (s.conn p.dconn).nextEpsn
        then (u.setConn p.dconn { u.conn p.dconn with clim := fromBE (sub p.payload 6 6) }).advanceCum p.dconn cum
          (fromBE (sub p.payload 12 2)) x
        else (u.setConn p.dconn { u.conn p.dconn with clim := fromBE (sub p.payload 6 6) }).done Code.ok)) ∧
  (∀ (s : State) (p : Packet) (x : Bool) (m a : Nat), s.connHere p = true → p.op = 6 → s.connNamed p = true →
    (s.conn p.dconn).lastAsn = some a → nearest a p.psn = some m → m ≤ a →
    exec (.ackReceive p x) s = .next ((s.cnCount (connLd p.dconn) 0x14).done Code.ok)) ∧
  (∀ (s : State) (p : Packet) (m : Nat), s.connHere p = true → p.op = 7 → s.connNamed p = true →
    nearest ((s.conn p.dconn).lastAsn.getD 0) p.psn = some m → (∀ a, (s.conn p.dconn).lastAsn = some a → a < m) →
    exec (.nakReceive p) s = .next (match s.connOpen p.dconn true m p with
      | none => (s.cnCount (connLd p.dconn) 0x1C).done Code.aeadFail
      | some _ => ((s.setConn p.dconn { s.conn p.dconn with lastAsn := some m, hsLast := none }).count64
          (Reg.cnCnt (connLd p.dconn) 0x00) 1).nakked p.dconn (fromBE (sub p.payload 0 6)) (codeOf (p.payload.getD 6 0)))) ∧
  (∀ (s : State) (i e : Nat) (c : Byte), c = Code.contextUnavailable ∨ c = Code.retryAfter →
    ∀ x, x ∈ ((s.nakked i e c).conn i).sent → x.epsn = e → x.held = true) ∧
  (∀ (s : State) (p : Packet) (i : Nat) (is : List Nat), s.connHere p = true → p.op = 8 →
    s.connsWhere (fun c => decide (c.st = .established ∨ c.st = .paused) && decide (c.peer = p.src) &&
      decide (c.peerConn.toNat = p.sconn)) = i :: is → exec (.goneReceive p) s =
    .next ((((s.endConn i Code.connectionClosed Code.connectionClosed).rootLost i).count64
      (Reg.cnCnt (connLd i) 0x00) 1).done Code.ok)) ∧
  (∀ (s u : State) (n : BitVec 16) (x : SentPkt) (xs : List SentPkt), (s.conn n.toNat).sent = x :: xs →
    (s.conn n.toNat).st = .established → u = (s.cnCount (connLd n.toNat) 0x2C).toCredit n.toNat → x.held = true →
    exec (.rtoExpire n) s = .next ((u.setConn n.toNat { u.conn n.toNat with
      cleanEp := 0, recover := (s.conn n.toNat).nextEpsn }).done Code.ok)) ∧
  (∀ (s u : State) (n : BitVec 16) (x : SentPkt) (xs : List SentPkt), (s.conn n.toNat).sent = x :: xs →
    (s.conn n.toNat).st = .established → u = (s.cnCount (connLd n.toNat) 0x2C).toCredit n.toNat → x.held = false →
    exec (.rtoExpire n) s = .next (if (s.resendPkt n.toNat x true).reply.status = Code.deferred then s.resendPkt n.toNat x true
      else (u.setConn n.toNat { u.conn n.toNat with
        cleanEp := 0, recover := (s.conn n.toNat).nextEpsn }).resendPkt n.toNat x true)) ∧
  (∀ (s : State) (i : Nat) (x : SentPkt) (b : Bool), 7 < x.tries + b2n b →
    ((s.resendPkt i x b).conn i).st = .ended ∧ (s.resendPkt i x b).reply = ⟨Code.retryExceeded, 0⟩) ∧
  (∀ (s : State) (n : BitVec 16) (x : SentPkt), (s.conn n.toNat).sent.find? (fun y => y.held) = some x →
    (s.conn n.toNat).st = .established → exec (.nakHintExpire n) s = .next (s.resendPkt n.toNat x false)) ∧
  (∀ (s : State) (i : Nat) (x : SentPkt) (b : Bool), (∀ w, w ∈ (s.conn i).work → ¬ (w.first ≤ x.epsn ∧
      x.epsn < w.first + w.pkts)) → x.tries + b2n b ≤ 7 → ∃ q : Packet,
    s.resendPkt i x b = ((s.setConn i { s.conn i with sent := (s.conn i).sent.map (fun y =>
      if y.epsn = x.epsn then ⟨x.epsn, (x.try_ + 1) % 8, 0, q, false, x.tries + b2n b⟩ else y) }).sendConn i q).done Code.ok) ∧
  (∀ (s : State) (n : BitVec 16), (s.conn n.toNat).st = .established → (s.conn n.toNat).hinted = true → ∃ t,
    exec (.twPauseExpire n) s = .next t ∧ (t.conn n.toNat).st = .ended ∧ (t.conn n.toNat).sent = [] ∧
    t.reply = ⟨Code.retryExceeded, 0⟩) ∧
  (∀ (s : State) (src : BitVec 14) (c n : Byte) (i : BitVec 16), exec (.barArriveReceive src c n i) s =
    .next (if s.barCurrent c n i ∧ s.barCoord c.toNat then (s.barCount c.toNat n.toNat src).done Code.ok
      else s.ctrlStale)) ∧
  (∀ (s : State) (c n : Byte) (i : BitVec 16) (cmd : Instr) (ok : Bool),
    (cmd, ok) ∈ [(Instr.barReleaseReceive c n i, true), (.barCancelReceive c n i, false)] → exec cmd s =
    .next (if s.barCurrent c n i then (s.barwEnd c.toNat n.toNat ok).done Code.ok else s.ctrlStale)) ∧
  (∀ (s : State) (c : Fin 16) (n : Fin 256), s.fld (Reg.bwCfg c.val n.val) 31 31 = 1 →
    0 < s.fld (Reg.bwCfg c.val n.val) 9 0 → s.fld (Reg.bwCfg c.val n.val) 9 0 ≤ s.fld (Reg.bwCfg c.val n.val) 25 16 →
    s.barCoord c.val = false → exec (.barArriveResend c n) s = .next ((s.sendCtrl (some (BitVec.ofNat 14
      (s.fld (Reg.bwGrp c.val) 29 16))) 1 (s.barBody c.val n.val)).done Code.ok)) ∧
  (∀ (s : State) (c : Fin 16) (n : Fin 256), exec (.barrierCancel c n) s =
    .next (((if s.fld (Reg.bwCfg c.val n.val) 31 31 = 1 ∧ s.barCoord c.val = true
      then s.sendCtrl none 3 (s.barBody c.val n.val) else s).barwEnd c.val n.val false).done Code.ok))

/-- Contexts (R377–R382, R390, R393, R408, R409, R415). A CX_CMD not BUSY, no key command running. CREATE whose checks pass,
the entropy source running, makes the context once the three slots are filled with good keys, and answers the code of the
first that is not, with the slots empty; a failed check is its answer. The checks pass only for an ABSENT context below
CTX_MAX, in OWNED or OWNED_DEBUG, untampered, after no integrity failure. Slots that are filled hold valid keys, and no
other context's slots change. A context that is made is RESIDENT, its GEN one up, its log begun with the owner's keys, the
gate raised on every light die, and no other context's state changes. PARK of a RESIDENT context without an open round
starts, and is otherwise BUSY; PARK_DONE waits while strands drain and parks once its banks and strands are gone. RESUME
of a PARKED context, no key pending, fills the wrap slot with a good key and makes it RESIDENT, its gate raised, memory
and the other keys kept. END of a context that is neither ABSENT nor ENDING starts; the context is ENDING, its slots,
registry entries and sets empty, none of its regions left, its log empty. END_DONE waits for the banks, and then releases
the granules and leaves it ABSENT. A wait is the reply DEFERRED (the model's choice, notes/assumptions/7.md). -/
def Obligations.Contexts : Prop :=
  (∀ (s : State) (c : Fin 16) (k : Bytes), s.cxBusy = false → s.createCheck c.val = Code.ok → s.hss.run = none →
    s.entRunning = true → (s.freshSlots [slotMem c.val, slotInt c.val, slotWrap c.val]).2 = Code.ok → exec (.cxCreate c k) s =
      .next (((s.freshSlots [slotMem c.val, slotInt c.val, slotWrap c.val]).1.createCtx c.val k).cxDone 0 c.val Code.ok)) ∧
  (∀ (s : State) (c : Fin 16) (k : Bytes) (x : State × Byte), s.cxBusy = false → s.createCheck c.val = Code.ok →
    s.hss.run = none → s.entRunning = true → x = s.freshSlots [slotMem c.val, slotInt c.val, slotWrap c.val] → x.2 ≠ Code.ok →
    exec (.cxCreate c k) s = .next ((((x.1.zeroSlot (slotMem c.val)).zeroSlot (slotInt c.val)).zeroSlot
      (slotWrap c.val)).cxDone 0 c.val x.2)) ∧
  (∀ (s : State) (c : Fin 16) (k : Bytes), s.cxBusy = false → s.createCheck c.val ≠ Code.ok →
    exec (.cxCreate c k) s = .next (s.cxDone 0 c.val (s.createCheck c.val))) ∧
  (∀ (s : State) (c : Nat), s.createCheck c = Code.ok → s.cst c = 0 ∧ s.tampered = false ∧ (s.lc = 2 ∨ s.lc = 3) ∧
    c < pfCtxMax s.profileBody ∧ s.hub.noCreate = false) ∧
  (∀ (s t : State) (c : Nat) (ns : List Nat), c < 16 →
    (ns = [slotMem c, slotInt c, slotWrap c] ∨ ns = [slotWrap c]) → s.freshSlots ns = (t, Code.ok) →
    (∀ n, n ∈ ns → (t.active n).valid = true) ∧ (∀ n, n ∉ ns → t.active n = s.active n) ∧ t.mem = s.mem) ∧
  (∀ (s : State) (c : Nat) (k : Bytes), c < 16 → (s.createCtx c k).cst c = 1 ∧
    (s.createCtx c k).fld (Reg.ctxStat c) 7 0 = (s.fld (Reg.ctxStat c) 7 0 + 1) % 256 ∧ (s.createCtx c k).logUsed c = 168 ∧
    (∀ l, l < s.part.ldCount → (s.createCtx c k).fld (Reg.estGate l c) 31 31 = 1) ∧
    (s.createCtx c k).keys = s.keys ∧ (s.createCtx c k).mem = s.mem ∧
    (∀ b, b < 16 → b ≠ c → (s.createCtx c k).cst b = s.cst b)) ∧
  (∀ (s : State) (c : Fin 16), s.cxBusy = false → s.cst c.val = 1 → s.roundOpen c.val = false →
    s.hss.run = none →
    exec (.cxPark c) s = .next ((s.startPark c.val).cxRuns 1 c.val)) ∧
  (∀ (s : State) (c : Fin 16), s.cxBusy = false → (s.cst c.val ≠ 1 ∨ s.roundOpen c.val = true) →
    exec (.cxPark c) s = .next (s.cxDone 1 c.val Code.busy)) ∧
  (∀ (s : State) (c : Fin 16), (s.ctx c.val).op = .park → s.cst c.val = 2 → s.ctxDrains c.val = false →
    s.banksGone c.val = true → allStrands.any (s.boundTo c.val) = false →
    exec (.parkDone c) s = .next (s.parkDone c.val)) ∧
  (∀ (s : State) (c : Fin 16), (s.ctx c.val).op = .park → s.cst c.val = 2 → s.ctxDrains c.val = true →
    exec (.parkDone c) s = .next s.waits) ∧
  (∀ (s : State) (c : Fin 16), s.cxBusy = false → s.cst c.val = 3 → s.slotsTaken [slotWrap c.val] = false →
    s.hss.run = none → s.entRunning = true → (s.freshSlots [slotWrap c.val]).2 = Code.ok →
    exec (.cxResume c) s = .next (((s.freshSlots [slotWrap c.val]).1.resumeCtx c.val).cxDone 2 c.val Code.ok)) ∧
  (∀ (s : State) (c : Nat), c < 16 → (s.resumeCtx c).cst c = 1 ∧
    (∀ l, l < s.part.ldCount → (s.resumeCtx c).fld (Reg.estGate l c) 31 31 = 1) ∧
    (s.resumeCtx c).keys = s.keys ∧ (s.resumeCtx c).mem = s.mem) ∧
  (∀ (s : State) (c : Fin 16), s.cxBusy = false → s.cst c.val ≠ 0 → s.cst c.val ≠ 4 →
    exec (.cxEnd c) s = .next (((s.cancelWork c.val).endContext c.val Code.ok).cxRuns 3 c.val)) ∧
  (∀ (s : State) (c : Nat) (code : Byte), c < 16 → (s.endContext c code).cst c = 4 ∧
    (∀ k, k < 14 → (s.endContext c code).active (slotMem c + k) = KeyHalf.zero) ∧
    (∀ i, i < 64 → (s.endContext c code).evk.get (fun _ => EvkEnt.zero) (c * 64 + i) = EvkEnt.zero) ∧
    (∀ i, i < 256 → (s.endContext c code).psets.get (fun _ => 0) (c * 256 + i) = 0) ∧
    (∀ e, e ∈ (s.endContext c code).regions → e.2.ctx.val ≠ c) ∧
    (s.endContext c code).logUsed c = 0) ∧
  (∀ (s : State) (c : Fin 16), s.cst c.val = 4 → s.banksGone c.val = true →
    exec (.endDone c) s = .next (s.endDone c.val)) ∧
  (∀ (s : State) (c : Nat), c < 16 → (s.endDone c).cst c = 0 ∧ (∀ e, e ∈ (s.endDone c).granule → e.2.toNat ≠ c)) ∧
  (∀ (s : State) (c : Fin 16), s.cst c.val = 4 → s.banksGone c.val = false →
    exec (.endDone c) s = .next (s.leaveDies c.val).waits)

/-- Granules and evaluation keys (R240, R243, R385, R387, R419). A granule command whose checks pass: ASSIGN of FREE granules
gives each the owner, raises each major counter by one and zeroes the minor ones, and leaves every other owner and memory
as they are; of a granule that has an owner it answers BUSY. RELEASE by their owner of granules no region and no registry
entry uses makes them FREE; of granules in use it answers BUSY. READ shows the owner. In a context that is RESIDENT or
PARKED: ENTER of an EMPTY entry with good fields makes it ACTIVE with the digest of its stream, of another entry it
answers BUSY; RETIRE moves an ACTIVE entry to RETIRING; READ shows an entry. A RETIRING entry that nothing streams from
becomes EMPTY and the log takes its record, once that has room; before it waits. No other entry changes. A wait is the
reply DEFERRED (the model's choice, notes/assumptions/7.md). -/
def Obligations.GranulesAndEvaluationKeys : Prop :=
  (∀ (s : State), s.grCheck false = Code.ok → s.grAny s.grStart s.grCount (fun _ => true) = false →
    exec .granuleAssign s = .next ((s.grAssign s.grStart s.grCount s.grOwner).grDone 0 0 Code.ok)) ∧
  (∀ (s : State) (a n o : Nat), a % 0x200000 = 0 →
    (∀ k, a ≤ k → k < a + n * 0x200000 → (s.grAssign a n o).granuleOf k = o % 32) ∧
    (∀ k, k < a ∨ a + n * 0x200000 ≤ k → (s.grAssign a n o).granuleOf k = s.granuleOf k) ∧
    (∀ k, a ≤ k → k < a + n * 0x200000 → (s.grAssign a n o).major.get (fun _ => 0) (k / 4096) =
      s.major.get (fun _ => 0) (k / 4096) + 1 ∧ (s.grAssign a n o).minor.get (fun _ => 0) (k / 64) = 0) ∧
    (s.grAssign a n o).mem = s.mem) ∧
  (∀ (s : State), s.grCheck false = Code.ok → s.grAny s.grStart s.grCount (fun _ => true) = true →
    exec .granuleAssign s = .next (s.grDone 0 0 Code.busy)) ∧
  (∀ (s : State), s.grCheck false = Code.ok → s.grAny s.grStart s.grCount (fun o => decide (o ≠ s.grOwner)) = false →
    s.grHeld s.grStart s.grCount = false →
    exec .granuleRelease s = .next ((s.grRelease s.grStart s.grCount).grDone 1 0 Code.ok)) ∧
  (∀ (s : State), s.grCheck false = Code.ok → s.grHeld s.grStart s.grCount = true →
    exec .granuleRelease s = .next (s.grDone 1 0 Code.busy)) ∧
  (∀ (s : State), s.grCheck true = Code.ok → ∃ t, exec .granuleRead s = .next t ∧ t.granule = s.granule ∧
    t.fld Reg.bwGrStat 4 0 = s.granuleOf s.grStart ∧ t.mem = s.mem ∧ t.reply = ⟨Code.ok, 0⟩) ∧
  (∀ (s : State) (c : Fin 16) (i : Fin 64), s.ctxLive c.val = true → (s.evkEnt c.val i.val).st = 0 →
    s.ekBad c.val s.ekStaged = false → ∃ t, exec (.ekEnter c i) s = .next t ∧ t.evkEnt c.val i.val = ekEntry s.ekStaged
      (Config.sha384 (s.bytes (field s.ekStaged 0 8) (field s.ekStaged 8 8))) ∧
    (∀ k, k ≠ c.val * 64 + i.val → t.evk.get (fun _ => EvkEnt.zero) k = s.evk.get (fun _ => EvkEnt.zero) k) ∧
    t.mem = s.mem ∧ t.reply = ⟨Code.ok, 0⟩) ∧
  (∀ (s : State) (c : Fin 16) (i : Fin 64), s.ctxLive c.val = true → (s.evkEnt c.val i.val).st ≠ 0 →
    exec (.ekEnter c i) s = .next (s.ekDone 0 c.val i.val Code.busy)) ∧
  (∀ (s : State) (c : Fin 16) (i : Fin 64), s.ctxLive c.val = true → (s.evkEnt c.val i.val).st = 1 → ∃ t,
    exec (.ekRetire c i) s = .next t ∧ t.evkEnt c.val i.val = { s.evkEnt c.val i.val with st := 2 } ∧
    (∀ k, k ≠ c.val * 64 + i.val → t.evk.get (fun _ => EvkEnt.zero) k = s.evk.get (fun _ => EvkEnt.zero) k) ∧
    t.mem = s.mem ∧ t.reply = ⟨Code.ok, 0⟩) ∧
  (∀ (s : State) (c : Fin 16) (i : Fin 64), s.ctxLive c.val = true → ∃ t, exec (.ekRead c i) s = .next t ∧
    (∀ k, k < 8 → t.reg (Reg.ekData k) = BitVec.ofNat 32 (field (s.evkEnt c.val i.val).bytes (4 * k) 4)) ∧
    t.evk = s.evk ∧ t.mem = s.mem ∧ t.reply = ⟨Code.ok, 0⟩) ∧
  (∀ (s : State) (c : Fin 16) (i : Fin 64), (s.evkEnt c.val i.val).st = 2 → (s.evkEnt c.val i.val).inuse = 0 →
    s.logFits c.val 72 = true → ∃ t, exec (.evkRetireDone c i) s = .next t ∧ t.evkEnt c.val i.val = EvkEnt.zero ∧
    t.logUsed c.val = s.logUsed c.val + 72 ∧ t.mem = s.mem ∧ t.reply = ⟨Code.ok, 0⟩) ∧
  (∀ (s : State) (c : Fin 16) (i : Fin 64), (s.evkEnt c.val i.val).st = 2 → (s.evkEnt c.val i.val).inuse = 0 →
    s.logFits c.val 72 = false → exec (.evkRetireDone c i) s = .next s.waits)

/-- Key slots (R365, R404–R410, R413, R425). No key command running, the key store tested. GENERATE of a slot that it may
fill, with the attributes of R406 and PENDING empty, the entropy source running and so after the root has reseeded, fills
PENDING with a fresh key; of a slot that it never fills it answers ATTRIBUTE_DENIED. VERIFY of a LOADED half makes it
VERIFIED if its known answer holds, and else empties it and answers SIGNATURE_FAIL; an imported half passes where its
check value agrees. COMMIT of a VERIFIED half, of no memory or integrity slot with a valid key, makes it ACTIVE and
PENDING empty, and answers BUSY otherwise. DISCARD empties PENDING. INVALIDATE of a slot from 32 on empties both halves,
and with a context's memory or integrity slot leaves each of its connections ENDED or FREE; of a system slot it answers
ATTRIBUTE_DENIED. No other slot's halves and no HBM or bank memory change. A use that passes its check is of a valid key,
whose attributes name the engine, the context if bound, the lifecycle state and the use. Values that the specification
leaves open are free values (notes/assumptions/2.md). -/
def Obligations.KeySlots : Prop :=
  (∀ (s : State) (n : Fin 256), s.hss.run = none → s.katOk .keyStore = true → noGenerate n.val = false →
    s.attrFits n.val = true → s.pst n.val = 0 → s.entRunning = true → s.reseedRoot.entRunning = true → ∃ t,
    exec (.keyGenerate n) s = .next t ∧
    t.pendingKey n.val = ⟨(s.pendingKey n.val).attr ||| 0x80000000, s.reseedRoot.freshKey, 0⟩ ∧ t.pst n.val = 1 ∧
    t.active n.val = s.active n.val ∧ (∀ k, k ≠ n.val → t.active k = s.active k ∧ t.pendingKey k = s.pendingKey k ∧
      t.pst k = s.pst k) ∧ t.mem = s.mem ∧ t.reply = ⟨Code.ok, 0⟩) ∧
  (∀ (s : State) (n : Fin 256), s.hss.run = none → s.katOk .keyStore = true → noGenerate n.val = true →
    exec (.keyGenerate n) s = .next (s.keyDone 0 n.val Code.attributeDenied)) ∧
  (∀ (s : State) (n : Fin 256), s.hss.run = none → s.katOk .keyStore = true → s.pst n.val = 1 → exec (.keyVerify n) s =
    .next (if s.answers (s.pendingKey n.val) = true then ((s.setPstate n.val 2).took 4).keyDone 1 n.val Code.ok
      else (((s.setPendingKey n.val KeyHalf.zero).setPstate n.val 0).took 4).keyDone 1 n.val Code.signatureFail)) ∧
  (∀ (s : State) (k : KeyHalf), bit k.attr 26 = true → s.answers k = decide (k.kcvOf = k.kcv)) ∧
  (∀ (s : State) (n : Fin 256), s.hss.run = none → s.katOk .keyStore = true → s.pst n.val = 2 →
    (memSlot n.val = false ∨ (s.active n.val).valid = false) → ∃ t, exec (.keyCommit n) s = .next t ∧
    t.active n.val = s.pendingKey n.val ∧ t.pendingKey n.val = KeyHalf.zero ∧ t.pst n.val = 0 ∧
    (∀ k, k ≠ n.val → t.active k = s.active k ∧ t.pendingKey k = s.pendingKey k ∧ t.pst k = s.pst k) ∧
    t.mem = s.mem ∧ t.reply = ⟨Code.ok, 0⟩) ∧
  (∀ (s : State) (n : Fin 256), s.hss.run = none → s.katOk .keyStore = true →
    (s.pst n.val ≠ 2 ∨ (memSlot n.val = true ∧ (s.active n.val).valid = true)) →
    exec (.keyCommit n) s = .next (s.keyDone 2 n.val Code.busy)) ∧
  (∀ (s : State) (n : Fin 256), s.hss.run = none → s.katOk .keyStore = true → ∃ t, exec (.keyDiscard n) s = .next t ∧
    t.pendingKey n.val = KeyHalf.zero ∧ t.pst n.val = 0 ∧ (∀ k, t.active k = s.active k) ∧
    (∀ k, k ≠ n.val → t.pendingKey k = s.pendingKey k) ∧ t.mem = s.mem ∧ t.reply = ⟨Code.ok, 0⟩) ∧
  (∀ (s : State) (n : Fin 256), s.hss.run = none → 32 ≤ n.val → ∃ t, exec (.keyInvalidate n) s = .next t ∧
    t.active n.val = KeyHalf.zero ∧ t.pendingKey n.val = KeyHalf.zero ∧ t.pst n.val = 0 ∧
    (∀ k, k ≠ n.val → t.active k = s.active k ∧ t.pendingKey k = s.pendingKey k) ∧
    (memSlot n.val = true → ∀ i, (t.conn i).ctx.val = (n.val - 32) / 14 → (t.conn i).st = .free ∨ (t.conn i).st = .ended) ∧ t.mem = s.mem ∧
    t.reply = ⟨Code.ok, 0⟩) ∧
  (∀ (s : State) (n : Fin 256), s.hss.run = none → n.val < 32 →
    exec (.keyInvalidate n) s = .next (s.keyDone 4 n.val Code.attributeDenied)) ∧
  (∀ (s : State) (n u : Nat) (m : Master) (c : Option Nat), s.keyUse n u m c = Code.ok →
    bit (s.active n).attr 31 = true ∧ bit (s.active n).attr m.bitNo = true ∧
    (bit (s.active n).attr 25 = true → c = some (bits (s.active n).attr 24 21)) ∧
    bit (s.active n).attr (16 + s.lc) = true ∧ bit (s.active n).attr u = true)

/-- Statements and public keys (R408, R416–R418, R431). No key command running, the key store tested. STATEMENT of a valid
slot that may be signed, with a good KEY_BUF, the lower tree built and the entropy source running, is written at KEY_BUF
and takes one HSS leaf, or, where the leaf counter cannot be written, answers INTERNAL_ERROR; without the tree it runs on
until given again; while TAMPERED it answers KEY_REVOKED. Taking a leaf moves to the next one and keeps the counter past
it. PUBLIC writes the public key of a valid asymmetric slot, untampered, and answers FORMAT_ERROR for a symmetric one. A
tree that is built stands. Values that the specification leaves open are free values (notes/assumptions/2.md). -/
def Obligations.KeyStatements : Prop :=
  (∀ (s : State) (n : Fin 256) (b : Bytes), s.hss.run = none → s.katOk .keyStore = true → (s.active n.val).valid = true →
    s.signCheck = Code.ok → b = s.statement n.val (s.hubBytes (s.fld Reg.keyBuf 25 0) 32) →
    s.keyBufOk b.length = true → s.hss.tree = true → s.entRunning = true → exec (.keyCmdStatement n) s =
      .next (if s.leafFails = true then (s.took 1).keyDone 5 n.val Code.internalError
        else (((s.hubStore (s.fld Reg.keyBuf 25 0) b).takeLeaf).draw Port.publicKey 6).keyDone 5 n.val Code.ok)) ∧
  (∀ (s : State) (n : Fin 256) (b : Bytes), s.hss.run = none → s.katOk .keyStore = true → (s.active n.val).valid = true →
    s.signCheck = Code.ok → b = s.statement n.val (s.hubBytes (s.fld Reg.keyBuf 25 0) 32) →
    s.keyBufOk b.length = true → s.hss.tree = false → exec (.keyCmdStatement n) s = .next (s.keyWaits 5 n.val)) ∧
  (∀ (s : State) (n : Fin 256), s.hss.run = none → s.katOk .keyStore = true → (s.active n.val).valid = true → s.tampered = true →
    exec (.keyCmdStatement n) s = .next (s.keyDone 5 n.val Code.keyRevoked)) ∧
  (∀ (s : State), s.hss.block ≤ 64 → s.hss.block ≤ s.hss.counter →
    s.takeLeaf.leaf = s.leaf + 1 ∧ s.takeLeaf.hss.block ≤ 64 ∧ s.takeLeaf.hss.block ≤ s.takeLeaf.hss.counter ∧
    s.leaf < s.takeLeaf.hss.counter) ∧
  (∀ (s : State) (n : Fin 256), s.hss.run = none → s.katOk .keyStore = true → (s.active n.val).valid = true → s.tampered = false →
    2 < (s.active n.val).typ → s.keyBufOk (s.active n.val).public.length = true → exec (.keyPublic n) s =
      .next ((s.hubStore (s.fld Reg.keyBuf 25 0) (s.active n.val).public).keyDone 6 n.val Code.ok)) ∧
  (∀ (s : State) (n : Fin 256), s.hss.run = none → s.katOk .keyStore = true → (s.active n.val).valid = true → s.tampered = false →
    (s.active n.val).typ ≤ 2 → exec (.keyPublic n) s = .next (s.keyDone 6 n.val Code.formatError)) ∧
  (∀ (s : State), exec .hssTreeBuildDone s = .next ({ s with hss := { s.hss with tree := true } }.done Code.ok))

/-- The entropy source (R423–R434). In STARTUP with AON power good, the startup test's end takes the oscillators that failed
out of use and records what failed; with six left, the interleaved stream good, in 20 ms, and three blocks released, the
source starts: RUNNING, instantiated, no request stalled, then the empty PERSIST slots filled and paused rounds going on.
With fewer, a failed stream or too late it is FAILED, or, after the third attempt, DEAD. In RUNNING a failing oscillator
in use is excluded, and the third exclusion or fewer than six left fails the source, as a failure of the interleaved
stream does. From FAILED an attempt below the third begins a STARTUP with the enabled oscillators in use, from DEAD a
RESTART. A permitted read of the data register gives 64 bits in RUNNING, 32 of them latched, and in another state zero
with EMPTY and ERR. A request through a port stalls in STARTUP, is given whole in RUNNING, through the key store's port
after the root has reseeded, and is refused otherwise. The root reseeds from the two oldest blocks released; the
conditioner releases one at every 1,024th bit, and a port at its limit is reseeded. A wait is the reply DEFERRED (the
model's choice, notes/assumptions/7.md). Values that the specification leaves open are free values
(notes/assumptions/2.md). -/
def Obligations.EntropySource : Prop :=
  (∀ (s u t : State) (m : OscMask) (x : CombTest) (us : Nat), s.entState = 0 → s.pins.auxOk = true →
    u = (s.startupHealth m x).setInUse (s.oscInUse &&& (255 - (m.rct ||| m.apt).toNat)) → t = u.takeBlocks 3 →
    6 ≤ oscCount u.oscInUse → u.combBad = false → us ≤ 20000 → 6 ≤ oscCount t.oscInUse → t.combBad = false →
    t.ent.taken.length = 3 → exec (.entStartupDone m x us) s = .next ((t.entUp
      (decide (u.fld Reg.entStat 23 22 ≠ 0 ∨ u.fld Reg.entCtl 31 31 = 1))).done Code.ok)) ∧
  (∀ (s : State), ∃ u : State, u.entState = 1 ∧ u.ent.inst = true ∧ u.ent.excl = 0 ∧ u.ent.stalled = [] ∧
    u.fld Reg.entStat 28 28 = 0 ∧ u.fld Reg.entStat 27 0 = s.fld Reg.entStat 27 0 ∧ s.entUp false =
      (List.range 16).foldl (fun t c => t.closeEnd c) ((u.setFld Reg.entCtl 31 31 0).fillPersist)) ∧
  (∀ (s u : State) (m : OscMask) (x : CombTest) (us : Nat), s.entState = 0 → s.pins.auxOk = true →
    u = (s.startupHealth m x).setInUse (s.oscInUse &&& (255 - (m.rct ||| m.apt).toNat)) →
    (oscCount u.oscInUse < 6 ∨ u.combBad = true ∨ 20000 < us) →
    exec (.entStartupDone m x us) s = .next (u.entDown.done Code.entropyUnavailable)) ∧
  (∀ (s : State), s.fld Reg.entStat 23 22 < 3 → s.fld Reg.entCtl 31 31 = 0 → s.entDown.entState = 2 ∧
    s.entDown.ent.inst = false ∧ s.entDown.ent.stalled = []) ∧
  (∀ (s : State), s.fld Reg.entStat 23 22 = 3 → s.entDown.entState = 3) ∧
  (∀ (s : State) (o : Fin 8) (rct apt : Bool), (rct || apt) = true → s.entState = 1 → s.oscInUse.testBit o.val = true →
    ∃ t, exec (.oscTestFail (some o) rct apt) s = .next t ∧ t.oscInUse.testBit o.val = false ∧
    t.ent.excl = s.ent.excl + 1 ∧
    t.entState = (if 3 ≤ s.ent.excl + 1 ∨ oscCount t.oscInUse < 6 then 2 else 1) ∧ t.reply = ⟨Code.ok, 0⟩) ∧
  (∀ (s : State) (rct apt : Bool), (rct || apt) = true → s.entState = 1 → ∃ t,
    exec (.oscTestFail none rct apt) s = .next t ∧ t.entState = 2 ∧ t.ent.inst = false ∧ t.reply = ⟨Code.ok, 0⟩) ∧
  (∀ (s : State), s.entState = 2 → s.fld Reg.entStat 23 22 < 3 → ∃ t, exec .entRestartAttempt s = .next t ∧
    t.entState = 0 ∧ t.fld Reg.entStat 23 22 = s.fld Reg.entStat 23 22 + 1 ∧ t.oscInUse = s.fld Reg.entOscEn 7 0 ∧
    t.reply = ⟨Code.ok, 0⟩) ∧
  (∀ (s : State), s.entState = 3 → ∃ t, exec (.entRestart .secure) s = .next t ∧ t.entState = 0 ∧
    t.oscInUse = s.fld Reg.entOscEn 7 0 ∧ t.fld Reg.entCtl 31 31 = 1 ∧ t.reply = ⟨Code.ok, 0⟩) ∧
  (∀ (s : State) (a : Acc), s.accessCheck a false = none → s.linksClean = true → a.addr = Reg.entDataLo → s.entState = 1 →
    ∃ t v, exec (.entDataRead a) s = .next t ∧ v < 2 ^ 64 ∧ t.reply = ⟨Code.ok, BitVec.ofNat 64 (v % 2 ^ 32)⟩ ∧
    t.latch.get (fun _ => none) a.core.val = some (Reg.entDataLo, BitVec.ofNat 32 (v / 2 ^ 32)) ∧ t.regs = s.regs ∧
    t.mem = s.mem) ∧
  (∀ (s : State) (a : Acc), s.accessCheck a false = none → s.linksClean = true → a.addr = Reg.entDataLo → s.entState ≠ 1 →
    ∃ t, exec (.entDataRead a) s = .next t ∧ t.reply = ⟨Code.ok, 0⟩ ∧ t.fld Reg.entStat 28 27 = 3 ∧ t.freeCtr = s.freeCtr) ∧
  (∀ (s : State) (p : Fin 37) (n : Nat), s.entState ≠ 1 → exec (.entropyRequest p n) s =
    .next (if s.entState = 0 then ({ s with ent := { s.ent with stalled := s.ent.stalled ++ [p.val] } } : State).waits
      else s.done Code.entropyUnavailable)) ∧
  (∀ (s t : State) (p : Fin 37) (n : Nat), s.entState = 1 → t = (if p.val = 32 then s.reseedRoot else s) → t.entState = 1 →
    exec (.entropyRequest p n) s = .next (((t.draw p.val (2 * n)).emit
      (.words ((t.drawnBytes p.val (2 * n)).map (fun b => b.toNat)))).done Code.ok)) ∧
  (∀ (s : State), s.entState = 1 → exec .drbgReseed s = .next (s.reseedRoot.done Code.ok)) ∧
  (∀ (s : State), s.entState = 1 → 2 ≤ s.ent.ready.length → s.reseedRoot.ent.reseeds = s.ent.reseeds + 1 ∧
    s.reseedRoot.ent.root = Config.drbgReseed s.ent.root (blockBytes (s.ent.ready.take 2)) ∧
    s.reseedRoot.ent.ready = s.ent.ready.drop 2 ∧ s.reseedRoot.regs = s.regs ∧ s.reseedRoot.mem = s.mem) ∧
  (∀ (x : EntSt) (b : Bool), x.fill < 1023 → (x.absorb b).fill = x.fill + 1 ∧ (x.absorb b).ready = x.ready) ∧
  (∀ (x : EntSt) (b : Bool), x.fill = 1023 → (x.absorb b).fill = 0 ∧ (x.absorb b).ready = x.ready ++ [(x.absorb b).shift]) ∧
  (∀ (s : State) (p : Fin 37), s.entState = 1 → 2 ^ 20 ≤ s.ent.blocks.get (fun _ => 0) p.val → ∃ t,
    exec (.portReseed p) s = .next t ∧ t.ent.blocks.get (fun _ => 0) p.val = 0 ∧
    (∀ k, k ≠ p.val → t.ent.blocks.get (fun _ => 0) k = s.ent.blocks.get (fun _ => 0) k) ∧ t.regs = s.regs ∧
    t.reply = ⟨Code.ok, 0⟩)

/-- Self-tests and the hub (R90, R477–R480, R484, R485). With clean links, the unit's power domain ON and no test on the die:
BIST and CALIBRATE start at once on an UNBOUND strand and are held DEFERRED on another, until a held test whose strand is
UNBOUND is started; REPLAY of a READY F-strand posts the stopped entry again, if a round is open, and runs it with GUARDED
forced; BANKTEST of a FREE bank starts, CLEARING, and answers BUSY for another. The end of a bank's test leaves it FREE
with every byte zero and gives the count's code. A failed known-answer test, no request queued, disables its engine and no
other; a good one changes nothing but the reply. The kick, from the secure world, ends the watchdog's first expiry; that
one, no hub reset running, sets FIRED; a second without a kick resets the hub where the register says so, and else is
recorded. HUB_RST from the secure world resets the hub, except while RESET_N holds the module in reset: its cores' latches
and buffers and the TCP connections go, requests lose their connection, and memory, keys, stages, rounds and the Tideway
connections stay; until its end lets the hub serve again, the commands that Daxna carries out in a round wait. A wait is
the reply DEFERRED (the model's choice, notes/assumptions/7.md). -/
def Obligations.SelfTestsAndHub : Prop :=
  (∀ (s : State) (d : Fin 4) (x : Fin 12) (cmd : Instr) (op : Nat), (cmd, op) ∈ [(Instr.bist d x, 0), (.calibrate d x, 1)] →
    s.linksClean = true → s.testOf d.val = none → s.sst d.val x.val = SS.unbound → s.pdOn (pdStrand d.val x.val) = true → exec cmd s = .next (s.startTest d.val op x.val)) ∧
  (∀ (s : State) (d : Fin 4) (x : Fin 12) (cmd : Instr) (op : Nat), (cmd, op) ∈ [(Instr.bist d x, 0), (.calibrate d x, 1)] →
    s.linksClean = true → s.testOf d.val = none → s.sst d.val x.val ≠ SS.unbound → ∃ t, exec cmd s = .next t ∧
    t.testOf d.val = some ⟨op, x.val, true⟩ ∧ t.fld (Reg.stStat d.val) 30 30 = 1 ∧ t.strands = s.strands ∧
    t.mem = s.mem ∧ t.reply = ⟨Code.deferred, 0⟩) ∧
  (∀ (s : State) (d : Fin 4) (x : TestSt), s.testOf d.val = some x → x.held = true →
    s.sst d.val x.target = SS.unbound → s.pdOn (pdStrand d.val x.target) = true →
    exec (.selftestDeferredStart d) s = .next (s.startTest d.val x.op x.target)) ∧
  (∀ (s : State) (d op g : Nat), d < 4 → g < 12 → (s.startTest d op g).sst d g = SS.selftest ∧
    (s.startTest d op g).testOf d = some ⟨op, g, false⟩ ∧ (s.startTest d op g).mem = s.mem) ∧
  (∀ (s : State) (d : Fin 4) (x : Fin 12), s.linksClean = true → s.testOf d.val = none → strandKind x.val = 2 → s.sst d.val x.val = SS.ready →
    exec (.replay d x) s = .next (s.goOn (s.replayF d.val x.val)
      (fun u => ((u.forceGuard d.val x.val true).runStrand d.val x.val).stDone d.val 2 x.val Code.ok 0))) ∧
  (∀ (s : State) (d x : Nat), s.roundOpen (s.sctx d x) = false → s.replayF d x = (s, false)) ∧
  (∀ (s : State) (d : Fin 4) (b : Fin 24), s.linksClean = true → s.testOf d.val = none → s.bst d.val b.val = 0 →
    s.pdOn (pdBank d.val b.val) = true → ∃ t, exec (.banktest d b) s = .next t ∧ t.bst d.val b.val = 3 ∧ t.testOf d.val = some ⟨3, b.val, false⟩ ∧
    (t.bank d.val b.val).test = true ∧ t.fld (Reg.stStat d.val) 31 31 = 1 ∧ t.mem = s.mem ∧ t.reply = ⟨Code.ok, 0⟩) ∧
  (∀ (s : State) (d : Fin 4) (b : Fin 24), s.linksClean = true → s.testOf d.val = none → s.bst d.val b.val ≠ 0 →
    exec (.banktest d b) s = .next (s.stDone d.val 3 b.val Code.busy 0)) ∧
  (∀ (s : State) (d : Fin 4) (x : TestSt) (n : Byte), s.testOf d.val = some x → x.held = false → x.op = 3 →
    x.target < 24 → ∃ t, exec (.selftestDone d n) s = .next t ∧ t.testOf d.val = none ∧ t.bst d.val x.target = 0 ∧
    (t.bank d.val x.target).test = false ∧ (∀ o, o < 0x4000000 → t.byte (bankAddr d.val x.target o) = 0) ∧
    t.reply = ⟨testCode n, 0⟩) ∧
  (∀ (s : State) (e : KatEngine), ∃ t, exec (.katStep e false false) s = .next t ∧ t.katOk e = false ∧
    (∀ k, k ≠ e → t.katOk k = s.katOk k) ∧ t.mem = s.mem ∧ t.reply = ⟨Code.internalError, 0⟩) ∧
  (∀ (s : State) (e : KatEngine), exec (.katStep e true false) s = .next (s.done Code.ok)) ∧
  (∀ (s : State), exec (.hubWdtKick .secure 0xA9A9) s =
    .next (({ s with hub := { s.hub with nmi := false } } : State).done Code.ok)) ∧
  (∀ (s : State), s.hub.reset = none → s.hub.nmi = false → ∃ t, exec .hubWdtExpire s = .next t ∧ t.hub.nmi = true ∧
    t.fld Reg.hubWdt 31 31 = 1 ∧ t.hub.reset = none ∧ t.mem = s.mem ∧ t.reply = ⟨Code.ok, 0⟩) ∧
  (∀ (s : State), s.hub.reset = none → s.hub.nmi = true → exec .hubWdtExpire s = .next (if s.fld Reg.hubWdt 30 30 = 1
    then (s.hubResetStart 0).done Code.ok
    else (s.post 3 (Ev.of 7 3 Code.internalError 2 0 0 0)).done Code.ok)) ∧
  (∀ (s : State), s.hub.reset = none → exec (.hubRstWrite .secure 1) s = .next ((s.hubResetStart 1).done Code.ok)) ∧
  (∀ (s : State) (c : Fin 3), s.boot.inReset = true → s.hubResetStart c = s) ∧
  (∀ (s : State) (c : Fin 3), s.boot.inReset = false → ∃ t, t = s.hubResetStart c ∧ t.hub.reset = some c ∧ t.mgmt.conns = [] ∧ t.latch = [] ∧
    t.wbuf = [] ∧ (∀ w, w ∈ t.mgmt.pending → w.conn = noConn) ∧ t.mem = s.mem ∧ t.keys = s.keys ∧
    t.stages = s.stages ∧ t.rounds = s.rounds ∧ t.conns = s.conns) ∧
  (∀ (s : State) (c : Fin 16) (sh : BitVec 24) (id : DWord) (u v : Nat) (w : Bool) (e : EpochEnd) (k : WorkEnd) (a b : Byte)
    (n : Word) (cmd : Instr), s.hub.reset ≠ none → cmd ∈ [Instr.roundWorkDone c k, .phaseWindowExpire c, .clientClassify c sh,
      .secretInterpolate c sh u w, .pairwiseSeedDerive c sh u v, .shardFailReport c sh, .foldEpochEnd c e, .sketchScan c,
      .updateStart c sh, .phaseReceive a b n, .phaseResend c, .combineDeadline c id] → (∃ r, s.round c.val = some r ∧
      s.isCoord r.desc = true) → exec cmd s = .next s.waits) ∧
  (∀ (s : State) (c : Fin 3), s.hub.reset = some c → ∃ t, exec .hubResetDone s = .next t ∧ t.hub.reset = none ∧
    t.mgmt = s.mgmt ∧ t.mem = s.mem ∧ t.reply = ⟨Code.ok, 0⟩)

/-- The management port (R396–R398, R402, R473, R474, R477). MKA with a CAK makes a DOWN port SECURED; link loss makes it
DOWN, ends its connections and leaves its requests without one; an expired admission makes it SECURED again; an expired
nonce is gone. On a port that is up, no hub reset running: a connection takes the lowest free place of eight, and is BUSY
with none; the end of one takes it from its requests. An outstanding request on a connection may get an interim DEFERRED.
On an open connection a malformed request is answered BUSY beyond 64 outstanding ones and FORMAT_ERROR else; a SYS.STATUS
beyond 64 is BUSY, and one that is well formed, that the admission state serves and whose response is kept is answered
with that. A final response is kept first of at most 1,024, sent while the request has a connection, and the request is no
longer outstanding. -/
def Obligations.ManagementPort : Prop :=
  (∀ (s : State), s.mgmt.adm = .down → s.cakThere = true →
    exec (.mkaLive true) s = .next ((s.setAdm .secured).done Code.ok)) ∧
  (∀ (s : State), ∃ t, exec .mgmtLinkLoss s = .next t ∧ t.mgmt.adm = .down ∧ t.mgmt.conns = [] ∧
    (∀ w, w ∈ t.mgmt.pending → w.conn = noConn) ∧ t.mgmt.pending.length = s.mgmt.pending.length ∧
    t.mgmt.kept = s.mgmt.kept ∧ t.regs = s.regs ∧ t.mem = s.mem ∧ t.reply = ⟨Code.ok, 0⟩) ∧
  (∀ (s : State), s.mgmt.adm = .admitted → ∃ t, exec .admissionExpire s = .next t ∧ t.mgmt.adm = .secured ∧
    t.mgmt.conns = s.mgmt.conns ∧ t.mgmt.pending = s.mgmt.pending ∧ t.mem = s.mem ∧ t.reply = ⟨Code.ok, 0⟩) ∧
  (∀ (s : State) (n : DWord), ∃ t, exec (.nonceExpire n) s = .next t ∧ n ∉ t.mgmt.nonces ∧
    (∀ k, k ≠ n → (k ∈ t.mgmt.nonces ↔ k ∈ s.mgmt.nonces)) ∧ t.regs = s.regs ∧ t.reply = ⟨Code.ok, 0⟩) ∧
  (∀ (s : State) (k : Fin 8), s.mgmt.adm ≠ .down → s.hub.reset = none → k ∉ s.mgmt.conns →
    (∀ j, j < k → j ∈ s.mgmt.conns) → ∃ t, exec .pmpConnect s = .next t ∧ t.mgmt.conns = s.mgmt.conns ++ [k] ∧
    t.mgmt.pending = s.mgmt.pending ∧ t.regs = s.regs ∧ t.reply = ⟨Code.ok, BitVec.ofNat 64 k.val⟩) ∧
  (∀ (s : State), s.mgmt.adm ≠ .down → s.hub.reset = none → (∀ k : Fin 8, k ∈ s.mgmt.conns) →
    exec .pmpConnect s = .next (s.done Code.busy)) ∧
  (∀ (s : State) (p : PmpReq) (w : PmpWork), w ∈ s.mgmt.pending → w.ident = p.ident → w.reqId = p.reqId →
    w.conn ≠ noConn → s.hub.reset = none →
    exec (.pmpDeferred p) s = .next (s.pmpSend p.ident p.reqId 1 Code.deferred [])) ∧
  (∀ (s : State) (k : Fin 8), ∃ t, exec (.pmpConnectionEnd k) s = .next t ∧ k ∉ t.mgmt.conns ∧
    (∀ w, w ∈ t.mgmt.pending → w.conn ≠ k.val) ∧ (∀ j, j ≠ k → (j ∈ t.mgmt.conns ↔ j ∈ s.mgmt.conns)) ∧
    t.mgmt.kept = s.mgmt.kept ∧ t.regs = s.regs ∧ t.reply = ⟨Code.ok, 0⟩) ∧
  (∀ (s : State) (k : Fin 8) (id : DWord), s.mgmt.adm ≠ .down → k ∈ s.mgmt.conns → s.hub.reset = none →
    exec (.malformedPmpRequest k id) s = .next (s.pmpSend 0 id 2 (if 64 ≤ s.outstanding k.val then Code.busy
      else Code.formatError) [])) ∧
  (∀ (s : State) (p : PmpReq), s.mgmt.adm ≠ .down → p.conn ∈ s.mgmt.conns → s.hub.reset = none →
    64 ≤ s.outstanding p.conn.val → exec (.sysStatus p) s = .next (s.pmpSend p.ident p.reqId 2 Code.busy [])) ∧
  (∀ (s : State) (p : PmpReq) (k : Kept), s.mgmt.adm ≠ .down → p.conn ∈ s.mgmt.conns → s.hub.reset = none →
    s.outstanding p.conn.val < 64 → p.wellFormed = true → s.admRefuses 0x0106 = none → s.keptFor p = some k →
    exec (.sysStatus p) s = .next (s.pmpSend k.ident k.reqId 2 k.status k.body)) ∧
  (∀ (s : State) (i : Nat) (id : DWord) (c : Byte) (b : List Nat),
    (∀ w, w ∈ (s.final i id c b).mgmt.pending ↔ w ∈ s.mgmt.pending ∧ ¬ (w.ident = i ∧ w.reqId = id)) ∧
    (s.final i id c b).mgmt.kept.head? = some ⟨i, id, c, b, s.aon⟩ ∧
    (s.final i id c b).mgmt.kept.length ≤ 1024 ∧
    (s.final i id c b).out = (if s.orphan i id then s.out else s.out ++ [.pmp i id 2 c b]) ∧
    (s.final i id c b).reply = ⟨c, 0⟩)

/-- Requests about the module and its contexts, accepted (R398, R402, R418, R421, R474–R476, R479, R532). What the module may
sign, the lower tree built, the entropy source running and the leaf counter written: ATTEST.GET answers the report and it
is the last issued; ADMIT.BEGIN leaves an N_m; each and KEY.STATEMENT of a valid slot uses a leaf. ADMIT.TICKET discards
N_m, and admits if the ticket holds, which without an N_m none does. BOUNCE.NONCE adds a nonce and keeps the last 64.
PROFILE.SET stores what passes its checks and else answers their code. SYS.STATUS, TEST.RUN of an engine and
CONTEXT.STATUS answer what stands; TEST.RUN of a die with a test is BUSY. EVENT.READ of queue 1 or 2 takes up to 1,024
records from it, of another is FORMAT_ERROR. RESET is answered, and then the warm or the hub reset starts. With CX_STAT
not BUSY, no key command running: CONTEXT.CREATE with keys of a right length, whose checks pass and whose slots fill,
makes the context; CONTEXT.SWITCH resumes a PARKED one whose slot fills and starts the PARK of a RESIDENT one without an
open round; CONTEXT.REMOVE of one neither ABSENT nor ENDING starts its END. -/
def Obligations.ModuleRequests : Prop :=
  (∀ (s : State) (p : PmpReq) (n : Bytes) (m : BitVec 16) (b : Bytes), s.accepts p 0x0100 false → s.signCheck = Code.ok →
    s.hss.tree = true → s.entRunning = true → s.leafFails = false → b = (s.accepted p 0x0100).report n m.toNat →
    exec (.attestGet p n m) s = .next (((s.accepted p 0x0100).issued b).final p.ident p.reqId Code.ok (toBody b))) ∧
  (∀ (s : State) (p : PmpReq) (n : Bytes), s.accepts p 0x0101 false → s.signCheck = Code.ok → s.hss.tree = true →
    s.entRunning = true → s.leafFails = false → ∃ t v, exec (.admitBegin p n) s = .next t ∧ t.mgmt.nonceM = some v ∧
    t.mgmt.adm = s.mgmt.adm ∧ t.mgmt.pending = s.mgmt.pending ∧ t.hss.counter = s.takeLeaf.hss.counter ∧
    t.hss.block = s.takeLeaf.hss.block ∧ t.mem = s.mem ∧ t.reply = ⟨Code.ok, 0⟩) ∧
  (∀ (s : State) (p : PmpReq) (k : Bytes), s.accepts p 0x0102 false → ∃ t, exec (.admitTicket p k) s = .next t ∧
    t.mgmt.nonceM = none ∧ t.mgmt.adm = (if s.ticketOk k then .admitted else s.mgmt.adm) ∧
    t.mgmt.pending = s.mgmt.pending ∧ t.mem = s.mem ∧
    t.reply = ⟨if s.ticketOk k then Code.ok else Code.signatureFail, 0⟩) ∧
  (∀ (s : State) (k : Bytes), s.mgmt.nonceM = none → s.ticketOk k = false) ∧
  (∀ (s : State) (p : PmpReq), s.accepts p 0x0103 false → s.entRunning = true → ∃ t v, exec (.bounceNonce p) s = .next t ∧
    t.mgmt.nonces = (s.mgmt.nonces ++ [v]).drop (s.mgmt.nonces.length + 1 - 64) ∧ t.mgmt.pending = s.mgmt.pending ∧
    t.regs = s.regs ∧ t.mem = s.mem ∧ t.reply = ⟨Code.ok, 0⟩) ∧
  (∀ (s : State) (p : PmpReq) (n : Fin 256) (k : Bytes), s.accepts p 0x0104 false → (s.active n.val).valid = true →
    s.signCheck = Code.ok → s.katOk .keyStore = true → s.hss.tree = true → s.entRunning = true → s.leafFails = false →
    exec (.keyStatement p n k) s = .next (((s.accepted p 0x0104).takeLeaf.draw Port.publicKey 6).final p.ident p.reqId Code.ok
      (toBody ((s.accepted p 0x0104).statement n.val k)))) ∧
  (∀ (s : State) (p : PmpReq) (sl a : Byte) (o : SignedObj), s.accepts p 0x0105 false → exec (.profileSet p sl a o) s =
    .next (if (s.accepted p 0x0105).profileCode sl o = Code.ok
      then ((s.accepted p 0x0105).storeObj sl a o).answer p Code.ok
      else s.answered p ((s.accepted p 0x0105).profileCode sl o) [])) ∧
  (∀ (s : State) (p : PmpReq), s.accepts p 0x0106 false →
    exec (.sysStatus p) s = .next (s.answered p Code.ok s.sysStatus)) ∧
  (∀ (s : State) (p : PmpReq) (e : Fin 3), s.accepts p 0x0107 false → exec (.testRun p (.kat e)) s =
    .next (s.answered p (if s.katOk (katOf e) then Code.ok else Code.internalError)
      [(if s.katOk (katOf e) then Code.ok else Code.internalError).toNat, 0])) ∧
  (∀ (s : State) (p : PmpReq) (d : Fin 4) (op : BitVec 3) (x : BitVec 5), s.accepts p 0x0107 false →
    (s.testOf d.val).isSome = true → exec (.testRun p (.die d op x)) s =
      .next (((s.accepted p 0x0107).stOp d.val op.toNat x.toNat).answer p Code.busy)) ∧
  (∀ (s : State) (p : PmpReq) (q : Byte) (n : Nat), s.accepts p 0x0108 false → (q = 1 ∨ q = 2) → ∃ t,
    exec (.eventRead p q n) s = .next t ∧ t.fld (Reg.evqHead q.toNat) 11 0 = (s.fld (Reg.evqHead q.toNat) 11 0 +
      min (min n 1024) (s.fld (Reg.evqStat q.toNat) 11 0)) % 4096 ∧
    t.fld (Reg.evqTail q.toNat) 11 0 = s.fld (Reg.evqTail q.toNat) 11 0 ∧ t.hubMem = s.hubMem ∧
    t.mgmt.pending = s.mgmt.pending ∧ t.reply = ⟨Code.ok, 0⟩) ∧
  (∀ (s : State) (p : PmpReq) (q : Byte) (n : Nat), s.accepts p 0x0108 false → q ≠ 1 → q ≠ 2 →
    exec (.eventRead p q n) s = .next (s.answered p Code.formatError [])) ∧
  (∀ (s : State) (p : PmpReq), s.accepts p 0x0109 false →
    exec (.pmpReset p 0) s = .next (((s.answered p Code.ok []).warmReset .cmd).done Code.ok)) ∧
  (∀ (s : State) (p : PmpReq), s.accepts p 0x0109 false →
    exec (.pmpReset p 1) s = .next (((s.answered p Code.ok []).hubResetStart 2).done Code.ok)) ∧
  (∀ (s : State) (p : PmpReq) (k : Bytes), s.accepts p 0x0200 true → (k.length = 153 ∨ k.length = 145) →
    s.cxBusy = false → s.createCheck p.c = Code.ok → s.hss.run = none → s.entRunning = true →
    ((s.accepted p 0x0200).freshSlots [slotMem p.c, slotInt p.c, slotWrap p.c]).2 = Code.ok → exec (.contextCreate p k) s =
      .next (((((s.accepted p 0x0200).freshSlots [slotMem p.c, slotInt p.c, slotWrap p.c]).1.createCtx p.c k).cxDone 0 p.c
        Code.ok).answer p Code.ok)) ∧
  (∀ (s : State) (p : PmpReq), s.accepts p 0x0201 true → s.cxBusy = false → s.cst p.c = 3 →
    s.slotsTaken [slotWrap p.c] = false → s.hss.run = none → s.entRunning = true →
    ((s.accepted p 0x0201).freshSlots [slotWrap p.c]).2 = Code.ok → exec (.contextSwitch p true) s =
      .next (((((s.accepted p 0x0201).freshSlots [slotWrap p.c]).1.resumeCtx p.c).cxDone 2 p.c Code.ok).answer p Code.ok)) ∧
  (∀ (s : State) (p : PmpReq), s.accepts p 0x0201 true → s.cxBusy = false → s.cst p.c = 1 → s.roundOpen p.c = false →
    s.hss.run = none → exec (.contextSwitch p false) s = .next (((s.accepted p 0x0201).startPark p.c).cxRuns 1 p.c)) ∧
  (∀ (s : State) (p : PmpReq), s.accepts p 0x0202 true → s.cxBusy = false → s.cst p.c ≠ 0 → s.cst p.c ≠ 4 →
    exec (.contextRemove p) s =
      .next ((((s.accepted p 0x0202).cancelWork p.c).endContext p.c Code.ok).cxRuns 3 p.c)) ∧
  (∀ (s : State) (p : PmpReq), s.accepts p 0x0203 true → exec (.contextStatus p) s =
    .next (s.answered p Code.ok [(s.reg (Reg.ctxStat p.c)).toNat, (s.ctx p.c).poisoned, 0x40000 - s.logUsed p.c]))

/-- Requests of a context's owner, accepted, the context live and its log with room (R238, R239, R243–R249, R256, R262,
R273–R275). EVK.IMPORT of a key in the context's HBM, a good manifest and a range clear of regions and entries, is
entered, with a log entry, if the owner signed it and its checks pass. EVK.RETIRE of an ACTIVE entry starts. ZERO.IMPORT
of new headers in the context's HBM that can be read joins the pool if the owner signed it and its digest holds.
SCREEN.SET of a good record before a round is kept. SCREEN.GROUP of a posted group reads it. DEC.COMBINE of a readable,
unpoisoned header in the context, which is no key, with good members waits for their shares, if the owner signed it. A
share of an open member counts unless its signature or KEYTAG fails, and the last one runs the combination; one of no open
member is FORMAT_ERROR. Bit i of an admission group's answer is set as admitBit says. A deadline with shares missing drops
the combination and answers its request RETRY_AFTER. MODEL.IMPORT whose checks pass is written if every record opens, and
else the context has no model. MODEL.EXPORT, the key granted, reads the copies it has pinned or the current ones, waits
with them pinned while memory wakes, and answers a digest and the sealed records. -/
def Obligations.OwnerRequests : Prop :=
  (∀ (s : State) (p : PmpReq) (m : Bytes) (g : Sigs) (a : DWord) (r : Line), s.accepts p 0x0400 true →
    s.evkManifestOk p.c m a.toNat none = true → s.inCtxHbm p.c a.toNat (mfLength m) = true →
    s.regionMeets a.toNat (mfLength m) = false → s.evkMeets a.toNat (mfLength m) = false →
    r = (s.accepted p 0x0400).hubGet p.c a.toNat (mfLength m) → r.stall = false → r.code = Code.ok →
    exec (.evkImport p m g a none) s = .next (if s.ownerSigned p.c m g
      then (if r.st.evkCode p.c m r.data = Code.ok then r.st.evkEnter p m a.toNat
        else r.st.answer p (r.st.evkCode p.c m r.data))
      else s.answered p Code.signatureFail [])) ∧
  (∀ (s : State) (p : PmpReq) (m : Bytes) (a i : Nat), s.evkFree p.c = some i →
    (s.evkEnter p m a).evkEnt p.c i = mfEntry m a ∧ (s.evkEnter p m a).logUsed p.c = s.logUsed p.c + 72 ∧
    (s.evkEnter p m a).reply = ⟨Code.ok, 0⟩) ∧
  (∀ (s : State) (p : PmpReq) (i : Fin 64), s.accepts p 0x0401 true → s.ctxLive p.c = true →
    (s.evkEnt p.c i.val).st = 1 → s.logFits p.c 72 = true → exec (.evkRetire p i) s =
      .next ((((s.accepted p 0x0401).retireEvk p.c i.val).waitFor p i.val).done Code.ok)) ∧
  (∀ (s : State) (p : PmpReq) (m : Bytes) (g : Sigs) (hs : List DWord) (r : Line), s.accepts p 0x0402 true →
    manifestOk p.c m = true → s.ctxLive p.c = true → hs ≠ [] → (hs ++ (s.ctx p.c).zeros.map (fun z => z.header)).Nodup →
    (∀ h, h ∈ hs → s.inCtxHbm p.c h.toNat 64 = true) →
    r = (s.accepted p 0x0402).readZeros p.c (hs.map (fun h => h.toNat)) → r.stall = false → r.code = Code.ok →
    r.st.logFits p.c 112 = true → exec (.zeroImport p m g hs) s = .next (if s.ownerSigned p.c m g
      then (if shaBytes r.data = mfDigest m
        then ((r.st.setCtx p.c { r.st.ctx p.c with
              zeros := (r.st.ctx p.c).zeros ++ zerosOf hs r.data
              zeroN := ((zerosOf hs r.data).map (fun z => z.n)).headD (r.st.ctx p.c).zeroN }).logConfig p.c 5 0 0
          (r.st.roundOrZero p.c) r.data).answer p Code.ok
        else r.st.answer p Code.signatureFail)
      else s.answered p Code.signatureFail [])) ∧
  (∀ (s : State) (p : PmpReq) (b : Bytes), s.accepts p 0x0403 true → s.ctxLive p.c = true →
    s.screenFields p.c b = true → s.roundOpen p.c = false → s.logFits p.c 112 = true → exec (.screenSet p b) s =
      .next ((((s.accepted p 0x0403).setCtx p.c { s.ctx p.c with screen := some b }).logConfig p.c 4 0 0 0 b).answer p
        Code.ok)) ∧
  (∀ (s : State) (p : PmpReq) (k : Fin 24) (g : BitVec 16), s.accepts p 0x0404 true → s.ctxLive p.c = true →
    s.roundOpen p.c = true → g.toNat * s.packN p.c < s.listedOn p.c k.val → s.groupPosted p.c k.val g.toNat = true →
    exec (.screenGroup p k g) s =
      .next (((s.accepted p 0x0404).hubGet p.c (Config.groupHeader p.c k.val g.toNat) 64).req s (fun e u => u.answer p e)
        (fun u b => (u.hubGet p.c (Hdr.of (BitVec.ofNat 512 (fromLE b))).ptr (Hdr.of (BitVec.ofNat 512 (fromLE b))).len).req
          s (fun e v => v.answer p e) (fun v d => v.final p.ident p.reqId Code.ok (toBody (b ++ d)))))) ∧
  (∀ (s : State) (p : PmpReq) (a : DWord) (ms : Nat) (mb : List Bytes) (g : Sigs) (x : Line) (h : Hdr),
    s.accepts p 0x0405 true → membersOk ms mb = true → s.ctxLive p.c = true → a.toNat % 64 = 0 →
    s.inCtx p.c a.toNat 64 = true → x = (s.accepted p 0x0405).ownGet p.c a.toNat 64 → x.stall = false →
    x.code = Code.ok → h = Hdr.of (BitVec.ofNat 512 (fromLE x.data)) → x.st.hdrCheck p.c h = none → h.typ ≠ 3 →
    exec (.decCombine p a ms mb g) s = .next (if s.ownerSigned p.c (combineSigned a ms mb) g
      then (if h.poison then (x.st.combineRefused p.c a.toNat).answer p Code.poisonedOperand
        else (x.st.setCtx p.c { x.st.ctx p.c with combs := (x.st.ctx p.c).combs ++
          [⟨p.reqId, BitVec.ofNat 48 a.toNat, BitVec.ofNat 48 h.keytag, mb.map memberOf⟩] }).done Code.ok)
      else s.answered p Code.signatureFail [])) ∧
  (∀ (s : State) (p : PmpReq) (id : DWord) (m : BitVec 16) (tag : BitVec 48) (sh sg : Bytes) (k : Comb) (y : Member)
    (x : Line), s.accepts p 0x0406 true → s.combOf p.c id = some k → k.open m = some y →
    x = (s.accepted p 0x0406).ownGet p.c k.header.toNat 64 → x.stall = false → x.code = Code.ok →
    exec (.decShare p id m tag sh sg) s = .next (if k.shareCode y tag sh sg x.data ≠ Code.ok
      then x.st.answer p (k.shareCode y tag sh sg x.data)
      else if (k.take m sh).full
        then ((x.st.setComb p.c (k.take m sh)).answer p Code.ok).combineRun s p.c (k.take m sh)
        else (x.st.setComb p.c (k.take m sh)).answer p Code.ok)) ∧
  (∀ (s : State) (p : PmpReq) (id : DWord) (m : BitVec 16) (tag : BitVec 48) (sh sg : Bytes) (k : Comb),
    s.accepts p 0x0406 true → s.combOf p.c id = some k → k.open m = none →
    exec (.decShare p id m tag sh sg) s = .next (s.answered p Code.formatError [])) ∧
  (∀ (n q i : Nat) (x : Nat → Int), n % 8 = 0 → i < n →
    ((admitBits n q x).getD (i / 8) 0).getLsbD (i % 8) = admitBit q (x i)) ∧
  (∀ (s : State) (c : Fin 16) (id : DWord) (k : Comb), s.combOf c.val id = some k → k.full = false → s.hub.reset = none → ∃ t,
    exec (.combineDeadline c id) s = .next t ∧ t.combOf c.val id = none ∧
    (∀ j, j ≠ id → t.combOf c.val j = s.combOf c.val j) ∧
    (∀ w, w ∈ t.mgmt.pending → ¬ (w.opcode = 0x0405 ∧ w.ctx.toNat = c.val ∧ w.reqId = id)) ∧ t.mem = s.mem ∧
    t.reply = ⟨Code.retryAfter, 0⟩) ∧
  (∀ (s : State) (p : PmpReq) (h d : Bytes) (a : DWord) (rs : List WrappedRec), s.accepts p 0x0500 true →
    (s.accepted p 0x0500).importCode p.c h d a.toNat rs = Code.ok → exec (.modelImport p h d a rs) s =
      .next (State.pageZero (match allSome (((recordOrder ((dirParts d).map dirEntOf) (1 + field h 5 1)).zip rs).map
          ((s.accepted p 0x0500).openRec (field h 0x18 8) p.c)) with
        | none => ((s.accepted p 0x0500).setCtx p.c { s.ctx p.c with model := none }).answer p Code.aeadFail
        | some plain => (s.accepted p 0x0500).importRun s p h d a.toNat plain))) ∧
  (∀ (s u : State) (p : PmpReq) (st : Bool) (fmt : Byte) (m n : Model) (x : ExportPin) (xs : List (DirEnt × Nat × Nat))
    (r : State × Byte × List Bytes × Bool), u = (s.unpinModel p.c p.reqId).accepted p 0x0501 →
    (s.unpinModel p.c p.reqId).accepts p 0x0501 true → u.ctxLive p.c = true → (s.ctx p.c).model = some m →
    (u.ctx p.c).model = some n → x = m.pinOf p.reqId → fmt.toNat ≤ 1 →
    u.keyUse n.kwSlot.toNat 5 .breakwater (some p.c) = Code.ok → xs = recordOrder x.dir (if st then 1 + n.nstate else 1) →
    r = u.readPages p.c n.nstate xs [] →
    (r.2.2.2 = true → exec (.modelExport p st fmt) s =
      .next (((s.unpinModel p.c p.reqId).pinModel p.c x).waitsFor r.1)) ∧
    (r.2.2.2 = false → r.2.1 ≠ Code.ok → exec (.modelExport p st fmt) s = .next (r.1.answer p r.2.1)) ∧
    (r.2.2.2 = false → r.2.1 = Code.ok → ∃ d : BitVec 384, exec (.modelExport p st fmt) s =
      .next (r.1.final p.ident p.reqId Code.ok (toBody (digestBytes d ++
        ((xs.zip r.2.2.1).map (u.sealRec n.kwSlot.toNat p.c fmt.toNat)).flatten)))))

/-- Bounce envelopes (R399–R401, R408, R412, R414, R535–R537). No key command running, the engines tested, the bounce key
granted, an accepted envelope with a good header, an outstanding nonce, in a lifecycle state that permits it, and of an
active context where it names one: its nonce is used up, its buffer zeroed, it is answered SIGNATURE_FAIL or AEAD_FAIL
where its signer or its tag does not hold, and its contents act only if their form is good: a key is released, clients are
enrolled, the peer list is replaced, a transition runs if none does. A key release with a nonce that is not outstanding is
FORMAT_ERROR. A transition leaves every slot and the sealed area empty and every context ABSENT or ENDING; none leaves
RETIRED, none but to RETIRED once TCOUNT is 255, and OWNED comes from MANUFACTURED or OWNED_DEBUG alone. A released key
replaces the slot's if its check holds; if not the old one stays; PENDING is empty and no other slot's key changes. -/
def Obligations.Envelopes : Prop :=
  (∀ (s u : State) (p : PmpReq) (e : Envelope) (cmd : Instr) (opc op : Nat) (k : Bytes → State),
    (cmd, opc, op) ∈ [(Instr.keyRelease p e, 0x0600, 1), (.clientEnrol p e, 0x0603, 5), (.peerList p e, 0x0604, 6)] →
    s.hss.run = none → s.accepts p opc true → e.ok op p.c = true → s.ctxLive p.c = true → e.nonce ∈ s.mgmt.nonces →
    opInState op s.lc = true → s.katOk .publicKey = true → s.katOk .keyStore = true →
    s.keyUse 7 4 .hubSecure none = Code.ok →
    u = ({ s.accepted p opc with mgmt := { (s.accepted p opc).mgmt with
      nonces := s.mgmt.nonces.filter (fun n => n ≠ e.nonce) } } : State) →
    k = (fun b => if op = 1 then (if ¬ releaseFormatOk b then u.answer p Code.formatError
        else if ¬ releaseAttrOk b p.c then u.answer p Code.attributeDenied else u.releaseKey p b)
      else if op = 5 then (if b.length % 48 ≠ 0 ∨ b = [] then u.answer p Code.formatError
        else (u.enrol p.c b).answer p Code.ok)
      else if b.length % 99 ≠ 0 ∨ b = [] ∨ ¬ ((peersOf b).map (fun x => x.1)).Nodup then u.answer p Code.formatError
      else ({ u with mgmt := { u.mgmt with peers := peersOf b } } : State).answer p Code.ok) →
    exec cmd s = .next (State.bounceZero (if ¬ u.envSigned e op p.c then u.answer p Code.signatureFail
      else match u.envOpen e with
      | none => u.answer p Code.aeadFail
      | some b => k b))) ∧
  (∀ (s u : State) (p : PmpReq) (e : Envelope) (cmd : Instr) (opc op : Nat) (k : Bytes → State),
    (cmd, opc, op) ∈ [(Instr.ownershipSet p e, 0x0601, 3), (.lifecycleSet p e, 0x0602, 4)] →
    s.hss.run = none → s.accepts p opc false → s.fld Reg.lcState 31 31 = 0 → e.ok op 0 = true → e.nonce ∈ s.mgmt.nonces →
    opInState op s.lc = true → s.katOk .publicKey = true → s.keyUse 7 4 .hubSecure none = Code.ok →
    u = ({ s.accepted p opc with mgmt := { (s.accepted p opc).mgmt with
      nonces := s.mgmt.nonces.filter (fun n => n ≠ e.nonce) } } : State) →
    k = (fun b => if u.transitionFormatOk op b
      then (if op = 3 then u.transition p 2 (some (ownerOf b)) (cakOf b)
        else u.transition p (field b 0 1) u.boot.owner (match u.presentRec with
          | some r => (r.cak, r.ckn)
          | none => ([], [])))
      else u.answer p Code.formatError) →
    exec cmd s = .next (State.bounceZero (if ¬ u.envSigned e op p.c then u.answer p Code.signatureFail
      else match u.envOpen e with
      | none => u.answer p Code.aeadFail
      | some b => k b))) ∧
  (∀ (s : State) (p : PmpReq) (e : Envelope), s.hss.run = none → s.accepts p 0x0600 true → e.ok 1 p.c = true → s.ctxLive p.c = true →
    e.nonce ∉ s.mgmt.nonces → exec (.keyRelease p e) s = .next (s.answered p Code.formatError []).bounceZero) ∧
  (∀ (s : State) (p : PmpReq) (tgt : Nat) (o : Option (Bytes × Bytes)) (k : Bytes × Bytes) (n : Nat),
    (s.transition p tgt o k).active n = KeyHalf.zero ∧ (s.transition p tgt o k).pendingKey n = KeyHalf.zero ∧
    (s.transition p tgt o k).boot.sealed = [] ∧ (n < 16 → (s.transition p tgt o k).cst n = 0 ∨ (s.transition p tgt o k).cst n = 4) ∧
    (s.transition p tgt o k).reply = ⟨Code.ok, 0⟩) ∧
  (∀ (op src tgt n : Nat), transitionOk op src tgt n = true → src ≠ 4 ∧ (tgt = 4 ∨ n < 255) ∧ (tgt = 2 → src = 1 ∨ src = 3)) ∧
  (∀ (s : State) (p : PmpReq) (b : Bytes) (n : Nat) (k : KeyHalf), n = slotMem p.c + field b 0 1 →
    k = ⟨relAttr b ||| 0x80000000, BitVec.ofNat 512 (fromLE (sub b 0x10 64)), BitVec.ofNat 64 (field b 8 8)⟩ →
    (s.releaseKey p b).active n = (if s.answers k = true then k else s.active n) ∧ (s.releaseKey p b).pendingKey n = KeyHalf.zero ∧
    (s.releaseKey p b).pst n = 0 ∧ (∀ j, j ≠ n → (s.releaseKey p b).active j = s.active j) ∧
    (s.releaseKey p b).reply = ⟨if s.answers k = true then Code.ok else Code.signatureFail, 0⟩)
end

