-- ==== Sys2Proof/Laws/Bits.lean ====
section
/-! SUPPORT. Laws of bit fields: what a field reads after a field was written, and the word operations bit by bit. -/

namespace Sys2Proof.Machine

theorem mask_getLsbD (hi lo i : Nat) (h : lo ≤ hi) (h32 : hi < 32) :
    (mask hi lo).getLsbD i = decide (lo ≤ i ∧ i ≤ hi) := by
  unfold mask
  simp only [BitVec.getLsbD_shiftLeft, BitVec.getLsbD_ushiftRight, BitVec.getLsbD_allOnes]
  by_cases h1 : lo ≤ i <;> by_cases h2 : i ≤ hi
  all_goals simp [h1, h2]
  all_goals omega

theorem setBits_getLsbD (v : Word) (hi lo x i : Nat) (h : lo ≤ hi) (h32 : hi < 32) :
    (setBits v hi lo x).getLsbD i = if lo ≤ i ∧ i ≤ hi then x.testBit (i - lo) else v.getLsbD i := by
  unfold setBits
  simp only [BitVec.getLsbD_or, BitVec.getLsbD_and, BitVec.getLsbD_not, mask_getLsbD hi lo i h h32,
    BitVec.getLsbD_shiftLeft, BitVec.getLsbD_ofNat]
  by_cases h1 : lo ≤ i ∧ i ≤ hi
  · have : i < 32 := by omega
    have : i - lo < 32 := by omega
    have : ¬ i < lo := by omega
    simp [*]
  · by_cases h3 : i < 32
    · simp [h1, h3]
    · have := BitVec.getLsbD_of_ge v i (by omega)
      simp [h1, this]

theorem bits_testBit (v : Word) (hi lo i : Nat) (h : lo ≤ hi) (h32 : hi < 32) :
    (bits v hi lo).testBit i = (decide (lo + i ≤ hi) && v.getLsbD (lo + i)) := by
  unfold bits
  rw [← BitVec.getLsbD.eq_1, BitVec.getLsbD_ushiftRight, BitVec.getLsbD_and, mask_getLsbD hi lo _ h h32]
  have : lo ≤ lo + i := by omega
  simp [this, Bool.and_comm]

theorem bits_lt (v : Word) (hi lo : Nat) (h : lo ≤ hi) (h32 : hi < 32) : bits v hi lo < 2 ^ (hi + 1 - lo) := by
  apply Nat.lt_pow_two_of_testBit
  intro i hi'
  rw [bits_testBit v hi lo i h h32]
  have : ¬ lo + i ≤ hi := by omega
  simp [this]

/-- A field just written reads what was written, cut to its width. -/
theorem bits_setBits_same (v : Word) (hi lo x : Nat) (h : lo ≤ hi) (h32 : hi < 32) :
    bits (setBits v hi lo x) hi lo = x % 2 ^ (hi + 1 - lo) := by
  apply Nat.eq_of_testBit_eq
  intro i
  rw [bits_testBit _ hi lo i h h32, setBits_getLsbD v hi lo x _ h h32, Nat.testBit_mod_two_pow]
  by_cases h1 : lo + i ≤ hi
  · have : i < hi + 1 - lo := by omega
    simp [*]
  · have : ¬ i < hi + 1 - lo := by omega
    simp [*]

/-- A field apart from the one written keeps its value. -/
theorem bits_setBits_apart (v : Word) (hi lo hi' lo' x : Nat) (h : lo ≤ hi) (h32 : hi < 32) (h' : lo' ≤ hi')
    (h32' : hi' < 32) (d : hi < lo' ∨ hi' < lo) : bits (setBits v hi' lo' x) hi lo = bits v hi lo := by
  apply Nat.eq_of_testBit_eq
  intro i
  rw [bits_testBit _ hi lo i h h32, bits_testBit _ hi lo i h h32, setBits_getLsbD v hi' lo' x _ h' h32']
  by_cases h1 : lo + i ≤ hi
  · have : ¬ (lo' ≤ lo + i ∧ lo + i ≤ hi') := by omega
    simp [this]
  · simp [h1]

/-- A bit inside a field just written is the bit of what was written. -/
theorem bit_setBits (v : Word) (hi lo x n : Nat) (h : lo ≤ hi) (h32 : hi < 32) :
    bit (setBits v hi lo x) n = if lo ≤ n ∧ n ≤ hi then x.testBit (n - lo) else bit v n :=
  setBits_getLsbD v hi lo x n h h32

/-- Writing a field twice leaves the second value. -/
theorem setBits_setBits (v : Word) (hi lo x y : Nat) (h : lo ≤ hi) (h32 : hi < 32) :
    setBits (setBits v hi lo x) hi lo y = setBits v hi lo y := by
  apply BitVec.eq_of_getLsbD_eq
  intro i hi'
  simp only [setBits_getLsbD _ hi lo _ i h h32]
  by_cases h1 : lo ≤ i ∧ i ≤ hi <;> simp [h1]

end Sys2Proof.Machine
end

