-- ==== Sys2Proof/Laws/State.lean ====
section
/-! SUPPORT. What each primitive update of the state leaves in each field: one lemma per field per update. -/

namespace Sys2Proof.Machine

/-! ### setReg -/

@[simp] theorem State.setReg_part (s : State) (a : Nat) (v : Word) : (s.setReg a v).part = s.part := rfl
@[simp] theorem State.setReg_latch (s : State) (a : Nat) (v : Word) : (s.setReg a v).latch = s.latch := rfl
@[simp] theorem State.setReg_wbuf (s : State) (a : Nat) (v : Word) : (s.setReg a v).wbuf = s.wbuf := rfl
@[simp] theorem State.setReg_time (s : State) (a : Nat) (v : Word) : (s.setReg a v).time = s.time := rfl
@[simp] theorem State.setReg_mem (s : State) (a : Nat) (v : Word) : (s.setReg a v).mem = s.mem := rfl
@[simp] theorem State.setReg_hubMem (s : State) (a : Nat) (v : Word) : (s.setReg a v).hubMem = s.hubMem := rfl
@[simp] theorem State.setReg_ecc (s : State) (a : Nat) (v : Word) : (s.setReg a v).ecc = s.ecc := rfl
@[simp] theorem State.setReg_d2d (s : State) (a : Nat) (v : Word) : (s.setReg a v).d2d = s.d2d := rfl
@[simp] theorem State.setReg_banks (s : State) (a : Nat) (v : Word) : (s.setReg a v).banks = s.banks := rfl
@[simp] theorem State.setReg_granule (s : State) (a : Nat) (v : Word) : (s.setReg a v).granule = s.granule := rfl
@[simp] theorem State.setReg_major (s : State) (a : Nat) (v : Word) : (s.setReg a v).major = s.major := rfl
@[simp] theorem State.setReg_minor (s : State) (a : Nat) (v : Word) : (s.setReg a v).minor = s.minor := rfl
@[simp] theorem State.setReg_crypt (s : State) (a : Nat) (v : Word) : (s.setReg a v).crypt = s.crypt := rfl
@[simp] theorem State.setReg_badLine (s : State) (a : Nat) (v : Word) : (s.setReg a v).badLine = s.badLine := rfl
@[simp] theorem State.setReg_badNode (s : State) (a : Nat) (v : Word) : (s.setReg a v).badNode = s.badNode := rfl
@[simp] theorem State.setReg_dirty (s : State) (a : Nat) (v : Word) : (s.setReg a v).dirty = s.dirty := rfl
@[simp] theorem State.setReg_cached (s : State) (a : Nat) (v : Word) : (s.setReg a v).cached = s.cached := rfl
@[simp] theorem State.setReg_nodeCnt (s : State) (a : Nat) (v : Word) : (s.setReg a v).nodeCnt = s.nodeCnt := rfl
@[simp] theorem State.setReg_passAt (s : State) (a : Nat) (v : Word) : (s.setReg a v).passAt = s.passAt := rfl
@[simp] theorem State.setReg_patrol (s : State) (a : Nat) (v : Word) : (s.setReg a v).patrol = s.patrol := rfl
@[simp] theorem State.setReg_stages (s : State) (a : Nat) (v : Word) : (s.setReg a v).stages = s.stages := rfl
@[simp] theorem State.setReg_strands (s : State) (a : Nat) (v : Word) : (s.setReg a v).strands = s.strands := rfl
@[simp] theorem State.setReg_seeds (s : State) (a : Nat) (v : Word) : (s.setReg a v).seeds = s.seeds := rfl
@[simp] theorem State.setReg_seedShard (s : State) (a : Nat) (v : Word) : (s.setReg a v).seedShard = s.seedShard := rfl
@[simp] theorem State.setReg_seedBuf (s : State) (a : Nat) (v : Word) : (s.setReg a v).seedBuf = s.seedBuf := rfl
@[simp] theorem State.setReg_queues (s : State) (a : Nat) (v : Word) : (s.setReg a v).queues = s.queues := rfl
@[simp] theorem State.setReg_psets (s : State) (a : Nat) (v : Word) : (s.setReg a v).psets = s.psets := rfl
@[simp] theorem State.setReg_evk (s : State) (a : Nat) (v : Word) : (s.setReg a v).evk = s.evk := rfl
@[simp] theorem State.setReg_loads (s : State) (a : Nat) (v : Word) : (s.setReg a v).loads = s.loads := rfl
@[simp] theorem State.setReg_ctxs (s : State) (a : Nat) (v : Word) : (s.setReg a v).ctxs = s.ctxs := rfl
@[simp] theorem State.setReg_rounds (s : State) (a : Nat) (v : Word) : (s.setReg a v).rounds = s.rounds := rfl
@[simp] theorem State.setReg_sess (s : State) (a : Nat) (v : Word) : (s.setReg a v).sess = s.sess := rfl
@[simp] theorem State.setReg_est (s : State) (a : Nat) (v : Word) : (s.setReg a v).est = s.est := rfl
@[simp] theorem State.setReg_lanes (s : State) (a : Nat) (v : Word) : (s.setReg a v).lanes = s.lanes := rfl
@[simp] theorem State.setReg_bundles (s : State) (a : Nat) (v : Word) : (s.setReg a v).bundles = s.bundles := rfl
@[simp] theorem State.setReg_router (s : State) (a : Nat) (v : Word) : (s.setReg a v).router = s.router := rfl
@[simp] theorem State.setReg_fst (s : State) (a : Nat) (v : Word) : (s.setReg a v).fst = s.fst := rfl
@[simp] theorem State.setReg_fstLost (s : State) (a : Nat) (v : Word) : (s.setReg a v).fstLost = s.fstLost := rfl
@[simp] theorem State.setReg_slots (s : State) (a : Nat) (v : Word) : (s.setReg a v).slots = s.slots := rfl
@[simp] theorem State.setReg_sealed (s : State) (a : Nat) (v : Word) : (s.setReg a v).sealed = s.sealed := rfl
@[simp] theorem State.setReg_conns (s : State) (a : Nat) (v : Word) : (s.setReg a v).conns = s.conns := rfl
@[simp] theorem State.setReg_regions (s : State) (a : Nat) (v : Word) : (s.setReg a v).regions = s.regions := rfl
@[simp] theorem State.setReg_barInst (s : State) (a : Nat) (v : Word) : (s.setReg a v).barInst = s.barInst := rfl
@[simp] theorem State.setReg_barMods (s : State) (a : Nat) (v : Word) : (s.setReg a v).barMods = s.barMods := rfl
@[simp] theorem State.setReg_phases (s : State) (a : Nat) (v : Word) : (s.setReg a v).phases = s.phases := rfl
@[simp] theorem State.setReg_keys (s : State) (a : Nat) (v : Word) : (s.setReg a v).keys = s.keys := rfl
@[simp] theorem State.setReg_pstate (s : State) (a : Nat) (v : Word) : (s.setReg a v).pstate = s.pstate := rfl
@[simp] theorem State.setReg_hss (s : State) (a : Nat) (v : Word) : (s.setReg a v).hss = s.hss := rfl
@[simp] theorem State.setReg_ent (s : State) (a : Nat) (v : Word) : (s.setReg a v).ent = s.ent := rfl
@[simp] theorem State.setReg_pd (s : State) (a : Nat) (v : Word) : (s.setReg a v).pd = s.pd := rfl
@[simp] theorem State.setReg_gov (s : State) (a : Nat) (v : Word) : (s.setReg a v).gov = s.gov := rfl
@[simp] theorem State.setReg_pins (s : State) (a : Nat) (v : Word) : (s.setReg a v).pins = s.pins := rfl
@[simp] theorem State.setReg_sup (s : State) (a : Nat) (v : Word) : (s.setReg a v).sup = s.sup := rfl
@[simp] theorem State.setReg_boot (s : State) (a : Nat) (v : Word) : (s.setReg a v).boot = s.boot := rfl
@[simp] theorem State.setReg_mgmt (s : State) (a : Nat) (v : Word) : (s.setReg a v).mgmt = s.mgmt := rfl
@[simp] theorem State.setReg_hub (s : State) (a : Nat) (v : Word) : (s.setReg a v).hub = s.hub := rfl
@[simp] theorem State.setReg_tests (s : State) (a : Nat) (v : Word) : (s.setReg a v).tests = s.tests := rfl
@[simp] theorem State.setReg_evSeq (s : State) (a : Nat) (v : Word) : (s.setReg a v).evSeq = s.evSeq := rfl
@[simp] theorem State.setReg_freeCtr (s : State) (a : Nat) (v : Word) : (s.setReg a v).freeCtr = s.freeCtr := rfl
@[simp] theorem State.setReg_reply (s : State) (a : Nat) (v : Word) : (s.setReg a v).reply = s.reply := rfl
@[simp] theorem State.setReg_out (s : State) (a : Nat) (v : Word) : (s.setReg a v).out = s.out := rfl
@[simp] theorem State.setReg_pending (s : State) (a : Nat) (v : Word) : (s.setReg a v).pending = s.pending := rfl

/-! ### setFld -/

@[simp] theorem State.setFld_part (s : State) (a hi lo x : Nat) : (s.setFld a hi lo x).part = s.part := State.setReg_part s a _
@[simp] theorem State.setFld_latch (s : State) (a hi lo x : Nat) : (s.setFld a hi lo x).latch = s.latch := State.setReg_latch s a _
@[simp] theorem State.setFld_wbuf (s : State) (a hi lo x : Nat) : (s.setFld a hi lo x).wbuf = s.wbuf := State.setReg_wbuf s a _
@[simp] theorem State.setFld_time (s : State) (a hi lo x : Nat) : (s.setFld a hi lo x).time = s.time := State.setReg_time s a _
@[simp] theorem State.setFld_mem (s : State) (a hi lo x : Nat) : (s.setFld a hi lo x).mem = s.mem := State.setReg_mem s a _
@[simp] theorem State.setFld_hubMem (s : State) (a hi lo x : Nat) : (s.setFld a hi lo x).hubMem = s.hubMem := State.setReg_hubMem s a _
@[simp] theorem State.setFld_ecc (s : State) (a hi lo x : Nat) : (s.setFld a hi lo x).ecc = s.ecc := State.setReg_ecc s a _
@[simp] theorem State.setFld_d2d (s : State) (a hi lo x : Nat) : (s.setFld a hi lo x).d2d = s.d2d := State.setReg_d2d s a _
@[simp] theorem State.setFld_banks (s : State) (a hi lo x : Nat) : (s.setFld a hi lo x).banks = s.banks := State.setReg_banks s a _
@[simp] theorem State.setFld_granule (s : State) (a hi lo x : Nat) : (s.setFld a hi lo x).granule = s.granule := State.setReg_granule s a _
@[simp] theorem State.setFld_major (s : State) (a hi lo x : Nat) : (s.setFld a hi lo x).major = s.major := State.setReg_major s a _
@[simp] theorem State.setFld_minor (s : State) (a hi lo x : Nat) : (s.setFld a hi lo x).minor = s.minor := State.setReg_minor s a _
@[simp] theorem State.setFld_crypt (s : State) (a hi lo x : Nat) : (s.setFld a hi lo x).crypt = s.crypt := State.setReg_crypt s a _
@[simp] theorem State.setFld_badLine (s : State) (a hi lo x : Nat) : (s.setFld a hi lo x).badLine = s.badLine := State.setReg_badLine s a _
@[simp] theorem State.setFld_badNode (s : State) (a hi lo x : Nat) : (s.setFld a hi lo x).badNode = s.badNode := State.setReg_badNode s a _
@[simp] theorem State.setFld_dirty (s : State) (a hi lo x : Nat) : (s.setFld a hi lo x).dirty = s.dirty := State.setReg_dirty s a _
@[simp] theorem State.setFld_cached (s : State) (a hi lo x : Nat) : (s.setFld a hi lo x).cached = s.cached := State.setReg_cached s a _
@[simp] theorem State.setFld_nodeCnt (s : State) (a hi lo x : Nat) : (s.setFld a hi lo x).nodeCnt = s.nodeCnt := State.setReg_nodeCnt s a _
@[simp] theorem State.setFld_passAt (s : State) (a hi lo x : Nat) : (s.setFld a hi lo x).passAt = s.passAt := State.setReg_passAt s a _
@[simp] theorem State.setFld_patrol (s : State) (a hi lo x : Nat) : (s.setFld a hi lo x).patrol = s.patrol := State.setReg_patrol s a _
@[simp] theorem State.setFld_stages (s : State) (a hi lo x : Nat) : (s.setFld a hi lo x).stages = s.stages := State.setReg_stages s a _
@[simp] theorem State.setFld_strands (s : State) (a hi lo x : Nat) : (s.setFld a hi lo x).strands = s.strands := State.setReg_strands s a _
@[simp] theorem State.setFld_seeds (s : State) (a hi lo x : Nat) : (s.setFld a hi lo x).seeds = s.seeds := State.setReg_seeds s a _
@[simp] theorem State.setFld_seedShard (s : State) (a hi lo x : Nat) : (s.setFld a hi lo x).seedShard = s.seedShard := State.setReg_seedShard s a _
@[simp] theorem State.setFld_seedBuf (s : State) (a hi lo x : Nat) : (s.setFld a hi lo x).seedBuf = s.seedBuf := State.setReg_seedBuf s a _
@[simp] theorem State.setFld_queues (s : State) (a hi lo x : Nat) : (s.setFld a hi lo x).queues = s.queues := State.setReg_queues s a _
@[simp] theorem State.setFld_psets (s : State) (a hi lo x : Nat) : (s.setFld a hi lo x).psets = s.psets := State.setReg_psets s a _
@[simp] theorem State.setFld_evk (s : State) (a hi lo x : Nat) : (s.setFld a hi lo x).evk = s.evk := State.setReg_evk s a _
@[simp] theorem State.setFld_loads (s : State) (a hi lo x : Nat) : (s.setFld a hi lo x).loads = s.loads := State.setReg_loads s a _
@[simp] theorem State.setFld_ctxs (s : State) (a hi lo x : Nat) : (s.setFld a hi lo x).ctxs = s.ctxs := State.setReg_ctxs s a _
@[simp] theorem State.setFld_rounds (s : State) (a hi lo x : Nat) : (s.setFld a hi lo x).rounds = s.rounds := State.setReg_rounds s a _
@[simp] theorem State.setFld_sess (s : State) (a hi lo x : Nat) : (s.setFld a hi lo x).sess = s.sess := State.setReg_sess s a _
@[simp] theorem State.setFld_est (s : State) (a hi lo x : Nat) : (s.setFld a hi lo x).est = s.est := State.setReg_est s a _
@[simp] theorem State.setFld_lanes (s : State) (a hi lo x : Nat) : (s.setFld a hi lo x).lanes = s.lanes := State.setReg_lanes s a _
@[simp] theorem State.setFld_bundles (s : State) (a hi lo x : Nat) : (s.setFld a hi lo x).bundles = s.bundles := State.setReg_bundles s a _
@[simp] theorem State.setFld_router (s : State) (a hi lo x : Nat) : (s.setFld a hi lo x).router = s.router := State.setReg_router s a _
@[simp] theorem State.setFld_fst (s : State) (a hi lo x : Nat) : (s.setFld a hi lo x).fst = s.fst := State.setReg_fst s a _
@[simp] theorem State.setFld_fstLost (s : State) (a hi lo x : Nat) : (s.setFld a hi lo x).fstLost = s.fstLost := State.setReg_fstLost s a _
@[simp] theorem State.setFld_slots (s : State) (a hi lo x : Nat) : (s.setFld a hi lo x).slots = s.slots := State.setReg_slots s a _
@[simp] theorem State.setFld_sealed (s : State) (a hi lo x : Nat) : (s.setFld a hi lo x).sealed = s.sealed := State.setReg_sealed s a _
@[simp] theorem State.setFld_conns (s : State) (a hi lo x : Nat) : (s.setFld a hi lo x).conns = s.conns := State.setReg_conns s a _
@[simp] theorem State.setFld_regions (s : State) (a hi lo x : Nat) : (s.setFld a hi lo x).regions = s.regions := State.setReg_regions s a _
@[simp] theorem State.setFld_barInst (s : State) (a hi lo x : Nat) : (s.setFld a hi lo x).barInst = s.barInst := State.setReg_barInst s a _
@[simp] theorem State.setFld_barMods (s : State) (a hi lo x : Nat) : (s.setFld a hi lo x).barMods = s.barMods := State.setReg_barMods s a _
@[simp] theorem State.setFld_phases (s : State) (a hi lo x : Nat) : (s.setFld a hi lo x).phases = s.phases := State.setReg_phases s a _
@[simp] theorem State.setFld_keys (s : State) (a hi lo x : Nat) : (s.setFld a hi lo x).keys = s.keys := State.setReg_keys s a _
@[simp] theorem State.setFld_pstate (s : State) (a hi lo x : Nat) : (s.setFld a hi lo x).pstate = s.pstate := State.setReg_pstate s a _
@[simp] theorem State.setFld_hss (s : State) (a hi lo x : Nat) : (s.setFld a hi lo x).hss = s.hss := State.setReg_hss s a _
@[simp] theorem State.setFld_ent (s : State) (a hi lo x : Nat) : (s.setFld a hi lo x).ent = s.ent := State.setReg_ent s a _
@[simp] theorem State.setFld_pd (s : State) (a hi lo x : Nat) : (s.setFld a hi lo x).pd = s.pd := State.setReg_pd s a _
@[simp] theorem State.setFld_gov (s : State) (a hi lo x : Nat) : (s.setFld a hi lo x).gov = s.gov := State.setReg_gov s a _
@[simp] theorem State.setFld_pins (s : State) (a hi lo x : Nat) : (s.setFld a hi lo x).pins = s.pins := State.setReg_pins s a _
@[simp] theorem State.setFld_sup (s : State) (a hi lo x : Nat) : (s.setFld a hi lo x).sup = s.sup := State.setReg_sup s a _
@[simp] theorem State.setFld_boot (s : State) (a hi lo x : Nat) : (s.setFld a hi lo x).boot = s.boot := State.setReg_boot s a _
@[simp] theorem State.setFld_mgmt (s : State) (a hi lo x : Nat) : (s.setFld a hi lo x).mgmt = s.mgmt := State.setReg_mgmt s a _
@[simp] theorem State.setFld_hub (s : State) (a hi lo x : Nat) : (s.setFld a hi lo x).hub = s.hub := State.setReg_hub s a _
@[simp] theorem State.setFld_tests (s : State) (a hi lo x : Nat) : (s.setFld a hi lo x).tests = s.tests := State.setReg_tests s a _
@[simp] theorem State.setFld_evSeq (s : State) (a hi lo x : Nat) : (s.setFld a hi lo x).evSeq = s.evSeq := State.setReg_evSeq s a _
@[simp] theorem State.setFld_freeCtr (s : State) (a hi lo x : Nat) : (s.setFld a hi lo x).freeCtr = s.freeCtr := State.setReg_freeCtr s a _
@[simp] theorem State.setFld_reply (s : State) (a hi lo x : Nat) : (s.setFld a hi lo x).reply = s.reply := State.setReg_reply s a _
@[simp] theorem State.setFld_out (s : State) (a hi lo x : Nat) : (s.setFld a hi lo x).out = s.out := State.setReg_out s a _
@[simp] theorem State.setFld_pending (s : State) (a hi lo x : Nat) : (s.setFld a hi lo x).pending = s.pending := State.setReg_pending s a _

/-! ### addFld -/

@[simp] theorem State.addFld_part (s : State) (a hi lo n : Nat) : (s.addFld a hi lo n).part = s.part := State.setFld_part s a hi lo _
@[simp] theorem State.addFld_latch (s : State) (a hi lo n : Nat) : (s.addFld a hi lo n).latch = s.latch := State.setFld_latch s a hi lo _
@[simp] theorem State.addFld_wbuf (s : State) (a hi lo n : Nat) : (s.addFld a hi lo n).wbuf = s.wbuf := State.setFld_wbuf s a hi lo _
@[simp] theorem State.addFld_time (s : State) (a hi lo n : Nat) : (s.addFld a hi lo n).time = s.time := State.setFld_time s a hi lo _
@[simp] theorem State.addFld_mem (s : State) (a hi lo n : Nat) : (s.addFld a hi lo n).mem = s.mem := State.setFld_mem s a hi lo _
@[simp] theorem State.addFld_hubMem (s : State) (a hi lo n : Nat) : (s.addFld a hi lo n).hubMem = s.hubMem := State.setFld_hubMem s a hi lo _
@[simp] theorem State.addFld_ecc (s : State) (a hi lo n : Nat) : (s.addFld a hi lo n).ecc = s.ecc := State.setFld_ecc s a hi lo _
@[simp] theorem State.addFld_d2d (s : State) (a hi lo n : Nat) : (s.addFld a hi lo n).d2d = s.d2d := State.setFld_d2d s a hi lo _
@[simp] theorem State.addFld_banks (s : State) (a hi lo n : Nat) : (s.addFld a hi lo n).banks = s.banks := State.setFld_banks s a hi lo _
@[simp] theorem State.addFld_granule (s : State) (a hi lo n : Nat) : (s.addFld a hi lo n).granule = s.granule := State.setFld_granule s a hi lo _
@[simp] theorem State.addFld_major (s : State) (a hi lo n : Nat) : (s.addFld a hi lo n).major = s.major := State.setFld_major s a hi lo _
@[simp] theorem State.addFld_minor (s : State) (a hi lo n : Nat) : (s.addFld a hi lo n).minor = s.minor := State.setFld_minor s a hi lo _
@[simp] theorem State.addFld_crypt (s : State) (a hi lo n : Nat) : (s.addFld a hi lo n).crypt = s.crypt := State.setFld_crypt s a hi lo _
@[simp] theorem State.addFld_badLine (s : State) (a hi lo n : Nat) : (s.addFld a hi lo n).badLine = s.badLine := State.setFld_badLine s a hi lo _
@[simp] theorem State.addFld_badNode (s : State) (a hi lo n : Nat) : (s.addFld a hi lo n).badNode = s.badNode := State.setFld_badNode s a hi lo _
@[simp] theorem State.addFld_dirty (s : State) (a hi lo n : Nat) : (s.addFld a hi lo n).dirty = s.dirty := State.setFld_dirty s a hi lo _
@[simp] theorem State.addFld_cached (s : State) (a hi lo n : Nat) : (s.addFld a hi lo n).cached = s.cached := State.setFld_cached s a hi lo _
@[simp] theorem State.addFld_nodeCnt (s : State) (a hi lo n : Nat) : (s.addFld a hi lo n).nodeCnt = s.nodeCnt := State.setFld_nodeCnt s a hi lo _
@[simp] theorem State.addFld_passAt (s : State) (a hi lo n : Nat) : (s.addFld a hi lo n).passAt = s.passAt := State.setFld_passAt s a hi lo _
@[simp] theorem State.addFld_patrol (s : State) (a hi lo n : Nat) : (s.addFld a hi lo n).patrol = s.patrol := State.setFld_patrol s a hi lo _
@[simp] theorem State.addFld_stages (s : State) (a hi lo n : Nat) : (s.addFld a hi lo n).stages = s.stages := State.setFld_stages s a hi lo _
@[simp] theorem State.addFld_strands (s : State) (a hi lo n : Nat) : (s.addFld a hi lo n).strands = s.strands := State.setFld_strands s a hi lo _
@[simp] theorem State.addFld_seeds (s : State) (a hi lo n : Nat) : (s.addFld a hi lo n).seeds = s.seeds := State.setFld_seeds s a hi lo _
@[simp] theorem State.addFld_seedShard (s : State) (a hi lo n : Nat) : (s.addFld a hi lo n).seedShard = s.seedShard := State.setFld_seedShard s a hi lo _
@[simp] theorem State.addFld_seedBuf (s : State) (a hi lo n : Nat) : (s.addFld a hi lo n).seedBuf = s.seedBuf := State.setFld_seedBuf s a hi lo _
@[simp] theorem State.addFld_queues (s : State) (a hi lo n : Nat) : (s.addFld a hi lo n).queues = s.queues := State.setFld_queues s a hi lo _
@[simp] theorem State.addFld_psets (s : State) (a hi lo n : Nat) : (s.addFld a hi lo n).psets = s.psets := State.setFld_psets s a hi lo _
@[simp] theorem State.addFld_evk (s : State) (a hi lo n : Nat) : (s.addFld a hi lo n).evk = s.evk := State.setFld_evk s a hi lo _
@[simp] theorem State.addFld_loads (s : State) (a hi lo n : Nat) : (s.addFld a hi lo n).loads = s.loads := State.setFld_loads s a hi lo _
@[simp] theorem State.addFld_ctxs (s : State) (a hi lo n : Nat) : (s.addFld a hi lo n).ctxs = s.ctxs := State.setFld_ctxs s a hi lo _
@[simp] theorem State.addFld_rounds (s : State) (a hi lo n : Nat) : (s.addFld a hi lo n).rounds = s.rounds := State.setFld_rounds s a hi lo _
@[simp] theorem State.addFld_sess (s : State) (a hi lo n : Nat) : (s.addFld a hi lo n).sess = s.sess := State.setFld_sess s a hi lo _
@[simp] theorem State.addFld_est (s : State) (a hi lo n : Nat) : (s.addFld a hi lo n).est = s.est := State.setFld_est s a hi lo _
@[simp] theorem State.addFld_lanes (s : State) (a hi lo n : Nat) : (s.addFld a hi lo n).lanes = s.lanes := State.setFld_lanes s a hi lo _
@[simp] theorem State.addFld_bundles (s : State) (a hi lo n : Nat) : (s.addFld a hi lo n).bundles = s.bundles := State.setFld_bundles s a hi lo _
@[simp] theorem State.addFld_router (s : State) (a hi lo n : Nat) : (s.addFld a hi lo n).router = s.router := State.setFld_router s a hi lo _
@[simp] theorem State.addFld_fst (s : State) (a hi lo n : Nat) : (s.addFld a hi lo n).fst = s.fst := State.setFld_fst s a hi lo _
@[simp] theorem State.addFld_fstLost (s : State) (a hi lo n : Nat) : (s.addFld a hi lo n).fstLost = s.fstLost := State.setFld_fstLost s a hi lo _
@[simp] theorem State.addFld_slots (s : State) (a hi lo n : Nat) : (s.addFld a hi lo n).slots = s.slots := State.setFld_slots s a hi lo _
@[simp] theorem State.addFld_sealed (s : State) (a hi lo n : Nat) : (s.addFld a hi lo n).sealed = s.sealed := State.setFld_sealed s a hi lo _
@[simp] theorem State.addFld_conns (s : State) (a hi lo n : Nat) : (s.addFld a hi lo n).conns = s.conns := State.setFld_conns s a hi lo _
@[simp] theorem State.addFld_regions (s : State) (a hi lo n : Nat) : (s.addFld a hi lo n).regions = s.regions := State.setFld_regions s a hi lo _
@[simp] theorem State.addFld_barInst (s : State) (a hi lo n : Nat) : (s.addFld a hi lo n).barInst = s.barInst := State.setFld_barInst s a hi lo _
@[simp] theorem State.addFld_barMods (s : State) (a hi lo n : Nat) : (s.addFld a hi lo n).barMods = s.barMods := State.setFld_barMods s a hi lo _
@[simp] theorem State.addFld_phases (s : State) (a hi lo n : Nat) : (s.addFld a hi lo n).phases = s.phases := State.setFld_phases s a hi lo _
@[simp] theorem State.addFld_keys (s : State) (a hi lo n : Nat) : (s.addFld a hi lo n).keys = s.keys := State.setFld_keys s a hi lo _
@[simp] theorem State.addFld_pstate (s : State) (a hi lo n : Nat) : (s.addFld a hi lo n).pstate = s.pstate := State.setFld_pstate s a hi lo _
@[simp] theorem State.addFld_hss (s : State) (a hi lo n : Nat) : (s.addFld a hi lo n).hss = s.hss := State.setFld_hss s a hi lo _
@[simp] theorem State.addFld_ent (s : State) (a hi lo n : Nat) : (s.addFld a hi lo n).ent = s.ent := State.setFld_ent s a hi lo _
@[simp] theorem State.addFld_pd (s : State) (a hi lo n : Nat) : (s.addFld a hi lo n).pd = s.pd := State.setFld_pd s a hi lo _
@[simp] theorem State.addFld_gov (s : State) (a hi lo n : Nat) : (s.addFld a hi lo n).gov = s.gov := State.setFld_gov s a hi lo _
@[simp] theorem State.addFld_pins (s : State) (a hi lo n : Nat) : (s.addFld a hi lo n).pins = s.pins := State.setFld_pins s a hi lo _
@[simp] theorem State.addFld_sup (s : State) (a hi lo n : Nat) : (s.addFld a hi lo n).sup = s.sup := State.setFld_sup s a hi lo _
@[simp] theorem State.addFld_boot (s : State) (a hi lo n : Nat) : (s.addFld a hi lo n).boot = s.boot := State.setFld_boot s a hi lo _
@[simp] theorem State.addFld_mgmt (s : State) (a hi lo n : Nat) : (s.addFld a hi lo n).mgmt = s.mgmt := State.setFld_mgmt s a hi lo _
@[simp] theorem State.addFld_hub (s : State) (a hi lo n : Nat) : (s.addFld a hi lo n).hub = s.hub := State.setFld_hub s a hi lo _
@[simp] theorem State.addFld_tests (s : State) (a hi lo n : Nat) : (s.addFld a hi lo n).tests = s.tests := State.setFld_tests s a hi lo _
@[simp] theorem State.addFld_evSeq (s : State) (a hi lo n : Nat) : (s.addFld a hi lo n).evSeq = s.evSeq := State.setFld_evSeq s a hi lo _
@[simp] theorem State.addFld_freeCtr (s : State) (a hi lo n : Nat) : (s.addFld a hi lo n).freeCtr = s.freeCtr := State.setFld_freeCtr s a hi lo _
@[simp] theorem State.addFld_reply (s : State) (a hi lo n : Nat) : (s.addFld a hi lo n).reply = s.reply := State.setFld_reply s a hi lo _
@[simp] theorem State.addFld_out (s : State) (a hi lo n : Nat) : (s.addFld a hi lo n).out = s.out := State.setFld_out s a hi lo _
@[simp] theorem State.addFld_pending (s : State) (a hi lo n : Nat) : (s.addFld a hi lo n).pending = s.pending := State.setFld_pending s a hi lo _

/-! ### count -/

@[simp] theorem State.count_part (s : State) (a : Nat) : (s.count a).part = s.part := State.addFld_part s a 31 0 1
@[simp] theorem State.count_latch (s : State) (a : Nat) : (s.count a).latch = s.latch := State.addFld_latch s a 31 0 1
@[simp] theorem State.count_wbuf (s : State) (a : Nat) : (s.count a).wbuf = s.wbuf := State.addFld_wbuf s a 31 0 1
@[simp] theorem State.count_time (s : State) (a : Nat) : (s.count a).time = s.time := State.addFld_time s a 31 0 1
@[simp] theorem State.count_mem (s : State) (a : Nat) : (s.count a).mem = s.mem := State.addFld_mem s a 31 0 1
@[simp] theorem State.count_hubMem (s : State) (a : Nat) : (s.count a).hubMem = s.hubMem := State.addFld_hubMem s a 31 0 1
@[simp] theorem State.count_ecc (s : State) (a : Nat) : (s.count a).ecc = s.ecc := State.addFld_ecc s a 31 0 1
@[simp] theorem State.count_d2d (s : State) (a : Nat) : (s.count a).d2d = s.d2d := State.addFld_d2d s a 31 0 1
@[simp] theorem State.count_banks (s : State) (a : Nat) : (s.count a).banks = s.banks := State.addFld_banks s a 31 0 1
@[simp] theorem State.count_granule (s : State) (a : Nat) : (s.count a).granule = s.granule := State.addFld_granule s a 31 0 1
@[simp] theorem State.count_major (s : State) (a : Nat) : (s.count a).major = s.major := State.addFld_major s a 31 0 1
@[simp] theorem State.count_minor (s : State) (a : Nat) : (s.count a).minor = s.minor := State.addFld_minor s a 31 0 1
@[simp] theorem State.count_crypt (s : State) (a : Nat) : (s.count a).crypt = s.crypt := State.addFld_crypt s a 31 0 1
@[simp] theorem State.count_badLine (s : State) (a : Nat) : (s.count a).badLine = s.badLine := State.addFld_badLine s a 31 0 1
@[simp] theorem State.count_badNode (s : State) (a : Nat) : (s.count a).badNode = s.badNode := State.addFld_badNode s a 31 0 1
@[simp] theorem State.count_dirty (s : State) (a : Nat) : (s.count a).dirty = s.dirty := State.addFld_dirty s a 31 0 1
@[simp] theorem State.count_cached (s : State) (a : Nat) : (s.count a).cached = s.cached := State.addFld_cached s a 31 0 1
@[simp] theorem State.count_nodeCnt (s : State) (a : Nat) : (s.count a).nodeCnt = s.nodeCnt := State.addFld_nodeCnt s a 31 0 1
@[simp] theorem State.count_passAt (s : State) (a : Nat) : (s.count a).passAt = s.passAt := State.addFld_passAt s a 31 0 1
@[simp] theorem State.count_patrol (s : State) (a : Nat) : (s.count a).patrol = s.patrol := State.addFld_patrol s a 31 0 1
@[simp] theorem State.count_stages (s : State) (a : Nat) : (s.count a).stages = s.stages := State.addFld_stages s a 31 0 1
@[simp] theorem State.count_strands (s : State) (a : Nat) : (s.count a).strands = s.strands := State.addFld_strands s a 31 0 1
@[simp] theorem State.count_seeds (s : State) (a : Nat) : (s.count a).seeds = s.seeds := State.addFld_seeds s a 31 0 1
@[simp] theorem State.count_seedShard (s : State) (a : Nat) : (s.count a).seedShard = s.seedShard := State.addFld_seedShard s a 31 0 1
@[simp] theorem State.count_seedBuf (s : State) (a : Nat) : (s.count a).seedBuf = s.seedBuf := State.addFld_seedBuf s a 31 0 1
@[simp] theorem State.count_queues (s : State) (a : Nat) : (s.count a).queues = s.queues := State.addFld_queues s a 31 0 1
@[simp] theorem State.count_psets (s : State) (a : Nat) : (s.count a).psets = s.psets := State.addFld_psets s a 31 0 1
@[simp] theorem State.count_evk (s : State) (a : Nat) : (s.count a).evk = s.evk := State.addFld_evk s a 31 0 1
@[simp] theorem State.count_loads (s : State) (a : Nat) : (s.count a).loads = s.loads := State.addFld_loads s a 31 0 1
@[simp] theorem State.count_ctxs (s : State) (a : Nat) : (s.count a).ctxs = s.ctxs := State.addFld_ctxs s a 31 0 1
@[simp] theorem State.count_rounds (s : State) (a : Nat) : (s.count a).rounds = s.rounds := State.addFld_rounds s a 31 0 1
@[simp] theorem State.count_sess (s : State) (a : Nat) : (s.count a).sess = s.sess := State.addFld_sess s a 31 0 1
@[simp] theorem State.count_est (s : State) (a : Nat) : (s.count a).est = s.est := State.addFld_est s a 31 0 1
@[simp] theorem State.count_lanes (s : State) (a : Nat) : (s.count a).lanes = s.lanes := State.addFld_lanes s a 31 0 1
@[simp] theorem State.count_bundles (s : State) (a : Nat) : (s.count a).bundles = s.bundles := State.addFld_bundles s a 31 0 1
@[simp] theorem State.count_router (s : State) (a : Nat) : (s.count a).router = s.router := State.addFld_router s a 31 0 1
@[simp] theorem State.count_fst (s : State) (a : Nat) : (s.count a).fst = s.fst := State.addFld_fst s a 31 0 1
@[simp] theorem State.count_fstLost (s : State) (a : Nat) : (s.count a).fstLost = s.fstLost := State.addFld_fstLost s a 31 0 1
@[simp] theorem State.count_slots (s : State) (a : Nat) : (s.count a).slots = s.slots := State.addFld_slots s a 31 0 1
@[simp] theorem State.count_sealed (s : State) (a : Nat) : (s.count a).sealed = s.sealed := State.addFld_sealed s a 31 0 1
@[simp] theorem State.count_conns (s : State) (a : Nat) : (s.count a).conns = s.conns := State.addFld_conns s a 31 0 1
@[simp] theorem State.count_regions (s : State) (a : Nat) : (s.count a).regions = s.regions := State.addFld_regions s a 31 0 1
@[simp] theorem State.count_barInst (s : State) (a : Nat) : (s.count a).barInst = s.barInst := State.addFld_barInst s a 31 0 1
@[simp] theorem State.count_barMods (s : State) (a : Nat) : (s.count a).barMods = s.barMods := State.addFld_barMods s a 31 0 1
@[simp] theorem State.count_phases (s : State) (a : Nat) : (s.count a).phases = s.phases := State.addFld_phases s a 31 0 1
@[simp] theorem State.count_keys (s : State) (a : Nat) : (s.count a).keys = s.keys := State.addFld_keys s a 31 0 1
@[simp] theorem State.count_pstate (s : State) (a : Nat) : (s.count a).pstate = s.pstate := State.addFld_pstate s a 31 0 1
@[simp] theorem State.count_hss (s : State) (a : Nat) : (s.count a).hss = s.hss := State.addFld_hss s a 31 0 1
@[simp] theorem State.count_ent (s : State) (a : Nat) : (s.count a).ent = s.ent := State.addFld_ent s a 31 0 1
@[simp] theorem State.count_pd (s : State) (a : Nat) : (s.count a).pd = s.pd := State.addFld_pd s a 31 0 1
@[simp] theorem State.count_gov (s : State) (a : Nat) : (s.count a).gov = s.gov := State.addFld_gov s a 31 0 1
@[simp] theorem State.count_pins (s : State) (a : Nat) : (s.count a).pins = s.pins := State.addFld_pins s a 31 0 1
@[simp] theorem State.count_sup (s : State) (a : Nat) : (s.count a).sup = s.sup := State.addFld_sup s a 31 0 1
@[simp] theorem State.count_boot (s : State) (a : Nat) : (s.count a).boot = s.boot := State.addFld_boot s a 31 0 1
@[simp] theorem State.count_mgmt (s : State) (a : Nat) : (s.count a).mgmt = s.mgmt := State.addFld_mgmt s a 31 0 1
@[simp] theorem State.count_hub (s : State) (a : Nat) : (s.count a).hub = s.hub := State.addFld_hub s a 31 0 1
@[simp] theorem State.count_tests (s : State) (a : Nat) : (s.count a).tests = s.tests := State.addFld_tests s a 31 0 1
@[simp] theorem State.count_evSeq (s : State) (a : Nat) : (s.count a).evSeq = s.evSeq := State.addFld_evSeq s a 31 0 1
@[simp] theorem State.count_freeCtr (s : State) (a : Nat) : (s.count a).freeCtr = s.freeCtr := State.addFld_freeCtr s a 31 0 1
@[simp] theorem State.count_reply (s : State) (a : Nat) : (s.count a).reply = s.reply := State.addFld_reply s a 31 0 1
@[simp] theorem State.count_out (s : State) (a : Nat) : (s.count a).out = s.out := State.addFld_out s a 31 0 1
@[simp] theorem State.count_pending (s : State) (a : Nat) : (s.count a).pending = s.pending := State.addFld_pending s a 31 0 1

/-! ### setReg64 -/

@[simp] theorem State.setReg64_part (s : State) (a v : Nat) : (s.setReg64 a v).part = s.part := (State.setReg_part _ _ _).trans (State.setReg_part s _ _)
@[simp] theorem State.setReg64_latch (s : State) (a v : Nat) : (s.setReg64 a v).latch = s.latch := (State.setReg_latch _ _ _).trans (State.setReg_latch s _ _)
@[simp] theorem State.setReg64_wbuf (s : State) (a v : Nat) : (s.setReg64 a v).wbuf = s.wbuf := (State.setReg_wbuf _ _ _).trans (State.setReg_wbuf s _ _)
@[simp] theorem State.setReg64_time (s : State) (a v : Nat) : (s.setReg64 a v).time = s.time := (State.setReg_time _ _ _).trans (State.setReg_time s _ _)
@[simp] theorem State.setReg64_mem (s : State) (a v : Nat) : (s.setReg64 a v).mem = s.mem := (State.setReg_mem _ _ _).trans (State.setReg_mem s _ _)
@[simp] theorem State.setReg64_hubMem (s : State) (a v : Nat) : (s.setReg64 a v).hubMem = s.hubMem := (State.setReg_hubMem _ _ _).trans (State.setReg_hubMem s _ _)
@[simp] theorem State.setReg64_ecc (s : State) (a v : Nat) : (s.setReg64 a v).ecc = s.ecc := (State.setReg_ecc _ _ _).trans (State.setReg_ecc s _ _)
@[simp] theorem State.setReg64_d2d (s : State) (a v : Nat) : (s.setReg64 a v).d2d = s.d2d := (State.setReg_d2d _ _ _).trans (State.setReg_d2d s _ _)
@[simp] theorem State.setReg64_banks (s : State) (a v : Nat) : (s.setReg64 a v).banks = s.banks := (State.setReg_banks _ _ _).trans (State.setReg_banks s _ _)
@[simp] theorem State.setReg64_granule (s : State) (a v : Nat) : (s.setReg64 a v).granule = s.granule := (State.setReg_granule _ _ _).trans (State.setReg_granule s _ _)
@[simp] theorem State.setReg64_major (s : State) (a v : Nat) : (s.setReg64 a v).major = s.major := (State.setReg_major _ _ _).trans (State.setReg_major s _ _)
@[simp] theorem State.setReg64_minor (s : State) (a v : Nat) : (s.setReg64 a v).minor = s.minor := (State.setReg_minor _ _ _).trans (State.setReg_minor s _ _)
@[simp] theorem State.setReg64_crypt (s : State) (a v : Nat) : (s.setReg64 a v).crypt = s.crypt := (State.setReg_crypt _ _ _).trans (State.setReg_crypt s _ _)
@[simp] theorem State.setReg64_badLine (s : State) (a v : Nat) : (s.setReg64 a v).badLine = s.badLine := (State.setReg_badLine _ _ _).trans (State.setReg_badLine s _ _)
@[simp] theorem State.setReg64_badNode (s : State) (a v : Nat) : (s.setReg64 a v).badNode = s.badNode := (State.setReg_badNode _ _ _).trans (State.setReg_badNode s _ _)
@[simp] theorem State.setReg64_dirty (s : State) (a v : Nat) : (s.setReg64 a v).dirty = s.dirty := (State.setReg_dirty _ _ _).trans (State.setReg_dirty s _ _)
@[simp] theorem State.setReg64_cached (s : State) (a v : Nat) : (s.setReg64 a v).cached = s.cached := (State.setReg_cached _ _ _).trans (State.setReg_cached s _ _)
@[simp] theorem State.setReg64_nodeCnt (s : State) (a v : Nat) : (s.setReg64 a v).nodeCnt = s.nodeCnt := (State.setReg_nodeCnt _ _ _).trans (State.setReg_nodeCnt s _ _)
@[simp] theorem State.setReg64_passAt (s : State) (a v : Nat) : (s.setReg64 a v).passAt = s.passAt := (State.setReg_passAt _ _ _).trans (State.setReg_passAt s _ _)
@[simp] theorem State.setReg64_patrol (s : State) (a v : Nat) : (s.setReg64 a v).patrol = s.patrol := (State.setReg_patrol _ _ _).trans (State.setReg_patrol s _ _)
@[simp] theorem State.setReg64_stages (s : State) (a v : Nat) : (s.setReg64 a v).stages = s.stages := (State.setReg_stages _ _ _).trans (State.setReg_stages s _ _)
@[simp] theorem State.setReg64_strands (s : State) (a v : Nat) : (s.setReg64 a v).strands = s.strands := (State.setReg_strands _ _ _).trans (State.setReg_strands s _ _)
@[simp] theorem State.setReg64_seeds (s : State) (a v : Nat) : (s.setReg64 a v).seeds = s.seeds := (State.setReg_seeds _ _ _).trans (State.setReg_seeds s _ _)
@[simp] theorem State.setReg64_seedShard (s : State) (a v : Nat) : (s.setReg64 a v).seedShard = s.seedShard := (State.setReg_seedShard _ _ _).trans (State.setReg_seedShard s _ _)
@[simp] theorem State.setReg64_seedBuf (s : State) (a v : Nat) : (s.setReg64 a v).seedBuf = s.seedBuf := (State.setReg_seedBuf _ _ _).trans (State.setReg_seedBuf s _ _)
@[simp] theorem State.setReg64_queues (s : State) (a v : Nat) : (s.setReg64 a v).queues = s.queues := (State.setReg_queues _ _ _).trans (State.setReg_queues s _ _)
@[simp] theorem State.setReg64_psets (s : State) (a v : Nat) : (s.setReg64 a v).psets = s.psets := (State.setReg_psets _ _ _).trans (State.setReg_psets s _ _)
@[simp] theorem State.setReg64_evk (s : State) (a v : Nat) : (s.setReg64 a v).evk = s.evk := (State.setReg_evk _ _ _).trans (State.setReg_evk s _ _)
@[simp] theorem State.setReg64_loads (s : State) (a v : Nat) : (s.setReg64 a v).loads = s.loads := (State.setReg_loads _ _ _).trans (State.setReg_loads s _ _)
@[simp] theorem State.setReg64_ctxs (s : State) (a v : Nat) : (s.setReg64 a v).ctxs = s.ctxs := (State.setReg_ctxs _ _ _).trans (State.setReg_ctxs s _ _)
@[simp] theorem State.setReg64_rounds (s : State) (a v : Nat) : (s.setReg64 a v).rounds = s.rounds := (State.setReg_rounds _ _ _).trans (State.setReg_rounds s _ _)
@[simp] theorem State.setReg64_sess (s : State) (a v : Nat) : (s.setReg64 a v).sess = s.sess := (State.setReg_sess _ _ _).trans (State.setReg_sess s _ _)
@[simp] theorem State.setReg64_est (s : State) (a v : Nat) : (s.setReg64 a v).est = s.est := (State.setReg_est _ _ _).trans (State.setReg_est s _ _)
@[simp] theorem State.setReg64_lanes (s : State) (a v : Nat) : (s.setReg64 a v).lanes = s.lanes := (State.setReg_lanes _ _ _).trans (State.setReg_lanes s _ _)
@[simp] theorem State.setReg64_bundles (s : State) (a v : Nat) : (s.setReg64 a v).bundles = s.bundles := (State.setReg_bundles _ _ _).trans (State.setReg_bundles s _ _)
@[simp] theorem State.setReg64_router (s : State) (a v : Nat) : (s.setReg64 a v).router = s.router := (State.setReg_router _ _ _).trans (State.setReg_router s _ _)
@[simp] theorem State.setReg64_fst (s : State) (a v : Nat) : (s.setReg64 a v).fst = s.fst := (State.setReg_fst _ _ _).trans (State.setReg_fst s _ _)
@[simp] theorem State.setReg64_fstLost (s : State) (a v : Nat) : (s.setReg64 a v).fstLost = s.fstLost := (State.setReg_fstLost _ _ _).trans (State.setReg_fstLost s _ _)
@[simp] theorem State.setReg64_slots (s : State) (a v : Nat) : (s.setReg64 a v).slots = s.slots := (State.setReg_slots _ _ _).trans (State.setReg_slots s _ _)
@[simp] theorem State.setReg64_sealed (s : State) (a v : Nat) : (s.setReg64 a v).sealed = s.sealed := (State.setReg_sealed _ _ _).trans (State.setReg_sealed s _ _)
@[simp] theorem State.setReg64_conns (s : State) (a v : Nat) : (s.setReg64 a v).conns = s.conns := (State.setReg_conns _ _ _).trans (State.setReg_conns s _ _)
@[simp] theorem State.setReg64_regions (s : State) (a v : Nat) : (s.setReg64 a v).regions = s.regions := (State.setReg_regions _ _ _).trans (State.setReg_regions s _ _)
@[simp] theorem State.setReg64_barInst (s : State) (a v : Nat) : (s.setReg64 a v).barInst = s.barInst := (State.setReg_barInst _ _ _).trans (State.setReg_barInst s _ _)
@[simp] theorem State.setReg64_barMods (s : State) (a v : Nat) : (s.setReg64 a v).barMods = s.barMods := (State.setReg_barMods _ _ _).trans (State.setReg_barMods s _ _)
@[simp] theorem State.setReg64_phases (s : State) (a v : Nat) : (s.setReg64 a v).phases = s.phases := (State.setReg_phases _ _ _).trans (State.setReg_phases s _ _)
@[simp] theorem State.setReg64_keys (s : State) (a v : Nat) : (s.setReg64 a v).keys = s.keys := (State.setReg_keys _ _ _).trans (State.setReg_keys s _ _)
@[simp] theorem State.setReg64_pstate (s : State) (a v : Nat) : (s.setReg64 a v).pstate = s.pstate := (State.setReg_pstate _ _ _).trans (State.setReg_pstate s _ _)
@[simp] theorem State.setReg64_hss (s : State) (a v : Nat) : (s.setReg64 a v).hss = s.hss := (State.setReg_hss _ _ _).trans (State.setReg_hss s _ _)
@[simp] theorem State.setReg64_ent (s : State) (a v : Nat) : (s.setReg64 a v).ent = s.ent := (State.setReg_ent _ _ _).trans (State.setReg_ent s _ _)
@[simp] theorem State.setReg64_pd (s : State) (a v : Nat) : (s.setReg64 a v).pd = s.pd := (State.setReg_pd _ _ _).trans (State.setReg_pd s _ _)
@[simp] theorem State.setReg64_gov (s : State) (a v : Nat) : (s.setReg64 a v).gov = s.gov := (State.setReg_gov _ _ _).trans (State.setReg_gov s _ _)
@[simp] theorem State.setReg64_pins (s : State) (a v : Nat) : (s.setReg64 a v).pins = s.pins := (State.setReg_pins _ _ _).trans (State.setReg_pins s _ _)
@[simp] theorem State.setReg64_sup (s : State) (a v : Nat) : (s.setReg64 a v).sup = s.sup := (State.setReg_sup _ _ _).trans (State.setReg_sup s _ _)
@[simp] theorem State.setReg64_boot (s : State) (a v : Nat) : (s.setReg64 a v).boot = s.boot := (State.setReg_boot _ _ _).trans (State.setReg_boot s _ _)
@[simp] theorem State.setReg64_mgmt (s : State) (a v : Nat) : (s.setReg64 a v).mgmt = s.mgmt := (State.setReg_mgmt _ _ _).trans (State.setReg_mgmt s _ _)
@[simp] theorem State.setReg64_hub (s : State) (a v : Nat) : (s.setReg64 a v).hub = s.hub := (State.setReg_hub _ _ _).trans (State.setReg_hub s _ _)
@[simp] theorem State.setReg64_tests (s : State) (a v : Nat) : (s.setReg64 a v).tests = s.tests := (State.setReg_tests _ _ _).trans (State.setReg_tests s _ _)
@[simp] theorem State.setReg64_evSeq (s : State) (a v : Nat) : (s.setReg64 a v).evSeq = s.evSeq := (State.setReg_evSeq _ _ _).trans (State.setReg_evSeq s _ _)
@[simp] theorem State.setReg64_freeCtr (s : State) (a v : Nat) : (s.setReg64 a v).freeCtr = s.freeCtr := (State.setReg_freeCtr _ _ _).trans (State.setReg_freeCtr s _ _)
@[simp] theorem State.setReg64_reply (s : State) (a v : Nat) : (s.setReg64 a v).reply = s.reply := (State.setReg_reply _ _ _).trans (State.setReg_reply s _ _)
@[simp] theorem State.setReg64_out (s : State) (a v : Nat) : (s.setReg64 a v).out = s.out := (State.setReg_out _ _ _).trans (State.setReg_out s _ _)
@[simp] theorem State.setReg64_pending (s : State) (a v : Nat) : (s.setReg64 a v).pending = s.pending := (State.setReg_pending _ _ _).trans (State.setReg_pending s _ _)

/-! ### resetRegs -/

@[simp] theorem State.resetRegs_part (s : State) (p : Nat → Bool) : (s.resetRegs p).part = s.part := rfl
@[simp] theorem State.resetRegs_latch (s : State) (p : Nat → Bool) : (s.resetRegs p).latch = s.latch := rfl
@[simp] theorem State.resetRegs_wbuf (s : State) (p : Nat → Bool) : (s.resetRegs p).wbuf = s.wbuf := rfl
@[simp] theorem State.resetRegs_time (s : State) (p : Nat → Bool) : (s.resetRegs p).time = s.time := rfl
@[simp] theorem State.resetRegs_mem (s : State) (p : Nat → Bool) : (s.resetRegs p).mem = s.mem := rfl
@[simp] theorem State.resetRegs_hubMem (s : State) (p : Nat → Bool) : (s.resetRegs p).hubMem = s.hubMem := rfl
@[simp] theorem State.resetRegs_ecc (s : State) (p : Nat → Bool) : (s.resetRegs p).ecc = s.ecc := rfl
@[simp] theorem State.resetRegs_d2d (s : State) (p : Nat → Bool) : (s.resetRegs p).d2d = s.d2d := rfl
@[simp] theorem State.resetRegs_banks (s : State) (p : Nat → Bool) : (s.resetRegs p).banks = s.banks := rfl
@[simp] theorem State.resetRegs_granule (s : State) (p : Nat → Bool) : (s.resetRegs p).granule = s.granule := rfl
@[simp] theorem State.resetRegs_major (s : State) (p : Nat → Bool) : (s.resetRegs p).major = s.major := rfl
@[simp] theorem State.resetRegs_minor (s : State) (p : Nat → Bool) : (s.resetRegs p).minor = s.minor := rfl
@[simp] theorem State.resetRegs_crypt (s : State) (p : Nat → Bool) : (s.resetRegs p).crypt = s.crypt := rfl
@[simp] theorem State.resetRegs_badLine (s : State) (p : Nat → Bool) : (s.resetRegs p).badLine = s.badLine := rfl
@[simp] theorem State.resetRegs_badNode (s : State) (p : Nat → Bool) : (s.resetRegs p).badNode = s.badNode := rfl
@[simp] theorem State.resetRegs_dirty (s : State) (p : Nat → Bool) : (s.resetRegs p).dirty = s.dirty := rfl
@[simp] theorem State.resetRegs_cached (s : State) (p : Nat → Bool) : (s.resetRegs p).cached = s.cached := rfl
@[simp] theorem State.resetRegs_nodeCnt (s : State) (p : Nat → Bool) : (s.resetRegs p).nodeCnt = s.nodeCnt := rfl
@[simp] theorem State.resetRegs_passAt (s : State) (p : Nat → Bool) : (s.resetRegs p).passAt = s.passAt := rfl
@[simp] theorem State.resetRegs_patrol (s : State) (p : Nat → Bool) : (s.resetRegs p).patrol = s.patrol := rfl
@[simp] theorem State.resetRegs_stages (s : State) (p : Nat → Bool) : (s.resetRegs p).stages = s.stages := rfl
@[simp] theorem State.resetRegs_strands (s : State) (p : Nat → Bool) : (s.resetRegs p).strands = s.strands := rfl
@[simp] theorem State.resetRegs_seeds (s : State) (p : Nat → Bool) : (s.resetRegs p).seeds = s.seeds := rfl
@[simp] theorem State.resetRegs_seedShard (s : State) (p : Nat → Bool) : (s.resetRegs p).seedShard = s.seedShard := rfl
@[simp] theorem State.resetRegs_seedBuf (s : State) (p : Nat → Bool) : (s.resetRegs p).seedBuf = s.seedBuf := rfl
@[simp] theorem State.resetRegs_queues (s : State) (p : Nat → Bool) : (s.resetRegs p).queues = s.queues := rfl
@[simp] theorem State.resetRegs_psets (s : State) (p : Nat → Bool) : (s.resetRegs p).psets = s.psets := rfl
@[simp] theorem State.resetRegs_evk (s : State) (p : Nat → Bool) : (s.resetRegs p).evk = s.evk := rfl
@[simp] theorem State.resetRegs_loads (s : State) (p : Nat → Bool) : (s.resetRegs p).loads = s.loads := rfl
@[simp] theorem State.resetRegs_ctxs (s : State) (p : Nat → Bool) : (s.resetRegs p).ctxs = s.ctxs := rfl
@[simp] theorem State.resetRegs_rounds (s : State) (p : Nat → Bool) : (s.resetRegs p).rounds = s.rounds := rfl
@[simp] theorem State.resetRegs_sess (s : State) (p : Nat → Bool) : (s.resetRegs p).sess = s.sess := rfl
@[simp] theorem State.resetRegs_est (s : State) (p : Nat → Bool) : (s.resetRegs p).est = s.est := rfl
@[simp] theorem State.resetRegs_lanes (s : State) (p : Nat → Bool) : (s.resetRegs p).lanes = s.lanes := rfl
@[simp] theorem State.resetRegs_bundles (s : State) (p : Nat → Bool) : (s.resetRegs p).bundles = s.bundles := rfl
@[simp] theorem State.resetRegs_router (s : State) (p : Nat → Bool) : (s.resetRegs p).router = s.router := rfl
@[simp] theorem State.resetRegs_fst (s : State) (p : Nat → Bool) : (s.resetRegs p).fst = s.fst := rfl
@[simp] theorem State.resetRegs_fstLost (s : State) (p : Nat → Bool) : (s.resetRegs p).fstLost = s.fstLost := rfl
@[simp] theorem State.resetRegs_slots (s : State) (p : Nat → Bool) : (s.resetRegs p).slots = s.slots := rfl
@[simp] theorem State.resetRegs_sealed (s : State) (p : Nat → Bool) : (s.resetRegs p).sealed = s.sealed := rfl
@[simp] theorem State.resetRegs_conns (s : State) (p : Nat → Bool) : (s.resetRegs p).conns = s.conns := rfl
@[simp] theorem State.resetRegs_regions (s : State) (p : Nat → Bool) : (s.resetRegs p).regions = s.regions := rfl
@[simp] theorem State.resetRegs_barInst (s : State) (p : Nat → Bool) : (s.resetRegs p).barInst = s.barInst := rfl
@[simp] theorem State.resetRegs_barMods (s : State) (p : Nat → Bool) : (s.resetRegs p).barMods = s.barMods := rfl
@[simp] theorem State.resetRegs_phases (s : State) (p : Nat → Bool) : (s.resetRegs p).phases = s.phases := rfl
@[simp] theorem State.resetRegs_keys (s : State) (p : Nat → Bool) : (s.resetRegs p).keys = s.keys := rfl
@[simp] theorem State.resetRegs_pstate (s : State) (p : Nat → Bool) : (s.resetRegs p).pstate = s.pstate := rfl
@[simp] theorem State.resetRegs_hss (s : State) (p : Nat → Bool) : (s.resetRegs p).hss = s.hss := rfl
@[simp] theorem State.resetRegs_ent (s : State) (p : Nat → Bool) : (s.resetRegs p).ent = s.ent := rfl
@[simp] theorem State.resetRegs_pd (s : State) (p : Nat → Bool) : (s.resetRegs p).pd = s.pd := rfl
@[simp] theorem State.resetRegs_gov (s : State) (p : Nat → Bool) : (s.resetRegs p).gov = s.gov := rfl
@[simp] theorem State.resetRegs_pins (s : State) (p : Nat → Bool) : (s.resetRegs p).pins = s.pins := rfl
@[simp] theorem State.resetRegs_sup (s : State) (p : Nat → Bool) : (s.resetRegs p).sup = s.sup := rfl
@[simp] theorem State.resetRegs_boot (s : State) (p : Nat → Bool) : (s.resetRegs p).boot = s.boot := rfl
@[simp] theorem State.resetRegs_mgmt (s : State) (p : Nat → Bool) : (s.resetRegs p).mgmt = s.mgmt := rfl
@[simp] theorem State.resetRegs_hub (s : State) (p : Nat → Bool) : (s.resetRegs p).hub = s.hub := rfl
@[simp] theorem State.resetRegs_tests (s : State) (p : Nat → Bool) : (s.resetRegs p).tests = s.tests := rfl
@[simp] theorem State.resetRegs_evSeq (s : State) (p : Nat → Bool) : (s.resetRegs p).evSeq = s.evSeq := rfl
@[simp] theorem State.resetRegs_freeCtr (s : State) (p : Nat → Bool) : (s.resetRegs p).freeCtr = s.freeCtr := rfl
@[simp] theorem State.resetRegs_reply (s : State) (p : Nat → Bool) : (s.resetRegs p).reply = s.reply := rfl
@[simp] theorem State.resetRegs_out (s : State) (p : Nat → Bool) : (s.resetRegs p).out = s.out := rfl
@[simp] theorem State.resetRegs_pending (s : State) (p : Nat → Bool) : (s.resetRegs p).pending = s.pending := rfl

/-! ### store -/

@[simp] theorem State.store_part (s : State) (a : Nat) (b : Bytes) : (s.store a b).part = s.part := rfl
@[simp] theorem State.store_regs (s : State) (a : Nat) (b : Bytes) : (s.store a b).regs = s.regs := rfl
@[simp] theorem State.store_latch (s : State) (a : Nat) (b : Bytes) : (s.store a b).latch = s.latch := rfl
@[simp] theorem State.store_wbuf (s : State) (a : Nat) (b : Bytes) : (s.store a b).wbuf = s.wbuf := rfl
@[simp] theorem State.store_time (s : State) (a : Nat) (b : Bytes) : (s.store a b).time = s.time := rfl
@[simp] theorem State.store_hubMem (s : State) (a : Nat) (b : Bytes) : (s.store a b).hubMem = s.hubMem := rfl
@[simp] theorem State.store_ecc (s : State) (a : Nat) (b : Bytes) : (s.store a b).ecc = s.ecc := rfl
@[simp] theorem State.store_d2d (s : State) (a : Nat) (b : Bytes) : (s.store a b).d2d = s.d2d := rfl
@[simp] theorem State.store_banks (s : State) (a : Nat) (b : Bytes) : (s.store a b).banks = s.banks := rfl
@[simp] theorem State.store_granule (s : State) (a : Nat) (b : Bytes) : (s.store a b).granule = s.granule := rfl
@[simp] theorem State.store_major (s : State) (a : Nat) (b : Bytes) : (s.store a b).major = s.major := rfl
@[simp] theorem State.store_minor (s : State) (a : Nat) (b : Bytes) : (s.store a b).minor = s.minor := rfl
@[simp] theorem State.store_crypt (s : State) (a : Nat) (b : Bytes) : (s.store a b).crypt = s.crypt := rfl
@[simp] theorem State.store_badLine (s : State) (a : Nat) (b : Bytes) : (s.store a b).badLine = s.badLine := rfl
@[simp] theorem State.store_badNode (s : State) (a : Nat) (b : Bytes) : (s.store a b).badNode = s.badNode := rfl
@[simp] theorem State.store_dirty (s : State) (a : Nat) (b : Bytes) : (s.store a b).dirty = s.dirty := rfl
@[simp] theorem State.store_cached (s : State) (a : Nat) (b : Bytes) : (s.store a b).cached = s.cached := rfl
@[simp] theorem State.store_nodeCnt (s : State) (a : Nat) (b : Bytes) : (s.store a b).nodeCnt = s.nodeCnt := rfl
@[simp] theorem State.store_passAt (s : State) (a : Nat) (b : Bytes) : (s.store a b).passAt = s.passAt := rfl
@[simp] theorem State.store_patrol (s : State) (a : Nat) (b : Bytes) : (s.store a b).patrol = s.patrol := rfl
@[simp] theorem State.store_stages (s : State) (a : Nat) (b : Bytes) : (s.store a b).stages = s.stages := rfl
@[simp] theorem State.store_strands (s : State) (a : Nat) (b : Bytes) : (s.store a b).strands = s.strands := rfl
@[simp] theorem State.store_seeds (s : State) (a : Nat) (b : Bytes) : (s.store a b).seeds = s.seeds := rfl
@[simp] theorem State.store_seedShard (s : State) (a : Nat) (b : Bytes) : (s.store a b).seedShard = s.seedShard := rfl
@[simp] theorem State.store_seedBuf (s : State) (a : Nat) (b : Bytes) : (s.store a b).seedBuf = s.seedBuf := rfl
@[simp] theorem State.store_queues (s : State) (a : Nat) (b : Bytes) : (s.store a b).queues = s.queues := rfl
@[simp] theorem State.store_psets (s : State) (a : Nat) (b : Bytes) : (s.store a b).psets = s.psets := rfl
@[simp] theorem State.store_evk (s : State) (a : Nat) (b : Bytes) : (s.store a b).evk = s.evk := rfl
@[simp] theorem State.store_loads (s : State) (a : Nat) (b : Bytes) : (s.store a b).loads = s.loads := rfl
@[simp] theorem State.store_ctxs (s : State) (a : Nat) (b : Bytes) : (s.store a b).ctxs = s.ctxs := rfl
@[simp] theorem State.store_rounds (s : State) (a : Nat) (b : Bytes) : (s.store a b).rounds = s.rounds := rfl
@[simp] theorem State.store_sess (s : State) (a : Nat) (b : Bytes) : (s.store a b).sess = s.sess := rfl
@[simp] theorem State.store_est (s : State) (a : Nat) (b : Bytes) : (s.store a b).est = s.est := rfl
@[simp] theorem State.store_lanes (s : State) (a : Nat) (b : Bytes) : (s.store a b).lanes = s.lanes := rfl
@[simp] theorem State.store_bundles (s : State) (a : Nat) (b : Bytes) : (s.store a b).bundles = s.bundles := rfl
@[simp] theorem State.store_router (s : State) (a : Nat) (b : Bytes) : (s.store a b).router = s.router := rfl
@[simp] theorem State.store_fst (s : State) (a : Nat) (b : Bytes) : (s.store a b).fst = s.fst := rfl
@[simp] theorem State.store_fstLost (s : State) (a : Nat) (b : Bytes) : (s.store a b).fstLost = s.fstLost := rfl
@[simp] theorem State.store_slots (s : State) (a : Nat) (b : Bytes) : (s.store a b).slots = s.slots := rfl
@[simp] theorem State.store_sealed (s : State) (a : Nat) (b : Bytes) : (s.store a b).sealed = s.sealed := rfl
@[simp] theorem State.store_conns (s : State) (a : Nat) (b : Bytes) : (s.store a b).conns = s.conns := rfl
@[simp] theorem State.store_regions (s : State) (a : Nat) (b : Bytes) : (s.store a b).regions = s.regions := rfl
@[simp] theorem State.store_barInst (s : State) (a : Nat) (b : Bytes) : (s.store a b).barInst = s.barInst := rfl
@[simp] theorem State.store_barMods (s : State) (a : Nat) (b : Bytes) : (s.store a b).barMods = s.barMods := rfl
@[simp] theorem State.store_phases (s : State) (a : Nat) (b : Bytes) : (s.store a b).phases = s.phases := rfl
@[simp] theorem State.store_keys (s : State) (a : Nat) (b : Bytes) : (s.store a b).keys = s.keys := rfl
@[simp] theorem State.store_pstate (s : State) (a : Nat) (b : Bytes) : (s.store a b).pstate = s.pstate := rfl
@[simp] theorem State.store_hss (s : State) (a : Nat) (b : Bytes) : (s.store a b).hss = s.hss := rfl
@[simp] theorem State.store_ent (s : State) (a : Nat) (b : Bytes) : (s.store a b).ent = s.ent := rfl
@[simp] theorem State.store_pd (s : State) (a : Nat) (b : Bytes) : (s.store a b).pd = s.pd := rfl
@[simp] theorem State.store_gov (s : State) (a : Nat) (b : Bytes) : (s.store a b).gov = s.gov := rfl
@[simp] theorem State.store_pins (s : State) (a : Nat) (b : Bytes) : (s.store a b).pins = s.pins := rfl
@[simp] theorem State.store_sup (s : State) (a : Nat) (b : Bytes) : (s.store a b).sup = s.sup := rfl
@[simp] theorem State.store_boot (s : State) (a : Nat) (b : Bytes) : (s.store a b).boot = s.boot := rfl
@[simp] theorem State.store_mgmt (s : State) (a : Nat) (b : Bytes) : (s.store a b).mgmt = s.mgmt := rfl
@[simp] theorem State.store_hub (s : State) (a : Nat) (b : Bytes) : (s.store a b).hub = s.hub := rfl
@[simp] theorem State.store_tests (s : State) (a : Nat) (b : Bytes) : (s.store a b).tests = s.tests := rfl
@[simp] theorem State.store_evSeq (s : State) (a : Nat) (b : Bytes) : (s.store a b).evSeq = s.evSeq := rfl
@[simp] theorem State.store_freeCtr (s : State) (a : Nat) (b : Bytes) : (s.store a b).freeCtr = s.freeCtr := rfl
@[simp] theorem State.store_reply (s : State) (a : Nat) (b : Bytes) : (s.store a b).reply = s.reply := rfl
@[simp] theorem State.store_out (s : State) (a : Nat) (b : Bytes) : (s.store a b).out = s.out := rfl
@[simp] theorem State.store_pending (s : State) (a : Nat) (b : Bytes) : (s.store a b).pending = s.pending := rfl

/-! ### zeroMem -/

@[simp] theorem State.zeroMem_part (s : State) (a n : Nat) : (s.zeroMem a n).part = s.part := rfl
@[simp] theorem State.zeroMem_regs (s : State) (a n : Nat) : (s.zeroMem a n).regs = s.regs := rfl
@[simp] theorem State.zeroMem_latch (s : State) (a n : Nat) : (s.zeroMem a n).latch = s.latch := rfl
@[simp] theorem State.zeroMem_wbuf (s : State) (a n : Nat) : (s.zeroMem a n).wbuf = s.wbuf := rfl
@[simp] theorem State.zeroMem_time (s : State) (a n : Nat) : (s.zeroMem a n).time = s.time := rfl
@[simp] theorem State.zeroMem_hubMem (s : State) (a n : Nat) : (s.zeroMem a n).hubMem = s.hubMem := rfl
@[simp] theorem State.zeroMem_ecc (s : State) (a n : Nat) : (s.zeroMem a n).ecc = s.ecc := rfl
@[simp] theorem State.zeroMem_d2d (s : State) (a n : Nat) : (s.zeroMem a n).d2d = s.d2d := rfl
@[simp] theorem State.zeroMem_banks (s : State) (a n : Nat) : (s.zeroMem a n).banks = s.banks := rfl
@[simp] theorem State.zeroMem_granule (s : State) (a n : Nat) : (s.zeroMem a n).granule = s.granule := rfl
@[simp] theorem State.zeroMem_major (s : State) (a n : Nat) : (s.zeroMem a n).major = s.major := rfl
@[simp] theorem State.zeroMem_minor (s : State) (a n : Nat) : (s.zeroMem a n).minor = s.minor := rfl
@[simp] theorem State.zeroMem_crypt (s : State) (a n : Nat) : (s.zeroMem a n).crypt = s.crypt := rfl
@[simp] theorem State.zeroMem_badLine (s : State) (a n : Nat) : (s.zeroMem a n).badLine = s.badLine := rfl
@[simp] theorem State.zeroMem_badNode (s : State) (a n : Nat) : (s.zeroMem a n).badNode = s.badNode := rfl
@[simp] theorem State.zeroMem_dirty (s : State) (a n : Nat) : (s.zeroMem a n).dirty = s.dirty := rfl
@[simp] theorem State.zeroMem_cached (s : State) (a n : Nat) : (s.zeroMem a n).cached = s.cached := rfl
@[simp] theorem State.zeroMem_nodeCnt (s : State) (a n : Nat) : (s.zeroMem a n).nodeCnt = s.nodeCnt := rfl
@[simp] theorem State.zeroMem_passAt (s : State) (a n : Nat) : (s.zeroMem a n).passAt = s.passAt := rfl
@[simp] theorem State.zeroMem_patrol (s : State) (a n : Nat) : (s.zeroMem a n).patrol = s.patrol := rfl
@[simp] theorem State.zeroMem_stages (s : State) (a n : Nat) : (s.zeroMem a n).stages = s.stages := rfl
@[simp] theorem State.zeroMem_strands (s : State) (a n : Nat) : (s.zeroMem a n).strands = s.strands := rfl
@[simp] theorem State.zeroMem_seeds (s : State) (a n : Nat) : (s.zeroMem a n).seeds = s.seeds := rfl
@[simp] theorem State.zeroMem_seedShard (s : State) (a n : Nat) : (s.zeroMem a n).seedShard = s.seedShard := rfl
@[simp] theorem State.zeroMem_seedBuf (s : State) (a n : Nat) : (s.zeroMem a n).seedBuf = s.seedBuf := rfl
@[simp] theorem State.zeroMem_queues (s : State) (a n : Nat) : (s.zeroMem a n).queues = s.queues := rfl
@[simp] theorem State.zeroMem_psets (s : State) (a n : Nat) : (s.zeroMem a n).psets = s.psets := rfl
@[simp] theorem State.zeroMem_evk (s : State) (a n : Nat) : (s.zeroMem a n).evk = s.evk := rfl
@[simp] theorem State.zeroMem_loads (s : State) (a n : Nat) : (s.zeroMem a n).loads = s.loads := rfl
@[simp] theorem State.zeroMem_ctxs (s : State) (a n : Nat) : (s.zeroMem a n).ctxs = s.ctxs := rfl
@[simp] theorem State.zeroMem_rounds (s : State) (a n : Nat) : (s.zeroMem a n).rounds = s.rounds := rfl
@[simp] theorem State.zeroMem_sess (s : State) (a n : Nat) : (s.zeroMem a n).sess = s.sess := rfl
@[simp] theorem State.zeroMem_est (s : State) (a n : Nat) : (s.zeroMem a n).est = s.est := rfl
@[simp] theorem State.zeroMem_lanes (s : State) (a n : Nat) : (s.zeroMem a n).lanes = s.lanes := rfl
@[simp] theorem State.zeroMem_bundles (s : State) (a n : Nat) : (s.zeroMem a n).bundles = s.bundles := rfl
@[simp] theorem State.zeroMem_router (s : State) (a n : Nat) : (s.zeroMem a n).router = s.router := rfl
@[simp] theorem State.zeroMem_fst (s : State) (a n : Nat) : (s.zeroMem a n).fst = s.fst := rfl
@[simp] theorem State.zeroMem_fstLost (s : State) (a n : Nat) : (s.zeroMem a n).fstLost = s.fstLost := rfl
@[simp] theorem State.zeroMem_slots (s : State) (a n : Nat) : (s.zeroMem a n).slots = s.slots := rfl
@[simp] theorem State.zeroMem_sealed (s : State) (a n : Nat) : (s.zeroMem a n).sealed = s.sealed := rfl
@[simp] theorem State.zeroMem_conns (s : State) (a n : Nat) : (s.zeroMem a n).conns = s.conns := rfl
@[simp] theorem State.zeroMem_regions (s : State) (a n : Nat) : (s.zeroMem a n).regions = s.regions := rfl
@[simp] theorem State.zeroMem_barInst (s : State) (a n : Nat) : (s.zeroMem a n).barInst = s.barInst := rfl
@[simp] theorem State.zeroMem_barMods (s : State) (a n : Nat) : (s.zeroMem a n).barMods = s.barMods := rfl
@[simp] theorem State.zeroMem_phases (s : State) (a n : Nat) : (s.zeroMem a n).phases = s.phases := rfl
@[simp] theorem State.zeroMem_keys (s : State) (a n : Nat) : (s.zeroMem a n).keys = s.keys := rfl
@[simp] theorem State.zeroMem_pstate (s : State) (a n : Nat) : (s.zeroMem a n).pstate = s.pstate := rfl
@[simp] theorem State.zeroMem_hss (s : State) (a n : Nat) : (s.zeroMem a n).hss = s.hss := rfl
@[simp] theorem State.zeroMem_ent (s : State) (a n : Nat) : (s.zeroMem a n).ent = s.ent := rfl
@[simp] theorem State.zeroMem_pd (s : State) (a n : Nat) : (s.zeroMem a n).pd = s.pd := rfl
@[simp] theorem State.zeroMem_gov (s : State) (a n : Nat) : (s.zeroMem a n).gov = s.gov := rfl
@[simp] theorem State.zeroMem_pins (s : State) (a n : Nat) : (s.zeroMem a n).pins = s.pins := rfl
@[simp] theorem State.zeroMem_sup (s : State) (a n : Nat) : (s.zeroMem a n).sup = s.sup := rfl
@[simp] theorem State.zeroMem_boot (s : State) (a n : Nat) : (s.zeroMem a n).boot = s.boot := rfl
@[simp] theorem State.zeroMem_mgmt (s : State) (a n : Nat) : (s.zeroMem a n).mgmt = s.mgmt := rfl
@[simp] theorem State.zeroMem_hub (s : State) (a n : Nat) : (s.zeroMem a n).hub = s.hub := rfl
@[simp] theorem State.zeroMem_tests (s : State) (a n : Nat) : (s.zeroMem a n).tests = s.tests := rfl
@[simp] theorem State.zeroMem_evSeq (s : State) (a n : Nat) : (s.zeroMem a n).evSeq = s.evSeq := rfl
@[simp] theorem State.zeroMem_freeCtr (s : State) (a n : Nat) : (s.zeroMem a n).freeCtr = s.freeCtr := rfl
@[simp] theorem State.zeroMem_reply (s : State) (a n : Nat) : (s.zeroMem a n).reply = s.reply := rfl
@[simp] theorem State.zeroMem_out (s : State) (a n : Nat) : (s.zeroMem a n).out = s.out := rfl
@[simp] theorem State.zeroMem_pending (s : State) (a n : Nat) : (s.zeroMem a n).pending = s.pending := rfl

/-! ### hubStore -/

@[simp] theorem State.hubStore_part (s : State) (o : Nat) (b : Bytes) : (s.hubStore o b).part = s.part := rfl
@[simp] theorem State.hubStore_regs (s : State) (o : Nat) (b : Bytes) : (s.hubStore o b).regs = s.regs := rfl
@[simp] theorem State.hubStore_latch (s : State) (o : Nat) (b : Bytes) : (s.hubStore o b).latch = s.latch := rfl
@[simp] theorem State.hubStore_wbuf (s : State) (o : Nat) (b : Bytes) : (s.hubStore o b).wbuf = s.wbuf := rfl
@[simp] theorem State.hubStore_time (s : State) (o : Nat) (b : Bytes) : (s.hubStore o b).time = s.time := rfl
@[simp] theorem State.hubStore_mem (s : State) (o : Nat) (b : Bytes) : (s.hubStore o b).mem = s.mem := rfl
@[simp] theorem State.hubStore_ecc (s : State) (o : Nat) (b : Bytes) : (s.hubStore o b).ecc = s.ecc := rfl
@[simp] theorem State.hubStore_d2d (s : State) (o : Nat) (b : Bytes) : (s.hubStore o b).d2d = s.d2d := rfl
@[simp] theorem State.hubStore_banks (s : State) (o : Nat) (b : Bytes) : (s.hubStore o b).banks = s.banks := rfl
@[simp] theorem State.hubStore_granule (s : State) (o : Nat) (b : Bytes) : (s.hubStore o b).granule = s.granule := rfl
@[simp] theorem State.hubStore_major (s : State) (o : Nat) (b : Bytes) : (s.hubStore o b).major = s.major := rfl
@[simp] theorem State.hubStore_minor (s : State) (o : Nat) (b : Bytes) : (s.hubStore o b).minor = s.minor := rfl
@[simp] theorem State.hubStore_crypt (s : State) (o : Nat) (b : Bytes) : (s.hubStore o b).crypt = s.crypt := rfl
@[simp] theorem State.hubStore_badLine (s : State) (o : Nat) (b : Bytes) : (s.hubStore o b).badLine = s.badLine := rfl
@[simp] theorem State.hubStore_badNode (s : State) (o : Nat) (b : Bytes) : (s.hubStore o b).badNode = s.badNode := rfl
@[simp] theorem State.hubStore_dirty (s : State) (o : Nat) (b : Bytes) : (s.hubStore o b).dirty = s.dirty := rfl
@[simp] theorem State.hubStore_cached (s : State) (o : Nat) (b : Bytes) : (s.hubStore o b).cached = s.cached := rfl
@[simp] theorem State.hubStore_nodeCnt (s : State) (o : Nat) (b : Bytes) : (s.hubStore o b).nodeCnt = s.nodeCnt := rfl
@[simp] theorem State.hubStore_passAt (s : State) (o : Nat) (b : Bytes) : (s.hubStore o b).passAt = s.passAt := rfl
@[simp] theorem State.hubStore_patrol (s : State) (o : Nat) (b : Bytes) : (s.hubStore o b).patrol = s.patrol := rfl
@[simp] theorem State.hubStore_stages (s : State) (o : Nat) (b : Bytes) : (s.hubStore o b).stages = s.stages := rfl
@[simp] theorem State.hubStore_strands (s : State) (o : Nat) (b : Bytes) : (s.hubStore o b).strands = s.strands := rfl
@[simp] theorem State.hubStore_seeds (s : State) (o : Nat) (b : Bytes) : (s.hubStore o b).seeds = s.seeds := rfl
@[simp] theorem State.hubStore_seedShard (s : State) (o : Nat) (b : Bytes) : (s.hubStore o b).seedShard = s.seedShard := rfl
@[simp] theorem State.hubStore_seedBuf (s : State) (o : Nat) (b : Bytes) : (s.hubStore o b).seedBuf = s.seedBuf := rfl
@[simp] theorem State.hubStore_queues (s : State) (o : Nat) (b : Bytes) : (s.hubStore o b).queues = s.queues := rfl
@[simp] theorem State.hubStore_psets (s : State) (o : Nat) (b : Bytes) : (s.hubStore o b).psets = s.psets := rfl
@[simp] theorem State.hubStore_evk (s : State) (o : Nat) (b : Bytes) : (s.hubStore o b).evk = s.evk := rfl
@[simp] theorem State.hubStore_loads (s : State) (o : Nat) (b : Bytes) : (s.hubStore o b).loads = s.loads := rfl
@[simp] theorem State.hubStore_ctxs (s : State) (o : Nat) (b : Bytes) : (s.hubStore o b).ctxs = s.ctxs := rfl
@[simp] theorem State.hubStore_rounds (s : State) (o : Nat) (b : Bytes) : (s.hubStore o b).rounds = s.rounds := rfl
@[simp] theorem State.hubStore_sess (s : State) (o : Nat) (b : Bytes) : (s.hubStore o b).sess = s.sess := rfl
@[simp] theorem State.hubStore_est (s : State) (o : Nat) (b : Bytes) : (s.hubStore o b).est = s.est := rfl
@[simp] theorem State.hubStore_lanes (s : State) (o : Nat) (b : Bytes) : (s.hubStore o b).lanes = s.lanes := rfl
@[simp] theorem State.hubStore_bundles (s : State) (o : Nat) (b : Bytes) : (s.hubStore o b).bundles = s.bundles := rfl
@[simp] theorem State.hubStore_router (s : State) (o : Nat) (b : Bytes) : (s.hubStore o b).router = s.router := rfl
@[simp] theorem State.hubStore_fst (s : State) (o : Nat) (b : Bytes) : (s.hubStore o b).fst = s.fst := rfl
@[simp] theorem State.hubStore_fstLost (s : State) (o : Nat) (b : Bytes) : (s.hubStore o b).fstLost = s.fstLost := rfl
@[simp] theorem State.hubStore_slots (s : State) (o : Nat) (b : Bytes) : (s.hubStore o b).slots = s.slots := rfl
@[simp] theorem State.hubStore_sealed (s : State) (o : Nat) (b : Bytes) : (s.hubStore o b).sealed = s.sealed := rfl
@[simp] theorem State.hubStore_conns (s : State) (o : Nat) (b : Bytes) : (s.hubStore o b).conns = s.conns := rfl
@[simp] theorem State.hubStore_regions (s : State) (o : Nat) (b : Bytes) : (s.hubStore o b).regions = s.regions := rfl
@[simp] theorem State.hubStore_barInst (s : State) (o : Nat) (b : Bytes) : (s.hubStore o b).barInst = s.barInst := rfl
@[simp] theorem State.hubStore_barMods (s : State) (o : Nat) (b : Bytes) : (s.hubStore o b).barMods = s.barMods := rfl
@[simp] theorem State.hubStore_phases (s : State) (o : Nat) (b : Bytes) : (s.hubStore o b).phases = s.phases := rfl
@[simp] theorem State.hubStore_keys (s : State) (o : Nat) (b : Bytes) : (s.hubStore o b).keys = s.keys := rfl
@[simp] theorem State.hubStore_pstate (s : State) (o : Nat) (b : Bytes) : (s.hubStore o b).pstate = s.pstate := rfl
@[simp] theorem State.hubStore_hss (s : State) (o : Nat) (b : Bytes) : (s.hubStore o b).hss = s.hss := rfl
@[simp] theorem State.hubStore_ent (s : State) (o : Nat) (b : Bytes) : (s.hubStore o b).ent = s.ent := rfl
@[simp] theorem State.hubStore_pd (s : State) (o : Nat) (b : Bytes) : (s.hubStore o b).pd = s.pd := rfl
@[simp] theorem State.hubStore_gov (s : State) (o : Nat) (b : Bytes) : (s.hubStore o b).gov = s.gov := rfl
@[simp] theorem State.hubStore_pins (s : State) (o : Nat) (b : Bytes) : (s.hubStore o b).pins = s.pins := rfl
@[simp] theorem State.hubStore_sup (s : State) (o : Nat) (b : Bytes) : (s.hubStore o b).sup = s.sup := rfl
@[simp] theorem State.hubStore_boot (s : State) (o : Nat) (b : Bytes) : (s.hubStore o b).boot = s.boot := rfl
@[simp] theorem State.hubStore_mgmt (s : State) (o : Nat) (b : Bytes) : (s.hubStore o b).mgmt = s.mgmt := rfl
@[simp] theorem State.hubStore_hub (s : State) (o : Nat) (b : Bytes) : (s.hubStore o b).hub = s.hub := rfl
@[simp] theorem State.hubStore_tests (s : State) (o : Nat) (b : Bytes) : (s.hubStore o b).tests = s.tests := rfl
@[simp] theorem State.hubStore_evSeq (s : State) (o : Nat) (b : Bytes) : (s.hubStore o b).evSeq = s.evSeq := rfl
@[simp] theorem State.hubStore_freeCtr (s : State) (o : Nat) (b : Bytes) : (s.hubStore o b).freeCtr = s.freeCtr := rfl
@[simp] theorem State.hubStore_reply (s : State) (o : Nat) (b : Bytes) : (s.hubStore o b).reply = s.reply := rfl
@[simp] theorem State.hubStore_out (s : State) (o : Nat) (b : Bytes) : (s.hubStore o b).out = s.out := rfl
@[simp] theorem State.hubStore_pending (s : State) (o : Nat) (b : Bytes) : (s.hubStore o b).pending = s.pending := rfl

/-! ### took -/

@[simp] theorem State.took_part (s : State) (n : Nat) : (s.took n).part = s.part := rfl
@[simp] theorem State.took_regs (s : State) (n : Nat) : (s.took n).regs = s.regs := rfl
@[simp] theorem State.took_latch (s : State) (n : Nat) : (s.took n).latch = s.latch := rfl
@[simp] theorem State.took_wbuf (s : State) (n : Nat) : (s.took n).wbuf = s.wbuf := rfl
@[simp] theorem State.took_time (s : State) (n : Nat) : (s.took n).time = s.time := rfl
@[simp] theorem State.took_mem (s : State) (n : Nat) : (s.took n).mem = s.mem := rfl
@[simp] theorem State.took_hubMem (s : State) (n : Nat) : (s.took n).hubMem = s.hubMem := rfl
@[simp] theorem State.took_ecc (s : State) (n : Nat) : (s.took n).ecc = s.ecc := rfl
@[simp] theorem State.took_d2d (s : State) (n : Nat) : (s.took n).d2d = s.d2d := rfl
@[simp] theorem State.took_banks (s : State) (n : Nat) : (s.took n).banks = s.banks := rfl
@[simp] theorem State.took_granule (s : State) (n : Nat) : (s.took n).granule = s.granule := rfl
@[simp] theorem State.took_major (s : State) (n : Nat) : (s.took n).major = s.major := rfl
@[simp] theorem State.took_minor (s : State) (n : Nat) : (s.took n).minor = s.minor := rfl
@[simp] theorem State.took_crypt (s : State) (n : Nat) : (s.took n).crypt = s.crypt := rfl
@[simp] theorem State.took_badLine (s : State) (n : Nat) : (s.took n).badLine = s.badLine := rfl
@[simp] theorem State.took_badNode (s : State) (n : Nat) : (s.took n).badNode = s.badNode := rfl
@[simp] theorem State.took_dirty (s : State) (n : Nat) : (s.took n).dirty = s.dirty := rfl
@[simp] theorem State.took_cached (s : State) (n : Nat) : (s.took n).cached = s.cached := rfl
@[simp] theorem State.took_nodeCnt (s : State) (n : Nat) : (s.took n).nodeCnt = s.nodeCnt := rfl
@[simp] theorem State.took_passAt (s : State) (n : Nat) : (s.took n).passAt = s.passAt := rfl
@[simp] theorem State.took_patrol (s : State) (n : Nat) : (s.took n).patrol = s.patrol := rfl
@[simp] theorem State.took_stages (s : State) (n : Nat) : (s.took n).stages = s.stages := rfl
@[simp] theorem State.took_strands (s : State) (n : Nat) : (s.took n).strands = s.strands := rfl
@[simp] theorem State.took_seeds (s : State) (n : Nat) : (s.took n).seeds = s.seeds := rfl
@[simp] theorem State.took_seedShard (s : State) (n : Nat) : (s.took n).seedShard = s.seedShard := rfl
@[simp] theorem State.took_seedBuf (s : State) (n : Nat) : (s.took n).seedBuf = s.seedBuf := rfl
@[simp] theorem State.took_queues (s : State) (n : Nat) : (s.took n).queues = s.queues := rfl
@[simp] theorem State.took_psets (s : State) (n : Nat) : (s.took n).psets = s.psets := rfl
@[simp] theorem State.took_evk (s : State) (n : Nat) : (s.took n).evk = s.evk := rfl
@[simp] theorem State.took_loads (s : State) (n : Nat) : (s.took n).loads = s.loads := rfl
@[simp] theorem State.took_ctxs (s : State) (n : Nat) : (s.took n).ctxs = s.ctxs := rfl
@[simp] theorem State.took_rounds (s : State) (n : Nat) : (s.took n).rounds = s.rounds := rfl
@[simp] theorem State.took_sess (s : State) (n : Nat) : (s.took n).sess = s.sess := rfl
@[simp] theorem State.took_est (s : State) (n : Nat) : (s.took n).est = s.est := rfl
@[simp] theorem State.took_lanes (s : State) (n : Nat) : (s.took n).lanes = s.lanes := rfl
@[simp] theorem State.took_bundles (s : State) (n : Nat) : (s.took n).bundles = s.bundles := rfl
@[simp] theorem State.took_router (s : State) (n : Nat) : (s.took n).router = s.router := rfl
@[simp] theorem State.took_fst (s : State) (n : Nat) : (s.took n).fst = s.fst := rfl
@[simp] theorem State.took_fstLost (s : State) (n : Nat) : (s.took n).fstLost = s.fstLost := rfl
@[simp] theorem State.took_slots (s : State) (n : Nat) : (s.took n).slots = s.slots := rfl
@[simp] theorem State.took_sealed (s : State) (n : Nat) : (s.took n).sealed = s.sealed := rfl
@[simp] theorem State.took_conns (s : State) (n : Nat) : (s.took n).conns = s.conns := rfl
@[simp] theorem State.took_regions (s : State) (n : Nat) : (s.took n).regions = s.regions := rfl
@[simp] theorem State.took_barInst (s : State) (n : Nat) : (s.took n).barInst = s.barInst := rfl
@[simp] theorem State.took_barMods (s : State) (n : Nat) : (s.took n).barMods = s.barMods := rfl
@[simp] theorem State.took_phases (s : State) (n : Nat) : (s.took n).phases = s.phases := rfl
@[simp] theorem State.took_keys (s : State) (n : Nat) : (s.took n).keys = s.keys := rfl
@[simp] theorem State.took_pstate (s : State) (n : Nat) : (s.took n).pstate = s.pstate := rfl
@[simp] theorem State.took_hss (s : State) (n : Nat) : (s.took n).hss = s.hss := rfl
@[simp] theorem State.took_ent (s : State) (n : Nat) : (s.took n).ent = s.ent := rfl
@[simp] theorem State.took_pd (s : State) (n : Nat) : (s.took n).pd = s.pd := rfl
@[simp] theorem State.took_gov (s : State) (n : Nat) : (s.took n).gov = s.gov := rfl
@[simp] theorem State.took_pins (s : State) (n : Nat) : (s.took n).pins = s.pins := rfl
@[simp] theorem State.took_sup (s : State) (n : Nat) : (s.took n).sup = s.sup := rfl
@[simp] theorem State.took_boot (s : State) (n : Nat) : (s.took n).boot = s.boot := rfl
@[simp] theorem State.took_mgmt (s : State) (n : Nat) : (s.took n).mgmt = s.mgmt := rfl
@[simp] theorem State.took_hub (s : State) (n : Nat) : (s.took n).hub = s.hub := rfl
@[simp] theorem State.took_tests (s : State) (n : Nat) : (s.took n).tests = s.tests := rfl
@[simp] theorem State.took_evSeq (s : State) (n : Nat) : (s.took n).evSeq = s.evSeq := rfl
@[simp] theorem State.took_reply (s : State) (n : Nat) : (s.took n).reply = s.reply := rfl
@[simp] theorem State.took_out (s : State) (n : Nat) : (s.took n).out = s.out := rfl
@[simp] theorem State.took_pending (s : State) (n : Nat) : (s.took n).pending = s.pending := rfl

/-! ### done -/

@[simp] theorem State.done_part (s : State) (c : Byte) : (s.done c).part = s.part := rfl
@[simp] theorem State.done_regs (s : State) (c : Byte) : (s.done c).regs = s.regs := rfl
@[simp] theorem State.done_latch (s : State) (c : Byte) : (s.done c).latch = s.latch := rfl
@[simp] theorem State.done_wbuf (s : State) (c : Byte) : (s.done c).wbuf = s.wbuf := rfl
@[simp] theorem State.done_time (s : State) (c : Byte) : (s.done c).time = s.time := rfl
@[simp] theorem State.done_mem (s : State) (c : Byte) : (s.done c).mem = s.mem := rfl
@[simp] theorem State.done_hubMem (s : State) (c : Byte) : (s.done c).hubMem = s.hubMem := rfl
@[simp] theorem State.done_ecc (s : State) (c : Byte) : (s.done c).ecc = s.ecc := rfl
@[simp] theorem State.done_d2d (s : State) (c : Byte) : (s.done c).d2d = s.d2d := rfl
@[simp] theorem State.done_banks (s : State) (c : Byte) : (s.done c).banks = s.banks := rfl
@[simp] theorem State.done_granule (s : State) (c : Byte) : (s.done c).granule = s.granule := rfl
@[simp] theorem State.done_major (s : State) (c : Byte) : (s.done c).major = s.major := rfl
@[simp] theorem State.done_minor (s : State) (c : Byte) : (s.done c).minor = s.minor := rfl
@[simp] theorem State.done_crypt (s : State) (c : Byte) : (s.done c).crypt = s.crypt := rfl
@[simp] theorem State.done_badLine (s : State) (c : Byte) : (s.done c).badLine = s.badLine := rfl
@[simp] theorem State.done_badNode (s : State) (c : Byte) : (s.done c).badNode = s.badNode := rfl
@[simp] theorem State.done_dirty (s : State) (c : Byte) : (s.done c).dirty = s.dirty := rfl
@[simp] theorem State.done_cached (s : State) (c : Byte) : (s.done c).cached = s.cached := rfl
@[simp] theorem State.done_nodeCnt (s : State) (c : Byte) : (s.done c).nodeCnt = s.nodeCnt := rfl
@[simp] theorem State.done_passAt (s : State) (c : Byte) : (s.done c).passAt = s.passAt := rfl
@[simp] theorem State.done_patrol (s : State) (c : Byte) : (s.done c).patrol = s.patrol := rfl
@[simp] theorem State.done_stages (s : State) (c : Byte) : (s.done c).stages = s.stages := rfl
@[simp] theorem State.done_strands (s : State) (c : Byte) : (s.done c).strands = s.strands := rfl
@[simp] theorem State.done_seeds (s : State) (c : Byte) : (s.done c).seeds = s.seeds := rfl
@[simp] theorem State.done_seedShard (s : State) (c : Byte) : (s.done c).seedShard = s.seedShard := rfl
@[simp] theorem State.done_seedBuf (s : State) (c : Byte) : (s.done c).seedBuf = s.seedBuf := rfl
@[simp] theorem State.done_queues (s : State) (c : Byte) : (s.done c).queues = s.queues := rfl
@[simp] theorem State.done_psets (s : State) (c : Byte) : (s.done c).psets = s.psets := rfl
@[simp] theorem State.done_evk (s : State) (c : Byte) : (s.done c).evk = s.evk := rfl
@[simp] theorem State.done_loads (s : State) (c : Byte) : (s.done c).loads = s.loads := rfl
@[simp] theorem State.done_ctxs (s : State) (c : Byte) : (s.done c).ctxs = s.ctxs := rfl
@[simp] theorem State.done_rounds (s : State) (c : Byte) : (s.done c).rounds = s.rounds := rfl
@[simp] theorem State.done_sess (s : State) (c : Byte) : (s.done c).sess = s.sess := rfl
@[simp] theorem State.done_est (s : State) (c : Byte) : (s.done c).est = s.est := rfl
@[simp] theorem State.done_lanes (s : State) (c : Byte) : (s.done c).lanes = s.lanes := rfl
@[simp] theorem State.done_bundles (s : State) (c : Byte) : (s.done c).bundles = s.bundles := rfl
@[simp] theorem State.done_router (s : State) (c : Byte) : (s.done c).router = s.router := rfl
@[simp] theorem State.done_fst (s : State) (c : Byte) : (s.done c).fst = s.fst := rfl
@[simp] theorem State.done_fstLost (s : State) (c : Byte) : (s.done c).fstLost = s.fstLost := rfl
@[simp] theorem State.done_slots (s : State) (c : Byte) : (s.done c).slots = s.slots := rfl
@[simp] theorem State.done_sealed (s : State) (c : Byte) : (s.done c).sealed = s.sealed := rfl
@[simp] theorem State.done_conns (s : State) (c : Byte) : (s.done c).conns = s.conns := rfl
@[simp] theorem State.done_regions (s : State) (c : Byte) : (s.done c).regions = s.regions := rfl
@[simp] theorem State.done_barInst (s : State) (c : Byte) : (s.done c).barInst = s.barInst := rfl
@[simp] theorem State.done_barMods (s : State) (c : Byte) : (s.done c).barMods = s.barMods := rfl
@[simp] theorem State.done_phases (s : State) (c : Byte) : (s.done c).phases = s.phases := rfl
@[simp] theorem State.done_keys (s : State) (c : Byte) : (s.done c).keys = s.keys := rfl
@[simp] theorem State.done_pstate (s : State) (c : Byte) : (s.done c).pstate = s.pstate := rfl
@[simp] theorem State.done_hss (s : State) (c : Byte) : (s.done c).hss = s.hss := rfl
@[simp] theorem State.done_ent (s : State) (c : Byte) : (s.done c).ent = s.ent := rfl
@[simp] theorem State.done_pd (s : State) (c : Byte) : (s.done c).pd = s.pd := rfl
@[simp] theorem State.done_gov (s : State) (c : Byte) : (s.done c).gov = s.gov := rfl
@[simp] theorem State.done_pins (s : State) (c : Byte) : (s.done c).pins = s.pins := rfl
@[simp] theorem State.done_sup (s : State) (c : Byte) : (s.done c).sup = s.sup := rfl
@[simp] theorem State.done_boot (s : State) (c : Byte) : (s.done c).boot = s.boot := rfl
@[simp] theorem State.done_mgmt (s : State) (c : Byte) : (s.done c).mgmt = s.mgmt := rfl
@[simp] theorem State.done_hub (s : State) (c : Byte) : (s.done c).hub = s.hub := rfl
@[simp] theorem State.done_tests (s : State) (c : Byte) : (s.done c).tests = s.tests := rfl
@[simp] theorem State.done_evSeq (s : State) (c : Byte) : (s.done c).evSeq = s.evSeq := rfl
@[simp] theorem State.done_freeCtr (s : State) (c : Byte) : (s.done c).freeCtr = s.freeCtr := rfl
@[simp] theorem State.done_out (s : State) (c : Byte) : (s.done c).out = s.out := rfl
@[simp] theorem State.done_pending (s : State) (c : Byte) : (s.done c).pending = s.pending := rfl

/-! ### val -/

@[simp] theorem State.val_part (s : State) (v : Nat) : (s.val v).part = s.part := rfl
@[simp] theorem State.val_regs (s : State) (v : Nat) : (s.val v).regs = s.regs := rfl
@[simp] theorem State.val_latch (s : State) (v : Nat) : (s.val v).latch = s.latch := rfl
@[simp] theorem State.val_wbuf (s : State) (v : Nat) : (s.val v).wbuf = s.wbuf := rfl
@[simp] theorem State.val_time (s : State) (v : Nat) : (s.val v).time = s.time := rfl
@[simp] theorem State.val_mem (s : State) (v : Nat) : (s.val v).mem = s.mem := rfl
@[simp] theorem State.val_hubMem (s : State) (v : Nat) : (s.val v).hubMem = s.hubMem := rfl
@[simp] theorem State.val_ecc (s : State) (v : Nat) : (s.val v).ecc = s.ecc := rfl
@[simp] theorem State.val_d2d (s : State) (v : Nat) : (s.val v).d2d = s.d2d := rfl
@[simp] theorem State.val_banks (s : State) (v : Nat) : (s.val v).banks = s.banks := rfl
@[simp] theorem State.val_granule (s : State) (v : Nat) : (s.val v).granule = s.granule := rfl
@[simp] theorem State.val_major (s : State) (v : Nat) : (s.val v).major = s.major := rfl
@[simp] theorem State.val_minor (s : State) (v : Nat) : (s.val v).minor = s.minor := rfl
@[simp] theorem State.val_crypt (s : State) (v : Nat) : (s.val v).crypt = s.crypt := rfl
@[simp] theorem State.val_badLine (s : State) (v : Nat) : (s.val v).badLine = s.badLine := rfl
@[simp] theorem State.val_badNode (s : State) (v : Nat) : (s.val v).badNode = s.badNode := rfl
@[simp] theorem State.val_dirty (s : State) (v : Nat) : (s.val v).dirty = s.dirty := rfl
@[simp] theorem State.val_cached (s : State) (v : Nat) : (s.val v).cached = s.cached := rfl
@[simp] theorem State.val_nodeCnt (s : State) (v : Nat) : (s.val v).nodeCnt = s.nodeCnt := rfl
@[simp] theorem State.val_passAt (s : State) (v : Nat) : (s.val v).passAt = s.passAt := rfl
@[simp] theorem State.val_patrol (s : State) (v : Nat) : (s.val v).patrol = s.patrol := rfl
@[simp] theorem State.val_stages (s : State) (v : Nat) : (s.val v).stages = s.stages := rfl
@[simp] theorem State.val_strands (s : State) (v : Nat) : (s.val v).strands = s.strands := rfl
@[simp] theorem State.val_seeds (s : State) (v : Nat) : (s.val v).seeds = s.seeds := rfl
@[simp] theorem State.val_seedShard (s : State) (v : Nat) : (s.val v).seedShard = s.seedShard := rfl
@[simp] theorem State.val_seedBuf (s : State) (v : Nat) : (s.val v).seedBuf = s.seedBuf := rfl
@[simp] theorem State.val_queues (s : State) (v : Nat) : (s.val v).queues = s.queues := rfl
@[simp] theorem State.val_psets (s : State) (v : Nat) : (s.val v).psets = s.psets := rfl
@[simp] theorem State.val_evk (s : State) (v : Nat) : (s.val v).evk = s.evk := rfl
@[simp] theorem State.val_loads (s : State) (v : Nat) : (s.val v).loads = s.loads := rfl
@[simp] theorem State.val_ctxs (s : State) (v : Nat) : (s.val v).ctxs = s.ctxs := rfl
@[simp] theorem State.val_rounds (s : State) (v : Nat) : (s.val v).rounds = s.rounds := rfl
@[simp] theorem State.val_sess (s : State) (v : Nat) : (s.val v).sess = s.sess := rfl
@[simp] theorem State.val_est (s : State) (v : Nat) : (s.val v).est = s.est := rfl
@[simp] theorem State.val_lanes (s : State) (v : Nat) : (s.val v).lanes = s.lanes := rfl
@[simp] theorem State.val_bundles (s : State) (v : Nat) : (s.val v).bundles = s.bundles := rfl
@[simp] theorem State.val_router (s : State) (v : Nat) : (s.val v).router = s.router := rfl
@[simp] theorem State.val_fst (s : State) (v : Nat) : (s.val v).fst = s.fst := rfl
@[simp] theorem State.val_fstLost (s : State) (v : Nat) : (s.val v).fstLost = s.fstLost := rfl
@[simp] theorem State.val_slots (s : State) (v : Nat) : (s.val v).slots = s.slots := rfl
@[simp] theorem State.val_sealed (s : State) (v : Nat) : (s.val v).sealed = s.sealed := rfl
@[simp] theorem State.val_conns (s : State) (v : Nat) : (s.val v).conns = s.conns := rfl
@[simp] theorem State.val_regions (s : State) (v : Nat) : (s.val v).regions = s.regions := rfl
@[simp] theorem State.val_barInst (s : State) (v : Nat) : (s.val v).barInst = s.barInst := rfl
@[simp] theorem State.val_barMods (s : State) (v : Nat) : (s.val v).barMods = s.barMods := rfl
@[simp] theorem State.val_phases (s : State) (v : Nat) : (s.val v).phases = s.phases := rfl
@[simp] theorem State.val_keys (s : State) (v : Nat) : (s.val v).keys = s.keys := rfl
@[simp] theorem State.val_pstate (s : State) (v : Nat) : (s.val v).pstate = s.pstate := rfl
@[simp] theorem State.val_hss (s : State) (v : Nat) : (s.val v).hss = s.hss := rfl
@[simp] theorem State.val_ent (s : State) (v : Nat) : (s.val v).ent = s.ent := rfl
@[simp] theorem State.val_pd (s : State) (v : Nat) : (s.val v).pd = s.pd := rfl
@[simp] theorem State.val_gov (s : State) (v : Nat) : (s.val v).gov = s.gov := rfl
@[simp] theorem State.val_pins (s : State) (v : Nat) : (s.val v).pins = s.pins := rfl
@[simp] theorem State.val_sup (s : State) (v : Nat) : (s.val v).sup = s.sup := rfl
@[simp] theorem State.val_boot (s : State) (v : Nat) : (s.val v).boot = s.boot := rfl
@[simp] theorem State.val_mgmt (s : State) (v : Nat) : (s.val v).mgmt = s.mgmt := rfl
@[simp] theorem State.val_hub (s : State) (v : Nat) : (s.val v).hub = s.hub := rfl
@[simp] theorem State.val_tests (s : State) (v : Nat) : (s.val v).tests = s.tests := rfl
@[simp] theorem State.val_evSeq (s : State) (v : Nat) : (s.val v).evSeq = s.evSeq := rfl
@[simp] theorem State.val_freeCtr (s : State) (v : Nat) : (s.val v).freeCtr = s.freeCtr := rfl
@[simp] theorem State.val_out (s : State) (v : Nat) : (s.val v).out = s.out := rfl
@[simp] theorem State.val_pending (s : State) (v : Nat) : (s.val v).pending = s.pending := rfl

/-! ### emit -/

@[simp] theorem State.emit_part (s : State) (o : Out) : (s.emit o).part = s.part := rfl
@[simp] theorem State.emit_regs (s : State) (o : Out) : (s.emit o).regs = s.regs := rfl
@[simp] theorem State.emit_latch (s : State) (o : Out) : (s.emit o).latch = s.latch := rfl
@[simp] theorem State.emit_wbuf (s : State) (o : Out) : (s.emit o).wbuf = s.wbuf := rfl
@[simp] theorem State.emit_time (s : State) (o : Out) : (s.emit o).time = s.time := rfl
@[simp] theorem State.emit_mem (s : State) (o : Out) : (s.emit o).mem = s.mem := rfl
@[simp] theorem State.emit_hubMem (s : State) (o : Out) : (s.emit o).hubMem = s.hubMem := rfl
@[simp] theorem State.emit_ecc (s : State) (o : Out) : (s.emit o).ecc = s.ecc := rfl
@[simp] theorem State.emit_d2d (s : State) (o : Out) : (s.emit o).d2d = s.d2d := rfl
@[simp] theorem State.emit_banks (s : State) (o : Out) : (s.emit o).banks = s.banks := rfl
@[simp] theorem State.emit_granule (s : State) (o : Out) : (s.emit o).granule = s.granule := rfl
@[simp] theorem State.emit_major (s : State) (o : Out) : (s.emit o).major = s.major := rfl
@[simp] theorem State.emit_minor (s : State) (o : Out) : (s.emit o).minor = s.minor := rfl
@[simp] theorem State.emit_crypt (s : State) (o : Out) : (s.emit o).crypt = s.crypt := rfl
@[simp] theorem State.emit_badLine (s : State) (o : Out) : (s.emit o).badLine = s.badLine := rfl
@[simp] theorem State.emit_badNode (s : State) (o : Out) : (s.emit o).badNode = s.badNode := rfl
@[simp] theorem State.emit_dirty (s : State) (o : Out) : (s.emit o).dirty = s.dirty := rfl
@[simp] theorem State.emit_cached (s : State) (o : Out) : (s.emit o).cached = s.cached := rfl
@[simp] theorem State.emit_nodeCnt (s : State) (o : Out) : (s.emit o).nodeCnt = s.nodeCnt := rfl
@[simp] theorem State.emit_passAt (s : State) (o : Out) : (s.emit o).passAt = s.passAt := rfl
@[simp] theorem State.emit_patrol (s : State) (o : Out) : (s.emit o).patrol = s.patrol := rfl
@[simp] theorem State.emit_stages (s : State) (o : Out) : (s.emit o).stages = s.stages := rfl
@[simp] theorem State.emit_strands (s : State) (o : Out) : (s.emit o).strands = s.strands := rfl
@[simp] theorem State.emit_seeds (s : State) (o : Out) : (s.emit o).seeds = s.seeds := rfl
@[simp] theorem State.emit_seedShard (s : State) (o : Out) : (s.emit o).seedShard = s.seedShard := rfl
@[simp] theorem State.emit_seedBuf (s : State) (o : Out) : (s.emit o).seedBuf = s.seedBuf := rfl
@[simp] theorem State.emit_queues (s : State) (o : Out) : (s.emit o).queues = s.queues := rfl
@[simp] theorem State.emit_psets (s : State) (o : Out) : (s.emit o).psets = s.psets := rfl
@[simp] theorem State.emit_evk (s : State) (o : Out) : (s.emit o).evk = s.evk := rfl
@[simp] theorem State.emit_loads (s : State) (o : Out) : (s.emit o).loads = s.loads := rfl
@[simp] theorem State.emit_ctxs (s : State) (o : Out) : (s.emit o).ctxs = s.ctxs := rfl
@[simp] theorem State.emit_rounds (s : State) (o : Out) : (s.emit o).rounds = s.rounds := rfl
@[simp] theorem State.emit_sess (s : State) (o : Out) : (s.emit o).sess = s.sess := rfl
@[simp] theorem State.emit_est (s : State) (o : Out) : (s.emit o).est = s.est := rfl
@[simp] theorem State.emit_lanes (s : State) (o : Out) : (s.emit o).lanes = s.lanes := rfl
@[simp] theorem State.emit_bundles (s : State) (o : Out) : (s.emit o).bundles = s.bundles := rfl
@[simp] theorem State.emit_router (s : State) (o : Out) : (s.emit o).router = s.router := rfl
@[simp] theorem State.emit_fst (s : State) (o : Out) : (s.emit o).fst = s.fst := rfl
@[simp] theorem State.emit_fstLost (s : State) (o : Out) : (s.emit o).fstLost = s.fstLost := rfl
@[simp] theorem State.emit_slots (s : State) (o : Out) : (s.emit o).slots = s.slots := rfl
@[simp] theorem State.emit_sealed (s : State) (o : Out) : (s.emit o).sealed = s.sealed := rfl
@[simp] theorem State.emit_conns (s : State) (o : Out) : (s.emit o).conns = s.conns := rfl
@[simp] theorem State.emit_regions (s : State) (o : Out) : (s.emit o).regions = s.regions := rfl
@[simp] theorem State.emit_barInst (s : State) (o : Out) : (s.emit o).barInst = s.barInst := rfl
@[simp] theorem State.emit_barMods (s : State) (o : Out) : (s.emit o).barMods = s.barMods := rfl
@[simp] theorem State.emit_phases (s : State) (o : Out) : (s.emit o).phases = s.phases := rfl
@[simp] theorem State.emit_keys (s : State) (o : Out) : (s.emit o).keys = s.keys := rfl
@[simp] theorem State.emit_pstate (s : State) (o : Out) : (s.emit o).pstate = s.pstate := rfl
@[simp] theorem State.emit_hss (s : State) (o : Out) : (s.emit o).hss = s.hss := rfl
@[simp] theorem State.emit_ent (s : State) (o : Out) : (s.emit o).ent = s.ent := rfl
@[simp] theorem State.emit_pd (s : State) (o : Out) : (s.emit o).pd = s.pd := rfl
@[simp] theorem State.emit_gov (s : State) (o : Out) : (s.emit o).gov = s.gov := rfl
@[simp] theorem State.emit_pins (s : State) (o : Out) : (s.emit o).pins = s.pins := rfl
@[simp] theorem State.emit_sup (s : State) (o : Out) : (s.emit o).sup = s.sup := rfl
@[simp] theorem State.emit_boot (s : State) (o : Out) : (s.emit o).boot = s.boot := rfl
@[simp] theorem State.emit_mgmt (s : State) (o : Out) : (s.emit o).mgmt = s.mgmt := rfl
@[simp] theorem State.emit_hub (s : State) (o : Out) : (s.emit o).hub = s.hub := rfl
@[simp] theorem State.emit_tests (s : State) (o : Out) : (s.emit o).tests = s.tests := rfl
@[simp] theorem State.emit_evSeq (s : State) (o : Out) : (s.emit o).evSeq = s.evSeq := rfl
@[simp] theorem State.emit_freeCtr (s : State) (o : Out) : (s.emit o).freeCtr = s.freeCtr := rfl
@[simp] theorem State.emit_reply (s : State) (o : Out) : (s.emit o).reply = s.reply := rfl
@[simp] theorem State.emit_pending (s : State) (o : Out) : (s.emit o).pending = s.pending := rfl

/-! ### zeroTime -/

@[simp] theorem State.zeroTime_part (s : State) (p : Nat → Bool) : (s.zeroTime p).part = s.part := rfl
@[simp] theorem State.zeroTime_regs (s : State) (p : Nat → Bool) : (s.zeroTime p).regs = s.regs := rfl
@[simp] theorem State.zeroTime_latch (s : State) (p : Nat → Bool) : (s.zeroTime p).latch = s.latch := rfl
@[simp] theorem State.zeroTime_wbuf (s : State) (p : Nat → Bool) : (s.zeroTime p).wbuf = s.wbuf := rfl
@[simp] theorem State.zeroTime_mem (s : State) (p : Nat → Bool) : (s.zeroTime p).mem = s.mem := rfl
@[simp] theorem State.zeroTime_hubMem (s : State) (p : Nat → Bool) : (s.zeroTime p).hubMem = s.hubMem := rfl
@[simp] theorem State.zeroTime_ecc (s : State) (p : Nat → Bool) : (s.zeroTime p).ecc = s.ecc := rfl
@[simp] theorem State.zeroTime_d2d (s : State) (p : Nat → Bool) : (s.zeroTime p).d2d = s.d2d := rfl
@[simp] theorem State.zeroTime_banks (s : State) (p : Nat → Bool) : (s.zeroTime p).banks = s.banks := rfl
@[simp] theorem State.zeroTime_granule (s : State) (p : Nat → Bool) : (s.zeroTime p).granule = s.granule := rfl
@[simp] theorem State.zeroTime_major (s : State) (p : Nat → Bool) : (s.zeroTime p).major = s.major := rfl
@[simp] theorem State.zeroTime_minor (s : State) (p : Nat → Bool) : (s.zeroTime p).minor = s.minor := rfl
@[simp] theorem State.zeroTime_crypt (s : State) (p : Nat → Bool) : (s.zeroTime p).crypt = s.crypt := rfl
@[simp] theorem State.zeroTime_badLine (s : State) (p : Nat → Bool) : (s.zeroTime p).badLine = s.badLine := rfl
@[simp] theorem State.zeroTime_badNode (s : State) (p : Nat → Bool) : (s.zeroTime p).badNode = s.badNode := rfl
@[simp] theorem State.zeroTime_dirty (s : State) (p : Nat → Bool) : (s.zeroTime p).dirty = s.dirty := rfl
@[simp] theorem State.zeroTime_cached (s : State) (p : Nat → Bool) : (s.zeroTime p).cached = s.cached := rfl
@[simp] theorem State.zeroTime_nodeCnt (s : State) (p : Nat → Bool) : (s.zeroTime p).nodeCnt = s.nodeCnt := rfl
@[simp] theorem State.zeroTime_passAt (s : State) (p : Nat → Bool) : (s.zeroTime p).passAt = s.passAt := rfl
@[simp] theorem State.zeroTime_patrol (s : State) (p : Nat → Bool) : (s.zeroTime p).patrol = s.patrol := rfl
@[simp] theorem State.zeroTime_stages (s : State) (p : Nat → Bool) : (s.zeroTime p).stages = s.stages := rfl
@[simp] theorem State.zeroTime_strands (s : State) (p : Nat → Bool) : (s.zeroTime p).strands = s.strands := rfl
@[simp] theorem State.zeroTime_seeds (s : State) (p : Nat → Bool) : (s.zeroTime p).seeds = s.seeds := rfl
@[simp] theorem State.zeroTime_seedShard (s : State) (p : Nat → Bool) : (s.zeroTime p).seedShard = s.seedShard := rfl
@[simp] theorem State.zeroTime_seedBuf (s : State) (p : Nat → Bool) : (s.zeroTime p).seedBuf = s.seedBuf := rfl
@[simp] theorem State.zeroTime_queues (s : State) (p : Nat → Bool) : (s.zeroTime p).queues = s.queues := rfl
@[simp] theorem State.zeroTime_psets (s : State) (p : Nat → Bool) : (s.zeroTime p).psets = s.psets := rfl
@[simp] theorem State.zeroTime_evk (s : State) (p : Nat → Bool) : (s.zeroTime p).evk = s.evk := rfl
@[simp] theorem State.zeroTime_loads (s : State) (p : Nat → Bool) : (s.zeroTime p).loads = s.loads := rfl
@[simp] theorem State.zeroTime_ctxs (s : State) (p : Nat → Bool) : (s.zeroTime p).ctxs = s.ctxs := rfl
@[simp] theorem State.zeroTime_rounds (s : State) (p : Nat → Bool) : (s.zeroTime p).rounds = s.rounds := rfl
@[simp] theorem State.zeroTime_sess (s : State) (p : Nat → Bool) : (s.zeroTime p).sess = s.sess := rfl
@[simp] theorem State.zeroTime_est (s : State) (p : Nat → Bool) : (s.zeroTime p).est = s.est := rfl
@[simp] theorem State.zeroTime_lanes (s : State) (p : Nat → Bool) : (s.zeroTime p).lanes = s.lanes := rfl
@[simp] theorem State.zeroTime_bundles (s : State) (p : Nat → Bool) : (s.zeroTime p).bundles = s.bundles := rfl
@[simp] theorem State.zeroTime_router (s : State) (p : Nat → Bool) : (s.zeroTime p).router = s.router := rfl
@[simp] theorem State.zeroTime_fst (s : State) (p : Nat → Bool) : (s.zeroTime p).fst = s.fst := rfl
@[simp] theorem State.zeroTime_fstLost (s : State) (p : Nat → Bool) : (s.zeroTime p).fstLost = s.fstLost := rfl
@[simp] theorem State.zeroTime_slots (s : State) (p : Nat → Bool) : (s.zeroTime p).slots = s.slots := rfl
@[simp] theorem State.zeroTime_sealed (s : State) (p : Nat → Bool) : (s.zeroTime p).sealed = s.sealed := rfl
@[simp] theorem State.zeroTime_conns (s : State) (p : Nat → Bool) : (s.zeroTime p).conns = s.conns := rfl
@[simp] theorem State.zeroTime_regions (s : State) (p : Nat → Bool) : (s.zeroTime p).regions = s.regions := rfl
@[simp] theorem State.zeroTime_barInst (s : State) (p : Nat → Bool) : (s.zeroTime p).barInst = s.barInst := rfl
@[simp] theorem State.zeroTime_barMods (s : State) (p : Nat → Bool) : (s.zeroTime p).barMods = s.barMods := rfl
@[simp] theorem State.zeroTime_phases (s : State) (p : Nat → Bool) : (s.zeroTime p).phases = s.phases := rfl
@[simp] theorem State.zeroTime_keys (s : State) (p : Nat → Bool) : (s.zeroTime p).keys = s.keys := rfl
@[simp] theorem State.zeroTime_pstate (s : State) (p : Nat → Bool) : (s.zeroTime p).pstate = s.pstate := rfl
@[simp] theorem State.zeroTime_hss (s : State) (p : Nat → Bool) : (s.zeroTime p).hss = s.hss := rfl
@[simp] theorem State.zeroTime_ent (s : State) (p : Nat → Bool) : (s.zeroTime p).ent = s.ent := rfl
@[simp] theorem State.zeroTime_pd (s : State) (p : Nat → Bool) : (s.zeroTime p).pd = s.pd := rfl
@[simp] theorem State.zeroTime_gov (s : State) (p : Nat → Bool) : (s.zeroTime p).gov = s.gov := rfl
@[simp] theorem State.zeroTime_pins (s : State) (p : Nat → Bool) : (s.zeroTime p).pins = s.pins := rfl
@[simp] theorem State.zeroTime_sup (s : State) (p : Nat → Bool) : (s.zeroTime p).sup = s.sup := rfl
@[simp] theorem State.zeroTime_boot (s : State) (p : Nat → Bool) : (s.zeroTime p).boot = s.boot := rfl
@[simp] theorem State.zeroTime_mgmt (s : State) (p : Nat → Bool) : (s.zeroTime p).mgmt = s.mgmt := rfl
@[simp] theorem State.zeroTime_hub (s : State) (p : Nat → Bool) : (s.zeroTime p).hub = s.hub := rfl
@[simp] theorem State.zeroTime_tests (s : State) (p : Nat → Bool) : (s.zeroTime p).tests = s.tests := rfl
@[simp] theorem State.zeroTime_evSeq (s : State) (p : Nat → Bool) : (s.zeroTime p).evSeq = s.evSeq := rfl
@[simp] theorem State.zeroTime_freeCtr (s : State) (p : Nat → Bool) : (s.zeroTime p).freeCtr = s.freeCtr := rfl
@[simp] theorem State.zeroTime_reply (s : State) (p : Nat → Bool) : (s.zeroTime p).reply = s.reply := rfl
@[simp] theorem State.zeroTime_out (s : State) (p : Nat → Bool) : (s.zeroTime p).out = s.out := rfl
@[simp] theorem State.zeroTime_pending (s : State) (p : Nat → Bool) : (s.zeroTime p).pending = s.pending := rfl

/-! ### setStage -/

@[simp] theorem State.setStage_part (s : State) (i : Nat) (x : Stage) : (s.setStage i x).part = s.part := rfl
@[simp] theorem State.setStage_regs (s : State) (i : Nat) (x : Stage) : (s.setStage i x).regs = s.regs := rfl
@[simp] theorem State.setStage_latch (s : State) (i : Nat) (x : Stage) : (s.setStage i x).latch = s.latch := rfl
@[simp] theorem State.setStage_wbuf (s : State) (i : Nat) (x : Stage) : (s.setStage i x).wbuf = s.wbuf := rfl
@[simp] theorem State.setStage_time (s : State) (i : Nat) (x : Stage) : (s.setStage i x).time = s.time := rfl
@[simp] theorem State.setStage_mem (s : State) (i : Nat) (x : Stage) : (s.setStage i x).mem = s.mem := rfl
@[simp] theorem State.setStage_hubMem (s : State) (i : Nat) (x : Stage) : (s.setStage i x).hubMem = s.hubMem := rfl
@[simp] theorem State.setStage_ecc (s : State) (i : Nat) (x : Stage) : (s.setStage i x).ecc = s.ecc := rfl
@[simp] theorem State.setStage_d2d (s : State) (i : Nat) (x : Stage) : (s.setStage i x).d2d = s.d2d := rfl
@[simp] theorem State.setStage_banks (s : State) (i : Nat) (x : Stage) : (s.setStage i x).banks = s.banks := rfl
@[simp] theorem State.setStage_granule (s : State) (i : Nat) (x : Stage) : (s.setStage i x).granule = s.granule := rfl
@[simp] theorem State.setStage_major (s : State) (i : Nat) (x : Stage) : (s.setStage i x).major = s.major := rfl
@[simp] theorem State.setStage_minor (s : State) (i : Nat) (x : Stage) : (s.setStage i x).minor = s.minor := rfl
@[simp] theorem State.setStage_crypt (s : State) (i : Nat) (x : Stage) : (s.setStage i x).crypt = s.crypt := rfl
@[simp] theorem State.setStage_badLine (s : State) (i : Nat) (x : Stage) : (s.setStage i x).badLine = s.badLine := rfl
@[simp] theorem State.setStage_badNode (s : State) (i : Nat) (x : Stage) : (s.setStage i x).badNode = s.badNode := rfl
@[simp] theorem State.setStage_dirty (s : State) (i : Nat) (x : Stage) : (s.setStage i x).dirty = s.dirty := rfl
@[simp] theorem State.setStage_cached (s : State) (i : Nat) (x : Stage) : (s.setStage i x).cached = s.cached := rfl
@[simp] theorem State.setStage_nodeCnt (s : State) (i : Nat) (x : Stage) : (s.setStage i x).nodeCnt = s.nodeCnt := rfl
@[simp] theorem State.setStage_passAt (s : State) (i : Nat) (x : Stage) : (s.setStage i x).passAt = s.passAt := rfl
@[simp] theorem State.setStage_patrol (s : State) (i : Nat) (x : Stage) : (s.setStage i x).patrol = s.patrol := rfl
@[simp] theorem State.setStage_strands (s : State) (i : Nat) (x : Stage) : (s.setStage i x).strands = s.strands := rfl
@[simp] theorem State.setStage_seeds (s : State) (i : Nat) (x : Stage) : (s.setStage i x).seeds = s.seeds := rfl
@[simp] theorem State.setStage_seedShard (s : State) (i : Nat) (x : Stage) : (s.setStage i x).seedShard = s.seedShard := rfl
@[simp] theorem State.setStage_seedBuf (s : State) (i : Nat) (x : Stage) : (s.setStage i x).seedBuf = s.seedBuf := rfl
@[simp] theorem State.setStage_queues (s : State) (i : Nat) (x : Stage) : (s.setStage i x).queues = s.queues := rfl
@[simp] theorem State.setStage_psets (s : State) (i : Nat) (x : Stage) : (s.setStage i x).psets = s.psets := rfl
@[simp] theorem State.setStage_evk (s : State) (i : Nat) (x : Stage) : (s.setStage i x).evk = s.evk := rfl
@[simp] theorem State.setStage_loads (s : State) (i : Nat) (x : Stage) : (s.setStage i x).loads = s.loads := rfl
@[simp] theorem State.setStage_ctxs (s : State) (i : Nat) (x : Stage) : (s.setStage i x).ctxs = s.ctxs := rfl
@[simp] theorem State.setStage_rounds (s : State) (i : Nat) (x : Stage) : (s.setStage i x).rounds = s.rounds := rfl
@[simp] theorem State.setStage_sess (s : State) (i : Nat) (x : Stage) : (s.setStage i x).sess = s.sess := rfl
@[simp] theorem State.setStage_est (s : State) (i : Nat) (x : Stage) : (s.setStage i x).est = s.est := rfl
@[simp] theorem State.setStage_lanes (s : State) (i : Nat) (x : Stage) : (s.setStage i x).lanes = s.lanes := rfl
@[simp] theorem State.setStage_bundles (s : State) (i : Nat) (x : Stage) : (s.setStage i x).bundles = s.bundles := rfl
@[simp] theorem State.setStage_router (s : State) (i : Nat) (x : Stage) : (s.setStage i x).router = s.router := rfl
@[simp] theorem State.setStage_fst (s : State) (i : Nat) (x : Stage) : (s.setStage i x).fst = s.fst := rfl
@[simp] theorem State.setStage_fstLost (s : State) (i : Nat) (x : Stage) : (s.setStage i x).fstLost = s.fstLost := rfl
@[simp] theorem State.setStage_slots (s : State) (i : Nat) (x : Stage) : (s.setStage i x).slots = s.slots := rfl
@[simp] theorem State.setStage_sealed (s : State) (i : Nat) (x : Stage) : (s.setStage i x).sealed = s.sealed := rfl
@[simp] theorem State.setStage_conns (s : State) (i : Nat) (x : Stage) : (s.setStage i x).conns = s.conns := rfl
@[simp] theorem State.setStage_regions (s : State) (i : Nat) (x : Stage) : (s.setStage i x).regions = s.regions := rfl
@[simp] theorem State.setStage_barInst (s : State) (i : Nat) (x : Stage) : (s.setStage i x).barInst = s.barInst := rfl
@[simp] theorem State.setStage_barMods (s : State) (i : Nat) (x : Stage) : (s.setStage i x).barMods = s.barMods := rfl
@[simp] theorem State.setStage_phases (s : State) (i : Nat) (x : Stage) : (s.setStage i x).phases = s.phases := rfl
@[simp] theorem State.setStage_keys (s : State) (i : Nat) (x : Stage) : (s.setStage i x).keys = s.keys := rfl
@[simp] theorem State.setStage_pstate (s : State) (i : Nat) (x : Stage) : (s.setStage i x).pstate = s.pstate := rfl
@[simp] theorem State.setStage_hss (s : State) (i : Nat) (x : Stage) : (s.setStage i x).hss = s.hss := rfl
@[simp] theorem State.setStage_ent (s : State) (i : Nat) (x : Stage) : (s.setStage i x).ent = s.ent := rfl
@[simp] theorem State.setStage_pd (s : State) (i : Nat) (x : Stage) : (s.setStage i x).pd = s.pd := rfl
@[simp] theorem State.setStage_gov (s : State) (i : Nat) (x : Stage) : (s.setStage i x).gov = s.gov := rfl
@[simp] theorem State.setStage_pins (s : State) (i : Nat) (x : Stage) : (s.setStage i x).pins = s.pins := rfl
@[simp] theorem State.setStage_sup (s : State) (i : Nat) (x : Stage) : (s.setStage i x).sup = s.sup := rfl
@[simp] theorem State.setStage_boot (s : State) (i : Nat) (x : Stage) : (s.setStage i x).boot = s.boot := rfl
@[simp] theorem State.setStage_mgmt (s : State) (i : Nat) (x : Stage) : (s.setStage i x).mgmt = s.mgmt := rfl
@[simp] theorem State.setStage_hub (s : State) (i : Nat) (x : Stage) : (s.setStage i x).hub = s.hub := rfl
@[simp] theorem State.setStage_tests (s : State) (i : Nat) (x : Stage) : (s.setStage i x).tests = s.tests := rfl
@[simp] theorem State.setStage_evSeq (s : State) (i : Nat) (x : Stage) : (s.setStage i x).evSeq = s.evSeq := rfl
@[simp] theorem State.setStage_freeCtr (s : State) (i : Nat) (x : Stage) : (s.setStage i x).freeCtr = s.freeCtr := rfl
@[simp] theorem State.setStage_reply (s : State) (i : Nat) (x : Stage) : (s.setStage i x).reply = s.reply := rfl
@[simp] theorem State.setStage_out (s : State) (i : Nat) (x : Stage) : (s.setStage i x).out = s.out := rfl
@[simp] theorem State.setStage_pending (s : State) (i : Nat) (x : Stage) : (s.setStage i x).pending = s.pending := rfl

/-! ### setStrand -/

@[simp] theorem State.setStrand_part (s : State) (i : Nat) (x : Strand) : (s.setStrand i x).part = s.part := rfl
@[simp] theorem State.setStrand_regs (s : State) (i : Nat) (x : Strand) : (s.setStrand i x).regs = s.regs := rfl
@[simp] theorem State.setStrand_latch (s : State) (i : Nat) (x : Strand) : (s.setStrand i x).latch = s.latch := rfl
@[simp] theorem State.setStrand_wbuf (s : State) (i : Nat) (x : Strand) : (s.setStrand i x).wbuf = s.wbuf := rfl
@[simp] theorem State.setStrand_time (s : State) (i : Nat) (x : Strand) : (s.setStrand i x).time = s.time := rfl
@[simp] theorem State.setStrand_mem (s : State) (i : Nat) (x : Strand) : (s.setStrand i x).mem = s.mem := rfl
@[simp] theorem State.setStrand_hubMem (s : State) (i : Nat) (x : Strand) : (s.setStrand i x).hubMem = s.hubMem := rfl
@[simp] theorem State.setStrand_ecc (s : State) (i : Nat) (x : Strand) : (s.setStrand i x).ecc = s.ecc := rfl
@[simp] theorem State.setStrand_d2d (s : State) (i : Nat) (x : Strand) : (s.setStrand i x).d2d = s.d2d := rfl
@[simp] theorem State.setStrand_banks (s : State) (i : Nat) (x : Strand) : (s.setStrand i x).banks = s.banks := rfl
@[simp] theorem State.setStrand_granule (s : State) (i : Nat) (x : Strand) : (s.setStrand i x).granule = s.granule := rfl
@[simp] theorem State.setStrand_major (s : State) (i : Nat) (x : Strand) : (s.setStrand i x).major = s.major := rfl
@[simp] theorem State.setStrand_minor (s : State) (i : Nat) (x : Strand) : (s.setStrand i x).minor = s.minor := rfl
@[simp] theorem State.setStrand_crypt (s : State) (i : Nat) (x : Strand) : (s.setStrand i x).crypt = s.crypt := rfl
@[simp] theorem State.setStrand_badLine (s : State) (i : Nat) (x : Strand) : (s.setStrand i x).badLine = s.badLine := rfl
@[simp] theorem State.setStrand_badNode (s : State) (i : Nat) (x : Strand) : (s.setStrand i x).badNode = s.badNode := rfl
@[simp] theorem State.setStrand_dirty (s : State) (i : Nat) (x : Strand) : (s.setStrand i x).dirty = s.dirty := rfl
@[simp] theorem State.setStrand_cached (s : State) (i : Nat) (x : Strand) : (s.setStrand i x).cached = s.cached := rfl
@[simp] theorem State.setStrand_nodeCnt (s : State) (i : Nat) (x : Strand) : (s.setStrand i x).nodeCnt = s.nodeCnt := rfl
@[simp] theorem State.setStrand_passAt (s : State) (i : Nat) (x : Strand) : (s.setStrand i x).passAt = s.passAt := rfl
@[simp] theorem State.setStrand_patrol (s : State) (i : Nat) (x : Strand) : (s.setStrand i x).patrol = s.patrol := rfl
@[simp] theorem State.setStrand_stages (s : State) (i : Nat) (x : Strand) : (s.setStrand i x).stages = s.stages := rfl
@[simp] theorem State.setStrand_seeds (s : State) (i : Nat) (x : Strand) : (s.setStrand i x).seeds = s.seeds := rfl
@[simp] theorem State.setStrand_seedShard (s : State) (i : Nat) (x : Strand) : (s.setStrand i x).seedShard = s.seedShard := rfl
@[simp] theorem State.setStrand_seedBuf (s : State) (i : Nat) (x : Strand) : (s.setStrand i x).seedBuf = s.seedBuf := rfl
@[simp] theorem State.setStrand_queues (s : State) (i : Nat) (x : Strand) : (s.setStrand i x).queues = s.queues := rfl
@[simp] theorem State.setStrand_psets (s : State) (i : Nat) (x : Strand) : (s.setStrand i x).psets = s.psets := rfl
@[simp] theorem State.setStrand_evk (s : State) (i : Nat) (x : Strand) : (s.setStrand i x).evk = s.evk := rfl
@[simp] theorem State.setStrand_loads (s : State) (i : Nat) (x : Strand) : (s.setStrand i x).loads = s.loads := rfl
@[simp] theorem State.setStrand_ctxs (s : State) (i : Nat) (x : Strand) : (s.setStrand i x).ctxs = s.ctxs := rfl
@[simp] theorem State.setStrand_rounds (s : State) (i : Nat) (x : Strand) : (s.setStrand i x).rounds = s.rounds := rfl
@[simp] theorem State.setStrand_sess (s : State) (i : Nat) (x : Strand) : (s.setStrand i x).sess = s.sess := rfl
@[simp] theorem State.setStrand_est (s : State) (i : Nat) (x : Strand) : (s.setStrand i x).est = s.est := rfl
@[simp] theorem State.setStrand_lanes (s : State) (i : Nat) (x : Strand) : (s.setStrand i x).lanes = s.lanes := rfl
@[simp] theorem State.setStrand_bundles (s : State) (i : Nat) (x : Strand) : (s.setStrand i x).bundles = s.bundles := rfl
@[simp] theorem State.setStrand_router (s : State) (i : Nat) (x : Strand) : (s.setStrand i x).router = s.router := rfl
@[simp] theorem State.setStrand_fst (s : State) (i : Nat) (x : Strand) : (s.setStrand i x).fst = s.fst := rfl
@[simp] theorem State.setStrand_fstLost (s : State) (i : Nat) (x : Strand) : (s.setStrand i x).fstLost = s.fstLost := rfl
@[simp] theorem State.setStrand_slots (s : State) (i : Nat) (x : Strand) : (s.setStrand i x).slots = s.slots := rfl
@[simp] theorem State.setStrand_sealed (s : State) (i : Nat) (x : Strand) : (s.setStrand i x).sealed = s.sealed := rfl
@[simp] theorem State.setStrand_conns (s : State) (i : Nat) (x : Strand) : (s.setStrand i x).conns = s.conns := rfl
@[simp] theorem State.setStrand_regions (s : State) (i : Nat) (x : Strand) : (s.setStrand i x).regions = s.regions := rfl
@[simp] theorem State.setStrand_barInst (s : State) (i : Nat) (x : Strand) : (s.setStrand i x).barInst = s.barInst := rfl
@[simp] theorem State.setStrand_barMods (s : State) (i : Nat) (x : Strand) : (s.setStrand i x).barMods = s.barMods := rfl
@[simp] theorem State.setStrand_phases (s : State) (i : Nat) (x : Strand) : (s.setStrand i x).phases = s.phases := rfl
@[simp] theorem State.setStrand_keys (s : State) (i : Nat) (x : Strand) : (s.setStrand i x).keys = s.keys := rfl
@[simp] theorem State.setStrand_pstate (s : State) (i : Nat) (x : Strand) : (s.setStrand i x).pstate = s.pstate := rfl
@[simp] theorem State.setStrand_hss (s : State) (i : Nat) (x : Strand) : (s.setStrand i x).hss = s.hss := rfl
@[simp] theorem State.setStrand_ent (s : State) (i : Nat) (x : Strand) : (s.setStrand i x).ent = s.ent := rfl
@[simp] theorem State.setStrand_pd (s : State) (i : Nat) (x : Strand) : (s.setStrand i x).pd = s.pd := rfl
@[simp] theorem State.setStrand_gov (s : State) (i : Nat) (x : Strand) : (s.setStrand i x).gov = s.gov := rfl
@[simp] theorem State.setStrand_pins (s : State) (i : Nat) (x : Strand) : (s.setStrand i x).pins = s.pins := rfl
@[simp] theorem State.setStrand_sup (s : State) (i : Nat) (x : Strand) : (s.setStrand i x).sup = s.sup := rfl
@[simp] theorem State.setStrand_boot (s : State) (i : Nat) (x : Strand) : (s.setStrand i x).boot = s.boot := rfl
@[simp] theorem State.setStrand_mgmt (s : State) (i : Nat) (x : Strand) : (s.setStrand i x).mgmt = s.mgmt := rfl
@[simp] theorem State.setStrand_hub (s : State) (i : Nat) (x : Strand) : (s.setStrand i x).hub = s.hub := rfl
@[simp] theorem State.setStrand_tests (s : State) (i : Nat) (x : Strand) : (s.setStrand i x).tests = s.tests := rfl
@[simp] theorem State.setStrand_evSeq (s : State) (i : Nat) (x : Strand) : (s.setStrand i x).evSeq = s.evSeq := rfl
@[simp] theorem State.setStrand_freeCtr (s : State) (i : Nat) (x : Strand) : (s.setStrand i x).freeCtr = s.freeCtr := rfl
@[simp] theorem State.setStrand_reply (s : State) (i : Nat) (x : Strand) : (s.setStrand i x).reply = s.reply := rfl
@[simp] theorem State.setStrand_out (s : State) (i : Nat) (x : Strand) : (s.setStrand i x).out = s.out := rfl
@[simp] theorem State.setStrand_pending (s : State) (i : Nat) (x : Strand) : (s.setStrand i x).pending = s.pending := rfl

/-! ### setSst -/

@[simp] theorem State.setSst_part (s : State) (d st x : Nat) : (s.setSst d st x).part = s.part := State.setFld_part s _ 31 29 x
@[simp] theorem State.setSst_latch (s : State) (d st x : Nat) : (s.setSst d st x).latch = s.latch := State.setFld_latch s _ 31 29 x
@[simp] theorem State.setSst_wbuf (s : State) (d st x : Nat) : (s.setSst d st x).wbuf = s.wbuf := State.setFld_wbuf s _ 31 29 x
@[simp] theorem State.setSst_time (s : State) (d st x : Nat) : (s.setSst d st x).time = s.time := State.setFld_time s _ 31 29 x
@[simp] theorem State.setSst_mem (s : State) (d st x : Nat) : (s.setSst d st x).mem = s.mem := State.setFld_mem s _ 31 29 x
@[simp] theorem State.setSst_hubMem (s : State) (d st x : Nat) : (s.setSst d st x).hubMem = s.hubMem := State.setFld_hubMem s _ 31 29 x
@[simp] theorem State.setSst_ecc (s : State) (d st x : Nat) : (s.setSst d st x).ecc = s.ecc := State.setFld_ecc s _ 31 29 x
@[simp] theorem State.setSst_d2d (s : State) (d st x : Nat) : (s.setSst d st x).d2d = s.d2d := State.setFld_d2d s _ 31 29 x
@[simp] theorem State.setSst_banks (s : State) (d st x : Nat) : (s.setSst d st x).banks = s.banks := State.setFld_banks s _ 31 29 x
@[simp] theorem State.setSst_granule (s : State) (d st x : Nat) : (s.setSst d st x).granule = s.granule := State.setFld_granule s _ 31 29 x
@[simp] theorem State.setSst_major (s : State) (d st x : Nat) : (s.setSst d st x).major = s.major := State.setFld_major s _ 31 29 x
@[simp] theorem State.setSst_minor (s : State) (d st x : Nat) : (s.setSst d st x).minor = s.minor := State.setFld_minor s _ 31 29 x
@[simp] theorem State.setSst_crypt (s : State) (d st x : Nat) : (s.setSst d st x).crypt = s.crypt := State.setFld_crypt s _ 31 29 x
@[simp] theorem State.setSst_badLine (s : State) (d st x : Nat) : (s.setSst d st x).badLine = s.badLine := State.setFld_badLine s _ 31 29 x
@[simp] theorem State.setSst_badNode (s : State) (d st x : Nat) : (s.setSst d st x).badNode = s.badNode := State.setFld_badNode s _ 31 29 x
@[simp] theorem State.setSst_dirty (s : State) (d st x : Nat) : (s.setSst d st x).dirty = s.dirty := State.setFld_dirty s _ 31 29 x
@[simp] theorem State.setSst_cached (s : State) (d st x : Nat) : (s.setSst d st x).cached = s.cached := State.setFld_cached s _ 31 29 x
@[simp] theorem State.setSst_nodeCnt (s : State) (d st x : Nat) : (s.setSst d st x).nodeCnt = s.nodeCnt := State.setFld_nodeCnt s _ 31 29 x
@[simp] theorem State.setSst_passAt (s : State) (d st x : Nat) : (s.setSst d st x).passAt = s.passAt := State.setFld_passAt s _ 31 29 x
@[simp] theorem State.setSst_patrol (s : State) (d st x : Nat) : (s.setSst d st x).patrol = s.patrol := State.setFld_patrol s _ 31 29 x
@[simp] theorem State.setSst_stages (s : State) (d st x : Nat) : (s.setSst d st x).stages = s.stages := State.setFld_stages s _ 31 29 x
@[simp] theorem State.setSst_strands (s : State) (d st x : Nat) : (s.setSst d st x).strands = s.strands := State.setFld_strands s _ 31 29 x
@[simp] theorem State.setSst_seeds (s : State) (d st x : Nat) : (s.setSst d st x).seeds = s.seeds := State.setFld_seeds s _ 31 29 x
@[simp] theorem State.setSst_seedShard (s : State) (d st x : Nat) : (s.setSst d st x).seedShard = s.seedShard := State.setFld_seedShard s _ 31 29 x
@[simp] theorem State.setSst_seedBuf (s : State) (d st x : Nat) : (s.setSst d st x).seedBuf = s.seedBuf := State.setFld_seedBuf s _ 31 29 x
@[simp] theorem State.setSst_queues (s : State) (d st x : Nat) : (s.setSst d st x).queues = s.queues := State.setFld_queues s _ 31 29 x
@[simp] theorem State.setSst_psets (s : State) (d st x : Nat) : (s.setSst d st x).psets = s.psets := State.setFld_psets s _ 31 29 x
@[simp] theorem State.setSst_evk (s : State) (d st x : Nat) : (s.setSst d st x).evk = s.evk := State.setFld_evk s _ 31 29 x
@[simp] theorem State.setSst_loads (s : State) (d st x : Nat) : (s.setSst d st x).loads = s.loads := State.setFld_loads s _ 31 29 x
@[simp] theorem State.setSst_ctxs (s : State) (d st x : Nat) : (s.setSst d st x).ctxs = s.ctxs := State.setFld_ctxs s _ 31 29 x
@[simp] theorem State.setSst_rounds (s : State) (d st x : Nat) : (s.setSst d st x).rounds = s.rounds := State.setFld_rounds s _ 31 29 x
@[simp] theorem State.setSst_sess (s : State) (d st x : Nat) : (s.setSst d st x).sess = s.sess := State.setFld_sess s _ 31 29 x
@[simp] theorem State.setSst_est (s : State) (d st x : Nat) : (s.setSst d st x).est = s.est := State.setFld_est s _ 31 29 x
@[simp] theorem State.setSst_lanes (s : State) (d st x : Nat) : (s.setSst d st x).lanes = s.lanes := State.setFld_lanes s _ 31 29 x
@[simp] theorem State.setSst_bundles (s : State) (d st x : Nat) : (s.setSst d st x).bundles = s.bundles := State.setFld_bundles s _ 31 29 x
@[simp] theorem State.setSst_router (s : State) (d st x : Nat) : (s.setSst d st x).router = s.router := State.setFld_router s _ 31 29 x
@[simp] theorem State.setSst_fst (s : State) (d st x : Nat) : (s.setSst d st x).fst = s.fst := State.setFld_fst s _ 31 29 x
@[simp] theorem State.setSst_fstLost (s : State) (d st x : Nat) : (s.setSst d st x).fstLost = s.fstLost := State.setFld_fstLost s _ 31 29 x
@[simp] theorem State.setSst_slots (s : State) (d st x : Nat) : (s.setSst d st x).slots = s.slots := State.setFld_slots s _ 31 29 x
@[simp] theorem State.setSst_sealed (s : State) (d st x : Nat) : (s.setSst d st x).sealed = s.sealed := State.setFld_sealed s _ 31 29 x
@[simp] theorem State.setSst_conns (s : State) (d st x : Nat) : (s.setSst d st x).conns = s.conns := State.setFld_conns s _ 31 29 x
@[simp] theorem State.setSst_regions (s : State) (d st x : Nat) : (s.setSst d st x).regions = s.regions := State.setFld_regions s _ 31 29 x
@[simp] theorem State.setSst_barInst (s : State) (d st x : Nat) : (s.setSst d st x).barInst = s.barInst := State.setFld_barInst s _ 31 29 x
@[simp] theorem State.setSst_barMods (s : State) (d st x : Nat) : (s.setSst d st x).barMods = s.barMods := State.setFld_barMods s _ 31 29 x
@[simp] theorem State.setSst_phases (s : State) (d st x : Nat) : (s.setSst d st x).phases = s.phases := State.setFld_phases s _ 31 29 x
@[simp] theorem State.setSst_keys (s : State) (d st x : Nat) : (s.setSst d st x).keys = s.keys := State.setFld_keys s _ 31 29 x
@[simp] theorem State.setSst_pstate (s : State) (d st x : Nat) : (s.setSst d st x).pstate = s.pstate := State.setFld_pstate s _ 31 29 x
@[simp] theorem State.setSst_hss (s : State) (d st x : Nat) : (s.setSst d st x).hss = s.hss := State.setFld_hss s _ 31 29 x
@[simp] theorem State.setSst_ent (s : State) (d st x : Nat) : (s.setSst d st x).ent = s.ent := State.setFld_ent s _ 31 29 x
@[simp] theorem State.setSst_pd (s : State) (d st x : Nat) : (s.setSst d st x).pd = s.pd := State.setFld_pd s _ 31 29 x
@[simp] theorem State.setSst_gov (s : State) (d st x : Nat) : (s.setSst d st x).gov = s.gov := State.setFld_gov s _ 31 29 x
@[simp] theorem State.setSst_pins (s : State) (d st x : Nat) : (s.setSst d st x).pins = s.pins := State.setFld_pins s _ 31 29 x
@[simp] theorem State.setSst_sup (s : State) (d st x : Nat) : (s.setSst d st x).sup = s.sup := State.setFld_sup s _ 31 29 x
@[simp] theorem State.setSst_boot (s : State) (d st x : Nat) : (s.setSst d st x).boot = s.boot := State.setFld_boot s _ 31 29 x
@[simp] theorem State.setSst_mgmt (s : State) (d st x : Nat) : (s.setSst d st x).mgmt = s.mgmt := State.setFld_mgmt s _ 31 29 x
@[simp] theorem State.setSst_hub (s : State) (d st x : Nat) : (s.setSst d st x).hub = s.hub := State.setFld_hub s _ 31 29 x
@[simp] theorem State.setSst_tests (s : State) (d st x : Nat) : (s.setSst d st x).tests = s.tests := State.setFld_tests s _ 31 29 x
@[simp] theorem State.setSst_evSeq (s : State) (d st x : Nat) : (s.setSst d st x).evSeq = s.evSeq := State.setFld_evSeq s _ 31 29 x
@[simp] theorem State.setSst_freeCtr (s : State) (d st x : Nat) : (s.setSst d st x).freeCtr = s.freeCtr := State.setFld_freeCtr s _ 31 29 x
@[simp] theorem State.setSst_reply (s : State) (d st x : Nat) : (s.setSst d st x).reply = s.reply := State.setFld_reply s _ 31 29 x
@[simp] theorem State.setSst_out (s : State) (d st x : Nat) : (s.setSst d st x).out = s.out := State.setFld_out s _ 31 29 x
@[simp] theorem State.setSst_pending (s : State) (d st x : Nat) : (s.setSst d st x).pending = s.pending := State.setFld_pending s _ 31 29 x

/-! ### setQueue -/

@[simp] theorem State.setQueue_part (s : State) (q : Nat) (x : PktQ) : (s.setQueue q x).part = s.part := rfl
@[simp] theorem State.setQueue_regs (s : State) (q : Nat) (x : PktQ) : (s.setQueue q x).regs = s.regs := rfl
@[simp] theorem State.setQueue_latch (s : State) (q : Nat) (x : PktQ) : (s.setQueue q x).latch = s.latch := rfl
@[simp] theorem State.setQueue_wbuf (s : State) (q : Nat) (x : PktQ) : (s.setQueue q x).wbuf = s.wbuf := rfl
@[simp] theorem State.setQueue_time (s : State) (q : Nat) (x : PktQ) : (s.setQueue q x).time = s.time := rfl
@[simp] theorem State.setQueue_mem (s : State) (q : Nat) (x : PktQ) : (s.setQueue q x).mem = s.mem := rfl
@[simp] theorem State.setQueue_hubMem (s : State) (q : Nat) (x : PktQ) : (s.setQueue q x).hubMem = s.hubMem := rfl
@[simp] theorem State.setQueue_ecc (s : State) (q : Nat) (x : PktQ) : (s.setQueue q x).ecc = s.ecc := rfl
@[simp] theorem State.setQueue_d2d (s : State) (q : Nat) (x : PktQ) : (s.setQueue q x).d2d = s.d2d := rfl
@[simp] theorem State.setQueue_banks (s : State) (q : Nat) (x : PktQ) : (s.setQueue q x).banks = s.banks := rfl
@[simp] theorem State.setQueue_granule (s : State) (q : Nat) (x : PktQ) : (s.setQueue q x).granule = s.granule := rfl
@[simp] theorem State.setQueue_major (s : State) (q : Nat) (x : PktQ) : (s.setQueue q x).major = s.major := rfl
@[simp] theorem State.setQueue_minor (s : State) (q : Nat) (x : PktQ) : (s.setQueue q x).minor = s.minor := rfl
@[simp] theorem State.setQueue_crypt (s : State) (q : Nat) (x : PktQ) : (s.setQueue q x).crypt = s.crypt := rfl
@[simp] theorem State.setQueue_badLine (s : State) (q : Nat) (x : PktQ) : (s.setQueue q x).badLine = s.badLine := rfl
@[simp] theorem State.setQueue_badNode (s : State) (q : Nat) (x : PktQ) : (s.setQueue q x).badNode = s.badNode := rfl
@[simp] theorem State.setQueue_dirty (s : State) (q : Nat) (x : PktQ) : (s.setQueue q x).dirty = s.dirty := rfl
@[simp] theorem State.setQueue_cached (s : State) (q : Nat) (x : PktQ) : (s.setQueue q x).cached = s.cached := rfl
@[simp] theorem State.setQueue_nodeCnt (s : State) (q : Nat) (x : PktQ) : (s.setQueue q x).nodeCnt = s.nodeCnt := rfl
@[simp] theorem State.setQueue_passAt (s : State) (q : Nat) (x : PktQ) : (s.setQueue q x).passAt = s.passAt := rfl
@[simp] theorem State.setQueue_patrol (s : State) (q : Nat) (x : PktQ) : (s.setQueue q x).patrol = s.patrol := rfl
@[simp] theorem State.setQueue_stages (s : State) (q : Nat) (x : PktQ) : (s.setQueue q x).stages = s.stages := rfl
@[simp] theorem State.setQueue_strands (s : State) (q : Nat) (x : PktQ) : (s.setQueue q x).strands = s.strands := rfl
@[simp] theorem State.setQueue_seeds (s : State) (q : Nat) (x : PktQ) : (s.setQueue q x).seeds = s.seeds := rfl
@[simp] theorem State.setQueue_seedShard (s : State) (q : Nat) (x : PktQ) : (s.setQueue q x).seedShard = s.seedShard := rfl
@[simp] theorem State.setQueue_seedBuf (s : State) (q : Nat) (x : PktQ) : (s.setQueue q x).seedBuf = s.seedBuf := rfl
@[simp] theorem State.setQueue_psets (s : State) (q : Nat) (x : PktQ) : (s.setQueue q x).psets = s.psets := rfl
@[simp] theorem State.setQueue_evk (s : State) (q : Nat) (x : PktQ) : (s.setQueue q x).evk = s.evk := rfl
@[simp] theorem State.setQueue_loads (s : State) (q : Nat) (x : PktQ) : (s.setQueue q x).loads = s.loads := rfl
@[simp] theorem State.setQueue_ctxs (s : State) (q : Nat) (x : PktQ) : (s.setQueue q x).ctxs = s.ctxs := rfl
@[simp] theorem State.setQueue_rounds (s : State) (q : Nat) (x : PktQ) : (s.setQueue q x).rounds = s.rounds := rfl
@[simp] theorem State.setQueue_sess (s : State) (q : Nat) (x : PktQ) : (s.setQueue q x).sess = s.sess := rfl
@[simp] theorem State.setQueue_est (s : State) (q : Nat) (x : PktQ) : (s.setQueue q x).est = s.est := rfl
@[simp] theorem State.setQueue_lanes (s : State) (q : Nat) (x : PktQ) : (s.setQueue q x).lanes = s.lanes := rfl
@[simp] theorem State.setQueue_bundles (s : State) (q : Nat) (x : PktQ) : (s.setQueue q x).bundles = s.bundles := rfl
@[simp] theorem State.setQueue_router (s : State) (q : Nat) (x : PktQ) : (s.setQueue q x).router = s.router := rfl
@[simp] theorem State.setQueue_fst (s : State) (q : Nat) (x : PktQ) : (s.setQueue q x).fst = s.fst := rfl
@[simp] theorem State.setQueue_fstLost (s : State) (q : Nat) (x : PktQ) : (s.setQueue q x).fstLost = s.fstLost := rfl
@[simp] theorem State.setQueue_slots (s : State) (q : Nat) (x : PktQ) : (s.setQueue q x).slots = s.slots := rfl
@[simp] theorem State.setQueue_sealed (s : State) (q : Nat) (x : PktQ) : (s.setQueue q x).sealed = s.sealed := rfl
@[simp] theorem State.setQueue_conns (s : State) (q : Nat) (x : PktQ) : (s.setQueue q x).conns = s.conns := rfl
@[simp] theorem State.setQueue_regions (s : State) (q : Nat) (x : PktQ) : (s.setQueue q x).regions = s.regions := rfl
@[simp] theorem State.setQueue_barInst (s : State) (q : Nat) (x : PktQ) : (s.setQueue q x).barInst = s.barInst := rfl
@[simp] theorem State.setQueue_barMods (s : State) (q : Nat) (x : PktQ) : (s.setQueue q x).barMods = s.barMods := rfl
@[simp] theorem State.setQueue_phases (s : State) (q : Nat) (x : PktQ) : (s.setQueue q x).phases = s.phases := rfl
@[simp] theorem State.setQueue_keys (s : State) (q : Nat) (x : PktQ) : (s.setQueue q x).keys = s.keys := rfl
@[simp] theorem State.setQueue_pstate (s : State) (q : Nat) (x : PktQ) : (s.setQueue q x).pstate = s.pstate := rfl
@[simp] theorem State.setQueue_hss (s : State) (q : Nat) (x : PktQ) : (s.setQueue q x).hss = s.hss := rfl
@[simp] theorem State.setQueue_ent (s : State) (q : Nat) (x : PktQ) : (s.setQueue q x).ent = s.ent := rfl
@[simp] theorem State.setQueue_pd (s : State) (q : Nat) (x : PktQ) : (s.setQueue q x).pd = s.pd := rfl
@[simp] theorem State.setQueue_gov (s : State) (q : Nat) (x : PktQ) : (s.setQueue q x).gov = s.gov := rfl
@[simp] theorem State.setQueue_pins (s : State) (q : Nat) (x : PktQ) : (s.setQueue q x).pins = s.pins := rfl
@[simp] theorem State.setQueue_sup (s : State) (q : Nat) (x : PktQ) : (s.setQueue q x).sup = s.sup := rfl
@[simp] theorem State.setQueue_boot (s : State) (q : Nat) (x : PktQ) : (s.setQueue q x).boot = s.boot := rfl
@[simp] theorem State.setQueue_mgmt (s : State) (q : Nat) (x : PktQ) : (s.setQueue q x).mgmt = s.mgmt := rfl
@[simp] theorem State.setQueue_hub (s : State) (q : Nat) (x : PktQ) : (s.setQueue q x).hub = s.hub := rfl
@[simp] theorem State.setQueue_tests (s : State) (q : Nat) (x : PktQ) : (s.setQueue q x).tests = s.tests := rfl
@[simp] theorem State.setQueue_evSeq (s : State) (q : Nat) (x : PktQ) : (s.setQueue q x).evSeq = s.evSeq := rfl
@[simp] theorem State.setQueue_freeCtr (s : State) (q : Nat) (x : PktQ) : (s.setQueue q x).freeCtr = s.freeCtr := rfl
@[simp] theorem State.setQueue_reply (s : State) (q : Nat) (x : PktQ) : (s.setQueue q x).reply = s.reply := rfl
@[simp] theorem State.setQueue_out (s : State) (q : Nat) (x : PktQ) : (s.setQueue q x).out = s.out := rfl
@[simp] theorem State.setQueue_pending (s : State) (q : Nat) (x : PktQ) : (s.setQueue q x).pending = s.pending := rfl

/-! ### setCtx -/

@[simp] theorem State.setCtx_part (s : State) (c : Nat) (x : CtxSt) : (s.setCtx c x).part = s.part := rfl
@[simp] theorem State.setCtx_regs (s : State) (c : Nat) (x : CtxSt) : (s.setCtx c x).regs = s.regs := rfl
@[simp] theorem State.setCtx_latch (s : State) (c : Nat) (x : CtxSt) : (s.setCtx c x).latch = s.latch := rfl
@[simp] theorem State.setCtx_wbuf (s : State) (c : Nat) (x : CtxSt) : (s.setCtx c x).wbuf = s.wbuf := rfl
@[simp] theorem State.setCtx_time (s : State) (c : Nat) (x : CtxSt) : (s.setCtx c x).time = s.time := rfl
@[simp] theorem State.setCtx_mem (s : State) (c : Nat) (x : CtxSt) : (s.setCtx c x).mem = s.mem := rfl
@[simp] theorem State.setCtx_hubMem (s : State) (c : Nat) (x : CtxSt) : (s.setCtx c x).hubMem = s.hubMem := rfl
@[simp] theorem State.setCtx_ecc (s : State) (c : Nat) (x : CtxSt) : (s.setCtx c x).ecc = s.ecc := rfl
@[simp] theorem State.setCtx_d2d (s : State) (c : Nat) (x : CtxSt) : (s.setCtx c x).d2d = s.d2d := rfl
@[simp] theorem State.setCtx_banks (s : State) (c : Nat) (x : CtxSt) : (s.setCtx c x).banks = s.banks := rfl
@[simp] theorem State.setCtx_granule (s : State) (c : Nat) (x : CtxSt) : (s.setCtx c x).granule = s.granule := rfl
@[simp] theorem State.setCtx_major (s : State) (c : Nat) (x : CtxSt) : (s.setCtx c x).major = s.major := rfl
@[simp] theorem State.setCtx_minor (s : State) (c : Nat) (x : CtxSt) : (s.setCtx c x).minor = s.minor := rfl
@[simp] theorem State.setCtx_crypt (s : State) (c : Nat) (x : CtxSt) : (s.setCtx c x).crypt = s.crypt := rfl
@[simp] theorem State.setCtx_badLine (s : State) (c : Nat) (x : CtxSt) : (s.setCtx c x).badLine = s.badLine := rfl
@[simp] theorem State.setCtx_badNode (s : State) (c : Nat) (x : CtxSt) : (s.setCtx c x).badNode = s.badNode := rfl
@[simp] theorem State.setCtx_dirty (s : State) (c : Nat) (x : CtxSt) : (s.setCtx c x).dirty = s.dirty := rfl
@[simp] theorem State.setCtx_cached (s : State) (c : Nat) (x : CtxSt) : (s.setCtx c x).cached = s.cached := rfl
@[simp] theorem State.setCtx_nodeCnt (s : State) (c : Nat) (x : CtxSt) : (s.setCtx c x).nodeCnt = s.nodeCnt := rfl
@[simp] theorem State.setCtx_passAt (s : State) (c : Nat) (x : CtxSt) : (s.setCtx c x).passAt = s.passAt := rfl
@[simp] theorem State.setCtx_patrol (s : State) (c : Nat) (x : CtxSt) : (s.setCtx c x).patrol = s.patrol := rfl
@[simp] theorem State.setCtx_stages (s : State) (c : Nat) (x : CtxSt) : (s.setCtx c x).stages = s.stages := rfl
@[simp] theorem State.setCtx_strands (s : State) (c : Nat) (x : CtxSt) : (s.setCtx c x).strands = s.strands := rfl
@[simp] theorem State.setCtx_seeds (s : State) (c : Nat) (x : CtxSt) : (s.setCtx c x).seeds = s.seeds := rfl
@[simp] theorem State.setCtx_seedShard (s : State) (c : Nat) (x : CtxSt) : (s.setCtx c x).seedShard = s.seedShard := rfl
@[simp] theorem State.setCtx_seedBuf (s : State) (c : Nat) (x : CtxSt) : (s.setCtx c x).seedBuf = s.seedBuf := rfl
@[simp] theorem State.setCtx_queues (s : State) (c : Nat) (x : CtxSt) : (s.setCtx c x).queues = s.queues := rfl
@[simp] theorem State.setCtx_psets (s : State) (c : Nat) (x : CtxSt) : (s.setCtx c x).psets = s.psets := rfl
@[simp] theorem State.setCtx_evk (s : State) (c : Nat) (x : CtxSt) : (s.setCtx c x).evk = s.evk := rfl
@[simp] theorem State.setCtx_loads (s : State) (c : Nat) (x : CtxSt) : (s.setCtx c x).loads = s.loads := rfl
@[simp] theorem State.setCtx_rounds (s : State) (c : Nat) (x : CtxSt) : (s.setCtx c x).rounds = s.rounds := rfl
@[simp] theorem State.setCtx_sess (s : State) (c : Nat) (x : CtxSt) : (s.setCtx c x).sess = s.sess := rfl
@[simp] theorem State.setCtx_est (s : State) (c : Nat) (x : CtxSt) : (s.setCtx c x).est = s.est := rfl
@[simp] theorem State.setCtx_lanes (s : State) (c : Nat) (x : CtxSt) : (s.setCtx c x).lanes = s.lanes := rfl
@[simp] theorem State.setCtx_bundles (s : State) (c : Nat) (x : CtxSt) : (s.setCtx c x).bundles = s.bundles := rfl
@[simp] theorem State.setCtx_router (s : State) (c : Nat) (x : CtxSt) : (s.setCtx c x).router = s.router := rfl
@[simp] theorem State.setCtx_fst (s : State) (c : Nat) (x : CtxSt) : (s.setCtx c x).fst = s.fst := rfl
@[simp] theorem State.setCtx_fstLost (s : State) (c : Nat) (x : CtxSt) : (s.setCtx c x).fstLost = s.fstLost := rfl
@[simp] theorem State.setCtx_slots (s : State) (c : Nat) (x : CtxSt) : (s.setCtx c x).slots = s.slots := rfl
@[simp] theorem State.setCtx_sealed (s : State) (c : Nat) (x : CtxSt) : (s.setCtx c x).sealed = s.sealed := rfl
@[simp] theorem State.setCtx_conns (s : State) (c : Nat) (x : CtxSt) : (s.setCtx c x).conns = s.conns := rfl
@[simp] theorem State.setCtx_regions (s : State) (c : Nat) (x : CtxSt) : (s.setCtx c x).regions = s.regions := rfl
@[simp] theorem State.setCtx_barInst (s : State) (c : Nat) (x : CtxSt) : (s.setCtx c x).barInst = s.barInst := rfl
@[simp] theorem State.setCtx_barMods (s : State) (c : Nat) (x : CtxSt) : (s.setCtx c x).barMods = s.barMods := rfl
@[simp] theorem State.setCtx_phases (s : State) (c : Nat) (x : CtxSt) : (s.setCtx c x).phases = s.phases := rfl
@[simp] theorem State.setCtx_keys (s : State) (c : Nat) (x : CtxSt) : (s.setCtx c x).keys = s.keys := rfl
@[simp] theorem State.setCtx_pstate (s : State) (c : Nat) (x : CtxSt) : (s.setCtx c x).pstate = s.pstate := rfl
@[simp] theorem State.setCtx_hss (s : State) (c : Nat) (x : CtxSt) : (s.setCtx c x).hss = s.hss := rfl
@[simp] theorem State.setCtx_ent (s : State) (c : Nat) (x : CtxSt) : (s.setCtx c x).ent = s.ent := rfl
@[simp] theorem State.setCtx_pd (s : State) (c : Nat) (x : CtxSt) : (s.setCtx c x).pd = s.pd := rfl
@[simp] theorem State.setCtx_gov (s : State) (c : Nat) (x : CtxSt) : (s.setCtx c x).gov = s.gov := rfl
@[simp] theorem State.setCtx_pins (s : State) (c : Nat) (x : CtxSt) : (s.setCtx c x).pins = s.pins := rfl
@[simp] theorem State.setCtx_sup (s : State) (c : Nat) (x : CtxSt) : (s.setCtx c x).sup = s.sup := rfl
@[simp] theorem State.setCtx_boot (s : State) (c : Nat) (x : CtxSt) : (s.setCtx c x).boot = s.boot := rfl
@[simp] theorem State.setCtx_mgmt (s : State) (c : Nat) (x : CtxSt) : (s.setCtx c x).mgmt = s.mgmt := rfl
@[simp] theorem State.setCtx_hub (s : State) (c : Nat) (x : CtxSt) : (s.setCtx c x).hub = s.hub := rfl
@[simp] theorem State.setCtx_tests (s : State) (c : Nat) (x : CtxSt) : (s.setCtx c x).tests = s.tests := rfl
@[simp] theorem State.setCtx_evSeq (s : State) (c : Nat) (x : CtxSt) : (s.setCtx c x).evSeq = s.evSeq := rfl
@[simp] theorem State.setCtx_freeCtr (s : State) (c : Nat) (x : CtxSt) : (s.setCtx c x).freeCtr = s.freeCtr := rfl
@[simp] theorem State.setCtx_reply (s : State) (c : Nat) (x : CtxSt) : (s.setCtx c x).reply = s.reply := rfl
@[simp] theorem State.setCtx_out (s : State) (c : Nat) (x : CtxSt) : (s.setCtx c x).out = s.out := rfl
@[simp] theorem State.setCtx_pending (s : State) (c : Nat) (x : CtxSt) : (s.setCtx c x).pending = s.pending := rfl

/-! ### setCst -/

@[simp] theorem State.setCst_part (s : State) (c x : Nat) : (s.setCst c x).part = s.part := State.setFld_part s _ 31 29 x
@[simp] theorem State.setCst_latch (s : State) (c x : Nat) : (s.setCst c x).latch = s.latch := State.setFld_latch s _ 31 29 x
@[simp] theorem State.setCst_wbuf (s : State) (c x : Nat) : (s.setCst c x).wbuf = s.wbuf := State.setFld_wbuf s _ 31 29 x
@[simp] theorem State.setCst_time (s : State) (c x : Nat) : (s.setCst c x).time = s.time := State.setFld_time s _ 31 29 x
@[simp] theorem State.setCst_mem (s : State) (c x : Nat) : (s.setCst c x).mem = s.mem := State.setFld_mem s _ 31 29 x
@[simp] theorem State.setCst_hubMem (s : State) (c x : Nat) : (s.setCst c x).hubMem = s.hubMem := State.setFld_hubMem s _ 31 29 x
@[simp] theorem State.setCst_ecc (s : State) (c x : Nat) : (s.setCst c x).ecc = s.ecc := State.setFld_ecc s _ 31 29 x
@[simp] theorem State.setCst_d2d (s : State) (c x : Nat) : (s.setCst c x).d2d = s.d2d := State.setFld_d2d s _ 31 29 x
@[simp] theorem State.setCst_banks (s : State) (c x : Nat) : (s.setCst c x).banks = s.banks := State.setFld_banks s _ 31 29 x
@[simp] theorem State.setCst_granule (s : State) (c x : Nat) : (s.setCst c x).granule = s.granule := State.setFld_granule s _ 31 29 x
@[simp] theorem State.setCst_major (s : State) (c x : Nat) : (s.setCst c x).major = s.major := State.setFld_major s _ 31 29 x
@[simp] theorem State.setCst_minor (s : State) (c x : Nat) : (s.setCst c x).minor = s.minor := State.setFld_minor s _ 31 29 x
@[simp] theorem State.setCst_crypt (s : State) (c x : Nat) : (s.setCst c x).crypt = s.crypt := State.setFld_crypt s _ 31 29 x
@[simp] theorem State.setCst_badLine (s : State) (c x : Nat) : (s.setCst c x).badLine = s.badLine := State.setFld_badLine s _ 31 29 x
@[simp] theorem State.setCst_badNode (s : State) (c x : Nat) : (s.setCst c x).badNode = s.badNode := State.setFld_badNode s _ 31 29 x
@[simp] theorem State.setCst_dirty (s : State) (c x : Nat) : (s.setCst c x).dirty = s.dirty := State.setFld_dirty s _ 31 29 x
@[simp] theorem State.setCst_cached (s : State) (c x : Nat) : (s.setCst c x).cached = s.cached := State.setFld_cached s _ 31 29 x
@[simp] theorem State.setCst_nodeCnt (s : State) (c x : Nat) : (s.setCst c x).nodeCnt = s.nodeCnt := State.setFld_nodeCnt s _ 31 29 x
@[simp] theorem State.setCst_passAt (s : State) (c x : Nat) : (s.setCst c x).passAt = s.passAt := State.setFld_passAt s _ 31 29 x
@[simp] theorem State.setCst_patrol (s : State) (c x : Nat) : (s.setCst c x).patrol = s.patrol := State.setFld_patrol s _ 31 29 x
@[simp] theorem State.setCst_stages (s : State) (c x : Nat) : (s.setCst c x).stages = s.stages := State.setFld_stages s _ 31 29 x
@[simp] theorem State.setCst_strands (s : State) (c x : Nat) : (s.setCst c x).strands = s.strands := State.setFld_strands s _ 31 29 x
@[simp] theorem State.setCst_seeds (s : State) (c x : Nat) : (s.setCst c x).seeds = s.seeds := State.setFld_seeds s _ 31 29 x
@[simp] theorem State.setCst_seedShard (s : State) (c x : Nat) : (s.setCst c x).seedShard = s.seedShard := State.setFld_seedShard s _ 31 29 x
@[simp] theorem State.setCst_seedBuf (s : State) (c x : Nat) : (s.setCst c x).seedBuf = s.seedBuf := State.setFld_seedBuf s _ 31 29 x
@[simp] theorem State.setCst_queues (s : State) (c x : Nat) : (s.setCst c x).queues = s.queues := State.setFld_queues s _ 31 29 x
@[simp] theorem State.setCst_psets (s : State) (c x : Nat) : (s.setCst c x).psets = s.psets := State.setFld_psets s _ 31 29 x
@[simp] theorem State.setCst_evk (s : State) (c x : Nat) : (s.setCst c x).evk = s.evk := State.setFld_evk s _ 31 29 x
@[simp] theorem State.setCst_loads (s : State) (c x : Nat) : (s.setCst c x).loads = s.loads := State.setFld_loads s _ 31 29 x
@[simp] theorem State.setCst_ctxs (s : State) (c x : Nat) : (s.setCst c x).ctxs = s.ctxs := State.setFld_ctxs s _ 31 29 x
@[simp] theorem State.setCst_rounds (s : State) (c x : Nat) : (s.setCst c x).rounds = s.rounds := State.setFld_rounds s _ 31 29 x
@[simp] theorem State.setCst_sess (s : State) (c x : Nat) : (s.setCst c x).sess = s.sess := State.setFld_sess s _ 31 29 x
@[simp] theorem State.setCst_est (s : State) (c x : Nat) : (s.setCst c x).est = s.est := State.setFld_est s _ 31 29 x
@[simp] theorem State.setCst_lanes (s : State) (c x : Nat) : (s.setCst c x).lanes = s.lanes := State.setFld_lanes s _ 31 29 x
@[simp] theorem State.setCst_bundles (s : State) (c x : Nat) : (s.setCst c x).bundles = s.bundles := State.setFld_bundles s _ 31 29 x
@[simp] theorem State.setCst_router (s : State) (c x : Nat) : (s.setCst c x).router = s.router := State.setFld_router s _ 31 29 x
@[simp] theorem State.setCst_fst (s : State) (c x : Nat) : (s.setCst c x).fst = s.fst := State.setFld_fst s _ 31 29 x
@[simp] theorem State.setCst_fstLost (s : State) (c x : Nat) : (s.setCst c x).fstLost = s.fstLost := State.setFld_fstLost s _ 31 29 x
@[simp] theorem State.setCst_slots (s : State) (c x : Nat) : (s.setCst c x).slots = s.slots := State.setFld_slots s _ 31 29 x
@[simp] theorem State.setCst_sealed (s : State) (c x : Nat) : (s.setCst c x).sealed = s.sealed := State.setFld_sealed s _ 31 29 x
@[simp] theorem State.setCst_conns (s : State) (c x : Nat) : (s.setCst c x).conns = s.conns := State.setFld_conns s _ 31 29 x
@[simp] theorem State.setCst_regions (s : State) (c x : Nat) : (s.setCst c x).regions = s.regions := State.setFld_regions s _ 31 29 x
@[simp] theorem State.setCst_barInst (s : State) (c x : Nat) : (s.setCst c x).barInst = s.barInst := State.setFld_barInst s _ 31 29 x
@[simp] theorem State.setCst_barMods (s : State) (c x : Nat) : (s.setCst c x).barMods = s.barMods := State.setFld_barMods s _ 31 29 x
@[simp] theorem State.setCst_phases (s : State) (c x : Nat) : (s.setCst c x).phases = s.phases := State.setFld_phases s _ 31 29 x
@[simp] theorem State.setCst_keys (s : State) (c x : Nat) : (s.setCst c x).keys = s.keys := State.setFld_keys s _ 31 29 x
@[simp] theorem State.setCst_pstate (s : State) (c x : Nat) : (s.setCst c x).pstate = s.pstate := State.setFld_pstate s _ 31 29 x
@[simp] theorem State.setCst_hss (s : State) (c x : Nat) : (s.setCst c x).hss = s.hss := State.setFld_hss s _ 31 29 x
@[simp] theorem State.setCst_ent (s : State) (c x : Nat) : (s.setCst c x).ent = s.ent := State.setFld_ent s _ 31 29 x
@[simp] theorem State.setCst_pd (s : State) (c x : Nat) : (s.setCst c x).pd = s.pd := State.setFld_pd s _ 31 29 x
@[simp] theorem State.setCst_gov (s : State) (c x : Nat) : (s.setCst c x).gov = s.gov := State.setFld_gov s _ 31 29 x
@[simp] theorem State.setCst_pins (s : State) (c x : Nat) : (s.setCst c x).pins = s.pins := State.setFld_pins s _ 31 29 x
@[simp] theorem State.setCst_sup (s : State) (c x : Nat) : (s.setCst c x).sup = s.sup := State.setFld_sup s _ 31 29 x
@[simp] theorem State.setCst_boot (s : State) (c x : Nat) : (s.setCst c x).boot = s.boot := State.setFld_boot s _ 31 29 x
@[simp] theorem State.setCst_mgmt (s : State) (c x : Nat) : (s.setCst c x).mgmt = s.mgmt := State.setFld_mgmt s _ 31 29 x
@[simp] theorem State.setCst_hub (s : State) (c x : Nat) : (s.setCst c x).hub = s.hub := State.setFld_hub s _ 31 29 x
@[simp] theorem State.setCst_tests (s : State) (c x : Nat) : (s.setCst c x).tests = s.tests := State.setFld_tests s _ 31 29 x
@[simp] theorem State.setCst_evSeq (s : State) (c x : Nat) : (s.setCst c x).evSeq = s.evSeq := State.setFld_evSeq s _ 31 29 x
@[simp] theorem State.setCst_freeCtr (s : State) (c x : Nat) : (s.setCst c x).freeCtr = s.freeCtr := State.setFld_freeCtr s _ 31 29 x
@[simp] theorem State.setCst_reply (s : State) (c x : Nat) : (s.setCst c x).reply = s.reply := State.setFld_reply s _ 31 29 x
@[simp] theorem State.setCst_out (s : State) (c x : Nat) : (s.setCst c x).out = s.out := State.setFld_out s _ 31 29 x
@[simp] theorem State.setCst_pending (s : State) (c x : Nat) : (s.setCst c x).pending = s.pending := State.setFld_pending s _ 31 29 x

/-! ### setActive -/

@[simp] theorem State.setActive_part (s : State) (n : Nat) (k : KeyHalf) : (s.setActive n k).part = s.part := rfl
@[simp] theorem State.setActive_regs (s : State) (n : Nat) (k : KeyHalf) : (s.setActive n k).regs = s.regs := rfl
@[simp] theorem State.setActive_latch (s : State) (n : Nat) (k : KeyHalf) : (s.setActive n k).latch = s.latch := rfl
@[simp] theorem State.setActive_wbuf (s : State) (n : Nat) (k : KeyHalf) : (s.setActive n k).wbuf = s.wbuf := rfl
@[simp] theorem State.setActive_time (s : State) (n : Nat) (k : KeyHalf) : (s.setActive n k).time = s.time := rfl
@[simp] theorem State.setActive_mem (s : State) (n : Nat) (k : KeyHalf) : (s.setActive n k).mem = s.mem := rfl
@[simp] theorem State.setActive_hubMem (s : State) (n : Nat) (k : KeyHalf) : (s.setActive n k).hubMem = s.hubMem := rfl
@[simp] theorem State.setActive_ecc (s : State) (n : Nat) (k : KeyHalf) : (s.setActive n k).ecc = s.ecc := rfl
@[simp] theorem State.setActive_d2d (s : State) (n : Nat) (k : KeyHalf) : (s.setActive n k).d2d = s.d2d := rfl
@[simp] theorem State.setActive_banks (s : State) (n : Nat) (k : KeyHalf) : (s.setActive n k).banks = s.banks := rfl
@[simp] theorem State.setActive_granule (s : State) (n : Nat) (k : KeyHalf) : (s.setActive n k).granule = s.granule := rfl
@[simp] theorem State.setActive_major (s : State) (n : Nat) (k : KeyHalf) : (s.setActive n k).major = s.major := rfl
@[simp] theorem State.setActive_minor (s : State) (n : Nat) (k : KeyHalf) : (s.setActive n k).minor = s.minor := rfl
@[simp] theorem State.setActive_crypt (s : State) (n : Nat) (k : KeyHalf) : (s.setActive n k).crypt = s.crypt := rfl
@[simp] theorem State.setActive_badLine (s : State) (n : Nat) (k : KeyHalf) : (s.setActive n k).badLine = s.badLine := rfl
@[simp] theorem State.setActive_badNode (s : State) (n : Nat) (k : KeyHalf) : (s.setActive n k).badNode = s.badNode := rfl
@[simp] theorem State.setActive_dirty (s : State) (n : Nat) (k : KeyHalf) : (s.setActive n k).dirty = s.dirty := rfl
@[simp] theorem State.setActive_cached (s : State) (n : Nat) (k : KeyHalf) : (s.setActive n k).cached = s.cached := rfl
@[simp] theorem State.setActive_nodeCnt (s : State) (n : Nat) (k : KeyHalf) : (s.setActive n k).nodeCnt = s.nodeCnt := rfl
@[simp] theorem State.setActive_passAt (s : State) (n : Nat) (k : KeyHalf) : (s.setActive n k).passAt = s.passAt := rfl
@[simp] theorem State.setActive_patrol (s : State) (n : Nat) (k : KeyHalf) : (s.setActive n k).patrol = s.patrol := rfl
@[simp] theorem State.setActive_stages (s : State) (n : Nat) (k : KeyHalf) : (s.setActive n k).stages = s.stages := rfl
@[simp] theorem State.setActive_strands (s : State) (n : Nat) (k : KeyHalf) : (s.setActive n k).strands = s.strands := rfl
@[simp] theorem State.setActive_seeds (s : State) (n : Nat) (k : KeyHalf) : (s.setActive n k).seeds = s.seeds := rfl
@[simp] theorem State.setActive_seedShard (s : State) (n : Nat) (k : KeyHalf) : (s.setActive n k).seedShard = s.seedShard := rfl
@[simp] theorem State.setActive_seedBuf (s : State) (n : Nat) (k : KeyHalf) : (s.setActive n k).seedBuf = s.seedBuf := rfl
@[simp] theorem State.setActive_queues (s : State) (n : Nat) (k : KeyHalf) : (s.setActive n k).queues = s.queues := rfl
@[simp] theorem State.setActive_psets (s : State) (n : Nat) (k : KeyHalf) : (s.setActive n k).psets = s.psets := rfl
@[simp] theorem State.setActive_evk (s : State) (n : Nat) (k : KeyHalf) : (s.setActive n k).evk = s.evk := rfl
@[simp] theorem State.setActive_loads (s : State) (n : Nat) (k : KeyHalf) : (s.setActive n k).loads = s.loads := rfl
@[simp] theorem State.setActive_ctxs (s : State) (n : Nat) (k : KeyHalf) : (s.setActive n k).ctxs = s.ctxs := rfl
@[simp] theorem State.setActive_rounds (s : State) (n : Nat) (k : KeyHalf) : (s.setActive n k).rounds = s.rounds := rfl
@[simp] theorem State.setActive_sess (s : State) (n : Nat) (k : KeyHalf) : (s.setActive n k).sess = s.sess := rfl
@[simp] theorem State.setActive_est (s : State) (n : Nat) (k : KeyHalf) : (s.setActive n k).est = s.est := rfl
@[simp] theorem State.setActive_lanes (s : State) (n : Nat) (k : KeyHalf) : (s.setActive n k).lanes = s.lanes := rfl
@[simp] theorem State.setActive_bundles (s : State) (n : Nat) (k : KeyHalf) : (s.setActive n k).bundles = s.bundles := rfl
@[simp] theorem State.setActive_router (s : State) (n : Nat) (k : KeyHalf) : (s.setActive n k).router = s.router := rfl
@[simp] theorem State.setActive_fst (s : State) (n : Nat) (k : KeyHalf) : (s.setActive n k).fst = s.fst := rfl
@[simp] theorem State.setActive_fstLost (s : State) (n : Nat) (k : KeyHalf) : (s.setActive n k).fstLost = s.fstLost := rfl
@[simp] theorem State.setActive_slots (s : State) (n : Nat) (k : KeyHalf) : (s.setActive n k).slots = s.slots := rfl
@[simp] theorem State.setActive_sealed (s : State) (n : Nat) (k : KeyHalf) : (s.setActive n k).sealed = s.sealed := rfl
@[simp] theorem State.setActive_conns (s : State) (n : Nat) (k : KeyHalf) : (s.setActive n k).conns = s.conns := rfl
@[simp] theorem State.setActive_regions (s : State) (n : Nat) (k : KeyHalf) : (s.setActive n k).regions = s.regions := rfl
@[simp] theorem State.setActive_barInst (s : State) (n : Nat) (k : KeyHalf) : (s.setActive n k).barInst = s.barInst := rfl
@[simp] theorem State.setActive_barMods (s : State) (n : Nat) (k : KeyHalf) : (s.setActive n k).barMods = s.barMods := rfl
@[simp] theorem State.setActive_phases (s : State) (n : Nat) (k : KeyHalf) : (s.setActive n k).phases = s.phases := rfl
@[simp] theorem State.setActive_pstate (s : State) (n : Nat) (k : KeyHalf) : (s.setActive n k).pstate = s.pstate := rfl
@[simp] theorem State.setActive_hss (s : State) (n : Nat) (k : KeyHalf) : (s.setActive n k).hss = s.hss := rfl
@[simp] theorem State.setActive_ent (s : State) (n : Nat) (k : KeyHalf) : (s.setActive n k).ent = s.ent := rfl
@[simp] theorem State.setActive_pd (s : State) (n : Nat) (k : KeyHalf) : (s.setActive n k).pd = s.pd := rfl
@[simp] theorem State.setActive_gov (s : State) (n : Nat) (k : KeyHalf) : (s.setActive n k).gov = s.gov := rfl
@[simp] theorem State.setActive_pins (s : State) (n : Nat) (k : KeyHalf) : (s.setActive n k).pins = s.pins := rfl
@[simp] theorem State.setActive_sup (s : State) (n : Nat) (k : KeyHalf) : (s.setActive n k).sup = s.sup := rfl
@[simp] theorem State.setActive_boot (s : State) (n : Nat) (k : KeyHalf) : (s.setActive n k).boot = s.boot := rfl
@[simp] theorem State.setActive_mgmt (s : State) (n : Nat) (k : KeyHalf) : (s.setActive n k).mgmt = s.mgmt := rfl
@[simp] theorem State.setActive_hub (s : State) (n : Nat) (k : KeyHalf) : (s.setActive n k).hub = s.hub := rfl
@[simp] theorem State.setActive_tests (s : State) (n : Nat) (k : KeyHalf) : (s.setActive n k).tests = s.tests := rfl
@[simp] theorem State.setActive_evSeq (s : State) (n : Nat) (k : KeyHalf) : (s.setActive n k).evSeq = s.evSeq := rfl
@[simp] theorem State.setActive_freeCtr (s : State) (n : Nat) (k : KeyHalf) : (s.setActive n k).freeCtr = s.freeCtr := rfl
@[simp] theorem State.setActive_reply (s : State) (n : Nat) (k : KeyHalf) : (s.setActive n k).reply = s.reply := rfl
@[simp] theorem State.setActive_out (s : State) (n : Nat) (k : KeyHalf) : (s.setActive n k).out = s.out := rfl
@[simp] theorem State.setActive_pending (s : State) (n : Nat) (k : KeyHalf) : (s.setActive n k).pending = s.pending := rfl

/-! ### setPendingKey -/

@[simp] theorem State.setPendingKey_part (s : State) (n : Nat) (k : KeyHalf) : (s.setPendingKey n k).part = s.part := rfl
@[simp] theorem State.setPendingKey_regs (s : State) (n : Nat) (k : KeyHalf) : (s.setPendingKey n k).regs = s.regs := rfl
@[simp] theorem State.setPendingKey_latch (s : State) (n : Nat) (k : KeyHalf) : (s.setPendingKey n k).latch = s.latch := rfl
@[simp] theorem State.setPendingKey_wbuf (s : State) (n : Nat) (k : KeyHalf) : (s.setPendingKey n k).wbuf = s.wbuf := rfl
@[simp] theorem State.setPendingKey_time (s : State) (n : Nat) (k : KeyHalf) : (s.setPendingKey n k).time = s.time := rfl
@[simp] theorem State.setPendingKey_mem (s : State) (n : Nat) (k : KeyHalf) : (s.setPendingKey n k).mem = s.mem := rfl
@[simp] theorem State.setPendingKey_hubMem (s : State) (n : Nat) (k : KeyHalf) : (s.setPendingKey n k).hubMem = s.hubMem := rfl
@[simp] theorem State.setPendingKey_ecc (s : State) (n : Nat) (k : KeyHalf) : (s.setPendingKey n k).ecc = s.ecc := rfl
@[simp] theorem State.setPendingKey_d2d (s : State) (n : Nat) (k : KeyHalf) : (s.setPendingKey n k).d2d = s.d2d := rfl
@[simp] theorem State.setPendingKey_banks (s : State) (n : Nat) (k : KeyHalf) : (s.setPendingKey n k).banks = s.banks := rfl
@[simp] theorem State.setPendingKey_granule (s : State) (n : Nat) (k : KeyHalf) : (s.setPendingKey n k).granule = s.granule := rfl
@[simp] theorem State.setPendingKey_major (s : State) (n : Nat) (k : KeyHalf) : (s.setPendingKey n k).major = s.major := rfl
@[simp] theorem State.setPendingKey_minor (s : State) (n : Nat) (k : KeyHalf) : (s.setPendingKey n k).minor = s.minor := rfl
@[simp] theorem State.setPendingKey_crypt (s : State) (n : Nat) (k : KeyHalf) : (s.setPendingKey n k).crypt = s.crypt := rfl
@[simp] theorem State.setPendingKey_badLine (s : State) (n : Nat) (k : KeyHalf) : (s.setPendingKey n k).badLine = s.badLine := rfl
@[simp] theorem State.setPendingKey_badNode (s : State) (n : Nat) (k : KeyHalf) : (s.setPendingKey n k).badNode = s.badNode := rfl
@[simp] theorem State.setPendingKey_dirty (s : State) (n : Nat) (k : KeyHalf) : (s.setPendingKey n k).dirty = s.dirty := rfl
@[simp] theorem State.setPendingKey_cached (s : State) (n : Nat) (k : KeyHalf) : (s.setPendingKey n k).cached = s.cached := rfl
@[simp] theorem State.setPendingKey_nodeCnt (s : State) (n : Nat) (k : KeyHalf) : (s.setPendingKey n k).nodeCnt = s.nodeCnt := rfl
@[simp] theorem State.setPendingKey_passAt (s : State) (n : Nat) (k : KeyHalf) : (s.setPendingKey n k).passAt = s.passAt := rfl
@[simp] theorem State.setPendingKey_patrol (s : State) (n : Nat) (k : KeyHalf) : (s.setPendingKey n k).patrol = s.patrol := rfl
@[simp] theorem State.setPendingKey_stages (s : State) (n : Nat) (k : KeyHalf) : (s.setPendingKey n k).stages = s.stages := rfl
@[simp] theorem State.setPendingKey_strands (s : State) (n : Nat) (k : KeyHalf) : (s.setPendingKey n k).strands = s.strands := rfl
@[simp] theorem State.setPendingKey_seeds (s : State) (n : Nat) (k : KeyHalf) : (s.setPendingKey n k).seeds = s.seeds := rfl
@[simp] theorem State.setPendingKey_seedShard (s : State) (n : Nat) (k : KeyHalf) : (s.setPendingKey n k).seedShard = s.seedShard := rfl
@[simp] theorem State.setPendingKey_seedBuf (s : State) (n : Nat) (k : KeyHalf) : (s.setPendingKey n k).seedBuf = s.seedBuf := rfl
@[simp] theorem State.setPendingKey_queues (s : State) (n : Nat) (k : KeyHalf) : (s.setPendingKey n k).queues = s.queues := rfl
@[simp] theorem State.setPendingKey_psets (s : State) (n : Nat) (k : KeyHalf) : (s.setPendingKey n k).psets = s.psets := rfl
@[simp] theorem State.setPendingKey_evk (s : State) (n : Nat) (k : KeyHalf) : (s.setPendingKey n k).evk = s.evk := rfl
@[simp] theorem State.setPendingKey_loads (s : State) (n : Nat) (k : KeyHalf) : (s.setPendingKey n k).loads = s.loads := rfl
@[simp] theorem State.setPendingKey_ctxs (s : State) (n : Nat) (k : KeyHalf) : (s.setPendingKey n k).ctxs = s.ctxs := rfl
@[simp] theorem State.setPendingKey_rounds (s : State) (n : Nat) (k : KeyHalf) : (s.setPendingKey n k).rounds = s.rounds := rfl
@[simp] theorem State.setPendingKey_sess (s : State) (n : Nat) (k : KeyHalf) : (s.setPendingKey n k).sess = s.sess := rfl
@[simp] theorem State.setPendingKey_est (s : State) (n : Nat) (k : KeyHalf) : (s.setPendingKey n k).est = s.est := rfl
@[simp] theorem State.setPendingKey_lanes (s : State) (n : Nat) (k : KeyHalf) : (s.setPendingKey n k).lanes = s.lanes := rfl
@[simp] theorem State.setPendingKey_bundles (s : State) (n : Nat) (k : KeyHalf) : (s.setPendingKey n k).bundles = s.bundles := rfl
@[simp] theorem State.setPendingKey_router (s : State) (n : Nat) (k : KeyHalf) : (s.setPendingKey n k).router = s.router := rfl
@[simp] theorem State.setPendingKey_fst (s : State) (n : Nat) (k : KeyHalf) : (s.setPendingKey n k).fst = s.fst := rfl
@[simp] theorem State.setPendingKey_fstLost (s : State) (n : Nat) (k : KeyHalf) : (s.setPendingKey n k).fstLost = s.fstLost := rfl
@[simp] theorem State.setPendingKey_slots (s : State) (n : Nat) (k : KeyHalf) : (s.setPendingKey n k).slots = s.slots := rfl
@[simp] theorem State.setPendingKey_sealed (s : State) (n : Nat) (k : KeyHalf) : (s.setPendingKey n k).sealed = s.sealed := rfl
@[simp] theorem State.setPendingKey_conns (s : State) (n : Nat) (k : KeyHalf) : (s.setPendingKey n k).conns = s.conns := rfl
@[simp] theorem State.setPendingKey_regions (s : State) (n : Nat) (k : KeyHalf) : (s.setPendingKey n k).regions = s.regions := rfl
@[simp] theorem State.setPendingKey_barInst (s : State) (n : Nat) (k : KeyHalf) : (s.setPendingKey n k).barInst = s.barInst := rfl
@[simp] theorem State.setPendingKey_barMods (s : State) (n : Nat) (k : KeyHalf) : (s.setPendingKey n k).barMods = s.barMods := rfl
@[simp] theorem State.setPendingKey_phases (s : State) (n : Nat) (k : KeyHalf) : (s.setPendingKey n k).phases = s.phases := rfl
@[simp] theorem State.setPendingKey_pstate (s : State) (n : Nat) (k : KeyHalf) : (s.setPendingKey n k).pstate = s.pstate := rfl
@[simp] theorem State.setPendingKey_hss (s : State) (n : Nat) (k : KeyHalf) : (s.setPendingKey n k).hss = s.hss := rfl
@[simp] theorem State.setPendingKey_ent (s : State) (n : Nat) (k : KeyHalf) : (s.setPendingKey n k).ent = s.ent := rfl
@[simp] theorem State.setPendingKey_pd (s : State) (n : Nat) (k : KeyHalf) : (s.setPendingKey n k).pd = s.pd := rfl
@[simp] theorem State.setPendingKey_gov (s : State) (n : Nat) (k : KeyHalf) : (s.setPendingKey n k).gov = s.gov := rfl
@[simp] theorem State.setPendingKey_pins (s : State) (n : Nat) (k : KeyHalf) : (s.setPendingKey n k).pins = s.pins := rfl
@[simp] theorem State.setPendingKey_sup (s : State) (n : Nat) (k : KeyHalf) : (s.setPendingKey n k).sup = s.sup := rfl
@[simp] theorem State.setPendingKey_boot (s : State) (n : Nat) (k : KeyHalf) : (s.setPendingKey n k).boot = s.boot := rfl
@[simp] theorem State.setPendingKey_mgmt (s : State) (n : Nat) (k : KeyHalf) : (s.setPendingKey n k).mgmt = s.mgmt := rfl
@[simp] theorem State.setPendingKey_hub (s : State) (n : Nat) (k : KeyHalf) : (s.setPendingKey n k).hub = s.hub := rfl
@[simp] theorem State.setPendingKey_tests (s : State) (n : Nat) (k : KeyHalf) : (s.setPendingKey n k).tests = s.tests := rfl
@[simp] theorem State.setPendingKey_evSeq (s : State) (n : Nat) (k : KeyHalf) : (s.setPendingKey n k).evSeq = s.evSeq := rfl
@[simp] theorem State.setPendingKey_freeCtr (s : State) (n : Nat) (k : KeyHalf) : (s.setPendingKey n k).freeCtr = s.freeCtr := rfl
@[simp] theorem State.setPendingKey_reply (s : State) (n : Nat) (k : KeyHalf) : (s.setPendingKey n k).reply = s.reply := rfl
@[simp] theorem State.setPendingKey_out (s : State) (n : Nat) (k : KeyHalf) : (s.setPendingKey n k).out = s.out := rfl
@[simp] theorem State.setPendingKey_pending (s : State) (n : Nat) (k : KeyHalf) : (s.setPendingKey n k).pending = s.pending := rfl

/-! ### setPstate -/

@[simp] theorem State.setPstate_part (s : State) (n x : Nat) : (s.setPstate n x).part = s.part := rfl
@[simp] theorem State.setPstate_regs (s : State) (n x : Nat) : (s.setPstate n x).regs = s.regs := rfl
@[simp] theorem State.setPstate_latch (s : State) (n x : Nat) : (s.setPstate n x).latch = s.latch := rfl
@[simp] theorem State.setPstate_wbuf (s : State) (n x : Nat) : (s.setPstate n x).wbuf = s.wbuf := rfl
@[simp] theorem State.setPstate_time (s : State) (n x : Nat) : (s.setPstate n x).time = s.time := rfl
@[simp] theorem State.setPstate_mem (s : State) (n x : Nat) : (s.setPstate n x).mem = s.mem := rfl
@[simp] theorem State.setPstate_hubMem (s : State) (n x : Nat) : (s.setPstate n x).hubMem = s.hubMem := rfl
@[simp] theorem State.setPstate_ecc (s : State) (n x : Nat) : (s.setPstate n x).ecc = s.ecc := rfl
@[simp] theorem State.setPstate_d2d (s : State) (n x : Nat) : (s.setPstate n x).d2d = s.d2d := rfl
@[simp] theorem State.setPstate_banks (s : State) (n x : Nat) : (s.setPstate n x).banks = s.banks := rfl
@[simp] theorem State.setPstate_granule (s : State) (n x : Nat) : (s.setPstate n x).granule = s.granule := rfl
@[simp] theorem State.setPstate_major (s : State) (n x : Nat) : (s.setPstate n x).major = s.major := rfl
@[simp] theorem State.setPstate_minor (s : State) (n x : Nat) : (s.setPstate n x).minor = s.minor := rfl
@[simp] theorem State.setPstate_crypt (s : State) (n x : Nat) : (s.setPstate n x).crypt = s.crypt := rfl
@[simp] theorem State.setPstate_badLine (s : State) (n x : Nat) : (s.setPstate n x).badLine = s.badLine := rfl
@[simp] theorem State.setPstate_badNode (s : State) (n x : Nat) : (s.setPstate n x).badNode = s.badNode := rfl
@[simp] theorem State.setPstate_dirty (s : State) (n x : Nat) : (s.setPstate n x).dirty = s.dirty := rfl
@[simp] theorem State.setPstate_cached (s : State) (n x : Nat) : (s.setPstate n x).cached = s.cached := rfl
@[simp] theorem State.setPstate_nodeCnt (s : State) (n x : Nat) : (s.setPstate n x).nodeCnt = s.nodeCnt := rfl
@[simp] theorem State.setPstate_passAt (s : State) (n x : Nat) : (s.setPstate n x).passAt = s.passAt := rfl
@[simp] theorem State.setPstate_patrol (s : State) (n x : Nat) : (s.setPstate n x).patrol = s.patrol := rfl
@[simp] theorem State.setPstate_stages (s : State) (n x : Nat) : (s.setPstate n x).stages = s.stages := rfl
@[simp] theorem State.setPstate_strands (s : State) (n x : Nat) : (s.setPstate n x).strands = s.strands := rfl
@[simp] theorem State.setPstate_seeds (s : State) (n x : Nat) : (s.setPstate n x).seeds = s.seeds := rfl
@[simp] theorem State.setPstate_seedShard (s : State) (n x : Nat) : (s.setPstate n x).seedShard = s.seedShard := rfl
@[simp] theorem State.setPstate_seedBuf (s : State) (n x : Nat) : (s.setPstate n x).seedBuf = s.seedBuf := rfl
@[simp] theorem State.setPstate_queues (s : State) (n x : Nat) : (s.setPstate n x).queues = s.queues := rfl
@[simp] theorem State.setPstate_psets (s : State) (n x : Nat) : (s.setPstate n x).psets = s.psets := rfl
@[simp] theorem State.setPstate_evk (s : State) (n x : Nat) : (s.setPstate n x).evk = s.evk := rfl
@[simp] theorem State.setPstate_loads (s : State) (n x : Nat) : (s.setPstate n x).loads = s.loads := rfl
@[simp] theorem State.setPstate_ctxs (s : State) (n x : Nat) : (s.setPstate n x).ctxs = s.ctxs := rfl
@[simp] theorem State.setPstate_rounds (s : State) (n x : Nat) : (s.setPstate n x).rounds = s.rounds := rfl
@[simp] theorem State.setPstate_sess (s : State) (n x : Nat) : (s.setPstate n x).sess = s.sess := rfl
@[simp] theorem State.setPstate_est (s : State) (n x : Nat) : (s.setPstate n x).est = s.est := rfl
@[simp] theorem State.setPstate_lanes (s : State) (n x : Nat) : (s.setPstate n x).lanes = s.lanes := rfl
@[simp] theorem State.setPstate_bundles (s : State) (n x : Nat) : (s.setPstate n x).bundles = s.bundles := rfl
@[simp] theorem State.setPstate_router (s : State) (n x : Nat) : (s.setPstate n x).router = s.router := rfl
@[simp] theorem State.setPstate_fst (s : State) (n x : Nat) : (s.setPstate n x).fst = s.fst := rfl
@[simp] theorem State.setPstate_fstLost (s : State) (n x : Nat) : (s.setPstate n x).fstLost = s.fstLost := rfl
@[simp] theorem State.setPstate_slots (s : State) (n x : Nat) : (s.setPstate n x).slots = s.slots := rfl
@[simp] theorem State.setPstate_sealed (s : State) (n x : Nat) : (s.setPstate n x).sealed = s.sealed := rfl
@[simp] theorem State.setPstate_conns (s : State) (n x : Nat) : (s.setPstate n x).conns = s.conns := rfl
@[simp] theorem State.setPstate_regions (s : State) (n x : Nat) : (s.setPstate n x).regions = s.regions := rfl
@[simp] theorem State.setPstate_barInst (s : State) (n x : Nat) : (s.setPstate n x).barInst = s.barInst := rfl
@[simp] theorem State.setPstate_barMods (s : State) (n x : Nat) : (s.setPstate n x).barMods = s.barMods := rfl
@[simp] theorem State.setPstate_phases (s : State) (n x : Nat) : (s.setPstate n x).phases = s.phases := rfl
@[simp] theorem State.setPstate_keys (s : State) (n x : Nat) : (s.setPstate n x).keys = s.keys := rfl
@[simp] theorem State.setPstate_hss (s : State) (n x : Nat) : (s.setPstate n x).hss = s.hss := rfl
@[simp] theorem State.setPstate_ent (s : State) (n x : Nat) : (s.setPstate n x).ent = s.ent := rfl
@[simp] theorem State.setPstate_pd (s : State) (n x : Nat) : (s.setPstate n x).pd = s.pd := rfl
@[simp] theorem State.setPstate_gov (s : State) (n x : Nat) : (s.setPstate n x).gov = s.gov := rfl
@[simp] theorem State.setPstate_pins (s : State) (n x : Nat) : (s.setPstate n x).pins = s.pins := rfl
@[simp] theorem State.setPstate_sup (s : State) (n x : Nat) : (s.setPstate n x).sup = s.sup := rfl
@[simp] theorem State.setPstate_boot (s : State) (n x : Nat) : (s.setPstate n x).boot = s.boot := rfl
@[simp] theorem State.setPstate_mgmt (s : State) (n x : Nat) : (s.setPstate n x).mgmt = s.mgmt := rfl
@[simp] theorem State.setPstate_hub (s : State) (n x : Nat) : (s.setPstate n x).hub = s.hub := rfl
@[simp] theorem State.setPstate_tests (s : State) (n x : Nat) : (s.setPstate n x).tests = s.tests := rfl
@[simp] theorem State.setPstate_evSeq (s : State) (n x : Nat) : (s.setPstate n x).evSeq = s.evSeq := rfl
@[simp] theorem State.setPstate_freeCtr (s : State) (n x : Nat) : (s.setPstate n x).freeCtr = s.freeCtr := rfl
@[simp] theorem State.setPstate_reply (s : State) (n x : Nat) : (s.setPstate n x).reply = s.reply := rfl
@[simp] theorem State.setPstate_out (s : State) (n x : Nat) : (s.setPstate n x).out = s.out := rfl
@[simp] theorem State.setPstate_pending (s : State) (n x : Nat) : (s.setPstate n x).pending = s.pending := rfl

/-! ### setConn -/

@[simp] theorem State.setConn_part (s : State) (i : Nat) (c : Conn) : (s.setConn i c).part = s.part := rfl
@[simp] theorem State.setConn_regs (s : State) (i : Nat) (c : Conn) : (s.setConn i c).regs = s.regs := rfl
@[simp] theorem State.setConn_latch (s : State) (i : Nat) (c : Conn) : (s.setConn i c).latch = s.latch := rfl
@[simp] theorem State.setConn_wbuf (s : State) (i : Nat) (c : Conn) : (s.setConn i c).wbuf = s.wbuf := rfl
@[simp] theorem State.setConn_time (s : State) (i : Nat) (c : Conn) : (s.setConn i c).time = s.time := rfl
@[simp] theorem State.setConn_mem (s : State) (i : Nat) (c : Conn) : (s.setConn i c).mem = s.mem := rfl
@[simp] theorem State.setConn_hubMem (s : State) (i : Nat) (c : Conn) : (s.setConn i c).hubMem = s.hubMem := rfl
@[simp] theorem State.setConn_ecc (s : State) (i : Nat) (c : Conn) : (s.setConn i c).ecc = s.ecc := rfl
@[simp] theorem State.setConn_d2d (s : State) (i : Nat) (c : Conn) : (s.setConn i c).d2d = s.d2d := rfl
@[simp] theorem State.setConn_banks (s : State) (i : Nat) (c : Conn) : (s.setConn i c).banks = s.banks := rfl
@[simp] theorem State.setConn_granule (s : State) (i : Nat) (c : Conn) : (s.setConn i c).granule = s.granule := rfl
@[simp] theorem State.setConn_major (s : State) (i : Nat) (c : Conn) : (s.setConn i c).major = s.major := rfl
@[simp] theorem State.setConn_minor (s : State) (i : Nat) (c : Conn) : (s.setConn i c).minor = s.minor := rfl
@[simp] theorem State.setConn_crypt (s : State) (i : Nat) (c : Conn) : (s.setConn i c).crypt = s.crypt := rfl
@[simp] theorem State.setConn_badLine (s : State) (i : Nat) (c : Conn) : (s.setConn i c).badLine = s.badLine := rfl
@[simp] theorem State.setConn_badNode (s : State) (i : Nat) (c : Conn) : (s.setConn i c).badNode = s.badNode := rfl
@[simp] theorem State.setConn_dirty (s : State) (i : Nat) (c : Conn) : (s.setConn i c).dirty = s.dirty := rfl
@[simp] theorem State.setConn_cached (s : State) (i : Nat) (c : Conn) : (s.setConn i c).cached = s.cached := rfl
@[simp] theorem State.setConn_nodeCnt (s : State) (i : Nat) (c : Conn) : (s.setConn i c).nodeCnt = s.nodeCnt := rfl
@[simp] theorem State.setConn_passAt (s : State) (i : Nat) (c : Conn) : (s.setConn i c).passAt = s.passAt := rfl
@[simp] theorem State.setConn_patrol (s : State) (i : Nat) (c : Conn) : (s.setConn i c).patrol = s.patrol := rfl
@[simp] theorem State.setConn_stages (s : State) (i : Nat) (c : Conn) : (s.setConn i c).stages = s.stages := rfl
@[simp] theorem State.setConn_strands (s : State) (i : Nat) (c : Conn) : (s.setConn i c).strands = s.strands := rfl
@[simp] theorem State.setConn_seeds (s : State) (i : Nat) (c : Conn) : (s.setConn i c).seeds = s.seeds := rfl
@[simp] theorem State.setConn_seedShard (s : State) (i : Nat) (c : Conn) : (s.setConn i c).seedShard = s.seedShard := rfl
@[simp] theorem State.setConn_seedBuf (s : State) (i : Nat) (c : Conn) : (s.setConn i c).seedBuf = s.seedBuf := rfl
@[simp] theorem State.setConn_queues (s : State) (i : Nat) (c : Conn) : (s.setConn i c).queues = s.queues := rfl
@[simp] theorem State.setConn_psets (s : State) (i : Nat) (c : Conn) : (s.setConn i c).psets = s.psets := rfl
@[simp] theorem State.setConn_evk (s : State) (i : Nat) (c : Conn) : (s.setConn i c).evk = s.evk := rfl
@[simp] theorem State.setConn_loads (s : State) (i : Nat) (c : Conn) : (s.setConn i c).loads = s.loads := rfl
@[simp] theorem State.setConn_ctxs (s : State) (i : Nat) (c : Conn) : (s.setConn i c).ctxs = s.ctxs := rfl
@[simp] theorem State.setConn_rounds (s : State) (i : Nat) (c : Conn) : (s.setConn i c).rounds = s.rounds := rfl
@[simp] theorem State.setConn_sess (s : State) (i : Nat) (c : Conn) : (s.setConn i c).sess = s.sess := rfl
@[simp] theorem State.setConn_est (s : State) (i : Nat) (c : Conn) : (s.setConn i c).est = s.est := rfl
@[simp] theorem State.setConn_lanes (s : State) (i : Nat) (c : Conn) : (s.setConn i c).lanes = s.lanes := rfl
@[simp] theorem State.setConn_bundles (s : State) (i : Nat) (c : Conn) : (s.setConn i c).bundles = s.bundles := rfl
@[simp] theorem State.setConn_router (s : State) (i : Nat) (c : Conn) : (s.setConn i c).router = s.router := rfl
@[simp] theorem State.setConn_fst (s : State) (i : Nat) (c : Conn) : (s.setConn i c).fst = s.fst := rfl
@[simp] theorem State.setConn_fstLost (s : State) (i : Nat) (c : Conn) : (s.setConn i c).fstLost = s.fstLost := rfl
@[simp] theorem State.setConn_slots (s : State) (i : Nat) (c : Conn) : (s.setConn i c).slots = s.slots := rfl
@[simp] theorem State.setConn_sealed (s : State) (i : Nat) (c : Conn) : (s.setConn i c).sealed = s.sealed := rfl
@[simp] theorem State.setConn_regions (s : State) (i : Nat) (c : Conn) : (s.setConn i c).regions = s.regions := rfl
@[simp] theorem State.setConn_barInst (s : State) (i : Nat) (c : Conn) : (s.setConn i c).barInst = s.barInst := rfl
@[simp] theorem State.setConn_barMods (s : State) (i : Nat) (c : Conn) : (s.setConn i c).barMods = s.barMods := rfl
@[simp] theorem State.setConn_phases (s : State) (i : Nat) (c : Conn) : (s.setConn i c).phases = s.phases := rfl
@[simp] theorem State.setConn_keys (s : State) (i : Nat) (c : Conn) : (s.setConn i c).keys = s.keys := rfl
@[simp] theorem State.setConn_pstate (s : State) (i : Nat) (c : Conn) : (s.setConn i c).pstate = s.pstate := rfl
@[simp] theorem State.setConn_hss (s : State) (i : Nat) (c : Conn) : (s.setConn i c).hss = s.hss := rfl
@[simp] theorem State.setConn_ent (s : State) (i : Nat) (c : Conn) : (s.setConn i c).ent = s.ent := rfl
@[simp] theorem State.setConn_pd (s : State) (i : Nat) (c : Conn) : (s.setConn i c).pd = s.pd := rfl
@[simp] theorem State.setConn_gov (s : State) (i : Nat) (c : Conn) : (s.setConn i c).gov = s.gov := rfl
@[simp] theorem State.setConn_pins (s : State) (i : Nat) (c : Conn) : (s.setConn i c).pins = s.pins := rfl
@[simp] theorem State.setConn_sup (s : State) (i : Nat) (c : Conn) : (s.setConn i c).sup = s.sup := rfl
@[simp] theorem State.setConn_boot (s : State) (i : Nat) (c : Conn) : (s.setConn i c).boot = s.boot := rfl
@[simp] theorem State.setConn_mgmt (s : State) (i : Nat) (c : Conn) : (s.setConn i c).mgmt = s.mgmt := rfl
@[simp] theorem State.setConn_hub (s : State) (i : Nat) (c : Conn) : (s.setConn i c).hub = s.hub := rfl
@[simp] theorem State.setConn_tests (s : State) (i : Nat) (c : Conn) : (s.setConn i c).tests = s.tests := rfl
@[simp] theorem State.setConn_evSeq (s : State) (i : Nat) (c : Conn) : (s.setConn i c).evSeq = s.evSeq := rfl
@[simp] theorem State.setConn_freeCtr (s : State) (i : Nat) (c : Conn) : (s.setConn i c).freeCtr = s.freeCtr := rfl
@[simp] theorem State.setConn_reply (s : State) (i : Nat) (c : Conn) : (s.setConn i c).reply = s.reply := rfl
@[simp] theorem State.setConn_out (s : State) (i : Nat) (c : Conn) : (s.setConn i c).out = s.out := rfl
@[simp] theorem State.setConn_pending (s : State) (i : Nat) (c : Conn) : (s.setConn i c).pending = s.pending := rfl

/-! ### setRegion -/

@[simp] theorem State.setRegion_part (s : State) (i : Nat) (r : Region) : (s.setRegion i r).part = s.part := rfl
@[simp] theorem State.setRegion_regs (s : State) (i : Nat) (r : Region) : (s.setRegion i r).regs = s.regs := rfl
@[simp] theorem State.setRegion_latch (s : State) (i : Nat) (r : Region) : (s.setRegion i r).latch = s.latch := rfl
@[simp] theorem State.setRegion_wbuf (s : State) (i : Nat) (r : Region) : (s.setRegion i r).wbuf = s.wbuf := rfl
@[simp] theorem State.setRegion_time (s : State) (i : Nat) (r : Region) : (s.setRegion i r).time = s.time := rfl
@[simp] theorem State.setRegion_mem (s : State) (i : Nat) (r : Region) : (s.setRegion i r).mem = s.mem := rfl
@[simp] theorem State.setRegion_hubMem (s : State) (i : Nat) (r : Region) : (s.setRegion i r).hubMem = s.hubMem := rfl
@[simp] theorem State.setRegion_ecc (s : State) (i : Nat) (r : Region) : (s.setRegion i r).ecc = s.ecc := rfl
@[simp] theorem State.setRegion_d2d (s : State) (i : Nat) (r : Region) : (s.setRegion i r).d2d = s.d2d := rfl
@[simp] theorem State.setRegion_banks (s : State) (i : Nat) (r : Region) : (s.setRegion i r).banks = s.banks := rfl
@[simp] theorem State.setRegion_granule (s : State) (i : Nat) (r : Region) : (s.setRegion i r).granule = s.granule := rfl
@[simp] theorem State.setRegion_major (s : State) (i : Nat) (r : Region) : (s.setRegion i r).major = s.major := rfl
@[simp] theorem State.setRegion_minor (s : State) (i : Nat) (r : Region) : (s.setRegion i r).minor = s.minor := rfl
@[simp] theorem State.setRegion_crypt (s : State) (i : Nat) (r : Region) : (s.setRegion i r).crypt = s.crypt := rfl
@[simp] theorem State.setRegion_badLine (s : State) (i : Nat) (r : Region) : (s.setRegion i r).badLine = s.badLine := rfl
@[simp] theorem State.setRegion_badNode (s : State) (i : Nat) (r : Region) : (s.setRegion i r).badNode = s.badNode := rfl
@[simp] theorem State.setRegion_dirty (s : State) (i : Nat) (r : Region) : (s.setRegion i r).dirty = s.dirty := rfl
@[simp] theorem State.setRegion_cached (s : State) (i : Nat) (r : Region) : (s.setRegion i r).cached = s.cached := rfl
@[simp] theorem State.setRegion_nodeCnt (s : State) (i : Nat) (r : Region) : (s.setRegion i r).nodeCnt = s.nodeCnt := rfl
@[simp] theorem State.setRegion_passAt (s : State) (i : Nat) (r : Region) : (s.setRegion i r).passAt = s.passAt := rfl
@[simp] theorem State.setRegion_patrol (s : State) (i : Nat) (r : Region) : (s.setRegion i r).patrol = s.patrol := rfl
@[simp] theorem State.setRegion_stages (s : State) (i : Nat) (r : Region) : (s.setRegion i r).stages = s.stages := rfl
@[simp] theorem State.setRegion_strands (s : State) (i : Nat) (r : Region) : (s.setRegion i r).strands = s.strands := rfl
@[simp] theorem State.setRegion_seeds (s : State) (i : Nat) (r : Region) : (s.setRegion i r).seeds = s.seeds := rfl
@[simp] theorem State.setRegion_seedShard (s : State) (i : Nat) (r : Region) : (s.setRegion i r).seedShard = s.seedShard := rfl
@[simp] theorem State.setRegion_seedBuf (s : State) (i : Nat) (r : Region) : (s.setRegion i r).seedBuf = s.seedBuf := rfl
@[simp] theorem State.setRegion_queues (s : State) (i : Nat) (r : Region) : (s.setRegion i r).queues = s.queues := rfl
@[simp] theorem State.setRegion_psets (s : State) (i : Nat) (r : Region) : (s.setRegion i r).psets = s.psets := rfl
@[simp] theorem State.setRegion_evk (s : State) (i : Nat) (r : Region) : (s.setRegion i r).evk = s.evk := rfl
@[simp] theorem State.setRegion_loads (s : State) (i : Nat) (r : Region) : (s.setRegion i r).loads = s.loads := rfl
@[simp] theorem State.setRegion_ctxs (s : State) (i : Nat) (r : Region) : (s.setRegion i r).ctxs = s.ctxs := rfl
@[simp] theorem State.setRegion_rounds (s : State) (i : Nat) (r : Region) : (s.setRegion i r).rounds = s.rounds := rfl
@[simp] theorem State.setRegion_sess (s : State) (i : Nat) (r : Region) : (s.setRegion i r).sess = s.sess := rfl
@[simp] theorem State.setRegion_est (s : State) (i : Nat) (r : Region) : (s.setRegion i r).est = s.est := rfl
@[simp] theorem State.setRegion_lanes (s : State) (i : Nat) (r : Region) : (s.setRegion i r).lanes = s.lanes := rfl
@[simp] theorem State.setRegion_bundles (s : State) (i : Nat) (r : Region) : (s.setRegion i r).bundles = s.bundles := rfl
@[simp] theorem State.setRegion_router (s : State) (i : Nat) (r : Region) : (s.setRegion i r).router = s.router := rfl
@[simp] theorem State.setRegion_fst (s : State) (i : Nat) (r : Region) : (s.setRegion i r).fst = s.fst := rfl
@[simp] theorem State.setRegion_fstLost (s : State) (i : Nat) (r : Region) : (s.setRegion i r).fstLost = s.fstLost := rfl
@[simp] theorem State.setRegion_slots (s : State) (i : Nat) (r : Region) : (s.setRegion i r).slots = s.slots := rfl
@[simp] theorem State.setRegion_sealed (s : State) (i : Nat) (r : Region) : (s.setRegion i r).sealed = s.sealed := rfl
@[simp] theorem State.setRegion_conns (s : State) (i : Nat) (r : Region) : (s.setRegion i r).conns = s.conns := rfl
@[simp] theorem State.setRegion_barInst (s : State) (i : Nat) (r : Region) : (s.setRegion i r).barInst = s.barInst := rfl
@[simp] theorem State.setRegion_barMods (s : State) (i : Nat) (r : Region) : (s.setRegion i r).barMods = s.barMods := rfl
@[simp] theorem State.setRegion_phases (s : State) (i : Nat) (r : Region) : (s.setRegion i r).phases = s.phases := rfl
@[simp] theorem State.setRegion_keys (s : State) (i : Nat) (r : Region) : (s.setRegion i r).keys = s.keys := rfl
@[simp] theorem State.setRegion_pstate (s : State) (i : Nat) (r : Region) : (s.setRegion i r).pstate = s.pstate := rfl
@[simp] theorem State.setRegion_hss (s : State) (i : Nat) (r : Region) : (s.setRegion i r).hss = s.hss := rfl
@[simp] theorem State.setRegion_ent (s : State) (i : Nat) (r : Region) : (s.setRegion i r).ent = s.ent := rfl
@[simp] theorem State.setRegion_pd (s : State) (i : Nat) (r : Region) : (s.setRegion i r).pd = s.pd := rfl
@[simp] theorem State.setRegion_gov (s : State) (i : Nat) (r : Region) : (s.setRegion i r).gov = s.gov := rfl
@[simp] theorem State.setRegion_pins (s : State) (i : Nat) (r : Region) : (s.setRegion i r).pins = s.pins := rfl
@[simp] theorem State.setRegion_sup (s : State) (i : Nat) (r : Region) : (s.setRegion i r).sup = s.sup := rfl
@[simp] theorem State.setRegion_boot (s : State) (i : Nat) (r : Region) : (s.setRegion i r).boot = s.boot := rfl
@[simp] theorem State.setRegion_mgmt (s : State) (i : Nat) (r : Region) : (s.setRegion i r).mgmt = s.mgmt := rfl
@[simp] theorem State.setRegion_hub (s : State) (i : Nat) (r : Region) : (s.setRegion i r).hub = s.hub := rfl
@[simp] theorem State.setRegion_tests (s : State) (i : Nat) (r : Region) : (s.setRegion i r).tests = s.tests := rfl
@[simp] theorem State.setRegion_evSeq (s : State) (i : Nat) (r : Region) : (s.setRegion i r).evSeq = s.evSeq := rfl
@[simp] theorem State.setRegion_freeCtr (s : State) (i : Nat) (r : Region) : (s.setRegion i r).freeCtr = s.freeCtr := rfl
@[simp] theorem State.setRegion_reply (s : State) (i : Nat) (r : Region) : (s.setRegion i r).reply = s.reply := rfl
@[simp] theorem State.setRegion_out (s : State) (i : Nat) (r : Region) : (s.setRegion i r).out = s.out := rfl
@[simp] theorem State.setRegion_pending (s : State) (i : Nat) (r : Region) : (s.setRegion i r).pending = s.pending := rfl

/-! ### setBank -/

@[simp] theorem State.setBank_part (s : State) (d b : Nat) (x : BankX) : (s.setBank d b x).part = s.part := rfl
@[simp] theorem State.setBank_regs (s : State) (d b : Nat) (x : BankX) : (s.setBank d b x).regs = s.regs := rfl
@[simp] theorem State.setBank_latch (s : State) (d b : Nat) (x : BankX) : (s.setBank d b x).latch = s.latch := rfl
@[simp] theorem State.setBank_wbuf (s : State) (d b : Nat) (x : BankX) : (s.setBank d b x).wbuf = s.wbuf := rfl
@[simp] theorem State.setBank_time (s : State) (d b : Nat) (x : BankX) : (s.setBank d b x).time = s.time := rfl
@[simp] theorem State.setBank_mem (s : State) (d b : Nat) (x : BankX) : (s.setBank d b x).mem = s.mem := rfl
@[simp] theorem State.setBank_hubMem (s : State) (d b : Nat) (x : BankX) : (s.setBank d b x).hubMem = s.hubMem := rfl
@[simp] theorem State.setBank_ecc (s : State) (d b : Nat) (x : BankX) : (s.setBank d b x).ecc = s.ecc := rfl
@[simp] theorem State.setBank_d2d (s : State) (d b : Nat) (x : BankX) : (s.setBank d b x).d2d = s.d2d := rfl
@[simp] theorem State.setBank_granule (s : State) (d b : Nat) (x : BankX) : (s.setBank d b x).granule = s.granule := rfl
@[simp] theorem State.setBank_major (s : State) (d b : Nat) (x : BankX) : (s.setBank d b x).major = s.major := rfl
@[simp] theorem State.setBank_minor (s : State) (d b : Nat) (x : BankX) : (s.setBank d b x).minor = s.minor := rfl
@[simp] theorem State.setBank_crypt (s : State) (d b : Nat) (x : BankX) : (s.setBank d b x).crypt = s.crypt := rfl
@[simp] theorem State.setBank_badLine (s : State) (d b : Nat) (x : BankX) : (s.setBank d b x).badLine = s.badLine := rfl
@[simp] theorem State.setBank_badNode (s : State) (d b : Nat) (x : BankX) : (s.setBank d b x).badNode = s.badNode := rfl
@[simp] theorem State.setBank_dirty (s : State) (d b : Nat) (x : BankX) : (s.setBank d b x).dirty = s.dirty := rfl
@[simp] theorem State.setBank_cached (s : State) (d b : Nat) (x : BankX) : (s.setBank d b x).cached = s.cached := rfl
@[simp] theorem State.setBank_nodeCnt (s : State) (d b : Nat) (x : BankX) : (s.setBank d b x).nodeCnt = s.nodeCnt := rfl
@[simp] theorem State.setBank_passAt (s : State) (d b : Nat) (x : BankX) : (s.setBank d b x).passAt = s.passAt := rfl
@[simp] theorem State.setBank_patrol (s : State) (d b : Nat) (x : BankX) : (s.setBank d b x).patrol = s.patrol := rfl
@[simp] theorem State.setBank_stages (s : State) (d b : Nat) (x : BankX) : (s.setBank d b x).stages = s.stages := rfl
@[simp] theorem State.setBank_strands (s : State) (d b : Nat) (x : BankX) : (s.setBank d b x).strands = s.strands := rfl
@[simp] theorem State.setBank_seeds (s : State) (d b : Nat) (x : BankX) : (s.setBank d b x).seeds = s.seeds := rfl
@[simp] theorem State.setBank_seedShard (s : State) (d b : Nat) (x : BankX) : (s.setBank d b x).seedShard = s.seedShard := rfl
@[simp] theorem State.setBank_seedBuf (s : State) (d b : Nat) (x : BankX) : (s.setBank d b x).seedBuf = s.seedBuf := rfl
@[simp] theorem State.setBank_queues (s : State) (d b : Nat) (x : BankX) : (s.setBank d b x).queues = s.queues := rfl
@[simp] theorem State.setBank_psets (s : State) (d b : Nat) (x : BankX) : (s.setBank d b x).psets = s.psets := rfl
@[simp] theorem State.setBank_evk (s : State) (d b : Nat) (x : BankX) : (s.setBank d b x).evk = s.evk := rfl
@[simp] theorem State.setBank_loads (s : State) (d b : Nat) (x : BankX) : (s.setBank d b x).loads = s.loads := rfl
@[simp] theorem State.setBank_ctxs (s : State) (d b : Nat) (x : BankX) : (s.setBank d b x).ctxs = s.ctxs := rfl
@[simp] theorem State.setBank_rounds (s : State) (d b : Nat) (x : BankX) : (s.setBank d b x).rounds = s.rounds := rfl
@[simp] theorem State.setBank_sess (s : State) (d b : Nat) (x : BankX) : (s.setBank d b x).sess = s.sess := rfl
@[simp] theorem State.setBank_est (s : State) (d b : Nat) (x : BankX) : (s.setBank d b x).est = s.est := rfl
@[simp] theorem State.setBank_lanes (s : State) (d b : Nat) (x : BankX) : (s.setBank d b x).lanes = s.lanes := rfl
@[simp] theorem State.setBank_bundles (s : State) (d b : Nat) (x : BankX) : (s.setBank d b x).bundles = s.bundles := rfl
@[simp] theorem State.setBank_router (s : State) (d b : Nat) (x : BankX) : (s.setBank d b x).router = s.router := rfl
@[simp] theorem State.setBank_fst (s : State) (d b : Nat) (x : BankX) : (s.setBank d b x).fst = s.fst := rfl
@[simp] theorem State.setBank_fstLost (s : State) (d b : Nat) (x : BankX) : (s.setBank d b x).fstLost = s.fstLost := rfl
@[simp] theorem State.setBank_slots (s : State) (d b : Nat) (x : BankX) : (s.setBank d b x).slots = s.slots := rfl
@[simp] theorem State.setBank_sealed (s : State) (d b : Nat) (x : BankX) : (s.setBank d b x).sealed = s.sealed := rfl
@[simp] theorem State.setBank_conns (s : State) (d b : Nat) (x : BankX) : (s.setBank d b x).conns = s.conns := rfl
@[simp] theorem State.setBank_regions (s : State) (d b : Nat) (x : BankX) : (s.setBank d b x).regions = s.regions := rfl
@[simp] theorem State.setBank_barInst (s : State) (d b : Nat) (x : BankX) : (s.setBank d b x).barInst = s.barInst := rfl
@[simp] theorem State.setBank_barMods (s : State) (d b : Nat) (x : BankX) : (s.setBank d b x).barMods = s.barMods := rfl
@[simp] theorem State.setBank_phases (s : State) (d b : Nat) (x : BankX) : (s.setBank d b x).phases = s.phases := rfl
@[simp] theorem State.setBank_keys (s : State) (d b : Nat) (x : BankX) : (s.setBank d b x).keys = s.keys := rfl
@[simp] theorem State.setBank_pstate (s : State) (d b : Nat) (x : BankX) : (s.setBank d b x).pstate = s.pstate := rfl
@[simp] theorem State.setBank_hss (s : State) (d b : Nat) (x : BankX) : (s.setBank d b x).hss = s.hss := rfl
@[simp] theorem State.setBank_ent (s : State) (d b : Nat) (x : BankX) : (s.setBank d b x).ent = s.ent := rfl
@[simp] theorem State.setBank_pd (s : State) (d b : Nat) (x : BankX) : (s.setBank d b x).pd = s.pd := rfl
@[simp] theorem State.setBank_gov (s : State) (d b : Nat) (x : BankX) : (s.setBank d b x).gov = s.gov := rfl
@[simp] theorem State.setBank_pins (s : State) (d b : Nat) (x : BankX) : (s.setBank d b x).pins = s.pins := rfl
@[simp] theorem State.setBank_sup (s : State) (d b : Nat) (x : BankX) : (s.setBank d b x).sup = s.sup := rfl
@[simp] theorem State.setBank_boot (s : State) (d b : Nat) (x : BankX) : (s.setBank d b x).boot = s.boot := rfl
@[simp] theorem State.setBank_mgmt (s : State) (d b : Nat) (x : BankX) : (s.setBank d b x).mgmt = s.mgmt := rfl
@[simp] theorem State.setBank_hub (s : State) (d b : Nat) (x : BankX) : (s.setBank d b x).hub = s.hub := rfl
@[simp] theorem State.setBank_tests (s : State) (d b : Nat) (x : BankX) : (s.setBank d b x).tests = s.tests := rfl
@[simp] theorem State.setBank_evSeq (s : State) (d b : Nat) (x : BankX) : (s.setBank d b x).evSeq = s.evSeq := rfl
@[simp] theorem State.setBank_freeCtr (s : State) (d b : Nat) (x : BankX) : (s.setBank d b x).freeCtr = s.freeCtr := rfl
@[simp] theorem State.setBank_reply (s : State) (d b : Nat) (x : BankX) : (s.setBank d b x).reply = s.reply := rfl
@[simp] theorem State.setBank_out (s : State) (d b : Nat) (x : BankX) : (s.setBank d b x).out = s.out := rfl
@[simp] theorem State.setBank_pending (s : State) (d b : Nat) (x : BankX) : (s.setBank d b x).pending = s.pending := rfl

/-! ### setRound -/

@[simp] theorem State.setRound_part (s : State) (c : Nat) (r : Round) : (s.setRound c r).part = s.part := rfl
@[simp] theorem State.setRound_regs (s : State) (c : Nat) (r : Round) : (s.setRound c r).regs = s.regs := rfl
@[simp] theorem State.setRound_latch (s : State) (c : Nat) (r : Round) : (s.setRound c r).latch = s.latch := rfl
@[simp] theorem State.setRound_wbuf (s : State) (c : Nat) (r : Round) : (s.setRound c r).wbuf = s.wbuf := rfl
@[simp] theorem State.setRound_time (s : State) (c : Nat) (r : Round) : (s.setRound c r).time = s.time := rfl
@[simp] theorem State.setRound_mem (s : State) (c : Nat) (r : Round) : (s.setRound c r).mem = s.mem := rfl
@[simp] theorem State.setRound_hubMem (s : State) (c : Nat) (r : Round) : (s.setRound c r).hubMem = s.hubMem := rfl
@[simp] theorem State.setRound_ecc (s : State) (c : Nat) (r : Round) : (s.setRound c r).ecc = s.ecc := rfl
@[simp] theorem State.setRound_d2d (s : State) (c : Nat) (r : Round) : (s.setRound c r).d2d = s.d2d := rfl
@[simp] theorem State.setRound_banks (s : State) (c : Nat) (r : Round) : (s.setRound c r).banks = s.banks := rfl
@[simp] theorem State.setRound_granule (s : State) (c : Nat) (r : Round) : (s.setRound c r).granule = s.granule := rfl
@[simp] theorem State.setRound_major (s : State) (c : Nat) (r : Round) : (s.setRound c r).major = s.major := rfl
@[simp] theorem State.setRound_minor (s : State) (c : Nat) (r : Round) : (s.setRound c r).minor = s.minor := rfl
@[simp] theorem State.setRound_crypt (s : State) (c : Nat) (r : Round) : (s.setRound c r).crypt = s.crypt := rfl
@[simp] theorem State.setRound_badLine (s : State) (c : Nat) (r : Round) : (s.setRound c r).badLine = s.badLine := rfl
@[simp] theorem State.setRound_badNode (s : State) (c : Nat) (r : Round) : (s.setRound c r).badNode = s.badNode := rfl
@[simp] theorem State.setRound_dirty (s : State) (c : Nat) (r : Round) : (s.setRound c r).dirty = s.dirty := rfl
@[simp] theorem State.setRound_cached (s : State) (c : Nat) (r : Round) : (s.setRound c r).cached = s.cached := rfl
@[simp] theorem State.setRound_nodeCnt (s : State) (c : Nat) (r : Round) : (s.setRound c r).nodeCnt = s.nodeCnt := rfl
@[simp] theorem State.setRound_passAt (s : State) (c : Nat) (r : Round) : (s.setRound c r).passAt = s.passAt := rfl
@[simp] theorem State.setRound_patrol (s : State) (c : Nat) (r : Round) : (s.setRound c r).patrol = s.patrol := rfl
@[simp] theorem State.setRound_stages (s : State) (c : Nat) (r : Round) : (s.setRound c r).stages = s.stages := rfl
@[simp] theorem State.setRound_strands (s : State) (c : Nat) (r : Round) : (s.setRound c r).strands = s.strands := rfl
@[simp] theorem State.setRound_seeds (s : State) (c : Nat) (r : Round) : (s.setRound c r).seeds = s.seeds := rfl
@[simp] theorem State.setRound_seedShard (s : State) (c : Nat) (r : Round) : (s.setRound c r).seedShard = s.seedShard := rfl
@[simp] theorem State.setRound_seedBuf (s : State) (c : Nat) (r : Round) : (s.setRound c r).seedBuf = s.seedBuf := rfl
@[simp] theorem State.setRound_queues (s : State) (c : Nat) (r : Round) : (s.setRound c r).queues = s.queues := rfl
@[simp] theorem State.setRound_psets (s : State) (c : Nat) (r : Round) : (s.setRound c r).psets = s.psets := rfl
@[simp] theorem State.setRound_evk (s : State) (c : Nat) (r : Round) : (s.setRound c r).evk = s.evk := rfl
@[simp] theorem State.setRound_loads (s : State) (c : Nat) (r : Round) : (s.setRound c r).loads = s.loads := rfl
@[simp] theorem State.setRound_ctxs (s : State) (c : Nat) (r : Round) : (s.setRound c r).ctxs = s.ctxs := rfl
@[simp] theorem State.setRound_sess (s : State) (c : Nat) (r : Round) : (s.setRound c r).sess = s.sess := rfl
@[simp] theorem State.setRound_est (s : State) (c : Nat) (r : Round) : (s.setRound c r).est = s.est := rfl
@[simp] theorem State.setRound_lanes (s : State) (c : Nat) (r : Round) : (s.setRound c r).lanes = s.lanes := rfl
@[simp] theorem State.setRound_bundles (s : State) (c : Nat) (r : Round) : (s.setRound c r).bundles = s.bundles := rfl
@[simp] theorem State.setRound_router (s : State) (c : Nat) (r : Round) : (s.setRound c r).router = s.router := rfl
@[simp] theorem State.setRound_fst (s : State) (c : Nat) (r : Round) : (s.setRound c r).fst = s.fst := rfl
@[simp] theorem State.setRound_fstLost (s : State) (c : Nat) (r : Round) : (s.setRound c r).fstLost = s.fstLost := rfl
@[simp] theorem State.setRound_slots (s : State) (c : Nat) (r : Round) : (s.setRound c r).slots = s.slots := rfl
@[simp] theorem State.setRound_sealed (s : State) (c : Nat) (r : Round) : (s.setRound c r).sealed = s.sealed := rfl
@[simp] theorem State.setRound_conns (s : State) (c : Nat) (r : Round) : (s.setRound c r).conns = s.conns := rfl
@[simp] theorem State.setRound_regions (s : State) (c : Nat) (r : Round) : (s.setRound c r).regions = s.regions := rfl
@[simp] theorem State.setRound_barInst (s : State) (c : Nat) (r : Round) : (s.setRound c r).barInst = s.barInst := rfl
@[simp] theorem State.setRound_barMods (s : State) (c : Nat) (r : Round) : (s.setRound c r).barMods = s.barMods := rfl
@[simp] theorem State.setRound_phases (s : State) (c : Nat) (r : Round) : (s.setRound c r).phases = s.phases := rfl
@[simp] theorem State.setRound_keys (s : State) (c : Nat) (r : Round) : (s.setRound c r).keys = s.keys := rfl
@[simp] theorem State.setRound_pstate (s : State) (c : Nat) (r : Round) : (s.setRound c r).pstate = s.pstate := rfl
@[simp] theorem State.setRound_hss (s : State) (c : Nat) (r : Round) : (s.setRound c r).hss = s.hss := rfl
@[simp] theorem State.setRound_ent (s : State) (c : Nat) (r : Round) : (s.setRound c r).ent = s.ent := rfl
@[simp] theorem State.setRound_pd (s : State) (c : Nat) (r : Round) : (s.setRound c r).pd = s.pd := rfl
@[simp] theorem State.setRound_gov (s : State) (c : Nat) (r : Round) : (s.setRound c r).gov = s.gov := rfl
@[simp] theorem State.setRound_pins (s : State) (c : Nat) (r : Round) : (s.setRound c r).pins = s.pins := rfl
@[simp] theorem State.setRound_sup (s : State) (c : Nat) (r : Round) : (s.setRound c r).sup = s.sup := rfl
@[simp] theorem State.setRound_boot (s : State) (c : Nat) (r : Round) : (s.setRound c r).boot = s.boot := rfl
@[simp] theorem State.setRound_mgmt (s : State) (c : Nat) (r : Round) : (s.setRound c r).mgmt = s.mgmt := rfl
@[simp] theorem State.setRound_hub (s : State) (c : Nat) (r : Round) : (s.setRound c r).hub = s.hub := rfl
@[simp] theorem State.setRound_tests (s : State) (c : Nat) (r : Round) : (s.setRound c r).tests = s.tests := rfl
@[simp] theorem State.setRound_evSeq (s : State) (c : Nat) (r : Round) : (s.setRound c r).evSeq = s.evSeq := rfl
@[simp] theorem State.setRound_freeCtr (s : State) (c : Nat) (r : Round) : (s.setRound c r).freeCtr = s.freeCtr := rfl
@[simp] theorem State.setRound_reply (s : State) (c : Nat) (r : Round) : (s.setRound c r).reply = s.reply := rfl
@[simp] theorem State.setRound_out (s : State) (c : Nat) (r : Round) : (s.setRound c r).out = s.out := rfl
@[simp] theorem State.setRound_pending (s : State) (c : Nat) (r : Round) : (s.setRound c r).pending = s.pending := rfl

end Sys2Proof.Machine
end

