-- ==== Sys2Proof/Laws/Table.lean ====
section
/-! SUPPORT. Laws of sparse tables: a read after a write, and that every operation keeps the canonical form. -/

namespace Sys2Proof.Machine

variable {α : Type}

theorem Table.get_ins_same (d : Nat → α) (t : Table α) (k : Nat) (v : α) (h : ∀ e ∈ t, e.1 ≠ k) :
    Table.get d (Table.ins t k v) k = v := by
  induction t with
  | nil => simp [Table.ins, Table.get]
  | cons e t ih =>
    obtain ⟨j, w⟩ := e
    have hj : j ≠ k := h (j, w) (by simp)
    unfold Table.ins
    split
    · simp [Table.get]
    · simp [Table.get, hj, ih (fun e he => h e (by simp [he]))]

theorem Table.get_ins_ne (d : Nat → α) (t : Table α) (k m : Nat) (v : α) (h : m ≠ k) :
    Table.get d (Table.ins t k v) m = Table.get d t m := by
  induction t with
  | nil => simp [Table.ins, Table.get, Ne.symm h]
  | cons e t ih =>
    obtain ⟨j, w⟩ := e
    unfold Table.ins
    split
    · simp [Table.get, Ne.symm h]
    · simp [Table.get, ih]

theorem Table.mem_del (t : Table α) (k : Nat) (e : Nat × α) (h : e ∈ Table.del t k) : e ∈ t ∧ e.1 ≠ k := by
  induction t with
  | nil => simp [Table.del] at h
  | cons f t ih =>
    obtain ⟨j, w⟩ := f
    unfold Table.del at h
    split at h
    · have := ih h; exact ⟨by simp [this.1], this.2⟩
    · rename_i hj
      simp only [List.mem_cons] at h
      rcases h with rfl | h
      · exact ⟨by simp, hj⟩
      · have := ih h; exact ⟨by simp [this.1], this.2⟩

theorem Table.get_del_same (d : Nat → α) (t : Table α) (k : Nat) : Table.get d (Table.del t k) k = d k := by
  induction t with
  | nil => simp [Table.del, Table.get]
  | cons e t ih =>
    obtain ⟨j, w⟩ := e
    unfold Table.del
    split
    · exact ih
    · rename_i hj; simp [Table.get, hj, ih]

theorem Table.get_del_ne (d : Nat → α) (t : Table α) (k m : Nat) (h : m ≠ k) :
    Table.get d (Table.del t k) m = Table.get d t m := by
  induction t with
  | nil => simp [Table.del]
  | cons e t ih =>
    obtain ⟨j, w⟩ := e
    unfold Table.del
    split
    · rename_i hj
      have : j ≠ m := by omega
      rw [ih]; simp [Table.get, this]
    · simp [Table.get, ih]

/-- A read of the key just written gives what was written. -/
@[simp] theorem Table.get_put_same [DecidableEq α] (d : Nat → α) (t : Table α) (k : Nat) (v : α) :
    Table.get d (Table.put d t k v) k = v := by
  unfold Table.put
  split
  · rename_i h; rw [Table.get_del_same, h]
  · exact Table.get_ins_same d _ k v (fun e he => (Table.mem_del t k e he).2)

/-- A write leaves every other key alone. -/
theorem Table.get_put_ne [DecidableEq α] (d : Nat → α) (t : Table α) (k m : Nat) (v : α) (h : m ≠ k) :
    Table.get d (Table.put d t k v) m = Table.get d t m := by
  unfold Table.put
  split
  · exact Table.get_del_ne d t k m h
  · rw [Table.get_ins_ne d _ k m v h, Table.get_del_ne d t k m h]

theorem Table.get_put [DecidableEq α] (d : Nat → α) (t : Table α) (k m : Nat) (v : α) :
    Table.get d (Table.put d t k v) m = if m = k then v else Table.get d t m := by
  by_cases h : m = k
  · subst h; simp
  · simp [h, Table.get_put_ne d t k m v h]

/-- A cleared key reads as unlisted, any other as before. -/
theorem Table.get_clear (d : Nat → α) (p : Nat → Bool) (t : Table α) (k : Nat) :
    Table.get d (Table.clear p t) k = if p k then d k else Table.get d t k := by
  induction t with
  | nil => simp [Table.clear, Table.get]
  | cons e t ih =>
    obtain ⟨j, w⟩ := e
    unfold Table.clear at ih ⊢
    by_cases hp : p j
    · simp only [List.filter_cons, hp, Bool.not_true, Bool.false_eq_true, if_false, ih]
      by_cases hjk : j = k
      · subst hjk; simp [hp]
      · simp [Table.get, hjk]
    · simp only [List.filter_cons, hp, Bool.not_false, if_true, Table.get, ih]
      by_cases hjk : j = k
      · subst hjk; simp [hp]
      · simp [hjk]

theorem Table.get_putList_lt [DecidableEq α] (d : Nat → α) (vs : List α) (t : Table α) (k m : Nat) (h : m < k) :
    Table.get d (Table.putList d t k vs) m = Table.get d t m := by
  induction vs generalizing t k with
  | nil => rfl
  | cons v vs ih =>
    rw [Table.putList, ih _ _ (by omega), Table.get_put_ne d t k m v (by omega)]

/-- What a run of writes leaves at a key: the value written there, or the old one. -/
theorem Table.get_putList [DecidableEq α] (d : Nat → α) (vs : List α) (t : Table α) (k m : Nat) :
    Table.get d (Table.putList d t k vs) m =
      if k ≤ m ∧ m < k + vs.length then vs.getD (m - k) (d m) else Table.get d t m := by
  induction vs generalizing t k with
  | nil => simp [Table.putList]
  | cons v vs ih =>
    rw [Table.putList]
    by_cases h : m = k
    · subst h
      rw [Table.get_putList_lt d vs _ _ m (by omega)]
      simp
    · rw [ih, Table.get_put_ne d t k m v h]
      by_cases h1 : k + 1 ≤ m ∧ m < k + 1 + vs.length
      · have h2 : k ≤ m ∧ m < k + (v :: vs).length := by simp; omega
        obtain ⟨n, hn⟩ : ∃ n, m - k = n + 1 := ⟨m - k - 1, by omega⟩
        have h3 : m - (k + 1) = n := by omega
        rw [if_pos h1, if_pos h2, hn, h3]; rfl
      · have h2 : ¬ (k ≤ m ∧ m < k + (v :: vs).length) := by simp; omega
        rw [if_neg h1, if_neg h2]

/-! ### Canonical form -/

theorem Table.wfFrom_mono [DecidableEq α] (d : Nat → α) (t : Table α) (a b : Nat) (h : a ≤ b)
    (w : Table.wfFrom d b t = true) : Table.wfFrom d a t = true := by
  cases t with
  | nil => rfl
  | cons e t =>
    simp only [Table.wfFrom, Bool.and_eq_true, decide_eq_true_eq] at w ⊢
    exact ⟨⟨by omega, w.1.2⟩, w.2⟩

theorem Table.wfFrom_del [DecidableEq α] (d : Nat → α) (t : Table α) (a k : Nat) (w : Table.wfFrom d a t = true) :
    Table.wfFrom d a (Table.del t k) = true := by
  induction t generalizing a with
  | nil => rfl
  | cons e t ih =>
    obtain ⟨j, v⟩ := e
    simp only [Table.wfFrom, Bool.and_eq_true, decide_eq_true_eq] at w
    unfold Table.del
    split
    · exact Table.wfFrom_mono d _ a (j + 1) (by omega) (ih _ w.2)
    · simp only [Table.wfFrom, Bool.and_eq_true, decide_eq_true_eq]
      exact ⟨w.1, ih _ w.2⟩

theorem Table.wfFrom_ins [DecidableEq α] (d : Nat → α) (t : Table α) (a k : Nat) (v : α) (ha : a ≤ k) (hv : v ≠ d k)
    (hk : ∀ e ∈ t, e.1 ≠ k) (w : Table.wfFrom d a t = true) : Table.wfFrom d a (Table.ins t k v) = true := by
  induction t generalizing a with
  | nil => simp [Table.ins, Table.wfFrom, ha, hv]
  | cons e t ih =>
    obtain ⟨j, u⟩ := e
    have hj : j ≠ k := hk (j, u) (by simp)
    simp only [Table.wfFrom, Bool.and_eq_true, decide_eq_true_eq] at w
    unfold Table.ins
    split
    · simp only [Table.wfFrom, Bool.and_eq_true, decide_eq_true_eq]
      exact ⟨⟨ha, hv⟩, ⟨by omega, w.1.2⟩, w.2⟩
    · simp only [Table.wfFrom, Bool.and_eq_true, decide_eq_true_eq]
      exact ⟨w.1, ih _ (by omega) (fun e he => hk e (by simp [he])) w.2⟩

/-- A write keeps the canonical form. -/
theorem Table.wf_put [DecidableEq α] (d : Nat → α) (t : Table α) (k : Nat) (v : α) (w : Table.wf d t = true) :
    Table.wf d (Table.put d t k v) = true := by
  unfold Table.wf at w ⊢
  unfold Table.put
  split
  · exact Table.wfFrom_del d t 0 k w
  · rename_i hv
    exact Table.wfFrom_ins d _ 0 k v (by omega) hv (fun e he => (Table.mem_del t k e he).2) (Table.wfFrom_del d t 0 k w)

/-- A run of writes keeps the canonical form. -/
theorem Table.wf_putList [DecidableEq α] (d : Nat → α) (vs : List α) (t : Table α) (k : Nat) (w : Table.wf d t = true) :
    Table.wf d (Table.putList d t k vs) = true := by
  induction vs generalizing t k with
  | nil => exact w
  | cons v vs ih => exact ih _ _ (Table.wf_put d t k v w)

theorem Table.wfFrom_clear [DecidableEq α] (d : Nat → α) (p : Nat → Bool) (t : Table α) (a : Nat)
    (w : Table.wfFrom d a t = true) : Table.wfFrom d a (Table.clear p t) = true := by
  induction t generalizing a with
  | nil => rfl
  | cons e t ih =>
    obtain ⟨j, v⟩ := e
    simp only [Table.wfFrom, Bool.and_eq_true, decide_eq_true_eq] at w
    have := ih _ w.2
    unfold Table.clear at this ⊢
    by_cases hp : p j
    · simp only [List.filter_cons, hp, Bool.not_true, Bool.false_eq_true, if_false]
      exact Table.wfFrom_mono d _ a (j + 1) (by omega) this
    · simp only [List.filter_cons, hp, Bool.not_false, if_true, Table.wfFrom, Bool.and_eq_true, decide_eq_true_eq]
      exact ⟨w.1, this⟩

/-- Clearing keeps the canonical form. -/
theorem Table.wf_clear [DecidableEq α] (d : Nat → α) (p : Nat → Bool) (t : Table α) (w : Table.wf d t = true) :
    Table.wf d (Table.clear p t) = true := Table.wfFrom_clear d p t 0 w

/-- A key below every listed key reads as unlisted. -/
theorem Table.wfFrom_get_lt [DecidableEq α] (d : Nat → α) (t : Table α) (a k : Nat) (h : k < a)
    (w : Table.wfFrom d a t = true) : Table.get d t k = d k := by
  induction t generalizing a with
  | nil => rfl
  | cons e t ih =>
    obtain ⟨j, v⟩ := e
    simp only [Table.wfFrom, Bool.and_eq_true, decide_eq_true_eq] at w
    have : j ≠ k := by omega
    simp [Table.get, this, ih (j + 1) (by omega) w.2]

end Sys2Proof.Machine
end

