-- ==== Sys2Proof/Laws/Regs.lean ====
section
/-! SUPPORT. Laws of registers: what a register or a field reads after a register, a field or something else was written. -/

namespace Sys2Proof.Machine

@[simp] theorem State.reg_setReg_same (s : State) (a : Nat) (v : Word) : (s.setReg a v).reg a = v :=
  Table.get_put_same _ _ _ _

theorem State.reg_setReg_ne (s : State) (a b : Nat) (v : Word) (h : b ≠ a) : (s.setReg a v).reg b = s.reg b :=
  Table.get_put_ne _ _ _ _ _ h

theorem State.reg_setReg (s : State) (a b : Nat) (v : Word) : (s.setReg a v).reg b = if b = a then v else s.reg b :=
  Table.get_put _ _ _ _ _

@[simp] theorem State.reg_setFld_same (s : State) (a hi lo x : Nat) :
    (s.setFld a hi lo x).reg a = setBits (s.reg a) hi lo x := State.reg_setReg_same _ _ _

theorem State.reg_setFld_ne (s : State) (a b hi lo x : Nat) (h : b ≠ a) : (s.setFld a hi lo x).reg b = s.reg b :=
  State.reg_setReg_ne _ _ _ _ h

/-- A field just written reads what was written, cut to its width. -/
theorem State.fld_setFld_same (s : State) (a hi lo x : Nat) (h : lo ≤ hi) (h32 : hi < 32) :
    (s.setFld a hi lo x).fld a hi lo = x % 2 ^ (hi + 1 - lo) := by
  unfold State.fld; rw [State.reg_setFld_same, bits_setBits_same _ _ _ _ h h32]

/-- Another field of the same register keeps its value. -/
theorem State.fld_setFld_apart (s : State) (a hi lo hi' lo' x : Nat) (h : lo ≤ hi) (h32 : hi < 32) (h' : lo' ≤ hi')
    (h32' : hi' < 32) (d : hi < lo' ∨ hi' < lo) : (s.setFld a hi' lo' x).fld a hi lo = s.fld a hi lo := by
  unfold State.fld; rw [State.reg_setFld_same, bits_setBits_apart _ _ _ _ _ _ h h32 h' h32' d]

/-- A field of another register keeps its value. -/
theorem State.fld_setFld_ne (s : State) (a b hi lo hi' lo' x : Nat) (h : b ≠ a) :
    (s.setFld a hi' lo' x).fld b hi lo = s.fld b hi lo := by
  unfold State.fld; rw [State.reg_setFld_ne _ _ _ _ _ _ h]

theorem State.fld_setReg_ne (s : State) (a b hi lo : Nat) (v : Word) (h : b ≠ a) :
    (s.setReg a v).fld b hi lo = s.fld b hi lo := by
  unfold State.fld; rw [State.reg_setReg_ne _ _ _ _ h]

@[simp] theorem State.fld_setReg_same (s : State) (a hi lo : Nat) (v : Word) :
    (s.setReg a v).fld a hi lo = bits v hi lo := by
  unfold State.fld; rw [State.reg_setReg_same]

/-- A register reset reads its reset value, any other as before. -/
theorem State.reg_resetRegs (s : State) (p : Nat → Bool) (a : Nat) :
    (s.resetRegs p).reg a = if p a then regReset a else s.reg a := Table.get_clear _ _ _ _

/-- Registers read the same in states with the same registers. -/
theorem State.reg_congr {s t : State} (h : s.regs = t.regs) (a : Nat) : s.reg a = t.reg a := by
  unfold State.reg; rw [h]
theorem State.fld_congr {s t : State} (h : s.regs = t.regs) (a hi lo : Nat) : s.fld a hi lo = t.fld a hi lo := by
  unfold State.fld; rw [State.reg_congr h]

@[simp] theorem State.reg_done (s : State) (c : Byte) (a : Nat) : (s.done c).reg a = s.reg a := rfl
@[simp] theorem State.reg_val (s : State) (v a : Nat) : (s.val v).reg a = s.reg a := rfl
@[simp] theorem State.reg_emit (s : State) (o : Out) (a : Nat) : (s.emit o).reg a = s.reg a := rfl
@[simp] theorem State.reg_took (s : State) (n a : Nat) : (s.took n).reg a = s.reg a := rfl
@[simp] theorem State.reg_store (s : State) (o : Nat) (b : Bytes) (a : Nat) : (s.store o b).reg a = s.reg a := rfl
@[simp] theorem State.reg_hubStore (s : State) (o : Nat) (b : Bytes) (a : Nat) : (s.hubStore o b).reg a = s.reg a := rfl
@[simp] theorem State.reg_setStage (s : State) (i : Nat) (x : Stage) (a : Nat) : (s.setStage i x).reg a = s.reg a := rfl
@[simp] theorem State.reg_setStrand (s : State) (i : Nat) (x : Strand) (a : Nat) : (s.setStrand i x).reg a = s.reg a := rfl
@[simp] theorem State.reg_setQueue (s : State) (q : Nat) (x : PktQ) (a : Nat) : (s.setQueue q x).reg a = s.reg a := rfl
@[simp] theorem State.reg_setCtx (s : State) (c : Nat) (x : CtxSt) (a : Nat) : (s.setCtx c x).reg a = s.reg a := rfl
@[simp] theorem State.reg_setConn (s : State) (i : Nat) (c : Conn) (a : Nat) : (s.setConn i c).reg a = s.reg a := rfl
@[simp] theorem State.reg_setBank (s : State) (d b : Nat) (x : BankX) (a : Nat) : (s.setBank d b x).reg a = s.reg a := rfl
@[simp] theorem State.fld_done (s : State) (c : Byte) (a hi lo : Nat) : (s.done c).fld a hi lo = s.fld a hi lo := rfl
@[simp] theorem State.fld_val (s : State) (v a hi lo : Nat) : (s.val v).fld a hi lo = s.fld a hi lo := rfl
@[simp] theorem State.fld_emit (s : State) (o : Out) (a hi lo : Nat) : (s.emit o).fld a hi lo = s.fld a hi lo := rfl
@[simp] theorem State.fld_took (s : State) (n a hi lo : Nat) : (s.took n).fld a hi lo = s.fld a hi lo := rfl
@[simp] theorem State.fld_hubStore (s : State) (o : Nat) (b : Bytes) (a hi lo : Nat) :
    (s.hubStore o b).fld a hi lo = s.fld a hi lo := rfl
@[simp] theorem State.fld_setQueue (s : State) (q : Nat) (x : PktQ) (a hi lo : Nat) :
    (s.setQueue q x).fld a hi lo = s.fld a hi lo := rfl

@[simp] theorem State.done_reply (s : State) (c : Byte) : (s.done c).reply = ⟨c, 0⟩ := rfl
@[simp] theorem State.val_reply (s : State) (v : Nat) : (s.val v).reply = ⟨Code.ok, BitVec.ofNat 64 v⟩ := rfl

/-! ### Units -/

@[simp] theorem State.stage_setStage_same (s : State) (i : Nat) (x : Stage) : (s.setStage i x).stage i = x :=
  Table.get_put_same _ _ _ _
theorem State.stage_setStage_ne (s : State) (i j : Nat) (x : Stage) (h : j ≠ i) : (s.setStage i x).stage j = s.stage j :=
  Table.get_put_ne _ _ _ _ _ h
@[simp] theorem State.strand_setStrand_same (s : State) (i : Nat) (x : Strand) : (s.setStrand i x).strand i = x :=
  Table.get_put_same _ _ _ _
@[simp] theorem State.queue_setQueue_same (s : State) (q : Nat) (x : PktQ) : (s.setQueue q x).queue q = x :=
  Table.get_put_same _ _ _ _
theorem State.queue_setQueue_ne (s : State) (q r : Nat) (x : PktQ) (h : r ≠ q) : (s.setQueue q x).queue r = s.queue r :=
  Table.get_put_ne _ _ _ _ _ h
@[simp] theorem State.ctx_setCtx_same (s : State) (c : Nat) (x : CtxSt) : (s.setCtx c x).ctx c = x :=
  Table.get_put_same _ _ _ _
@[simp] theorem State.conn_setConn_same (s : State) (i : Nat) (c : Conn) : (s.setConn i c).conn i = c :=
  Table.get_put_same _ _ _ _
@[simp] theorem State.bank_setBank_same (s : State) (d b : Nat) (x : BankX) : (s.setBank d b x).bank d b = x :=
  Table.get_put_same _ _ _ _

end Sys2Proof.Machine
end

