-- ==== Sys2Proof/Laws/Grirad.lean ====
section
/-! SUPPORT. Laws of issuing, taking operands and retiring: what the shared operations of a Grirad instruction answer,
said once. -/

namespace Sys2Proof.Machine

/-- The opcode stands in bits [63:56] of a word (R133). -/
theorem word_opc (f : Fields) (opc : Nat) (h : opc < 256) : (f.word opc).toNat / 2 ^ 56 = opc := by
  have h1 := f.dst.isLt; have h2 := f.sa.isLt; have h3 := f.sb.isLt
  have h4 := f.sc.isLt; have h5 := f.mod.isLt; have h6 := f.imm.isLt
  simp only [Fields.word, Fields.d, Fields.a, Fields.b, Fields.c, Fields.i, BitVec.toNat_ofNat]
  omega

/-- A command that its stage takes runs its own effect on the stage. -/
theorem State.issue_eq (s : State) (l : Loc) (opc : Nat) (f : Fields) (sh : Shape) (k : Stage → State)
    (h : s.issues l opc f sh) (ha : assignedOpc opc = true) (hb : opc < 256) : s.issue l opc f sh k = k (s.stage l.ix) := by
  obtain ⟨h1, h2, h3, h4⟩ := h
  have h2' : ¬ (s.stage l.ix).codeWords ≤ (s.stage l.ix).pc := by omega
  unfold State.issue
  simp only [h1, h2', h3, h4, word_opc f opc hb, ha]
  simp

/-- Registers without an uncorrectable word. -/
theorem Stage.firstBad_none (x : Stage) (regs : List Nat) (h : x.readable regs) : x.firstBad regs = none := by
  induction regs with
  | nil => rfl
  | cons r rs ih =>
    simp only [Stage.firstBad, h r (List.mem_cons_self ..), ih (fun q hq => h q (List.mem_cons_of_mem _ hq))]

/-- The tile operands of an instruction that can use them all. -/
theorem State.operands_eq (s : State) (l : Loc) (f : Fields) (x : Stage) (regs : List Nat) (dst : Option Nat)
    (k : Tile → Stage → State) (t : Tile) (y : Stage) (hr : x.readable regs) (hs : x.source l f = some (t, y))
    (kept : Nat → Nat) : s.operands l f x regs dst k kept = k t y := by
  unfold Stage.source at hs
  unfold State.operands
  by_cases h2 : f.hint = 2
  · simp only [h2, if_true, Stage.firstBad_none x regs hr] at hs ⊢
    unfold State.withSlot
    split at hs
    · next t' y' e =>
      rw [e]
      split at hs
      · cases hs
      · next hd => cases hs; simp [hd]
    · cases hs
  · simp only [h2, if_false] at hs ⊢
    split at hs
    · cases hs
    · next hd =>
      cases hs
      rw [Stage.firstBad_none]
      intro r hm
      rcases List.mem_cons.mp hm with rfl | hm
      · simpa using hd
      · exact hr r hm

@[simp] theorem Stage.tr_setT_same (x : Stage) (i : Nat) (t : Tile) : (x.setT i t).tr i = t := Table.get_put_same _ _ _ _
theorem Stage.tr_setT_ne (x : Stage) (i j : Nat) (t : Tile) (h : j ≠ i) : (x.setT i t).tr j = x.tr j :=
  Table.get_put_ne _ _ _ _ _ h
@[simp] theorem Stage.sr_setS_same (x : Stage) (i : Nat) (v : DWord) : (x.setS i v).sr i = v := Table.get_put_same _ _ _ _
theorem Stage.sr_setS_ne (x : Stage) (i j : Nat) (v : DWord) (h : j ≠ i) : (x.setS i v).sr j = x.sr j :=
  Table.get_put_ne _ _ _ _ _ h

/-- Retiring changes nothing but the stage and the reply. -/
theorem State.retire_onlyStage (s : State) (l : Loc) (x : Stage) : s.onlyStage (s.retire l x) l.ix :=
  ⟨rfl, fun _ h => Table.get_put_ne _ _ _ _ _ h⟩

theorem State.took_retire_onlyStage (s : State) (l : Loc) (x : Stage) (n : Nat) :
    s.onlyStage ((s.took n).retire l x) l.ix :=
  ⟨rfl, fun _ h => Table.get_put_ne _ _ _ _ _ h⟩

@[simp] theorem State.retire_stage (s : State) (l : Loc) (x : Stage) :
    (s.retire l x).stage l.ix = { x with pc := (stepLoops x.pc x.loops).1, loops := (stepLoops x.pc x.loops).2 } :=
  Table.get_put_same _ _ _ _

/-- The stage after a tile register is written and the instruction has retired. -/
theorem Stage.wroteT_retire (y : Stage) (d : Nat) (t : Tile) :
    y.wroteT { y.setT d t with pc := (stepLoops y.pc y.loops).1, loops := (stepLoops y.pc y.loops).2 } d :=
  ⟨rfl, rfl, fun _ h => Table.get_put_ne _ _ _ _ _ h⟩

/-- What a table of n words reads. -/
theorem get_wordsOf (n : Nat) (v : Nat → DWord) (i : Nat) :
    Table.get (fun _ => 0) (wordsOf n v) i = if i < n then v i else 0 := by
  have key : ∀ (l : List Nat), Table.get (fun _ => 0) ((l.map (fun i => (i, v i))).filter (fun e => decide (e.2 ≠ 0))) i =
      if i ∈ l then v i else 0 := by
    intro l
    induction l with
    | nil => rfl
    | cons a as ih =>
      by_cases ha : v a = 0
      · simp only [List.map_cons, List.filter_cons, ha, ne_eq, not_true_eq_false, decide_false, Bool.false_eq_true,
          if_false, List.mem_cons]
        simp only [ne_eq] at ih
        rw [ih]
        by_cases hi : i = a
        · subst hi; simp [ha]
        · simp [hi]
      · simp only [List.map_cons, List.filter_cons, ha, ne_eq, not_false_eq_true, decide_true, if_true, List.mem_cons]
        simp only [ne_eq] at ih
        rw [Table.get, ih]
        by_cases hi : a = i
        · subst hi; simp
        · have : ¬ i = a := fun h => hi h.symm
          simp [hi, this]
  have := key (List.range n)
  simpa [wordsOf, List.mem_range] using this

theorem Tile.w_wordsOf (t : Tile) (n : Nat) (v : Nat → DWord) (i : Nat) (h : i < n) :
    ({ t with words := wordsOf n v } : Tile).w i = v i := by
  unfold Tile.w; rw [get_wordsOf, if_pos h]

end Sys2Proof.Machine
end

