-- ==== Sys2Proof/Laws/Memory.lean ====
section
/-! SUPPORT. Laws of the memories: a read after a write, other bytes alone, and that every operation keeps the canonical
form. -/

namespace Sys2Proof.Machine

/-- What a byte of HBM or a bank reads after a store: the byte stored there, or the old one. -/
theorem State.byte_store (s : State) (a m : Nat) (b : Bytes) :
    (s.store a b).byte m = if a ≤ m ∧ m < a + b.length then b.getD (m - a) 0 else s.byte m :=
  Table.get_putList _ _ _ _ _

/-- A store leaves every byte outside it alone. -/
theorem State.byte_store_outside (s : State) (a m : Nat) (b : Bytes) (h : m < a ∨ a + b.length ≤ m) :
    (s.store a b).byte m = s.byte m := by
  rw [State.byte_store, if_neg (by omega)]

/-- A zeroed range reads zero, every other byte as before. -/
theorem State.byte_zeroMem (s : State) (a n m : Nat) :
    (s.zeroMem a n).byte m = if a ≤ m ∧ m < a + n then 0 else s.byte m := by
  unfold State.byte State.zeroMem
  rw [Table.get_clear]
  by_cases h : a ≤ m ∧ m < a + n <;> simp [h, blank]

@[simp] theorem State.byte_setReg (s : State) (a : Nat) (v : Word) (m : Nat) : (s.setReg a v).byte m = s.byte m := rfl
@[simp] theorem State.byte_setFld (s : State) (a hi lo x m : Nat) : (s.setFld a hi lo x).byte m = s.byte m := rfl
@[simp] theorem State.byte_done (s : State) (c : Byte) (m : Nat) : (s.done c).byte m = s.byte m := rfl
@[simp] theorem State.byte_hubStore (s : State) (o : Nat) (b : Bytes) (m : Nat) : (s.hubStore o b).byte m = s.byte m := rfl

/-- The memories of two states agree, so one is canonical when the other is. -/
theorem State.memWf_congr {s t : State} (h : s.mem = t.mem) (h' : s.hubMem = t.hubMem) : s.memWf = t.memWf := by
  unfold State.memWf; rw [h, h']

theorem State.memWf_store (s : State) (a : Nat) (b : Bytes) (w : s.memWf = true) : (s.store a b).memWf = true := by
  unfold State.memWf at w ⊢
  simp only [Bool.and_eq_true] at w ⊢
  exact ⟨Table.wf_putList _ _ _ _ w.1, w.2⟩

theorem State.memWf_hubStore (s : State) (o : Nat) (b : Bytes) (w : s.memWf = true) : (s.hubStore o b).memWf = true := by
  unfold State.memWf at w ⊢
  simp only [Bool.and_eq_true] at w ⊢
  exact ⟨w.1, Table.wf_putList _ _ _ _ w.2⟩

theorem State.memWf_zeroMem (s : State) (a n : Nat) (w : s.memWf = true) : (s.zeroMem a n).memWf = true := by
  unfold State.memWf at w ⊢
  simp only [Bool.and_eq_true] at w ⊢
  exact ⟨Table.wf_clear blank (fun k => decide (a ≤ k ∧ k < a + n)) s.mem w.1, w.2⟩

/-- A state whose memories are those of a canonical state is canonical. -/
theorem State.memWf_of {s t : State} (h : t.mem = s.mem) (h' : t.hubMem = s.hubMem) (w : s.memWf = true) :
    t.memWf = true := (State.memWf_congr h h').trans w

@[simp] theorem State.hubStore_hubMem (s : State) (o : Nat) (b : Bytes) :
    (s.hubStore o b).hubMem = Table.putList blank s.hubMem o b := rfl
@[simp] theorem State.store_mem (s : State) (a : Nat) (b : Bytes) :
    (s.store a b).mem = Table.putList blank s.mem a b := rfl

theorem State.memWf_iff (s : State) : s.memWf = true ↔ Table.wf blank s.mem = true ∧ Table.wf blank s.hubMem = true := by
  unfold State.memWf; exact Bool.and_eq_true _ _ ▸ Iff.rfl

/-- Offering an event record keeps the memories canonical. -/
theorem State.memWf_post (s : State) (q : Nat) (e : Ev) (w : s.memWf = true) : (s.post q e).memWf = true := by
  unfold State.post
  dsimp only
  split
  · exact State.memWf_of (s := s) (by simp) (by simp) w
  · rw [State.memWf_iff] at w ⊢
    simp only [State.evqRefresh, State.setFld_mem, State.setFld_hubMem, State.hubStore_mem, State.hubStore_hubMem]
    exact ⟨w.1, Table.wf_putList _ _ _ _ w.2⟩

end Sys2Proof.Machine
end

