-- ==== Sys2Proof/Laws/Links.lean ====
section
/-! SUPPORT. Laws of the die-to-die links: clean ports change nothing, and a crossing leaves the memories alone but for the
record it may write. -/

namespace Sys2Proof.Machine

theorem PortTable.get_good (t : Table PortX) (h : t.all (fun e => decide (e.2.mark = .good)) = true) (k : Nat) :
    (Table.get (fun _ => PortX.zero) t k).mark = .good := by
  induction t with
  | nil => rfl
  | cons e t ih =>
    obtain ⟨j, x⟩ := e
    rw [List.all_cons, Bool.and_eq_true] at h
    unfold Table.get
    split
    · exact of_decide_eq_true h.1
    · exact ih h.2

/-- A port of a module whose links are clean holds a good word. -/
theorem State.port_good (s : State) (h : s.linksClean = true) (k : Nat) : (s.port k).mark = .good :=
  PortTable.get_good _ h k

/-- Clean ports leave the state as it is and poison nothing (R16). -/
theorem State.crossPorts_clean (s : State) (h : s.linksClean = true) (ps : List Nat) : s.crossPorts ps = (s, false) := by
  induction ps with
  | nil => rfl
  | cons k ks ih => rw [State.crossPorts, s.port_good h k]; exact ih

theorem Line.carried_clean (x : Line) (h : x.st.linksClean = true) (a b : Nat) : x.carried a b = x := by
  unfold Line.carried
  split
  · rfl
  · simp [x.st.crossPorts_clean h]

/-- A read whose state has clean links is the read where the line stands. -/
theorem State.readLine_clean (s : State) (r : Requester) (a : Nat) (fold : Bool)
    (h : (s.readHere r a fold).st.linksClean = true) : s.readLine r a fold = s.readHere r a fold :=
  Line.carried_clean _ h _ _

/-- A failed or waiting read carries nothing. -/
theorem State.readLine_failed (s : State) (r : Requester) (a : Nat) (fold : Bool)
    (h : (s.readHere r a fold).stall = true ∨ (s.readHere r a fold).code ≠ Code.ok) :
    s.readLine r a fold = s.readHere r a fold := if_pos h

/-- A write with clean links is the write where the line stands. -/
theorem State.writeLine_clean (s : State) (r : Requester) (a : Nat) (b : Bytes) (fold : Bool) (h : s.linksClean = true) :
    s.writeLine r a b fold = s.writeHere r a b fold := by
  simp [State.writeLine, s.crossPorts_clean h]

/-- With clean links what passes between dies arrives. -/
theorem State.across_clean (s : State) (h : s.linksClean = true) (a b : Nat) (bad k : State → State) :
    s.across a b bad k = k s := by
  simp [State.across, s.crossPorts_clean h]

/-- What stays on one die passes no link. -/
@[simp] theorem State.across_self (s : State) (a : Nat) (bad k : State → State) : s.across a a bad k = k s := by
  simp [State.across, route, State.crossPorts]

/-- A bank whose ports answer no BANK_BUSY grants the access at once (R39). -/
theorem State.onPort_free (s : State) (r : Requester) (d b : Nat) (k : State → Line) (h : (s.bank d b).busy = 0) :
    s.onPort r d b k = k s := by
  unfold State.onPort; rw [if_pos h]

/-- Every BANK_BUSY answer of a reissued access is counted (R41). -/
theorem State.onPort_dma (s : State) (d b : Nat) (e : Fin 8) (c : Fin 16) (k : State → Line) (h : (s.bank d b).busy ≠ 0) :
    s.onPort (.dma e c) d b k =
      k ((s.setBank d b { s.bank d b with busy := 0 }).countBusy d b (s.bank d b).busy) := by
  unfold State.onPort; rw [if_neg h]

/-- A record leaves every byte of HBM and of the banks, every key and every context as they were. -/
theorem State.post_frame (s : State) (q : Nat) (e : Ev) : (s.post q e).mem = s.mem ∧ (s.post q e).keys = s.keys ∧
    (s.post q e).ctxs = s.ctxs ∧ (s.post q e).ecc = s.ecc ∧ (s.post q e).part = s.part ∧
    (s.post q e).pending = s.pending := by
  unfold State.post
  dsimp only
  split
  · simp
  · simp [State.evqRefresh]

/-- So does a crossing. -/
theorem State.crossPorts_frame (ps : List Nat) : ∀ s : State, (s.crossPorts ps).1.mem = s.mem ∧
    (s.crossPorts ps).1.keys = s.keys ∧ (s.crossPorts ps).1.ctxs = s.ctxs ∧ (s.crossPorts ps).1.ecc = s.ecc ∧
    (s.crossPorts ps).1.part = s.part ∧ (s.crossPorts ps).1.pending = s.pending := by
  induction ps with
  | nil => intro s; exact ⟨rfl, rfl, rfl, rfl, rfl, rfl⟩
  | cons k ks ih =>
    intro s
    rw [State.crossPorts]
    split
    · exact ih s
    · exact ih (s.setPort k ⟨.good, (s.port k).ce + 1⟩)
    · exact State.post_frame (s.setPort k ⟨.good, (s.port k).ce⟩) 0 _

/-- No word was corrected on the way from a state to one with the same ports. -/
theorem State.linkCeTo_same {s t : State} (h : t.d2d = s.d2d) : s.linkCeTo t = 0 := by
  unfold State.linkCeTo State.linkCe
  rw [h, Nat.sub_self]

@[simp] theorem State.linkCeTo_self (s : State) : s.linkCeTo s = 0 := State.linkCeTo_same rfl

theorem State.post_d2d (s : State) (q : Nat) (e : Ev) : (s.post q e).d2d = s.d2d := by
  unfold State.post
  dsimp only
  split
  · simp
  · simp [State.evqRefresh]

theorem State.countCe_d2d (s : State) (a n : Nat) : (s.countCe a n).d2d = s.d2d := by
  unfold State.countCe
  split
  · rfl
  · split <;> simp

theorem State.reportWord_d2d (s : State) (p : Bool) (w : Nat) : (s.reportWord p w).d2d = s.d2d := by
  unfold State.reportWord
  dsimp only
  rw [State.took_d2d]
  split <;> rw [State.post_d2d] <;> simp

theorem State.reportUe_d2d (s : State) (ws : List Nat) (p : Bool) : (s.reportUe ws p).d2d = s.d2d := by
  unfold State.reportUe
  generalize ws.filter _ = vs
  induction vs generalizing s with
  | nil => rfl
  | cons v vs ih => exact (ih (s.reportWord p v)).trans (State.reportWord_d2d s p v)

theorem State.noteErrors_d2d (s : State) (a : Nat) (ws : List Nat) (p : Bool) : (s.noteErrors a ws p).d2d = s.d2d :=
  (State.reportUe_d2d _ ws p).trans (State.countCe_d2d s a _)

theorem State.setMarks_d2d (ws : List Nat) (m : EccMark) : ∀ s : State,
    (ws.foldl (fun t w => t.setMark w m) s).d2d = s.d2d := by
  induction ws with
  | nil => intro s; rfl
  | cons w ws ih => intro s; exact ih (s.setMark w m)

/-- A read or a write of a bank line, and an alias operation, leave the ports alone. -/
theorem State.eccRead_d2d (s : State) (a : Nat) : (s.eccRead a).st.d2d = s.d2d := by
  unfold State.eccRead
  dsimp only
  split
  · exact State.noteErrors_d2d s a _ false
  · exact State.countCe_d2d s a _

theorem State.eccWrite_d2d (s : State) (a : Nat) (b : Bytes) : (s.eccWrite a b).st.d2d = s.d2d := by
  unfold State.eccWrite
  dsimp only
  split
  · exact State.noteErrors_d2d s a _ false
  · simp only [Line.ok, State.store_d2d, State.setMarks_d2d, State.countCe_d2d]

theorem State.soil_d2d (s : State) (d b : Nat) : (s.soil d b).d2d = s.d2d := State.setFld_d2d s _ 29 29 0

theorem Line.ok_st (s : State) (b : Bytes) : (Line.ok s b).st = s := rfl

theorem State.aliasOp_d2d (s : State) (d b o : Nat) (set : Bool) (data : Bytes) :
    (s.aliasOp d b o set data).st.d2d = s.d2d := by
  unfold State.aliasOp
  dsimp only
  split
  · exact State.eccRead_d2d s _
  · show (State.soil _ d b).d2d = s.d2d
    rw [State.soil_d2d, State.store_d2d, State.setMarks_d2d, State.eccRead_d2d]

/-- A crossing keeps the memories canonical. -/
theorem State.memWf_crossPorts (ps : List Nat) : ∀ s : State, s.memWf = true → (s.crossPorts ps).1.memWf = true := by
  induction ps with
  | nil => intro s w; exact w
  | cons k ks ih =>
    intro s w
    rw [State.crossPorts]
    split
    · exact ih s w
    · exact ih _ w
    · exact State.memWf_post (s.setPort k ⟨.good, (s.port k).ce⟩) 0 _ w

/-- Over clean links a write of a hub core does at its die what it does (R8, R16). -/
theorem State.toDie_clean (s : State) (d : Nat) (k : State → State) (h : s.linksClean = true) :
    s.toDie d k = k s := by
  unfold State.toDie
  rw [State.crossPorts_clean s h]
  simp [State.ceReply, State.linkCeTo]

/-- A command on a strand whose domain is ON goes on (R442). -/
theorem State.onStrand_on (s : State) (d st : Nat) (k : State → State) (h : s.pdOn (pdStrand d st) = true) :
    s.onStrand d st k = k s := by
  have h6 : s.pdState (pdStrand d st) ≠ 6 := by
    intro h6; simp [State.pdOn, h6] at h
  unfold State.onStrand
  rw [if_neg h6, if_pos h]

end Sys2Proof.Machine
end

