-- ==== Sys2Proof/Laws/Pmp.lean ====
section
/-! SUPPORT. What an accepted management request does: the shape of every PMP row's meaning. -/

namespace Sys2Proof.Machine

variable {s : State} {p : PmpReq} {opc : Nat} {named : Bool} {k : State → State}

/-- With no hub reset running Daxna's work goes on (R485). -/
theorem State.byDaxna_served (s : State) (k : Result) (h : s.hub.reset = none) : s.byDaxna k = k := by
  unfold State.byDaxna; rw [h]; rfl

/-- While the hub resets it waits. -/
theorem State.byDaxna_waits (s : State) (k : Result) (h : s.hub.reset ≠ none) : s.byDaxna k = .next s.waits := by
  unfold State.byDaxna
  cases hr : s.hub.reset with
  | none => exact absurd hr h
  | some c => rfl

/-- An accepted request runs its command in the state where it is outstanding. -/
theorem pmp_eq (h : s.accepts p opc named) : s.pmp p opc named k = k (s.accepted p opc) := by
  obtain ⟨h1, h2, h3, h4, h5, h6, h7, h8, h9, h10⟩ := h
  have ho : s.orphan p.ident p.reqId = false := by
    simp only [State.orphan, List.any_eq_false, decide_eq_true_eq]
    intro w hw hh
    exact h8 w hw ⟨hh.1, hh.2.1⟩
  have hd : s.mgmt.pending.any (fun w => decide (w.ident = p.ident ∧ w.reqId = p.reqId)) = false := by
    simp only [List.any_eq_false, decide_eq_true_eq]
    exact h8
  have hn : ¬ (named = p.noCtx ∨ (p.noCtx = true ∧ p.c ≠ 0)) := by
    rintro (h | h)
    · rw [h9] at h; exact absurd h (by cases named <;> decide)
    · exact h.2 (h10 h.1)
  have h4' : ¬ 64 ≤ s.outstanding p.conn.val := by omega
  unfold State.pmp
  rw [if_neg (by rintro (h | h) <;> contradiction), if_neg (by rw [h3]; decide), if_neg h4', if_neg (by rw [h5]; decide), h6, h7]
  simp only
  rw [ho, hd, if_neg (by decide), if_neg (by decide), if_neg hn]
  rfl

/-- An outstanding request that carries itself out and changes nothing else is answered. -/
theorem accepted_final (h : s.accepts p opc named) (c : Byte) (b : List Nat) :
    (s.accepted p opc).final p.ident p.reqId c b = s.answered p c b := by
  obtain ⟨h1, h2, h3, h4, h5, h6, h7, h8, h9, h10⟩ := h
  have ho : (s.accepted p opc).orphan p.ident p.reqId = false := by
    simp only [State.orphan, List.any_eq_false, decide_eq_true_eq, List.mem_append, List.mem_singleton]
    rintro w (hw | rfl) hh
    · exact h8 w hw ⟨hh.1, hh.2.1⟩
    · have := hh.2.2
      have := p.conn.isLt
      simp only [noConn] at *
      omega
  have hf : (s.mgmt.pending ++ [(⟨p.conn.val, p.ident, p.reqId, p.ctx, BitVec.ofNat 16 opc, 0⟩ : PmpWork)]).filter
      (fun w => decide (¬ (w.ident = p.ident ∧ w.reqId = p.reqId))) = s.mgmt.pending := by
    rw [List.filter_append, List.filter_eq_self.mpr]
    · simp
    · intro w hw
      simp only [decide_eq_true_eq]
      exact h8 w hw
  simp only [State.final, ho]
  simp only [hf, State.aon, State.pmpSend, State.emit, State.done, State.answered]
  rfl

end Sys2Proof.Machine
end

