-- ==== Sys2Proof/Laws/Rom.lean ====
section
/-! SUPPORT. The ROM primes, whichever of the candidates the ROM holds: 64 of them, each a candidate, descending in each
group (R168). -/

namespace Sys2Proof.Machine

/-- A pick keeps the order of its list. -/
theorem romPick_sublist (xs : List Nat) : ∀ n, (romPick n xs).Sublist xs := by
  induction xs with
  | nil => intro n; exact List.Sublist.refl _
  | cons q qs ih =>
    intro n
    unfold romPick
    split
    · exact (ih (n - 1)).cons_cons q
    · exact (ih n).cons q

/-- A pick has as many primes as are asked for. -/
theorem romPick_length (xs : List Nat) : ∀ n, n ≤ xs.length → (romPick n xs).length = n := by
  induction xs with
  | nil => intro n h; simpa [romPick] using (Nat.le_zero.1 h).symm
  | cons q qs ih =>
    intro n h
    rw [List.length_cons] at h
    unfold romPick
    split
    · next c => rw [List.length_cons, ih (n - 1) (by omega)]; omega
    · next c => exact ih n (by by_contra hc; exact c ⟨by omega, Or.inr (by omega)⟩)

theorem romTable_length : romTable.length = 64 := by
  have h0 : 12 ≤ (romForms0.map formValue).length := by rw [List.length_map]; decide
  have h1 : 16 ≤ (romForms1.map formValue).length := by rw [List.length_map]; decide
  have h2 : 24 ≤ (romForms2.map formValue).length := by rw [List.length_map]; decide
  have h3 : 12 ≤ (romForms3.map formValue).length := by rw [List.length_map]; decide
  simp only [romTable, List.length_append, romPick_length _ _ h0, romPick_length _ _ h1, romPick_length _ _ h2,
    romPick_length _ _ h3]

/-- Each group descends. -/
theorem romGroups_descend : ∀ g, g ∈ [(12, romForms0), (16, romForms1), (24, romForms2), (12, romForms3)] →
    (romPick g.1 (g.2.map formValue)).Pairwise (fun a b => b < a) := by
  have key : ∀ g, g ∈ [(12, romForms0), (16, romForms1), (24, romForms2), (12, romForms3)] →
      (g.2.map formValue).Pairwise (fun a b => b < a) := by decide +kernel
  exact fun g hg => (key g hg).sublist (romPick_sublist _ _)

/-- Every candidate is 1 modulo 2 ^ 18 at the least (R164). -/
theorem romForms_twoadic : ∀ f, f ∈ romForms0 ++ romForms1 ++ romForms2 ++ romForms3 → formValue f % 2 ^ 18 = 1 := by
  decide +kernel

/-- What a ROM prime is. -/
theorem romTable_form {q : Nat} (h : q ∈ romTable) :
    ∃ f, f ∈ romForms0 ++ romForms1 ++ romForms2 ++ romForms3 ∧ q = formValue f := by
  have key : ∀ n (xs : List (Nat × Nat × Nat × Nat)), q ∈ romPick n (xs.map formValue) → ∃ f, f ∈ xs ∧ q = formValue f := by
    intro n xs hq
    obtain ⟨f, hf, e⟩ := List.mem_map.1 ((romPick_sublist _ n).subset hq)
    exact ⟨f, hf, e.symm⟩
  simp only [romTable, List.mem_append] at h
  rcases h with ((h | h) | h) | h <;> obtain ⟨f, hf, e⟩ := key _ _ h <;> exact ⟨f, by simp [hf], e⟩

theorem formValue_pos (f : Nat × Nat × Nat × Nat) : 0 < formValue f := by
  unfold formValue
  split
  · exact Nat.succ_pos _
  · split <;> exact Nat.succ_pos _

theorem romQ_mem (i : Nat) : romQ i ∈ romTable := by
  have h : i % 64 < romTable.length := by rw [romTable_length]; exact Nat.mod_lt _ (by decide)
  rw [romQ, List.getD_eq_getElem?_getD, List.getElem?_eq_getElem h]
  exact List.getElem_mem h

theorem romQ_pos (i : Nat) : 0 < romQ i := by
  obtain ⟨f, _, e⟩ := romTable_form (romQ_mem i)
  rw [e]
  exact formValue_pos f

end Sys2Proof.Machine
end

