-- ==== Sys2Proof/Tests/Slice0.lean ====
section
/-! SUPPORT. Tests: terms that the well-formedness check refuses, single steps with results worked out from the
spec, and for every statement a state and operands that meet the hypotheses of each of its clauses. -/

namespace Sys2Proof.Tests

open Sys2Proof Sys2Proof.Machine

set_option Elab.async false

set_option exponentiation.threshold 520

/-- The state after reset with some registers written. -/
def st (l : List (Nat × Word)) : State := l.foldl (fun t e => t.setReg e.1 e.2) State.reset

/-- A secure 4-byte access of hub core 0. -/
def acc (a : Nat) : Acc := ⟨0, .secure, a, 4⟩

/-- A stage that runs, with one instruction in a program of eight. -/
def stg (opc : Nat) (f : Fields) : Stage := { Stage.zero with run := .running, codeWords := 8, imem := [(0, f.word opc)] }

/-- A state in which that stage's strand runs in context 0, its domain ON; bank 0 of die 0 is the strand's, bank 1 its
accumulator, and the banks' domain is ON. -/
def gs (l : Loc) (x : Stage) : State :=
  { st [(Reg.strandStat l.d l.s, 0x40000000), (Reg.pdStat (pdStrand l.d l.s), 0), (Reg.pdStat (pdBank 0 0), 0),
      (Reg.bankOwner 0 0, 0x40000100 ||| BitVec.ofNat 32 (4096 * l.s)),
      (Reg.bankOwner 0 1, 0x40000500 ||| BitVec.ofNat 32 (4096 * l.s))] with
    stages := [(l.ix, x)] }

/-- A descriptor. -/
def desc (kind index len base : Nat) : QWord := BitVec.ofNat 128 (kind * 2 ^ 120 + index * 2 ^ 112 + len * 2 ^ 48 + base)

/-- Fields with no operand but IMM. -/
def fi (imm : BitVec 24) : Fields := ⟨0, 0, 0, 0, 0, imm⟩

/-- A cipher header. -/
def hd (typ logn limbs level ptr len pset lwen ops flags : Nat) : BitVec 512 :=
  BitVec.ofNat 512 (typ + logn * 2 ^ 8 + limbs * 2 ^ 16 + level * 2 ^ 24 + flags * 2 ^ 48 + pset * 2 ^ 112 + ptr * 2 ^ 128 +
    ops * 2 ^ 200 + lwen * 2 ^ 208 + len * 2 ^ 256)

/-- A poisoned cipher header. -/
def poisonH : BitVec 512 := BitVec.ofNat 512 (2 ^ 48)

/-- An attribute word that every master, use and lifecycle state may have, and a key with it. -/
def anyAttr : Word := 0x801F3F7F
def anyKey : KeyHalf := { KeyHalf.zero with attr := anyAttr }

/-- The HBM PHY group ON, line 1 in a granule of HUB, whose keys stand. -/
def hbmSt : State :=
  { st [(Reg.pdStat 63, 0)] with granule := [(0, 16)], keys := [(32, anyKey), (34, anyKey)] }

/-- A management port with connection 0 open, ADMITTED. -/
def port : Mgmt := { Mgmt.zero with adm := .admitted, conns := [0] }

/-- A request of connection 0 for context 0. -/
def req : PmpReq := ⟨0, 0, 1, 0⟩

/-- A round descriptor of context 0 with one shard of 49 clients: FLAGS, OUTPUT, COORDINATOR, HOST. -/
def rd (flags output coord host : Nat) : Bytes :=
  le 4 7 ++ le 2 0 ++ [0, BitVec.ofNat 8 flags] ++ le 6 0 ++ le 1 output ++ le 1 0 ++ le 8 0 ++
  le 4 1 ++ le 4 1 ++ le 4 1 ++ le 4 (flags % 2) ++ le 4 1 ++ le 4 1 ++ le 2 coord ++ le 2 0 ++ le 4 1 ++ le 72 0 ++
  le 4 5 ++ le 4 1024 ++ le 4 49 ++ le 2 host ++ le 2 0

/-- The cohort of that shard. -/
def coh : List (List QWord) := [(List.range 49).map (BitVec.ofNat 128)]

/-- A round of context 0 in a state. -/
def rnd (b : Bytes) (x : RState) : Round := { newRound b coh with state := x }

/-- Context 0 RESIDENT, the entropy source RUNNING, and a round of it. -/
def rs (r : Round) : State :=
  { st [(Reg.ctxStat 0, 0x20000000), (Reg.entStat, 0x20000000)] with rounds := [(0, some r)] }

/-- A datagram. -/
def dg (typ sub len : Nat) : Aip := { mkAip typ sub 0 5 7 5 0 (List.replicate len 0) with seq := 3 }

/-- A session of context 0 in a state. -/
def ses (x : BitVec 2) : Session := { Session.zero with sid := 5, st := x }

/-- Its record, and a light die whose cache holds it. -/
def srec (x : BitVec 2) : SessRec := { SessRec.zero with sid := 5, st := x, keys := some (0, 0) }
def eld (x : BitVec 2) : EstLd := { EstLd.zero with cache := [(0, ⟨srec x, 0⟩)] }

/-- Context 0 RESIDENT and active in Estuary, with that record cached. -/
def keyed : State := { st [(Reg.ctxStat 0, 0x20000000), (Reg.estGate 0 0, 0x80000000)] with est := [(0, eld 2)] }

/-- Estuary's session region: granule 0, its keys, and the wrap key of context 0. -/
def regionKeys : List (Nat × KeyHalf) := [(36, anyKey), (38, anyKey), (68, anyKey)]

/-- A datagram at the front of light die 0's setup queue. -/
def setupWith (m : Aip) (i : Option Nat) : State → State := fun s => s.setEstLd 0 { EstLd.zero with setup := [⟨i, ⟨0, false, 0, 0, 0⟩, m⟩] }

/-- With no session held, a light die has a free index. -/
theorem index_free : ((st [(Reg.entStat, 0x20000000)]).freeIndex 0).isSome = true := by
  unfold State.freeIndex
  rw [List.find?_isSome]
  exact ⟨0, List.mem_map.2 ⟨0, List.mem_range.2 (by decide), rfl⟩, by decide⟩

/-- A light die each of whose indexes waits for its INSERT has none free. -/
def allTaken (n : Nat) : State := { st [(Reg.entStat, 0x20000000)] with
  est := [(0,
    { EstLd.zero with tx := (List.range n).map (fun i => ⟨1, 0, BitVec.ofNat 22 i, dg 4 0 0, SessRec.zero, 0, 0, 0⟩) })] }
theorem index_none (n : Nat) (hn : 2 ^ 20 ≤ n) : (allTaken n).freeIndex 0 = none := by
  unfold State.freeIndex
  rw [List.find?_eq_none]
  intro i hi
  obtain ⟨e, he, rfl⟩ := List.mem_map.1 hi
  have he' : e < 2 ^ 20 := List.mem_range.1 he
  have hl : ((allTaken n).estLd 0).tx =
      (List.range n).map (fun i => ⟨1, 0, BitVec.ofNat 22 i, dg 4 0 0, SessRec.zero, 0, 0, 0⟩) := rfl
  have ht : (((allTaken n).estLd 0).tx.any (fun d => decide (d.op = 1 ∧ d.index.toNat = 0 * 2 ^ 20 + e))) = true := by
    rw [hl, List.any_eq_true]
    refine ⟨_, List.mem_map.2 ⟨e, List.mem_range.2 (by omega), rfl⟩, ?_⟩
    have : (BitVec.ofNat 22 e).toNat = e := by rw [BitVec.toNat_ofNat]; omega
    simp [this]
  rw [ht, Bool.not_true, Bool.and_false, Bool.false_and]
  exact Bool.false_ne_true

/-- An option that is some. -/
theorem of_isSome {α : Type} (o : Option α) (h : o.isSome = true) : o = some (o.get h) := (Option.some_get h).symm

/-- A profile with one Ethernet entry: lane 0, an IPv4 address, every address zero. -/
def profE : SignedObj := ⟨[], List.replicate 0x56 0 ++ [1] ++ List.replicate 170 0 ++ [1] ++ List.replicate 30 0, [],
  []⟩

/-- A frame on lane 0. -/
def frame (m : Aip) : EthFrame :=
  { lane := 0, fec := 0, fecOk := true, fcsOk := true, size := 128, dstMac := 0, vids := [], etherType := 0x0800, asks := none
    ipOk := true, ipFrag := false, dstIp := 0, proto := 17, udpPort := 0, udpLenOk := true, udpSum := .correct
    ret := ⟨0, false, 0, 0, 0⟩, aip := m }

/-- A Tideway packet of connection 0 with an OP. -/
def pkt (op : Nat) (payload : Bytes) : Packet := ⟨1, 0, 0, 0, 0, 0, BitVec.ofNat 128 (op * 2 ^ 108), payload⟩

/-- A SEND of nothing. -/
def workZ : WorkEntry := ⟨1, 0, 0, 0, 0, 0, 0, 0, 0, 0, 0, 0, 0, false, none, 0⟩

/-- Context 0 can be created, but the interleaved stream's next bit, 0 or 1, fails one of its tests: as the other of its last 40
it is the 795th of the window's first value. -/
def failSt : State :=
  { st [(Reg.entStat, 0x200000FF), (Reg.lcState, 2)] with
    boot := { Boot.zero with profile := some ⟨[], List.replicate 0x54 0 ++ [16], [], []⟩ }
    ent := { EntSt.zero with tests := [(8, ⟨some true, 40, false, 900, 794⟩)] } }

theorem failSt_sample (b : Bool) : (failSt.sampleOsc 0 b).entState = ES.failed := by cases b <;> decide +kernel

theorem sampleOsc_stopped (s : State) (n : Fin 8) (b : Bool) (h : s.entState = ES.failed) : s.sampleOsc n b = s := by
  unfold State.sampleOsc
  rw [if_pos (.inr (by rw [h]; decide))]

theorem failSt_stops : failSt.sample.entState = ES.failed := by
  have h := failSt_sample (failSt.free.getLsbD (0 : Fin 8).val)
  have e : failSt.sample = (failSt.sampleOsc 0 (failSt.free.getLsbD (0 : Fin 8).val)).took 1 := by
    unfold State.sample
    simp only [List.foldl]
    rw [sampleOsc_stopped _ 1 _ h, sampleOsc_stopped _ 2 _ h, sampleOsc_stopped _ 3 _ h, sampleOsc_stopped _ 4 _ h,
      sampleOsc_stopped _ 5 _ h, sampleOsc_stopped _ 6 _ h, sampleOsc_stopped _ 7 _ h]
  rw [e]; exact h

theorem condition_stopped (s : State) (n k : Nat) (h : s.entState = ES.failed) : s.condition n k = s := by
  cases k with
  | zero => rfl
  | succ k => unfold State.condition; rw [if_pos (.inr (.inl (by rw [h]; decide)))]

theorem failSt_blocks : (failSt.takeBlocks 2).entState = ES.failed := by
  have e : failSt.condition 2 (171 * (2 + 2)) = failSt.sample := by
    show failSt.condition 2 (683 + 1) = _
    unfold State.condition
    rw [if_neg (by decide), condition_stopped _ _ _ failSt_stops]
  unfold State.takeBlocks
  simp only [e]
  split <;> exact failSt_stops

theorem failSt_fresh : (failSt.freshSlots [slotMem 0, slotInt 0, slotWrap 0]).2 = Code.entropyUnavailable := by
  have r : failSt.reseedRoot.entRunning = false := by
    have h := failSt_blocks
    unfold State.entState at h
    have g : (failSt.takeBlocks 2).entRunning = false := by unfold State.entRunning; rw [h]; decide
    unfold State.reseedRoot
    simp only [g]
    rw [if_neg (by decide)]
    exact g
  have f : failSt.freshSlot (slotMem 0) = (failSt.reseedRoot, Code.entropyUnavailable) := by
    unfold State.freshSlot
    rw [show slotAttr (slotMem 0) = some ((slotAttr (slotMem 0)).getD 0) by decide]
    simp only [r]
    rfl
  show (State.freshSlots.freshMore (failSt.freshSlot (slotMem 0)) [slotInt 0, slotWrap 0]).2 = _
  rw [f]
  rfl

theorem failSt_code (c : Fin 16) (h : c = 0) :
    (failSt.freshSlots [slotMem c.val, slotInt c.val, slotWrap c.val]).2 ≠ Code.ok := by
  subst h
  exact fun e => absurd (failSt_fresh.symm.trans e) (by decide)

/-- A field of zeros padded or cut to n bytes has n bytes. -/
theorem pad_length (n : Nat) (b : Bytes) : (padTo n b).length = n := by simp [padTo]

theorem le_length (n x : Nat) : (le n x).length = n := by
  induction n generalizing x with
  | zero => rfl
  | succ n ih => simp [le, ih]

theorem be_length (n x : Nat) : (be n x).length = n := by simp [be, le_length]

/-- With KEY_BUF at 0 the buffer holds what is shorter than the secure world's part of hub SRAM. -/
theorem buf_ok (s : State) (n : Nat) (h : s.fld Reg.keyBuf 25 0 = 0) : s.keyBufOk n = decide (n ≤ 0x2000000) := by
  simp [State.keyBufOk, h, secureHub]

theorem public_p384 (k : KeyHalf) (h : k.typ = 3) : k.public.length = 97 := by simp [KeyHalf.public, h, pad_length]

/-- A model object of context 0 with one shard of one element. -/
def modelHdr : Bytes := le 4 0x4D444C31 ++ le 4 0 ++ le 4 1 ++ le 12 0 ++ le 8 32 ++ le 96 0
def modelDir : Bytes := le 4 5 ++ le 4 1 ++ le 8 0 ++ le 8 1 ++ le 8 0x4000

/-- The pages of a directory with one entry of one page. -/
theorem order_one : recordOrder [⟨5, false, 1, 0, 1, 0x4000⟩] 1 = [(⟨5, false, 1, 0, 1, 0x4000⟩, 0, 0)] := by
  have h : pageOrder [⟨5, false, 1, 0, 1, 0x4000⟩] = [(⟨5, false, 1, 0, 1, 0x4000⟩, 0)] :=
    List.mergeSort_singleton _
  rw [recordOrder, h]
  rfl

/-- Context 0 with a key for wrapped records. -/
def modelSt : State :=
  { st [(Reg.ctxStat 0, 0x20000000), (Reg.pdStat 63, 0)] with
    mgmt := port, granule := [(0, 0)], keys := [(64, { KeyHalf.zero with attr := 0x80010440 })] }

theorem import_ok : (modelSt.accepted req 0x0500).importCode 0 modelHdr modelDir 0
    [⟨recHdr 0 0 0 (dirEntOf modelDir, 0, 0), [], 0⟩] = Code.ok := by
  have h1 : (dirParts modelDir).map dirEntOf = [⟨5, false, 1, 0, 1, 0x4000⟩] := by decide +kernel
  have h2 : field modelHdr 5 1 = 0 := by decide +kernel
  have h3 : field modelHdr 0x18 8 = 32 := by decide +kernel
  have h4 : dirEntOf modelDir = ⟨5, false, 1, 0, 1, 0x4000⟩ := by decide +kernel
  unfold State.importCode
  simp only [h1, h2, h3, h4]
  decide +kernel

/-- A line of context 0 that has never been written and whose block is cached reads as zeros. -/
theorem clean_line (s : State) (a d o : Nat) (hp : place s.part a = .hbm d o) (hg : s.granuleOf a = 0)
    (hk : s.bwKeys 0 1 = Code.ok) (h63 : s.pdState 63 = 0)
    (hc : s.cached.get (fun _ => false) (nodeKey (a / s.part.block) 0 (a % s.part.block)) = true)
    (hm : s.minorOf a = 0) (hd : s.d2d = []) :
    s.readLine (.hub .secure (Fin.ofNat 19 0)) a false = .ok s (List.replicate 64 0) := by
  have hx : s.keyIndex (.hub .secure (Fin.ofNat 19 0)) = 0 := rfl
  have h1 : s.bwDenied 0 a 1 = none := by simp [State.bwDenied, hg, hk]
  have h2 : s.hbmGate = none := by simp [State.hbmGate, State.pdOn, h63]
  have h0 : s.newLevels (a / s.part.block) (a % s.part.block) = [] := by simp [State.newLevels, State.inCache, hc]
  have h3 : s.badPath (a / s.part.block) (a % s.part.block) = none := by simp [State.badPath, h0]
  have h4 : s.loadPath a = s := by simp [State.loadPath, h0]
  have hr : s.inReach (.hub .secure (Fin.ofNat 19 0)) a = true := rfl
  have he : s.readHere (.hub .secure (Fin.ofNat 19 0)) a false = .ok s (List.replicate 64 0) := by
    have hm' : mayHbm (.hub .secure (Fin.ofNat 19 0)) = true := by decide
    simp only [State.readHere, hr, hp, hm', not_true, if_true, if_false, hx, State.hbmRead, h1, h2, h3, h4, hm]
  rw [State.readLine_clean _ _ _ _ (by rw [he, Line.ok_st, State.linksClean, hd]; rfl), he]

/-- Lines that read as zeros read as zeros together. -/
theorem clean_lines (s : State) (r : Requester) (as : List Nat)
    (h : ∀ a, a ∈ as → s.readLine r a false = .ok s (List.replicate 64 0)) :
    s.readLines r false as = .ok s (List.replicate (64 * as.length) 0) := by
  induction as with
  | nil => rfl
  | cons a as ih =>
    have ha := h a (by simp)
    have ih' := ih (fun b hb => h b (by simp [hb]))
    have hd : List.replicate (64 * (a :: as).length) (0 : Byte) = List.replicate 64 0 ++ List.replicate (64 * as.length) 0 := by
      rw [List.replicate_append_replicate, List.length_cons, Nat.mul_succ, Nat.add_comm]
    simp only [State.readLines, ha, hd]
    simp only [Line.ok, ih', Bool.false_eq_true, ne_eq, not_true, or_self, if_false]

/-- An encryption of zero in context 0: its header at 0, its data (zeros) at 4096. -/
def zeroHd : BitVec 512 := hd 1 12 1 0 0x1000 65536 0x8000 0 0 0 + BitVec.ofNat 512 (2 ^ 228)

def zeroSt : State :=
  { st [(Reg.ctxStat 0, 0x20000000), (Reg.pdStat 63, 0)] with
    mgmt := port, granule := [(0, 0)], minor := [(0, 1)], crypt := [(0, { LineKeys.zero with ver := 1 })],
      keys := [(64, anyKey), (66, anyKey)]
    cached := (List.range 17).map (fun i => (i, true))
    psets := [(0, BitVec.ofNat 1024 (1 + 12 * 2 ^ 8 + 2 ^ 16 + 2 ^ 32 + 16 * 2 ^ 64))]
    mem := Table.putList blank [] 0 (le 64 zeroHd.toNat) }

theorem line_ext {x y : Line} (h1 : x.st = y.st) (h2 : x.code = y.code) (h3 : x.data = y.data) (h4 : x.stall = y.stall)
    (h5 : x.ce = y.ce) : x = y := by
  obtain ⟨a, b, c, d, e⟩ := x
  obtain ⟨a', b', c', d', e'⟩ := y
  simp_all

/-- Its header is read, -/
theorem zero_header : (zeroSt.accepted req 0x0402).hubGet 0 0 64 = .ok (zeroSt.accepted req 0x0402) (le 64 zeroHd.toNat) :=
  line_ext (by decide +kernel) (by decide +kernel) (by decide +kernel) (by decide +kernel) (by decide +kernel)

theorem data_lines {a : Nat} (h : a ∈ linesOf 0x1000 65536) : ∃ i, i < 1024 ∧ (64 + i) * 64 = a := by
  rw [linesOf, if_neg (by decide)] at h
  exact Exists.elim (List.mem_map.1 h) (fun i h => ⟨i, List.mem_range.1 h.1, h.2⟩)

/-- and its data. -/
theorem zero_data : (zeroSt.accepted req 0x0402).hubGet 0 0x1000 65536 =
    .ok (zeroSt.accepted req 0x0402) (List.replicate 65536 0) := by
  have h := clean_lines (zeroSt.accepted req 0x0402) (.hub .secure (Fin.ofNat 19 0)) (linesOf 0x1000 65536) (by
    intro a ha
    obtain ⟨i, hi, rfl⟩ := data_lines ha
    have hp : place (zeroSt.accepted req 0x0402).part ((64 + i) * 64) = .hbm 0 ((64 + i) * 64) := by
      have h1 : (64 + i) * 64 < 4 * 0x12_00000000 := by omega
      have h2 : (64 + i) * 64 % 0x12_00000000 = (64 + i) * 64 := by omega
      have h3 : (64 + i) * 64 < 0xF_C0000000 := by omega
      have h4 : (64 + i) * 64 / 0x12_00000000 = 0 := by omega
      show place .m12l4 _ = _
      norm_num [place, Part.block, Part.dataSize, Part.m12, h1, h2, h3, h4]
    have h4 : ((64 + i) * 64) / 0x200000 = 0 := by omega
    have h5 : ((64 + i) * 64) / 64 = 64 + i := by omega
    refine clean_line _ _ 0 _ hp ?_ (by decide) (by decide) ?_ ?_ rfl
    · show (Table.get _ [(0, (0 : BitVec 5))] _).toNat = 0
      rw [h4]; rfl
    · have h6 : (64 + i) * 64 / 0x12_00000000 = 0 := by omega
      have h7 : (64 + i) * 64 % 0x12_00000000 = (64 + i) * 64 := by omega
      have h8 : nodeKey 0 0 ((64 + i) * 64) = 1 + i / 64 := by simp [nodeKey]; omega
      show Table.get _ ((List.range 17).map (fun i => (i,
        true))) (nodeKey ((64 + i) * 64 / 0x12_00000000) 0 ((64 + i) * 64 % 0x12_00000000)) = true
      rw [h6, h7, h8]
      have h9 : ∀ j : Fin 17, Table.get (fun _ => false) ((List.range 17).map (fun i => (i,
        true))) j.val = true := by decide
      exact h9 ⟨1 + i / 64, by omega⟩
    · show Table.get _ [(0, (1 : BitVec 6))] _ = 0
      rw [h5]
      simp [Table.get]
      omega)
  simp only [State.hubGet, State.readSpan, h]
  have hl : (linesOf 0x1000 65536).length = 1024 := by rw [linesOf, if_neg (by decide), List.length_map,
    List.length_range]
  have h0 : List.take 65536 (List.drop (4096 % 64) (List.replicate (64 * 1024) (0 : Byte))) = List.replicate 65536 0 := by
    rw [List.drop_replicate, List.take_replicate, show min 65536 (64 * 1024 - 4096 % 64) = 65536 by decide]
  rw [hl]
  exact congrArg (fun d => (⟨_, _, d, _, _⟩ : Line)) h0

theorem zero_read : (zeroSt.accepted req 0x0402).readZeros 0 [0] =
    .ok (zeroSt.accepted req 0x0402) (le 64 zeroHd.toNat ++ List.replicate 65536 0) := by
  have h1 : Hdr.of (BitVec.ofNat 512 (fromLE (le 64 zeroHd.toNat))) = Hdr.of zeroHd := by decide +kernel
  have h2 : (zeroSt.accepted req 0x0402).zeroHdrOk 0 (Hdr.of zeroHd) = true := by decide +kernel
  have h3 : (zeroSt.accepted req 0x0402).inCtxHbm 0 (Hdr.of zeroHd).ptr (Hdr.of zeroHd).len = true := by decide +kernel
  have h4 : (Hdr.of zeroHd).ptr = 0x1000 := by decide +kernel
  have h5 : (Hdr.of zeroHd).len = 65536 := by decide +kernel
  rw [h4, h5] at h3
  simp only [State.readZeros, zero_header, Line.ok, h1, h2, h3, h4, h5, zero_data, Bool.false_eq_true, ne_eq,
    not_true,
    or_self, if_false, List.append_nil]

theorem zero_read' : .ok (zeroSt.accepted req 0x0402) (le 64 zeroHd.toNat ++ List.replicate 65536 0) =
    (zeroSt.accepted req 0x0402).readZeros req.c ([(0 : DWord)].map (fun h => h.toNat)) := by
  have h1 : req.c = 0 := by decide
  have h2 : [(0 : DWord)].map (fun h => h.toNat) = [0] := by decide
  rw [h1, h2, zero_read]

theorem zero_log : (Line.ok (zeroSt.accepted req 0x0402) (le 64 zeroHd.toNat ++ List.replicate 65536 0)).st.logFits
    req.c 112 = true := by
  show (zeroSt.accepted req 0x0402).logFits req.c 112 = true
  decide +kernel

/-! ### Terms that the check refuses -/

/-- An I-strand has five stages. -/
theorem test_wf_istrand_stage : (Instr.vaddQ ⟨0, 0, 5⟩ (fi 0)).wf = false := by decide
/-- An F-strand has four stages. -/
theorem test_wf_fstrand_stage : (Instr.vaddQ ⟨0, 10, 4⟩ (fi 0)).wf = false := by decide
/-- Register space ends at 64 MiB. -/
theorem test_wf_address : (Instr.registerWrite (acc 0x4000000) 0).wf = false := by decide
/-- A thermal sample has 44 readings. -/
theorem test_wf_readings : (Instr.thermalSample []).wf = false := by decide
/-- An alias write stays inside one line. -/
theorem test_wf_alias : (Instr.aliasWrite (.dma 0 0) 60 [1, 2, 3, 4, 5] true).wf = false := by decide
theorem test_wf_exchange : (Instr.aliasExchange (.dma 0 0) 0 [] true).wf = false := by decide
/-- An HBM line begins on 64 bytes and holds 64. -/
theorem test_wf_line : (Instr.hbmLineRead (.dma 0 0) 8).wf = false := by decide
theorem test_wf_line_data : (Instr.hbmLineWrite (.dma 0 0) 64 [1]).wf = false := by decide
/-- A cohort slot is below 2^20. -/
theorem test_wf_slot : (Instr.secretInterpolate 0 0 1048576 true).wf = false := by decide
theorem test_wf_pair : (Instr.pairwiseSeedDerive 0 0 0 1048576).wf = false := by decide
/-- A nonce has 32 bytes. -/
theorem test_wf_nonce : (Instr.attestGet req [] 0).wf = false := by decide
theorem test_wf_admit_nonce : (Instr.admitBegin req [0]).wf = false := by decide
theorem test_wf_statement_nonce : (Instr.keyStatement req 1 []).wf = false := by decide

/-! ### Single steps, with results worked out by hand from the rules named -/

/-- The next state of an outcome. -/
def after (o : Host.Outcome State Fault Refusal) : State :=
  match o with
  | .next t => t
  | _ => State.reset

/-- The stage of a location after a command that runs in a state of its own. -/
def ran (l : Loc) (x : Stage) (i : Instr) : Stage := (after (exec i (gs l x))).stage l.ix

/-- Fields: DST, SA, SB, SC, MOD, IMM. -/
def fld (d a b c : BitVec 5) (m : BitVec 12 := 0) (i : BitVec 24 := 0) : Fields := ⟨d, a, b, c, m, i⟩

/-- The ADD stage of an I-strand. -/
def ia : Loc := ⟨0, 0, 3⟩

/-- A tile with one word. -/
def w0 (v : DWord) : Tile := { Tile.zero with words := [(0, v)] }

/-- 16 + 5 mod 65537 stays below the modulus; 65536 + 5 wraps to 4 (R141). -/
theorem test_vaddQ : ((ran ia { stg 0x00 (fld 0 1 2 0) with q := [(0, 65537)], t := [(1, w0 65536), (2, w0 5)] }
    (.vaddQ ia (fld 0 1 2 0))).tr 0).w 0 = 4 := by decide +kernel
/-- 3 − 5 mod 65537. -/
theorem test_vsubQ : ((ran ia { stg 0x01 (fld 0 1 2 0) with q := [(0, 65537)], t := [(1, w0 3), (2, w0 5)] }
    (.vsubQ ia (fld 0 1 2 0))).tr 0).w 0 = 65535 := by decide +kernel
/-- −0 is 0, and −1 is q − 1. -/
theorem test_vnegQ : ((ran ia { stg 0x04 (fld 0 1 0 0) with q := [(0, 65537)], t := [(1, w0 1)] }
    (.vnegQ ia (fld 0 1 0 0))).tr 0).w 0 = 65536 := by decide +kernel
/-- 65536 × 65536 = (−1)(−1) mod 65537. -/
theorem test_vmulQ : ((ran ia { stg 0x02 (fld 0 1 1 0) with q := [(0, 65537)], t := [(1, w0 65536)] }
    (.vmulQ ia (fld 0 1 1 0))).tr 0).w 0 = 1 := by decide +kernel
/-- Halves wrap apart: no carry from the low 32-bit element into the high one. -/
theorem test_vaddZ32 : ((ran ia { stg 0x08 (fld 0 1 2 0) with t := [(1, w0 0x1_FFFFFFFF), (2, w0 1)] }
    (.vaddZ32 ia (fld 0 1 2 0))).tr 0).w 0 = 0x1_00000000 := by decide +kernel
theorem test_vsubZ64 : ((ran ia { stg 0x0B (fld 0 1 2 0) with t := [(1, w0 0), (2, w0 1)] }
    (.vsubZ64 ia (fld 0 1 2 0))).tr 0).w 0 = 0xFFFFFFFF_FFFFFFFF := by decide +kernel

/-- SLI sign-extends its 24 bits; SLU shifts them in (R159). -/
theorem test_sli : (ran ia (stg 0xC0 (fld 1 0 0 0 0 0xFFFFFF)) (.sli ia (fld 1 0 0 0 0 0xFFFFFF))).sr 1 = 0xFFFFFFFF_FFFFFFFF := by
  decide +kernel
theorem test_slu : (ran ia { stg 0xC1 (fld 1 0 0 0 0 0x800000) with s := [(1, 1)] } (.slu ia (fld 1 0 0 0 0 0x800000))).sr 1 =
    0x1800000 := by decide +kernel
theorem test_sadd_wraps : (ran ia { stg 0xC2 (fld 1 1 2 0) with s := [(1, 0xFFFFFFFF_FFFFFFFF), (2, 2)] }
    (.sadd ia (fld 1 1 2 0))).sr 1 = 1 := by decide +kernel
theorem test_ssub_order : (ran ia { stg 0xC3 (fld 3 1 2 0) with s := [(1, 7), (2, 2)] } (.ssub ia (fld 3 1 2 0))).sr 3 = 5 := by
  decide +kernel
theorem test_smul : (ran ia { stg 0xC4 (fld 3 1 2 0) with s := [(1, 0x1_00000001), (2, 0x1_00000000)] }
    (.smul ia (fld 3 1 2 0))).sr 3 = 0x1_00000000 := by decide +kernel
/-- An arithmetic right shift keeps the sign; a logical one does not. -/
theorem test_sshr_arith : (ran ia { stg 0xC9 (fld 3 1 0 0 0 68) with s := [(1, 0x80000000_00000000)] }
    (.sshr ia (fld 3 1 0 0 0 68))).sr 3 = 0xF8000000_00000000 := by decide +kernel
theorem test_sshr_logical : (ran ia { stg 0xC9 (fld 3 1 0 0 0 4) with s := [(1, 0x80000000_00000000)] }
    (.sshr ia (fld 3 1 0 0 0 4))).sr 3 = 0x08000000_00000000 := by decide +kernel
/-- −1 is below 0 signed (4 LTS) and not unsigned (2 LTU). -/
theorem test_scmp_lts : (ran ia { stg 0xCA (fld 2 1 3 0 0 4) with s := [(1, 0xFFFFFFFF_FFFFFFFF)] }
    (.scmp ia (fld 2 1 3 0 0 4))).pr 2 = true := by decide +kernel
theorem test_scmp_ltu : (ran ia { stg 0xCA (fld 2 1 3 0 0 2) with s := [(1, 0xFFFFFFFF_FFFFFFFF)] }
    (.scmp ia (fld 2 1 3 0 0 2))).pr 2 = false := by decide +kernel
/-- P0 cannot be written: it stays 1 (R109). -/
theorem test_pset_p0 : (ran ia (stg 0xCB (fld 0 1 1 0 0 0)) (.pset ia (fld 0 1 1 0 0 0))).pr 0 = true := by decide +kernel
/-- 2^16 is even and no modulus: the Q register keeps its value and the stage faults (R163, R164). -/
theorem test_qset_refused : (ran ia { stg 0xCE (fld 1 1 0 0) with s := [(1, 65536)] } (.qset ia (fld 1 1 0 0))).qr 1 = 0 := by
  decide +kernel
/-- 2^20 + 2^10 + 1 is of KIND 1, and 4 (20 − 10) is not below 25: it is taken. -/
theorem test_qset_takes : (ran ia { stg 0xCE (fld 1 1 0 0) with s := [(1, 0x100401)] } (.qset ia (fld 1 1 0 0))).qr 1 = 0x100401 := by
  decide +kernel
/-- A loop with a count of zero goes on at END + 1 (R161). -/
theorem test_loop_zero : (ran ia (stg 0xE0 (fld 0 1 0 0 0 3)) (.loop ia (fld 0 1 0 0 0 3))).pc = 4 := by decide +kernel
/-- HALT stops the stage's sequencer. -/
theorem test_halt : (ran ia (stg 0xE7 (fld 0 0 0 0)) (.halt ia (fld 0 0 0 0))).run = .halted := by decide +kernel

/-- 1.5 × 2 + 1 = 4 in FP32 (R158). -/
theorem test_fma : ((ran ⟨0, 10, 1⟩ { stg 0xA0 (fld 0 1 2 3) with
      t := [(1, w0 0x3FC00000), (2, w0 0x40000000), (3, w0 0x3F800000)] }
    (.fmaF32 ⟨0, 10, 1⟩ (fld 0 1 2 3))).tr 0).w 0 = 0x40800000 := by decide +kernel
/-- FP32 codes: 1.0 is 0x3F800000; 1 + 2^-24 lies halfway to the next and goes to the even one. -/
theorem test_round_one : f32.decode 0x3F800000 = .fin false (2 ^ 23) (-23) := by decide +kernel

/-- An error in one nibble of a bank word is corrected and counted in CE_CNT (R55, R56). -/
theorem test_ecc_corrected : (({ st [(Reg.bankOwner 0 0, 0x40000100), (Reg.pdStat (pdBank 0 0), 0)] with
      ecc := [(bankAddr 0 0 0 / 16,
        .oneNibble 3 1)] } : State).readLine (.dma 0 0) (bankAddr 0 0 0) false).st.fld (Reg.bankStat 0 0) 15 0 = 1 := by
  decide +kernel
/-- An uncorrectable one fails the read (R56). -/
theorem test_ecc_uncorrectable : (({ st [(Reg.bankOwner 0 0, 0x40000100), (Reg.pdStat (pdBank 0 0), 0)] with
      ecc := [(bankAddr 0 0 0 / 16, .uncorrectable)] } : State).readLine (.dma 0 0) (bankAddr 0 0 0) false).code =
    Code.eccUncorrectable := by decide +kernel

/-! ### Die-to-die links (R14, R16: traffic from CD2 to CD0 goes through CD3) -/

theorem test_route_opposite : route 2 0 = [2 * 16 + 3, 3 * 16 + 0] := by decide
theorem test_route_light_die : route 5 3 = [5 * 16 + 1, 1 * 16 + 2, 2 * 16 + 3] := by decide
theorem test_link_poison : (({ State.reset with d2d := [(0x30, ⟨.uncorrectable, 0⟩)] } : State).crossPorts
    (route 2 0)).2 = true := by decide +kernel
theorem test_link_record : ((({ State.reset with d2d := [(0x30, ⟨.uncorrectable, 0⟩)] } : State).crossPorts
    (route 2 0)).1.evSeq.get (fun _ => 0) 0) = 1 := by decide +kernel
theorem test_link_corrected : ((({ State.reset with d2d := [(0x23, ⟨.oneNibble 0 1, 6⟩)] } : State).crossPorts
    (route 2 0)).1.port 0x23) = ⟨.good, 7⟩ := by decide +kernel

/-! ### Values worked out by hand -/

/-- 5 + 3x through x = 1, 2 has the value 5 at zero, modulo the order of P-384 too (R196, R202). -/
theorem test_interpolate : interpolate [(1, 8), (2, 11)] = 5 := by decide +kernel
theorem test_interpolate_wraps : interpolate [(1, p384Order - 1), (2, p384Order - 3)] = 1 := by decide +kernel
/-- 1/2 is 0x3F000000 in FP32; 1/3 rounds up to 0x3EAAAAAB (R267). -/
theorem test_recip_two : recip32 2 = 0x3F000000 := by decide +kernel
theorem test_recip_three : recip32 3 = 0x3EAAAAAB := by decide +kernel
/-- With q = 17 the admitted phases are 2 to 5 (R256: ⌊17/8⌋ = 2, ⌊51/8⌋ = 6). -/
theorem test_admit : [1, 2, 5, 6, -3].map (admitBit 17) = [false, true, true, false, false] := by decide
/-- An IDLE frame of 16 bytes: a start block with 7, a data block with 8, and the last in the terminate block (R308). -/
theorem test_pcs : pcsBlocks (le 16 0x0F0E0D0C0B0A09080706050403020100) =
    [.start [0, 1, 2, 3, 4, 5, 6], .data [7, 8, 9, 10, 11, 12, 13, 14], .term [15]] := by decide +kernel
/-- A BANK_BUSY answer ends a hub access; the owning strand is granted later, and both are counted (R40, R41). -/
def busySt : State :=
  { st [(Reg.bankOwner 0 0, 0x40000100), (Reg.pdStat (pdBank 0 0), 0)] with banks := [(0, { BankX.zero with busy := 3 })] }
theorem test_busy_counted : (busySt.readLine (.strand 0 0) (bankAddr 0 0 0) false).st.fld (Reg.bankStat 0 0) 23 16 = 3 := by
  decide +kernel
theorem test_busy_granted : (busySt.readLine (.strand 0 0) (bankAddr 0 0 0) false).code = Code.ok := by decide +kernel
/-- The two buckets of a SESSION_ID are its bits 18:0 and 37:19 (R290). -/
theorem test_buckets : bucketsOf 0x2000180005 = [5, 0x40003] := by decide +kernel

/-! ### Every hypothesis of a statement is met -/

/-- States and operands that meet the hypotheses of each clause of Obligations.StepRunsFront. -/
theorem witness_StepRunsFront :
    ∃ (s : State) (c : Instr) (cs : List Instr), s.pending = c :: cs :=
  ⟨{ State.reset with pending := [.coldReset] }, .coldReset, [], rfl⟩

/-- States and operands that meet the hypotheses of each clause of Obligations.StepKeeps. -/
theorem witness_StepKeeps :
    ∃ (s : State) (t : State), step s = .next t :=
  ⟨{ State.reset with pending := [.pmpConnect] }, _, rfl⟩

/-- States and operands that meet the hypotheses of each clause of Obligations.EmptyQueueTicks. -/
theorem witness_EmptyQueueTicks :
    ∃ (s : State), s.pending = [] :=
  ⟨State.reset, rfl⟩

/-- States and operands that meet the hypotheses of each clause of Obligations.EventQueues. -/
theorem witness_EventQueues :
    (∃ (s : State) (q : Nat), q < 4 ∧ (s.fld (Reg.evqTail q) 11 0 + 1) % 4096 ≠ s.fld (Reg.evqHead q) 11 0) ∧
    (∃ (s : State) (q : Nat), q < 4 ∧ (s.fld (Reg.evqTail q) 11 0 + 1) % 4096 = s.fld (Reg.evqHead q) 11 0) :=
  ⟨⟨State.reset, 3, by decide, by decide⟩,
   ⟨st [(Reg.evqTail 3, 4095)], 3, by decide, by decide⟩⟩

/-- States and operands that meet the hypotheses of each clause of Obligations.OwnerWriteIgnored. -/
theorem witness_OwnerWriteIgnored :
    (∃ (s : State) (a : Acc) (d : Fin 4) (b : Fin 24), a.addr = Reg.bankOwner d.val b.val ∧ a.width = 4 ∧
      a.world = .secure ∧ s.linksClean = true ∧ (s.bst d.val b.val = 2 ∨ s.bst d.val b.val = 3)) ∧
    (∃ (s : State) (a : Acc) (v : Word) (d : Fin 4) (b : Fin 24), a.addr = Reg.bankOwner d.val b.val ∧ a.width = 4 ∧
      a.world = .secure ∧ s.linksClean = true ∧ s.bst d.val b.val ≠ 2 ∧ s.bst d.val b.val ≠ 3 ∧ bits v 10 10 = 0 ∧
      s.bankPinned d.val b.val = false ∧ s.pdState (pdBank d.val b.val) ≠ 6) :=
  ⟨⟨st [(Reg.bankOwner 3 23, 0xC0000000)], acc (Reg.bankOwner 3 23), 3, 23, by decide⟩,
   ⟨State.reset, acc (Reg.bankOwner 0 0), 0x100, 0, 0, by decide⟩⟩

/-- States and operands that meet the hypotheses of each clause of Obligations.DimensionOffsets. -/
theorem witness_DimensionOffsets :
    ∃ (s : State) (i : Nat), i < 3 ∧ s.coord s.ownId i < s.dim i :=
  ⟨State.reset, 2, by decide, by decide⟩

/-- States and operands that meet the hypotheses of each clause of Obligations.OscillatorEnable. -/
theorem witness_OscillatorEnable :
    (∃ (v : Word), oscCount (bits v 7 0) < 6) ∧
    (∃ (v : Word), 6 ≤ oscCount (bits v 7 0)) :=
  ⟨⟨0x1F, by decide⟩,
   ⟨0x3F, by decide⟩⟩

/-- States and operands that meet the hypotheses of each clause of Obligations.PowerDomainCommands. -/
theorem witness_PowerDomainCommands :
    (∃ (s : State) (n : Fin 64), s.pdState n.val = 0 ∧ s.fld (Reg.pdCtl n.val) 31 31 = 0 ∧ 1 ≤ s.pdTgt n.val ∧
      s.pdLevel n.val = false ∧ s.pdRefusal n.val 1 = none) ∧
    (∃ (s : State) (n : Fin 64), s.pdState n.val = 1 ∧ s.fld (Reg.pdCtl n.val) 31 31 = 0 ∧ 2 ≤ s.pdTgt n.val ∧
      s.pdLevel n.val = false ∧ s.pdRefusal n.val (s.pdTgt n.val) = none) ∧
    (∃ (s : State) (n : PdCall), s.pdAbsent n.n.val = false ∧ s.fld (Reg.pdCtl n.n.val) 31 31 = 0 ∧
      s.pdState n.n.val < 4 ∧ s.pdState n.n.val < s.pdTgt n.n.val ∧ s.pdLevel n.n.val = false ∧
      s.pdRefusal n.n.val (s.pdTgt n.n.val) = none) ∧
    (∃ (s : State) (n : Fin 64), s.pdState n.val = 4 ∧ (s.pdx n.val).wake = false ∧
      s.fld (Reg.pdCtl n.val) 31 31 = 0) ∧
    (∃ (s : State) (n : Fin 64), s.pdAbsent n.val = false) ∧
    (∃ (s : State) (n : Fin 64), (s.pdState n.val = 1 ∨ s.pdState n.val = 2 ∨ (s.pdState n.val = 3 ∧
      s.pdMayOff n.val = true))) ∧
    (∃ (s : State) (n : Fin 64), s.pdState n.val = 4) ∧
    (∃ (s : State) (n : Fin 64), s.pdState n.val = 0) ∧
    (∃ (s : State) (n : Fin 64), s.pdState n.val = 6) ∧
    (∃ (s : State) (n : Fin 64), s.pdState n.val = 5 ∧ (s.pdx n.val).from_ ≠ 3) ∧
    (∃ (s : State) (n : Fin 64), s.pdState n.val = 5) ∧
    (∃ (s : State) (n : PdCall), s.pdState n.n.val = 6 ∧ s.fld (Reg.pdCtl n.n.val) 31 31 = 0) :=
  ⟨⟨st [(Reg.pdStat 0, 0), (Reg.pdCtl 0, 0x01000000)], 0, by decide⟩,
   ⟨st [(Reg.pdStat 0, 0x20000000), (Reg.pdCtl 0, 0x02000000)], 0, by decide⟩,
   ⟨st [(Reg.pdStat 0, 0), (Reg.pdCtl 0, 0x03000000)], ⟨0, 0⟩, by decide⟩,
   ⟨st [(Reg.pdStat 0, 0x80000000), (Reg.pdCtl 0, 0)], 0, by decide⟩,
   ⟨State.reset, 63, by decide⟩,
   ⟨st [(Reg.pdStat 0, 0x20000000), (Reg.pdCtl 0, 0)], 0, by decide⟩,
   ⟨st [(Reg.pdStat 0, 0x80000000), (Reg.pdCtl 0, 0)], 0, by decide⟩,
   ⟨st [(Reg.pdStat 0, 0), (Reg.pdCtl 0, 0)], 0, by decide⟩,
   ⟨st [(Reg.pdStat 0, 0xC0000000), (Reg.pdCtl 0, 0)], 0, by decide⟩,
   ⟨st [(Reg.pdStat 0, 0xA0000000), (Reg.pdCtl 0, 0)], 0, by decide, by decide⟩,
   ⟨st [(Reg.pdStat 0, 0xA0000000), (Reg.pdCtl 0, 0)], 0, by decide⟩,
   ⟨st [(Reg.pdStat 0, 0xC0000000), (Reg.pdCtl 0, 0)], ⟨0, 0⟩, by decide, by decide⟩⟩

/-- States and operands that meet the hypotheses of each clause of Obligations.ResetCommands. -/
theorem witness_ResetCommands :
    (∃ (s : State), s.fld Reg.govTherm 23 16 ≤ 90) ∧
    (∃ (s : State), 90 < s.fld Reg.govTherm 23 16) ∧
    (∃ (s : State) (ns : Nat), 10000 ≤ ns ∧ s.fld Reg.govTherm 23 16 ≤ 90) ∧
    (∃ (ns : Nat), ns < 9900) ∧
    (∃ (s : State) (a : Acc), a.addr = Reg.sysReset ∧ a.width = 4 ∧ s.fld Reg.govTherm 23 16 ≤ 90) ∧
    (∃ (a : Acc) (v : Word), a.addr = Reg.sysReset ∧ a.width = 4 ∧ v ≠ 0x5A5A) ∧
    (∃ (s : State) (n : Nat), 20 ≤ n ∧ s.pins.auxOk = true) :=
  ⟨⟨State.reset, by decide⟩,
   ⟨st [(Reg.govTherm, 0x5B0000)], by decide⟩,
   ⟨State.reset, 10000, by decide, by decide⟩,
   ⟨9899, by decide⟩,
   ⟨State.reset, acc Reg.sysReset, by decide⟩,
   ⟨acc Reg.sysReset, 0, by decide⟩,
   ⟨{ State.reset with pins := { Pins.zero with auxOk := true } }, 20, by decide, by decide⟩⟩

/-- States and operands that meet the hypotheses of each clause of Obligations.SuppliesAndBoot. -/
theorem witness_SuppliesAndBoot :
    (∃ (s : State), s.pins.auxOk = false) ∧
    (∃ (s : State), s.pins.auxOk = true ∧ s.pins.sampled = false) ∧
    (∃ (s : State), s.pins.sampled = true) ∧
    (∃ (s : State), s.sup.mainPresent = false) ∧
    (∃ (s : State) (mv : BitVec 16), 4700 ≤ mv.toNat ∧ s.pins.auxOk = true ∧ s.pins.mainReq = true) ∧
    (∃ (s : State) (mv : BitVec 16), mv.toNat < 4600 ∧ s.sup.mainPresent = true ∧ s.pins.mainReq = true) ∧
    (∃ (s : State) (mv : BitVec 16), 6200 < mv.toNat ∧ s.sup.mainPresent = true ∧ s.pins.mainReq = true) ∧
    (∃ (s : State) (u : State), s.sup.mainPresent = true ∧
      u = (((s.setFld Reg.supStat 28 28 1).addFld Reg.supCnt 15 8 1).latchEvent none 0).recordCause 6) ∧
    (∃ (mv : BitVec 16), mv.toNat < 2000) ∧
    (∃ (s : State), s.sup.mainPresent = true ∧ s.pins.mainReq = true ∧ s.fld Reg.supStat 31 29 < 3) ∧
    (∃ (s : State), s.sup.mainPresent = false) ∧
    (∃ (s : State) (u : State), s.sup.mainPresent = true ∧ s.pins.mainReq = true ∧ s.fld Reg.supStat 31 29 = 0 ∧
      u = (List.range 16).foldl (fun t r => t.setFld (Reg.railStat r) 29 24 0) { s with pins := { s.pins with mainGood := true } }) ∧
    (∃ (s : State), s.fld Reg.supStat 31 29 = 1 ∧ s.fld (Reg.railStat 15) 31 30 = 1 ∧ s.sup.step = 6) ∧
    (∃ (s : State) (r : Fin 16), s.fld Reg.supStat 31 29 = 1 ∧ s.fld (Reg.railStat r.val) 31 30 = 1) ∧
    (∃ (s : State), s.fld Reg.supStat 31 29 = 3 ∧ s.sup.step = 0) ∧
    (∃ (s : State) (r : Fin 16), 1 ≤ r.val ∧ s.sup.polls.get (fun _ => 0) r.val = 2) ∧
    (∃ (s : State), s.boot.running = true ∧ s.boot.inReset = false ∧ s.boot.held = none ∧ s.boot.next = 5) ∧
    (∃ (s : State), s.boot.running = true ∧ s.boot.inReset = false ∧ s.boot.held = none ∧ 7 ≤ s.boot.next) ∧
    (∃ (c : Nat), 115 ≤ c) ∧
    (∃ (s : State), s.boot.held = none) :=
  ⟨⟨State.reset, by decide⟩,
   ⟨{ State.reset with pins := { Pins.zero with auxOk := true } }, by decide, by decide⟩,
   ⟨{ State.reset with pins := { Pins.zero with sampled := true } }, by decide⟩,
   ⟨State.reset, by decide⟩,
   ⟨{ State.reset with pins := { Pins.zero with auxOk := true, mainReq := true } }, 4700, by decide⟩,
   ⟨{ State.reset with pins := { Pins.zero with auxOk := true, mainReq := true }, sup := { Sup.zero with mainPresent := true } },
     4599, by decide⟩,
   ⟨{ State.reset with pins := { Pins.zero with auxOk := true, mainReq := true }, sup := { Sup.zero with mainPresent := true } },
     6201, by decide⟩,
   ⟨{ State.reset with pins := { Pins.zero with auxOk := true, mainReq := true }, sup := { Sup.zero with mainPresent := true } },
     _, by decide, rfl⟩,
   ⟨1999, by decide⟩,
   ⟨{ State.reset with pins := { Pins.zero with auxOk := true, mainReq := true }, sup := { Sup.zero with mainPresent := true } },
     by decide⟩,
   ⟨State.reset, by decide⟩,
   ⟨{ State.reset with pins := { Pins.zero with auxOk := true, mainReq := true }, sup := { Sup.zero with mainPresent := true } },
     _, by decide, by decide, by decide, rfl⟩,
   ⟨{ st [(Reg.supStat, 0x20000000), (Reg.railStat 15, 0x40000000)] with sup := { Sup.zero with step := 6 } },
     by decide⟩,
   ⟨st [(Reg.supStat, 0x20000000), (Reg.railStat 3, 0x40000000)], 3, by decide, by decide⟩,
   ⟨st [(Reg.supStat, 0x60000000)], by decide, by decide⟩,
   ⟨{ State.reset with sup := { Sup.zero with polls := [(1, 2)] } }, 1, by decide, by decide⟩,
   ⟨{ State.reset with boot := { Boot.zero with running := true, next := 5 } }, by decide⟩,
   ⟨{ State.reset with boot := { Boot.zero with running := true, next := 7 } }, by decide⟩,
   ⟨115, by decide⟩,
   ⟨State.reset, by decide⟩⟩

/-- States and operands that meet the hypotheses of each clause of Obligations.Governor. -/
theorem witness_Governor :
    (∃ (ns : Nat), 1000 ≤ ns) ∧
    (∃ (us : Nat), 1000 ≤ us) ∧
    (∃ (us : Nat), us < 1000) ∧
    (∃ (s : State) (us : Nat), 1000 ≤ us ∧ s.gov.coolantLow = false) ∧
    (∃ (s : State) (w : Nat), mean ((w :: s.gov.samples).take 100) ≤ capOf (s.fld Reg.govCap 31 16) ∧
      capOf (s.fld Reg.govCap 31 16) * 95 < mean ((w :: s.gov.samples).take 100) * 100) ∧
    (∃ (s : State), s.fld Reg.govPwr 15 0 ≤ capOf (s.fld Reg.govCap 15 0) ∧
      capOf (s.fld Reg.govCap 15 0) < s.fld Reg.govPwr 15 0 + 50) ∧
    (∃ (s : State), capOf (s.fld Reg.govCap 15 0) < s.fld Reg.govPwr 15 0 ∧ s.gov.sustPt ≠ 0) ∧
    (∃ (s : State), s.springLimit ≤ s.springUsed) ∧
    (∃ (s : State) (d : Fin 4), s.fld Reg.govReason 5 5 = 0 ∧ s.gov.change = .none ∧
      s.gov.trim.get (fun _ => (0 : Int)) d.val < 8) ∧
    (∃ (s : State) (p : BitVec 2), s.gov.change = .awaitAck p) ∧
    (∃ (s : State) (p : BitVec 2), s.gov.change = .awaitSettle p ∧ s.gov.trimReq = none ∧
      s.fld Reg.govReason 5 5 = 0 ∧ p.toNat ≤ s.point) ∧
    (∃ (s : State) (u : State) (p : BitVec 2), s.gov.change = .awaitSettle p ∧ s.gov.trimReq = none ∧
      s.fld Reg.govReason 5 5 = 0 ∧ s.point < p.toNat ∧ u = (s.setFld Reg.govStat 25 25 0).moveClocks p.toNat) ∧
    (∃ (s : State) (p : BitVec 2), s.gov.change = .awaitAck p ∧ s.gov.misses < 2) ∧
    (∃ (s : State) (u : State) (p : BitVec 2), s.gov.change = .awaitAck p ∧ s.gov.misses = 2 ∧ s.gov.trimReq = none ∧
      u = s.avsPoint s.gov.prevPt.toNat) ∧
    (∃ (s : State), s.fld Reg.supStat 28 26 = 0) ∧
    (∃ (s : State) (l : Loc) (n : Nat), (s.stage l.ix).wait = .barw n) ∧
    (∃ (s : State) (u : State),
      u = ({ s with gov := { s.gov with springBlk := s.springBlocked } }.setFld Reg.govStat 27 26 ({ s with gov := { s.gov with springBlk := s.springBlocked } }.hint.getD 3)).decideReasons) ∧
    (∃ (s : State) (p : BitVec 2), s.gov.demand = some p ∧ s.fld Reg.govCtl 31 31 = 1) ∧
    (∃ (s : State) (u : State) (src : BitVec 14) (point : Byte) (reason : Byte) (q : Word),
      s.fld Reg.govCtl 31 31 = 1 ∧ (point = 0 ∨ point = 1 ∨ point = 3) ∧ (s.lockEnt src.toNat).lseq.toNat ≤ q.toNat ∧
      u = (s.setLockEnt src.toNat ⟨some (if point = 0 then 0 else 1), q, reason⟩).lockRefresh) ∧
    (∃ (s : State) (src : BitVec 14) (q : Word), s.fld Reg.govCtl 31 31 = 1 ∧
      (s.lockEnt src.toNat).lseq.toNat < q.toNat) :=
  ⟨⟨1000, by decide⟩,
   ⟨1000, by decide⟩,
   ⟨999, by decide⟩,
   ⟨State.reset, 1000, by decide, by decide⟩,
   ⟨{ st [(Reg.govCap, 0x03E80000)] with gov := { Gov.zero with samples := [960] } }, 960, by decide, by decide⟩,
   ⟨st [(Reg.govCap, 600), (Reg.govPwr, 600)], by decide, by decide⟩,
   ⟨st [(Reg.govCap, 600), (Reg.govPwr, 2000)], by decide, by decide⟩,
   ⟨st [(Reg.govSpring, 0)], by decide⟩,
   ⟨State.reset, 0, by decide⟩,
   ⟨{ State.reset with gov := { Gov.zero with change := .awaitAck 1 } }, 1, by decide⟩,
   ⟨{ State.reset with gov := { Gov.zero with change := .awaitSettle 0 } }, 0, by decide⟩,
   ⟨{ State.reset with gov := { Gov.zero with change := .awaitSettle 3 } }, _, 3, by decide, by decide, by decide,
     by decide, rfl⟩,
   ⟨{ State.reset with gov := { Gov.zero with change := .awaitAck 1, misses := 1 } }, 1, by decide, by decide⟩,
   ⟨{ State.reset with gov := { Gov.zero with change := .awaitAck 1, misses := 2 } }, _, 1, by decide, by decide,
     by decide, rfl⟩,
   ⟨State.reset, by decide⟩,
   ⟨({ State.reset with stages := [(0, { Stage.zero with wait := .barw 3 })] }), ⟨0, 0, 0⟩, 3, by decide⟩,
   ⟨State.reset, _, rfl⟩,
   ⟨{ st [(Reg.govCtl, 0x80000000)] with gov := { Gov.zero with demand := some 1 } }, 1, by decide, by decide⟩,
   ⟨st [(Reg.govCtl, 0x80000000)], _, 1, 3, 0, 0, by decide, by decide, by decide, rfl⟩,
   ⟨st [(Reg.govCtl, 0x80000000)], 1, 1, by decide, by decide⟩⟩

/-- States and operands that meet the hypotheses of each clause of Obligations.RegisterAccesses. -/
theorem witness_RegisterAccesses :
    (∃ (a : Acc), a.addr = Reg.govCap ∧ a.width = 4) ∧
    (∃ (a : Acc), a.addr = Reg.alertMask ∧ a.width = 4) ∧
    (∃ (a : Acc), a.addr = Reg.govEnergySys ∧ a.width = 4) ∧
    (∃ (s : State) (a : Acc) (v : Word), a.addr = Reg.govEnergySys + 4 ∧ a.width = 4 ∧
      s.latch.get (fun _ => none) a.core.val = some (Reg.govEnergySys, v)) ∧
    (∃ (s : State) (a : Acc), a.addr = Reg.govEnergySys + 4 ∧ a.width = 4 ∧
      s.latch.get (fun _ => none) a.core.val = none) ∧
    (∃ (a : Acc), a.addr = Reg.bwGrStartLo ∧ a.width = 4 ∧ a.world = .secure) ∧
    (∃ (s : State) (a : Acc) (w : Word), a.addr = Reg.bwGrStartHi ∧ a.width = 4 ∧ a.world = .secure ∧
      s.wbuf.get (fun _ => none) a.core.val = some (Reg.bwGrStartLo, w)) ∧
    (∃ (s : State) (a : Acc), a.addr = Reg.bwGrStartHi ∧ a.width = 4 ∧ a.world = .secure ∧
      s.wbuf.get (fun _ => none) a.core.val = none) ∧
    (∃ (a : Acc) (n : Fin 64), a.addr = Reg.pdRefuseCnt n.val ∧ a.width = 4) ∧
    (∃ (a : Acc), pageAllotted (a.addr / 0x10000) = false) ∧
    (∃ (a : Acc), a.world = .normal ∧ a.addr / 0x10000 ∈ [0x030, 0x040, 0x050, 0x060, 0x300, 0x3F0]) ∧
    (∃ (a : Acc), a.world = .normal ∧ 0x080 ≤ a.addr / 0x10000 ∧ a.addr / 0x10000 ≤ 0x08F) ∧
    (∃ (s : State) (a : Acc), a.world = .secure ∧ a.addr / 0x10000 = 0x3F0 ∧ s.lc ≠ 0 ∧ s.lc ≠ 3) ∧
    (∃ (a : Acc), a.world = .secure ∧ a.addr / 0x10000 = 0x020 ∧ a.width ≠ 4) :=
  ⟨⟨acc Reg.govCap, by decide, by decide⟩,
   ⟨acc Reg.alertMask, by decide, by decide⟩,
   ⟨acc Reg.govEnergySys, by decide, by decide⟩,
   ⟨{ State.reset with latch := [(0, some (Reg.govEnergySys, 5))] }, acc (Reg.govEnergySys + 4), 5, by decide⟩,
   ⟨State.reset, acc (Reg.govEnergySys + 4), by decide⟩,
   ⟨acc Reg.bwGrStartLo, by decide⟩,
   ⟨{ State.reset with wbuf := [(0, some (Reg.bwGrStartLo, 5))] }, acc Reg.bwGrStartHi, 5, by decide⟩,
   ⟨State.reset, acc Reg.bwGrStartHi, by decide⟩,
   ⟨acc (Reg.pdRefuseCnt 63), 63, by decide, by decide⟩,
   ⟨acc 0x00020000, by decide⟩,
   ⟨⟨0, .normal, 0x03F00000, 4⟩, by decide, by decide⟩,
   ⟨⟨0, .normal, 0x008F0000, 4⟩, by decide⟩,
   ⟨st [(Reg.lcState, 1)], acc 0x03F00000, by decide⟩,
   ⟨⟨0, .secure, 0x00200000, 2⟩, by decide⟩⟩

/-- States and operands that meet the hypotheses of each clause of Obligations.BankOwners. -/
theorem witness_BankOwners :
    (∃ (s : State) (a : Acc) (v : Word) (d : Fin 4) (b : Fin 24), a.addr = Reg.bankOwner d.val b.val ∧ a.width = 4 ∧
      a.world = .secure ∧ s.linksClean = true ∧ s.ownerIgnored d.val b.val v = true) ∧
    (∃ (s : State) (a : Acc) (v : Word) (d : Fin 4) (b : Fin 24), a.addr = Reg.bankOwner d.val b.val ∧ a.width = 4 ∧
      a.world = .secure ∧ s.linksClean = true ∧ s.ownerIgnored d.val b.val v = false ∧
      s.pdState (pdBank d.val b.val) ≠ 6) ∧
    (∃ (s : State) (a : Acc) (d : Fin 4) (b : Fin 24), a.addr = Reg.bankOwner d.val b.val ∧ a.width = 4 ∧
      a.world = .secure ∧ s.linksClean = true ∧ s.ownerIgnored d.val b.val 0x0100F000 = false ∧
      s.pdState (pdBank d.val b.val) ≠ 6) ∧
    (∃ (s : State) (d : Fin 4) (b : Fin 24) (w : Word), (s.bank d.val b.val).target = some (w, false) ∧
      s.bst d.val b.val = 2 ∧ s.pdOn (pdBank d.val b.val) = true) ∧
    (∃ (s : State) (d : Fin 4) (b : Fin 24) (w : Word), (s.bank d.val b.val).target = some (w, true) ∧
      s.bst d.val b.val = 2 ∧ s.pdOn (pdBank d.val b.val) = true) ∧
    (∃ (s : State) (d : Fin 4) (b : Fin 24) (w : Word) (c : Bool), (s.bank d.val b.val).target = some (w, c) ∧
      s.bst d.val b.val = 3 ∧ s.pdOn (pdBank d.val b.val) = true) ∧
    (∃ (s : State) (r : Requester) (d : Nat) (b : Nat) (o : Nat) (fold : Bool) (a : Nat),
      place s.part a = .bank d b o ∧ s.bst d b ≠ 2 ∧ s.bst d b ≠ 3 ∧ s.bankAllows r d b fold = false) :=
  ⟨⟨st [(Reg.bankOwner 3 23, 0x80000000)], acc (Reg.bankOwner 3 23), 0x100, 3, 23, by decide⟩,
   ⟨State.reset, acc (Reg.bankOwner 0 0), 0x100, 0, 0, by decide⟩,
   ⟨State.reset, acc (Reg.bankOwner 0 0), 0, 0, by decide⟩,
   ⟨{ st [(Reg.bankOwner 0 0, 0x80000000), (Reg.pdStat (pdBank 0 0), 0)] with banks := [(0, { BankX.zero with target := some (5, false) })] },
     0, 0, 5, by decide⟩,
   ⟨{ st [(Reg.bankOwner 0 0, 0x80000000), (Reg.pdStat (pdBank 0 0), 0)] with banks := [(0, { BankX.zero with target := some (5, true) })] },
     0, 0, 5, by decide⟩,
   ⟨{ st [(Reg.bankOwner 0 0, 0xC0000000), (Reg.pdStat (pdBank 0 0), 0)] with banks := [(0, { BankX.zero with target := some (5, true) })] },
     0, 0, 5, true, by decide⟩,
   ⟨State.reset, .dma 0 0, 0, 0, 0, false, bankAddr 0 0 0, by decide⟩⟩

/-- States and operands that meet the hypotheses of each clause of Obligations.BankClearZeroes. -/
theorem witness_BankClearZeroes :
    ∃ (s : State) (d : Fin 4) (b : Fin 24) (w : Word), (s.bank d.val b.val).target = some (w, true) ∧
      s.bst d.val b.val = 3 ∧ s.pdOn (pdBank d.val b.val) = true ∧ (s.bank d.val b.val).freed = false :=
  ⟨{ st [(Reg.bankOwner 0 0, 0xC0000000), (Reg.pdStat (pdBank 0 0), 0)] with banks := [(0, { BankX.zero with target := some (5, true) })] },
    0, 0, 5, by decide⟩

/-- States and operands that meet the hypotheses of each clause of Obligations.MemoryAccesses. -/
theorem witness_MemoryAccesses :
    (∃ (s : State) (o : Nat) (n : Nat), o + n ≤ 0x4000000 ∧ n ≠ 0 ∧ s.pdOn 56 = true) ∧
    (∃ (s : State) (o : Nat) (data : Bytes), o + data.length ≤ 0x4000000 ∧ s.pdOn 56 = true) ∧
    (∃ (o : Nat) (data : Bytes), o + data.length ≤ 0x4000000 ∧ o < 0x2000000) ∧
    (∃ (s : State) (d : Fin 4) (ctx : Fin 16) (src : Nat) (dst : Nat) (len : Nat) (d1 : Nat) (b1 : Nat) (o1 : Nat) (d2 : Nat) (b2 : Nat) (o2 : Nat),
      1 ≤ len ∧ src % 64 + len ≤ 64 ∧ dst % 64 + len ≤ 64 ∧ s.linksClean = true ∧
      place s.part (src / 64 * 64) = .bank d1 b1 o1 ∧ place s.part dst = .bank d2 b2 o2 ∧
      s.bankGate (.dma (Fin.ofNat 8 d.val) ctx) d1 b1 false = none ∧
      s.bankGate (.dma (Fin.ofNat 8 d.val) ctx) d2 b2 false = none ∧ (s.bank d1 b1).busy = 0 ∧
      (s.bank d2 b2).busy = 0 ∧ s.inEvk dst = false ∧ (∀ w,
      w ∈ lineWords (bankAddr d1 b1 o1) ∨ w ∈ lineWords (bankAddr d2 b2 o2) → s.mark w = .good)) ∧
    (∃ (s : State) (r : Requester) (d : Nat) (b : Nat) (o : Nat) (a : Nat) (data : Bytes),
      place s.part a = .setAlias d b o ∧ 1 ≤ data.length ∧ a % 64 + data.length ≤ 64 ∧ (∀ l g, r ≠ .tideway l g) ∧
      s.linksClean = true ∧ s.bankGate r d b false = none ∧ (s.bank d b).busy = 0 ∧
      s.inEvk (bankAddr d b o) = false ∧ s.anyUe (lineWords (bankAddr d b o)) = false) ∧
    (∃ (s : State) (r : Requester) (d : Nat) (b : Nat) (o : Nat) (a : Nat) (data : Bytes),
      place s.part a = .clrAlias d b o ∧ 1 ≤ data.length ∧ a % 64 + data.length ≤ 64 ∧ (∀ l g, r ≠ .tideway l g) ∧
      s.linksClean = true ∧ s.bankGate r d b false = none ∧ (s.bank d b).busy = 0 ∧
      s.inEvk (bankAddr d b o) = false ∧ s.anyUe (lineWords (bankAddr d b o)) = false) ∧
    (∃ (s : State) (w : World) (key : Fin 19) (d : Nat) (b : Nat) (o : Nat) (a : Nat),
      place s.part a = .setAlias d b o ∧ s.bankGate (.hub w key) d b false = none) ∧
    (∃ (s : State) (a : Nat), s.anyUe (lineWords a) = false) ∧
    (∃ (s : State) (d : Fin 24) (b : Fin 24) (o : Nat), s.anyUe (lineWords (bankAddr d.val b.val o)) = false) :=
  ⟨⟨st [(Reg.pdStat 56, 0)], 0x3FFFFFF, 1, by decide⟩,
   ⟨st [(Reg.pdStat 56, 0)], 0x3FFFFFF, [1], by decide, by decide⟩,
   ⟨0x1FFFFFF, [1], by decide, by decide⟩,
   ⟨st [(Reg.bankOwner 0 0, 0x40000100), (Reg.pdStat (pdBank 0 0), 0)], 0, 0, bankAddr 0 0 63, bankAddr 0 0 64, 1, 0,
     0, 0, 0, 0, 64, by decide, by decide, by decide, by decide, by decide, by decide, by decide, by decide,
     by decide, by decide, by decide, fun _ _ => rfl⟩,
   ⟨st [(Reg.bankOwner 0 0, 0x40000100), (Reg.pdStat (pdBank 0 0), 0)], .dma 0 0, 0, 0, 63,
     bankAddr 0 0 63 + 0x80000000, [1], by decide, by decide, by decide, (by simp), by decide⟩,
   ⟨st [(Reg.bankOwner 0 0, 0x40000100), (Reg.pdStat (pdBank 0 0), 0)], .dma 0 0, 0, 0, 63,
     bankAddr 0 0 63 + 0x100000000, [1], by decide, by decide, by decide, (by simp), by decide⟩,
   ⟨st [(Reg.bankOwner 0 0, 0x40000300), (Reg.pdStat (pdBank 0 0), 0)], .secure, 0, 0, 0, 63,
     bankAddr 0 0 63 + 0x80000000, by decide, by decide⟩,
   ⟨State.reset, 0, by decide⟩,
   ⟨State.reset, 0, 0, 0, by decide⟩⟩

/-- States and operands that meet the hypotheses of each clause of Obligations.ErrorCodeAndBreakwater. -/
theorem witness_ErrorCodeAndBreakwater :
    (∃ (s : State) (w : Nat) (n : Fin 36) (x : BitVec 4), s.mark (w / 16) = .oneNibble n x) ∧
    (∃ (s : State) (d : Fin 4) (b : Fin 24) (line : Fin 1048576), s.bst d.val b.val ≠ 3 ∧
      s.pdOn (pdBank d.val b.val) = true ∧ s.anyUe (lineWords (bankAddr d.val b.val (line.val * 64))) = false ∧
      s.corrected (lineWords (bankAddr d.val b.val (line.val * 64))) = 0) ∧
    (∃ (s : State) (d : Fin 4) (b : Fin 24), s.bst d.val b.val ≠ 3 ∧ s.pdOn (pdBank d.val b.val) = true) ∧
    (∃ (s : State) (d : Fin 4) (b : Fin 24), (s.bank d.val b.val).missed = [] ∧ s.pdOn (pdBank d.val b.val) = true) ∧
    (∃ (s : State) (stack : Fin 12) (saddr : Nat), s.fld Reg.hbmScrubCtl 31 31 = 1 ∧
      stackFitted s.part stack.val = true ∧ s.pdOn 63 = true ∧ saddr + 64 < 0x600000000 ∧
      saddr / 64 = s.patrol.get (fun _ => 0) stack.val ∧
      s.anyUe (lineWords (stackAddr s.part stack.val saddr)) = true) ∧
    (∃ (s : State) (stack : Fin 12) (saddr : Nat), s.fld Reg.hbmScrubCtl 31 31 = 1 ∧
      stackFitted s.part stack.val = true ∧ s.pdOn 63 = true ∧ saddr + 64 < 0x600000000 ∧
      saddr / 64 = s.patrol.get (fun _ => 0) stack.val ∧
      s.anyUe (lineWords (stackAddr s.part stack.val saddr)) = false) ∧
    (∃ (s : State) (d : Fin 4) (level : Fin 6) (node : Nat),
      s.dirty.get (fun _ => false) ((d.val * 8 + level.val) * 2 ^ 32 + node) = true ∧
      (level.val = 5 ∨ s.badAbove d.val (level.val + 1) node = none)) ∧
    (∃ (s : State) (r : Requester) (a : Nat) (d : Nat) (o : Nat), place s.part a = .hbm d o ∧ a % 64 = 0 ∧
      mayHbm r = true ∧ s.inReach r a = true ∧ s.granuleOf a ≠ s.keyIndex r) ∧
    (∃ (s : State) (r : Requester) (a : Nat) (d : Nat) (o : Nat), place s.part a = .hbm d o ∧ a % 64 = 0 ∧
      mayHbm r = true ∧ s.inReach r a = true ∧ s.linksClean = true ∧ s.bwDenied (s.keyIndex r) a 1 = none ∧
      s.pdOn 63 = true ∧ s.badPath (a / s.part.block) (a % s.part.block) = none ∧ s.minorOf a = 0) ∧
    (∃ (s : State) (r : Requester) (a : Nat) (d : Nat) (o : Nat), place s.part a = .hbm d o ∧ a % 64 = 0 ∧
      mayHbm r = true ∧ s.inReach r a = true ∧ s.linksClean = true ∧ s.bwDenied (s.keyIndex r) a 1 = none ∧
      s.pdOn 63 = true ∧ s.badPath (a / s.part.block) (a % s.part.block) = none ∧ s.minorOf a ≠ 0 ∧ (∀ w,
      w ∈ lineWords a → s.mark w = .good) ∧ s.lineBad (s.keyIndex r) a = false) ∧
    (∃ (s : State) (r : Requester) (a : Nat) (d : Nat) (o : Nat) (data : Bytes), place s.part a = .hbm d o ∧
      a % 64 = 0 ∧ data.length = 64 ∧ mayHbm r = true ∧ s.inReach r a = true ∧ s.linksClean = true ∧
      s.bwDenied (s.keyIndex r) a 0 = none ∧ s.inEvk a = false ∧ s.pdOn 63 = true ∧
      s.badPath (a / s.part.block) (a % s.part.block) = none ∧ (s.minorOf a).toNat < 63) ∧
    (∃ (s : State) (k : Nat) (a : Nat), s.bwDenied k a 1 = none ∧ s.hbmGate = none ∧
      s.badPath (a / s.part.block) (a % s.part.block) = none ∧ s.minorOf a ≠ 0 ∧ s.anyUe (lineWords a) = false ∧
      s.lineBad k a = true) ∧
    (∃ (s : State) (k : Nat), (s.port k).mark = .uncorrectable) ∧
    (∃ (s : State) (k : Nat) (n : Fin 36) (x : BitVec 4), (s.port k).mark = .oneNibble n x) ∧
    (∃ (s : State) (k : Nat), (s.port k).mark = .good) ∧
    (∃ (s : State) (t : State) (r : Requester) (a : Nat) (d : Nat) (o : Nat), place s.part a = .hbm d o ∧
      a % 64 = 0 ∧ (s.readHere r a false).stall = false ∧ (s.readHere r a false).code = Code.ok ∧
      (s.readHere r a false).st.crossPorts (route d (requesterDie r)) = (t, true)) ∧
    (∃ (s : State) (t : State) (r : Requester) (a : Nat) (d : Nat) (o : Nat), place s.part a = .hbm d o ∧
      s.crossPorts (route (requesterDie r) d) = (t, true)) ∧
    (∃ (a : Nat) (b : Nat), a < 4 ∧ b < 4) ∧
    (∃ (l : Nat) (d : Nat), l < 4 ∧ d < 4) :=
  ⟨⟨{ State.reset with ecc := [(2, .oneNibble 3 1)] }, 32, 3, 1, by decide⟩,
   ⟨st [(Reg.bankOwner 0 0, 0x40000100), (Reg.pdStat (pdBank 0 0), 0)], 0, 0, 0, by decide⟩,
   ⟨st [(Reg.bankOwner 0 0, 0x40000100), (Reg.pdStat (pdBank 0 0), 0)], 0, 0, by decide, by decide⟩,
   ⟨st [(Reg.pdStat (pdBank 0 0), 0)], 0, 0, by decide, by decide⟩,
   ⟨{ st [(Reg.hbmScrubCtl, 0x80000000), (Reg.pdStat 63, 0)] with ecc := [(0, .uncorrectable)] }, 0, 0, by decide⟩,
   ⟨{ st [(Reg.hbmScrubCtl, 0x80000000), (Reg.pdStat 63, 0)] with patrol := [(11, 0x17FFFFFE)] }, 11, 0x5FFFFFF80,
     by decide⟩,
   ⟨{ State.reset with dirty := [(0, true)] }, 0, 0, 0, by decide, by decide⟩,
   ⟨{ State.reset with granule := [(0, 3)] }, .dma 0 0, 64, 0, 64, by decide⟩,
   ⟨hbmSt, .hub .secure 16, 64, 0, 64, by decide⟩,
   ⟨{ hbmSt with minor := [(1, 1)], crypt := [(1, { LineKeys.zero with ver := 1 })] }, .hub .secure 16, 64, 0, 64,
     by decide, by decide, by decide, by decide, by decide, by decide, by decide, by decide, by decide,
     fun _ _ => rfl, by decide⟩,
   ⟨hbmSt, .hub .secure 16, 64, 0, 64, List.replicate 64 1, by decide⟩,
   ⟨{ hbmSt with minor := [(1, 1)], badLine := [(1, true)] }, 16, 64, by decide⟩,
   ⟨{ State.reset with d2d := [(0x80, ⟨.uncorrectable, 0⟩)] }, 0x80, by decide⟩,
   ⟨{ State.reset with d2d := [(1, ⟨.oneNibble 35 15, 0⟩)] }, 1, 35, 15, by decide⟩,
   ⟨State.reset, 0, by decide⟩,
   ⟨{ hbmSt with d2d := [(0x08, ⟨.uncorrectable, 0⟩)] }, _, .hub .secure 16, 64, 0, 64, by decide, by decide,
     by decide, by decide, rfl⟩,
   ⟨{ State.reset with d2d := [(0x02, ⟨.good, 0⟩), (0x12, ⟨.uncorrectable, 0⟩)] }, _, .strand 0 0, 0x2400000040, 2,
     64, by decide, rfl⟩,
   ⟨3, 1, by decide, by decide⟩,
   ⟨3, 1, by decide, by decide⟩⟩

/-- States and operands that meet the hypotheses of each clause of Obligations.StrandControl. -/
theorem witness_StrandControl :
    (∃ (s : State) (d : Fin 4) (st : Fin 12), s.linksClean = true ∧ s.pdOn (pdStrand d.val st.val) = true ∧
      s.sst d.val st.val = SS.ready ∧ (s.strand (strandIx d.val st.val)).sreset = false) ∧
    (∃ (s : State) (d : Fin 4) (st : Fin 12), s.linksClean = true ∧ s.pdOn (pdStrand d.val st.val) = true ∧
      s.sst d.val st.val = SS.running) ∧
    (∃ (s : State) (d : Fin 4) (st : Fin 12), s.linksClean = true ∧ s.pdOn (pdStrand d.val st.val) = true ∧
      s.sst d.val st.val = SS.running) ∧
    (∃ (s : State) (d : Fin 4) (st : Fin 12), s.sst d.val st.val = SS.draining) ∧
    (∃ (s : State) (d : Fin 4) (st : Fin 12), s.linksClean = true ∧ s.pdOn (pdStrand d.val st.val) = true ∧
      (s.sst d.val st.val = SS.ready ∨ s.sst d.val st.val = SS.halted ∨ s.sst d.val st.val = SS.faulted)) ∧
    (∃ (s : State) (d : Fin 4) (st : Fin 12), (s.strand (strandIx d.val st.val)).sreset = true) ∧
    (∃ (s : State) (l : Loc), s.linksClean = true ∧ s.pdOn (pdStrand l.d l.s) = true) :=
  ⟨⟨st [(Reg.strandStat 0 0, 0x20000000), (Reg.pdStat (pdStrand 0 0), 0)], 0, 0, by decide⟩,
   ⟨st [(Reg.strandStat 0 0, 0x40000000), (Reg.pdStat (pdStrand 0 0), 0)], 0, 0, by decide⟩,
   ⟨st [(Reg.strandStat 0 0, 0x40000000), (Reg.pdStat (pdStrand 0 0), 0)], 0, 0, by decide⟩,
   ⟨st [(Reg.strandStat 0 0, 0x60000000), (Reg.pdStat (pdStrand 0 0), 0)], 0, 0, by decide⟩,
   ⟨st [(Reg.strandStat 0 0, 0xA0000000), (Reg.pdStat (pdStrand 0 0), 0)], 0, 0, by decide⟩,
   ⟨{ State.reset with strands := [(0, { Strand.zero with sreset := true })] }, 0, 0, by decide⟩,
   ⟨st [(Reg.strandStat 0 0, 0), (Reg.pdStat (pdStrand 0 0), 0)], ⟨0, 0, 0⟩, by decide, by decide⟩⟩

/-- States and operands that meet the hypotheses of each clause of Obligations.ChannelsAndIngress. -/
theorem witness_ChannelsAndIngress :
    (∃ (s : State) (l : Loc) (t : Tile) (ts : List Tile), l.g ≠ 0 ∧ s.pdOn (pdStrand l.d l.s) = true ∧
      (s.stage (l.ix - 1)).chan = t :: ts ∧ l.g ≤ t.dest.toNat) ∧
    (∃ (s : State) (l : Loc) (t : Tile) (ts : List Tile), l.g ≠ 0 ∧ s.pdOn (pdStrand l.d l.s) = true ∧
      (s.stage (l.ix - 1)).chan = t :: ts ∧ t.dest.toNat < l.g) ∧
    (∃ (s : State) (l : Loc), l.g ≠ 0 ∧ (s.stage l.ix).owed ≠ 0 ∧ s.pdOn (pdStrand l.d l.s) = true) ∧
    (∃ (s : State) (l : Loc) (t : Tile) (rest : List Tile), s.pdOn (pdStrand l.d l.s) = true ∧
      takeTile (fun x => l.g < x.dest.toNat) (s.stage l.ix).slots = some (t, rest) ∧ (s.stage l.ix).credits ≠ 0 ∧
      ((s.stage l.ix).fwdLast = false ∨ s.ownSend l = false)) ∧
    (∃ (s : State) (i : Fin 16) (p : Pkt), (s.queue i.val).wr = some p) ∧
    (∃ (s : State) (i : Fin 16), (s.queue i.val).zeroing = true) :=
  ⟨⟨{ st [(Reg.pdStat (pdStrand 0 0), 0)] with stages := [(2, { Stage.zero with chan := [{ Tile.zero with dest := 3 }] })] },
    ⟨0, 0, 3⟩, { Tile.zero with dest := 3 }, [], by decide⟩,
   ⟨{ st [(Reg.pdStat (pdStrand 0 0), 0)] with stages := [(2, { Stage.zero with chan := [{ Tile.zero with dest := 2 }] })] },
     ⟨0, 0, 3⟩, { Tile.zero with dest := 2 }, [], by decide⟩,
   ⟨{ st [(Reg.pdStat (pdStrand 0 0), 0)] with stages := [(3, { Stage.zero with owed := 1 })] }, ⟨0, 0, 3⟩,
     by decide⟩,
   ⟨{ st [(Reg.pdStat (pdStrand 0 0), 0)] with stages := [(3, { Stage.zero with slots := [{ Tile.zero with dest := 4 }] })] },
     ⟨0, 0, 3⟩, { Tile.zero with dest := 4 }, [], by decide⟩,
   ⟨{ State.reset with queues := [(15, { PktQ.zero with wr := some ⟨0, 0, 0, 0, [], 4, false, 0⟩ })] }, 15, ⟨0, 0, 0,
     0, [], 4, false, 0⟩, by decide⟩,
   ⟨{ State.reset with queues := [(15, { PktQ.zero with zeroing := true })] }, 15, by decide⟩⟩

/-- States and operands that meet the hypotheses of each clause of Obligations.Recipes. -/
theorem witness_Recipes :
    (∃ (s : State) (d : Fin 4), s.fld (Reg.ldStat d.val) 31 31 = 0 ∧ s.fld (Reg.ldCtl d.val) 3 0 < 12 ∧
      s.pdOn (pdStrand d.val (s.fld (Reg.ldCtl d.val) 3 0)) = true ∧
      s.sst d.val (s.fld (Reg.ldCtl d.val) 3 0) = SS.unbound) ∧
    (∃ (s : State) (d : Fin 4), s.fld (Reg.ldStat d.val) 31 31 = 0 ∧ s.fld (Reg.ldCtl d.val) 3 0 < 12 ∧
      s.pdOn (pdStrand d.val (s.fld (Reg.ldCtl d.val) 3 0)) = true ∧
      s.sst d.val (s.fld (Reg.ldCtl d.val) 3 0) ≠ SS.unbound) ∧
    (∃ (s : State) (d : Fin 4), s.fld (Reg.ldStat d.val) 31 31 = 1 ∧ s.linksClean = true ∧
      s.sst d.val (bits (s.load d.val).ctl 3 0) = SS.unbound ∧ bits (s.load d.val).ctl 3 0 < 12 ∧
      s.loadCheck d.val (bits (s.load d.val).ctl 15 12) (bits (s.load d.val).ctl 3 0) = Code.ok) ∧
    (∃ (s : State) (d : Fin 4), s.fld (Reg.ldStat d.val) 31 31 = 1 ∧ s.linksClean = true ∧
      s.cst (bits (s.load d.val).ctl 15 12) ≠ CS.resident ∧ s.sst d.val (bits (s.load d.val).ctl 3 0) = SS.unbound) ∧
    (∃ (s : State) (d : Fin 4), s.fld (Reg.ldCtl d.val) 3 0 < 12 ∧
      s.pdOn (pdStrand d.val (s.fld (Reg.ldCtl d.val) 3 0)) = true ∧
      (s.sst d.val (s.fld (Reg.ldCtl d.val) 3 0) = SS.ready ∨ s.sst d.val (s.fld (Reg.ldCtl d.val) 3 0) = SS.halted ∨ s.sst d.val (s.fld (Reg.ldCtl d.val) 3 0) = SS.faulted)) :=
  ⟨⟨st [(Reg.pdStat (pdStrand 0 0), 0)], 0, by decide⟩,
   ⟨st [(Reg.strandStat 0 0, 0x20000000), (Reg.pdStat (pdStrand 0 0), 0)], 0, by decide⟩,
   ⟨{ st [(Reg.ldStat 0, 0x80000000), (Reg.ctxStat 0, 0x20000000)] with loads := [(0, ⟨10, 0, 0x1000⟩)], hubMem := [(0, 0x31), (1, 0x44), (2, 0x52), (3, 0x47), (4, 1), (6, 2), (7, 4), (8, 0x80), (64, 0x40), (68, 1), (80, 0x40), (84, 1), (96, 0x40), (100, 1), (112, 0x40), (116, 1)] },
     0, by decide +kernel⟩,
   ⟨st [(Reg.ldStat 0, 0x80000000)], 0, by decide⟩,
   ⟨st [(Reg.strandStat 0 0, 0xA0000000), (Reg.pdStat (pdStrand 0 0), 0)], 0, by decide⟩⟩

/-- States and operands that meet the hypotheses of each clause of Obligations.VectorArithmetic. -/
theorem witness_VectorArithmetic :
    (∃ (s : State) (l : Loc) (f : Fields) (t : Tile) (y : Stage),
      s.issues l 0x00 f { stages := St.zq, dst := .t, sa := .t, sb := .t, qsel := true, hints := [0, 2] } ∧
      (s.stage l.ix).qr f.qsel ≠ 0 ∧ (s.stage l.ix).readable [f.b] ∧ (s.stage l.ix).source l f = some (t, y) ∧ (∀ i,
      i < l.words → (t.w i).toNat < ((s.stage l.ix).qr f.qsel).toNat ∧
      ((y.tr f.b).w i).toNat < ((s.stage l.ix).qr f.qsel).toNat)) ∧
    (∃ (s : State) (l : Loc) (f : Fields) (t : Tile) (y : Stage),
      s.issues l 0x01 f { stages := St.zq, dst := .t, sa := .t, sb := .t, qsel := true, hints := [0, 2] } ∧
      (s.stage l.ix).qr f.qsel ≠ 0 ∧ (s.stage l.ix).readable [f.b] ∧ (s.stage l.ix).source l f = some (t, y) ∧ (∀ i,
      i < l.words → (t.w i).toNat < ((s.stage l.ix).qr f.qsel).toNat ∧
      ((y.tr f.b).w i).toNat < ((s.stage l.ix).qr f.qsel).toNat)) ∧
    (∃ (s : State) (l : Loc) (f : Fields) (t : Tile) (y : Stage),
      s.issues l 0x02 f { stages := St.zq, dst := .t, sa := .t, sb := f.bFile, qsel := true, hints := [0, 2], imm := 1 } ∧
      (s.stage l.ix).qr f.qsel ≠ 0 ∧ (s.stage l.ix).readable f.bRegs ∧ (s.stage l.ix).source l f = some (t, y) ∧
      (∀ i, i < l.words → (t.w i).toNat < ((s.stage l.ix).qr f.qsel).toNat ∧
      y.operandB f ((s.stage l.ix).qr f.qsel).toNat i < ((s.stage l.ix).qr f.qsel).toNat)) ∧
    (∃ (s : State) (l : Loc) (f : Fields) (t : Tile) (y : Stage),
      s.issues l 0x03 f { stages := St.zq, dst := .t, sa := .t, sb := f.bFile, sc := .t, qsel := true, hints := [0, 2], imm := 1 } ∧
      (s.stage l.ix).qr f.qsel ≠ 0 ∧ (s.stage l.ix).readable (f.c :: f.bRegs) ∧ (s.stage l.ix).source l f = some (t,
      y) ∧ (∀ i, i < l.words → (t.w i).toNat < ((s.stage l.ix).qr f.qsel).toNat ∧
      y.operandB f ((s.stage l.ix).qr f.qsel).toNat i < ((s.stage l.ix).qr f.qsel).toNat ∧
      ((y.tr f.c).w i).toNat < ((s.stage l.ix).qr f.qsel).toNat)) ∧
    (∃ (s : State) (l : Loc) (f : Fields) (t : Tile) (y : Stage),
      s.issues l 0x04 f { stages := St.zq, dst := .t, sa := .t, qsel := true, hints := [0, 2] } ∧
      (s.stage l.ix).qr f.qsel ≠ 0 ∧ (s.stage l.ix).source l f = some (t, y) ∧ (∀ i,
      i < l.words → (t.w i).toNat < ((s.stage l.ix).qr f.qsel).toNat)) ∧
    (∃ (s : State) (l : Loc) (f : Fields) (t : Tile) (y : Stage), f.imf 0 0 = 0 ∧
      s.issues l 0x23 f { stages := [St.base], dst := .t, sa := .t, sc := .s, qsel := true, hints := [0, 2], imm := 1 } ∧
      (s.stage l.ix).qr f.qsel ≠ 0 ∧ (s.stage l.ix).source l f = some (t, y) ∧ (∀ i,
      i < l.words → (t.w i).toNat < ((s.stage l.ix).qr f.qsel).toNat ∧
      (y.sr f.c).toNat < ((s.stage l.ix).qr f.qsel).toNat)) ∧
    (∃ (s : State) (l : Loc) (f : Fields) (t : Tile) (y : Stage), f.imf 0 0 = 1 ∧
      s.issues l 0x23 f { stages := [St.base], dst := .t, sa := .t, sc := .s, qsel := true, hints := [0, 2], imm := 1 } ∧
      (s.stage l.ix).qr f.qsel ≠ 0 ∧ (s.stage l.ix).readable [f.d] ∧ (s.stage l.ix).source l f = some (t, y) ∧ (∀ i,
      i < l.words → (t.w i).toNat < 2 ^ 60 ∧ (y.sr f.c).toNat < ((s.stage l.ix).qr f.qsel).toNat ∧
      ((y.tr f.d).w i).toNat < ((s.stage l.ix).qr f.qsel).toNat)) ∧
    (∃ (s : State) (l : Loc) (f : Fields) (t : Tile) (y : Stage),
      s.issues l 0x08 f { stages := [St.add], dst := .t, sa := .t, sb := .t, hints := [0, 2] } ∧
      (s.stage l.ix).readable [f.b] ∧ (s.stage l.ix).source l f = some (t, y)) ∧
    (∃ (s : State) (l : Loc) (f : Fields) (t : Tile) (y : Stage),
      s.issues l 0x09 f { stages := [St.add], dst := .t, sa := .t, sb := .t, hints := [0, 2] } ∧
      (s.stage l.ix).readable [f.b] ∧ (s.stage l.ix).source l f = some (t, y)) ∧
    (∃ (s : State) (l : Loc) (f : Fields) (t : Tile) (y : Stage),
      s.issues l 0x0A f { stages := [St.add], dst := .t, sa := .t, sb := .t, hints := [0, 2] } ∧
      (s.stage l.ix).readable [f.b] ∧ (s.stage l.ix).source l f = some (t, y)) ∧
    (∃ (s : State) (l : Loc) (f : Fields) (t : Tile) (y : Stage),
      s.issues l 0x0B f { stages := [St.add], dst := .t, sa := .t, sb := .t, hints := [0, 2] } ∧
      (s.stage l.ix).readable [f.b] ∧ (s.stage l.ix).source l f = some (t, y)) ∧
    (∃ (s : State) (l : Loc) (f : Fields),
      s.issues l 0x10 f { stages := St.all, dst := .t, sa := .s, imm := 1, extra := decide (f.i = 1) || decide (l.kind ≠ 2) }) :=
  ⟨⟨gs ⟨0, 0, 3⟩ { stg 0x00 (fi 0) with q := [(0, 65537)] }, ⟨0, 0, 3⟩, (fi 0), _, _, ⟨by decide, by decide,
    by decide, by decide⟩, by decide, (by unfold Stage.readable; decide), rfl,
    fun _ _ => ⟨(by decide : (0 : Nat) < 65537), (by decide : (0 : Nat) < 65537)⟩⟩,
   ⟨gs ⟨0, 0, 3⟩ { stg 0x01 (fi 0) with q := [(0, 65537)] }, ⟨0, 0, 3⟩, (fi 0), _, _, ⟨by decide, by decide,
     by decide, by decide⟩, by decide, (by unfold Stage.readable; decide), rfl,
     fun _ _ => ⟨(by decide : (0 : Nat) < 65537), (by decide : (0 : Nat) < 65537)⟩⟩,
   ⟨gs ⟨0, 0, 3⟩ { stg 0x02 (fi 0) with q := [(0, 65537)] }, ⟨0, 0, 3⟩, (fi 0), _, _, ⟨by decide, by decide,
     by decide, by decide⟩, by decide, (by unfold Stage.readable; decide), rfl,
     fun _ _ => ⟨(by decide : (0 : Nat) < 65537), (by decide : (0 : Nat) < 65537)⟩⟩,
   ⟨gs ⟨0, 0, 3⟩ { stg 0x03 (fi 0) with q := [(0, 65537)] }, ⟨0, 0, 3⟩, (fi 0), _, _, ⟨by decide, by decide,
     by decide, by decide⟩, by decide, (by unfold Stage.readable; decide), rfl,
     fun _ _ => ⟨(by decide : (0 : Nat) < 65537), (by decide : (0 : Nat) < 65537), (by decide : (0 : Nat) < 65537)⟩⟩,
   ⟨gs ⟨0, 0, 3⟩ { stg 0x04 (fi 0) with q := [(0, 65537)] }, ⟨0, 0, 3⟩, (fi 0), _, _, ⟨by decide, by decide,
     by decide, by decide⟩, by decide, rfl, fun _ _ => (by decide : (0 : Nat) < 65537)⟩,
   ⟨gs ⟨0, 4, 5⟩ { stg 0x23 (fi 0) with q := [(0, 65537)] }, ⟨0, 4, 5⟩, (fi 0), _, _, by decide, ⟨by decide,
     by decide, by decide, by decide⟩, by decide, rfl, fun _ _ => ⟨(by decide : (0 : Nat) < 65537),
     (by decide : (0 : Nat) < 65537)⟩⟩,
   ⟨gs ⟨0, 4, 5⟩ { stg 0x23 (fi 1) with q := [(0, 65537)] }, ⟨0, 4, 5⟩, (fi 1), _, _, by decide, ⟨by decide,
     by decide, by decide, by decide⟩, by decide, (by unfold Stage.readable; decide), rfl,
     fun _ _ => ⟨(by decide : (0 : Nat) < 2 ^ 60), (by decide : (0 : Nat) < 65537), (by decide : (0 : Nat) < 65537)⟩⟩,
   ⟨gs ⟨0, 0, 3⟩ { stg 0x08 (fi 0) with pc := 0 }, ⟨0, 0, 3⟩, (fi 0), _, _, ⟨by decide, by decide, by decide,
     by decide⟩, (by unfold Stage.readable; decide), rfl⟩,
   ⟨gs ⟨0, 0, 3⟩ { stg 0x09 (fi 0) with pc := 0 }, ⟨0, 0, 3⟩, (fi 0), _, _, ⟨by decide, by decide, by decide,
     by decide⟩, (by unfold Stage.readable; decide), rfl⟩,
   ⟨gs ⟨0, 0, 3⟩ { stg 0x0A (fi 0) with pc := 0 }, ⟨0, 0, 3⟩, (fi 0), _, _, ⟨by decide, by decide, by decide,
     by decide⟩, (by unfold Stage.readable; decide), rfl⟩,
   ⟨gs ⟨0, 0, 3⟩ { stg 0x0B (fi 0) with pc := 0 }, ⟨0, 0, 3⟩, (fi 0), _, _, ⟨by decide, by decide, by decide,
     by decide⟩, (by unfold Stage.readable; decide), rfl⟩,
   ⟨gs ⟨0, 0, 3⟩ { stg 0x10 (fi 0) with pc := 0 }, ⟨0, 0, 3⟩, (fi 0), ⟨by decide, by decide, by decide, by decide⟩⟩⟩

/-- States and operands that meet the hypotheses of each clause of Obligations.Transforms. -/
theorem witness_Transforms :
    (∃ (s : State) (l : Loc) (f : Fields),
      s.issues l 0x20 f { stages := [St.ntt], dst := .t, qsel := true, imm := 0x1F, extra := lognOk (f.imf 4 0) && groupOk (f.imf 4 0) f.d } ∧
      (s.stage l.ix).qr f.qsel ≠ 0 ∧ f.imf 4 0 + 1 ≤ twoadic ((s.stage l.ix).qr f.qsel).toNat ∧
      (s.stage l.ix).preparing f.qsel = false ∧ psiOf ((s.stage l.ix).qr f.qsel).toNat ≠ none ∧
      (s.stage l.ix).readable (groupRegs f.d (groupSize (f.imf 4 0)))) ∧
    (∃ (s : State) (l : Loc) (f : Fields),
      s.issues l 0x21 f { stages := [St.intt], dst := .t, qsel := true, imm := 0x1F, extra := lognOk (f.imf 4 0) && groupOk (f.imf 4 0) f.d } ∧
      (s.stage l.ix).qr f.qsel ≠ 0 ∧ f.imf 4 0 + 1 ≤ twoadic ((s.stage l.ix).qr f.qsel).toNat ∧
      (s.stage l.ix).preparing f.qsel = false ∧ psiOf ((s.stage l.ix).qr f.qsel).toNat ≠ none ∧
      (s.stage l.ix).readable (groupRegs f.d (groupSize (f.imf 4 0)))) ∧
    (∃ (s : State) (l : Loc) (f : Fields), f.imf 5 5 = 0 ∧
      s.issues l 0x22 f { stages := [St.perm], dst := .t, sa := .t, gsel := true, imm := 0x3F, extra := lognOk (f.imf 4 0) && groupOk (f.imf 4 0) f.d && groupOk (f.imf 4 0) f.a && decide (f.d ≠ f.a) } ∧
      ((s.stage l.ix).gr f.gsel).toNat < 2 ^ (f.imf 4 0 + 1) ∧
      (s.stage l.ix).readable (groupRegs f.a (groupSize (f.imf 4 0)))) ∧
    (∃ (s : State) (l : Loc) (f : Fields), f.imf 5 5 = 1 ∧
      s.issues l 0x22 f { stages := [St.perm], dst := .t, sa := .t, qsel := true, gsel := true, imm := 0x3F, extra := lognOk (f.imf 4 0) && groupOk (f.imf 4 0) f.d && groupOk (f.imf 4 0) f.a && decide (f.d ≠ f.a) } ∧
      ((s.stage l.ix).gr f.gsel).toNat < 2 ^ (f.imf 4 0 + 1) ∧ (s.stage l.ix).qr f.qsel ≠ 0 ∧
      (s.stage l.ix).readable (groupRegs f.a (groupSize (f.imf 4 0))) ∧ (∀ i,
      i < 2 ^ f.imf 4 0 → (s.stage l.ix).limb f.a i < ((s.stage l.ix).qr f.qsel).toNat)) ∧
    (∃ (s : State) (l : Loc) (f : Fields),
      s.issues l 0x20 f { stages := [St.ntt], dst := .t, qsel := true, imm := 0x1F, extra := lognOk (f.imf 4 0) && groupOk (f.imf 4 0) f.d } ∧
      (s.stage l.ix).qr f.qsel = 0 ∧ (s.stage l.ix).preparing f.qsel = false) :=
  ⟨⟨gs ⟨0, 4, 1⟩ { stg 0x20 (fi 12) with q := [(0, 65537)] }, ⟨0, 4, 1⟩, (fi 12), ⟨by decide, by decide, by decide,
    by decide⟩, by decide, by decide, by decide, (by decide +kernel), (by unfold Stage.readable; decide)⟩,
   ⟨gs ⟨0, 4, 4⟩ { stg 0x21 (fi 12) with q := [(0, 65537)] }, ⟨0, 4, 4⟩, (fi 12), ⟨by decide, by decide, by decide,
     by decide⟩, by decide, by decide, by decide, (by decide +kernel), (by unfold Stage.readable; decide)⟩,
   ⟨gs ⟨0, 4, 3⟩ { stg 0x22 ⟨1, 0, 0, 0, 0, 12⟩ with g := [] }, ⟨0, 4, 3⟩, ⟨1, 0, 0, 0, 0, 12⟩, by decide,
     ⟨by decide, by decide, by decide, by decide⟩, by decide, (by unfold Stage.readable; decide)⟩,
   ⟨gs ⟨0, 4, 3⟩ { stg 0x22 ⟨1, 0, 0, 0, 0, 44⟩ with q := [(0, 65537)] }, ⟨0, 4, 3⟩, ⟨1, 0, 0, 0, 0, 44⟩, by decide,
     ⟨by decide, by decide, by decide, by decide⟩, by decide, by decide, (by unfold Stage.readable; decide),
     fun _ _ => (by decide : (0 : Nat) < 65537)⟩,
   ⟨gs ⟨0, 4, 1⟩ { stg 0x20 (fi 12) with pc := 0 }, ⟨0, 4, 1⟩, (fi 12), ⟨by decide, by decide, by decide, by decide⟩,
     by decide, by decide⟩⟩

/-- States and operands that meet the hypotheses of each clause of Obligations.ScalarsAndPredicates. -/
theorem witness_ScalarsAndPredicates :
    (∃ (s : State) (l : Loc) (f : Fields), s.issues l 0xC0 f { stages := St.all, dst := .s, imm := 0xFFFFFF }) ∧
    (∃ (s : State) (l : Loc) (f : Fields), s.issues l 0xC1 f { stages := St.all, dst := .s, imm := 0xFFFFFF }) ∧
    (∃ (s : State) (l : Loc) (f : Fields), s.issues l 0xC2 f { stages := St.all, dst := .s, sa := .s, sb := .s }) ∧
    (∃ (s : State) (l : Loc) (f : Fields), s.issues l 0xC3 f { stages := St.all, dst := .s, sa := .s, sb := .s }) ∧
    (∃ (s : State) (l : Loc) (f : Fields), s.issues l 0xC4 f { stages := St.all, dst := .s, sa := .s, sb := .s }) ∧
    (∃ (s : State) (l : Loc) (f : Fields), s.issues l 0xC5 f { stages := St.all, dst := .s, sa := .s, sb := .s }) ∧
    (∃ (s : State) (l : Loc) (f : Fields), s.issues l 0xC6 f { stages := St.all, dst := .s, sa := .s, sb := .s }) ∧
    (∃ (s : State) (l : Loc) (f : Fields), s.issues l 0xC7 f { stages := St.all, dst := .s, sa := .s, sb := .s }) ∧
    (∃ (s : State) (l : Loc) (f : Fields), s.issues l 0xC8 f { stages := St.all, dst := .s, sa := .s, imm := 0x3F }) ∧
    (∃ (s : State) (l : Loc) (f : Fields), s.issues l 0xC9 f { stages := St.all, dst := .s, sa := .s, imm := 0x7F }) ∧
    (∃ (s : State) (l : Loc) (f : Fields), s.issues l 0xCC f { stages := St.all, dst := .s, imm := 0xF }) ∧
    (∃ (s : State) (l : Loc) (f : Fields),
      s.issues l 0xCA f { stages := St.all, dst := .p, sa := .s, sb := .s, imm := 7, extra := decide (f.i ≤ 5) }) ∧
    (∃ (s : State) (l : Loc) (f : Fields),
      s.issues l 0xCB f { stages := St.all, dst := .p, sa := .p, sb := .p, imm := 3 }) ∧
    (∃ (s : State) (l : Loc) (f : Fields), l.kind = 2 ∧
      s.issues l 0xCD f { stages := St.all, sa := .s, imm := 0xF, extra := decide (f.i = 5) }) ∧
    (∃ (s : State) (l : Loc) (f : Fields), l.kind ≠ 2 ∧
      s.issues l 0xCD f { stages := St.all, sa := .s, imm := 0xF, extra := decide (f.i = 5) }) ∧
    (∃ (s : State) (l : Loc) (f : Fields),
      s.issues l 0xCE f { stages := St.is ++ St.cs, dst := .q, sa := .s, imm := 1 } ∧ f.i = 0 ∧
      modulusOk ((s.stage l.ix).sr f.a).toNat = true) ∧
    (∃ (s : State) (l : Loc) (f : Fields),
      s.issues l 0xCE f { stages := St.is ++ St.cs, dst := .q, sa := .s, imm := 1 } ∧ f.i = 1 ∧
      ((s.stage l.ix).sr f.a).toNat < 64) ∧
    (∃ (s : State) (l : Loc) (f : Fields),
      s.issues l 0xCE f { stages := St.is ++ St.cs, dst := .q, sa := .s, imm := 1 } ∧ f.i = 0 ∧
      modulusOk ((s.stage l.ix).sr f.a).toNat = false) ∧
    (∃ (s : State) (l : Loc) (f : Fields), s.issues l 0xCF f { stages := St.cs, dst := .g, sa := .s } ∧
      ((s.stage l.ix).sr f.a).toNat % 2 = 1 ∧ ((s.stage l.ix).sr f.a).toNat < 2 ^ 18) ∧
    (∃ (s : State) (l : Loc) (f : Fields), s.issues l 0xD0 f { stages := St.all, dst := .d, sa := .s, sb := .s } ∧
      ((s.stage l.ix).sr f.b).toNat / 2 ^ 56 ≤ 4 ∧ ((s.stage l.ix).sr f.a).toNat % 64 = 0) :=
  ⟨⟨gs ⟨0, 0, 3⟩ { stg 0xC0 (fi 0) with pc := 0 }, ⟨0, 0, 3⟩, (fi 0), ⟨by decide, by decide, by decide, by decide⟩⟩,
   ⟨gs ⟨0, 0, 3⟩ { stg 0xC1 (fi 0) with pc := 0 }, ⟨0, 0, 3⟩, (fi 0), ⟨by decide, by decide, by decide, by decide⟩⟩,
   ⟨gs ⟨0, 0, 3⟩ { stg 0xC2 (fi 0) with pc := 0 }, ⟨0, 0, 3⟩, (fi 0), ⟨by decide, by decide, by decide, by decide⟩⟩,
   ⟨gs ⟨0, 0, 3⟩ { stg 0xC3 (fi 0) with pc := 0 }, ⟨0, 0, 3⟩, (fi 0), ⟨by decide, by decide, by decide, by decide⟩⟩,
   ⟨gs ⟨0, 0, 3⟩ { stg 0xC4 (fi 0) with pc := 0 }, ⟨0, 0, 3⟩, (fi 0), ⟨by decide, by decide, by decide, by decide⟩⟩,
   ⟨gs ⟨0, 0, 3⟩ { stg 0xC5 (fi 0) with pc := 0 }, ⟨0, 0, 3⟩, (fi 0), ⟨by decide, by decide, by decide, by decide⟩⟩,
   ⟨gs ⟨0, 0, 3⟩ { stg 0xC6 (fi 0) with pc := 0 }, ⟨0, 0, 3⟩, (fi 0), ⟨by decide, by decide, by decide, by decide⟩⟩,
   ⟨gs ⟨0, 0, 3⟩ { stg 0xC7 (fi 0) with pc := 0 }, ⟨0, 0, 3⟩, (fi 0), ⟨by decide, by decide, by decide, by decide⟩⟩,
   ⟨gs ⟨0, 0, 3⟩ { stg 0xC8 (fi 0) with pc := 0 }, ⟨0, 0, 3⟩, (fi 0), ⟨by decide, by decide, by decide, by decide⟩⟩,
   ⟨gs ⟨0, 0, 3⟩ { stg 0xC9 (fi 0) with pc := 0 }, ⟨0, 0, 3⟩, (fi 0), ⟨by decide, by decide, by decide, by decide⟩⟩,
   ⟨gs ⟨0, 0, 3⟩ { stg 0xCC (fi 0) with pc := 0 }, ⟨0, 0, 3⟩, (fi 0), ⟨by decide, by decide, by decide, by decide⟩⟩,
   ⟨gs ⟨0, 0, 3⟩ { stg 0xCA (fi 0) with pc := 0 }, ⟨0, 0, 3⟩, (fi 0), ⟨by decide, by decide, by decide, by decide⟩⟩,
   ⟨gs ⟨0, 0, 3⟩ { stg 0xCB (fi 0) with pc := 0 }, ⟨0, 0, 3⟩, (fi 0), ⟨by decide, by decide, by decide, by decide⟩⟩,
   ⟨gs ⟨0, 10, 0⟩ { stg 0xCD (fi 5) with pc := 0 }, ⟨0, 10, 0⟩, (fi 5), by decide, ⟨by decide, by decide, by decide,
     by decide⟩⟩,
   ⟨gs ⟨0, 0, 3⟩ { stg 0xCD (fi 5) with pc := 0 }, ⟨0, 0, 3⟩, (fi 5), by decide, ⟨by decide, by decide, by decide,
     by decide⟩⟩,
   ⟨gs ⟨0, 0, 3⟩ { stg 0xCE (fi 0) with s := [(0, 0x100401)] }, ⟨0, 0, 3⟩, (fi 0), ⟨by decide, by decide, by decide,
     by decide⟩, by decide, by decide⟩,
   ⟨gs ⟨0, 0, 3⟩ { stg 0xCE (fi 1) with s := [(0, 63)] }, ⟨0, 0, 3⟩, (fi 1), ⟨by decide, by decide, by decide,
     by decide⟩, by decide, by decide⟩,
   ⟨gs ⟨0, 0, 3⟩ { stg 0xCE (fi 0) with s := [(0, 4)] }, ⟨0, 0, 3⟩, (fi 0), ⟨by decide, by decide, by decide,
     by decide⟩, by decide, by decide⟩,
   ⟨gs ⟨0, 4, 3⟩ { stg 0xCF (fi 0) with s := [(0, 0x3FFFF)] }, ⟨0, 4, 3⟩, (fi 0), ⟨by decide, by decide, by decide,
     by decide⟩, by decide, by decide⟩,
   ⟨gs ⟨0, 0, 3⟩ { stg 0xD0 (fi 0) with s := [] }, ⟨0, 0, 3⟩, (fi 0), ⟨by decide, by decide, by decide, by decide⟩,
     by decide, by decide⟩⟩

/-- States and operands that meet the hypotheses of each clause of Obligations.TileMoves. -/
theorem witness_TileMoves :
    (∃ (s : State) (l : Loc) (f : Fields) (ls : List Nat), s.issues l 0x40 f (ldtShape l) ∧
      (s.descA l f).ok l.s 1 [1, 2, 3] = true ∧ (s.descA l f).kind ≠ 3 ∧ (s.stage l.ix).offset f % 64 = 0 ∧
      (s.descA l f).lines ((s.stage l.ix).offset f) (moveSize l f) = some ls ∧
      (bankOnly l = true → ls.any s.isHbm = false) ∧ (s.runLines l.req false (ls.map (fun a => (a,
      none)))).stall = false ∧ (s.runLines l.req false (ls.map (fun a => (a, none)))).err = none) ∧
    (∃ (s : State) (l : Loc) (f : Fields) (ls : List Nat), s.issues l 0x41 f (sttShape l) ∧ l.kind ≠ 2 ∧
      (s.descD l f).ok l.s 1 [1, 2, 3] = true ∧ (s.descD l f).kind ≠ 3 ∧ (s.stage l.ix).offset f % 64 = 0 ∧
      ((s.stage l.ix).tr f.a).bad = none ∧ (s.descD l f).lines ((s.stage l.ix).offset f) (moveSize l f) = some ls ∧
      (bankOnly l = true → ls.any s.isHbm = false) ∧
      (s.runLines l.req false (tileOps (((s.stage l.ix).tr f.a).bytes l.tbytes) ls)).stall = false ∧
      (s.runLines l.req false (tileOps (((s.stage l.ix).tr f.a).bytes l.tbytes) ls)).err = none) ∧
    (∃ (s : State) (l : Loc) (f : Fields), s.issues l 0x41 f (sttShape l) ∧ (s.descD l f).ok l.s 1 [1, 2,
      3] = false) ∧
    (∃ (s : State) (l : Loc) (f : Fields), s.issues l 0x40 f (ldtShape l) ∧ (s.descA l f).ok l.s 1 [1, 2, 3] = true ∧
      (s.descA l f).kind ≠ 3 ∧ (s.stage l.ix).offset f % 64 = 0 ∧
      (s.descA l f).lines ((s.stage l.ix).offset f) (moveSize l f) = none) :=
  ⟨⟨gs ⟨0, 0, 0⟩ { stg 0x40 (fi 0) with d := [(0, desc 1 0 4096 (bankAddr 0 0 0))] }, ⟨0, 0, 0⟩, (fi 0),
    (List.range 64).map (fun k => bankAddr 0 0 (64 * k)), ⟨by decide, by decide, by decide, by decide⟩,
    by decide +kernel⟩,
   ⟨gs ⟨0, 0, 0⟩ { stg 0x41 (fi 0) with d := [(0, desc 1 0 4096 (bankAddr 0 0 0))] }, ⟨0, 0, 0⟩, (fi 0),
     (List.range 64).map (fun k => bankAddr 0 0 (64 * k)), ⟨by decide, by decide, by decide, by decide⟩,
     by decide +kernel⟩,
   ⟨gs ⟨0, 0, 0⟩ { stg 0x41 (fi 0) with pc := 0 }, ⟨0, 0, 0⟩, (fi 0), ⟨by decide, by decide, by decide, by decide⟩,
     by decide⟩,
   ⟨gs ⟨0, 0, 0⟩ { stg 0x40 (fi 0) with d := [(0, desc 1 0 64 (bankAddr 0 0 0))] }, ⟨0, 0, 0⟩, (fi 0), ⟨by decide,
     by decide, by decide, by decide⟩, by decide⟩⟩

/-- States and operands that meet the hypotheses of each clause of Obligations.HeadersAndStreams. -/
theorem witness_HeadersAndStreams :
    (∃ (s : State) (l : Loc) (f : Fields) (r : Run), s.issues l 0x40 f (ldtShape l) ∧
      (s.descA l f).ok l.s 1 [3] = true ∧ f.d = 0 ∧ f.b = 0 ∧ f.i = 0 ∧ 64 ≤ (s.descA l f).length ∧
      (bankOnly l = true → s.isHbm (s.descA l f).base = false) ∧
      r = s.runLines l.req false (readOps (s.descA l f).base 64) ∧ r.good ∧
      r.st.hdrCheck (r.st.ctxOf l) (Hdr.of (BitVec.ofNat 512 (fromLE r.data))) = none) ∧
    (∃ (s : State) (l : Loc) (f : Fields) (r : Run) (e : Byte), s.issues l 0x40 f (ldtShape l) ∧
      (s.descA l f).ok l.s 1 [3] = true ∧ f.d = 0 ∧ f.b = 0 ∧ f.i = 0 ∧ 64 ≤ (s.descA l f).length ∧
      (bankOnly l = true → s.isHbm (s.descA l f).base = false) ∧
      r = s.runLines l.req false (readOps (s.descA l f).base 64) ∧ r.good ∧
      r.st.hdrCheck (r.st.ctxOf l) (Hdr.of (BitVec.ofNat 512 (fromLE r.data))) = some e) ∧
    (∃ (s : State) (l : Loc) (f : Fields) (r : Run), s.issues l 0x41 f (sttShape l) ∧
      (s.descD l f).ok l.s 1 [3] = true ∧ f.b = 0 ∧ f.i = 0 ∧ 64 ≤ (s.descD l f).length ∧
      (bankOnly l = true → s.isHbm (s.descD l f).base = false) ∧ poisoned (s.cipher l (s.descD l f).index) = false ∧
      r = s.runLines l.req false (writeOps (s.descD l f).base (le 64 (s.cipher l (s.descD l f).index).toNat)) ∧
      r.good) ∧
    (∃ (s : State) (l : Loc) (f : Fields), s.issues l 0x41 f (sttShape l) ∧ f.hint = 3 ∧
      (s.descD l f).ok l.s 1 [3] = true ∧ f.b = 0 ∧ f.i = 0 ∧ 64 ≤ (s.descD l f).length ∧
      (bankOnly l = true → s.isHbm (s.descD l f).base = false) ∧ poisoned (s.cipher l (s.descD l f).index) = true) ∧
    (∃ (s : State) (l : Loc) (f : Fields) (p : Pkt) (ps : List Pkt),
      s.issues l 0x42 f { stages := [St.intake, St.load, St.convert], dst := .t, sa := .s, imm := 0x13, extra := decide (f.imf 1 0 ≠ 3) && (decide (f.imf 1 0 ≠ 0) || decide (l.name = St.intake)) && decide (f.a ≤ 29) } ∧
      f.imf 1 0 = 1 ∧ s.sst l.d l.s = SS.running ∧ (s.queue (100 + strandIx l.d l.s)).pkts = p :: ps ∧
      p.bad = false ∧ f.d + (plainPktTiles l p).length ≤ l.tregs) ∧
    (∃ (s : State) (l : Loc) (f : Fields),
      s.issues l 0x42 f { stages := [St.intake, St.load, St.convert], dst := .t, sa := .s, imm := 0x13, extra := decide (f.imf 1 0 ≠ 3) && (decide (f.imf 1 0 ≠ 0) || decide (l.name = St.intake)) && decide (f.a ≤ 29) } ∧
      f.imf 1 0 = 1 ∧ f.imf 4 4 = 1 ∧ (s.queue (100 + strandIx l.d l.s)).pkts = []) ∧
    (∃ (s : State) (l : Loc) (f : Fields) (t : Tile) (y : Stage),
      s.issues l 0x43 f { stages := [0, 1, 2, 3, 8, 9, 10, 11, 12, 13, 14, 16, 17, 18], sa := .t, hints := [0, 2], imm := 0xF, extra := decide (l.g < f.imf 2 0) && decide (f.imf 2 0 < kindStages l.kind) } ∧
      (s.stage l.ix).credits ≠ 0 ∧ (s.stage l.ix).fence = 0 ∧ (s.stage l.ix).fwdTurn l.g = false ∧
      (s.stage l.ix).source l f = some (t, y)) ∧
    (∃ (s : State) (l : Loc) (f : Fields),
      s.issues l 0x43 f { stages := [0, 1, 2, 3, 8, 9, 10, 11, 12, 13, 14, 16, 17, 18], sa := .t, hints := [0, 2], imm := 0xF, extra := decide (l.g < f.imf 2 0) && decide (f.imf 2 0 < kindStages l.kind) } ∧
      (s.stage l.ix).credits = 0) ∧
    (∃ (s : State) (l : Loc) (f : Fields) (t : Tile) (y : Stage),
      s.issues l 0x44 f { stages := [1, 2, 3, 4, 9, 10, 11, 12, 13, 14, 15, 17, 18, 19], dst := .t } ∧
      (s.stage l.ix).takeSlot l.g = some (t, y) ∧ t.dataErr = false) ∧
    (∃ (s : State) (l : Loc) (f : Fields),
      s.issues l 0x44 f { stages := [1, 2, 3, 4, 9, 10, 11, 12, 13, 14, 15, 17, 18, 19], dst := .t } ∧
      (s.stage l.ix).takeSlot l.g = none) :=
  ⟨⟨{ gs ⟨0, 0, 0⟩ { stg 0x40 (fi 0) with d := [(0, desc 3 0 64 (bankAddr 0 0 0))] } with mem := (le 64 (hd 2 0 1 0 0x1000000 4160 16 512 0 0).toNat).zipIdx.map (fun x => (bankAddr 0 0 0 + x.2, x.1)) },
    ⟨0, 0, 0⟩, (fi 0), _, ⟨by decide, by decide, by decide, by decide⟩, by decide, by decide, by decide, by decide,
    by decide, by decide, rfl, ⟨by decide +kernel, by decide +kernel⟩, (by decide +kernel)⟩,
   ⟨gs ⟨0, 0, 0⟩ { stg 0x40 (fi 0) with d := [(0, desc 3 0 64 (bankAddr 0 0 0))] }, ⟨0, 0, 0⟩, (fi 0), _,
     Code.formatError, ⟨by decide, by decide, by decide, by decide⟩, by decide, by decide, by decide, by decide,
     by decide, by decide, rfl, ⟨by decide +kernel, by decide +kernel⟩, (by decide +kernel)⟩,
   ⟨gs ⟨0, 0, 0⟩ { stg 0x41 (fi 0) with d := [(0, desc 3 0 64 (bankAddr 0 0 0))] }, ⟨0, 0, 0⟩, (fi 0), _, ⟨by decide,
     by decide, by decide, by decide⟩, by decide, by decide, by decide, by decide, by decide, by decide, rfl,
     ⟨by decide +kernel, by decide +kernel⟩⟩,
   ⟨{ gs ⟨0, 0, 0⟩ { stg 0x41 ⟨0, 0, 0, 0, 3, 0⟩ with d := [(0, desc 3 0 64 (bankAddr 0 0 0))] } with strands := [(0, { Strand.zero with cipher := [(0, poisonH)] })] },
     ⟨0, 0, 0⟩, ⟨0, 0, 0, 0, 3, 0⟩, ⟨by decide, by decide, by decide, by decide⟩, by decide⟩,
   ⟨{ gs ⟨0, 0, 0⟩ { stg 0x42 (fi 1) with pc := 0 } with queues := [(100, { PktQ.zero with pkts := [⟨0, 0, 0, 0, [], 4, false, 0⟩] })] },
     ⟨0, 0, 0⟩, (fi 1), ⟨0, 0, 0, 0, [], 4, false, 0⟩, [], ⟨by decide, by decide, by decide, by decide⟩, by decide⟩,
   ⟨gs ⟨0, 0, 0⟩ { stg 0x42 (fi 0x11) with pc := 0 }, ⟨0, 0, 0⟩, (fi 0x11), ⟨by decide, by decide, by decide,
     by decide⟩, by decide⟩,
   ⟨gs ⟨0, 0, 0⟩ { stg 0x43 (fi 1) with pc := 0 }, ⟨0, 0, 0⟩, (fi 1), _, _, ⟨by decide, by decide, by decide,
     by decide⟩, by decide, by decide, by decide, rfl⟩,
   ⟨gs ⟨0, 0, 0⟩ { stg 0x43 (fi 1) with credits := 0 }, ⟨0, 0, 0⟩, (fi 1), ⟨by decide, by decide, by decide,
     by decide⟩, by decide⟩,
   ⟨gs ⟨0, 0, 3⟩ { stg 0x44 (fi 0) with slots := [{ Tile.zero with dest := 3 }] }, ⟨0, 0, 3⟩, (fi 0), _, _,
     ⟨by decide, by decide, by decide, by decide⟩, rfl, (by decide)⟩,
   ⟨gs ⟨0, 0, 3⟩ { stg 0x44 (fi 0) with pc := 0 }, ⟨0, 0, 3⟩, (fi 0), ⟨by decide, by decide, by decide, by decide⟩,
     by decide⟩⟩

/-- States and operands that meet the hypotheses of each clause of Obligations.CipherMerge. -/
theorem witness_CipherMerge :
    (∃ (s : State) (l : Loc) (f : Fields) (h : Hdr), f.imf 1 0 ≠ 1 ∧
      s.issues l 0x64 f { stages := St.cs, dst := .d, sa := .d, sb := .d, imm := 0xFFFF03, extra := decide (f.imf 1 0 ≠ 3) && decide (f.imf 23 8 = 0) } ∧
      (s.descD l f).ok l.s 1 [3] = true ∧ (s.descA l f).ok l.s 1 [3] = true ∧ (s.descB l f).ok l.s 1 [3] = true ∧
      s.hdrCheck (s.ctxOf l) (s.hdrA l f) = none ∧ s.hdrCheck (s.ctxOf l) (s.hdrB l f) = none ∧
      s.hdrCheck (s.ctxOf l) (s.hdrD l f) = none ∧
      h = cmrgEntry (f.imf 1 0) 0 (s.hdrA l f) (s.hdrB l f) (s.hdrD l f) ∧
      (h.poison = true ∨ (cmrgBad (f.imf 1 0) 0 (s.hdrA l f) (s.hdrB l f) = false ∧
      s.opsOver (s.ctxOf l) (f.imf 1 0) (s.hdrA l f) (s.hdrB l f) = false))) ∧
    (∃ (s : State) (l : Loc) (f : Fields) (h : Hdr), f.imf 1 0 = 1 ∧
      s.issues l 0x64 f { stages := St.cs, dst := .d, sa := .d, imm := 0xFFFF03 } ∧
      (s.descD l f).ok l.s 1 [3] = true ∧ (s.descA l f).ok l.s 1 [3] = true ∧
      s.hdrCheck (s.ctxOf l) (s.hdrA l f) = none ∧ s.hdrCheck (s.ctxOf l) (s.hdrD l f) = none ∧
      h = cmrgEntry 1 (BitVec.ofNat 16 (f.imf 23 8)).toInt (s.hdrA l f) (s.hdrA l f) (s.hdrD l f) ∧
      (h.poison = true ∨ (cmrgBad 1 (BitVec.ofNat 16 (f.imf 23 8)).toInt (s.hdrA l f) (s.hdrA l f) = false ∧
      s.opsOver (s.ctxOf l) 1 (s.hdrA l f) (s.hdrA l f) = false))) ∧
    (∃ (s : State) (l : Loc) (f : Fields) (h : Hdr), f.imf 1 0 ≠ 1 ∧
      s.issues l 0x64 f { stages := St.cs, dst := .d, sa := .d, sb := .d, imm := 0xFFFF03, extra := decide (f.imf 1 0 ≠ 3) && decide (f.imf 23 8 = 0) } ∧
      (s.descD l f).ok l.s 1 [3] = true ∧ (s.descA l f).ok l.s 1 [3] = true ∧ (s.descB l f).ok l.s 1 [3] = true ∧
      s.hdrCheck (s.ctxOf l) (s.hdrA l f) = none ∧ s.hdrCheck (s.ctxOf l) (s.hdrB l f) = none ∧
      s.hdrCheck (s.ctxOf l) (s.hdrD l f) = none ∧
      h = cmrgEntry (f.imf 1 0) 0 (s.hdrA l f) (s.hdrB l f) (s.hdrD l f) ∧ h.poison = false ∧
      cmrgBad (f.imf 1 0) 0 (s.hdrA l f) (s.hdrB l f) = false ∧
      s.opsOver (s.ctxOf l) (f.imf 1 0) (s.hdrA l f) (s.hdrB l f) = true) ∧
    (∃ (s : State) (l : Loc) (f : Fields) (h : Hdr), f.imf 1 0 ≠ 1 ∧
      s.issues l 0x64 f { stages := St.cs, dst := .d, sa := .d, sb := .d, imm := 0xFFFF03, extra := decide (f.imf 1 0 ≠ 3) && decide (f.imf 23 8 = 0) } ∧
      (s.descD l f).ok l.s 1 [3] = true ∧ (s.descA l f).ok l.s 1 [3] = true ∧ (s.descB l f).ok l.s 1 [3] = true ∧
      s.hdrCheck (s.ctxOf l) (s.hdrA l f) = none ∧ s.hdrCheck (s.ctxOf l) (s.hdrB l f) = none ∧
      s.hdrCheck (s.ctxOf l) (s.hdrD l f) = none ∧
      h = cmrgEntry (f.imf 1 0) 0 (s.hdrA l f) (s.hdrB l f) (s.hdrD l f) ∧ h.poison = false ∧
      cmrgBad (f.imf 1 0) 0 (s.hdrA l f) (s.hdrB l f) = true) :=
  ⟨⟨{ gs ⟨0, 4, 0⟩ { stg 0x64 ⟨2, 0, 1, 0, 0, 0⟩ with d := [(0, desc 3 0 64 0), (1, desc 3 1 64 0), (2, desc 3 2 64 0)] } with strands := [(4, { Strand.zero with cipher := [(0, (hd 2 0 1 0 68719476736 4160 16 512 0 0)), (1, (hd 2 0 1 0 68719476736 4160 16 512 1 0)), (2, (hd 2 0 1 0 68719542272 4160 16 512 0 0))] })] },
    ⟨0, 4, 0⟩, ⟨2, 0, 1, 0, 0, 0⟩, _, by decide, ⟨by decide, by decide, by decide, by decide⟩, by decide, by decide,
    by decide, (by decide +kernel), (by decide +kernel), (by decide +kernel), rfl, by decide⟩,
   ⟨{ gs ⟨0, 4, 0⟩ { stg 0x64 ⟨2, 0, 0, 0, 0, 1⟩ with d := [(0, desc 3 0 64 0), (1, desc 3 1 64 0), (2, desc 3 2 64 0)] } with strands := [(4, { Strand.zero with cipher := [(0, (hd 2 0 1 0 68719476736 4160 16 512 0 0)), (1, (hd 2 0 1 0 68719476736 4160 16 512 1 0)), (2, (hd 2 0 1 0 68719542272 4160 16 512 0 0))] })] },
     ⟨0, 4, 0⟩, ⟨2, 0, 0, 0, 0, 1⟩, _, by decide, ⟨by decide, by decide, by decide, by decide⟩, by decide, by decide,
     (by decide +kernel), (by decide +kernel), rfl, by decide⟩,
   ⟨{ gs ⟨0, 4, 0⟩ { stg 0x64 ⟨2, 0, 1, 0, 0, 0⟩ with d := [(0, desc 3 0 64 0), (1, desc 3 1 64 0), (2, desc 3 2 64 0)] } with strands := [(4, { Strand.zero with cipher := [(0, (hd 2 0 1 0 68719476736 4160 16 512 8 0)), (1, (hd 2 0 1 0 68719476736 4160 16 512 8 0)), (2, (hd 2 0 1 0 68719542272 4160 16 512 0 0))] })] },
     ⟨0, 4, 0⟩, ⟨2, 0, 1, 0, 0, 0⟩, _, by decide, ⟨by decide, by decide, by decide, by decide⟩, by decide, by decide,
     by decide, (by decide +kernel), (by decide +kernel), (by decide +kernel), rfl, by decide⟩,
   ⟨{ gs ⟨0, 4, 0⟩ { stg 0x64 ⟨2, 0, 1, 0, 0, 0⟩ with d := [(0, desc 3 0 64 0), (1, desc 3 1 64 0), (2, desc 3 2 64 0)] } with strands := [(4, { Strand.zero with cipher := [(0, (hd 2 0 1 0 68719476736 4160 16 512 0 0)), (1, (hd 1 13 1 0 68719607808 131072 1 0 0 0)), (2, (hd 2 0 1 0 68719542272 4160 16 512 0 0))] })] },
     ⟨0, 4, 0⟩, ⟨2, 0, 1, 0, 0, 0⟩, _, by decide, ⟨by decide, by decide, by decide, by decide⟩, by decide, by decide,
     by decide, (by decide +kernel), (by decide +kernel), (by decide +kernel), rfl, by decide, by decide⟩⟩

/-- States and operands that meet the hypotheses of each clause of Obligations.LevelDropsAndRefresh. -/
theorem witness_LevelDropsAndRefresh :
    (∃ (s : State) (l : Loc) (f : Fields) (p : Machine.PSet) (new : Hdr),
      s.issues l 0x24 f { stages := [St.base], dst := .d, sa := .d } ∧ (s.descD l f).ok l.s 1 [3] = true ∧
      (s.descA l f).ok l.s 1 [3] = true ∧ s.hdrCheck (s.ctxOf l) (s.hdrA l f) = none ∧
      s.hdrCheck (s.ctxOf l) (s.hdrD l f) = none ∧ s.pset (s.ctxOf l) (s.hdrA l f).pset = some p ∧
      (s.hdrA l f).typ = 1 ∧ (s.hdrA l f).ntt = false ∧ (s.hdrA l f).ptLog = 0 ∧
      new = s.rescEntry true 1 p (s.hdrA l f) (s.hdrD l f)) ∧
    (∃ (s : State) (l : Loc) (f : Fields) (p : Machine.PSet) (new : Hdr),
      s.issues l 0x25 f { stages := [St.base], dst := .d, sa := .d, imm := 0x3F } ∧
      (s.descD l f).ok l.s 1 [3] = true ∧ (s.descA l f).ok l.s 1 [3] = true ∧
      s.hdrCheck (s.ctxOf l) (s.hdrA l f) = none ∧ s.hdrCheck (s.ctxOf l) (s.hdrD l f) = none ∧
      s.pset (s.ctxOf l) (s.hdrA l f).pset = some p ∧ (s.hdrA l f).typ = 1 ∧ (s.hdrA l f).ntt = false ∧ f.i ≠ 0 ∧
      f.i < (s.hdrA l f).limbs ∧ new = s.rescEntry false ((s.hdrA l f).limbs - f.i) p (s.hdrA l f) (s.hdrD l f)) ∧
    (∃ (s : State) (l : Loc) (f : Fields) (hs : List Hdr) (p : Machine.PSet),
      s.issues l 0x61 f { stages := [St.kacc], dst := .d, sa := .d, sb := .d, sc := .d, imm := 0xF } ∧
      (s.descD l f).ok l.s (f.i + 1) [3] = true ∧ (s.descA l f).ok l.s (f.i + 1) [3] = true ∧
      (s.descB l f).ok l.s 1 [4] = true ∧ (s.descC l f).ok l.s 1 [1] = true ∧
      hs = (List.range (f.i + 1)).map (fun k => s.hdr l ((s.descA l f).index + k)) ∧ (∀ g,
      g ∈ hs → s.hdrCheck (s.ctxOf l) g = none ∧ g.typ = 2 ∧ g.lweN = (s.hdrA l f).lweN ∧
      g.pset = (s.hdrA l f).pset ∧ g.keytag = (s.hdrA l f).keytag) ∧ (∀ k,
      k < f.i + 1 → s.hdrCheck (s.ctxOf l) (s.hdr l ((s.descD l f).index + k)) = none) ∧
      s.pset (s.ctxOf l) (s.hdrA l f).pset = some p ∧ (s.descC l f).length ≤ 16384 ∧ (s.descC l f).length % 8 = 0) :=
  ⟨⟨{ gs ⟨0, 4, 5⟩ { stg 0x24 ⟨1, 0, 0, 0, 0, 0⟩ with d := [(0, desc 3 0 64 0), (1, desc 3 1 64 0)] } with strands := [(4, { Strand.zero with cipher := [(0, (hd 1 13 4 3 68719476736 524288 1 0 0 0)), (1, (hd 1 13 4 3 68720525312 524288 1 0 0 0))] })] },
    ⟨0, 4, 5⟩, ⟨1, 0, 0, 0, 0, 0⟩, _, _, ⟨by decide, by decide, by decide, by decide⟩, by decide, by decide,
    (by decide +kernel), (by decide +kernel), rfl, by decide, by decide, by decide, rfl⟩,
   ⟨{ gs ⟨0, 4, 5⟩ { stg 0x25 ⟨1, 0, 0, 0, 0, 2⟩ with d := [(0, desc 3 0 64 0), (1, desc 3 1 64 0)] } with strands := [(4, { Strand.zero with cipher := [(0, (hd 1 13 4 3 68719476736 524288 1 0 0 0)), (1, (hd 1 13 4 3 68720525312 524288 1 0 0 0))] })] },
     ⟨0, 4, 5⟩, ⟨1, 0, 0, 0, 0, 2⟩, _, _, ⟨by decide, by decide, by decide, by decide⟩, by decide, by decide,
     (by decide +kernel), (by decide +kernel), rfl, by decide, by decide, by decide, by decide, rfl⟩,
   ⟨{ gs ⟨0, 4, 6⟩ { stg 0x61 ⟨1, 0, 2, 3, 0, 0⟩ with d := [(0, desc 3 0 64 0), (1, desc 3 1 64 0), (2, desc 4 0 64 0), (3, desc 1 0 16384 0)] } with strands := [(4, { Strand.zero with cipher := [(0, (hd 2 0 1 0 68719476736 4160 16 512 0 0)), (1, (hd 2 0 1 0 68719542272 4160 16 512 0 0))] })] },
     ⟨0, 4, 6⟩, ⟨1, 0, 2, 3, 0, 0⟩, _, _, ⟨by decide, by decide, by decide, by decide⟩, by decide, by decide,
     by decide, by decide, rfl, (by decide +kernel), (by decide +kernel), rfl, by decide, by decide⟩⟩

/-- States and operands that meet the hypotheses of each clause of Obligations.KeyStreams. -/
theorem witness_KeyStreams :
    (∃ (s : State) (l : Loc) (f : Fields) (p : Machine.PSet) (new : Hdr),
      s.issues l 0x60 f { stages := [St.kacc], dst := .d, sa := .d, sb := .d, imm := 1 } ∧
      (s.descD l f).ok l.s 1 [3] = true ∧ (s.descA l f).ok l.s 1 [3] = true ∧ (s.descB l f).ok l.s 1 [4] = true ∧
      s.hdrCheck (s.ctxOf l) (s.hdrA l f) = none ∧ s.hdrCheck (s.ctxOf l) (s.hdrD l f) = none ∧
      s.pset (s.ctxOf l) (s.hdrA l f).pset = some p ∧ (s.hdrA l f).typ = 1 ∧
      overlaps (s.hdrA l f).ptr (s.hdrA l f).len (s.hdrD l f).ptr (s.hdrA l f).len = false ∧
      new = kswEntry (s.hdrA l f) (s.hdrD l f) (decide (f.i = 1))) ∧
    (∃ (s : State) (l : Loc) (f : Fields) (p : Machine.PSet) (w0 : Machine.PSet) (new : Hdr),
      s.issues l 0x62 f { stages := [St.kacc], dst := .d, sa := .d, sb := .d, imm := 0x1FFFF } ∧
      (s.descD l f).ok l.s 1 [3] = true ∧ (s.descA l f).ok l.s 1 [3] = true ∧ (s.descB l f).ok l.s 1 [4] = true ∧
      s.hdrCheck (s.ctxOf l) (s.hdrA l f) = none ∧ s.hdrCheck (s.ctxOf l) (s.hdrD l f) = none ∧
      s.pset (s.ctxOf l) (s.hdrA l f).pset = some p ∧ p.lweSet ≠ 0 ∧ s.pset (s.ctxOf l) p.lweSet = some w0 ∧
      (s.hdrA l f).typ = 1 ∧ (s.hdrA l f).ntt = false ∧ (s.hdrA l f).limbs = 1 ∧ f.i < 2 ^ (s.hdrA l f).logn ∧
      s.keyRegistered (s.ctxOf l) (s.descB l f) [3] = true ∧
      new = extrEntry (s.hdrA l f) (s.hdrD l f) p.lweSet w0.lweN) ∧
    (∃ (s : State) (l : Loc) (f : Fields) (p : Machine.PSet) (new : Hdr),
      s.issues l 0x63 f { stages := [St.kacc], dst := .d, sa := .d, sb := .d, imm := 0x1FFFF } ∧
      (s.descD l f).ok l.s 1 [3] = true ∧ (s.descA l f).ok l.s 1 [3] = true ∧ (s.descB l f).ok l.s 1 [4] = true ∧
      s.hdrCheck (s.ctxOf l) (s.hdrA l f) = none ∧ s.hdrCheck (s.ctxOf l) (s.hdrD l f) = none ∧
      s.pset (s.ctxOf l) (s.hdrD l f).pset = some p ∧ (s.hdrA l f).typ = 2 ∧ (s.hdrD l f).typ = 1 ∧
      (s.hdrD l f).limbs = 1 ∧ p.lweSet = (s.hdrA l f).pset ∧ f.i < 2 ^ (s.hdrD l f).logn ∧
      s.keyRegistered (s.ctxOf l) (s.descB l f) [4] = true ∧ new = packEntry (s.hdrA l f) (s.hdrD l f)) :=
  ⟨⟨{ gs ⟨0, 4, 6⟩ { stg 0x60 ⟨1, 0, 2, 0, 0, 0⟩ with d := [(0, desc 3 0 64 0), (1, desc 3 1 64 0), (2, desc 4 0 64 0)] } with strands := [(4, { Strand.zero with cipher := [(0, (hd 1 13 4 3 68719476736 524288 1 0 0 0)), (1, (hd 1 13 4 3 68720525312 524288 1 0 0 0))] })] },
    ⟨0, 4, 6⟩, ⟨1, 0, 2, 0, 0, 0⟩, _, _, ⟨by decide, by decide, by decide, by decide⟩, by decide, by decide,
    by decide, (by decide +kernel), (by decide +kernel), rfl, by decide, by decide, rfl⟩,
   ⟨{ gs ⟨0, 4, 6⟩ { stg 0x62 ⟨1, 0, 2, 0, 0, 0⟩ with d := [(0, desc 3 0 64 0), (1, desc 3 1 64 0), (2, desc 4 0 64 0)] } with strands := [(4, { Strand.zero with cipher := [(0, (hd 1 13 1 0 68719476736 131072 1 0 0 0)), (1, (hd 1 13 1 0 68720525312 131072 1 0 0 0))] })], evk := [(0, { EvkEnt.zero with st := 1, length := 64, purpose := 3 })] },
     ⟨0, 4, 6⟩, ⟨1, 0, 2, 0, 0, 0⟩, _, _, _, ⟨by decide, by decide, by decide, by decide⟩, by decide, by decide,
     by decide, (by decide +kernel), (by decide +kernel), rfl, by decide, rfl, by decide, by decide, by decide,
     by decide, by decide, rfl⟩,
   ⟨{ gs ⟨0, 4, 6⟩ { stg 0x63 ⟨1, 0, 2, 0, 0, 0⟩ with d := [(0, desc 3 0 64 0), (1, desc 3 1 64 0), (2, desc 4 0 64 0)] } with strands := [(4, { Strand.zero with cipher := [(0, (hd 2 0 1 0 68719476736 4160 16 512 0 0)), (1, (hd 1 13 1 0 68720525312 131072 1 0 0 0))] })], evk := [(0, { EvkEnt.zero with st := 1, length := 64, purpose := 4 })] },
     ⟨0, 4, 6⟩, ⟨1, 0, 2, 0, 0, 0⟩, _, _, ⟨by decide, by decide, by decide, by decide⟩, by decide, by decide,
     by decide, (by decide +kernel), (by decide +kernel), rfl, by decide, by decide, by decide, by decide, by decide,
     by decide, rfl⟩⟩

/-- States and operands that meet the hypotheses of each clause of Obligations.FoldAndSeal. -/
theorem witness_FoldAndSeal :
    (∃ (s : State) (l : Loc) (f : Fields) (t : Tile) (y : Stage) (r : Run),
      s.issues l 0x69 f { stages := [St.fold], sa := .t, sb := .d, sc := .p, qsel := decide (f.imf 1 0 = 2), hints := [0, 2], imm := 0xF, extra := decide (f.imf 1 0 ≠ 3) } ∧
      (f.imf 1 0 = 2 → (s.stage l.ix).qr f.qsel ≠ 0) ∧ (s.stage l.ix).pr f.c = true ∧
      (s.descB l f).ok l.s 1 [1] = true ∧ (s.stage l.ix).source l f = some (t, y) ∧ t.bad = none ∧
      (s.descB l f).base + t.tag.toNat % 2 ^ 32 * ringSize (f.imf 1 0) + t.vcnt.toNat ≤ (s.descB l f).base + (s.descB l f).length ∧
      r = s.rmwLines l.req (s.foldLine t ((s.descB l f).base + t.tag.toNat % 2 ^ 32 * ringSize (f.imf 1 0)) (t.vcnt.toNat / ringSize (f.imf 1 0)) (ringSize (f.imf 1 0)) (ringMod (f.imf 1 0) ((s.stage l.ix).qr f.qsel).toNat) (decide (f.imf 2 2 = 1))) ((linesOf ((s.descB l f).base + t.tag.toNat % 2 ^ 32 * ringSize (f.imf 1 0)) (t.vcnt.toNat / ringSize (f.imf 1 0) * ringSize (f.imf 1 0))).drop (s.stage l.ix).foldPos) ∧
      r.good) ∧
    (∃ (s : State) (l : Loc) (f : Fields),
      s.issues l 0x69 f { stages := [St.fold], sa := .t, sb := .d, sc := .p, qsel := decide (f.imf 1 0 = 2), hints := [0, 2], imm := 0xF, extra := decide (f.imf 1 0 ≠ 3) } ∧
      (f.imf 1 0 = 2 → (s.stage l.ix).qr f.qsel ≠ 0) ∧ (s.stage l.ix).pr f.c = false ∧ f.hint = 0) ∧
    (∃ (s : State) (v : State) (l : Loc) (f : Fields) (d : Nat) (b : Nat) (o : Nat) (r : Line) (old : Bool),
      s.issues l 0x6A f { stages := [St.fold], dst := .p, sa := .d, sb := .s, imm := 1, extra := decide (1 ≤ f.d) && decide (f.d ≤ 6) } ∧
      (s.descA l f).ok l.s 1 [1] = true ∧ ((s.stage l.ix).sr f.b).toNat / 8 < (s.descA l f).length ∧
      place s.part ((s.descA l f).base + ((s.stage l.ix).sr f.b).toNat / 8) = .bank d b o ∧
      r = s.writeLine (s.bankReq l ((s.descA l f).base + ((s.stage l.ix).sr f.b).toNat / 8)) ((s.descA l f).base + ((s.stage l.ix).sr f.b).toNat / 8 + 0x80000000) [BitVec.ofNat 8 (2 ^ (((s.stage l.ix).sr f.b).toNat % 8))] false ∧
      r.stall = false ∧ r.code = Code.ok ∧ r.st.crossPorts (route d l.d) = (v, false) ∧
      old = (r.data.getD (((s.descA l f).base + ((s.stage l.ix).sr f.b).toNat / 8) % 64) 0).getLsbD (((s.stage l.ix).sr f.b).toNat % 8)) ∧
    (∃ (s : State) (l : Loc) (f : Fields) (c : SealCfg), f.imf 1 0 = 0 ∧ f.imf 3 2 = 1 ∧ f.imf 4 4 = 0 ∧
      f.imf 5 5 = 0 ∧ s.issues l 0x68 f { stages := [St.fold], dst := .d, sa := .d, sb := .d, imm := 0x1F7F } ∧
      (s.descA l f).ok l.s 1 [1] = true ∧ (s.descB l f).ok l.s 1 [1] = true ∧ (s.descD l f).ok l.s 1 [1] = true ∧
      c = ⟨0, 1, 2 ^ 64, false, false, f.imf 12 8, (s.descA l f).base, (s.descB l f).base, (s.descD l f).base,
      (s.descA l f).length⟩ ∧ (s.stage l.ix).sealPos = 0 ∧
      s.sealRanges l f c (s.descA l f) (s.descB l f) (s.descD l f) = true) ∧
    (∃ (s : State) (l : Loc) (f : Fields), f.imf 1 0 = 1 ∧ f.imf 3 2 = 1 ∧ f.imf 4 4 = 0 ∧
      s.issues l 0x68 f { stages := [St.fold], dst := .d, sa := .d, sb := .d, imm := 0x1F7F } ∧
      (s.descA l f).ok l.s 1 [1] = true ∧ (s.descB l f).ok l.s 1 [1] = true ∧ (s.descD l f).ok l.s 1 [3] = true ∧
      (s.stage l.ix).sealPos = 0 ∧ poisoned (s.cipher l (s.descD l f).index) = true) :=
  ⟨⟨gs ⟨0, 0, 4⟩ { stg 0x69 (fi 0) with d := [(0, desc 1 0 64 (bankAddr 0 1 0))] }, ⟨0, 0, 4⟩, (fi 0), _, _, _,
    ⟨by decide, by decide, by decide, by decide⟩, by decide, by decide, by decide, rfl, rfl, by decide, rfl, ⟨rfl,
    rfl⟩⟩,
   ⟨gs ⟨0, 0, 4⟩ { stg 0x69 ⟨0, 0, 0, 1, 0, 0⟩ with p := 1 }, ⟨0, 0, 4⟩, ⟨0, 0, 0, 1, 0, 0⟩, ⟨by decide, by decide,
     by decide, by decide⟩, by decide⟩,
   ⟨gs ⟨0, 0, 4⟩ { stg 0x6A ⟨1, 0, 0, 0, 0, 0⟩ with d := [(0, desc 1 0 64 (bankAddr 0 0 0))] }, _, ⟨0, 0, 4⟩, ⟨1, 0,
     0, 0, 0, 0⟩, 0, 0, 0, _, false, ⟨by decide, by decide, by decide, by decide⟩, by decide, by decide, by decide,
     rfl, (by decide +kernel), (by decide +kernel), rfl, (by decide +kernel)⟩,
   ⟨gs ⟨0, 0,
     4⟩ { stg 0x68 ⟨1, 0, 2, 0, 0, 4⟩ with d := [(0, desc 1 0 64 (bankAddr 0 1 0)), (1, desc 1 0 64 (bankAddr 0 0 64)), (2, desc 1 0 64 (bankAddr 0 0 0))] },
     ⟨0, 0, 4⟩, ⟨1, 0, 2, 0, 0, 4⟩, _, by decide, by decide, by decide, by decide, ⟨by decide, by decide, by decide,
     by decide⟩, by decide, by decide, by decide, rfl, by decide, (by decide +kernel)⟩,
   ⟨{ gs ⟨0, 0, 4⟩ { stg 0x68 ⟨1, 0, 2, 0, 0, 5⟩ with d := [(0, desc 1 0 64 (bankAddr 0 1 0)), (1, desc 3 0 64 0), (2, desc 1 0 64 0)] } with strands := [(0, { Strand.zero with cipher := [(0, poisonH)] })] },
     ⟨0, 0, 4⟩, ⟨1, 0, 2, 0, 0, 5⟩, by decide, by decide, by decide, ⟨by decide, by decide, by decide, by decide⟩,
     by decide⟩⟩

/-- States and operands that meet the hypotheses of each clause of Obligations.CryptoInstructions. -/
theorem witness_CryptoInstructions :
    (∃ (s : State) (l : Loc) (f : Fields), s.issues l 0x80 f { stages := [St.prg], dst := .t, sa := .s, sb := .s } ∧
      ((s.stage l.ix).sr f.a).toNat < 4096 ∧ seedValid (s.seed (iNum l.d l.s) ((s.stage l.ix).sr f.a).toNat) = true ∧
      s.keysGone (s.ctxOf l) = false) ∧
    (∃ (s : State) (l : Loc) (f : Fields), s.issues l 0x80 f { stages := [St.prg], dst := .t, sa := .s, sb := .s } ∧
      (4096 ≤ ((s.stage l.ix).sr f.a).toNat ∨ seedValid (s.seed (iNum l.d l.s) ((s.stage l.ix).sr f.a).toNat) = false)) ∧
    (∃ (s : State) (v : State) (w : State) (l : Loc) (f : Fields) (k : BitVec 256), f.hint = 0 ∧
      s.issues l 0x81 f { stages := [St.aead], dst := .t, sa := .t, hints := [0, 2] } ∧
      ((s.stage l.ix).tr f.a).bad = none ∧ ((s.stage l.ix).tr f.a).last = true ∧ f.d + 1 ≤ l.tregs ∧
      s.keyPort (((s.stage l.ix).tr f.a).tag.toNat / 2 ^ 32 % 2 ^ 22) = (v, .key k) ∧
      v.crossPorts (route (4 + ((s.stage l.ix).tr f.a).tag.toNat / 2 ^ 32 % 2 ^ 22 / 2 ^ 20) l.d) = (w, false)) ∧
    (∃ (s : State) (l : Loc) (f : Fields) (t : Tile) (y : Stage),
      s.issues l 0x82 f { stages := [St.add], dst := .t, sa := .t, sb := .s, qsel := decide (f.imf 1 0 = 2), hints := [0, 2], imm := 3, extra := decide (f.imf 1 0 ≠ 3) } ∧
      (s.stage l.ix).sr f.b ≠ 0 ∧ (f.imf 1 0 = 2 → (s.stage l.ix).qr f.qsel ≠ 0) ∧ s.entPort = .served ∧
      (s.stage l.ix).source l f = some (t, y)) ∧
    (∃ (s : State) (l : Loc) (f : Fields) (t : Tile) (y : Stage),
      s.issues l 0x82 f { stages := [St.add], dst := .t, sa := .t, sb := .s, qsel := decide (f.imf 1 0 = 2), hints := [0, 2], imm := 3, extra := decide (f.imf 1 0 ≠ 3) } ∧
      (s.stage l.ix).sr f.b ≠ 0 ∧ (f.imf 1 0 = 2 → (s.stage l.ix).qr f.qsel ≠ 0) ∧ s.entPort = .refused ∧
      (s.stage l.ix).source l f = some (t, y)) :=
  ⟨⟨{ gs ⟨0, 0, 2⟩ { stg 0x80 (fi 0) with pc := 0 } with seeds := [(0, BitVec.ofNat 512 (2 ^ 256))], keys := [(64, { KeyHalf.zero with attr := 0x80000000 })] },
    ⟨0, 0, 2⟩, (fi 0), ⟨by decide, by decide, by decide, by decide⟩, by decide +kernel⟩,
   ⟨gs ⟨0, 0, 2⟩ { stg 0x80 (fi 0) with pc := 0 }, ⟨0, 0, 2⟩, (fi 0), ⟨by decide, by decide, by decide, by decide⟩,
     by decide⟩,
   ⟨{ gs ⟨0, 0, 1⟩ { stg 0x81 (fi 0) with t := [(0, { Tile.zero with last := true })] } with est := [(0, eld 2)] } |>.setReg (Reg.estGate 0 0) 0x80000000 |>.setReg (Reg.ctxStat 0) 0x20000000,
     _, _, ⟨0, 0, 1⟩, (fi 0), _, by decide, ⟨by decide, by decide, by decide, by decide⟩, by decide, by decide,
     by decide, rfl, (by exact rfl)⟩,
   ⟨(gs ⟨0, 0, 3⟩ { stg 0x82 (fi 0) with s := [(0, 5)] }).setReg Reg.entStat 0x20000000, ⟨0, 0, 3⟩, (fi 0), _, _,
     ⟨by decide, by decide, by decide, by decide⟩, by decide, by decide, by decide, rfl⟩,
   ⟨(gs ⟨0, 0, 3⟩ { stg 0x82 (fi 0) with s := [(0, 5)] }).setReg Reg.entStat 0x60000000, ⟨0, 0, 3⟩, (fi 0), _, _,
     ⟨by decide, by decide, by decide, by decide⟩, by decide, by decide, by decide, rfl⟩⟩

/-- States and operands that meet the hypotheses of each clause of Obligations.FloatArithmetic. -/
theorem witness_FloatArithmetic :
    (∃ (s : State) (l : Loc) (f : Fields) (t : Tile) (y : Stage),
      s.issues l 0xA0 f { stages := [St.fmaA, St.fmaB], dst := .t, sa := .t, sb := f.bFile, sc := .t, rnd := true, hints := [0, 2], imm := 1 } ∧
      (s.stage l.ix).readable (f.c :: f.bRegs) ∧ (s.stage l.ix).source l f = some (t, y)) ∧
    (∃ (s : State) (l : Loc) (f : Fields) (t : Tile) (y : Stage), l.name = St.convert ∧
      s.issues l 0xA1 f { stages := [St.convert, St.round], dst := .t, sa := .t, fmt := true, rnd := true, hints := [0, 2] } ∧
      (s.stage l.ix).source l f = some (t, y)) ∧
    (∃ (s : State) (l : Loc) (f : Fields) (t : Tile) (y : Stage), l.name = St.round ∧
      s.issues l 0xA1 f { stages := [St.convert, St.round], dst := .t, sa := .t, fmt := true, rnd := true, hints := [0, 2] } ∧
      (s.stage l.ix).source l f = some (t, y)) ∧
    (∃ fmt v, 1 ≤ fmt ∧ fmt ≤ 4 ∧ v < 2 ^ (8 * fmtSize fmt) ∧ ∃ s m e, (fmtOf fmt).decode v = .fin s m e) ∧
    (∃ v s m e, f32.decode v = .fin s m e ∧ 0 ≤ e ∧ 128 ≤ m ∧ s = false) ∧
    (∃ fmt v, fmt < 6 ∧ v < 2 ^ (8 * fmtSize fmt)) :=
  ⟨⟨gs ⟨0, 10, 1⟩ { stg 0xA0 (fi 0) with pc := 0 }, ⟨0, 10, 1⟩, (fi 0), _, _, ⟨by decide, by decide, by decide,
    by decide⟩, (by unfold Stage.readable; decide), rfl⟩,
   ⟨gs ⟨0, 10, 0⟩ { stg 0xA1 (fi 0) with pc := 0 }, ⟨0, 10, 0⟩, (fi 0), _, _, by decide, ⟨by decide, by decide,
     by decide, by decide⟩, rfl⟩,
   ⟨gs ⟨0, 10, 3⟩ { stg 0xA1 (fi 0) with pc := 0 }, ⟨0, 10, 3⟩, (fi 0), _, _, by decide, ⟨by decide, by decide,
     by decide, by decide⟩, rfl⟩,
   ⟨1, 0x3C00, by decide, by decide, by decide, _, _, _, rfl⟩,
   ⟨0x4B000000, _, _, _, rfl, by decide, by decide, rfl⟩,
   ⟨0, 0, by decide, by decide⟩⟩

/-- States and operands that meet the hypotheses of each clause of Obligations.ControlFlow. -/
theorem witness_ControlFlow :
    (∃ (s : State) (l : Loc) (f : Fields), s.issues l 0xE0 f { stages := St.all, sa := .s, imm := 0x3FFF } ∧
      (s.stage l.ix).loops.length < 4 ∧ (s.stage l.ix).pc < f.i ∧ f.i < (s.stage l.ix).codeWords ∧ (∀ r rs,
      (s.stage l.ix).loops = r :: rs → f.i ≤ r.fin) ∧ (s.stage l.ix).sr f.a ≠ 0) ∧
    (∃ (s : State) (l : Loc) (f : Fields), s.issues l 0xE0 f { stages := St.all, sa := .s, imm := 0x3FFF } ∧
      (s.stage l.ix).loops.length < 4 ∧ (s.stage l.ix).pc < f.i ∧ f.i < (s.stage l.ix).codeWords ∧ (∀ r rs,
      (s.stage l.ix).loops = r :: rs → f.i ≤ r.fin) ∧ (s.stage l.ix).sr f.a = 0) ∧
    (∃ (s : State) (l : Loc) (f : Fields), s.issues l 0xE0 f { stages := St.all, sa := .s, imm := 0x3FFF } ∧
      (4 ≤ (s.stage l.ix).loops.length ∨ f.i ≤ (s.stage l.ix).pc ∨ (s.stage l.ix).codeWords ≤ f.i)) ∧
    (∃ (s : State) (l : Loc) (f : Fields), s.issues l 0xE1 f { stages := St.all, sa := .br, imm := 0xFFFFFF } ∧
      f.i < 2 ^ 14 ∧ f.i < (s.stage l.ix).codeWords ∧ (s.stage l.ix).pr (f.a % 8) = true ∧ f.a / 8 % 2 = 0) ∧
    (∃ (s : State) (l : Loc) (f : Fields), s.issues l 0xE1 f { stages := St.all, sa := .br, imm := 0xFFFFFF } ∧
      f.i < 2 ^ 14 ∧ f.i < (s.stage l.ix).codeWords ∧ (s.stage l.ix).pr (f.a % 8) = true ∧ f.a / 8 % 2 = 1) ∧
    (∃ (s : State) (l : Loc) (f : Fields), s.issues l 0xE2 f { stages := St.all, imm := 0xF00FF } ∧
      ((s.strand (strandIx l.d l.s)).bars.get (fun _ => ⟨0, 0⟩) (f.imf 19 16)).arrived = 0) ∧
    (∃ (s : State) (l : Loc) (f : Fields) (b : BarSt), s.issues l 0xE2 f { stages := St.all, imm := 0xF00FF } ∧
      b = (s.strand (strandIx l.d l.s)).bars.get (fun _ => ⟨0, 0⟩) (f.imf 19 16) ∧ b.arrived ≠ 0) ∧
    (∃ (s : State) (t : State) (l : Loc) (f : Fields), s.issues l 0xE3 f { stages := St.all, imm := 0xFF } ∧
      t = (s.setStage l.ix { s.stage l.ix with wait := .barw f.i, fillerOut := false }).barwArrive (s.ctxOf l) f.i) ∧
    (∃ (s : State) (l : Loc) (f : Fields), s.issues l 0xE4 f { stages := St.all, imm := 3 }) ∧
    (∃ (s : State) (l : Loc) (f : Fields), s.issues l 0xE5 f { stages := St.all, imm := 3 } ∧ f.i / 2 = 1) ∧
    (∃ (s : State) (l : Loc) (f : Fields), s.issues l 0xE8 f { stages := St.all }) :=
  ⟨⟨gs ⟨0, 0, 3⟩ { stg 0xE0 (fi 3) with s := [(0, 2)] }, ⟨0, 0, 3⟩, (fi 3), ⟨by decide, by decide, by decide,
    by decide⟩, by decide, by decide, by decide, (by intro r rs h; exact nomatch h), by decide⟩,
   ⟨gs ⟨0, 0, 3⟩ { stg 0xE0 (fi 3) with pc := 0 }, ⟨0, 0, 3⟩, (fi 3), ⟨by decide, by decide, by decide, by decide⟩,
     by decide, by decide, by decide, (by intro r rs h; exact nomatch h), by decide⟩,
   ⟨gs ⟨0, 0, 3⟩ { stg 0xE0 (fi 0) with pc := 0 }, ⟨0, 0, 3⟩, (fi 0), ⟨by decide, by decide, by decide, by decide⟩,
     by decide⟩,
   ⟨gs ⟨0, 0, 3⟩ { stg 0xE1 (fi 3) with pc := 0 }, ⟨0, 0, 3⟩, (fi 3), ⟨by decide, by decide, by decide, by decide⟩,
     by decide⟩,
   ⟨gs ⟨0, 0, 3⟩ { stg 0xE1 ⟨0, 8, 0, 0, 0, 3⟩ with pc := 0 }, ⟨0, 0, 3⟩, ⟨0, 8, 0, 0, 0, 3⟩, ⟨by decide, by decide,
     by decide, by decide⟩, by decide⟩,
   ⟨gs ⟨0, 0, 3⟩ { stg 0xE2 (fi 0) with pc := 0 }, ⟨0, 0, 3⟩, (fi 0), ⟨by decide, by decide, by decide, by decide⟩,
     by decide⟩,
   ⟨{ gs ⟨0, 0, 3⟩ { stg 0xE2 (fi 0) with pc := 0 } with strands := [(0, { Strand.zero with bars := [(0, ⟨1, 1⟩)] })] },
     ⟨0, 0, 3⟩, (fi 0), _, ⟨by decide, by decide, by decide, by decide⟩, rfl, by decide⟩,
   ⟨gs ⟨0, 0, 3⟩ { stg 0xE3 (fi 0) with pc := 0 }, _, ⟨0, 0, 3⟩, (fi 0), ⟨by decide, by decide, by decide,
     by decide⟩, rfl⟩,
   ⟨gs ⟨0, 0, 3⟩ { stg 0xE4 (fi 0) with pc := 0 }, ⟨0, 0, 3⟩, (fi 0), ⟨by decide, by decide, by decide, by decide⟩⟩,
   ⟨gs ⟨0, 0, 3⟩ { stg 0xE5 (fi 2) with pc := 0 }, ⟨0, 0, 3⟩, (fi 2), ⟨by decide, by decide, by decide, by decide⟩,
     by decide⟩,
   ⟨gs ⟨0, 0, 3⟩ { stg 0xE8 (fi 0) with pc := 0 }, ⟨0, 0, 3⟩, (fi 0), ⟨by decide, by decide, by decide, by decide⟩⟩⟩

/-- States and operands that meet the hypotheses of each clause of Obligations.StageFaults. -/
theorem witness_StageFaults :
    (∃ (s : State) (l : Loc) (f : Fields), s.issues l 0xE6 f { stages := St.all, imm := 0xFF } ∧ f.i ≠ 0 ∧
      listedCode f.i = true) ∧
    (∃ (s : State) (l : Loc) (f : Fields), s.issues l 0xE6 f { stages := St.all, imm := 0xFF } ∧
      (f.i = 0 ∨ listedCode f.i = false)) ∧
    (∃ (s : State) (l : Loc) (x : FaultInfo) (h : Nat), (s.stage l.ix).handlerFor x = some h) ∧
    (∃ (s : State) (l : Loc) (x : FaultInfo), (s.stage l.ix).handlerFor x = none ∧ x.code ≠ Code.keyRevoked ∧
      x.code ≠ Code.integrityFail ∧ x.code ≠ Code.thermalHalt) ∧
    (∃ (s : State) (l : Loc) (f : Fields), s.issues l 0xE1 f { stages := St.all, sa := .br, imm := 0xFFFFFF } ∧
      (f.i = 0xFFFFFF ∨ f.i = 0xFFFFFE) ∧ (s.stage l.ix).handler = true ∧ (s.stage l.ix).taken f = true) ∧
    (∃ (s : State) (l : Loc) (f : Fields), s.issues l 0xE7 f { stages := St.all } ∧ (s.stage l.ix).handler = false) ∧
    (∃ (s : State) (l : Loc) (f : Fields), s.issues l 0xE7 f { stages := St.all } ∧ (s.stage l.ix).handler = true) :=
  ⟨⟨gs ⟨0, 0, 3⟩ { stg 0xE6 (fi 0x13) with pc := 0 }, ⟨0, 0, 3⟩, (fi 0x13), ⟨by decide, by decide, by decide,
    by decide⟩, by decide, by decide⟩,
   ⟨gs ⟨0, 0, 3⟩ { stg 0xE6 (fi 0) with pc := 0 }, ⟨0, 0, 3⟩, (fi 0), ⟨by decide, by decide, by decide, by decide⟩,
     by decide⟩,
   ⟨{ State.reset with stages := [(3, { Stage.zero with codeWords := 8, fvec := [(0x16, 5)] })] }, ⟨0, 0, 3⟩,
     (.mem Code.eccUncorrectable 0), 5, by decide⟩,
   ⟨State.reset, ⟨0, 0, 3⟩, (.mem Code.accessBounds 0), by decide⟩,
   ⟨gs ⟨0, 0, 3⟩ { stg 0xE1 (fi 0xFFFFFF) with handler := true }, ⟨0, 0, 3⟩, (fi 0xFFFFFF), ⟨by decide, by decide,
     by decide, by decide⟩, by decide⟩,
   ⟨gs ⟨0, 0, 3⟩ { stg 0xE7 (fi 0) with pc := 0 }, ⟨0, 0, 3⟩, (fi 0), ⟨by decide, by decide, by decide, by decide⟩,
     by decide⟩,
   ⟨gs ⟨0, 0, 3⟩ { stg 0xE7 (fi 0) with handler := true }, ⟨0, 0, 3⟩, (fi 0), ⟨by decide, by decide, by decide,
     by decide⟩, by decide⟩⟩

/-- States and operands that meet the hypotheses of each clause of Obligations.InstructionWords. -/
theorem witness_InstructionWords :
    ∃ (f : Fields) (g : Fields) (opc : Nat), opc < 256 ∧ f.word opc = g.word opc :=
  ⟨fi 0, fi 0, 255, by decide, rfl⟩

/-- States and operands that meet the hypotheses of each clause of Obligations.SlotTables. -/
theorem witness_SlotTables :
    (∃ (s : State) (c : Fin 16), s.ctxLive c.val = true ∧ s.ctxRuns c.val = false ∧
      s.psetOk c.val s.psStaged = true ∧ s.logFits c.val 112 = true) ∧
    (∃ (s : State) (c : Fin 16), s.ctxLive c.val = true ∧ s.ctxRuns c.val = false ∧
      s.psetOk c.val s.psStaged = false) ∧
    (∃ (s : State) (c : Fin 16), s.ctxLive c.val = true) ∧
    (∃ (s : State) (c : Fin 16), s.ctxLive c.val = true ∧ s.ctxRuns c.val = false ∧ s.logFits c.val 112 = true) ∧
    (∃ (s : State) (c : Fin 16), s.ctxLive c.val = false) ∧
    (∃ (s : State) (d : Fin 4) (i : Fin 4) (j : Fin 4) (v : Word), s.linksClean = true ∧
      s.pdOn (pdStrand d.val i.val) = true ∧ ((s.fld (Reg.shtCtl d.val i.val j.val) 31 30 = 0 ∧
      bits v 31 30 = 1) ∨ (s.fld (Reg.shtCtl d.val i.val j.val) 31 30 = 1 ∧
      bits v 31 30 = 2) ∨ (s.fld (Reg.shtCtl d.val i.val j.val) 31 30 = 3 ∧ bits v 31 30 = 0))) ∧
    (∃ (s : State) (d : Fin 4) (i : Fin 4) (j : Fin 4), s.linksClean = true ∧ s.pdOn (pdStrand d.val i.val) = true ∧
      s.fld (Reg.shtCtl d.val i.val j.val) 31 30 = 2) ∧
    (∃ (s : State) (d : Fin 4) (i : Fin 4), s.linksClean = true ∧ s.pdOn (pdStrand d.val i.val) = true) ∧
    (∃ (s : State) (d : Fin 4) (i : Fin 4), s.linksClean = true ∧ s.pdOn (pdStrand d.val i.val) = true) :=
  ⟨⟨st [(Reg.ctxStat 0, 0x20000000), (Reg.psData 0, 0x10A02), (Reg.psData 1, 0x2000801), (Reg.psData 4, 0xFFFFFF34),
    (Reg.psData 5, 0xFFFFFFFF), (Reg.psData 6, 0xFFFFFFFF), (Reg.psData 7, 0xFFFFFFFF), (Reg.psData 8, 0xFFFFFFFF),
    (Reg.psData 9, 0xFFFFFFFF), (Reg.psData 10, 0xFFFFFFFF), (Reg.psData 11, 0xFFFFFFFF), (Reg.psData 12,
    0xFFFFFFFF), (Reg.psData 13, 0xFFFFFFFF), (Reg.psData 14, 0xFFFFFFFF), (Reg.psData 15, 0xFFFFFFFF),
    (Reg.psData 16, 0xFFFFFFFF), (Reg.psData 17, 0xFFFFFFFF), (Reg.psData 18, 0xFFFFFFFF), (Reg.psData 19,
    0xFFFFFFFF)], 0, by decide +kernel⟩,
   ⟨st [(Reg.ctxStat 0, 0x20000000)], 0, by decide +kernel⟩,
   ⟨st [(Reg.ctxStat 0, 0x20000000)], 0, by decide⟩,
   ⟨st [(Reg.ctxStat 0, 0x20000000)], 0, by decide +kernel⟩,
   ⟨State.reset, 0, by decide⟩,
   ⟨st [(Reg.pdStat (pdStrand 0 0), 0)], 0, 0, 0, 0x40000000, by decide⟩,
   ⟨st [(Reg.pdStat (pdStrand 0 0), 0), (Reg.shtCtl 0 0 0, 0x80000000)], 0, 0, 0, by decide⟩,
   ⟨st [(Reg.pdStat (pdStrand 0 0), 0)], 0, 0, by decide, by decide⟩,
   ⟨st [(Reg.pdStat (pdStrand 0 0), 0)], 0, 0, by decide, by decide⟩⟩

/-- States and operands that meet the hypotheses of each clause of Obligations.RoundRequests. -/
theorem witness_RoundRequests :
    (∃ (s : State) (t : State) (p : PmpReq) (b : Bytes) (cs : List (List QWord)), s.accepts p 0x0300 true ∧
      s.ctxLive p.c = true ∧ s.roundBad p.c b cs = false ∧ s.roundOpen p.c = false ∧ s.logFits p.c 112 = true ∧
      s.entRunning = true ∧ t = s.accepted p 0x0300) ∧
    (∃ (s : State) (p : PmpReq), s.accepts p 0x0300 true ∧ s.ctxLive p.c = false) ∧
    (∃ (s : State) (p : PmpReq) (b : Bytes) (cs : List (List QWord)), s.accepts p 0x0300 true ∧
      s.ctxLive p.c = true ∧ s.roundBad p.c b cs = true) ∧
    (∃ (s : State) (p : PmpReq) (b : Bytes) (cs : List (List QWord)), s.accepts p 0x0300 true ∧
      s.ctxLive p.c = true ∧ s.roundBad p.c b cs = false ∧ s.roundOpen p.c = true) ∧
    (∃ (s : State) (c : Nat) (b : Bytes) (cs : List (List QWord)), s.roundBad c b cs = false) ∧
    (∃ (s : State) (p : PmpReq) (r : Round), s.accepts p 0x0301 true ∧ s.round p.c = some r) ∧
    (∃ (s : State) (t : State) (p : PmpReq) (r : Round), s.accepts p 0x0302 true ∧ s.round p.c = some r ∧
      r.state = .readyCommit ∧ (s.ctx p.c).model = none ∧
      t = (s.accepted p 0x0302).setRound p.c { s.takeDone r with posted := [] }) ∧
    (∃ (s : State) (p : PmpReq) (r : Round), s.accepts p 0x0302 true ∧ s.round p.c = some r ∧
      r.state ≠ .readyCommit ∧ r.state ≠ .aborted) ∧
    (∃ (s : State) (p : PmpReq) (r : Round), s.accepts p 0x0303 true ∧ s.round p.c = some r ∧
      s.roundOpen p.c = true) ∧
    (∃ (s : State) (p : PmpReq) (r : Round), s.accepts p 0x0303 true ∧ s.round p.c = some r ∧ r.state = .committed) :=
  ⟨⟨{ st [(Reg.ctxStat 0, 0x20000000), (Reg.entStat, 0x20000000)] with mgmt := port }, _, req, rd 0 1 0 0, coh,
    (by unfold State.accepts; decide), by decide, (by decide +kernel), by decide, (by decide +kernel), by decide,
    rfl⟩,
   ⟨{ State.reset with mgmt := port }, req, (by unfold State.accepts; decide), by decide⟩,
   ⟨{ st [(Reg.ctxStat 0, 0x20000000), (Reg.entStat, 0x20000000)] with mgmt := port }, req, rd 0 1 0 0, [],
     (by unfold State.accepts; decide), by decide, (by decide +kernel)⟩,
   ⟨{ rs (rnd (rd 0 1 0 0) .input) with mgmt := port }, req, rd 0 1 0 0 |>.set 0 8, coh,
     (by unfold State.accepts; decide), by decide +kernel⟩,
   ⟨{ st [(Reg.ctxStat 0, 0x20000000), (Reg.entStat, 0x20000000)] with mgmt := port }, 0, rd 0 1 0 0, coh,
     by decide +kernel⟩,
   ⟨{ rs (rnd (rd 0 1 0 0) .input) with mgmt := port }, req, _, (by unfold State.accepts; decide), rfl⟩,
   ⟨{ rs (rnd (rd 0 1 0 0) .readyCommit) with mgmt := port }, _, req, _, (by unfold State.accepts; decide), rfl,
     by decide, by decide, rfl⟩,
   ⟨{ rs (rnd (rd 0 1 0 0) .input) with mgmt := port }, req, _, (by unfold State.accepts; decide), rfl, by decide,
     by decide⟩,
   ⟨{ rs (rnd (rd 0 1 0 0) .input) with mgmt := port }, req, _, (by unfold State.accepts; decide), rfl, by decide⟩,
   ⟨{ rs (rnd (rd 0 1 0 0) .committed) with mgmt := port }, req, _, (by unfold State.accepts; decide), rfl,
     by decide⟩⟩

/-- States and operands that meet the hypotheses of each clause of Obligations.RoundCourse. -/
theorem witness_RoundCourse :
    (∃ (s : State) (t : State) (c : Nat) (b : Bytes) (cs : List (List QWord)), c < 16 ∧ s.linksClean = true ∧
      t = s.startRound c b cs) ∧
    (∃ (s : State) (t : State) (c : Nat) (r : Round) (st : RState), c < 16 ∧ s.linksClean = true ∧
      s.round c = some r ∧ t = s.endRound c st) ∧
    (∃ (s : State) (c : Nat) (r : Round), c < 16 ∧ s.linksClean = true ∧ s.round c = some r) ∧
    (∃ (s : State) (c : Nat) (r : Round) (st : RState), st ≠ .screen ∧ st ≠ .expand ∧ st ≠ .seal ∧ st ≠ .fold ∧
      c < 16 ∧ s.linksClean = true ∧ s.round c = some r) ∧
    (∃ (s : State) (t : State) (c : Fin 16) (r : Round) (n : RoundNews), s.round c.val = some r ∧
      s.isCoord r.desc = true ∧ r.state = .opening ∧ s.entRunning = true ∧ s.mapsClear c.val = true ∧
      t = s.setRound c.val (s.learn r n) ∧ s.hub.reset = none) ∧
    (∃ (s : State) (t : State) (c : Fin 16) (r : Round) (q : Round) (n : RoundNews), s.round c.val = some r ∧
      s.isCoord r.desc = true ∧ r.state = .expand ∧ s.roundPaused r = false ∧ q = s.learn r n ∧
      t = s.setRound c.val q ∧ s.hub.reset = none) ∧
    (∃ (s : State) (t : State) (c : Fin 16) (r : Round) (q : Round) (n : RoundNews), s.round c.val = some r ∧
      s.isCoord r.desc = true ∧ r.state = .seal ∧ s.roundPaused r = false ∧ q = s.learn r n ∧
      t = s.setRound c.val q ∧ r.redo = [] ∧ t.unposted q true = [] ∧
      (s.ctx c.val).zeros.length < s.zerosNeeded c.val r - r.bound ∧ s.hub.reset = none) ∧
    (∃ (s : State) (t : State) (c : Fin 16) (r : Round) (q : Round) (n : RoundNews), s.round c.val = some r ∧
      s.isCoord r.desc = true ∧ r.state = .seal ∧ s.roundPaused r = false ∧ q = s.learn r n ∧
      t = s.setRound c.val q ∧ r.redo = [] ∧ t.unposted q true = [] ∧ s.zerosNeeded c.val r ≤ r.bound ∧
      s.hub.reset = none) ∧
    (∃ (s : State) (c : Nat) (r : Round), s.round c = some r ∧ r.state ≠ .input) ∧
    (∃ (s : State) (c : Nat) (r : Round), rdScreen r.desc = false ∧ s.logFits c 112 = true ∧ s.entPort ≠ .stall) ∧
    (∃ (s : State) (r : Round) (n : RoundNews), s.isCoord r.desc = false ∧ n.graphSeed ≠ none) ∧
    (∃ (s : State) (c : Fin 16) (r : Round), s.round c.val = some r ∧ s.isCoord r.desc = true ∧ r.state = .opening ∧
      s.entRunning = true ∧ s.hub.reset = none) ∧
    (∃ (s : State) (c : Fin 16) (r : Round), s.round c.val = some r ∧ s.isCoord r.desc = true ∧
      s.roundPaused r = false ∧ s.hub.reset = none ∧
      (r.state = .advertise ∨ r.state = .share ∨ r.state = .screen ∨ r.state = .collect)) ∧
    (∃ (s : State) (c : Fin 16) (r : Round), s.round c.val = some r ∧ s.isCoord r.desc = true ∧
      s.roundPaused r = false ∧ s.hub.reset = none ∧ r.state = .input ∧ r.closing = false) ∧
    (∃ (s : State) (d : Fin 4) (i : Fin 4) (j : Fin 4), s.fld (Reg.shtCtl d.val i.val j.val) 31 30 = 2 ∧
      s.fld (Reg.shtFlight d.val i.val j.val) 7 0 = 0) ∧
    (∃ (s : State) (st : Byte) (id : Word), s.phases.contains (id, st) = true ∧ s.hub.reset = none) ∧
    (∃ (s : State) (c : Fin 16) (st : Byte) (id : Word) (r : Round), s.phases.contains (id, st) = false ∧ st = 12 ∧
      s.round c.val = some r ∧ s.roundOpen c.val = true ∧ rdId r.desc = id ∧ rdGroup r.desc = true ∧
      s.isCoord r.desc = false ∧ s.hub.reset = none) ∧
    (∃ (s : State) (c : Fin 16) (r : Round), s.round c.val = some r ∧ r.phaseSends ≠ 0 ∧ s.hub.reset = none) ∧
    (∃ (s : State) (c : Fin 16) (r : Round) (sh : BitVec 24), s.round c.val = some r ∧ r.state = .update ∧
      (s.updates r).any (fun j => decide (rdShard r.desc j = sh.toNat)) = true ∧ s.hub.reset = none) :=
  ⟨⟨State.reset, _, 0, [], [], by decide, by decide, rfl⟩,
   ⟨rs (rnd (rd 0 1 0 0) .input), _, 0, _, .aborted, by decide, by decide, rfl, rfl⟩,
   ⟨rs (rnd (rd 0 1 0 0) .input), 0, _, by decide, by decide, rfl⟩,
   ⟨rs (rnd (rd 0 1 0 0) .input), 0, _, .collect, by decide, by decide, by decide, by decide, by decide, by decide,
     rfl⟩,
   ⟨rs (rnd (rd 0 1 0 0) .opening), _, 0, _, ⟨none, [], []⟩, rfl, by decide, by decide, by decide,
     (by decide +kernel), rfl, by decide⟩,
   ⟨rs (rnd (rd 0 1 0 0) .expand), _, 0, _, _, ⟨none, [], []⟩, rfl, by decide, by decide, by decide, rfl, rfl,
     by decide⟩,
   ⟨rs { rnd (rd 0 1 0 0) .seal with posted := [(0, 0)] }, _, 0, _, _, ⟨none, [], []⟩, rfl, by decide, by decide,
     by decide, rfl, rfl, by decide +kernel⟩,
   ⟨rs { rnd (rd 0 2 0 0) .seal with posted := [(0, 0)] }, _, 0, _, _, ⟨none, [], []⟩, rfl, by decide, by decide,
     by decide, rfl, rfl, by decide +kernel⟩,
   ⟨rs (rnd (rd 0 1 0 0) .opening), 0, _, rfl, by decide⟩,
   ⟨st [(Reg.entStat, 0x20000000)], 0, rnd (rd 0 1 0 0) .opening, by decide⟩,
   ⟨State.reset, rnd (rd 0 1 1 0) .opening, ⟨some [], [], []⟩, by decide, by decide⟩,
   ⟨rs (rnd (rd 0 1 0 0) .opening), 0, _, rfl, by decide⟩,
   ⟨rs (rnd (rd 0 1 0 0) .share), 0, _, rfl, by decide⟩,
   ⟨rs (rnd (rd 0 1 0 0) .input), 0, _, rfl, by decide⟩,
   ⟨st [(Reg.shtCtl 0 0 0, 0x80000000)], 0, 0, 0, by decide, by decide⟩,
   ⟨{ State.reset with phases := [(7, 3)] }, 3, 7, by decide, by decide⟩,
   ⟨rs (rnd (rd 4 1 1 0) .input), 0, 12, 7, _, by decide, by decide, rfl, by decide⟩,
   ⟨rs { rnd (rd 0 1 0 0) .input with phaseSends := 1 }, 0, _, rfl, by decide, by decide⟩,
   ⟨rs (rnd (rd 0 2 0 0) .update), 0, _, 5, rfl, by decide⟩⟩

/-- States and operands that meet the hypotheses of each clause of Obligations.RoundLossAndSurvivors. -/
theorem witness_RoundLossAndSurvivors :
    (∃ (s : State) (c : Fin 16) (sh : BitVec 24) (r : Round) (j : Nat), s.round c.val = some r ∧
      (List.range (rdN r.desc)).find? (fun k => decide (rdShard r.desc k = sh.toNat)) = some j ∧
      s.roundOpen c.val = true ∧ rdGroup r.desc = true ∧ s.hub.reset = none) ∧
    (∃ (r : Round) (j : Nat) (u : Nat), r.isFailed j = false ∧ u < rdCohort r.desc j ∧ rdCohort r.desc j ≤ 2 ^ 20) ∧
    (∃ (s : State) (c : Fin 16) (x : EpochEnd) (r : Round), s.round c.val = some r ∧ r.state = .fold ∧
      rdGroup r.desc = true ∧ s.isCoord r.desc = false ∧ x.late ≠ [] ∧ s.hub.reset = none) ∧
    (∃ (s : State) (c : Fin 16) (tag : BitVec 16) (r : Round), s.round c.val = some r ∧ r.state = .fold ∧
      rdGroup r.desc = true ∧ rdRoot r.desc = s.ownId ∧ s.isCoord r.desc = false ∧
      fseExpired (s.fse tag.toNat) = true ∧ s.hub.reset = none) ∧
    (∃ (s : State) (c : Fin 16) (x : EpochEnd) (r : Round) (hs : List (BitVec 14)), s.round c.val = some r ∧
      r.state = .fold ∧ rdGroup r.desc = true ∧ s.isCoord r.desc = true ∧ (rdRoot r.desc = s.ownId ∧
      fseExpired (s.fse x.tag.toNat) = true ∧ hs = s.lateHosts c.val r ∨ rdRoot r.desc ≠ s.ownId ∧ x.late ≠ [] ∧
      hs = x.late) ∧ s.hub.reset = none) ∧
    (∃ (s : State) (c : Fin 16) (sh : BitVec 24) (r : Round) (j : Nat), s.round c.val = some r ∧
      s.shardIx r.desc sh.toNat = some j ∧ r.state = .collect ∧ (r.client j 0).cls = .unclassified ∧
      s.hub.reset = none) ∧
    (∃ (r : Round) (x : Client), x.dropped = false ∧ rdScreen r.desc = false) ∧
    (∃ (x : Client), x.dropped = true) ∧
    (∃ (s : State) (c : Fin 16) (r : Round), s.round c.val = some r ∧ rdScreen r.desc = true ∧
      s.roundOpen c.val = true ∧ 3 ≤ rstateCode r.state ∧ s.hub.reset = none) ∧
    (∃ (s : State) (c : Fin 16) (r : Round), s.round c.val = some r ∧ rdScreen r.desc = true ∧
      s.roundOpen c.val = true ∧ 3 ≤ rstateCode r.state ∧ (∀ j u,
      j ∈ s.ownShards r.desc → u < rdCohort r.desc j → (s.failStopped c.val).sketchWhole c.val r j u = false) ∧
      s.hub.reset = none) ∧
    (∃ (s : State) (c : Nat) (g : Nat) (p : Nat) (r : Round) (e : Nat × Nat), s.round c = some r ∧
      s.cStrands c = [e] ∧ g = s.listedOn c (cNum e) / s.packN c ∧ p = s.listedOn c (cNum e) % s.packN c) ∧
    (∃ (s : State) (c : Nat), (∀ e, e ∈ s.cStrands c → s.sst e.1 e.2 ≠ SS.faulted)) ∧
    (∃ (s : State) (c : Nat) (g : Nat) (e : Nat × Nat), s.cStrands c = [e] ∧ s.sst e.1 e.2 = SS.faulted ∧
      (List.range ((s.listedOn c (cNum e) + s.packN c - 1) / s.packN c)).find? (fun k => !s.groupPosted c (cNum e) k) = some g) :=
  ⟨⟨rs (rnd (rd 4 1 0 0) .input), 0, 5, _, 0, rfl, by decide +kernel⟩,
   ⟨rnd (rd 0 1 0 0) .collect, 0, 1, by decide⟩,
   ⟨rs (rnd (rd 4 1 1 0) .fold), 0, ⟨0, [1]⟩, _, rfl, by decide⟩,
   ⟨{ rs (rnd (rd 4 1 1 0) .fold) with fst := [(0, BitVec.ofNat 128 32)] }, 0, 0, _, rfl, by decide +kernel⟩,
   ⟨{ rs (rnd (rd 4 1 0 0) .fold) with fst := [(0, BitVec.ofNat 128 32)] }, 0, ⟨0, []⟩, _, _, rfl, by decide,
     by decide, by decide, .inl ⟨by decide, by decide +kernel, rfl⟩, by decide⟩,
   ⟨rs (rnd (rd 0 1 0 0) .collect), 0, 5, _, 0, rfl, by decide +kernel⟩,
   ⟨rnd (rd 0 1 0 0) .collect, Client.zero, by decide, by decide⟩,
   ⟨{ Client.zero with dropped := true }, by decide⟩,
   ⟨rs (rnd (rd 1 1 0 0) .input), 0, _, rfl, by decide⟩,
   ⟨rs (rnd (rd 1 1 0 0) .input), 0, _, rfl, by decide, by decide, by decide, fun _ _ _ _ => rfl, by decide⟩,
   ⟨(rs (rnd (rd 1 1 0 0) .screen)).setReg (Reg.strandStat 0 4) 0x40000000, 0, _, _, _, (0, 4), rfl,
     (by decide +kernel), rfl, rfl⟩,
   ⟨State.reset, 0, (by decide +kernel)⟩,
   ⟨{ st [(Reg.strandStat 0 4, 0xA0000000)] with ctxs := [(0, { CtxSt.zero with work := [(0, 1)] })] }, 0, 0, (0, 4),
     by decide +kernel⟩⟩

/-- States and operands that meet the hypotheses of each clause of Obligations.SharesAndSecrets. -/
theorem witness_SharesAndSecrets :
    (∃ (s : State) (t : State) (l : Fin 4) (m : SetupMsg) (ms : List SetupMsg) (i : Nat) (cmd : Instr) (sub : Byte) (ph : RState) (act : Nat → Round → Nat → Nat → Aip → State → State),
      (cmd, sub, ph, act) ∈ [(Instr.shareAdvertise l, (1 : Byte), RState.advertise, advertiseAct), (.shareShares l,
      2, .share, sharesAct), (.shareReveal l, 5, .collect, revealAct)] ∧ (s.estLd l.val).setup = m :: ms ∧
      s.hub.reset = none ∧ m.msg.typ = 3 ∧ m.msg.subtype = sub ∧ m.session = some i ∧ (sub = 2 → s.hbmWait = none) ∧
      t = s.setupRest l.val ms) ∧
    (∃ (s : State) (t : State), s.hbmWait = some t) ∧
    (∃ (r : Round) (j : Nat) (u : Nat) (m : Aip), m.payload.length = 248 ∧ (r.client j u).adv = none) ∧
    (∃ (r : Round) (j : Nat) (u : Nat) (m : Aip), (m.payload.length ≠ 248 ∨ (r.client j u).adv ≠ none)) ∧
    (∃ (s : State) (i : Nat) (m : Aip), m.seq ∈ (s.session i).seen) ∧
    (∃ (s : State) (c : Fin 16) (sh : BitVec 24) (u : Nat) (pw : Bool) (r : Round) (j : Nat) (a : Bytes × Bytes × Bytes),
      s.round c.val = some r ∧ s.shardIx r.desc sh.toNat = some j ∧ (r.client j u).adv = some a ∧
      r.state = .collect ∧ u < rdCohort r.desc j ∧ (if pw then r.needS j u else r.needB j u) = true ∧
      rdT r.desc ≤ ((r.client j u).revealed.filter (fun e => decide (e.1 = pw))).length ∧ s.hub.reset = none) ∧
    (∃ (s : State) (c : Fin 16) (sh : BitVec 24) (v : Nat) (u : Nat) (r : Round) (j : Nat) (sv : Bytes) (a : Bytes × Bytes × Bytes),
      s.round c.val = some r ∧ s.shardIx r.desc sh.toNat = some j ∧ (r.client j v).secretS = some sv ∧
      (r.client j u).adv = some a ∧ (r.near j v).contains u = true ∧ (r.client j u).inSum = true ∧
      ((r.client j v).cls = .absent ∨ (r.client j v).cls = .partly) ∧ s.hub.reset = none) :=
  ⟨⟨setupWith (dg 3 1 248) (some 0) { rs (rnd (rd 0 1 0 0) .advertise) with sess := [(0, ses 2)] }, _, 0, _, _, 0,
    .shareAdvertise 0, 1, .advertise, advertiseAct, (by simp), rfl, by decide, by decide, by decide, by decide,
    by decide, rfl⟩,
   ⟨st [(Reg.pdStat 63, 0x20000000)], _, rfl⟩,
   ⟨rnd [] .advertise, 0, 0, dg 3 1 248, List.length_replicate, by decide⟩,
   ⟨rnd [] .advertise, 0, 0, dg 3 1 0, by decide⟩,
   ⟨{ State.reset with sess := [(0, { ses 2 with seen := [3] })] }, 0, dg 3 1 0, (by decide)⟩,
   ⟨rs { rnd (rd 0 1 0 0) .collect with clients := [(0, { Client.zero with adv := some ([], [], []), cls := .complete, revealed := List.replicate 32 (false, 1, []) })] },
     0, 5, 0, false, _, 0, _, rfl, (by decide +kernel), rfl, by decide +kernel⟩,
   ⟨rs { rnd ((rd 0 1 0 0).set 0x88 2) .collect with clients := [(0, { Client.zero with secretS := some [], cls := .absent }), (1, { Client.zero with adv := some ([], [], []), cls := .complete })] },
     0, 5, 0, 1, _, 0, _, _, rfl, (by decide +kernel), rfl, rfl, by decide +kernel⟩⟩

/-- States and operands that meet the hypotheses of each clause of Obligations.FrameReceive. -/
theorem witness_FrameReceive :
    (∃ (s : State) (f : EthFrame), s.ethUp f.lane.val = false) ∧
    (∃ (s : State) (t : State) (f : EthFrame) (o : Nat), s.ethUp f.lane.val = true ∧ t = s.frameIn f ∧
      t.frameRefused f = some o) ∧
    (∃ (s : State) (t : State) (f : EthFrame), s.ethUp f.lane.val = true ∧ t = s.frameIn f ∧
      t.frameRefused f = none ∧ t.answersAsk f = true) ∧
    (∃ (s : State) (t : State) (f : EthFrame) (l : Nat) (e : Nat) (q : Nat) (r : SessRec),
      s.ethUp f.lane.val = true ∧ t = s.frameIn f ∧ t.frameGoesOn f ∧ l = f.lane.val / 16 ∧ f.aip.toStrand = true ∧
      t.cacheHit l f.aip.sid = some (e, r) ∧ t.missWaits l f.aip.sid = false ∧ t.sessionRefused l r f.aip = none ∧
      t.strandQueue l r.ctx.val f.aip = .inl q) ∧
    (∃ (s : State) (t : State) (f : EthFrame) (l : Nat) (e : Nat) (r : SessRec), s.ethUp f.lane.val = true ∧
      t = s.frameIn f ∧ t.frameGoesOn f ∧ l = f.lane.val / 16 ∧ lateCounter f = none ∧ f.aip.toStrand = false ∧
      f.aip.is 1 1 = false ∧ t.cacheHit l f.aip.sid = some (e, r) ∧ t.missWaits l f.aip.sid = false ∧
      t.sessionRefused l r f.aip = none ∧ t.setupFull l f.aip.length.toNat = false) ∧
    (∃ (s : State) (t : State) (f : EthFrame), s.ethUp f.lane.val = true ∧ t = s.frameIn f ∧ t.frameGoesOn f ∧
      lateCounter f = none ∧ f.aip.is 1 1 = true) ∧
    (∃ (s : State) (t : State) (f : EthFrame) (l : Nat) (x : EstLd), s.ethUp f.lane.val = true ∧ t = s.frameIn f ∧
      t.frameGoesOn f ∧ l = f.lane.val / 16 ∧ lateCounter f = none ∧ f.aip.is 1 1 = false ∧ x = t.estLd l ∧
      (t.cacheHit l f.aip.sid = none ∨ t.missWaits l f.aip.sid = true)) ∧
    (∃ (s : State) (t : State) (l : Nat) (q : Nat) (p : Pkt) (b : Bool), s.crossPorts (route (4 + l) (q / 4)) = (t,
      b) ∧ p.words ≤ s.queueFree q) ∧
    (∃ (s : State) (t : State) (l : Nat) (q : Nat) (p : Pkt) (b : Bool), s.crossPorts (route (4 + l) (q / 4)) = (t,
      b) ∧ s.queueFree q < p.words ∧ 0 < s.queueFree q ∧ (s.queue q).zeroing = false) ∧
    (∃ (s : State) (t : State) (l : Nat) (q : Nat) (p : Pkt) (b : Bool), s.crossPorts (route (4 + l) (q / 4)) = (t,
      b) ∧ 0 < p.words ∧ s.queueFree q = 0 ∧ (s.queue q).zeroing = false) ∧
    (∃ (s : State) (t : State) (l : Nat), s.crossPorts (route (4 + l) 8) = (t, true)) ∧
    (∃ (r : SessRec), r.st = 0) ∧
    (∃ (s : State) (l : Nat) (r : SessRec), r.epoch.toNat ≠ s.fld (Reg.estGate l r.ctx.val) 23 16) ∧
    (∃ (s : State) (l : Nat) (r : SessRec), r.st = 2 ∧ r.epoch.toNat = s.fld (Reg.estGate l r.ctx.val) 23 16 ∧
      s.fld (Reg.estGate l r.ctx.val) 31 31 = 0) ∧
    (∃ (s : State) (l : Nat) (r : SessRec) (m : Aip), r.st = 2 ∧
      r.epoch.toNat = s.fld (Reg.estGate l r.ctx.val) 23 16 ∧ s.fld (Reg.estGate l r.ctx.val) 31 31 = 1 ∧ m.typ = 5 ∧
      m.round ≠ s.reg (Reg.estRound l r.ctx.val)) ∧
    (∃ (s : State) (l : Nat) (r : SessRec) (m : Aip), m.typ = 5 ∧ s.sessionRefused l r m = none) ∧
    (∃ (s : State) (l : Nat) (r : SessRec) (m : Aip), m.typ = 4 ∧ s.sessionRefused l r m = none) :=
  ⟨⟨State.reset, frame (dg 4 0 0), by decide⟩,
   ⟨{ st [(Reg.laneCtl 0 0, 0x40000000), (Reg.laneStat 0 0, 0x40000000), (Reg.estCtl 0, 0x80000000), (Reg.estGate 0 0, 0x80000004), (Reg.estSteerSh 0 0, 0x80000005), (Reg.estRound 0 0, 7)] with boot := { Boot.zero with profile := some profE }, est := [(0, eld 2)] },
     _, { frame (dg 4 0 0) with fecOk := false }, 0x20, by decide, rfl, (by decide +kernel)⟩,
   ⟨{ st [(Reg.laneCtl 0 0, 0x40000000), (Reg.laneStat 0 0, 0x40000000), (Reg.estCtl 0, 0x80000000), (Reg.estGate 0 0, 0x80000004), (Reg.estSteerSh 0 0, 0x80000005), (Reg.estRound 0 0, 7)] with boot := { Boot.zero with profile := some profE }, est := [(0, eld 2)] },
     _, { frame (dg 4 0 0) with etherType := 0x0806, asks := some 0 }, by decide, rfl, (by decide +kernel),
     (by decide +kernel)⟩,
   ⟨{ st [(Reg.laneCtl 0 0, 0x40000000), (Reg.laneStat 0 0, 0x40000000), (Reg.estCtl 0, 0x80000000), (Reg.estGate 0 0, 0x80000004), (Reg.estSteerSh 0 0, 0x80000005), (Reg.estRound 0 0, 7)] with boot := { Boot.zero with profile := some profE }, est := [(0, eld 2)] },
     _, frame (dg 4 0 0), 0, 0, 0, srec 2, by decide, rfl, ⟨by decide +kernel, by decide +kernel, by decide +kernel,
     by decide +kernel⟩, by decide +kernel⟩,
   ⟨{ st [(Reg.laneCtl 0 0, 0x40000000), (Reg.laneStat 0 0, 0x40000000), (Reg.estCtl 0, 0x80000000), (Reg.estGate 0 0, 0x80000004), (Reg.estSteerSh 0 0, 0x80000005), (Reg.estRound 0 0, 7)] with boot := { Boot.zero with profile := some profE }, est := [(0, eld 2)] },
     _, frame (dg 8 1 8), 0, 0, srec 2, by decide, rfl, ⟨by decide +kernel, by decide +kernel, by decide +kernel,
     by decide +kernel⟩, by decide +kernel⟩,
   ⟨{ st [(Reg.laneCtl 0 0, 0x40000000), (Reg.laneStat 0 0, 0x40000000), (Reg.estCtl 0, 0x80000000), (Reg.estGate 0 0, 0x80000004), (Reg.estSteerSh 0 0, 0x80000005), (Reg.estRound 0 0, 7)] with boot := { Boot.zero with profile := some profE }, est := [(0, eld 2)] },
     _, frame { dg 1 1 1236 with sid := 0, round := 0 }, by decide, rfl, ⟨by decide +kernel, by decide +kernel,
     by decide +kernel, by decide +kernel⟩, (by decide +kernel), (by decide +kernel)⟩,
   ⟨{ st [(Reg.laneCtl 0 0, 0x40000000), (Reg.laneStat 0 0, 0x40000000), (Reg.estCtl 0, 0x80000000), (Reg.estGate 0 0, 0x80000004), (Reg.estSteerSh 0 0, 0x80000005), (Reg.estRound 0 0, 7)] with boot := { Boot.zero with profile := some profE }, est := [(0, EstLd.zero)] },
     _, frame (dg 4 0 0), 0, _, by decide, rfl, ⟨by decide +kernel, by decide +kernel, by decide +kernel,
     by decide +kernel⟩, (by decide +kernel), (by decide +kernel), (by decide +kernel), rfl, (by decide +kernel)⟩,
   ⟨{ State.reset with d2d := [(0x40, ⟨.uncorrectable, 0⟩)] }, _, 0, 3, ⟨0, 0, 0, 0, [], 1, false, 0⟩, _, rfl,
     by decide⟩,
   ⟨State.reset, _, 0, 15, ⟨0, 0, 0, 0, [], 9000, false, 0⟩, _, rfl, by decide⟩,
   ⟨{ State.reset with queues := [(15, { PktQ.zero with wr := some ⟨0, 0, 0, 0, [], 8192, false, 0⟩ })] }, _, 0, 15,
     ⟨0, 0, 0, 0, [], 4, false, 0⟩, _, rfl, by decide⟩,
   ⟨{ State.reset with d2d := [(0x48, ⟨.uncorrectable, 0⟩)] }, _, 0, rfl⟩,
   ⟨srec 0, by decide⟩,
   ⟨State.reset, 0, { srec 2 with epoch := 1 }, by decide⟩,
   ⟨State.reset, 0, srec 2, by decide⟩,
   ⟨st [(Reg.estGate 0 0, 0x80000005)], 0, srec 2, dg 5 0 0, by decide⟩,
   ⟨st [(Reg.estGate 0 0, 0x80000005), (Reg.estRound 0 0, 7)], 0, srec 2, dg 5 0 0, by decide, by decide⟩,
   ⟨st [(Reg.estGate 0 0, 0x80000004), (Reg.estRound 0 0, 7)], 0, srec 2, dg 4 0 0, by decide, by decide⟩⟩

/-- States and operands that meet the hypotheses of each clause of Obligations.SessionsAndGates. -/
theorem witness_SessionsAndGates :
    (∃ (s : State) (t : State) (l : Fin 4) (m : SetupMsg) (ms : List SetupMsg) (x : Fin 16),
      (s.estLd l.val).setup = m :: ms ∧ s.hub.reset = none ∧ m.msg.is 1 1 = true ∧ t = s.setupRest l.val ms ∧
      (m.msg.payload.length ≠ 1236 ∨ t.enrolled l.val x.val (helloClient m.msg) = none ∨ t.ingressOk = false)) ∧
    (∃ (s : State) (t : State) (l : Fin 4) (m : SetupMsg) (ms : List SetupMsg) (c : Nat) (psk : Bytes) (x : Fin 16),
      (s.estLd l.val).setup = m :: ms ∧ s.hub.reset = none ∧ m.msg.is 1 1 = true ∧ m.msg.payload.length = 1236 ∧
      t = s.setupRest l.val ms ∧ t.enrolled l.val x.val (helloClient m.msg) = some (c, psk) ∧ t.ingressOk = true) ∧
    (∃ (s : State) (l i : Nat), s.entPort = .served ∧ s.freeIndex l = some i) ∧
    (∃ (s : State) (l : Nat), s.entPort = .served ∧ s.freeIndex l = none) ∧
    (∃ (s : State), s.entPort = .refused) ∧
    (∃ (s : State) (t : State) (l : Fin 4) (m : SetupMsg) (ms : List SetupMsg) (i : Nat),
      (s.estLd l.val).setup = m :: ms ∧ s.hub.reset = none ∧ m.msg.is 1 2 = true ∧ m.session = some i ∧
      s.estStall l.val = false ∧ t = s.setupRest l.val ms) ∧
    (∃ (s : State) (i : Nat), (s.session i).st = 1) ∧
    (∃ (s : State) (l : Fin 4) (i : Fin 1048576), (s.session (l.val * 2 ^ 20 + i.val)).st = 1 ∧
      s.estStall l.val = false) ∧
    (∃ (s : State) (l : Fin 4) (i : Fin 1048576), (s.session (l.val * 2 ^ 20 + i.val)).hold = true) ∧
    (∃ (s : State) (l : Fin 4) (m : SetupMsg) (ms : List SetupMsg) (i : Nat), (s.estLd l.val).setup = m :: ms ∧
      s.hub.reset = none ∧ m.msg.is 8 1 = true ∧ m.session = some i) ∧
    (∃ (s : State) (l : Fin 4) (m : SetupMsg) (ms : List SetupMsg) (i : Nat), (s.estLd l.val).setup = m :: ms ∧
      s.hub.reset = none ∧ m.msg.is 8 2 = true ∧ m.session = some i) ∧
    (∃ (s : State) (t : State) (c : Nat) (l : Nat) (e : Nat) (r : SessRec), t = s.flushCaches c ∧
      l < s.part.ldCount ∧ t.cachedRec l e = some r ∧ r.ctx.val = c) ∧
    (∃ (s : State) (c : Nat), (∀ e,
      e ∈ s.sess → e.2.st ≠ 0 → e.2.ctx.val = c → s.fld (Reg.estGate (e.1 / 2 ^ 20) c) 31 31 = 1 ∧
      e.2.epoch.toNat = s.fld (Reg.estGate (e.1 / 2 ^ 20) c) 23 16)) ∧
    (∃ (s : State) (y : State) (z : State) (l : Fin 4) (n : Fin 256) (f : EthFrame),
      (s.estLd l.val).miss[n.val]? = some f ∧
      ((s.estLd l.val).miss.take n.val).any (fun g => decide (g.aip.sid = f.aip.sid)) = false ∧
      s.estStall l.val = false ∧
      z = s.setEstLd l.val { s.estLd l.val with miss := (s.estLd l.val).miss.eraseIdx n.val } ∧
      z.lookup l.val f.aip.sid = (y, none)) ∧
    (∃ (s : State) (y : State) (z : State) (l : Fin 4) (n : Fin 256) (f : EthFrame) (b : Nat) (k : Nat) (e : Nat),
      (s.estLd l.val).miss[n.val]? = some f ∧
      ((s.estLd l.val).miss.take n.val).any (fun g => decide (g.aip.sid = f.aip.sid)) = false ∧
      s.estStall l.val = false ∧
      z = s.setEstLd l.val { s.estLd l.val with miss := (s.estLd l.val).miss.eraseIdx n.val } ∧
      z.lookup l.val f.aip.sid = (y, some (b, k, e))) ∧
    (∃ (s : State) (l : Fin 4) (n : Fin 256) (f : EthFrame), (s.estLd l.val).miss[n.val]? = some f ∧
      ((s.estLd l.val).miss.take n.val).any (fun g => decide (g.aip.sid = f.aip.sid)) = true) ∧
    (∃ (s : State) (l : Nat) (c : Nat) (v : Word), l < 4 ∧ c < 16 ∧ bit v 31 = true ∧
      s.fld (Reg.estGate l c) 31 31 = 0) ∧
    (∃ (s : State) (a : Acc) (l : Nat) (c : Nat), s.accessCheck a true = none ∧ s.linksClean = true ∧
      l < s.part.ldCount ∧ s.pdState (pdLd l) = 0 ∧ a.addr = Reg.estGate l c ∧ c < 16) ∧
    (∃ (s : State) (l : Nat) (e : Nat) (r : SessRec), s.cachedRec l e = some r) ∧
    (∃ (s : State) (i : BitVec 22) (x : Fetched), i.toNat / 2 ^ 20 < s.part.ldCount ∧
      x = s.fetchRec (i.toNat / 2 ^ 20) (i.toNat % 2 ^ 20) ∧ x.stall = false ∧ x.code = Code.ok ∧ x.record.st = 2 ∧
      x.st.portRevoked x.record.ctx.val = false ∧ x.st.epochNow (i.toNat / 2 ^ 20) x.record = true ∧
      x.st.fld (Reg.estGate (i.toNat / 2 ^ 20) x.record.ctx.val) 31 31 = 1 ∧ x.record.keys ≠ none) ∧
    (∃ (s : State) (i : BitVec 22) (x : Fetched), i.toNat / 2 ^ 20 < s.part.ldCount ∧
      x = s.fetchRec (i.toNat / 2 ^ 20) (i.toNat % 2 ^ 20) ∧ x.stall = false ∧ x.code = Code.ok ∧
      (x.record.st = 0 ∨ x.st.portRevoked x.record.ctx.val = false ∧
      (x.record.st ≠ 2 ∨ x.st.epochNow (i.toNat / 2 ^ 20) x.record = false ∨ x.st.fld (Reg.estGate (i.toNat / 2 ^ 20) x.record.ctx.val) 31 31 = 0))) ∧
    (∃ (s : State) (i : BitVec 22) (x : Fetched), i.toNat / 2 ^ 20 < s.part.ldCount ∧
      x = s.fetchRec (i.toNat / 2 ^ 20) (i.toNat % 2 ^ 20) ∧ x.stall = false ∧ x.code = Code.ok ∧ x.record.st ≠ 0 ∧
      x.st.portRevoked x.record.ctx.val = true) ∧
    (∃ (s : State) (i : BitVec 22) (x : Fetched), i.toNat / 2 ^ 20 < s.part.ldCount ∧
      x = s.fetchRec (i.toNat / 2 ^ 20) (i.toNat % 2 ^ 20)) ∧
    (∃ (s : State) (i : BitVec 22), s.part.ldCount ≤ i.toNat / 2 ^ 20) ∧
    (∃ (s : State) (t : State) (i : Nat) (k : BitVec 256), s.keyPort i = (t, .key k)) :=
  ⟨⟨setupWith (dg 1 1 0) none (State.reset), _, 0, _, _, 0, rfl, by decide, by decide, rfl, by decide⟩,
   ⟨setupWith (dg 1 1 1236) none ({ st [(Reg.ctxStat 0, 0x20000000), (Reg.entStat, 0x20000000), (Reg.estGate 0 0, 0x80000000)] with ctxs := [(0, { CtxSt.zero with enrol := [(0, [])] })], keys := [(10, anyKey), (12, anyKey)] }),
     _, 0, _, _, 0, [], 0, rfl, by decide, by decide, (by decide +kernel), rfl, (by decide +kernel), by decide⟩,
   ⟨st [(Reg.entStat, 0x20000000)], 0, _, by decide, (Option.some_get index_free).symm⟩,
   ⟨allTaken (2 ^ 20), 0, by decide +kernel, index_none _ (Nat.le_refl _)⟩,
   ⟨st [(Reg.entStat, 0x40000000)], by decide⟩,
   ⟨setupWith (dg 1 2 0) (some 0) ({ State.reset with sess := [(0, ses 1)] }), _, 0, _, _, 0, rfl, by decide,
     by decide, by decide, by decide, rfl⟩,
   ⟨{ State.reset with sess := [(0, ses 1)] }, 0, by decide⟩,
   ⟨{ State.reset with sess := [(0, ses 1)] }, 0, 0, by decide, by decide⟩,
   ⟨{ State.reset with sess := [(0, { ses 0 with hold := true })] }, 0, 0, by decide⟩,
   ⟨setupWith (dg 8 1 8) (some 0) ({ State.reset with sess := [(0, ses 2)] }), 0, _, _, 0, rfl, by decide⟩,
   ⟨setupWith (dg 8 2 8) (some 0) ({ State.reset with sess := [(0, ses 2)] }), 0, _, _, 0, rfl, by decide⟩,
   ⟨keyed, _, 0, 0, 0, srec 2, rfl, by decide +kernel⟩,
   ⟨{ keyed with sess := [(0, ses 2)] }, 0, by decide⟩,
   ⟨(State.reset.setEstLd 0 { EstLd.zero with miss := [frame (dg 4 0 0)] }), _, _, 0, 0, _, rfl, (by decide +kernel),
     (by decide +kernel), rfl, rfl⟩,
   ⟨{ st [(Reg.pdStat 63, 0)] with granule := [(0, 17)], keys := regionKeys, minor := [(5, 1)], crypt := [(5, { LineKeys.zero with ver := 1 })], mem := [(320, 5), (331, 1)], est := [(0, { eld 2 with miss := [frame (dg 4 0 0)] })] },
     _, _, 0, 0, _, 5, 0, 0, rfl, (by decide +kernel), (by decide +kernel), rfl, Prod.ext rfl (by decide +kernel)⟩,
   ⟨(State.reset.setEstLd 0 { EstLd.zero with miss := [frame (dg 4 0 0), frame (dg 4 0 0)] }), 0, 1, _, rfl,
     (by decide +kernel)⟩,
   ⟨State.reset, 0, 0, 0x80000000, by decide⟩,
   ⟨st [(Reg.pdStat (pdLd 0), 0)], acc (Reg.estGate 0 0), 0, 0, by decide +kernel⟩,
   ⟨{ State.reset with est := [(0, eld 2)] }, 0, 0, srec 2, rfl⟩,
   ⟨keyed, 0, _, by decide, rfl, by decide⟩,
   ⟨{ keyed with est := [(0, eld 0)] }, 0, _, by decide, rfl, by decide⟩,
   ⟨{ State.reset with est := [(0, eld 2)] }, 0, _, by decide, rfl, by decide⟩,
   ⟨{ State.reset with est := [(0, eld 2)] }, 0, _, by decide, rfl⟩,
   ⟨{ State.reset with part := .m8l2 }, 0x300000, by decide⟩,
   ⟨keyed, _, 0, _, rfl⟩⟩

/-- States and operands that meet the hypotheses of each clause of Obligations.TransmitQueue. -/
theorem witness_TransmitQueue :
    (∃ (s : State) (u : State) (t : State) (l : Fin 4) (d : TxDesc) (ds : List TxDesc) (e : Nat) (x : Fetched),
      s.txReady u l.val d ds ∧ d.op = 0 ∧ t = s.txTaken u l.val ds ∧ e = d.index.toNat % 2 ^ 20 ∧
      x = t.fetchRec l.val e ∧ t.recGone l.val x = false) ∧
    (∃ (s : State) (u : State) (t : State) (v : State) (l : Fin 4) (d : TxDesc) (ds : List TxDesc) (k : Nat),
      s.txReady u l.val d ds ∧ d.op = 1 ∧ s.entPort ≠ .stall ∧ t = s.txTaken u l.val ds ∧
      t.wrapKey d.ctx.val 5 ≠ none ∧ t.insertRec l.val k d = some v) ∧
    (∃ (s : State) (u : State) (t : State) (l : Fin 4) (d : TxDesc) (ds : List TxDesc) (k : Nat),
      s.txReady u l.val d ds ∧ d.op = 1 ∧ s.entPort ≠ .stall ∧ t = s.txTaken u l.val ds ∧
      t.wrapKey d.ctx.val 5 ≠ none ∧ t.insertRec l.val k d = none) ∧
    (∃ (s : State) (u : State) (t : State) (l : Fin 4) (d : TxDesc) (ds : List TxDesc), s.txReady u l.val d ds ∧
      d.op = 1 ∧ s.entPort ≠ .stall ∧ t = s.txTaken u l.val ds ∧ t.wrapKey d.ctx.val 5 = none) ∧
    (∃ (s : State), s.entPort = .stall) ∧
    (∃ (s : State) (d : TxDesc), d.tries < 4 ∧ s.entPort = .served) ∧
    (∃ (d : TxDesc) (a : BitVec 256) (b : BitVec 256), 4 ≤ d.tries ∧ d.record.keys = some (a, b)) ∧
    (∃ (s : State) (u : State) (t : State) (l : Fin 4) (d : TxDesc) (ds : List TxDesc) (e : Nat) (x : Fetched),
      s.txReady u l.val d ds ∧ d.op = 2 ∧ t = s.txTaken u l.val ds ∧ e = d.index.toNat % 2 ^ 20 ∧
      x = t.fetchRec l.val e ∧ t.recGone l.val x = false) ∧
    (∃ (s : State) (u : State) (t : State) (l : Fin 4) (d : TxDesc) (ds : List TxDesc) (e : Nat) (x : Fetched),
      s.txReady u l.val d ds ∧ d.op = 3 ∧ t = s.txTaken u l.val ds ∧ e = d.index.toNat % 2 ^ 20 ∧
      x = t.fetchRec l.val e ∧ t.recGone l.val x = false) ∧
    (∃ (s : State) (u : State) (t : State) (l : Fin 4) (d : TxDesc) (ds : List TxDesc), s.txReady u l.val d ds ∧
      d.op = 4 ∧ t = s.txTaken u l.val ds ∧ (t.session d.index.toNat).st ≠ 0) ∧
    (∃ (s : State) (u : State) (t : State) (l : Fin 4) (d : TxDesc) (ds : List TxDesc) (e : Nat) (x : Fetched) (cmd : Instr),
      s.txReady u l.val d ds ∧ (d.op, cmd) ∈ [((0 : Byte), Instr.txSend l), (2, .txSetAdmittedSend l), (3,
      .txFreeSend l)] ∧ t = s.txTaken u l.val ds ∧ e = d.index.toNat % 2 ^ 20 ∧ x = t.fetchRec l.val e ∧
      t.recGone l.val x = true) ∧
    (∃ (s : State) (l : Nat) (x : Fetched),
      (x.code ≠ Code.ok ∨ x.record.st = 0 ∨ x.record.keys = none ∨ x.record.epoch.toNat ≠ s.fld (Reg.estGate l x.record.ctx.val) 23 16)) ∧
    (∃ (s : State) (u : State) (l : Fin 4) (d : TxDesc) (ds : List TxDesc) (k : Nat) (cmd : Instr),
      (s.estLd l.val).tx = d :: ds ∧ (d.op, cmd) ∈ [((0 : Byte), Instr.txSend l), (1, .txInsertSend l k), (2,
      .txSetAdmittedSend l), (3, .txFreeSend l), (4, .txFree l)] ∧ (d.op = 1 → s.entPort ≠ .stall) ∧
      s.estStall l.val = false ∧ s.crossPorts (route 8 (4 + l.val)) = (u, true)) ∧
    (∃ (s : State) (t : State) (l : Nat) (e : Nat) (k : Nat) (r : SessRec),
      t = s.putRec l e { r with txSeq := r.txSeq + 1 } ∧ t.txLane l r.ret = some k) ∧
    (∃ (s : State) (t : State) (l : Nat) (e : Nat) (r : SessRec),
      t = s.storeRec l e { r with txSeq := r.txSeq + 1 } ∧ t.cachedRec l e ≠ none ∧ r.st ≠ 0) :=
  ⟨⟨(State.setEstLd (State.reset) 0 { eld 2 with tx := [⟨0, 0, 0, dg 4 0 0, SessRec.zero, 0, 0, 0⟩] }), _, _, 0, _,
    _, _, _, ⟨rfl, by decide +kernel, rfl⟩, by decide, rfl, rfl, rfl, (by decide +kernel)⟩,
   ⟨(State.setEstLd ({ st [(Reg.pdStat 63, 0), (Reg.entStat, 0x20000000)] with granule := [(0, 17)], keys := regionKeys }) 0 { eld 2 with tx := [⟨1, 0, 0, dg 4 0 0, SessRec.zero, 0, 0, 0⟩] }),
     _, _, _, 0, _, _, 0, ⟨rfl, by decide +kernel, rfl⟩, by decide, (by decide +kernel), rfl, (by decide +kernel),
     of_isSome _ (by decide +kernel)⟩,
   ⟨(State.setEstLd ({ st [(Reg.entStat, 0x20000000)] with keys := regionKeys }) 0 { eld 2 with tx := [⟨1, 0, 0, dg 4 0 0, SessRec.zero, 0, 0, 0⟩] }),
     _, _, 0, _, _, 0, ⟨rfl, by decide +kernel, rfl⟩, by decide, (by decide +kernel), rfl, (by decide +kernel),
     (by decide +kernel)⟩,
   ⟨(State.setEstLd (st [(Reg.entStat,
     0x20000000)]) 0 { eld 2 with tx := [⟨1, 0, 0, dg 4 0 0, SessRec.zero, 0, 0, 0⟩] }), _, _, 0, _, _, ⟨rfl,
     by decide +kernel, rfl⟩, by decide, (by decide +kernel), rfl, (by decide +kernel)⟩,
   ⟨st [(Reg.entStat, 0)], by decide⟩,
   ⟨st [(Reg.entStat, 0x20000000)], ⟨1, 0, 0, dg 4 0 0, SessRec.zero, 0, 3, 0⟩, by decide, by decide⟩,
   ⟨⟨1, 0, 0, dg 4 0 0, srec 2, 0, 4, 0⟩, 0, 0, by decide, by decide⟩,
   ⟨(State.setEstLd (State.reset) 0 { eld 2 with tx := [⟨2, 0, 0, dg 4 0 0, SessRec.zero, 0, 0, 0⟩] }), _, _, 0, _,
     _, _, _, ⟨rfl, by decide +kernel, rfl⟩, by decide, rfl, rfl, rfl, (by decide +kernel)⟩,
   ⟨(State.setEstLd (State.reset) 0 { eld 2 with tx := [⟨3, 0, 0, dg 4 0 0, SessRec.zero, 0, 0, 0⟩] }), _, _, 0, _,
     _, _, _, ⟨rfl, by decide +kernel, rfl⟩, by decide, rfl, rfl, rfl, (by decide +kernel)⟩,
   ⟨(State.setEstLd ({ State.reset with sess := [(0, ses 2)] }) 0 { eld 2 with tx := [⟨4, 0, 0, dg 4 0 0, SessRec.zero, 0, 0, 0⟩] }),
     _, _, 0, _, _, ⟨rfl, by decide +kernel, rfl⟩, by decide, rfl, (by decide +kernel)⟩,
   ⟨(State.setEstLd (State.reset) 0 { eld 0 with tx := [⟨0, 0, 0, dg 4 0 0, SessRec.zero, 0, 0, 0⟩] }), _, _, 0, _,
     _, _, _, .txSend 0, ⟨rfl, by decide +kernel, rfl⟩, (by simp), rfl, rfl, rfl, (by decide +kernel)⟩,
   ⟨State.reset, 0, ⟨State.reset, Code.ok, false, SessRec.zero⟩, by decide⟩,
   ⟨(State.setEstLd ({ st [(Reg.entStat, 0x20000000)] with d2d := [(0x84, ⟨.uncorrectable, 0⟩)] }) 0 { eld 2 with tx := [⟨0, 0, 0, dg 4 0 0, SessRec.zero, 0, 0, 0⟩] }),
     _, 0, _, _, 0, .txSend 0, rfl, (by simp), by decide, by decide, rfl⟩,
   ⟨{ st [(Reg.laneCtl 0 0, 0x40000000), (Reg.laneStat 0 0, 0x40000000), (Reg.estCtl 0, 0x80000000), (Reg.estGate 0 0, 0x80000004), (Reg.estSteerSh 0 0, 0x80000005), (Reg.estRound 0 0, 7)] with boot := { Boot.zero with profile := some profE }, est := [(0, eld 2)] },
     _, 0, 0, _, srec 2, rfl, of_isSome _ (by decide +kernel)⟩,
   ⟨{ State.reset with est := [(0, eld 2)] }, _, 0, 0, srec 2, rfl, by decide, by decide⟩⟩

/-- States and operands that meet the hypotheses of each clause of Obligations.LanesAndLinkFrames. -/
theorem witness_LanesAndLinkFrames :
    (∃ (s : State) (k : Fin 64), s.twLane k.val = true ∧ (s.lane k.val).lock = false ∧ s.laneState k.val = 0) ∧
    (∃ (s : State) (k : Fin 64), s.twLane k.val = true ∧ (s.laneState k.val = 1 ∨ s.laneState k.val = 5)) ∧
    (∃ (s : State) (t : State) (k : Fin 64) (h : LinkHdr) (g : Word) (m : BitVec 14) (p : Byte) (b : Nat) (cmd : Instr) (st : Nat),
      (cmd, st) ∈ [(Instr.laneHelloReceive ⟨k, h⟩ g m p, 1), (.mismatchRecheck ⟨k, h⟩ g m p, 5)] ∧
      s.twLane k.val = true ∧ s.laneState k.val = st ∧ h.good = true ∧ t = s.fecCorr k.val h.fec ∧
      t.helloOk k.val g m p = true ∧ t.bundleOf k.val = some b) ∧
    (∃ (s : State) (k : Fin 64) (h : LinkHdr) (g : Word) (m : BitVec 14) (p : Byte) (cmd : Instr) (st : Nat), (cmd,
      st) ∈ [(Instr.laneHelloReceive ⟨k, h⟩ g m p, 1), (.mismatchRecheck ⟨k, h⟩ g m p, 5)] ∧ s.twLane k.val = true ∧
      s.laneState k.val = st ∧ h.good = true ∧ (s.fecCorr k.val h.fec).helloOk k.val g m p = false) ∧
    (∃ (s : State) (k : Fin 64) (h : LinkHdr), s.twLane k.val = true ∧ s.laneState k.val = 1 ∧ h.good = false) ∧
    (∃ (s : State) (k : Fin 64), s.twLane k.val = true ∧ (s.lane k.val).lock = true ∧ s.laneState k.val = 2) ∧
    (∃ (s : State) (k : Fin 64), s.twLane k.val = true ∧ s.laneState k.val = 2) ∧
    (∃ (s : State) (t : State) (k : Fin 64) (h : LinkHdr) (n : Fin 16) (b : Nat), s.linkLane k.val = true ∧
      s.bundleOf k.val = some b ∧ h.good = true ∧ t = (s.linkHeard k.val h).useHdr b h ∧ t.bundleOf (noticeAbout ⟨k,
      h, n⟩ b) = some b ∧ t.laneState (noticeAbout ⟨k, h, n⟩ b) = 2) ∧
    (∃ (s : State) (k : Fin 64) (ms : Nat), s.twLane k.val = true ∧ s.laneState k.val = 3 ∧
      (s.lane k.val).lock = true ∧ 10 ≤ ms ∧ bit (s.reg (Reg.laneCtl (k.val / 16) (k.val % 16))) 28 = false ∧
      (s.lane k.val).cause ≠ some 2 ∧
      (bit (s.reg (Reg.laneCtl (k.val / 16) (k.val % 16))) 27 = true ∨ (s.lane k.val).cause = some 3)) ∧
    (∃ (ms : Nat), ms < 10) ∧
    (∃ (s : State) (t : State) (k : Fin 64) (h : LinkHdr) (n : Fin 16) (b : Nat), s.linkLane k.val = true ∧
      s.bundleOf k.val = some b ∧ h.good = true ∧ t = (s.linkHeard k.val h).useHdr b h ∧ t.bundleOf (noticeAbout ⟨k,
      h, n⟩ b) = some b ∧ (t.laneState (noticeAbout ⟨k, h, n⟩ b) = 3 ∨ t.laneState (noticeAbout ⟨k, h, n⟩ b) = 4)) ∧
    (∃ (s : State) (k : Nat), s.keptOut k = true) ∧
    (∃ (s : State) (k : Nat), s.keptOut k = false ∧ (s.lane k).cause = some 2 ∧ s.laneState k = 3) ∧
    (∃ (s : State) (k : Nat), s.keptOut k = false ∧ (s.lane k).cause ≠ some 2 ∧ (s.lane k).rejoinOut = true) ∧
    (∃ (s : State) (k : Fin 64) (b : Nat), s.twLane k.val = true ∧ s.laneState k.val = 2 ∧
      s.bundleOf k.val = some b) ∧
    (∃ (s : State) (k : Fin 64), s.twLane k.val = true ∧ s.laneState k.val = 4) ∧
    (∃ (s : State) (a : Acc) (k : Fin 64), s.accessCheck a true = none ∧ s.linksClean = true ∧
      k.val / 16 < s.part.ldCount ∧ s.pdState (pdLd (k.val / 16)) = 0 ∧
      a.addr = Reg.laneCtl (k.val / 16) (k.val % 16)) ∧
    (∃ (s : State) (t : State) (k : Fin 64) (up : Bool), s.ethLane k.val = true ∧
      t = s.setLane k.val { s.lane k.val with lock := up }) ∧
    (∃ (s : State) (k : Fin 64), s.ethLane k.val = true ∧ (s.lane k.val).lock = false) ∧
    (∃ (s : State) (k : Fin 64), k.val / 16 < s.part.ldCount ∧ s.laneMode k.val ≠ 0 ∧
      s.pdState (pdLd (k.val / 16)) = 2) ∧
    (∃ (s : State) (l : Fin 4) (k : Fin 16) (vc : Fin 12) (p : Packet) (n : Nat),
      s.fld (bmap (l.val * 16 + k.val)) 31 31 = 1 ∧ s.canSend (l.val * 16 + k.val) vc.val p = true ∧
      (vc.val < 3 ∨ s.ctrlAt (l.val * 16 + k.val) = false) ∧ s.bundleOf n = some (l.val * 16 + k.val) ∧
      s.bestLane (l.val * 16 + k.val) none = some n) ∧
    (∃ (s : State) (l : Fin 4) (k : Fin 16) (vc : Fin 12) (p : Packet), s.fld (bmap (l.val * 16 + k.val)) 31 31 = 1 ∧
      s.bundleUp (l.val * 16 + k.val) = true ∧ (s.canSend (l.val * 16 + k.val) vc.val p = false ∨ 3 ≤ vc.val ∧
      s.ctrlAt (l.val * 16 + k.val) = true)) ∧
    (∃ (s : State) (k : Fin 64) (b : Nat), s.linkLane k.val = true ∧ s.bundleOf k.val = some b) ∧
    (∃ (s : State) (k : Fin 64) (b : Nat), s.linkLane k.val = true ∧ s.bundleOf k.val = some b) ∧
    (∃ (s : State) (k : Fin 64) (b : Nat), s.linkLane k.val = true ∧ s.bundleOf k.val = some b) ∧
    (∃ (s : State) (l : Fin 4) (k : Fin 16) (n : Nat), s.bestLane (l.val * 16 + k.val) none = some n) ∧
    (∃ (s : State) (u : State) (k : Fin 64) (h : LinkHdr) (b : Nat), s.linkLane k.val = true ∧
      s.bundleOf k.val = some b ∧ h.good = true ∧ u = (s.linkHeard k.val h).useHdr b h) ∧
    (∃ (x : Bundle) (n : Fin 16) (a : List (Fin 16 × BitVec 24)) (g : BitVec 24) (b : List (Fin 16 × BitVec 24)),
      x.sends = a ++ (n, g) :: b ∧ (n, g) ∉ a) ∧
    (∃ (s : State) (l : Fin 4) (k : Fin 16) (q : BitVec 24),
      (s.bundle (l.val * 16 + k.val)).replay.any (fun f => decide (f.seq = q)) = true) ∧
    (∃ (s : State) (b : Nat) (h : LinkHdr),
      ahead (s.bundle b).txAck h.ack ≤ ahead (s.bundle b).txAck (s.bundle b).txSeq) ∧
    (∃ (s : State) (b : Nat) (h : LinkHdr), ahead (s.bundle b).rxAck h.seq < 4096 ∧ h.seq ∉ (s.bundle b).rxBits) ∧
    (∃ (s : State) (b : Nat) (h : LinkHdr), (4096 ≤ ahead (s.bundle b).rxAck h.seq ∨ h.seq ∈ (s.bundle b).rxBits)) :=
  ⟨⟨st [(Reg.laneCtl 0 0, 0x80000000), (Reg.laneStat 0 0, 0xF000000), (Reg.pdStat (pdLd 0), 0)], 0, by decide⟩,
   ⟨st [(Reg.laneCtl 0 0, 0x80000000), (Reg.laneStat 0 0, 0x2F000000), (Reg.pdStat (pdLd 0), 0)], 0, by decide,
     (by decide)⟩,
   ⟨st [(Reg.laneCtl 0 0, 0x80000000), (Reg.laneStat 0 0, 0x20000000), (Reg.pdStat (pdLd 0), 0), (bmap 0,
     0x84010001)], _, 0, ⟨1, 0, 0, 0, 0, true, 0⟩, 0, 0, 1, 0, .laneHelloReceive ⟨0, ⟨1, 0, 0, 0, 0, true, 0⟩⟩ 0 0 1,
     1, (by simp), by decide, by decide, by decide, rfl, (by decide +kernel), by decide⟩,
   ⟨st [(Reg.laneCtl 0 0, 0x80000000), (Reg.laneStat 0 0, 0x2F000000), (Reg.pdStat (pdLd 0), 0)], 0, ⟨1, 0, 0, 0, 0,
     true, 0⟩, 0, 0, 0, .laneHelloReceive ⟨0, ⟨1, 0, 0, 0, 0, true, 0⟩⟩ 0 0 0, 1, (by simp), by decide⟩,
   ⟨st [(Reg.laneCtl 0 0, 0x80000000), (Reg.laneStat 0 0, 0x2F000000), (Reg.pdStat (pdLd 0), 0)], 0, ⟨1, 0, 0, 0, 0,
     false, 0⟩, by decide⟩,
   ⟨{ st [(Reg.laneCtl 0 0, 0x80000000), (Reg.laneStat 0 0, 0x4F000000), (Reg.pdStat (pdLd 0), 0)] with lanes := [(0, { LaneX.zero with lock := true })] },
     0, by decide⟩,
   ⟨st [(Reg.laneCtl 0 0, 0x80000000), (Reg.laneStat 0 0, 0x4F000000), (Reg.pdStat (pdLd 0), 0)], 0, by decide,
     by decide⟩,
   ⟨st [(Reg.laneCtl 0 0, 0x80000000), (Reg.laneStat 0 0, 0x40000000), (Reg.pdStat (pdLd 0), 0), (bmap 0,
     0x84010001), (Reg.laneStat 0 1, 0x40000000)], _, 0, ⟨1, 0, 0, 0, 0, true, 0⟩, 1, 0, by decide, by decide,
     by decide, rfl, (by decide +kernel), (by decide +kernel)⟩,
   ⟨{ st [(Reg.laneCtl 0 0, 0x88000000), (Reg.laneStat 0 0, 0x6F000000), (Reg.pdStat (pdLd 0), 0)] with lanes := [(0, { LaneX.zero with lock := true })] },
     0, 10, by decide⟩,
   ⟨0, by decide⟩,
   ⟨st [(Reg.laneCtl 0 0, 0x80000000), (Reg.laneStat 0 0, 0x40000000), (Reg.pdStat (pdLd 0), 0), (bmap 0,
     0x84010001), (Reg.laneStat 0 1, 0x60000000)], _, 0, ⟨1, 0, 0, 0, 0, true, 0⟩, 1, 0, by decide, by decide,
     by decide, rfl, (by decide +kernel), (by decide +kernel)⟩,
   ⟨st [(Reg.laneCtl 0 0, 0x90000000), (Reg.laneStat 0 0, 0x6F000000), (Reg.pdStat (pdLd 0), 0)], 0, by decide⟩,
   ⟨{ st [(Reg.laneCtl 0 0, 0x80000000), (Reg.laneStat 0 0, 0x6F000000), (Reg.pdStat (pdLd 0), 0)] with lanes := [(0, { LaneX.zero with cause := some 2 })] },
     0, by decide⟩,
   ⟨{ st [(Reg.laneCtl 0 0, 0x80000000), (Reg.laneStat 0 0, 0x6F000000), (Reg.pdStat (pdLd 0), 0)] with lanes := [(0, { LaneX.zero with rejoinOut := true })] },
     0, by decide⟩,
   ⟨st [(Reg.laneCtl 0 0, 0x80000000), (Reg.laneStat 0 0, 0x40000000), (Reg.pdStat (pdLd 0), 0), (bmap 0,
     0x84010001)], 0, 0, by decide⟩,
   ⟨st [(Reg.laneCtl 0 0, 0x80000000), (Reg.laneStat 0 0, 0x8F000000), (Reg.pdStat (pdLd 0), 0)], 0, by decide,
     by decide⟩,
   ⟨st [(Reg.laneCtl 0 0, 0x80000000), (Reg.laneStat 0 0, 0xF000000), (Reg.pdStat (pdLd 0), 0)],
     acc (Reg.laneCtl 0 0), 0, by decide +kernel⟩,
   ⟨st [(Reg.laneCtl 0 0, 0x40000000), (Reg.laneStat 0 0, 0xF000000), (Reg.pdStat (pdLd 0), 0)], _, 0, true,
     by decide, rfl⟩,
   ⟨st [(Reg.laneCtl 0 0, 0x40000000), (Reg.laneStat 0 0, 0xF000000), (Reg.pdStat (pdLd 0), 0)], 0, by decide,
     by decide⟩,
   ⟨st [(Reg.laneCtl 0 0, 0x80000000), (Reg.pdStat (pdLd 0), 0x40000000)], 0, by decide⟩,
   ⟨st [(Reg.laneCtl 0 0, 0x80000000), (Reg.laneStat 0 0, 0x40000000), (Reg.pdStat (pdLd 0), 0), (bmap 0,
     0x84010001)], 0, 0, 0, pkt 1 [], 0, by decide +kernel⟩,
   ⟨{ st [(Reg.laneCtl 0 0, 0x80000000), (Reg.laneStat 0 0, 0x40000000), (Reg.pdStat (pdLd 0), 0), (bmap 0, 0x84010001)] with bundles := [(0, { Bundle.zero with used := [(0, 1024)] })] },
     0, 0, 0, pkt 1 [], by decide +kernel⟩,
   ⟨st [(Reg.laneCtl 0 0, 0x80000000), (Reg.laneStat 0 0, 0x40000000), (Reg.pdStat (pdLd 0), 0), (bmap 0,
     0x84010001)], 0, 0, by decide, by decide⟩,
   ⟨st [(Reg.laneCtl 0 0, 0x80000000), (Reg.laneStat 0 0, 0x40000000), (Reg.pdStat (pdLd 0), 0), (bmap 0,
     0x84010001)], 0, 0, by decide, by decide⟩,
   ⟨st [(Reg.laneCtl 0 0, 0x80000000), (Reg.laneStat 0 0, 0x40000000), (Reg.pdStat (pdLd 0), 0), (bmap 0,
     0x84010001)], 0, 0, by decide, by decide⟩,
   ⟨st [(Reg.laneCtl 0 0, 0x80000000), (Reg.laneStat 0 0, 0x40000000), (Reg.pdStat (pdLd 0), 0), (bmap 0,
     0x84010001)], 0, 0, 0, (by decide +kernel)⟩,
   ⟨st [(Reg.laneCtl 0 0, 0x80000000), (Reg.laneStat 0 0, 0x40000000), (Reg.pdStat (pdLd 0), 0), (bmap 0,
     0x84010001)], _, 0, ⟨1, 0, 0, 0, 0, true, 0⟩, 0, by decide, by decide, by decide, rfl⟩,
   ⟨{ Bundle.zero with sends := [(0, 5)] }, 0, [], 5, [], rfl, by decide⟩,
   ⟨{ State.reset with bundles := [(0, { Bundle.zero with replay := [⟨5, 0, 0, 0, pkt 1 []⟩] })] }, 0, 0, 5,
     by decide⟩,
   ⟨{ State.reset with bundles := [(0, { Bundle.zero with txSeq := 4 })] }, 0, ⟨1, 2, 0, 0, 0, true, 0⟩, by decide⟩,
   ⟨State.reset, 0, ⟨1, 0, 0, 0, 0, true, 0⟩, by decide, by decide⟩,
   ⟨{ State.reset with bundles := [(0, { Bundle.zero with rxBits := [1] })] }, 0, ⟨1, 0, 0, 0, 0, true, 0⟩,
     by decide⟩⟩

/-- States and operands that meet the hypotheses of each clause of Obligations.PacketForward. -/
theorem witness_PacketForward :
    (∃ (s : State) (l : Fin 4) (vc : Fin 12) (r : RouterPkt) (rest : List RouterPkt) (o : Nat),
      takeFirst (fun x => decide (x.vc = vc ∧ x.pkt.ptype ≠ 2)) (s.rbuf l.val) = some (r, rest) ∧
      s.arrivalDrop l.val r = some o) ∧
    (∃ (s : State) (l : Fin 4) (vc : Fin 12) (r : RouterPkt) (rest : List RouterPkt),
      takeFirst (fun x => decide (x.vc = vc ∧ x.pkt.ptype ≠ 2)) (s.rbuf l.val) = some (r, rest) ∧
      s.arrivalDrop l.val r = none ∧ (r.pkt.ptype ≠ 3 ∨ r.pkt.bcast = false) ∧ r.pkt.dst.toNat = s.ownId ∧
      s.linksClean = true ∧ (r.pkt.ptype = 3 → 1 ≤ r.pkt.tf 21 1 ∧ r.pkt.tf 21 1 ≤ 6)) ∧
    (∃ (s : State) (l : Fin 4) (vc : Fin 12) (r : RouterPkt) (rest : List RouterPkt),
      takeFirst (fun x => decide (x.vc = vc ∧ x.pkt.ptype ≠ 2)) (s.rbuf l.val) = some (r, rest) ∧
      s.arrivalDrop l.val r = none ∧ r.pkt.ptype = 3 ∧ r.pkt.bcast = false ∧ r.pkt.dst.toNat = s.ownId ∧
      (r.pkt.tf 21 1 = 0 ∨ 6 < r.pkt.tf 21 1)) ∧
    (∃ (s : State) (l : Fin 4) (vc : Fin 12) (r : RouterPkt) (rest : List RouterPkt) (b : Nat) (w : Nat),
      takeFirst (fun x => decide (x.vc = vc ∧ x.pkt.ptype ≠ 2)) (s.rbuf l.val) = some (r, rest) ∧
      s.arrivalDrop l.val r = none ∧ (r.pkt.ptype ≠ 3 ∨ r.pkt.bcast = false) ∧ r.pkt.dst.toNat ≠ s.ownId ∧
      s.hop r = .go b w ∧ (r.pkt.cls = 0 ∨ s.ctrlAt b = false) ∧ s.linksClean = true) ∧
    (∃ (s : State) (l : Fin 4) (vc : Fin 12) (r : RouterPkt) (rest : List RouterPkt),
      takeFirst (fun x => decide (x.vc = vc ∧ x.pkt.ptype ≠ 2)) (s.rbuf l.val) = some (r, rest) ∧
      s.arrivalDrop l.val r = none ∧ (r.pkt.ptype ≠ 3 ∨ r.pkt.bcast = false) ∧ r.pkt.dst.toNat ≠ s.ownId ∧
      s.hop r = .drop) ∧
    (∃ (s : State) (t : State) (l : Fin 4) (vc : Fin 12) (r : RouterPkt) (rest : List RouterPkt),
      takeFirst (fun x => decide (x.vc = vc ∧ x.pkt.ptype ≠ 2)) (s.rbuf l.val) = some (r, rest) ∧
      s.arrivalDrop l.val r = none ∧ r.pkt.ptype = 3 ∧ r.pkt.bcast = true ∧
      t = (s.bcastPorts r).foldl (fun u e => u.sendCopy l.val r e) ((s.setRbuf l.val rest).freeInput r)) ∧
    (∃ (s : State) (l : Fin 4) (vc : Fin 12) (r : RouterPkt) (rest : List RouterPkt),
      takeFirst (fun x => decide (x.vc = vc ∧ x.pkt.ptype ≠ 2)) (s.rbuf l.val) = some (r, rest) ∧
      s.arrivalDrop l.val r = none ∧ (r.pkt.ptype ≠ 3 ∨ r.pkt.bcast = false) ∧ r.pkt.dst.toNat ≠ s.ownId ∧
      s.hop r = .wait) ∧
    (∃ (s : State) (l : Fin 4) (vc : Fin 12) (r : RouterPkt) (rest : List RouterPkt) (b : Nat) (w : Nat),
      takeFirst (fun x => decide (x.vc = vc ∧ x.pkt.ptype ≠ 2)) (s.rbuf l.val) = some (r, rest) ∧
      s.arrivalDrop l.val r = none ∧ (r.pkt.ptype ≠ 3 ∨ r.pkt.bcast = false) ∧ r.pkt.dst.toNat ≠ s.ownId ∧
      s.hop r = .go b w ∧ r.pkt.cls ≠ 0 ∧ s.ctrlAt b = true) ∧
    (∃ (s : State) (t : State) (l : Fin 4) (vc : Fin 12) (r : RouterPkt) (rest : List RouterPkt),
      takeFirst (fun x => decide (x.vc = vc ∧ x.pkt.ptype ≠ 2)) (s.rbuf l.val) = some (r, rest) ∧
      s.arrivalDrop l.val r = none ∧ (r.pkt.ptype ≠ 3 ∨ r.pkt.bcast = false) ∧ r.pkt.dst.toNat = s.ownId ∧
      (r.pkt.ptype = 3 → 1 ≤ r.pkt.tf 21 1 ∧ r.pkt.tf 21 1 ≤ 6) ∧
      ((s.setRbuf l.val rest).freeInput r).crossPorts (route (4 + l.val) (targetDie r.pkt)) = (t, true)) ∧
    (∃ (p : RouterPkt → Bool) (xs : List RouterPkt) (rest : List RouterPkt) (r : RouterPkt),
      takeFirst p xs = some (r, rest)) ∧
    (∃ (s : State) (r : RouterPkt) (b : Nat) (w : Nat), s.hop r = .go b w) :=
  ⟨⟨{ State.reset with router := [(0, [⟨some 0, 0, { pkt 1 [] with dst := 5 }, false⟩])] }, 0, 0, _, _, 0x2C, rfl,
    by decide⟩,
   ⟨{ State.reset with router := [(0, [⟨none, 0, pkt 1 [], false⟩])] }, 0, 0, _, _, rfl, by decide +kernel⟩,
   ⟨{ State.reset with router := [(0, [⟨none, 0, { pkt 0 [] with ptype := 3 }, false⟩])] }, 0, 0, _, _, rfl,
     by decide +kernel⟩,
   ⟨{ st [(Reg.laneCtl 0 0, 0x80000000), (Reg.laneStat 0 0, 0x40000000), (Reg.pdStat (pdLd 0), 0), (bmap 0, 0x84010001), (Reg.twTopo 0, 0x08000000)] with router := [(0, [⟨none, 0, { pkt 1 [] with dst := 1, cls := 1 }, false⟩])] },
     0, 0, _, _, 0, 3, rfl, by decide +kernel⟩,
   ⟨{ State.reset with router := [(0, [⟨none, 0, { pkt 1 [] with dst := 5 }, false⟩])] }, 0, 0, _, _, rfl,
     by decide +kernel⟩,
   ⟨{ State.reset with router := [(0, [⟨none, 0, { pkt 0 [] with ptype := 3, fields := BitVec.ofNat 128 (2 ^ 120) }, false⟩])] },
     _, 0, 0, _, _, rfl, by decide, by decide, (by decide +kernel), rfl⟩,
   ⟨{ { st [(Reg.laneCtl 0 0, 0x80000000), (Reg.laneStat 0 0, 0x40000000), (Reg.pdStat (pdLd 0), 0), (bmap 0, 0x84010001), (Reg.twTopo 0, 0x08000000)] with router := [(0, [⟨none, 0, { pkt 1 [] with dst := 1, cls := 1 }, false⟩])] } with bundles := [(0, { Bundle.zero with used := [(3, 1024), (4, 1024), (5, 1024)] })] },
     0, 0, _, _, rfl, by decide +kernel⟩,
   ⟨{ st [(Reg.laneCtl 0 0, 0x80000000), (Reg.laneStat 0 0, 0x40000000), (Reg.pdStat (pdLd 0), 0), (bmap 0, 0x84010001), (Reg.twTopo 0, 0x08000000)] with router := [(0, [⟨none, 0, { pkt 1 [] with dst := 1, cls := 1 }, false⟩, ⟨none, 0, { pkt 1 [] with dst := 1 }, false⟩])] },
     0, 0, _, _, 0, 3, rfl, by decide +kernel⟩,
   ⟨{ { State.reset with router := [(0, [⟨none, 0, { pkt 0 [] with ptype := 3, fields := BitVec.ofNat 128 (2 ^ 80) }, false⟩])] } with d2d := [(0x48, ⟨.uncorrectable, 0⟩)] },
     _, 0, 0, _, _, rfl, by decide, (by decide +kernel), by decide, (by decide +kernel), (by exact rfl)⟩,
   ⟨fun _ => true, [⟨none, 0, pkt 1 [], false⟩], _, _, rfl⟩,
   ⟨st [(Reg.laneCtl 0 0, 0x80000000), (Reg.laneStat 0 0, 0x40000000), (Reg.pdStat (pdLd 0), 0), (bmap 0,
     0x84010001), (Reg.twTopo 0, 0x08000000)], ⟨none, 0, { pkt 1 [] with dst := 1, cls := 1 }, false⟩, 0, 3,
     (by decide +kernel)⟩⟩

/-- States and operands that meet the hypotheses of each clause of Obligations.FoldStreams. -/
theorem witness_FoldStreams :
    (∃ (s : State), s.linksClean = true) ∧
    (∃ (s : State), s.linksClean = true) ∧
    (∃ (s : State), s.linksClean = true) ∧
    (∃ (s : State), s.linksClean = true) ∧
    (∃ (s : State) (tag : BitVec 16), fseValid (s.fseAt (s.fseOwner (s.fse tag.toNat)) tag.toNat) = true ∧
      fseArmed (s.fse tag.toNat) = true ∧ fseExpired (s.fse tag.toNat) = false ∧
      fseDone (s.fse tag.toNat) < fseNblocks (s.fse tag.toNat)) ∧
    (∃ (s : State) (l : Fin 4) (r : RouterPkt) (rest : List RouterPkt) (v : QWord) (cmd : Instr) (p : RouterPkt → Bool),
      (cmd, p) ∈ [(Instr.reduceReceive l, fun x => decide (x.pkt.ptype = 2)), (.reduceSlotWaitEnd l,
      fun x => decide (x.pkt.ptype = 2) && x.waited)] ∧ takeFirst p (s.rbuf l.val) = some (r, rest) ∧
      s.arrivalDrop l.val r = none ∧ v = s.fseAt l.val r.pkt.tag) ∧
    (∃ (s : State) (tag : BitVec 16) (x : RedSlot) (v : QWord) (l : Nat), v = s.fse tag.toNat ∧ l = s.fseOwner v ∧
      s.slotFor l tag.toNat (fseDone v) = some x ∧ fseValid (s.fseAt l tag.toNat) = true ∧ fseLocal v = true ∧
      x.count = fseExpect v ∧ s.canDeliver v x.block.toNat = true) ∧
    (∃ (s : State) (v : QWord) (b : Nat), s.canDeliver v b = true) ∧
    (∃ (s : State) (l : Fin 4), l.val < s.part.ldCount ∧ s.linksClean = true) ∧
    (∃ (s : State) (t : State) (l : Fin 4) (e : Fin 16) (r : Line) (b : Nat), bit (s.foCtl l.val e.val) 31 = true ∧
      bit (s.foCtl l.val e.val) 29 = false ∧ b = s.fld (Reg.fo l.val e.val 0x14) 23 0 ∧
      b < (s.reg (Reg.fo l.val e.val 0x0C)).toNat ∧
      r = s.readSpan (.dma (Fin.ofNat 8 (4 + l.val)) (Fin.ofNat 16 (bits (s.foCtl l.val e.val) 19 16))) (s.reg64 (Reg.fo l.val e.val 4) % 2 ^ 48 + 4096 * b) 4096 ∧
      t = (r.st.toRouter l.val ⟨none, 10, s.foPacket l.val e.val b r.data,
      false⟩).setFld (Reg.fo l.val e.val 0x14) 23 0 (b + 1)) ∧
    (∃ (s : State) (l : Fin 4) (e : Fin 16) (b : Nat), bit (s.foCtl l.val e.val) 31 = true ∧
      bit (s.foCtl l.val e.val) 29 = true ∧ b = s.fld (Reg.fo l.val e.val 0x14) 23 0 ∧
      b < (s.reg (Reg.fo l.val e.val 0x0C)).toNat ∧
      s.sealReady (bits (s.foCtl l.val e.val) 28 25) (s.reg64 (Reg.fo l.val e.val 4) % 2 ^ 48 + 4096 * b) = false) :=
  ⟨⟨State.reset, by decide⟩,
   ⟨State.reset, by decide⟩,
   ⟨State.reset, by decide⟩,
   ⟨State.reset, by decide⟩,
   ⟨{ State.reset with fst := [(0, (BitVec.ofNat 128 0x2000000C0))] }, 0, by decide⟩,
   ⟨{ State.reset with fst := [(0, (BitVec.ofNat 128 0x800081))], router := [(0, [⟨none, 0, { pkt 0 [] with ptype := 2 }, false⟩])] },
     0, _, _, _, .reduceReceive 0, fun x => decide (x.pkt.ptype = 2), (by simp), rfl, by decide, rfl⟩,
   ⟨{ st [(Reg.strandStat 0 0, 0x20000000)] with fst := [(0, (BitVec.ofNat 128 0x800081))], slots := [⟨0, 0, 0, 0, 1, false, []⟩] },
     0, _, _, _, rfl, rfl, rfl, by decide +kernel⟩,
   ⟨st [(Reg.strandStat 0 0, 0x20000000)], 0, 0, (by decide +kernel)⟩,
   ⟨State.reset, 0, by decide, by decide⟩,
   ⟨st [(Reg.fo 0 0 0, 0x80000000), (Reg.fo 0 0 0xC, 2), (Reg.fo 0 0 4, BitVec.ofNat 32 (bankAddr 0 0 0)),
     (Reg.fo 0 0 8, BitVec.ofNat 32 (bankAddr 0 0 0 / 2 ^ 32)), (Reg.bankOwner 0 0, 0x40000100),
     (Reg.pdStat (pdBank 0 0), 0)], _, 0, 0, _, 0, by decide, by decide, by decide, by decide, rfl, rfl⟩,
   ⟨st [(Reg.fo 0 0 0, 0xA0000000), (Reg.fo 0 0 0xC, 2), (Reg.fo 0 0 4, BitVec.ofNat 32 (bankAddr 0 0 0)),
     (Reg.fo 0 0 8, BitVec.ofNat 32 (bankAddr 0 0 0 / 2 ^ 32)), (Reg.bankOwner 0 0, 0x40000100),
     (Reg.pdStat (pdBank 0 0), 0)], 0, 0, 0, by decide +kernel⟩⟩

/-- States and operands that meet the hypotheses of each clause of Obligations.ConnectionsAndRegions. -/
theorem witness_ConnectionsAndRegions :
    (∃ (s : State) (n : BitVec 16) (l : Nat) (b : Bytes), s.linksClean = true ∧ l = connLd n.toNat ∧
      l < s.part.ldCount ∧ b = s.cnStaged l ∧ (s.conn n.toNat).st = .free ∧ s.ctxLive (field b 2 1 % 16) = true ∧
      cnBad b = false ∧ (s.peerKey (BitVec.ofNat 14 (field b 0 2))).isSome = true ∧ (field b 2 1).testBit 7 = false) ∧
    (∃ (s : State) (n : BitVec 16) (l : Nat) (b : Bytes), s.linksClean = true ∧ l = connLd n.toNat ∧
      l < s.part.ldCount ∧ b = s.cnStaged l ∧ (s.conn n.toNat).st = .free ∧ s.ctxLive (field b 2 1 % 16) = true ∧
      cnBad b = false ∧ (s.peerKey (BitVec.ofNat 14 (field b 0 2))).isSome = true ∧ (field b 2 1).testBit 7 = true ∧
      s.katOk .publicKey = true ∧ s.entRunning = true) ∧
    (∃ (s : State) (n : BitVec 16), s.linksClean = true ∧ connLd n.toNat < s.part.ldCount ∧
      (s.conn n.toNat).st ≠ .free) ∧
    (∃ (s : State) (n : BitVec 16) (b : Bytes), s.linksClean = true ∧ connLd n.toNat < s.part.ldCount ∧
      b = s.cnStaged (connLd n.toNat) ∧ (s.conn n.toNat).st = .free ∧ s.ctxLive (field b 2 1 % 16) = false) ∧
    (∃ (s : State) (n : BitVec 16), s.linksClean = true ∧ connLd n.toNat < s.part.ldCount) ∧
    (∃ (s : State) (n : BitVec 16), s.linksClean = true ∧ connLd n.toNat < s.part.ldCount) ∧
    (∃ (s : State) (n : BitVec 16) (cmd : Instr) (op : Nat) (a : ConnSt) (b : ConnSt), (cmd, op, a,
      b) ∈ [(Instr.cnPause n, 3, ConnSt.established, ConnSt.paused), (.cnResume n, 4, .paused, .established)] ∧
      s.linksClean = true ∧ connLd n.toNat < s.part.ldCount) ∧
    (∃ (s : State) (i : Fin 1048576) (b : Bytes) (c : Nat), s.linksClean = true ∧ s.fld (Reg.rgStat 0) 31 31 = 0 ∧
      b = s.rgStaged 0 ∧ c = field b 16 1 % 16 ∧ (s.region i.val).st = 0 ∧ s.ctxLive c = true ∧ rgBad b = false ∧
      s.rgRangeOk c (field b 0 8) (field b 8 8) = true ∧ s.entRunning = true) ∧
    (∃ (s : State) (i : Fin 1048576), s.linksClean = true ∧ s.fld (Reg.rgStat 0) 31 31 = 0 ∧
      (s.region i.val).st ≠ 0) ∧
    (∃ (s : State) (i : Fin 1048576) (b : Bytes), s.linksClean = true ∧ s.fld (Reg.rgStat 0) 31 31 = 0 ∧
      (s.region i.val).st = 0 ∧ b = s.rgStaged 0 ∧ s.ctxLive (field b 16 1 % 16) = true ∧ rgBad b = false ∧
      s.rgRangeOk (field b 16 1 % 16) (field b 0 8) (field b 8 8) = false) ∧
    (∃ (s : State) (i : Fin 1048576), s.linksClean = true ∧ s.fld (Reg.rgStat 0) 31 31 = 0 ∧
      (s.region i.val).st = 1) ∧
    (∃ (s : State) (i : Fin 1048576), (s.region i.val).st = 2 ∧ (s.region i.val).inflight = 0) ∧
    (∃ (s : State) (i : Fin 1048576), (s.region i.val).st = 2 ∧ (s.region i.val).inflight ≠ 0) ∧
    (∃ (s : State), s.linksClean = true ∧ s.fld (Reg.rgStat 0) 31 31 = 0) ∧
    (∃ (s : State), s.linksClean = true ∧ s.fld (Reg.rgStat 0) 31 31 = 0) :=
  ⟨⟨{ st [(Reg.ctxStat 0, 0x20000000), (Reg.entStat, 0x20000000), (Reg.cnData 0 0, 0), (Reg.cnData 0 1, 1), (Reg.cnData 0 3, 16)] with mgmt := { Mgmt.zero with peers := [(0, [])] } },
    0, _, _, by decide, rfl, by decide, rfl, by decide⟩,
   ⟨{ st [(Reg.ctxStat 0, 0x20000000), (Reg.entStat, 0x20000000), (Reg.cnData 0 0, 0x800000), (Reg.cnData 0 1, 1), (Reg.cnData 0 3, 16)] with mgmt := { Mgmt.zero with peers := [(0, [])] } },
     0, _, _, by decide, rfl, by decide, rfl, by decide⟩,
   ⟨{ State.reset with conns := [(0, { Conn.zero with st := .listen })] }, 0, by decide⟩,
   ⟨State.reset, 0, _, by decide, by decide, rfl, by decide, by decide⟩,
   ⟨State.reset, 0, by decide, by decide⟩,
   ⟨State.reset, 0, by decide, by decide⟩,
   ⟨State.reset, 0, .cnPause 0, 3, .established, .paused, (by simp), by decide, by decide⟩,
   ⟨st [(Reg.ctxStat 0, 0x20000000), (Reg.entStat, 0x20000000), (Reg.rgData 0 0, 0x40000000), (Reg.rgData 0 2, 64),
     (Reg.rgData 0 4, 0x700)], 0, _, _, by decide, by decide, rfl, rfl, by decide +kernel⟩,
   ⟨{ State.reset with regions := [(0, { Region.zero with st := 1, inflight := 0 })] }, 0, by decide⟩,
   ⟨st [(Reg.ctxStat 0, 0x20000000), (Reg.entStat, 0x20000000), (Reg.rgData 0 0, 0xFFFFFFC0), (Reg.rgData 0 1,
     0x7FFF), (Reg.rgData 0 2, 64), (Reg.rgData 0 4, 0x700)], 0, _, by decide, by decide, by decide, rfl,
     by decide +kernel⟩,
   ⟨{ State.reset with regions := [(0, { Region.zero with st := 1, inflight := 0 })] }, 0, by decide⟩,
   ⟨{ State.reset with regions := [(0, { Region.zero with st := 2, inflight := 0 })] }, 0, by decide, by decide⟩,
   ⟨{ State.reset with regions := [(0, { Region.zero with st := 2, inflight := 1 })] }, 0, by decide, by decide⟩,
   ⟨State.reset, by decide, by decide⟩,
   ⟨State.reset, by decide, by decide⟩⟩

/-- States and operands that meet the hypotheses of each clause of Obligations.Handshake. -/
theorem witness_Handshake :
    (∃ (s : State) (p : Packet) (i : Nat), s.connHere p = true ∧ p.op = 9 ∧ s.listener p = some i ∧
      p.payload.length = 1296 ∧ s.katOk .publicKey = true ∧ s.keyUse 4 3 .hubSecure none = Code.ok ∧
      s.entRunning = true) ∧
    (∃ (s : State) (p : Packet), s.connHere p = true ∧ p.op = 9 ∧ s.listener p = none) ∧
    (∃ (s : State) (p : Packet) (k : Bytes) (th : Bytes), s.connHere p = true ∧ p.op = 10 ∧
      (s.conn p.dconn).init = true ∧ (s.conn p.dconn).peer = p.src ∧ (s.conn p.dconn).st = .handshake ∧
      fromBE (p.payload.take 4) = (s.conn p.dconn).pairId.toNat ∧ s.peerKey (s.conn p.dconn).peer = some k ∧
      th = hsTh (s.conn p.dconn).hsInit p.payload) ∧
    (∃ (s : State) (p : Packet) (i : Nat) (th : Bytes) (c : Conn) (d : Conn), c = s.conn i ∧
      d = (s.hsFinish i p th).conn i) ∧
    (∃ (s : State) (p : Packet) (q : Packet), s.connHere p = true ∧ p.op = 10 ∧ (s.conn p.dconn).init = true ∧
      (s.conn p.dconn).peer = p.src ∧ (s.conn p.dconn).st = .established ∧ (s.conn p.dconn).hsResp = p.payload ∧
      (s.conn p.dconn).hsLast = some q) ∧
    (∃ (s : State) (p : Packet) (k : Bytes) (c : Conn), c = s.conn p.dconn ∧ s.connHere p = true ∧ p.op = 11 ∧
      c.init = false ∧ c.st = .handshake ∧ c.peer = p.src ∧ c.peerConn.toNat = p.sconn ∧ s.peerKey c.peer = some k) ∧
    (∃ (s : State) (n : BitVec 16) (p : Packet), (s.conn n.toNat).hsLast = some p ∧
      ((s.conn n.toNat).st = .handshake ∨ (s.conn n.toNat).st = .established)) :=
  ⟨⟨{ st [(Reg.entStat, 0x20000000)] with conns := [(0, { Conn.zero with st := .listen })], keys := [(8, anyKey)] },
    pkt 9 (List.replicate 1296 0), 0, by decide, by decide, (by decide +kernel), List.length_replicate,
    by decide +kernel⟩,
   ⟨State.reset, pkt 9 [], by decide⟩,
   ⟨{ State.reset with conns := [(0, { Conn.zero with st := .handshake, init := true })], mgmt := { Mgmt.zero with peers := [(0, [])] } },
     pkt 10 [], _, _, by decide, by decide, by decide, by decide, by decide, by decide, rfl, rfl⟩,
   ⟨State.reset, pkt 11 [], 0, [], _, _, rfl, rfl⟩,
   ⟨{ State.reset with conns := [(0, { Conn.zero with st := .established, init := true, hsLast := some (pkt 11 []) })] },
     pkt 10 [], _, by decide, by decide, by decide, by decide, by decide, by decide, rfl⟩,
   ⟨{ State.reset with conns := [(0, { Conn.zero with st := .handshake })], mgmt := { Mgmt.zero with peers := [(0, [])] } },
     pkt 11 [], _, _, rfl, by decide, by decide, by decide, by decide, by decide, by decide, rfl⟩,
   ⟨{ State.reset with conns := [(0, { Conn.zero with st := .established, hsLast := some (pkt 11 []) })] }, 0, _,
     rfl, by decide⟩⟩

/-- States and operands that meet the hypotheses of each clause of Obligations.Transfers. -/
theorem witness_Transfers :
    (∃ (s : State) (l : Fin 4) (n : BitVec 16), s.linksClean = true ∧ l.val < s.part.ldCount ∧
      connLd n.toNat = l.val ∧ (s.conn n.toNat).st = .established ∧ (s.conn n.toNat).sent ≠ []) ∧
    (∃ (s : State) (l : Fin 4), l.val < s.part.ldCount) ∧
    (∃ (s : State) (n : BitVec 16) (c : Conn), c = s.conn n.toNat ∧ c.st = .established ∧ c.sqHead ≠ c.sqTail ∧
      (s.workAt c c.sqHead).flags.getLsbD 1 = false ∧ c.sent ≠ [] ∧ s.linksClean = true) ∧
    (∃ (s : State) (i : Nat) (c : Conn) (w : WorkEntry), c = s.conn i ∧ w = s.workAt c c.sqHead ∧
      s.entryCheck c w (s.hubBytes (c.sqOff + 64 * (c.sqHead % c.sqSize)) 64) = Code.ok ∧ w.op ≠ 4) ∧
    (∃ (s : State) (c : Conn) (w : WorkEntry) (raw : Bytes), s.entryCheck c w raw = Code.ok) ∧
    (∃ (s : State) (n : BitVec 16) (c : Conn) (w : WorkEntry), c = s.conn n.toNat ∧ c.nextEntry = some w ∧
      c.st = .established ∧ c.sent ≠ [] ∧ c.mayNew (w.first + w.sent) (w.pktLen w.sent) = true) ∧
    (∃ (s : State) (n : BitVec 16) (c : Conn) (w : WorkEntry), c = s.conn n.toNat ∧ c.nextEntry = some w ∧
      c.st = .established ∧ c.mayNew (w.first + w.sent) (w.pktLen w.sent) = false) ∧
    (∃ (s : State) (i : Nat) (k : Nat) (w : WorkEntry) (c : Conn) (r : Line), c = s.conn i ∧
      r = s.pktData (Fin.ofNat 4 (connLd i)) w k ∧ r.stall = false ∧ r.code = Code.ok) ∧
    (∃ (c : Conn) (e : Nat) (n : Nat), c.mayNew e n = true) ∧
    (∃ (s : State) (p : Packet), s.connHere p = true ∧ 1 ≤ p.op ∧ p.op ≤ 5 ∧ s.connNamed p = false) ∧
    (∃ (s : State) (p : Packet) (e : Nat), s.connHere p = true ∧ 1 ≤ p.op ∧ p.op ≤ 5 ∧ s.connNamed p = true ∧
      nearest (s.conn p.dconn).cum p.psn = some e ∧ e < (s.conn p.dconn).cum + 1024 ∧
      (s.conn p.dconn).got e = false) ∧
    (∃ (s : State) (p : Packet) (e : Nat), s.connHere p = true ∧ 1 ≤ p.op ∧ p.op ≤ 5 ∧ s.connNamed p = true ∧
      nearest (s.conn p.dconn).cum p.psn = some e ∧ e < (s.conn p.dconn).cum + 1024 ∧ (s.conn p.dconn).got e = true) ∧
    (∃ (s : State) (c : Conn) (p : Packet), s.regionRefuses c p = none) ∧
    (∃ (s : State) (n : BitVec 16) (r : ReadReq) (rs : List ReadReq) (c : Conn), c = s.conn n.toNat ∧
      c.reads = r :: rs ∧ c.st = .established ∧ r.epsn < c.cum) ∧
    (∃ (s : State) (n : BitVec 16) (r : ReadReq) (rs : List ReadReq), (s.conn n.toNat).reads = r :: rs ∧
      (s.conn n.toNat).cum ≤ r.epsn) :=
  ⟨⟨{ State.reset with conns := [(0, { Conn.zero with st := .established, sent := [⟨0, 0, 0, pkt 1 [], false, 0⟩] })] },
    0, 0, by decide⟩,
   ⟨State.reset, 0, by decide⟩,
   ⟨{ State.reset with conns := [(0, { Conn.zero with st := .established, sqTail := 1, sent := [⟨0, 0, 0, pkt 1 [], false, 0⟩] })] },
     0, _, rfl, by decide⟩,
   ⟨{ { State.reset with conns := [(0, { Conn.zero with st := .established })] } with hubMem := [(0, 1), (4, 64)], regions := [(0, { Region.zero with st := 1, length := 64, rights := 7 })] },
     0, _, _, rfl, rfl, (by decide +kernel), (by decide +kernel)⟩,
   ⟨{ State.reset with regions := [(0, { Region.zero with st := 1, length := 64, rights := 7 })] }, Conn.zero,
     { workZ with op := 1, len := 64 }, [], (by decide +kernel)⟩,
   ⟨{ State.reset with conns := [(0, { Conn.zero with st := .established, sent := [⟨0, 0, 0, pkt 1 [], false, 0⟩], window := 64, nextPsn := 2, work := [{ workZ with first := 1, pkts := 1, len := 64 }] })] },
     0, _, _, rfl, rfl, by decide⟩,
   ⟨{ State.reset with conns := [(0, { Conn.zero with st := .established, work := [{ workZ with pkts := 1, len := 64 }] })] },
     0, _, _, rfl, rfl, by decide, by decide⟩,
   ⟨State.reset, 0, 0, workZ, _, _, rfl, rfl, (by decide +kernel), (by decide +kernel)⟩,
   ⟨Conn.zero, 0, 0, by decide⟩,
   ⟨State.reset, pkt 1 [], by decide⟩,
   ⟨{ State.reset with conns := [(0, { Conn.zero with st := .established })] }, pkt 1 [], 0, by decide⟩,
   ⟨{ State.reset with conns := [(0, { Conn.zero with st := .established, cum := 1 })] }, pkt 1 [], 0, by decide⟩,
   ⟨{ State.reset with regions := [(0, { Region.zero with st := 1, rights := 7 })] }, Conn.zero, pkt 1 [], by decide⟩,
   ⟨{ State.reset with conns := [(0, { Conn.zero with st := .established, cum := 1, reads := [⟨0, 0, 0, 64⟩] })] },
     0, _, _, _, rfl, rfl, by decide, by decide⟩,
   ⟨{ State.reset with conns := [(0, { Conn.zero with st := .established, reads := [⟨0, 0, 0, 64⟩] })] }, 0, _, _,
     rfl, by decide⟩⟩

/-- States and operands that meet the hypotheses of each clause of Obligations.ConnAnswersAndBarriers. -/
theorem witness_ConnAnswersAndBarriers :
    (∃ (s : State) (n : BitVec 16), (s.conn n.toNat).ackDue = true ∧ (s.conn n.toNat).st = .established) ∧
    (∃ (s : State) (u : State) (p : Packet) (m : Nat) (cum : Nat), s.connHere p = true ∧ p.op = 6 ∧
      s.connNamed p = true ∧ nearest ((s.conn p.dconn).lastAsn.getD 0) p.psn = some m ∧ (∀ a,
      (s.conn p.dconn).lastAsn = some a → a < m) ∧
      u = ((s.setConn p.dconn { s.conn p.dconn with lastAsn := some m, hsLast := none }).count64 (Reg.cnCnt (connLd p.dconn) 0x00) 1) ∧
      cum = fromBE (sub p.payload 0 6)) ∧
    (∃ (s : State) (p : Packet) (m : Nat) (a : Nat), s.connHere p = true ∧ p.op = 6 ∧ s.connNamed p = true ∧
      (s.conn p.dconn).lastAsn = some a ∧ nearest a p.psn = some m ∧ m ≤ a) ∧
    (∃ (s : State) (p : Packet) (m : Nat), s.connHere p = true ∧ p.op = 7 ∧ s.connNamed p = true ∧
      nearest ((s.conn p.dconn).lastAsn.getD 0) p.psn = some m ∧ (∀ a, (s.conn p.dconn).lastAsn = some a → a < m)) ∧
    (∃ (s : State) (i e : Nat) (c : Byte) (x : SentPkt), (c = Code.contextUnavailable ∨ c = Code.retryAfter) ∧
      x ∈ ((s.nakked i e c).conn i).sent ∧ x.epsn = e) ∧
    (∃ (s : State) (p : Packet) (i : Nat) (is : List Nat), s.connHere p = true ∧ p.op = 8 ∧
      (s.connsWhere (fun c => decide (c.st = .established ∨ c.st = .paused) && decide (c.peer = p.src) && decide (c.peerConn.toNat = p.sconn)) = i :: is)) ∧
    (∃ (s : State) (u : State) (n : BitVec 16) (x : SentPkt) (xs : List SentPkt), (s.conn n.toNat).sent = x :: xs ∧
      (s.conn n.toNat).st = .established ∧ u = (s.cnCount (connLd n.toNat) 0x2C).toCredit n.toNat ∧ x.held = true) ∧
    (∃ (s : State) (u : State) (n : BitVec 16) (x : SentPkt) (xs : List SentPkt), (s.conn n.toNat).sent = x :: xs ∧
      (s.conn n.toNat).st = .established ∧ u = (s.cnCount (connLd n.toNat) 0x2C).toCredit n.toNat ∧ x.held = false) ∧
    (∃ (x : SentPkt) (b : Bool), 7 < x.tries + b2n b) ∧
    (∃ (s : State) (n : BitVec 16) (x : SentPkt), (s.conn n.toNat).sent.find? (fun y => y.held) = some x ∧
      (s.conn n.toNat).st = .established) ∧
    (∃ (s : State) (i : Nat) (x : SentPkt) (b : Bool), (∀ w, w ∈ (s.conn i).work → ¬ (w.first ≤ x.epsn ∧
      x.epsn < w.first + w.pkts)) ∧ x.tries + b2n b ≤ 7) ∧
    (∃ (s : State) (n : BitVec 16), (s.conn n.toNat).st = .established ∧ (s.conn n.toNat).hinted = true) ∧
    (∃ (c : Byte) (n : Byte) (i : BitVec 16) (cmd : Instr) (ok : Bool), (cmd, ok) ∈ [(Instr.barReleaseReceive c n i,
      true), (.barCancelReceive c n i, false)]) ∧
    (∃ (s : State) (c : Fin 16) (n : Fin 256), s.fld (Reg.bwCfg c.val n.val) 31 31 = 1 ∧
      0 < s.fld (Reg.bwCfg c.val n.val) 9 0 ∧
      s.fld (Reg.bwCfg c.val n.val) 9 0 ≤ s.fld (Reg.bwCfg c.val n.val) 25 16 ∧ s.barCoord c.val = false) :=
  ⟨⟨{ State.reset with conns := [(0, { Conn.zero with st := .established, ackDue := true })] }, 0, by decide,
    by decide⟩,
   ⟨{ State.reset with conns := [(0, { Conn.zero with st := .established })] }, _, pkt 6 [], 0, _, by decide,
     by decide, by decide, by decide, (fun a h => nomatch (show (none : Option Nat) = some a from h)), rfl, rfl⟩,
   ⟨{ State.reset with conns := [(0, { Conn.zero with st := .established, lastAsn := some 0 })] }, pkt 6 [], 0, 0,
     by decide⟩,
   ⟨{ State.reset with conns := [(0, { Conn.zero with st := .established })] }, pkt 7 [], 0, by decide, by decide,
     by decide, by decide, (fun a h => nomatch (show (none : Option Nat) = some a from h))⟩,
   ⟨{ State.reset with conns := [(0, { Conn.zero with sent := [⟨0, 0, 0, pkt 1 [], false, 0⟩] })] }, 0, 0,
     Code.retryAfter, ⟨0, 0, 0, pkt 1 [], true, 0⟩, by decide, by decide, by decide⟩,
   ⟨{ State.reset with conns := [(0, { Conn.zero with st := .established })] }, pkt 8 [], 0, [], by decide⟩,
   ⟨{ State.reset with conns := [(0, { Conn.zero with st := .established, sent := [⟨0, 0, 0, pkt 1 [], true, 0⟩] })] },
     _, 0, _, _, rfl, by decide, rfl, by decide⟩,
   ⟨{ State.reset with conns := [(0, { Conn.zero with st := .established, sent := [⟨0, 0, 0, pkt 1 [], false, 0⟩] })] },
     _, 0, _, _, rfl, by decide, rfl, by decide⟩,
   ⟨⟨0, 0, 0, pkt 1 [], false, 7⟩, true, by decide⟩,
   ⟨{ State.reset with conns := [(0, { Conn.zero with st := .established, sent := [⟨0, 0, 0, pkt 1 [], true, 0⟩] })] },
     0, _, rfl, by decide⟩,
   ⟨State.reset, 0, ⟨0, 0, 0, pkt 1 [], false, 6⟩, true, by decide, by decide⟩,
   ⟨{ State.reset with conns := [(0, { Conn.zero with st := .established, hinted := true })] }, 0, by decide,
     by decide⟩,
   ⟨0, 0, 0, .barReleaseReceive 0 0 0, true, (by simp)⟩,
   ⟨st [(Reg.bwCfg 0 0, 0x80010001), (Reg.bwGrp 0, 0x00010000)], 0, 0, by decide⟩⟩

/-- States and operands that meet the hypotheses of each clause of Obligations.Contexts. -/
theorem witness_Contexts :
    (∃ (s : State) (c : Fin 16), s.cxBusy = false ∧ s.createCheck c.val = Code.ok ∧ s.hss.run = none ∧
      s.entRunning = true ∧ (s.freshSlots [slotMem c.val, slotInt c.val, slotWrap c.val]).2 = Code.ok) ∧
    (∃ (s : State) (c : Fin 16) (x : State × Byte), s.cxBusy = false ∧ s.createCheck c.val = Code.ok ∧
      s.hss.run = none ∧ s.entRunning = true ∧ x = s.freshSlots [slotMem c.val, slotInt c.val, slotWrap c.val] ∧
      x.2 ≠ Code.ok) ∧
    (∃ (s : State) (c : Fin 16), s.cxBusy = false ∧ s.createCheck c.val ≠ Code.ok) ∧
    (∃ (s : State) (c : Nat), s.createCheck c = Code.ok) ∧
    (∃ (s : State) (t : State) (c : Nat) (ns : List Nat), c < 16 ∧ (ns = [slotMem c, slotInt c,
      slotWrap c] ∨ ns = [slotWrap c]) ∧ s.freshSlots ns = (t, Code.ok)) ∧
    (∃ (c : Nat), c < 16) ∧
    (∃ (s : State) (c : Fin 16), s.cxBusy = false ∧ s.cst c.val = 1 ∧ s.roundOpen c.val = false ∧ s.hss.run = none) ∧
    (∃ (s : State) (c : Fin 16), s.cxBusy = false ∧ (s.cst c.val ≠ 1 ∨ s.roundOpen c.val = true)) ∧
    (∃ (s : State) (c : Fin 16), (s.ctx c.val).op = .park ∧ s.cst c.val = 2 ∧ s.ctxDrains c.val = false ∧
      s.banksGone c.val = true ∧ allStrands.any (s.boundTo c.val) = false) ∧
    (∃ (s : State) (c : Fin 16), (s.ctx c.val).op = .park ∧ s.cst c.val = 2 ∧ s.ctxDrains c.val = true) ∧
    (∃ (s : State) (c : Fin 16), s.cxBusy = false ∧ s.cst c.val = 3 ∧ s.slotsTaken [slotWrap c.val] = false ∧
      s.hss.run = none ∧ s.entRunning = true ∧ (s.freshSlots [slotWrap c.val]).2 = Code.ok) ∧
    (∃ (c : Nat), c < 16) ∧
    (∃ (s : State) (c : Fin 16), s.cxBusy = false ∧ s.cst c.val ≠ 0 ∧ s.cst c.val ≠ 4) ∧
    (∃ (c : Nat), c < 16) ∧
    (∃ (s : State) (c : Fin 16), s.cst c.val = 4 ∧ s.banksGone c.val = true) ∧
    (∃ (c : Nat), c < 16) ∧
    (∃ (s : State) (c : Fin 16), s.cst c.val = 4 ∧ s.banksGone c.val = false) :=
  ⟨⟨{ st [(Reg.entStat, 0x20000000), (Reg.lcState, 2)] with boot := { Boot.zero with profile := some ⟨[], List.replicate 0x54 0 ++ [16], [], []⟩ }, ent := { EntSt.zero with ready := [1, 2, 3, 4, 5, 6] } },
    0, by decide +kernel⟩,
   ⟨failSt, 0, _, by decide, (by decide +kernel), by decide, by decide, rfl, failSt_code 0 rfl⟩,
   ⟨State.reset, 0, by decide, (by decide +kernel)⟩,
   ⟨{ st [(Reg.lcState, 2)] with boot := { Boot.zero with profile := some ⟨[], List.replicate 0x54 0 ++ [16], [], []⟩ } },
     0, (by decide +kernel)⟩,
   ⟨{ st [(Reg.entStat, 0x20000000)] with ent := { EntSt.zero with ready := [1, 2, 3, 4, 5, 6] } }, _, 0, [slotMem 0,
     slotInt 0, slotWrap 0], by decide, by decide, Prod.ext rfl (by decide +kernel)⟩,
   ⟨0, by decide⟩,
   ⟨st [(Reg.ctxStat 0, 0x20000000), (Reg.entStat, 0x20000000)], 0, by decide⟩,
   ⟨State.reset, 0, by decide, by decide⟩,
   ⟨{ st [(Reg.ctxStat 0, 0x40000000), (Reg.entStat, 0x20000000)] with ctxs := [(0, { CtxSt.zero with op := .park })] },
     0, by decide +kernel⟩,
   ⟨{ st [(Reg.ctxStat 0, 0x40000000), (Reg.strandStat 0 0, 0x40000000)] with ctxs := [(0, { CtxSt.zero with op := .park })] },
     0, by decide +kernel⟩,
   ⟨{ st [(Reg.ctxStat 0, 0x60000000), (Reg.entStat, 0x20000000)] with ent := { EntSt.zero with ready := [1, 2, 3, 4, 5, 6] } },
     0, by decide +kernel⟩,
   ⟨0, by decide⟩,
   ⟨st [(Reg.ctxStat 0, 0x20000000), (Reg.entStat, 0x20000000)], 0, by decide⟩,
   ⟨0, by decide⟩,
   ⟨st [(Reg.ctxStat 0, 0x80000000), (Reg.entStat, 0x20000000)], 0, by decide, (by decide +kernel)⟩,
   ⟨0, by decide⟩,
   ⟨st [(Reg.ctxStat 0, 0x80000000), (Reg.bankOwner 0 0, 0x40000100)], 0, by decide, (by decide +kernel)⟩⟩

/-- States and operands that meet the hypotheses of each clause of Obligations.GranulesAndEvaluationKeys. -/
theorem witness_GranulesAndEvaluationKeys :
    (∃ (s : State), s.grCheck false = Code.ok ∧ s.grAny s.grStart s.grCount (fun _ => true) = false) ∧
    (∃ (a : Nat), a % 0x200000 = 0) ∧
    (∃ (s : State), s.grCheck false = Code.ok ∧ s.grAny s.grStart s.grCount (fun _ => true) = true) ∧
    (∃ (s : State), s.grCheck false = Code.ok ∧
      s.grAny s.grStart s.grCount (fun o => decide (o ≠ s.grOwner)) = false ∧ s.grHeld s.grStart s.grCount = false) ∧
    (∃ (s : State), s.grCheck false = Code.ok ∧ s.grHeld s.grStart s.grCount = true) ∧
    (∃ (s : State), s.grCheck true = Code.ok) ∧
    (∃ (s : State) (c : Fin 16) (i : Fin 64), s.ctxLive c.val = true ∧ (s.evkEnt c.val i.val).st = 0 ∧
      s.ekBad c.val s.ekStaged = false) ∧
    (∃ (s : State) (c : Fin 16) (i : Fin 64), s.ctxLive c.val = true ∧ (s.evkEnt c.val i.val).st ≠ 0) ∧
    (∃ (s : State) (c : Fin 16) (i : Fin 64), s.ctxLive c.val = true ∧ (s.evkEnt c.val i.val).st = 1) ∧
    (∃ (s : State) (c : Fin 16), s.ctxLive c.val = true) ∧
    (∃ (s : State) (c : Fin 16) (i : Fin 64), (s.evkEnt c.val i.val).st = 2 ∧ (s.evkEnt c.val i.val).inuse = 0 ∧
      s.logFits c.val 72 = true) ∧
    (∃ (s : State) (c : Fin 16) (i : Fin 64), (s.evkEnt c.val i.val).st = 2 ∧ (s.evkEnt c.val i.val).inuse = 0 ∧
      s.logFits c.val 72 = false) :=
  ⟨⟨st [(Reg.bwGrCount, 1), (Reg.bwGrCtl, 0x10000000)], (by decide +kernel), (by decide +kernel)⟩,
   ⟨0, by decide⟩,
   ⟨{ st [(Reg.bwGrCount, 1), (Reg.bwGrCtl, 0x10000000)] with granule := [(0, 3)] }, (by decide +kernel),
     (by decide +kernel)⟩,
   ⟨{ st [(Reg.bwGrCount, 1), (Reg.bwGrCtl, 0x10000000)] with granule := [(0, 16)] }, by decide +kernel⟩,
   ⟨{ st [(Reg.bwGrCount, 1), (Reg.bwGrCtl, 0x10000000)] with regions := [(0, { Region.zero with st := 1, length := 64 })] },
     (by decide +kernel), (by decide +kernel)⟩,
   ⟨State.reset, (by decide +kernel)⟩,
   ⟨st [(Reg.ctxStat 0, 0x20000000), (Reg.ekData 2, 64), (Reg.ekData 5, 0x10000), (Reg.ekData 6, 1)], 0, 0,
     by decide +kernel⟩,
   ⟨{ st [(Reg.ctxStat 0, 0x20000000)] with evk := [(0, { EvkEnt.zero with st := 1 })] }, 0, 0, by decide, by decide⟩,
   ⟨{ st [(Reg.ctxStat 0, 0x20000000)] with evk := [(0, { EvkEnt.zero with st := 1 })] }, 0, 0, by decide, by decide⟩,
   ⟨{ st [(Reg.ctxStat 0, 0x20000000)] with evk := [(0, { EvkEnt.zero with st := 1 })] }, 0, by decide⟩,
   ⟨{ st [(Reg.ctxStat 0, 0x20000000)] with evk := [(0, { EvkEnt.zero with st := 2 })] }, 0, 0, by decide⟩,
   ⟨{ st [(Reg.ctxStat 0, 0x20000000)] with ctxs := [(0, { CtxSt.zero with log := [⟨0, 0x40000, []⟩] })], evk := [(0, { EvkEnt.zero with st := 2 })] },
     0, 0, by decide⟩⟩

/-- States and operands that meet the hypotheses of each clause of Obligations.KeySlots. -/
theorem witness_KeySlots :
    (∃ (s : State) (n : Fin 256), s.hss.run = none ∧ s.katOk .keyStore = true ∧ noGenerate n.val = false ∧
      s.attrFits n.val = true ∧ s.pst n.val = 0 ∧ s.entRunning = true ∧ s.reseedRoot.entRunning = true) ∧
    (∃ (s : State) (n : Fin 256), s.hss.run = none ∧ s.katOk .keyStore = true ∧ noGenerate n.val = true) ∧
    (∃ (s : State) (n : Fin 256), s.hss.run = none ∧ s.katOk .keyStore = true ∧ s.pst n.val = 1) ∧
    (∃ (k : KeyHalf), bit k.attr 26 = true) ∧
    (∃ (s : State) (n : Fin 256), s.hss.run = none ∧ s.katOk .keyStore = true ∧ s.pst n.val = 2 ∧
      (memSlot n.val = false ∨ (s.active n.val).valid = false)) ∧
    (∃ (s : State) (n : Fin 256), s.hss.run = none ∧ s.katOk .keyStore = true ∧
      (s.pst n.val ≠ 2 ∨ (memSlot n.val = true ∧ (s.active n.val).valid = true))) ∧
    (∃ (s : State), s.hss.run = none ∧ s.katOk .keyStore = true) ∧
    (∃ (s : State) (n : Fin 256), s.hss.run = none ∧ 32 ≤ n.val) ∧
    (∃ (s : State) (n : Fin 256), s.hss.run = none ∧ n.val < 32) ∧
    (∃ (s : State) (n : Nat) (u : Nat) (m : Master) (c : Option Nat), s.keyUse n u m c = Code.ok) :=
  ⟨⟨{ st [(Reg.entStat, 0x20000000)] with ent := { EntSt.zero with ready := [1, 2, 3, 4, 5, 6] }, keys := [(9, { KeyHalf.zero with attr := (slotAttr 4).getD 0 })] },
    4, by decide +kernel⟩,
   ⟨State.reset, 0, by decide⟩,
   ⟨{ State.reset with pstate := [(4, 1)] }, 4, by decide⟩,
   ⟨{ KeyHalf.zero with attr := 0x04000000 }, by decide⟩,
   ⟨{ State.reset with pstate := [(4, 2)] }, 4, by decide⟩,
   ⟨State.reset, 4, by decide⟩,
   ⟨State.reset, by decide, by decide⟩,
   ⟨State.reset, 40, by decide, by decide⟩,
   ⟨State.reset, 0, by decide, by decide⟩,
   ⟨{ State.reset with keys := [(8, { KeyHalf.zero with attr := 0x80010101 })] }, 4, 0, .hubSecure, none, by decide⟩⟩

/-- States and operands that meet the hypotheses of each clause of Obligations.KeyStatements. -/
theorem witness_KeyStatements :
    (∃ (s : State) (n : Fin 256) (b : Bytes), s.hss.run = none ∧ s.katOk .keyStore = true ∧
      (s.active n.val).valid = true ∧ s.signCheck = Code.ok ∧
      b = s.statement n.val (s.hubBytes (s.fld Reg.keyBuf 25 0) 32) ∧ s.keyBufOk b.length = true ∧
      s.hss.tree = true ∧ s.entRunning = true) ∧
    (∃ (s : State) (n : Fin 256) (b : Bytes), s.hss.run = none ∧ s.katOk .keyStore = true ∧
      (s.active n.val).valid = true ∧ s.signCheck = Code.ok ∧
      b = s.statement n.val (s.hubBytes (s.fld Reg.keyBuf 25 0) 32) ∧ s.keyBufOk b.length = true ∧
      s.hss.tree = false) ∧
    (∃ (s : State) (n : Fin 256), s.hss.run = none ∧ s.katOk .keyStore = true ∧ (s.active n.val).valid = true ∧
      s.tampered = true) ∧
    (∃ (s : State), s.hss.block ≤ 64 ∧ s.hss.block ≤ s.hss.counter) ∧
    (∃ (s : State) (n : Fin 256), s.hss.run = none ∧ s.katOk .keyStore = true ∧ (s.active n.val).valid = true ∧
      s.tampered = false ∧ 2 < (s.active n.val).typ ∧ s.keyBufOk (s.active n.val).public.length = true) ∧
    (∃ (s : State) (n : Fin 256), s.hss.run = none ∧ s.katOk .keyStore = true ∧ (s.active n.val).valid = true ∧
      s.tampered = false ∧ (s.active n.val).typ ≤ 2) :=
  ⟨⟨{ st [(Reg.entStat, 0x20000000)] with keys := [(2, { KeyHalf.zero with attr := 0x80000000 }), (4, { KeyHalf.zero with attr := 0x80000000 })], hss := ⟨0, 1, true, none⟩ },
    1, _, by decide, by decide, by decide, by decide, rfl,
    (by rw [buf_ok _ _ (by decide)]; simp [State.statement, State.signBoth, pad_length, le_length, be_length, pad8, shaBytes]; decide),
    by decide, by decide⟩,
   ⟨{ st [(Reg.entStat, 0x20000000)] with keys := [(2, { KeyHalf.zero with attr := 0x80000000 }), (4, { KeyHalf.zero with attr := 0x80000000 })], hss := ⟨0, 0, false, none⟩ },
     1, _, by decide, by decide, by decide, by decide, rfl,
     (by rw [buf_ok _ _ (by decide)]; simp [State.statement, State.signBoth, pad_length, le_length, be_length, pad8, shaBytes]; decide),
     by decide⟩,
   ⟨{ st [(Reg.keyStat, 0x10000000)] with keys := [(2, { KeyHalf.zero with attr := 0x80000000 }), (4, { KeyHalf.zero with attr := 0x80000000 })], hss := ⟨0, 1, true, none⟩ },
     1, by decide⟩,
   ⟨State.reset, by decide, by decide⟩,
   ⟨{ State.reset with keys := [(2, { KeyHalf.zero with attr := 0xB0000000 })] }, 1, by decide, by decide, by decide,
     by decide, by decide, (by rw [buf_ok _ _ (by decide), public_p384 _ (by decide)]; decide)⟩,
   ⟨{ State.reset with keys := [(2, { KeyHalf.zero with attr := 0x80000000 }), (4, { KeyHalf.zero with attr := 0x80000000 })], hss := ⟨0, 1, true, none⟩ },
     1, by decide⟩⟩

/-- States and operands that meet the hypotheses of each clause of Obligations.EntropySource. -/
theorem witness_EntropySource :
    (∃ (s : State) (u : State) (t : State) (m : OscMask) (x : CombTest) (us : Nat), s.entState = 0 ∧
      s.pins.auxOk = true ∧ u = (s.startupHealth m x).setInUse (s.oscInUse &&& (255 - (m.rct ||| m.apt).toNat)) ∧
      t = u.takeBlocks 3 ∧ 6 ≤ oscCount u.oscInUse ∧ u.combBad = false ∧ us ≤ 20000 ∧ 6 ≤ oscCount t.oscInUse ∧
      t.combBad = false ∧ t.ent.taken.length = 3) ∧
    (∃ (s : State) (u : State) (m : OscMask) (x : CombTest) (us : Nat), s.entState = 0 ∧ s.pins.auxOk = true ∧
      u = (s.startupHealth m x).setInUse (s.oscInUse &&& (255 - (m.rct ||| m.apt).toNat)) ∧
      (oscCount u.oscInUse < 6 ∨ u.combBad = true ∨ 20000 < us)) ∧
    (∃ (s : State), s.fld Reg.entStat 23 22 < 3 ∧ s.fld Reg.entCtl 31 31 = 0) ∧
    (∃ (s : State), s.fld Reg.entStat 23 22 = 3) ∧
    (∃ (s : State) (o : Fin 8) (rct : Bool) (apt : Bool), (rct || apt) = true ∧ s.entState = 1 ∧
      s.oscInUse.testBit o.val = true) ∧
    (∃ (s : State) (rct : Bool) (apt : Bool), (rct || apt) = true ∧ s.entState = 1) ∧
    (∃ (s : State), s.entState = 2 ∧ s.fld Reg.entStat 23 22 < 3) ∧
    (∃ (s : State), s.entState = 3) ∧
    (∃ (s : State) (a : Acc), s.accessCheck a false = none ∧ s.linksClean = true ∧ a.addr = Reg.entDataLo ∧
      s.entState = 1) ∧
    (∃ (s : State) (a : Acc), s.accessCheck a false = none ∧ s.linksClean = true ∧ a.addr = Reg.entDataLo ∧
      s.entState ≠ 1) ∧
    (∃ (s : State), s.entState ≠ 1) ∧
    (∃ (s : State) (t : State) (p : Fin 37), s.entState = 1 ∧ t = (if p.val = 32 then s.reseedRoot else s) ∧
      t.entState = 1) ∧
    (∃ (s : State), s.entState = 1) ∧
    (∃ (s : State), s.entState = 1 ∧ 2 ≤ s.ent.ready.length) ∧
    (∃ (x : EntSt), x.fill < 1023) ∧
    (∃ (x : EntSt), x.fill = 1023) ∧
    (∃ (s : State) (p : Fin 37), s.entState = 1 ∧ 2 ^ 20 ≤ s.ent.blocks.get (fun _ => 0) p.val) :=
  ⟨⟨{ st [(Reg.entStat, 0xFF)] with pins := { Pins.zero with auxOk := true }, ent := { EntSt.zero with ready := [1, 2, 3, 4, 5, 6] } },
    _, _, ⟨0, 0⟩, ⟨false, false⟩, 0, by decide, by decide, rfl, rfl, by decide +kernel⟩,
   ⟨{ st [(Reg.entStat, 0xFF)] with pins := { Pins.zero with auxOk := true } }, _, ⟨0, 0⟩, ⟨false, false⟩, 20001,
     by decide, by decide, rfl, by decide⟩,
   ⟨State.reset, by decide, by decide⟩,
   ⟨st [(Reg.entStat, 0x00C00000)], by decide⟩,
   ⟨st [(Reg.entStat, 0x200000FF)], 0, true, false, by decide⟩,
   ⟨st [(Reg.entStat, 0x200000FF)], true, false, by decide, by decide⟩,
   ⟨st [(Reg.entStat, 0x40000000)], by decide, by decide⟩,
   ⟨st [(Reg.entStat, 0x60000000)], by decide⟩,
   ⟨st [(Reg.entStat, 0x20000000)], acc Reg.entDataLo, by decide⟩,
   ⟨State.reset, acc Reg.entDataLo, by decide⟩,
   ⟨State.reset, by decide⟩,
   ⟨st [(Reg.entStat, 0x20000000)], _, 0, by decide, rfl, (by decide +kernel)⟩,
   ⟨st [(Reg.entStat, 0x20000000)], by decide⟩,
   ⟨{ st [(Reg.entStat, 0x20000000)] with ent := { EntSt.zero with ready := [1, 2, 3, 4, 5, 6] } }, by decide,
     by decide⟩,
   ⟨State.reset.ent, by decide⟩,
   ⟨{ State.reset.ent with fill := 1023 }, by decide⟩,
   ⟨{ st [(Reg.entStat, 0x20000000)] with ent := { State.reset.ent with blocks := [(0, 0x100000)] } }, 0, by decide,
     by decide⟩⟩

/-- States and operands that meet the hypotheses of each clause of Obligations.SelfTestsAndHub. -/
theorem witness_SelfTestsAndHub :
    (∃ (s : State) (d : Fin 4) (x : Fin 12) (cmd : Instr) (op : Nat), (cmd, op) ∈ [(Instr.bist d x, 0),
      (.calibrate d x, 1)] ∧ s.linksClean = true ∧ s.testOf d.val = none ∧ s.sst d.val x.val = SS.unbound ∧
      s.pdOn (pdStrand d.val x.val) = true) ∧
    (∃ (s : State) (d : Fin 4) (x : Fin 12) (cmd : Instr) (op : Nat), (cmd, op) ∈ [(Instr.bist d x, 0),
      (.calibrate d x, 1)] ∧ s.linksClean = true ∧ s.testOf d.val = none ∧ s.sst d.val x.val ≠ SS.unbound) ∧
    (∃ (s : State) (d : Fin 4) (x : TestSt), s.testOf d.val = some x ∧ x.held = true ∧
      s.sst d.val x.target = SS.unbound ∧ s.pdOn (pdStrand d.val x.target) = true) ∧
    (∃ (d : Nat) (g : Nat), d < 4 ∧ g < 12) ∧
    (∃ (s : State) (d : Fin 4) (x : Fin 12), s.linksClean = true ∧ s.testOf d.val = none ∧ strandKind x.val = 2 ∧
      s.sst d.val x.val = SS.ready) ∧
    (∃ (s : State) (d : Nat) (x : Nat), s.roundOpen (s.sctx d x) = false) ∧
    (∃ (s : State) (d : Fin 4) (b : Fin 24), s.linksClean = true ∧ s.testOf d.val = none ∧ s.bst d.val b.val = 0 ∧
      s.pdOn (pdBank d.val b.val) = true) ∧
    (∃ (s : State) (d : Fin 4) (b : Fin 24), s.linksClean = true ∧ s.testOf d.val = none ∧ s.bst d.val b.val ≠ 0) ∧
    (∃ (s : State) (d : Fin 4) (x : TestSt), s.testOf d.val = some x ∧ x.held = false ∧ x.op = 3 ∧ x.target < 24) ∧
    (∃ (s : State), s.hub.reset = none ∧ s.hub.nmi = false) ∧
    (∃ (s : State), s.hub.reset = none ∧ s.hub.nmi = true) ∧
    (∃ (s : State), s.hub.reset = none) ∧
    (∃ (s : State), s.boot.inReset = true) ∧
    (∃ (s : State), s.boot.inReset = false) ∧
    (∃ (s : State) (c : Fin 16) (sh : BitVec 24) (id : DWord) (u : Nat) (v : Nat) (w : Bool) (e : EpochEnd) (k : WorkEnd) (a : Byte) (b : Byte) (n : Word) (cmd : Instr),
      s.hub.reset ≠ none ∧ cmd ∈ [Instr.roundWorkDone c k, .phaseWindowExpire c, .clientClassify c sh,
      .secretInterpolate c sh u w, .pairwiseSeedDerive c sh u v, .shardFailReport c sh, .foldEpochEnd c e,
      .sketchScan c, .updateStart c sh, .phaseReceive a b n, .phaseResend c, .combineDeadline c id] ∧ (∃ r,
      s.round c.val = some r ∧ s.isCoord r.desc = true)) ∧
    (∃ (s : State) (c : Fin 3), s.hub.reset = some c) :=
  ⟨⟨st [(Reg.pdStat (pdStrand 0 0), 0)], 0, 0, .bist 0 0, 0, (by simp), by decide⟩,
   ⟨st [(Reg.strandStat 0 0, 0x20000000)], 0, 0, .bist 0 0, 0, (by simp), by decide⟩,
   ⟨{ st [(Reg.pdStat (pdStrand 0 0), 0)] with tests := [(0, some ⟨0, 0, true⟩)] }, 0, _, rfl, by decide⟩,
   ⟨0, 0, by decide, by decide⟩,
   ⟨st [(Reg.strandStat 0 10, 0x20000000)], 0, 10, by decide⟩,
   ⟨State.reset, 0, 0, by decide⟩,
   ⟨st [(Reg.pdStat (pdBank 0 0), 0)], 0, 0, by decide⟩,
   ⟨st [(Reg.bankOwner 0 0, 0x40000100)], 0, 0, by decide⟩,
   ⟨{ State.reset with tests := [(0, some ⟨3, 0, false⟩)] }, 0, _, rfl, by decide⟩,
   ⟨State.reset, by decide, by decide⟩,
   ⟨{ State.reset with hub := ⟨none, [], true, false⟩ }, by decide, by decide⟩,
   ⟨State.reset, by decide⟩,
   ⟨{ State.reset with boot := { Boot.zero with inReset := true } }, by decide⟩,
   ⟨State.reset, by decide⟩,
   ⟨{ rs (rnd (rd 0 1 0 0) .collect) with hub := ⟨some 0, [], false, false⟩ }, 0, 0, 0, 0, 0, false, ⟨0, []⟩,
     ⟨.opening, ⟨none, [], []⟩⟩, 0, 0, 0, .sketchScan 0, by decide, (by simp), by decide⟩,
   ⟨{ State.reset with hub := ⟨some 0, [], false, false⟩ }, 0, by decide⟩⟩

/-- States and operands that meet the hypotheses of each clause of Obligations.ManagementPort. -/
theorem witness_ManagementPort :
    (∃ (s : State), s.mgmt.adm = .down ∧ s.cakThere = true) ∧
    (∃ (s : State), s.mgmt.adm = .admitted) ∧
    (∃ (s : State) (k : Fin 8), s.mgmt.adm ≠ .down ∧ s.hub.reset = none ∧ k ∉ s.mgmt.conns ∧ (∀ j,
      j < k → j ∈ s.mgmt.conns)) ∧
    (∃ (s : State), s.mgmt.adm ≠ .down ∧ s.hub.reset = none ∧ (∀ k : Fin 8, k ∈ s.mgmt.conns)) ∧
    (∃ (s : State) (p : PmpReq) (w : PmpWork), w ∈ s.mgmt.pending ∧ w.ident = p.ident ∧ w.reqId = p.reqId ∧
      w.conn ≠ noConn ∧ s.hub.reset = none) ∧
    (∃ (s : State) (k : Fin 8), s.mgmt.adm ≠ .down ∧ k ∈ s.mgmt.conns ∧ s.hub.reset = none) ∧
    (∃ (s : State) (p : PmpReq), s.mgmt.adm ≠ .down ∧ p.conn ∈ s.mgmt.conns ∧ s.hub.reset = none ∧
      64 ≤ s.outstanding p.conn.val) ∧
    (∃ (s : State) (p : PmpReq) (k : Kept), s.mgmt.adm ≠ .down ∧ p.conn ∈ s.mgmt.conns ∧ s.hub.reset = none ∧
      s.outstanding p.conn.val < 64 ∧ p.wellFormed = true ∧ s.admRefuses 0x0106 = none ∧ s.keptFor p = some k) :=
  ⟨⟨{ State.reset with boot := { Boot.zero with next := 4 } }, by decide, by decide⟩,
   ⟨{ State.reset with mgmt := port }, by decide⟩,
   ⟨{ State.reset with mgmt := port }, 1, by decide⟩,
   ⟨{ State.reset with mgmt := { port with conns := [0, 1, 2, 3, 4, 5, 6, 7] } }, by decide⟩,
   ⟨{ State.reset with mgmt := { port with pending := [⟨0, 0, 1, 0, 0x106, 0⟩] } }, req, ⟨0, 0, 1, 0, 0x106, 0⟩,
     by decide⟩,
   ⟨{ State.reset with mgmt := port }, 0, by decide⟩,
   ⟨{ State.reset with mgmt := { port with pending := List.replicate 64 ⟨0, 0, 1, 0, 0x106, 0⟩ } }, req, by decide⟩,
   ⟨{ State.reset with mgmt := { port with kept := [⟨0, 1, 0, [], 0⟩] } }, { req with ctx := 128 }, ⟨0, 1, 0, [], 0⟩,
     by decide +kernel⟩⟩

/-- States and operands that meet the hypotheses of each clause of Obligations.ModuleRequests. -/
theorem witness_ModuleRequests :
    (∃ (s : State) (p : PmpReq) (n : Bytes) (m : BitVec 16) (b : Bytes), s.accepts p 0x0100 false ∧
      s.signCheck = Code.ok ∧ s.hss.tree = true ∧ s.entRunning = true ∧ s.leafFails = false ∧
      b = (s.accepted p 0x0100).report n m.toNat) ∧
    (∃ (s : State) (p : PmpReq), s.accepts p 0x0101 false ∧ s.signCheck = Code.ok ∧ s.hss.tree = true ∧
      s.entRunning = true ∧ s.leafFails = false) ∧
    (∃ (s : State) (p : PmpReq), s.accepts p 0x0102 false) ∧
    (∃ (s : State), s.mgmt.nonceM = none) ∧
    (∃ (s : State) (p : PmpReq), s.accepts p 0x0103 false ∧ s.entRunning = true) ∧
    (∃ (s : State) (p : PmpReq) (n : Fin 256), s.accepts p 0x0104 false ∧ (s.active n.val).valid = true ∧
      s.signCheck = Code.ok ∧ s.katOk .keyStore = true ∧ s.hss.tree = true ∧ s.entRunning = true ∧
      s.leafFails = false) ∧
    (∃ (s : State) (p : PmpReq), s.accepts p 0x0105 false) ∧
    (∃ (s : State) (p : PmpReq), s.accepts p 0x0106 false) ∧
    (∃ (s : State) (p : PmpReq), s.accepts p 0x0107 false) ∧
    (∃ (s : State) (p : PmpReq) (d : Fin 4), s.accepts p 0x0107 false ∧ (s.testOf d.val).isSome = true) ∧
    (∃ (s : State) (p : PmpReq) (q : Byte), s.accepts p 0x0108 false ∧ (q = 1 ∨ q = 2)) ∧
    (∃ (s : State) (p : PmpReq) (q : Byte), s.accepts p 0x0108 false ∧ q ≠ 1 ∧ q ≠ 2) ∧
    (∃ (s : State) (p : PmpReq), s.accepts p 0x0109 false) ∧
    (∃ (s : State) (p : PmpReq), s.accepts p 0x0109 false) ∧
    (∃ (s : State) (p : PmpReq) (k : Bytes), s.accepts p 0x0200 true ∧ (k.length = 153 ∨ k.length = 145) ∧
      s.cxBusy = false ∧ s.createCheck p.c = Code.ok ∧ s.hss.run = none ∧ s.entRunning = true ∧
      ((s.accepted p 0x0200).freshSlots [slotMem p.c, slotInt p.c, slotWrap p.c]).2 = Code.ok) ∧
    (∃ (s : State) (p : PmpReq), s.accepts p 0x0201 true ∧ s.cxBusy = false ∧ s.cst p.c = 3 ∧
      s.slotsTaken [slotWrap p.c] = false ∧ s.hss.run = none ∧ s.entRunning = true ∧
      ((s.accepted p 0x0201).freshSlots [slotWrap p.c]).2 = Code.ok) ∧
    (∃ (s : State) (p : PmpReq), s.accepts p 0x0201 true ∧ s.cxBusy = false ∧ s.cst p.c = 1 ∧
      s.roundOpen p.c = false ∧ s.hss.run = none) ∧
    (∃ (s : State) (p : PmpReq), s.accepts p 0x0202 true ∧ s.cxBusy = false ∧ s.cst p.c ≠ 0 ∧ s.cst p.c ≠ 4) ∧
    (∃ (s : State) (p : PmpReq), s.accepts p 0x0203 true) :=
  ⟨⟨{ st [(Reg.entStat, 0x20000000)] with mgmt := port, keys := [(2, { KeyHalf.zero with attr := 0x80000000 }), (4, { KeyHalf.zero with attr := 0x80000000 })], hss := ⟨0, 1, true, none⟩ },
    { req with ctx := 128 }, [], 0, _, (by unfold State.accepts; decide), by decide, by decide, by decide, by decide,
    rfl⟩,
   ⟨{ st [(Reg.entStat, 0x20000000)] with mgmt := port, keys := [(2, { KeyHalf.zero with attr := 0x80000000 }), (4, { KeyHalf.zero with attr := 0x80000000 })], hss := ⟨0, 1, true, none⟩ },
     { req with ctx := 128 }, (by unfold State.accepts; decide), by decide⟩,
   ⟨{ st [(Reg.entStat, 0x20000000)] with mgmt := port, keys := [(2, { KeyHalf.zero with attr := 0x80000000 }), (4, { KeyHalf.zero with attr := 0x80000000 })], hss := ⟨0, 0, true, none⟩ },
     { req with ctx := 128 }, (by unfold State.accepts; decide)⟩,
   ⟨State.reset, by decide⟩,
   ⟨{ st [(Reg.entStat, 0x20000000)] with mgmt := port, keys := [(2, { KeyHalf.zero with attr := 0x80000000 }), (4, { KeyHalf.zero with attr := 0x80000000 })], hss := ⟨0, 0, true, none⟩ },
     { req with ctx := 128 }, (by unfold State.accepts; decide), by decide⟩,
   ⟨{ st [(Reg.entStat, 0x20000000)] with mgmt := port, keys := [(2, { KeyHalf.zero with attr := 0x80000000 }), (4, { KeyHalf.zero with attr := 0x80000000 })], hss := ⟨0, 1, true, none⟩ },
     { req with ctx := 128 }, 1, (by unfold State.accepts; decide), by decide⟩,
   ⟨{ st [(Reg.entStat, 0x20000000)] with mgmt := port, keys := [(2, { KeyHalf.zero with attr := 0x80000000 }), (4, { KeyHalf.zero with attr := 0x80000000 })], hss := ⟨0, 0, true, none⟩ },
     { req with ctx := 128 }, (by unfold State.accepts; decide)⟩,
   ⟨{ st [(Reg.entStat, 0x20000000)] with mgmt := port, keys := [(2, { KeyHalf.zero with attr := 0x80000000 }), (4, { KeyHalf.zero with attr := 0x80000000 })], hss := ⟨0, 0, true, none⟩ },
     { req with ctx := 128 }, (by unfold State.accepts; decide)⟩,
   ⟨{ st [(Reg.entStat, 0x20000000)] with mgmt := port, keys := [(2, { KeyHalf.zero with attr := 0x80000000 }), (4, { KeyHalf.zero with attr := 0x80000000 })], hss := ⟨0, 0, true, none⟩ },
     { req with ctx := 128 }, (by unfold State.accepts; decide)⟩,
   ⟨{ State.reset with mgmt := port, tests := [(0, some ⟨0, 0, true⟩)] }, { req with ctx := 128 }, 0,
     (by unfold State.accepts; decide), by decide⟩,
   ⟨{ st [(Reg.entStat, 0x20000000)] with mgmt := port, keys := [(2, { KeyHalf.zero with attr := 0x80000000 }), (4, { KeyHalf.zero with attr := 0x80000000 })], hss := ⟨0, 0, true, none⟩ },
     { req with ctx := 128 }, 1, (by unfold State.accepts; decide), by decide⟩,
   ⟨{ st [(Reg.entStat, 0x20000000)] with mgmt := port, keys := [(2, { KeyHalf.zero with attr := 0x80000000 }), (4, { KeyHalf.zero with attr := 0x80000000 })], hss := ⟨0, 0, true, none⟩ },
     { req with ctx := 128 }, 0, (by unfold State.accepts; decide), by decide, by decide⟩,
   ⟨{ st [(Reg.entStat, 0x20000000)] with mgmt := port, keys := [(2, { KeyHalf.zero with attr := 0x80000000 }), (4, { KeyHalf.zero with attr := 0x80000000 })], hss := ⟨0, 0, true, none⟩ },
     { req with ctx := 128 }, (by unfold State.accepts; decide)⟩,
   ⟨{ st [(Reg.entStat, 0x20000000)] with mgmt := port, keys := [(2, { KeyHalf.zero with attr := 0x80000000 }), (4, { KeyHalf.zero with attr := 0x80000000 })], hss := ⟨0, 0, true, none⟩ },
     { req with ctx := 128 }, (by unfold State.accepts; decide)⟩,
   ⟨{ st [(Reg.entStat, 0x20000000), (Reg.lcState, 2)] with mgmt := port, boot := { Boot.zero with profile := some ⟨[], List.replicate 0x54 0 ++ [16], [], []⟩ }, ent := { EntSt.zero with ready := [1, 2, 3, 4, 5, 6] } },
     req, List.replicate 153 0, (by unfold State.accepts; decide), Or.inl List.length_replicate, by decide +kernel⟩,
   ⟨{ st [(Reg.ctxStat 0, 0x60000000), (Reg.entStat, 0x20000000)] with mgmt := port, ent := { EntSt.zero with ready := [1, 2, 3, 4, 5, 6] } },
     req, (by unfold State.accepts; decide), by decide +kernel⟩,
   ⟨{ st [(Reg.ctxStat 0, 0x20000000), (Reg.entStat, 0x20000000)] with mgmt := port }, req,
     (by unfold State.accepts; decide), by decide⟩,
   ⟨{ st [(Reg.ctxStat 0, 0x20000000), (Reg.entStat, 0x20000000)] with mgmt := port }, req,
     (by unfold State.accepts; decide), by decide⟩,
   ⟨{ st [(Reg.ctxStat 0, 0x20000000), (Reg.entStat, 0x20000000)] with mgmt := port }, req,
     (by unfold State.accepts; decide)⟩⟩

/-- States and operands that meet the hypotheses of each clause of Obligations.OwnerRequests. -/
theorem witness_OwnerRequests :
    (∃ (s : State) (p : PmpReq) (m : Bytes) (a : DWord) (r : Line), s.accepts p 0x0400 true ∧
      s.evkManifestOk p.c m a.toNat none = true ∧ s.inCtxHbm p.c a.toNat (mfLength m) = true ∧
      s.regionMeets a.toNat (mfLength m) = false ∧ s.evkMeets a.toNat (mfLength m) = false ∧
      r = (s.accepted p 0x0400).hubGet p.c a.toNat (mfLength m) ∧ r.stall = false ∧ r.code = Code.ok) ∧
    (∃ (s : State) (p : PmpReq) (i : Nat), s.evkFree p.c = some i) ∧
    (∃ (s : State) (p : PmpReq) (i : Fin 64), s.accepts p 0x0401 true ∧ s.ctxLive p.c = true ∧
      (s.evkEnt p.c i.val).st = 1 ∧ s.logFits p.c 72 = true) ∧
    (∃ (s : State) (p : PmpReq) (m : Bytes) (hs : List DWord) (r : Line), s.accepts p 0x0402 true ∧
      manifestOk p.c m = true ∧ s.ctxLive p.c = true ∧ hs ≠ [] ∧
      (hs ++ (s.ctx p.c).zeros.map (fun z => z.header)).Nodup ∧ (∀ h, h ∈ hs → s.inCtxHbm p.c h.toNat 64 = true) ∧
      r = (s.accepted p 0x0402).readZeros p.c (hs.map (fun h => h.toNat)) ∧ r.stall = false ∧ r.code = Code.ok ∧
      r.st.logFits p.c 112 = true) ∧
    (∃ (s : State) (p : PmpReq) (b : Bytes), s.accepts p 0x0403 true ∧ s.ctxLive p.c = true ∧
      s.screenFields p.c b = true ∧ s.roundOpen p.c = false ∧ s.logFits p.c 112 = true) ∧
    (∃ (s : State) (p : PmpReq) (k : Fin 24) (g : BitVec 16), s.accepts p 0x0404 true ∧ s.ctxLive p.c = true ∧
      s.roundOpen p.c = true ∧ g.toNat * s.packN p.c < s.listedOn p.c k.val ∧
      s.groupPosted p.c k.val g.toNat = true) ∧
    (∃ (s : State) (p : PmpReq) (a : DWord) (ms : Nat) (mb : List Bytes) (x : Line) (h : Hdr),
      s.accepts p 0x0405 true ∧ membersOk ms mb = true ∧ s.ctxLive p.c = true ∧ a.toNat % 64 = 0 ∧
      s.inCtx p.c a.toNat 64 = true ∧ x = (s.accepted p 0x0405).ownGet p.c a.toNat 64 ∧ x.stall = false ∧
      x.code = Code.ok ∧ h = Hdr.of (BitVec.ofNat 512 (fromLE x.data)) ∧ x.st.hdrCheck p.c h = none ∧ h.typ ≠ 3) ∧
    (∃ (s : State) (p : PmpReq) (id : DWord) (m : BitVec 16) (k : Comb) (y : Member) (x : Line),
      s.accepts p 0x0406 true ∧ s.combOf p.c id = some k ∧ k.open m = some y ∧
      x = (s.accepted p 0x0406).ownGet p.c k.header.toNat 64 ∧ x.stall = false ∧ x.code = Code.ok) ∧
    (∃ (s : State) (p : PmpReq) (id : DWord) (m : BitVec 16) (k : Comb), s.accepts p 0x0406 true ∧
      s.combOf p.c id = some k ∧ k.open m = none) ∧
    (∃ (n : Nat) (i : Nat), n % 8 = 0 ∧ i < n) ∧
    (∃ (s : State) (c : Fin 16) (id : DWord) (k : Comb), s.combOf c.val id = some k ∧ k.full = false ∧
      s.hub.reset = none) ∧
    (∃ (s : State) (p : PmpReq) (h : Bytes) (d : Bytes) (a : DWord) (rs : List WrappedRec), s.accepts p 0x0500 true ∧
      (s.accepted p 0x0500).importCode p.c h d a.toNat rs = Code.ok) ∧
    (∃ (s : State) (u : State) (p : PmpReq) (st : Bool) (fmt : Byte) (m : Model) (n : Model) (x : ExportPin) (xs : List (DirEnt × Nat × Nat)) (r : State × Byte × List Bytes × Bool),
      u = (s.unpinModel p.c p.reqId).accepted p 0x0501 ∧ (s.unpinModel p.c p.reqId).accepts p 0x0501 true ∧
      u.ctxLive p.c = true ∧ (s.ctx p.c).model = some m ∧ (u.ctx p.c).model = some n ∧ x = m.pinOf p.reqId ∧
      fmt.toNat ≤ 1 ∧ u.keyUse n.kwSlot.toNat 5 .breakwater (some p.c) = Code.ok ∧
      xs = recordOrder x.dir (if st then 1 + n.nstate else 1) ∧ r = u.readPages p.c n.nstate xs []) :=
  ⟨⟨{ st [(Reg.ctxStat 0, 0x20000000), (Reg.pdStat 63, 0)] with mgmt := port, granule := [(0, 0)], minor := [(0, 1)], crypt := [(0, { LineKeys.zero with ver := 1 })], keys := [(64, anyKey), (66, anyKey)] },
    req, (le 4 0x45564B31 ++ [1, 0] ++ le 2 1 ++ le 16 0 ++ le 8 64 ++ le 96 0), 0, _,
    (by unfold State.accepts; decide), (by decide +kernel), (by decide +kernel), (by decide +kernel),
    (by decide +kernel), rfl, (by decide +kernel), (by decide +kernel)⟩,
   ⟨State.reset, req, 0, (by decide +kernel)⟩,
   ⟨{ st [(Reg.ctxStat 0, 0x20000000), (Reg.pdStat 63, 0)] with mgmt := port, granule := [(0, 0)], minor := [(0, 1)], crypt := [(0, { LineKeys.zero with ver := 1 })], evk := [(0, { EvkEnt.zero with st := 1 })] },
     req, 0, (by unfold State.accepts; decide), by decide⟩,
   ⟨zeroSt, req, (le 4 0x45564B31 ++ [1, 0] ++ le 2 1 ++ le 16 0 ++ le 8 64 ++ le 96 0), [0],
     .ok (zeroSt.accepted req 0x0402) (le 64 zeroHd.toNat ++ List.replicate 65536 0),
     (by unfold State.accepts; decide), (by decide +kernel), by decide, by decide, (by decide +kernel),
     (by intro h hh; rw [List.mem_singleton.1 hh]; decide +kernel), zero_read', rfl, rfl, zero_log⟩,
   ⟨{ st [(Reg.ctxStat 0, 0x20000000), (Reg.pdStat 63, 0)] with mgmt := port, granule := [(0, 0)], minor := [(0, 1)], crypt := [(0, { LineKeys.zero with ver := 1 })], psets := [(0, BitVec.ofNat 1024 (1 + 12 * 2 ^ 8 + 2 ^ 16 + 2 ^ 32 + 16 * 2 ^ 64))] },
     req, le 64 0x80008000, (by unfold State.accepts; decide), by decide +kernel⟩,
   ⟨{ st [(Reg.ctxStat 0, 0x20000000), (Reg.pdStat 63, 0)] with mgmt := port, granule := [(0, 0)], minor := [(0, 1)], crypt := [(0, { LineKeys.zero with ver := 1 })], rounds := [(0, some (rnd (rd 0 1 0 0) .fold))], ctxs := [(0, { CtxSt.zero with work := [(0, 5000)], exports := [Config.groupHeader 0 0 0] })] },
     req, 0, 0, (by unfold State.accepts; decide), (by decide +kernel), (by decide +kernel), (by decide +kernel),
     (by rw [State.groupPosted, Bool.and_eq_true]; exact ⟨List.contains_iff_mem.2 (List.mem_singleton.2 rfl), by decide +kernel⟩)⟩,
   ⟨({ st [(Reg.ctxStat 0, 0x20000000), (Reg.pdStat 63, 0)] with mgmt := port, granule := [(0, 0)], minor := [(0, 1)], crypt := [(0, { LineKeys.zero with ver := 1 })], keys := [(64, anyKey), (66, anyKey)] }).store 0 (le 64 ((hd 2 0 1 0 0x1000 4160 16 512 0 0)).toNat),
     req, 0, 1000, [[0, 1] ++ List.replicate 102 0], _, _, (by unfold State.accepts; decide), (by decide +kernel),
     by decide, by decide, (by decide +kernel), rfl, (by decide +kernel), (by decide +kernel), rfl,
     (by decide +kernel), (by decide +kernel)⟩,
   ⟨{ st [(Reg.ctxStat 0, 0x20000000), (Reg.pdStat 63, 0)] with mgmt := port, granule := [(0, 0)], minor := [(0, 1)], crypt := [(0, { LineKeys.zero with ver := 1 })], keys := [(64, anyKey), (66, anyKey)], ctxs := [(0, { CtxSt.zero with combs := [⟨5, 0, 0, [⟨1, [], none⟩]⟩] })] },
     req, 5, 1, _, _, _, (by unfold State.accepts; decide), rfl, rfl, rfl, (by decide +kernel), (by decide +kernel)⟩,
   ⟨{ st [(Reg.ctxStat 0, 0x20000000), (Reg.pdStat 63, 0)] with mgmt := port, granule := [(0, 0)], minor := [(0, 1)], crypt := [(0, { LineKeys.zero with ver := 1 })], keys := [(64, anyKey), (66, anyKey)], ctxs := [(0, { CtxSt.zero with combs := [⟨5, 0, 0, []⟩] })] },
     req, 5, 0, _, (by unfold State.accepts; decide), rfl, (by decide +kernel)⟩,
   ⟨8, 0, by decide, by decide⟩,
   ⟨{ State.reset with ctxs := [(0, { CtxSt.zero with combs := [⟨5, 0, 0, [⟨1, [], none⟩]⟩] })] }, 0, 5, _, rfl,
     by decide, by decide⟩,
   ⟨modelSt, req, modelHdr, modelDir, 0, [⟨recHdr 0 0 0 (dirEntOf modelDir, 0, 0), [], 0⟩],
     (by unfold State.accepts; decide), import_ok⟩,
   ⟨{ st [(Reg.ctxStat 0, 0x20000000), (Reg.pdStat 63, 0)] with mgmt := port, granule := [(0, 0)], minor := [(0, 1)], crypt := [(0, { LineKeys.zero with ver := 1 })], keys := [(64, anyKey), (66, anyKey)], ctxs := [(0, { CtxSt.zero with model := some ⟨0, 1, 32, 0, [⟨5, false, 1, 0, 1, 0x4000⟩], 0, []⟩ })] },
     _, req, false, 0, _, _, _, _, _, rfl, (by unfold State.accepts; decide), (by decide +kernel), rfl, rfl, rfl,
     (by decide +kernel), (by decide +kernel), rfl, rfl⟩⟩

/-- States and operands that meet the hypotheses of each clause of Obligations.Envelopes. -/
theorem witness_Envelopes :
    (∃ (s : State) (u : State) (p : PmpReq) (e : Envelope) (cmd : Instr) (opc : Nat) (op : Nat) (k : Bytes → State),
      (cmd, opc, op) ∈ [(Instr.keyRelease p e, 0x0600, 1), (.clientEnrol p e, 0x0603, 5), (.peerList p e, 0x0604,
      6)] ∧ s.hss.run = none ∧ s.accepts p opc true ∧ e.ok op p.c = true ∧ s.ctxLive p.c = true ∧
      e.nonce ∈ s.mgmt.nonces ∧ opInState op s.lc = true ∧ s.katOk .publicKey = true ∧ s.katOk .keyStore = true ∧
      s.keyUse 7 4 .hubSecure none = Code.ok ∧
      u = ({ s.accepted p opc with mgmt := { (s.accepted p opc).mgmt with nonces := s.mgmt.nonces.filter (fun n => n ≠ e.nonce) } } : State) ∧
      (k = (fun b => if op = 1 then (if ¬ releaseFormatOk b then u.answer p Code.formatError else if ¬ releaseAttrOk b p.c then u.answer p Code.attributeDenied else u.releaseKey p b) else if op = 5 then (if b.length % 48 ≠ 0 ∨ b = [] then u.answer p Code.formatError else (u.enrol p.c b).answer p Code.ok) else if b.length % 99 ≠ 0 ∨ b = [] ∨ ¬ ((peersOf b).map (fun x => x.1)).Nodup then u.answer p Code.formatError else ({ u with mgmt := { u.mgmt with peers := peersOf b } } : State).answer p Code.ok))) ∧
    (∃ (s : State) (u : State) (p : PmpReq) (e : Envelope) (cmd : Instr) (opc : Nat) (op : Nat) (k : Bytes → State),
      (cmd, opc, op) ∈ [(Instr.ownershipSet p e, 0x0601, 3), (.lifecycleSet p e, 0x0602, 4)] ∧ s.hss.run = none ∧
      s.accepts p opc false ∧ s.fld Reg.lcState 31 31 = 0 ∧ e.ok op 0 = true ∧ e.nonce ∈ s.mgmt.nonces ∧
      opInState op s.lc = true ∧ s.katOk .publicKey = true ∧ s.keyUse 7 4 .hubSecure none = Code.ok ∧
      u = ({ s.accepted p opc with mgmt := { (s.accepted p opc).mgmt with nonces := s.mgmt.nonces.filter (fun n => n ≠ e.nonce) } } : State) ∧
      k = (fun b => if u.transitionFormatOk op b then (if op = 3 then u.transition p 2 (some (ownerOf b)) (cakOf b) else u.transition p (field b 0 1) u.boot.owner (match u.presentRec with | some r => (r.cak, r.ckn) | none => ([], []))) else u.answer p Code.formatError)) ∧
    (∃ (s : State) (p : PmpReq) (e : Envelope), s.hss.run = none ∧ s.accepts p 0x0600 true ∧ e.ok 1 p.c = true ∧
      s.ctxLive p.c = true ∧ e.nonce ∉ s.mgmt.nonces) ∧
    (∃ (op : Nat) (src : Nat) (tgt : Nat) (n : Nat), transitionOk op src tgt n = true) ∧
    (∃ (p : PmpReq) (b : Bytes) (n : Nat) (k : KeyHalf), n = slotMem p.c + field b 0 1 ∧
      k = ⟨relAttr b ||| 0x80000000, BitVec.ofNat 512 (fromLE (sub b 0x10 64)), BitVec.ofNat 64 (field b 8 8)⟩) :=
  ⟨⟨{ st [(Reg.ctxStat 0, 0x20000000), (Reg.lcState, 2)] with mgmt := { port with nonces := [9] }, keys := [(14, { KeyHalf.zero with attr := 0x80040110 })] },
    _, req, ⟨le 4 0x424E4331 ++ [1, 0, 0, 0] ++ le 8 9 ++ le 4 16 ++ le 108 0, List.replicate 16 0,
    List.replicate 96 0, []⟩, .keyRelease req (⟨le 4 0x424E4331 ++ [1, 0, 0, 0] ++ le 8 9 ++ le 4 16 ++ le 108 0,
    List.replicate 16 0, List.replicate 96 0, []⟩), 0x0600, 1, _, (by simp), by decide,
    (by unfold State.accepts; decide), (by decide +kernel), by decide, (by decide +kernel), by decide, by decide,
    by decide, by decide, rfl, rfl⟩,
   ⟨{ st [(Reg.ctxStat 0, 0x20000000), (Reg.lcState, 1)] with mgmt := { port with nonces := [9] }, keys := [(14, { KeyHalf.zero with attr := 0x80020110 })] },
     _, { req with ctx := 128 }, ⟨le 4 0x424E4331 ++ [3, 0, 0, 0] ++ le 8 9 ++ le 4 16 ++ le 108 0,
     List.replicate 16 0, List.replicate 96 0, []⟩, .ownershipSet { req with ctx := 128 } (⟨le 4 0x424E4331 ++ [3, 0,
     0, 0] ++ le 8 9 ++ le 4 16 ++ le 108 0, List.replicate 16 0, List.replicate 96 0, []⟩), 0x0601, 3, _, (by simp),
     by decide, (by unfold State.accepts; decide), by decide, (by decide +kernel), (by decide +kernel), by decide,
     by decide, by decide, rfl, rfl⟩,
   ⟨{ st [(Reg.ctxStat 0, 0x20000000), (Reg.lcState, 2)] with mgmt := { port with nonces := [] }, keys := [(14, { KeyHalf.zero with attr := 0x80040110 })] },
     req, ⟨le 4 0x424E4331 ++ [1, 0, 0, 0] ++ le 8 9 ++ le 4 16 ++ le 108 0, List.replicate 16 0,
     List.replicate 96 0, []⟩, by decide, (by unfold State.accepts; decide), by decide +kernel⟩,
   ⟨3, 1, 2, 0, by decide⟩,
   ⟨req, [], _, _, rfl, rfl⟩⟩

/-! ### Runs over a stage's own bank -/

/-- Addresses of bank 0 of die 0. -/
def inBank0 (a : Nat) : Prop := 0x0100_00000000 ≤ a ∧ a < 0x0100_00000000 + 0x4000000

theorem place_bank0 (a : Nat) (h : inBank0 a) : place .m12l4 a = .bank 0 0 (a - 0x0100_00000000) := by
  obtain ⟨h0, h1⟩ := h
  obtain ⟨o, rfl⟩ := Nat.exists_eq_add_of_le h0
  have e : 0x0100_00000000 + o - 0x0100_00000000 = o := by omega
  have ho : o < 0x4000000 := by omega
  have n1 : ¬ 0x0100_00000000 + o < 4 * Part.m12l4.block := by
    have : Part.m12l4.block = 0x12_00000000 := by decide
    omega
  have n2 : 0x0100_00000000 ≤ 0x0100_00000000 + o ∧ 0x0100_00000000 + o < 0x0108_00000000 := by omega
  have d0 : o / 0x2_00000000 = 0 := by omega
  have m0 : o % 0x2_00000000 = o := by omega
  rw [place, if_neg n1, if_pos n2, e, d0, m0, bankPlace, if_pos (by omega), Nat.div_eq_of_lt ho, Nat.mod_eq_of_lt ho]

/-- Banks of a state in which requester r may use bank 0 of die 0 and no word is in error. -/
structure Free0 (s : State) (r : Requester) : Prop where
  part : s.part = .m12l4
  gate : s.bankGate r 0 0 false = none
  ecc  : s.ecc = []
  soil : s.soil 0 0 = s
  d2d  : s.d2d = []
  busy : s.banks = []
  reach : ∀ a, s.inReach r a = true

theorem Free0.mark {s : State} {r : Requester} (h : Free0 s r) (w : Nat) : s.mark w = .good := by
  rw [State.mark, h.ecc]; rfl

theorem Free0.anyUe {s : State} {r : Requester} (h : Free0 s r) (ws : List Nat) : s.anyUe ws = false := by
  rw [State.anyUe, List.any_eq_false]
  intro w _
  simp [h.mark]

theorem Free0.corrected {s : State} {r : Requester} (h : Free0 s r) (ws : List Nat) : s.corrected ws = 0 := by
  rw [State.corrected, List.length_eq_zero_iff, List.filter_eq_nil_iff]
  intro w _
  simp [h.mark]

theorem Free0.links {s : State} {r : Requester} (h : Free0 s r) : s.linksClean = true := by
  rw [State.linksClean, h.d2d]; rfl

/-- Its port is free. -/
theorem Free0.port {s : State} {r : Requester} (h : Free0 s r) (k : State → Line) : s.onPort r 0 0 k = k s := by
  have hb : (s.bank 0 0).busy = 0 := by rw [State.bank, h.busy]; rfl
  unfold State.onPort
  exact if_pos hb

/-- A read leaves the state as it is. -/
theorem Free0.readLine {s : State} {r : Requester} (h : Free0 s r) (a : Nat) (ha : inBank0 a) :
    s.readLine r a false = .ok s (s.bytes (a / 64 * 64) 64) := by
  have hd : s.readHere r a false = .ok s (s.bytes (a / 64 * 64) 64) := by
    rw [State.readHere, h.part, place_bank0 a ha]
    simp only [h.reach, not_true, h.gate, Option.getD_none, h.port, State.eccRead, h.anyUe, h.corrected,
      State.countCe, Bool.false_eq_true, if_false, if_true]
    have e : bankAddr 0 0 (a - 0x0100_00000000) = a := by
      obtain ⟨h0, h1⟩ := ha
      simp only [bankAddr]
      omega
    rw [e]
    rfl
  rw [State.readLine_clean _ _ _ _ (by rw [hd]; exact h.links), hd]

theorem setMark_good {s : State} (h : s.ecc = []) (w : Nat) : s.setMark w .good = s := by
  have e : Table.put (fun _ => EccMark.good) ([] : Table EccMark) w EccMark.good = [] := by simp [Table.put,
    Table.del]
  rw [State.setMark, h, e]
  exact congrArg (fun x => { s with ecc := x }) h.symm

theorem setMarks_good {s : State} (h : s.ecc = []) (ws : List Nat) : ws.foldl (fun t w => t.setMark w .good) s = s := by
  induction ws with
  | nil => rfl
  | cons w ws ih => rw [List.foldl_cons, setMark_good h, ih]

/-- The gate of a bank does not look at memory. -/
theorem gate_store {s : State} {r : Requester} (a : Nat) (b : Bytes) (n : Nat) (h : s.bankGate r 0 0 false = none) :
    ({ s.store a b with freeCtr := n } : State).bankGate r 0 0 false = none := by
  unfold State.bankGate at h ⊢
  by_cases h1 : s.bst 0 0 = 2 ∨ s.bst 0 0 = 3
  · rw [if_pos h1] at h; cases h
  rw [if_neg h1] at h
  by_cases h2 : ¬ s.bankAllows r 0 0 false
  · rw [if_pos h2] at h; cases h
  rw [if_neg h2] at h
  by_cases h3 : s.pdState (pdBank 0 0) = 6
  · rw [if_pos h3] at h; cases h
  rw [if_neg h3] at h
  by_cases h4 : ¬ s.pdOn (pdBank 0 0)
  · rw [if_pos h4] at h; cases h
  exact (if_neg h1).trans ((if_neg h2).trans ((if_neg h3).trans (if_neg h4)))

theorem Free0.store {s : State} {r : Requester} (h : Free0 s r) (a : Nat) (b : Bytes) (n : Nat) :
    Free0 { s.store a b with freeCtr := n } r where
  part := h.part
  gate := gate_store a b n h.gate
  ecc := h.ecc
  soil := congrArg (fun t : State => ({ t.store a b with freeCtr := n } : State)) h.soil
  d2d  := h.d2d
  busy := h.busy
  reach := fun a => (h.reach a : s.inReach r a = true)

theorem Free0.took {s : State} {r : Requester} (h : Free0 s r) (n : Nat) : Free0 (s.took n) r :=
  h.store 0 [] (s.freeCtr + n)

/-- A write stores its bytes. -/
theorem Free0.writeLine {s : State} {r : Requester} (h : Free0 s r) (a : Nat) (b : Bytes) (ha : inBank0 a)
    (hk : s.inEvk a = false) : s.writeLine r a b false = .ok (s.store a b) [] := by
  have e : bankAddr 0 0 (a - 0x0100_00000000) = a := by
    obtain ⟨h0, h1⟩ := ha
    simp only [bankAddr]
    omega
  have hs : (s.store a b).soil 0 0 = s.store a b := congrArg (fun t : State => t.store a b) h.soil
  rw [State.writeLine_clean _ _ _ _ _ h.links, State.writeHere, h.part, place_bank0 a ha]
  simp only [h.reach, not_true, h.gate, Option.getD_none, hk, e, h.port, State.eccWrite, h.anyUe, h.corrected,
    State.countCe, Bool.false_eq_true, if_false,
    if_true, setMarks_good h.ecc]
  simp only [Line.ok, if_true, hs]

/-- Accesses of the bank in which no write meets a key range. -/
def opsOk (s : State) (ops : List (Nat × Option Bytes)) : Prop :=
  ∀ x, x ∈ ops → inBank0 x.1 ∧ (x.2.isSome → s.inEvk x.1 = false)

/-- Their run ends well, in a state of the same kind. -/
theorem Free0.run {r : Requester} (ops : List (Nat × Option Bytes)) : ∀ {s : State}, Free0 s r → opsOk s ops →
    (s.runLines r false ops).good ∧ Free0 (s.runLines r false ops).st r ∧
      (s.runLines r false ops).st.evk = s.evk := by
  induction ops with
  | nil => intro s h _; exact ⟨⟨rfl, rfl⟩, h, rfl⟩
  | cons x ops ih =>
    intro s h hx
    obtain ⟨a, w⟩ := x
    have ha := hx (a, w) (by simp)
    cases w with
    | none =>
      have hi := ih h (fun y hy => hx y (by simp [hy]))
      rw [State.runLines]
      simp only [h.readLine a ha.1]
      simp only [Line.ok, Bool.false_eq_true, if_false, ne_eq, not_true]
      exact hi
    | some b =>
      have hw := h.writeLine a b ha.1 (ha.2 rfl)
      have h2 : Free0 (s.store a b) r := h.store a b s.freeCtr
      have hi := ih h2 (fun y hy => hx y (by simp [hy]))
      rw [State.runLines]
      simp only [hw]
      simp only [Line.ok, Bool.false_eq_true, if_false, ne_eq, not_true]
      exact hi

/-- A run of reads leaves the state as it is. -/
theorem Free0.reads {s : State} {r : Requester} (h : Free0 s r) (as : List Nat) (ha : ∀ a, a ∈ as → inBank0 a) :
    s.runLines r false (as.map (fun a => (a, none))) = ⟨s, (as.map (fun a => s.bytes (a / 64 * 64) 64)).flatten,
      none, false, as.length⟩ := by
  induction as with
  | nil => rfl
  | cons a as ih =>
    have ih' := ih (fun b hb => ha b (by simp [hb]))
    rw [List.map_cons, State.runLines]
    simp only [h.readLine a (ha a (by simp))]
    simp only [Line.ok, Bool.false_eq_true, if_false, ne_eq, not_true]
    simp [ih']

theorem mem_linesOf {a n x : Nat} (h : x ∈ linesOf a n) : a / 64 * 64 ≤ x ∧ x < a + n := by
  unfold linesOf at h
  split at h
  · cases h
  · obtain ⟨i, hi, rfl⟩ := List.mem_map.1 h
    have := List.mem_range.1 hi
    omega

theorem mem_pieces {x : Nat × Bytes} (fuel : Nat) : ∀ (a : Nat) (d : Bytes), x ∈ pieces fuel a d → a ≤ x.1 ∧ x.1 < a + d.length := by
  induction fuel with
  | zero => intro a d h; cases h
  | succ n ih =>
    intro a d h
    cases d with
    | nil => cases h
    | cons b d =>
      rw [pieces] at h
      · rcases List.mem_cons.1 h with h | h
        · subst h; simp
        · have := ih _ _ h
          simp only [List.length_drop] at this
          omega
      · intro hh; cases hh

theorem readOps_ok (s : State) (a n : Nat) (h0 : 0x0100_00000000 ≤ a) (h1 : a + n ≤ 0x0100_00000000 + 0x4000000) :
    opsOk s (readOps a n) := by
  intro x hx
  obtain ⟨y, hy, rfl⟩ := List.mem_map.1 hx
  have := mem_linesOf hy
  exact ⟨⟨by omega, by simp only; omega⟩, fun h => by cases h⟩

theorem writeOps_ok (s : State) (a : Nat) (d : Bytes) (n : Nat) (hn : d.length ≤ n) (h0 : 0x0100_00000000 ≤ a)
    (h1 : a + n ≤ 0x0100_00000000 + 0x4000000) (hk : ∀ x,
      a ≤ x → x < a + n → s.inEvk x = false) : opsOk s (writeOps a d) := by
  intro x hx
  obtain ⟨y, hy, rfl⟩ := List.mem_map.1 hx
  have := mem_pieces _ _ _ hy
  exact ⟨⟨by simp only; omega, by simp only; omega⟩, fun _ => hk _ (by omega) (by omega)⟩

theorem residBytes_length (n : Nat) (v : Nat → Nat) : (residBytes n v).length = 8 * n := by
  unfold residBytes
  induction n with
  | zero => rfl
  | succ n ih =>
    rw [List.range_succ]
    simp only [List.map_append, List.flatten_append, List.length_append, ih]
    simp [le_length]
    omega

theorem freeBytes_length (s : State) (n : Nat) : (s.freeBytes n).length = 8 * n := by
  induction n with
  | zero => rfl
  | succ n ih => simp [State.freeBytes, ih, le_length]; omega

/-- Registers of a die whose strand 4 runs in context 0 and owns bank 0, no longer CLEAN. -/
def cregs : Table Word := ((gs ⟨0, 4, 0⟩ Stage.zero).soil 0 0).regs

/-- Strand 4 with an instruction at stage g, descriptors and two cipher entries. -/
def cst (g : Fin 8) (opc : Nat) (f : Fields) (ds : Table QWord) (a b : BitVec 512) (ev : Table EvkEnt) : State :=
  { State.reset with
    regs := cregs, stages := [(Loc.ix ⟨0, 4, g⟩, { stg opc f with d := ds })]
    strands := [(4, { Strand.zero with cipher := [(0, a), (1, b)] })], evk := ev }

/-- A state with those registers and no word in error is one in which the strand may use its bank. -/
theorem free_of {s : State} (hp : s.part = .m12l4) (hr : s.regs = cregs) (he : s.ecc = []) (hd : s.d2d = []) (hb : s.banks = [])
    (g : Fin 8) : Free0 s (Loc.req ⟨0, 4, g⟩) where
  reach := fun _ => rfl
  part := hp
  gate := by
    have h0 : s.bst 0 0 = 1 := by unfold State.bst State.fld State.reg; rw [hr]; decide
    have h1 : ¬ (s.bst 0 0 = 2 ∨ s.bst 0 0 = 3) := by rw [h0]; decide
    have h2 : s.bankAllows (Loc.req ⟨0, 4, g⟩) 0 0 false = true := by
      have v : s.bvalid 0 0 = true := by unfold State.bvalid State.fld State.reg; rw [hr]; decide
      have t : s.bstrand 0 0 = 4 := by unfold State.bstrand State.fld State.reg; rw [hr]; decide
      have c : s.bacc 0 0 = false := by unfold State.bacc State.fld State.reg; rw [hr]; decide
      unfold State.bankAllows
      rw [h0, v, t, c]
      rfl
    have h3 : s.pdState (pdBank 0 0) = 0 := by unfold State.pdState State.fld State.reg; rw [hr]; decide
    have h4 : s.pdOn (pdBank 0 0) = true := by unfold State.pdOn; rw [h3]; rfl
    unfold State.bankGate
    rw [if_neg h1, h2, h3, h4]
    rfl
  ecc := he
  soil := by
    have h : setBits (s.reg (Reg.bankStat 0 0)) 29 29 0 = s.reg (Reg.bankStat 0 0) := by unfold State.reg; rw [hr]; decide
    have h2 : Table.put regReset s.regs (Reg.bankStat 0 0) (s.reg (Reg.bankStat 0 0)) = s.regs := by
      unfold State.reg; rw [hr]; decide
    unfold State.soil State.setFld State.setReg
    rw [h, h2]
  d2d  := hd
  busy := hb

theorem inEvk_nil {s : State} (h : s.evk = []) (x : Nat) : s.inEvk x = false := by rw [State.inEvk, h]; rfl

theorem rescOut_length (s : State) (resc : Bool) (p : Machine.PSet) (h new : Hdr) (b : Bytes) :
    (s.rescOut resc p h new b).length ≤ new.len + 16 * new.limbs * 2 ^ h.logn := by
  unfold State.rescOut
  by_cases hp : partOverlap h.ptr h.len new.ptr new.len = true
  · simp only [hp, if_true, freeBytes_length]
    omega
  · have hp' : partOverlap h.ptr h.len new.ptr new.len = false := by simpa using hp
    simp only [hp', Bool.false_eq_true, if_false, State.outBytes, residBytes_length]
    have e : 8 * (2 * new.limbs * 2 ^ h.logn) = 16 * new.limbs * 2 ^ h.logn := by ring
    omega

/-- The two runs of RESC or MODX end well. -/
theorem resc_runs {s : State} {l : Loc} (F : Free0 s l.req) (hk : s.evk = []) (resc : Bool) (p : Machine.PSet) (h new : Hdr)
    (h0 : 0x0100_00000000 ≤ h.ptr) (h1 : h.ptr + h.len ≤ 0x0100_00000000 + 0x4000000) (h2 : 0x0100_00000000 ≤ new.ptr)
    (h3 : new.ptr + (new.len + 16 * new.limbs * 2 ^ h.logn) ≤ 0x0100_00000000 + 0x4000000) :
    ((s.took 1).runLines l.req false (readOps h.ptr h.len)).good ∧
    ((((s.took 1).runLines l.req false (readOps h.ptr h.len)).st.took (2 * new.limbs * 2 ^ h.logn)).runLines l.req false
      (writeOps new.ptr (((s.took 1).runLines l.req false (readOps h.ptr h.len)).st.rescOut resc p h new
        ((s.took 1).runLines l.req false (readOps h.ptr h.len)).data))).good := by
  have r := Free0.run _ (F.took 1) (readOps_ok (s.took 1) h.ptr h.len h0 h1)
  refine ⟨r.1, (Free0.run _ (r.2.1.took _) (writeOps_ok _ _ _ _ (rescOut_length _ _ _ _ _ _) h2 h3 ?_)).1⟩
  intro x _ _
  exact inEvk_nil (r.2.2.trans hk) x

/-- A ciphertext of set 1 in bank 0, and an entry whose data lies further on. -/
def srcC (limbs level : Nat) : BitVec 512 := hd 1 13 limbs level 0x0100_00000000 (limbs * 131072) 1 0 0 0
def dstC (limbs level : Nat) : BitVec 512 := hd 1 13 limbs level 0x0100_01000000 (limbs * 131072) 1 0 0 0

/-- Parameter set 1 (R179). -/
def set1 : Machine.PSet := ⟨1, 13, 4, 1, 4, 0, 0, 0x0010, [52, 28, 29, 30, 12]⟩

def rescF : Fields := ⟨1, 0, 0, 0, 0, 0⟩
def rescS : State := cst 5 0x24 rescF [(0, desc 3 0 64 0), (1, desc 3 1 64 0)] (srcC 4 3) (dstC 4 3) []

/-- A RESC that reads and writes its ciphertexts. -/
theorem witness_LevelDropsAndRefresh_resc : ∃ (s : State) (l : Loc) (f : Fields) (p : Machine.PSet) (new : Hdr) (r w : Run),
    s.issues l 0x24 f { stages := [St.base], dst := .d, sa := .d } ∧ (s.descD l f).ok l.s 1 [3] = true ∧
    (s.descA l f).ok l.s 1 [3] = true ∧ s.hdrCheck (s.ctxOf l) (s.hdrA l f) = none ∧
    s.hdrCheck (s.ctxOf l) (s.hdrD l f) = none ∧ s.pset (s.ctxOf l) (s.hdrA l f).pset = some p ∧
      (s.hdrA l f).typ = 1 ∧ (s.hdrA l f).ntt = false ∧
    (s.hdrA l f).ptLog = 0 ∧ new = s.rescEntry true 1 p (s.hdrA l f) (s.hdrD l f) ∧ (s.hdrA l f).poison = false ∧
    1 ≤ (s.hdrA l f).level ∧ r = (s.took 1).runLines l.req false (readOps (s.hdrA l f).ptr (s.hdrA l f).len) ∧
      r.good ∧
    w = (r.st.took (2 * new.limbs * 2 ^ (s.hdrA l f).logn)).runLines l.req false
      (writeOps new.ptr (r.st.rescOut true p (s.hdrA l f) new r.data)) ∧ w.good := by
  have F : Free0 rescS (Loc.req ⟨0, 4, 5⟩) := free_of (s := rescS) rfl rfl rfl rfl rfl 5
  have g := resc_runs F rfl true set1 (rescS.hdrA ⟨0, 4, 5⟩ rescF)
    (rescS.rescEntry true 1 set1 (rescS.hdrA ⟨0, 4, 5⟩ rescF) (rescS.hdrD ⟨0, 4, 5⟩ rescF))
    (by decide +kernel) (by decide +kernel) (by decide +kernel) (by decide +kernel)
  exact ⟨rescS, ⟨0, 4, 5⟩, rescF, set1, _, _, _, ⟨by decide, by decide, by decide, by decide⟩, by decide, by decide,
    (by decide +kernel), (by decide +kernel), rfl, by decide, by decide, by decide, rfl, by decide, by decide, rfl,
      g.1, rfl, g.2⟩

def modxF : Fields := ⟨1, 0, 0, 0, 0, 2⟩
def modxS : State := cst 5 0x25 modxF [(0, desc 3 0 64 0), (1, desc 3 1 64 0)] (srcC 4 3) (dstC 4 3) []

/-- A MODX that reads and writes its ciphertexts. -/
theorem witness_LevelDropsAndRefresh_modx : ∃ (s : State) (l : Loc) (f : Fields) (p : Machine.PSet) (new : Hdr) (r w : Run),
    s.issues l 0x25 f { stages := [St.base], dst := .d, sa := .d, imm := 0x3F } ∧ (s.descD l f).ok l.s 1 [3] = true ∧
    (s.descA l f).ok l.s 1 [3] = true ∧ s.hdrCheck (s.ctxOf l) (s.hdrA l f) = none ∧
    s.hdrCheck (s.ctxOf l) (s.hdrD l f) = none ∧ s.pset (s.ctxOf l) (s.hdrA l f).pset = some p ∧
      (s.hdrA l f).typ = 1 ∧ (s.hdrA l f).ntt = false ∧ f.i ≠ 0 ∧
    f.i < (s.hdrA l f).limbs ∧ new = s.rescEntry false ((s.hdrA l f).limbs - f.i) p (s.hdrA l f) (s.hdrD l f) ∧
    (s.hdrA l f).poison = false ∧ (s.hdrA l f).limbs - f.i ≤ (s.hdrA l f).level ∧
    r = (s.took 1).runLines l.req false (readOps (s.hdrA l f).ptr (s.hdrA l f).len) ∧ r.good ∧
    w = (r.st.took (2 * new.limbs * 2 ^ (s.hdrA l f).logn)).runLines l.req false
      (writeOps new.ptr (r.st.rescOut false p (s.hdrA l f) new r.data)) ∧ w.good := by
  have F : Free0 modxS (Loc.req ⟨0, 4, 5⟩) := free_of (s := modxS) rfl rfl rfl rfl rfl 5
  have g := resc_runs F rfl false set1 (modxS.hdrA ⟨0, 4, 5⟩ modxF)
    (modxS.rescEntry false 2 set1 (modxS.hdrA ⟨0, 4, 5⟩ modxF) (modxS.hdrD ⟨0, 4, 5⟩ modxF))
    (by decide +kernel) (by decide +kernel) (by decide +kernel) (by decide +kernel)
  exact ⟨modxS, ⟨0, 4, 5⟩, modxF, set1, _, _, _, ⟨by decide, by decide, by decide, by decide⟩, by decide, by decide,
    (by decide +kernel), (by decide +kernel), rfl, by decide, by decide, by decide, by decide, rfl, by decide,
      by decide, rfl, g.1, rfl, g.2⟩

/-- A key chunk whose header passes its checks is read whole, and nothing changes. -/
theorem Free0.chunk {s : State} {l : Loc} (F : Free0 s l.req) (chk : Bytes → Option FaultInfo) (d : Desc) (b : Bytes) (n : Nat)
    (h : 0x0100_00000000 ≤ d.base ∧ d.base + 64 + n ≤ 0x0100_00000000 + 0x4000000 ∧ linesOf d.base 64 = [d.base] ∧
      d.base / 64 * 64 = d.base ∧ s.bytes d.base 64 = b ∧ (Hdr.of (BitVec.ofNat 512 (fromLE b))).len = n ∧
      64 + n ≤ d.length ∧ chk b = none) :
    (s.readChunk l chk d).good ∧ (s.readChunk l chk d).st = s := by
  obtain ⟨h0, h1, ha, hm, hb, hn, hl, hc⟩ := h
  have hr : s.runLines l.req false (readOps d.base 64) = ⟨s, b, none, false, 1⟩ := by
    rw [readOps, F.reads _ (by intro a h; have := mem_linesOf h; exact ⟨by omega, by omega⟩), ha]
    simp [hm, hb]
  have ht := F.reads (linesOf (d.base + 64) (64 + n - 64)) (by intro a h; have := mem_linesOf h; exact ⟨by omega, by omega⟩)
  rw [← readOps] at ht
  unfold State.readChunk
  simp only [hr, hn, hc, State.readChunks, ht]
  simp only [Bool.false_eq_true, ne_eq, not_true, or_self, if_false]
  rw [if_neg (by omega)]
  exact ⟨⟨rfl, rfl⟩, rfl⟩

/-- Writes outside the one key range meet no key range. -/
theorem inEvk_one {s : State} {e : EvkEnt} (h : s.evk = [(0, e)]) (x : Nat)
    (hx : x < e.base.toNat ∨ e.base.toNat + e.length.toNat ≤ x) : s.inEvk x = false := by
  rw [State.inEvk, h]
  simp only [List.any_cons, List.any_nil, Bool.or_false, decide_eq_false_iff_not]
  omega

/-- A key stream of one chunk at 0x0100_0200_0000, registered for a purpose. -/
def keyE (purpose : Byte) (len : Nat) : EvkEnt :=
  { EvkEnt.zero with st := 1, base := 0x0100_02000000, length := BitVec.ofNat 64 len, purpose := purpose }

/-- A key header of set 1. -/
def keyH (limbs : Nat) : BitVec 512 := hd 3 13 limbs 0 0x0100_02000040 (limbs * 131072) 1 0 0 0 + BitVec.ofNat 512 (2 ^ 192)

/-- The strand's state with that key stream in its bank. -/
def kst (opc : Nat) (f : Fields) (a b : BitVec 512) (purpose : Byte) (limbs : Nat) : State :=
  { cst 6 opc f [(0, desc 3 0 64 0), (1, desc 3 1 64 0), (2, desc 4 0 (64 + limbs * 131072) 0x0100_02000000)] a b
      [(0, keyE purpose (64 + limbs * 131072))] with
    mem := Table.putList blank [] 0x0100_02000000 (le 64 (keyH limbs).toNat) }

theorem kswOut_length (s : State) (p : Machine.PSet) (h kh : Hdr) (o : Bool) (a b : Bytes) :
    (s.kswOut p h kh o a b).length = 16 * h.limbs * 2 ^ h.logn := by
  unfold State.kswOut
  simp only [State.outBytes, residBytes_length]
  ring

theorem extrOut_length (s : State) (p : Machine.PSet) (n i : Nat) (h kh : Hdr) (a b : Bytes) :
    (s.extrOut p n i h kh a b).length = dataLen 2 0 1 0 n := by
  unfold State.extrOut
  exact pad_length _ _

theorem packOut_length (s : State) (p : Machine.PSet) (n i : Nat) (d kh : Hdr) (a b c : Bytes) :
    (s.packOut p n i d kh a b c).length = 16 * 2 ^ d.logn := by
  unfold State.packOut
  simp only [State.outBytes, residBytes_length]
  ring

/-- A read of the strand's bank and then a write there. -/
theorem move_runs {s u : State} {l : Loc} {e : EvkEnt} (hu : u = s) (F : Free0 s l.req) (hk : s.evk = [(0, e)])
    (a n k c m : Nat) (out : Run → Bytes) (hn : ∀ r, (out r).length ≤ m)
    (h0 : 0x0100_00000000 ≤ a) (h1 : a + n ≤ 0x0100_00000000 + 0x4000000) (h2 : 0x0100_00000000 ≤ c)
    (h3 : c + m ≤ 0x0100_00000000 + 0x4000000) (h4 : c + m ≤ e.base.toNat) :
    (u.runLines l.req false (readOps a n)).good ∧
    (((u.runLines l.req false (readOps a n)).st.took k).runLines l.req false
      (writeOps c (out (u.runLines l.req false (readOps a n))))).good := by
  subst hu
  have r := F.run _ (readOps_ok u a n h0 h1)
  refine ⟨r.1, (Free0.run _ (r.2.1.took _) (writeOps_ok _ _ _ m (hn _) h2 h3 ?_)).1⟩
  intro x _ _
  exact inEvk_one (e := e) (r.2.2.trans hk) x (by omega)

def kswF : Fields := ⟨1, 0, 2, 0, 0, 0⟩
def kswS : State := kst 0x60 kswF (srcC 4 3) (dstC 4 3) 1 4

/-- A KSW that reads its key chunk and its source and writes its destination. -/
theorem witness_KeyStreams_ksw : ∃ (s : State) (l : Loc) (f : Fields) (p : Machine.PSet) (new kh : Hdr) (k r w : Run),
    s.issues l 0x60 f { stages := [St.kacc], dst := .d, sa := .d, sb := .d, imm := 1 } ∧
    (s.descD l f).ok l.s 1 [3] = true ∧ (s.descA l f).ok l.s 1 [3] = true ∧ (s.descB l f).ok l.s 1 [4] = true ∧
    s.hdrCheck (s.ctxOf l) (s.hdrA l f) = none ∧ s.hdrCheck (s.ctxOf l) (s.hdrD l f) = none ∧
    s.pset (s.ctxOf l) (s.hdrA l f).pset = some p ∧ (s.hdrA l f).typ = 1 ∧
    overlaps (s.hdrA l f).ptr (s.hdrA l f).len (s.hdrD l f).ptr (s.hdrA l f).len = false ∧
    new = kswEntry (s.hdrA l f) (s.hdrD l f) (decide (f.i = 1)) ∧
    s.keyRegistered (s.ctxOf l) (s.descB l f) [1, 2] = true ∧ (s.hdrA l f).poison = false ∧
    k = s.readChunk l (s.chunkFault (s.ctxOf l) [(s.hdrA l f).keytag] (kswShape (s.hdrA l f))) (s.descB l f) ∧
      k.good ∧
    kh = Hdr.of (BitVec.ofNat 512 (fromLE (k.data.take 64))) ∧
    r = k.st.runLines l.req false (readOps (s.hdrA l f).ptr (s.hdrA l f).len) ∧ r.good ∧
    w = (r.st.took (2 * (s.hdrA l f).limbs * 2 ^ (s.hdrA l f).logn)).runLines l.req false
      (writeOps new.ptr (r.st.kswOut p (s.hdrA l f) kh (decide (f.i = 1)) r.data (k.data.drop 64))) ∧ w.good := by
  have F : Free0 kswS (Loc.req ⟨0, 4, 6⟩) := free_of (s := kswS) rfl rfl rfl rfl rfl 6
  have c := F.chunk (kswS.chunkFault 0 [0] (kswShape (kswS.hdrA ⟨0, 4, 6⟩ kswF))) (kswS.descB ⟨0, 4, 6⟩ kswF)
    (le 64 (keyH 4).toNat) 524288 (by decide +kernel)
  generalize hc : kswS.readChunk ⟨0, 4, 6⟩ (kswS.chunkFault 0 [0] (kswShape (kswS.hdrA ⟨0, 4, 6⟩ kswF)))
    (kswS.descB ⟨0, 4, 6⟩ kswF) = k at c
  have g := move_runs c.2 F rfl (kswS.hdrA ⟨0, 4, 6⟩ kswF).ptr (kswS.hdrA ⟨0, 4, 6⟩ kswF).len
    (2 * (kswS.hdrA ⟨0, 4, 6⟩ kswF).limbs * 2 ^ (kswS.hdrA ⟨0, 4, 6⟩ kswF).logn) 0x0100_01000000 524288
    (fun r => r.st.kswOut set1 (kswS.hdrA ⟨0, 4,
      6⟩ kswF) (Hdr.of (BitVec.ofNat 512 (fromLE (k.data.take 64)))) false r.data
      (k.data.drop 64)) (fun r => by rw [kswOut_length]; decide +kernel) (by decide +kernel) (by decide +kernel) (by decide) (by decide)
    (by decide +kernel)
  exact ⟨kswS, ⟨0, 4, 6⟩, kswF, set1, _, _, k, _, _, ⟨by decide, by decide, by decide, by decide⟩, by decide,
    by decide, by decide,
    (by decide +kernel), (by decide +kernel), rfl, by decide, by decide, rfl, (by decide +kernel), by decide,
      hc.symm, c.1, rfl,
    rfl, g.1, rfl, g.2⟩

/-- Parameter set 0x0010 (R179). -/
def set16 : Machine.PSet := ⟨2, 10, 1, 0, 1, 8, 512, 0, [52]⟩

def extrS : State := kst 0x62 kswF (srcC 1 0) (dstC 1 0) 3 1

/-- An EXTR that reads its key chunk and its source and writes its destination. -/
theorem witness_KeyStreams_extr : ∃ (s : State) (l : Loc) (f : Fields) (p w0 : Machine.PSet) (new kh : Hdr) (k r w : Run),
    s.issues l 0x62 f { stages := [St.kacc], dst := .d, sa := .d, sb := .d, imm := 0x1FFFF } ∧
    (s.descD l f).ok l.s 1 [3] = true ∧ (s.descA l f).ok l.s 1 [3] = true ∧ (s.descB l f).ok l.s 1 [4] = true ∧
    s.hdrCheck (s.ctxOf l) (s.hdrA l f) = none ∧ s.hdrCheck (s.ctxOf l) (s.hdrD l f) = none ∧
    s.pset (s.ctxOf l) (s.hdrA l f).pset = some p ∧ p.lweSet ≠ 0 ∧ s.pset (s.ctxOf l) p.lweSet = some w0 ∧
    (s.hdrA l f).typ = 1 ∧ (s.hdrA l f).ntt = false ∧ (s.hdrA l f).limbs = 1 ∧ f.i < 2 ^ (s.hdrA l f).logn ∧
    s.keyRegistered (s.ctxOf l) (s.descB l f) [3] = true ∧
      new = extrEntry (s.hdrA l f) (s.hdrD l f) p.lweSet w0.lweN ∧
    (s.hdrA l f).poison = false ∧
    k = s.readChunk l (s.chunkFault (s.ctxOf l) [(s.hdrA l f).keytag] (kswShape (s.hdrA l f))) (s.descB l f) ∧
      k.good ∧
    kh = Hdr.of (BitVec.ofNat 512 (fromLE (k.data.take 64))) ∧
    r = k.st.runLines l.req false (readOps (s.hdrA l f).ptr (s.hdrA l f).len) ∧ r.good ∧
    w = (r.st.took (w0.lweN + 1)).runLines l.req false
      (writeOps new.ptr (r.st.extrOut p.first w0.lweN f.i (s.hdrA l f) kh r.data (k.data.drop 64))) ∧ w.good := by
  have F : Free0 extrS (Loc.req ⟨0, 4, 6⟩) := free_of (s := extrS) rfl rfl rfl rfl rfl 6
  have c := F.chunk (extrS.chunkFault 0 [0] (kswShape (extrS.hdrA ⟨0, 4, 6⟩ kswF))) (extrS.descB ⟨0, 4, 6⟩ kswF)
    (le 64 (keyH 1).toNat) 131072 (by decide +kernel)
  generalize hc : extrS.readChunk ⟨0, 4, 6⟩ (extrS.chunkFault 0 [0] (kswShape (extrS.hdrA ⟨0, 4, 6⟩ kswF)))
    (extrS.descB ⟨0, 4, 6⟩ kswF) = k at c
  have g := move_runs c.2 F rfl (extrS.hdrA ⟨0, 4, 6⟩ kswF).ptr (extrS.hdrA ⟨0, 4, 6⟩ kswF).len (set16.lweN + 1)
    0x0100_01000000 4160 (fun r => r.st.extrOut set1.first set16.lweN kswF.i (extrS.hdrA ⟨0, 4, 6⟩ kswF)
      (Hdr.of (BitVec.ofNat 512 (fromLE (k.data.take 64)))) r.data (k.data.drop 64))
    (fun r => by rw [extrOut_length]; decide +kernel) (by decide +kernel) (by decide +kernel) (by decide) (by decide)
    (by decide +kernel)
  exact ⟨extrS, ⟨0, 4, 6⟩, kswF, set1, set16, _, _, k, _, _, ⟨by decide, by decide, by decide, by decide⟩, by decide,
    by decide,
    by decide, (by decide +kernel), (by decide +kernel), rfl, by decide, rfl, by decide, by decide, by decide,
      by decide,
    (by decide +kernel), rfl, by decide, hc.symm, c.1, rfl, rfl, g.1, rfl, g.2⟩

def packS : State := kst 0x63 kswF (hd 2 0 1 0 0x0100_00000000 4160 16 512 0 0) (dstC 1 0) 4 1

/-- A PACK that reads its key chunk, its source and its destination and writes the destination. -/
theorem witness_KeyStreams_pack : ∃ (s : State) (l : Loc) (f : Fields) (p : Machine.PSet) (new kh : Hdr) (k r d w : Run),
    s.issues l 0x63 f { stages := [St.kacc], dst := .d, sa := .d, sb := .d, imm := 0x1FFFF } ∧
    (s.descD l f).ok l.s 1 [3] = true ∧ (s.descA l f).ok l.s 1 [3] = true ∧ (s.descB l f).ok l.s 1 [4] = true ∧
    s.hdrCheck (s.ctxOf l) (s.hdrA l f) = none ∧ s.hdrCheck (s.ctxOf l) (s.hdrD l f) = none ∧
    s.pset (s.ctxOf l) (s.hdrD l f).pset = some p ∧ (s.hdrA l f).typ = 2 ∧ (s.hdrD l f).typ = 1 ∧
    (s.hdrD l f).limbs = 1 ∧ p.lweSet = (s.hdrA l f).pset ∧ f.i < 2 ^ (s.hdrD l f).logn ∧
    s.keyRegistered (s.ctxOf l) (s.descB l f) [4] = true ∧ new = packEntry (s.hdrA l f) (s.hdrD l f) ∧
    (s.hdrA l f).poison = false ∧ (s.hdrD l f).poison = false ∧
    k = s.readChunk l (s.chunkFault (s.ctxOf l) [(s.hdrA l f).keytag, (s.hdrD l f).keytag] (kswShape (s.hdrD l f)))
      (s.descB l f) ∧ k.good ∧ kh = Hdr.of (BitVec.ofNat 512 (fromLE (k.data.take 64))) ∧
    r = k.st.runLines l.req false (readOps (s.hdrA l f).ptr (s.hdrA l f).len) ∧ r.good ∧
    d = r.st.runLines l.req false (readOps (s.hdrD l f).ptr (s.hdrD l f).len) ∧ d.good ∧
    w = (d.st.took (2 * 2 ^ (s.hdrD l f).logn)).runLines l.req false (writeOps new.ptr
      (d.st.packOut p.first (s.hdrA l f).lweN f.i (s.hdrD l f) kh d.data r.data (k.data.drop 64))) ∧ w.good := by
  have F : Free0 packS (Loc.req ⟨0, 4, 6⟩) := free_of (s := packS) rfl rfl rfl rfl rfl 6
  have c := F.chunk (packS.chunkFault 0 [0, 0] (kswShape (packS.hdrD ⟨0, 4, 6⟩ kswF))) (packS.descB ⟨0, 4, 6⟩ kswF)
    (le 64 (keyH 1).toNat) 131072 (by decide +kernel)
  generalize hc : packS.readChunk ⟨0, 4, 6⟩ (packS.chunkFault 0 [0, 0] (kswShape (packS.hdrD ⟨0, 4, 6⟩ kswF)))
    (packS.descB ⟨0, 4, 6⟩ kswF) = k at c
  have a := Free0.run _ (c.2.symm ▸ F) (readOps_ok k.st (packS.hdrA ⟨0, 4, 6⟩ kswF).ptr (packS.hdrA ⟨0, 4,
    6⟩ kswF).len
    (by decide +kernel) (by decide +kernel))
  generalize hr : k.st.runLines (Loc.req ⟨0, 4, 6⟩) false (readOps (packS.hdrA ⟨0, 4, 6⟩ kswF).ptr
    (packS.hdrA ⟨0, 4, 6⟩ kswF).len) = r at a
  have hk : r.st.evk = [(0, keyE 4 131136)] := a.2.2.trans (congrArg State.evk c.2)
  have g := move_runs rfl a.2.1 hk (packS.hdrD ⟨0, 4, 6⟩ kswF).ptr (packS.hdrD ⟨0, 4, 6⟩ kswF).len
    (2 * 2 ^ (packS.hdrD ⟨0, 4, 6⟩ kswF).logn) 0x0100_01000000 131072
    (fun d => d.st.packOut set1.first (packS.hdrA ⟨0, 4, 6⟩ kswF).lweN kswF.i (packS.hdrD ⟨0, 4, 6⟩ kswF)
      (Hdr.of (BitVec.ofNat 512 (fromLE (k.data.take 64)))) d.data r.data (k.data.drop 64))
    (fun d => by rw [packOut_length]; decide +kernel) (by decide +kernel) (by decide +kernel) (by decide) (by decide)
    (by decide +kernel)
  exact ⟨packS, ⟨0, 4, 6⟩, kswF, set1, _, _, k, r, _, _, ⟨by decide, by decide, by decide, by decide⟩, by decide,
    by decide,
    by decide, (by decide +kernel), (by decide +kernel), rfl, by decide, by decide, by decide, by decide, by decide,
    (by decide +kernel), rfl, by decide, by decide, hc.symm, c.1, rfl, hr.symm, a.1, rfl, g.1, rfl, g.2⟩

/-- A refresh key header of set 0x0010. -/
def rfrH : BitVec 512 := hd 3 10 1 0 0x0100_02000040 16384 16 0 0 0 + BitVec.ofNat 512 (2 ^ 192)

/-- A memory with the first n chunk headers of a refresh key stream. -/
def hdrMem (m : List Host.Cell) : Nat → List Host.Cell
  | 0 => m
  | n + 1 => Table.putList blank (hdrMem m n) (0x0100_02000000 + n * 32832) (le 64 rfrH.toNat)

def hdrsIn (s : State) (n : Nat) : State := { s with mem := hdrMem s.mem n }

theorem hdrsIn_succ (s : State) (n : Nat) :
    hdrsIn s (n + 1) = (hdrsIn s n).store (0x0100_02000000 + n * 32832) (le 64 rfrH.toNat) := rfl

theorem hdrsIn_below (s : State) (n x : Nat) (h : x < 0x0100_02000000) : (hdrsIn s n).byte x = s.byte x := by
  induction n with
  | zero => rfl
  | succ n ih => rw [hdrsIn_succ, State.byte_store_outside _ _ _ _ (by omega), ih]

theorem hdrsIn_byte (s : State) (n i k : Nat) (hi : i < n) (hk : k < 64) :
    (hdrsIn s n).byte (0x0100_02000000 + i * 32832 + k) = (le 64 rfrH.toNat).getD k 0 := by
  induction n with
  | zero => omega
  | succ n ih =>
    rw [hdrsIn_succ, State.byte_store]
    simp only [le_length]
    by_cases e : i = n
    · subst e
      rw [if_pos (by omega), Nat.add_sub_cancel_left]
    · rw [if_neg (by omega)]
      exact ih (by omega)

/-- A range reads as a list if each of its bytes does. -/
theorem bytes_of (s : State) (b : Bytes) : ∀ (a : Nat), (∀ k, k < b.length → s.byte (a + k) = b.getD k 0) → s.bytes a b.length = b := by
  induction b with
  | nil => intro a _; rfl
  | cons x b ih =>
    intro a h
    have h0 := h 0 (by simp)
    have hs := ih (a + 1) (fun k hk => by
      have := h (k + 1) (by simpa using hk)
      rw [show a + 1 + k = a + (k + 1) by omega, this]
      rfl)
    show Table.get blank s.mem a :: Table.getList blank s.mem (a + 1) b.length = x :: b
    exact congrArg₂ List.cons h0 hs

theorem hdrsIn_bytes (s : State) (n i : Nat) (hi : i < n) :
    (hdrsIn s n).bytes (0x0100_02000000 + i * 32832) 64 = le 64 rfrH.toNat := by
  have h := bytes_of (hdrsIn s n) (le 64 rfrH.toNat) (0x0100_02000000 + i * 32832)
    (fun k hk => hdrsIn_byte s n i k hi (by rwa [le_length] at hk))
  rwa [le_length] at h

/-- Chunks whose headers pass are read whole, and nothing changes. -/
theorem Free0.chunks {s : State} {l : Loc} (F : Free0 s l.req) (chk : Bytes → Option FaultInfo) (cs : List (Nat × Nat))
    (h : ∀ c, c ∈ cs → 0x0100_00000000 ≤ c.1 ∧ 64 ≤ c.2 ∧ c.1 + c.2 ≤ 0x0100_00000000 + 0x4000000 ∧ c.1 % 64 = 0 ∧
      chk (s.bytes c.1 64) = none) :
    (s.readChunks l chk cs).good ∧ (s.readChunks l chk cs).st = s := by
  induction cs with
  | nil => exact ⟨⟨rfl, rfl⟩, rfl⟩
  | cons c cs ih =>
    obtain ⟨a, n⟩ := c
    obtain ⟨h0, h64, h1, hm, hc⟩ := h (a, n) (by simp)
    have ih' := ih (fun d hd => h d (by simp [hd]))
    simp only at h0 h64 h1 hm hc
    have hl : linesOf a 64 = [a] := by
      have e : (a + 64 - 1) / 64 - a / 64 + 1 = 1 := by omega
      have e2 : a / 64 * 64 = a := by omega
      rw [linesOf, if_neg (by decide), e]
      simp [List.range_succ, e2]
    have e2 : a / 64 * 64 = a := by omega
    have hr : s.runLines l.req false (readOps a 64) = ⟨s, s.bytes a 64, none, false, 1⟩ := by
      rw [readOps, F.reads _ (by intro x hx; have := mem_linesOf hx; exact ⟨by omega, by omega⟩), hl]
      simp [e2]
    have ht := F.reads (linesOf (a + 64) (n - 64)) (by intro x hx; have := mem_linesOf hx; exact ⟨by omega, by omega⟩)
    rw [← readOps] at ht
    rw [State.readChunks]
    simp only [hr, hc, ht, Bool.false_eq_true, ne_eq, not_true, or_self, if_false]
    exact ih'

def rfrF : Fields := ⟨1, 0, 2, 3, 0, 0⟩
def rfrB : State :=
  cst 6 0x61 rfrF [(0, desc 3 0 64 0), (1, desc 3 1 64 0), (2, desc 4 0 16826432 0x0100_02000000), (3,
    desc 1 0 16 0x0100_01800000)]
    (hd 2 0 1 0 0x0100_00000000 4160 16 512 0 0) (hd 2 0 1 0 0x0100_01000000 4160 16 512 0 0) [(0, keyE 5 16826432)]
def rfrS : State := hdrsIn rfrB 513

theorem rfrOut_length (s : State) (p : Machine.PSet) (h : Hdr) (lut src : Bytes) (k : Nat) (key : Bool) :
    (s.rfrOut p h lut src k key).length = dataLen 2 0 1 0 p.lweN := by
  unfold State.rfrOut
  exact pad_length _ _

theorem rfr_chk (s : State) (h : s.hdrCheck 0 (Hdr.of (BitVec.ofNat 512 (fromLE (le 64 rfrH.toNat)))) = none) :
    s.chunkFault 0 [0] (rfrShape set16 16) (le 64 rfrH.toNat) = none := by
  unfold State.chunkFault
  simp only [h]
  decide +kernel

theorem rfr_chunks (s : State) (hp : s.part = .m12l4) (hr : s.regs = cregs) (he : s.ecc = []) (hd : s.d2d = []) (hx : s.banks = [])
    (hb : ∀ i, i < 513 → s.bytes (0x0100_02000000 + i * 32832) 64 = le 64 rfrH.toNat)
    (hc : s.hdrCheck 0 (Hdr.of (BitVec.ofNat 512 (fromLE (le 64 rfrH.toNat)))) = none) :
    (s.readChunks ⟨0, 4, 6⟩ (s.chunkFault 0 [0] (rfrShape set16 16)) (rfrChunks 0x0100_02000000 512 16384)).good ∧
    (s.readChunks ⟨0, 4,
      6⟩ (s.chunkFault 0 [0] (rfrShape set16 16)) (rfrChunks 0x0100_02000000 512 16384)).st = s := by
  refine Free0.chunks (l := ⟨0, 4, 6⟩) (free_of hp hr he hd hx 6) _ _ ?_
  have key : ∀ i n, i < 513 → 64 ≤ n → n ≤ 32832 →
      0x0100_00000000 ≤ 0x0100_02000000 + i * 32832 ∧ 64 ≤ n ∧
      0x0100_02000000 + i * 32832 + n ≤ 0x0100_00000000 + 0x4000000 ∧ (0x0100_02000000 + i * 32832) % 64 = 0 ∧
      s.chunkFault 0 [0] (rfrShape set16 16) (s.bytes (0x0100_02000000 + i * 32832) 64) = none := by
    intro i n hi h1 h2
    refine ⟨by omega, h1, by omega, by omega, ?_⟩
    rw [hb i hi]
    exact rfr_chk s hc
  intro c h
  rcases List.mem_append.1 h with h | h
  · obtain ⟨i, hi, rfl⟩ := List.mem_map.1 h
    exact key i 32832 (Nat.lt_succ_of_lt (List.mem_range.1 hi)) (by decide) (by decide)
  · have e := List.mem_singleton.1 h
    subst e
    exact key 512 16448 (by decide) (by decide) (by decide)

/-- A run of reads. -/
theorem Free0.span {s : State} {r : Requester} (F : Free0 s r) (a n : Nat) (h0 : 0x0100_00000000 ≤ a)
    (h1 : a + n ≤ 0x0100_00000000 + 0x4000000) :
    s.runLines r false (readOps a n) = ⟨s, ((linesOf a n).map (fun x => s.bytes (x / 64 * 64) 64)).flatten, none,
      false, (linesOf a n).length⟩ :=
  F.reads _ (fun x hx => by have := mem_linesOf hx; exact ⟨by omega, by omega⟩)

theorem rfr_lut (s : State) (h : s.bytes 0x0100_01800000 64 = List.replicate 64 0) :
    lutOk set16 ((((linesOf 0x0100_01800000 16).map (fun x => s.bytes (x / 64 * 64) 64)).flatten).take 16) = true := by
  have e : linesOf 0x0100_01800000 16 = [0x0100_01800000] := by decide
  rw [e, List.map_singleton, List.flatten_singleton, show 0x0100_01800000 / 64 * 64 = 0x0100_01800000 by decide, h]
  have q : 0 < set16.q 0 := romQ_pos _
  have h0 : resid ((List.replicate 64 0).take 16) 0 = 0 := by decide
  have h1 : resid ((List.replicate 64 0).take 16) 1 = 0 := by decide
  unfold lutOk
  simp only [show ((List.replicate 64 (0 : Byte)).take 16).length / 8 = 2 by decide, show List.range 2 = [0,
    1] by decide,
    List.all_cons, List.all_nil, h0, h1, q, decide_true, Bool.and_true]
  decide

theorem rfr_zero (k : Nat) (h : k < 64) : rfrS.byte (0x0100_01800000 + k) = 0 := by
  rw [rfrS, hdrsIn_below _ _ _ (by omega)]
  rfl

theorem rfr_key (i : Nat) (h : i < 513) : rfrS.bytes (0x0100_02000000 + i * 32832) 64 = le 64 rfrH.toNat := by
  rw [rfrS]
  exact hdrsIn_bytes _ _ _ h

/-- An RFR of one sample that reads its key stream, its table and its source and writes its destination. -/
theorem witness_LevelDropsAndRefresh_rfr : ∃ (s : State) (l : Loc) (f : Fields) (hs : List Hdr) (p : Machine.PSet)
    (k b r w : Run), s.issues l 0x61 f
      { stages := [St.kacc], dst := .d, sa := .d, sb := .d, sc := .d, imm := 0xF } ∧
    (s.descD l f).ok l.s (f.i + 1) [3] = true ∧ (s.descA l f).ok l.s (f.i + 1) [3] = true ∧
    (s.descB l f).ok l.s 1 [4] = true ∧ (s.descC l f).ok l.s 1 [1] = true ∧
    hs = (List.range (f.i + 1)).map (fun k => s.hdr l ((s.descA l f).index + k)) ∧
    (∀ g, g ∈ hs → s.hdrCheck (s.ctxOf l) g = none ∧ g.typ = 2 ∧ g.lweN = (s.hdrA l f).lweN ∧
      g.pset = (s.hdrA l f).pset ∧ g.keytag = (s.hdrA l f).keytag) ∧
    (∀ k, k < f.i + 1 → s.hdrCheck (s.ctxOf l) (s.hdr l ((s.descD l f).index + k)) = none) ∧
    s.pset (s.ctxOf l) (s.hdrA l f).pset = some p ∧ (s.descC l f).length ≤ 16384 ∧ (s.descC l f).length % 8 = 0 ∧
    s.keyRegistered (s.ctxOf l) (s.descB l f) [5] = true ∧ hs.any Hdr.poison = false ∧
    rfrLen p.lweN (dataLen 3 p.logn 1 p.dnum 0) ≤ (s.descB l f).length ∧
    k = s.readChunks l (s.chunkFault (s.ctxOf l) [(s.hdrA l f).keytag] (rfrShape p (s.hdrA l f).pset))
      (rfrChunks (s.descB l f).base p.lweN (dataLen 3 p.logn 1 p.dnum 0)) ∧ k.good ∧
    b = k.st.runLines l.req false (readOps (s.descC l f).base (s.descC l f).length) ∧ b.good ∧
    lutOk p (b.data.take (s.descC l f).length) = true ∧
    r = b.st.runLines l.req false ((hs.map (fun g => readOps g.ptr g.len)).flatten) ∧ r.good ∧
    w = r.st.runLines l.req false (((List.range (f.i + 1)).map (fun j => writeOps (r.st.hdr l ((s.descD l f).index + j)).ptr
      (r.st.rfrOut p (s.hdrA l f) (b.data.take (s.descC l f).length) (sub r.data (j * (s.hdrA l f).len) (s.hdrA l f).len) j
        (Config.refreshKey (s.hdrA l f).keytag ((b.data.take (s.descC l f).length).length / 8) k.data)))).flatten) ∧
    w.good := by
  have hc : rfrS.hdrCheck 0 (Hdr.of (BitVec.ofNat 512 (fromLE (le 64 rfrH.toNat)))) = none := by decide +kernel
  have F : Free0 rfrS (Loc.req ⟨0, 4, 6⟩) := free_of (s := rfrS) rfl rfl rfl rfl rfl 6
  have c := rfr_chunks rfrS rfl rfl rfl rfl rfl rfr_key hc
  have hz : rfrS.bytes 0x0100_01800000 64 = List.replicate 64 0 :=
    bytes_of rfrS (List.replicate 64 0) _ (fun k hk => by
      rw [List.length_replicate] at hk
      rw [rfr_zero k hk, List.getD_eq_getElem?_getD, List.getElem?_replicate, if_pos hk]
      rfl)
  have hb := F.span 0x0100_01800000 16 (by decide) (by decide)
  have hr := F.span 0x0100_00000000 4160 (by decide) (by decide)
  have hl := rfr_lut rfrS hz
  generalize hk : rfrS.readChunks ⟨0, 4, 6⟩ (rfrS.chunkFault 0 [0] (rfrShape set16 16))
    (rfrChunks 0x0100_02000000 512 16384) = k at c
  have e1 : (rfrS.descC ⟨0, 4, 6⟩ rfrF).base = 0x0100_01800000 := by decide
  have e2 : (rfrS.descC ⟨0, 4, 6⟩ rfrF).length = 16 := by decide
  have e3 : (rfrS.hdrA ⟨0, 4, 6⟩ rfrF).ptr = 0x0100_00000000 := by decide +kernel
  have e4 : (rfrS.hdrA ⟨0, 4, 6⟩ rfrF).len = 4160 := by decide +kernel
  have e5 : (rfrS.hdr ⟨0, 4, 6⟩ (rfrS.descD ⟨0, 4, 6⟩ rfrF).index).ptr = 0x0100_01000000 := by decide +kernel
  have e6 : (rfrS.descB ⟨0, 4, 6⟩ rfrF).base = 0x0100_02000000 := by decide
  have e7 : (rfrS.hdrA ⟨0, 4, 6⟩ rfrF).keytag = 0 := by decide +kernel
  have e8 : (rfrS.hdrA ⟨0, 4, 6⟩ rfrF).pset = 16 := by decide +kernel
  have hw := fun out => fun hn => (F.run (writeOps 0x0100_01000000 out) (writeOps_ok _ _ _ 4160 hn
    (by decide) (by decide) (fun x h0 h1 => inEvk_one (e := keyE 5 16826432) rfl x (Or.inl (by
      have : (keyE 5 16826432).base.toNat = 0x0100_02000000 := by decide
      omega))))).1
  refine ⟨rfrS, ⟨0, 4, 6⟩, rfrF, _, set16, k,
    ⟨rfrS, ((linesOf 0x0100_01800000 16).map (fun x => rfrS.bytes (x / 64 * 64) 64)).flatten, none, false,
      (linesOf 0x0100_01800000 16).length⟩,
    ⟨rfrS, ((linesOf 0x0100_00000000 4160).map (fun x => rfrS.bytes (x / 64 * 64) 64)).flatten, none, false,
      (linesOf 0x0100_00000000 4160).length⟩, _, ⟨by decide, by decide, by decide, by decide⟩, by decide, by decide,
    by decide, by decide, rfl, (by decide +kernel), (by decide +kernel), rfl, by decide, by decide,
      (by decide +kernel), by decide,
    (by decide +kernel), ?_, c.1, ?_, ⟨rfl, rfl⟩, ?_, ?_, ⟨rfl, rfl⟩, rfl, ?_⟩
  · rw [e6, e7, e8]; exact hk.symm
  · rw [c.2, e1, e2, hb]
  · rw [e2]; exact hl
  · have hf : (List.range (rfrF.i + 1)).map (fun k => rfrS.hdr ⟨0, 4, 6⟩ ((rfrS.descA ⟨0, 4, 6⟩ rfrF).index + k)) =
        [rfrS.hdrA ⟨0, 4, 6⟩ rfrF] := by decide +kernel
    rw [hf, List.map_singleton, List.flatten_singleton, e3, e4, hr]
  · have hf : ∀ g : Nat → List (Nat × Option Bytes), ((List.range (rfrF.i + 1)).map g).flatten = g 0 := by
      intro g
      have : List.range (rfrF.i + 1) = [0] := by decide
      rw [this, List.map_singleton, List.flatten_singleton]
    rw [hf, Nat.add_zero, e5]
    exact hw _ (by rw [rfrOut_length]; decide)

end Sys2Proof.Tests
end

/-! ### Shared laws: encodings, the part, event records, register accesses, HBM's domain -/

section
namespace Sys2Proof.Machine

theorem length_le (n x : Nat) : (le n x).length = n := by
  induction n generalizing x with
  | zero => rfl
  | succ n ih => simp [le, ih]

theorem length_be (n x : Nat) : (be n x).length = n := by simp [be, length_le]

/-- An event record touches only the registers of the event queues, which lie above every other page. -/
theorem State.post_reg (s : State) (q : Nat) (e : Ev) {a : Nat} (h : a < 0x3800000) : (s.post q e).reg a = s.reg a := by
  have h1 : a ≠ Reg.evqTail q := by unfold Reg.evqTail regAddr; omega
  have h2 : a ≠ Reg.evqStat q := by unfold Reg.evqStat regAddr; omega
  have h3 : a ≠ Reg.evqDrop q := by unfold Reg.evqDrop regAddr; omega
  unfold State.post
  dsimp only
  split
  · unfold State.count State.addFld
    rw [State.reg_setFld_ne _ _ _ _ _ _ h3, State.reg_setFld_ne _ _ _ _ _ _ h2]
    rfl
  · unfold State.evqRefresh
    rw [State.reg_setFld_ne _ _ _ _ _ _ h2, State.reg_setFld_ne _ _ _ _ _ _ h2, State.reg_setFld_ne _ _ _ _ _ _ h1]
    rfl

theorem Part.ldCount_le (p : Part) : p.ldCount ≤ 4 := by cases p <;> decide

/-- A permitted access that writes a register of a domain that is ON, over clean links, is the write (R16, R34–R37). -/
theorem State.writeAccess_on {s : State} {a : Acc} {n : Nat} (k : State → State) (hc : s.accessCheck a true = none)
    (hl : s.linksClean = true) (ha : s.absentLd a.addr = false) (hd : regDomain a.addr = some n) (hp : s.pdState n = 0) :
    s.writeAccess a k = k (s.dropWbuf a.core.val) := by
  have h6 : ¬ s.pdState n = 6 := by omega
  have h0 : s.pdOn n = true := decide_eq_true hp
  unfold State.writeAccess State.access
  simp only [hc, ha, hd, if_neg h6, h0, if_true, Bool.false_eq_true, if_false, State.crossPorts_clean s hl]
  unfold State.ceReply
  rw [State.linkCeTo_self, if_neg (by omega)]

end Sys2Proof.Machine
end

/-! ### Packets that are forwarded (R325–R330)

What `State.forwardPkt` does with the packet that `takeFirst` gives, one lemma per branch. -/

section
namespace Sys2Proof.Machine

/-- The packet that is taken is the oldest that satisfies `p`, and the others keep their order. -/
theorem takeFirst_eq_some (p : RouterPkt → Bool) (xs rest : List RouterPkt) (r : RouterPkt)
    (h : takeFirst p xs = some (r, rest)) :
    ∃ a b, xs = a ++ r :: b ∧ rest = a ++ b ∧ p r = true ∧ ∀ x, x ∈ a → p x = false := by
  induction xs generalizing rest with
  | nil => simp [takeFirst] at h
  | cons x xs ih =>
    unfold takeFirst at h
    split at h
    next hx =>
      obtain ⟨rfl, rfl⟩ := Prod.mk.inj (Option.some.inj h)
      exact ⟨[], xs, rfl, rfl, hx, by simp⟩
    next hx =>
      obtain ⟨⟨y, ys⟩, hy, he⟩ := Option.map_eq_some_iff.mp h
      obtain ⟨rfl, rfl⟩ := Prod.mk.inj he
      obtain ⟨a, b, rfl, rfl, hp, ha⟩ := ih ys hy
      refine ⟨x :: a, b, rfl, rfl, hp, fun z hz => ?_⟩
      rcases List.mem_cons.mp hz with rfl | hz
      · simpa using hx
      · exact ha z hz

/-- PACKET_FORWARD works on the packet that `takeFirst` gives. -/
theorem exec_packetForward {s : State} {l : Fin 4} {vc : Fin 12} {r : RouterPkt} {rest : List RouterPkt}
    (h : takeFirst (fun x => decide (x.vc = vc ∧ x.pkt.ptype ≠ 2)) (s.rbuf l.val) = some (r, rest)) :
    exec (.packetForward l vc) s = .next (s.forwardPkt l.val r rest) := by
  show execPacketForward l vc s = _
  unfold execPacketForward
  rw [h]

@[simp] theorem State.freeInput_d2d (s : State) (r : RouterPkt) : (s.freeInput r).d2d = s.d2d := by
  unfold State.freeInput; split <;> rfl

/-- Taking a packet from its buffer leaves the die-to-die ports alone. -/
theorem State.taken_linksClean {s : State} (h : s.linksClean = true) (l : Nat) (r : RouterPkt) (rest : List RouterPkt) :
    ((s.setRbuf l rest).freeInput r).linksClean = true := by
  unfold State.linksClean at h ⊢; rwa [State.freeInput_d2d]

/-- Over clean links a packet leaves by its bundle (R328). -/
theorem State.sendOver_clean {s : State} (h : s.linksClean = true) (l b : Nat) (vc : Fin 12) (p : Packet) :
    s.sendOver l b vc p = (s.sendData b vc p, Code.ok) := by
  unfold State.sendOver; rw [State.crossPorts_clean s h]; rfl

/-- What is no broadcast takes the branches of a packet for one module. -/
theorem not_bcast {p : Packet} (h : p.ptype ≠ 3 ∨ p.bcast = false) : ¬ (p.ptype = 3 ∧ p.bcast = true) := by
  rintro ⟨h1, h2⟩; simp [h1, h2] at h

/-! The branches of `forwardPkt`. -/

section Branches
variable {s : State} {l : Nat} {r : RouterPkt} {rest : List RouterPkt}

theorem State.forwardPkt_dropped {o : Nat} (h : s.arrivalDrop l r = some o) :
    s.forwardPkt l r rest = (((s.setRbuf l rest).freeInput r).twCount l o).done Code.ok := by
  unfold State.forwardPkt; simp only [h]

theorem State.forwardPkt_bcast (h : s.arrivalDrop l r = none) (hp : r.pkt.ptype = 3) (hb : r.pkt.bcast = true) :
    s.forwardPkt l r rest = s.forwardBcast l r rest := by
  unfold State.forwardPkt; simp only [h, hp, hb, and_self, if_true]

theorem State.forwardPkt_here (h : s.arrivalDrop l r = none) (hu : r.pkt.ptype ≠ 3 ∨ r.pkt.bcast = false)
    (hd : r.pkt.dst.toNat = s.ownId) :
    s.forwardPkt l r rest = ((s.setRbuf l rest).freeInput r).handOver l r.pkt := by
  unfold State.forwardPkt; simp only [h, not_bcast hu, if_false, hd, if_true]

/-- The packet for another module: no port serves it, it waits for credits or behind a CTRL packet, or it leaves. -/
theorem State.forwardPkt_noRoute (h : s.arrivalDrop l r = none) (hu : r.pkt.ptype ≠ 3 ∨ r.pkt.bcast = false)
    (hd : r.pkt.dst.toNat ≠ s.ownId) (hh : s.hop r = .drop) :
    s.forwardPkt l r rest = (((s.setRbuf l rest).freeInput r).twCount l 0x2C).done Code.ok := by
  unfold State.forwardPkt; simp only [h, not_bcast hu, if_false, hd, hh]

theorem State.forwardPkt_waits (h : s.arrivalDrop l r = none) (hu : r.pkt.ptype ≠ 3 ∨ r.pkt.bcast = false)
    (hd : r.pkt.dst.toNat ≠ s.ownId) (hh : s.hop r = .wait) : s.forwardPkt l r rest = s.waits := by
  unfold State.forwardPkt; simp only [h, not_bcast hu, if_false, hd, hh]

theorem State.forwardPkt_ctrlFirst {b w : Nat} (h : s.arrivalDrop l r = none)
    (hu : r.pkt.ptype ≠ 3 ∨ r.pkt.bcast = false) (hd : r.pkt.dst.toNat ≠ s.ownId) (hh : s.hop r = .go b w)
    (hc : r.pkt.cls ≠ 0 ∧ s.ctrlAt b = true) : s.forwardPkt l r rest = s.waits := by
  unfold State.forwardPkt; simp only [h, not_bcast hu, if_false, hd, hh, if_pos hc]

theorem State.forwardPkt_sent {b w : Nat} (h : s.arrivalDrop l r = none) (hu : r.pkt.ptype ≠ 3 ∨ r.pkt.bcast = false)
    (hd : r.pkt.dst.toNat ≠ s.ownId) (hh : s.hop r = .go b w) (hc : r.pkt.cls = 0 ∨ s.ctrlAt b = false)
    (hl : s.linksClean = true) :
    s.forwardPkt l r rest = if s.marks l b w r.pkt
      then ((((s.setRbuf l rest).freeInput r).count (Reg.cnCnt l 0x34)).sendData b (Fin.ofNat 12 w)
        (hopped (withCe r.pkt))).done Code.ok
      else (((s.setRbuf l rest).freeInput r).sendData b (Fin.ofNat 12 w) (hopped r.pkt)).done Code.ok := by
  have hn : ¬ (r.pkt.cls ≠ 0 ∧ s.ctrlAt b = true) := by
    rintro ⟨h1, h2⟩; rcases hc with hc | hc <;> simp_all
  have hg : ((s.setRbuf l rest).freeInput r).linksClean = true := State.taken_linksClean hl l r rest
  have hm : (((s.setRbuf l rest).freeInput r).count (Reg.cnCnt l 0x34)).linksClean = true := by
    unfold State.linksClean State.count State.addFld at *
    rwa [State.setFld_d2d]
  unfold State.forwardPkt
  simp only [h, not_bcast hu, if_false, hd, hh, if_neg hn]
  split
  · rw [State.sendOver_clean hm]
  · rw [State.sendOver_clean hg]

end Branches

/-- A packet for a unit of this module whose MSG names a message reaches the unit unless a link poisons it. -/
theorem State.handOver_named (s : State) (l : Nat) (p : Packet) (h : p.ptype = 3 → 1 ≤ p.tf 21 1 ∧ p.tf 21 1 ≤ 6) :
    s.handOver l p = if (s.crossPorts (route (4 + l) (targetDie p))).2
      then (s.crossPorts (route (4 + l) (targetDie p))).1.done Code.eccUncorrectable
      else ((s.crossPorts (route (4 + l) (targetDie p))).1.emit (.packet p)).done Code.ok := by
  have hn : ¬ (p.ptype = 3 ∧ (p.tf 21 1 = 0 ∨ 6 < p.tf 21 1)) := by
    rintro ⟨h3, hm⟩; have := h h3; omega
  unfold State.handOver; rw [if_neg hn]

/-! A hop that is taken has room, by the port of a productive dimension. -/

theorem State.escapeHop_go {s : State} {r : RouterPkt} {cls b w : Nat} {ports : List Nat}
    (h : s.escapeHop r cls ports = .go b w) :
    s.canSend b w r.pkt = true ∧ ∃ p, p ∈ ports ∧ s.portBundle p = some b := by
  cases ports with
  | nil => simp [State.escapeHop] at h
  | cons p ps =>
    unfold State.escapeHop at h
    simp only at h
    split at h
    next => cases h
    next c hc =>
      split at h
      next => cases h
      next =>
        split at h
        next hs =>
          obtain ⟨rfl, rfl⟩ := Hop.go.inj h
          exact ⟨hs, p, List.mem_cons_self, hc⟩
        next => cases h

/-- A choice made along a list, that each step keeps or turns to the element looked at if that satisfies `p`. -/
theorem foldl_choice {α : Type} {p : α → Prop} {f : Option α → α → Option α}
    (hf : ∀ acc x, f acc x = acc ∨ (f acc x = some x ∧ p x)) {xs : List α} {acc : Option α} {x : α}
    (h : xs.foldl f acc = some x) : acc = some x ∨ (x ∈ xs ∧ p x) := by
  induction xs generalizing acc with
  | nil => exact Or.inl h
  | cons y ys ih =>
    rcases ih h with h' | ⟨hm, hp⟩
    · rcases hf acc y with he | ⟨he, hy⟩
      · exact Or.inl (he.symm.trans h')
      · obtain rfl := Option.some.inj (he.symm.trans h')
        exact Or.inr ⟨List.mem_cons_self, hy⟩
    · exact Or.inr ⟨List.mem_cons_of_mem _ hm, hp⟩

theorem State.adaptiveHop_go {s : State} {r : RouterPkt} {cls b w : Nat} (h : s.adaptiveHop r cls = .go b w) :
    s.canSend b w r.pkt = true ∧ ∃ p, p ∈ s.productive r.pkt.dst.toNat ∧ s.portBundle p = some b := by
  have escape : s.escapeHop r cls ((s.productive r.pkt.dst.toNat).filter s.portUp) = .go b w →
      s.canSend b w r.pkt = true ∧ ∃ p, p ∈ s.productive r.pkt.dst.toNat ∧ s.portBundle p = some b := by
    intro he
    obtain ⟨hs, p, hp, hb⟩ := State.escapeHop_go he
    exact ⟨hs, p, List.mem_of_mem_filter hp, hb⟩
  unfold State.adaptiveHop at h
  simp only at h
  split at h
  next => exact escape h
  next =>
    split at h
    next c hc =>
      obtain ⟨rfl, rfl⟩ := Hop.go.inj h
      have choice := foldl_choice (p := fun b => s.canSend b (cls * 3) r.pkt = true) (fun acc b => ?keeps) hc
      case keeps =>
        split
        next hb =>
          split
          next => exact Or.inr ⟨rfl, hb⟩
          next =>
            split
            next => exact Or.inr ⟨rfl, hb⟩
            next => exact Or.inl rfl
        next => exact Or.inl rfl
      rcases choice with h' | ⟨hm, hs⟩
      · cases h'
      · obtain ⟨p, hp, hb⟩ := List.mem_filterMap.mp hm
        exact ⟨hs, p, List.mem_of_mem_filter hp, hb⟩
    next => exact escape h

theorem State.hop_go {s : State} {r : RouterPkt} {b w : Nat} (h : s.hop r = .go b w) :
    s.canSend b w r.pkt = true ∧ ∃ p, p ∈ s.productive r.pkt.dst.toNat ∧ s.portBundle p = some b := by
  unfold State.hop at h
  simp only at h
  split at h
  · exact State.adaptiveHop_go h
  · exact State.escapeHop_go h

/-- A broadcast waits for the room of all its copies; then they leave, and the module has it unless it sends it (R330). -/
theorem State.forwardBcast_eq (s : State) (l : Nat) (r : RouterPkt) (rest : List RouterPkt) :
    s.forwardBcast l r rest = if s.copiesReady r = false then s.waits
      else if r.bundle.isNone then
        ((s.bcastPorts r).foldl (fun u e => u.sendCopy l r e) ((s.setRbuf l rest).freeInput r)).done Code.ok
      else ((s.bcastPorts r).foldl (fun u e => u.sendCopy l r e) ((s.setRbuf l rest).freeInput r)).handOver l r.pkt := by
  unfold State.forwardBcast
  cases s.copiesReady r <;> rfl

end Sys2Proof.Machine

open Sys2Proof Sys2Proof.Machine

/-- Settles O45: PACKET_FORWARD takes the oldest packet of its VC, and each clause is the branch of `forwardPkt` that its
hypotheses select. -/
theorem packetForward : Obligations.PacketForward := by
  unfold Obligations.PacketForward
  refine ⟨?dropped, ?here, ?unnamed, ?sent, ?noRoute, ?bcast, ?waits, ?ctrlFirst, ?poisoned, takeFirst_eq_some,
    fun s r b w h => State.hop_go h⟩
  case dropped =>
    intro s l vc r rest o ht ha
    rw [exec_packetForward ht, State.forwardPkt_dropped ha]
  case here =>
    intro s l vc r rest ht ha hu hd hc hm
    rw [exec_packetForward ht, State.forwardPkt_here ha hu hd, State.handOver_named _ _ _ hm,
      State.crossPorts_clean _ (State.taken_linksClean hc _ _ _)]
    rfl
  case unnamed =>
    intro s l vc r rest ht ha hp hb hd hm
    rw [exec_packetForward ht, State.forwardPkt_here ha (Or.inr hb) hd]
    unfold State.handOver
    rw [if_pos ⟨hp, hm⟩]
  case sent =>
    intro s l vc r rest b w ht ha hu hd hh hf hc
    rw [exec_packetForward ht, State.forwardPkt_sent ha hu hd hh hf hc]
  case noRoute =>
    intro s l vc r rest ht ha hu hd hh
    rw [exec_packetForward ht, State.forwardPkt_noRoute ha hu hd hh]
  case bcast =>
    intro s t l vc r rest ht ha hp hb he
    rw [exec_packetForward ht, State.forwardPkt_bcast ha hp hb, State.forwardBcast_eq, ← he]
  case waits =>
    intro s l vc r rest ht ha hu hd hh
    rw [exec_packetForward ht, State.forwardPkt_waits ha hu hd hh]
  case ctrlFirst =>
    intro s l vc r rest b w ht ha hu hd hh hc hat
    rw [exec_packetForward ht, State.forwardPkt_ctrlFirst ha hu hd hh ⟨hc, hat⟩]
  case poisoned =>
    intro s t l vc r rest ht ha hu hd hm hx
    rw [exec_packetForward ht, State.forwardPkt_here ha hu hd, State.handOver_named _ _ _ hm, hx]
    rfl

end

/-! ### The transmit queue (R300)

`State.txStep` on the descriptor at the front, the record operations that run in it, and the datagram that leaves. -/

section
namespace Sys2Proof.Machine

/-- The descriptor at the front, once it has crossed, is carried out: its operation, STATUS and DONE, and what follows. -/
theorem State.txStep_ready {s u : State} {l : Nat} {d : TxDesc} {ds : List TxDesc} (h : s.txReady u l d ds) {op : Nat}
    (ho : d.op.toNat = op) (k : TxDesc → State → State × Byte) (fin : TxDesc → Byte → State → State) :
    s.txStep l op k fin = (fin d (k d (s.txTaken u l ds)).2 ((k d (s.txTaken u l ds)).1.descDone l (s.estLd l).txHead d
      (k d (s.txTaken u l ds)).2)).done (k d (s.txTaken u l ds)).2 := by
  obtain ⟨htx, hst, hx⟩ := h
  have hn : ¬ d.op.toNat ≠ op := fun h => h ho
  unfold State.txStep State.across
  simp only [htx, if_neg hn, hst, hx, Bool.false_eq_true, if_false]

/-- A descriptor poisoned on its way is not carried out, and stays (R16). -/
theorem State.txStep_poisoned {s u : State} {l : Nat} {d : TxDesc} {ds : List TxDesc} (htx : (s.estLd l).tx = d :: ds)
    (hst : s.estStall l = false) (hx : s.crossPorts (route 8 (4 + l)) = (u, true)) {op : Nat} (ho : d.op.toNat = op)
    (k : TxDesc → State → State × Byte) (fin : TxDesc → Byte → State → State) :
    s.txStep l op k fin = u.done Code.eccUncorrectable := by
  have hn : ¬ d.op.toNat ≠ op := fun h => h ho
  unfold State.txStep State.across
  simp only [htx, if_neg hn, hst, hx, Bool.false_eq_true, if_false, if_true]

/-- A descriptor on a record that no datagram can leave under answers CONNECTION_CLOSED. -/
theorem State.txRecord_gone {s u : State} {l : Nat} {d : TxDesc} {ds : List TxDesc} (h : s.txReady u l d ds) {op : Nat}
    (ho : d.op.toNat = op) (f : TxDesc → Nat → SessRec → State → State)
    (hg : (s.txTaken u l ds).recGone l ((s.txTaken u l ds).fetchRec l (d.index.toNat % 2 ^ 20)) = true) :
    s.txRecord l op f =
      ((s.txTaken u l ds).fetchRec l (d.index.toNat % 2 ^ 20)).st.txDone s l d Code.connectionClosed := by
  unfold State.txRecord
  rw [State.txStep_ready h ho]
  simp only [hg, if_true]

/-- A descriptor on a record that is there runs its operation on it. -/
theorem State.txRecord_there {s u : State} {l : Nat} {d : TxDesc} {ds : List TxDesc} (h : s.txReady u l d ds) {op : Nat}
    (ho : d.op.toNat = op) (f : TxDesc → Nat → SessRec → State → State)
    (hg : (s.txTaken u l ds).recGone l ((s.txTaken u l ds).fetchRec l (d.index.toNat % 2 ^ 20)) = false) :
    s.txRecord l op f =
      (f d (d.index.toNat % 2 ^ 20) ((s.txTaken u l ds).fetchRec l (d.index.toNat % 2 ^ 20)).record
        ((s.txTaken u l ds).fetchRec l (d.index.toNat % 2 ^ 20)).st).txDone s l d Code.ok := by
  unfold State.txRecord
  rw [State.txStep_ready h ho]
  simp only [hg, Bool.false_eq_true, if_false]

theorem exec_txSend (l : Fin 4) (s : State) :
    exec (.txSend l) s = .next (s.txRecord l.val 0 (fun d e r t => t.sendOn l.val e r d.msg)) := rfl
theorem exec_txSetAdmittedSend (l : Fin 4) (s : State) : exec (.txSetAdmittedSend l) s =
    .next (s.txRecord l.val 2 (fun d e r t =>
      t.sendOn l.val e { r with admitted := true, admitRound := d.admitRound } d.msg)) := rfl
theorem exec_txFreeSend (l : Fin 4) (s : State) : exec (.txFreeSend l) s =
    .next (s.txRecord l.val 3 (fun d e r t => (t.sendOn l.val e r d.msg).freeSession d.index.toNat)) := rfl
theorem exec_txFree (l : Fin 4) (s : State) : exec (.txFree l) s =
    .next (s.txStep l.val 4 (fun d t =>
      if (t.session d.index.toNat).st = 0 then (t, Code.connectionClosed) else (t.freeSession d.index.toNat, Code.ok))
      (fun _ _ t => t)) := rfl

/-- While the entropy source starts TX_INSERT_SEND waits (R429). -/
theorem exec_txInsertSend_stall {s : State} (h : s.entPort = .stall) (l : Fin 4) (k : Nat) :
    exec (.txInsertSend l k) s = .next s.waits := if_pos h

/-- What TX_INSERT_SEND does with its descriptor: the record operation and the sending, with the STATUS. -/
def txInsert (l k : Nat) (d : TxDesc) (t : State) : State × Byte :=
  if (t.wrapKey d.ctx.val 5).isNone then (t, Code.connectionClosed)
  else match t.insertRec l k d with
  | some u => (u.sendOn l (d.index.toNat % 2 ^ 20) d.record d.msg, Code.ok)
  | none => (t, Code.busy)

/-- Else it is a step of the transmit queue. -/
theorem exec_txInsertSend {s : State} (h : s.entPort ≠ .stall) (l : Fin 4) (k : Nat) : exec (.txInsertSend l k) s =
    .next (s.txStep l.val 1 (txInsert l.val k)
      (fun d code t => if code = Code.busy then t.insertFailed l.val d else t)) := by
  show (if s.entPort = .stall then _ else _) = _
  rw [if_neg h]
  rfl

section Insert
variable {t : State} {l k : Nat} {d : TxDesc}

theorem txInsert_noKey (h : t.wrapKey d.ctx.val 5 = none) : txInsert l k d t = (t, Code.connectionClosed) := by
  unfold txInsert; rw [h]; rfl

theorem txInsert_made {u : State} (hw : t.wrapKey d.ctx.val 5 ≠ none) (h : t.insertRec l k d = some u) :
    txInsert l k d t = (u.sendOn l (d.index.toNat % 2 ^ 20) d.record d.msg, Code.ok) := by
  unfold txInsert; rw [if_neg (by simpa using hw), h]

theorem txInsert_busy (hw : t.wrapKey d.ctx.val 5 ≠ none) (h : t.insertRec l k d = none) :
    txInsert l k d t = (t, Code.busy) := by
  unfold txInsert; rw [if_neg (by simpa using hw), h]

end Insert

/-- What makes a record one that no datagram can leave under. -/
theorem State.recGone_iff (s : State) (l : Nat) (x : Fetched) : s.recGone l x = true ↔
    x.code ≠ Code.ok ∨ x.record.st = 0 ∨ x.record.keys = none ∨
      x.record.epoch.toNat ≠ s.fld (Reg.estGate l x.record.ctx.val) 23 16 := by
  unfold State.recGone State.epochNow
  simp only [Bool.or_eq_true, decide_eq_true_eq, Bool.not_eq_true', decide_eq_false_iff_not, Option.isNone_iff_eq_none]
  tauto

/-! The datagram that leaves, and the record behind it. -/

/-- A datagram leaves on the lane found for it. -/
theorem State.sendAip_out {s : State} {l k : Nat} {ret : RetPath} (h : s.txLane l ret = some k) (m : Aip) :
    (s.sendAip l ret m).out = s.out ++ [.eth k (s.aipEth k ret m s.free.toNat)] := by
  unfold State.sendAip
  rw [h]
  rfl

@[simp] theorem State.count64_est (s : State) (a n : Nat) : (s.count64 a n).est = s.est := by
  simp only [State.count64, State.setReg64, State.setReg_est]

/-- Sending changes no queue and no cache of an Estuary slice. -/
@[simp] theorem State.sendAip_est (s : State) (l : Nat) (ret : RetPath) (m : Aip) : (s.sendAip l ret m).est = s.est := by
  unfold State.sendAip
  split
  · rw [State.count64_est]; rfl
  · rfl

theorem Table.find_ins {α : Type} (t : Table α) (k : Nat) (v : α) (h : ∀ e ∈ t, e.1 ≠ k) :
    (Table.ins t k v).find? (fun x => decide (x.1 = k)) = some (k, v) := by
  induction t with
  | nil => simp [Table.ins]
  | cons e t ih =>
    obtain ⟨j, w⟩ := e
    have hj : j ≠ k := h (j, w) List.mem_cons_self
    unfold Table.ins
    split
    · simp
    · rw [List.find?_cons_of_neg (by simpa using hj)]
      exact ih (fun e he => h e (List.mem_cons_of_mem _ he))

/-- A key just written, with a value other than what it reads unlisted, is found with that value. -/
theorem Table.find_put {α : Type} [DecidableEq α] (d : Nat → α) (t : Table α) (k : Nat) (v : α) (h : v ≠ d k) :
    (Table.put d t k v).find? (fun x => decide (x.1 = k)) = some (k, v) := by
  unfold Table.put
  rw [if_neg h]
  exact Table.find_ins _ k v (fun e he => (Table.mem_del t k e he).2)

@[simp] theorem State.estLd_setEstLd_same (s : State) (l : Nat) (x : EstLd) : (s.setEstLd l x).estLd l = x :=
  Table.get_put_same _ _ _ _

/-- A record that is not FREE, once put in the cache, stands there. -/
theorem State.cachedRec_putCache (s : State) (l e : Nat) (r : SessRec) (used : Nat) (h : r.st ≠ 0) :
    (s.putCache l e r used).cachedRec l e = some r := by
  have hv : (⟨r, used⟩ : CacheEnt) ≠ CacheEnt.zero := by
    intro he
    exact h (congrArg (fun x => x.record.st) he)
  unfold State.putCache State.setCache State.cachedRec
  rw [State.estLd_setEstLd_same]
  exact congrArg (Option.map fun x => x.2.record) (Table.find_put (fun _ => CacheEnt.zero) _ e _ hv)

/-- A record that has a way in the cache keeps it. -/
theorem State.install_cached {s : State} {l e : Nat} (h : s.cachedRec l e ≠ none) (r : SessRec) :
    s.install l e r = s.putCache l e r ((s.estLd l).cache.get (fun _ => CacheEnt.zero) e).used := by
  have hw : ((s.estLd l).cache.filter (fun x => decide (x.1 % 15360 = e % 15360))).any (fun x => decide (x.1 = e)) = true := by
    unfold State.cachedRec at h
    cases hf : (s.estLd l).cache.find? (fun x => decide (x.1 = e)) with
    | none => rw [hf] at h; exact absurd rfl h
    | some x =>
      have hx : x.1 = e := by simpa using List.find?_some hf
      exact List.any_eq_true.mpr ⟨x, List.mem_filter.mpr ⟨List.mem_of_find?_eq_some hf, by simp [hx]⟩, by simp [hx]⟩
  unfold State.install
  simp only [hw, true_or, if_true]

/-- After a datagram has left, its record, if it is cached and not FREE, stands in the cache with the new SEQ. -/
theorem State.sendOn_cachedRec {s : State} {l e : Nat} {r : SessRec} (m : Aip)
    (hc : (s.storeRec l e { r with txSeq := r.txSeq + 1 }).cachedRec l e ≠ none) (hr : r.st ≠ 0) :
    (s.sendOn l e r m).cachedRec l e = some { r with txSeq := r.txSeq + 1 } := by
  unfold State.sendOn
  simp only
  rw [show ∀ (t : State) ret m', (t.sendAip l ret m').cachedRec l e = t.cachedRec l e from
    fun t ret m' => by simp [State.cachedRec, State.estLd]]
  unfold State.putRec
  rw [State.install_cached hc]
  exact State.cachedRec_putCache _ l e _ _ hr

/-- A redraw of SESSION_ID, while fewer than four have failed and the source serves (R290). -/
theorem State.insertFailed_redraw {s : State} {d : TxDesc} (l : Nat) (h : d.tries < 4) (he : s.entPort = .served) :
    s.insertFailed l d = s.postInsert l d.index.toNat d.record d.client (d.tries + 1) := by
  unfold State.insertFailed
  simp only [if_neg (Nat.not_le.mpr h), if_pos he]

/-- After four failed draws the client is refused BUSY (R290). -/
theorem State.insertFailed_refused {s : State} {d : TxDesc} (l : Nat) {a b : BitVec 256} (h : 4 ≤ d.tries)
    (hk : d.record.keys = some (a, b)) : s.insertFailed l d = s.refuseHello l d.record.ret b Code.busy := by
  unfold State.insertFailed
  simp only [if_pos h, hk]

end Sys2Proof.Machine

open Sys2Proof Sys2Proof.Machine

/-- Settles O43: each descriptor is `txStep` on the front of the queue; a datagram leaves by `sendOn`. -/
theorem transmitQueue : Obligations.TransmitQueue := by
  unfold Obligations.TransmitQueue
  refine ⟨?send, ?insert, ?insertBusy, ?noWrapKey, fun s l k h => exec_txInsertSend_stall h l k,
    fun s l d h he => State.insertFailed_redraw l h he, fun s l d a b h hk => State.insertFailed_refused l h hk,
    ?setAdmitted, ?freeSend, ?free, ?gone, fun s l x h => (State.recGone_iff s l x).mpr h, ?poisoned, ?leaves, ?cached⟩
  case send =>
    rintro s u t l d ds e x hr ho rfl rfl rfl hg
    rw [exec_txSend, State.txRecord_there hr (by rw [ho]; rfl) _ hg]
  case insert =>
    rintro s u t v l d ds k hr ho hs rfl hw hv
    rw [exec_txInsertSend hs, State.txStep_ready hr (by rw [ho]; rfl)]
    rw [txInsert_made hw hv, if_neg (show ¬ Code.ok = Code.busy by decide)]
  case insertBusy =>
    rintro s u t l d ds k hr ho hs rfl hw hv
    rw [exec_txInsertSend hs, State.txStep_ready hr (by rw [ho]; rfl)]
    rw [txInsert_busy hw hv, if_pos rfl]
  case noWrapKey =>
    rintro s u t l d ds k hr ho hs rfl hw
    rw [exec_txInsertSend hs, State.txStep_ready hr (by rw [ho]; rfl)]
    rw [txInsert_noKey hw, if_neg (show ¬ Code.connectionClosed = Code.busy by decide)]
  case setAdmitted =>
    rintro s u t l d ds e x hr ho rfl rfl rfl hg
    rw [exec_txSetAdmittedSend, State.txRecord_there hr (by rw [ho]; rfl) _ hg]
  case freeSend =>
    rintro s u t l d ds e x hr ho rfl rfl rfl hg
    rw [exec_txFreeSend, State.txRecord_there hr (by rw [ho]; rfl) _ hg]
  case free =>
    rintro s u t l d ds hr ho rfl hs
    rw [exec_txFree, State.txStep_ready hr (by rw [ho]; rfl)]
    simp only [if_neg hs]
  case gone =>
    rintro s u t l d ds e x cmd hr hm rfl rfl rfl hg
    simp only [List.mem_cons, Prod.mk.injEq, List.not_mem_nil, or_false] at hm
    rcases hm with ⟨ho, rfl⟩ | ⟨ho, rfl⟩ | ⟨ho, rfl⟩
    · rw [exec_txSend, State.txRecord_gone hr (by rw [ho]; rfl) _ hg]
    · rw [exec_txSetAdmittedSend, State.txRecord_gone hr (by rw [ho]; rfl) _ hg]
    · rw [exec_txFreeSend, State.txRecord_gone hr (by rw [ho]; rfl) _ hg]
  case poisoned =>
    intro s u l d ds k cmd htx hm hent hst hx
    simp only [List.mem_cons, Prod.mk.injEq, List.not_mem_nil, or_false] at hm
    rcases hm with ⟨ho, rfl⟩ | ⟨ho, rfl⟩ | ⟨ho, rfl⟩ | ⟨ho, rfl⟩ | ⟨ho, rfl⟩
    · exact congrArg _ (State.txStep_poisoned htx hst hx (by rw [ho]; rfl) _ _)
    · rw [exec_txInsertSend (hent ho), State.txStep_poisoned htx hst hx (by rw [ho]; rfl)]
    · exact congrArg _ (State.txStep_poisoned htx hst hx (by rw [ho]; rfl) _ _)
    · exact congrArg _ (State.txStep_poisoned htx hst hx (by rw [ho]; rfl) _ _)
    · exact congrArg _ (State.txStep_poisoned htx hst hx (by rw [ho]; rfl) _ _)
  case leaves =>
    rintro s t l e k r m rfl hl
    exact ⟨_, _, State.sendAip_out hl _, rfl, rfl⟩
  case cached =>
    rintro s t l e r m rfl hc hr
    exact State.sendOn_cachedRec m hc hr

end

/-! ### Frames received (R278–R280, R295–R299)

What FRAME_RECEIVE does with a frame on a lane that is up, branch by branch, and Estuary's session checks. -/

section
namespace Sys2Proof.Machine

theorem exec_frameReceive_down {s : State} {f : EthFrame} (h : s.ethUp f.lane.val = false) :
    exec (.frameReceive f) s = .next (s.done Code.ok) := by
  show execFrameReceive f s = _
  unfold execFrameReceive
  simp only [h, Bool.false_eq_true, not_false_eq_true, if_true]
  rfl

/-! On a lane that is up the frame is counted, and the checks of R278 decide. -/

theorem exec_frameReceive_refused {s : State} {f : EthFrame} {o : Nat} (h : s.ethUp f.lane.val = true)
    (hr : (s.frameIn f).frameRefused f = some o) : exec (.frameReceive f) s =
      .next (((s.frameIn f).estCount (f.lane.val / 16) (if f.fcsOk then o else 0x20)).done Code.ok) := by
  show execFrameReceive f s = _
  unfold execFrameReceive
  simp only [h, not_true_eq_false, if_false, hr]

theorem exec_frameReceive_asked {s : State} {f : EthFrame} (h : s.ethUp f.lane.val = true)
    (hr : (s.frameIn f).frameRefused f = none) (ha : (s.frameIn f).answersAsk f = true) : exec (.frameReceive f) s =
      .next ((if f.fcsOk
        then ((s.frameIn f).estCount (f.lane.val / 16) 0x30).emit (.eth f.lane.val ((s.frameIn f).askReply f))
        else (s.frameIn f).estCount (f.lane.val / 16) 0x20).done Code.ok) := by
  show execFrameReceive f s = _
  unfold execFrameReceive
  simp only [h, not_true_eq_false, if_false, hr, ha, if_true]

theorem exec_frameReceive_goesOn {s : State} {f : EthFrame} (h : s.ethUp f.lane.val = true)
    (hg : (s.frameIn f).frameGoesOn f) :
    exec (.frameReceive f) s = .next (((s.frameIn f).aipFrame f).done Code.ok) := by
  obtain ⟨hr, ha, -, -⟩ := hg
  show execFrameReceive f s = _
  unfold execFrameReceive
  simp only [h, not_true_eq_false, if_false, hr, ha, Bool.false_eq_true]

/-! The datagram: `aipFrame`, `classify`, `hubDeliver`. -/

section Datagram
variable {t : State} {f : EthFrame}

/-- A CHUNK or SKETCH is no HELLO INIT. -/
theorem Aip.not_hello_of_toStrand {m : Aip} (h : m.toStrand = true) : m.is 1 1 = false := by
  unfold Aip.toStrand at h
  unfold Aip.is
  simp only [decide_eq_true_eq] at h
  simp only [decide_eq_false_iff_not]
  omega

/-- HELLO INIT with both checksums good needs no session (R299). -/
theorem State.aipFrame_hello (hg : t.frameGoesOn f) (hl : lateCounter f = none) (hh : f.aip.is 1 1 = true) :
    t.aipFrame f = t.helloFrame f := by
  obtain ⟨-, -, hon, hok⟩ := hg
  unfold State.aipFrame
  simp [hon, hok, hl, hh]

/-- With its record cached and no earlier frame of its session waiting, a datagram is classified. -/
theorem State.aipFrame_classify {e : Nat} {r : SessRec} (hg : t.frameGoesOn f)
    (hl : lateCounter f = none ∨ f.aip.toStrand = true) (hh : f.aip.is 1 1 = false)
    (hc : t.cacheHit (f.lane.val / 16) f.aip.sid = some (e, r)) (hw : t.missWaits (f.lane.val / 16) f.aip.sid = false) :
    t.aipFrame f = t.classify f (lateCounter f) (some (e, r)) := by
  obtain ⟨-, -, hon, hok⟩ := hg
  have h2 : ¬ ((lateCounter f).isSome = true ∧ ¬ f.aip.toStrand = true) := by
    rintro ⟨h, h'⟩; rcases hl with hl | hl <;> simp_all
  unfold State.aipFrame
  simp only [if_neg h2, hon, hok, hh, hc, hw, one_ne_zero, not_true_eq_false, or_self, if_false, Bool.false_eq_true]

/-- Without its record, or behind a frame of its session, a datagram waits. -/
theorem State.aipFrame_miss (hg : t.frameGoesOn f) (hl : lateCounter f = none) (hh : f.aip.is 1 1 = false)
    (hc : t.cacheHit (f.lane.val / 16) f.aip.sid = none ∨ t.missWaits (f.lane.val / 16) f.aip.sid = true) :
    t.aipFrame f = t.missFrame f := by
  obtain ⟨-, -, hon, hok⟩ := hg
  unfold State.aipFrame
  simp only [hon, hok, hl, hh, one_ne_zero, not_true_eq_false, or_self, if_false, Bool.false_eq_true, Option.isSome_none,
    false_and]
  rcases hc with hc | hc
  · rw [hc]
  · split
    · rw [if_pos hc]
    · rfl

/-- A CHUNK or SKETCH whose session is not refused and whose queue has room is written there. -/
theorem State.classify_strand {late : Option Nat} {e q : Nat} {r : SessRec} (hs : f.aip.toStrand = true)
    (hr : t.sessionRefused (f.lane.val / 16) r f.aip = none)
    (hq : t.strandQueue (f.lane.val / 16) r.ctx.val f.aip = .inl q) :
    t.classify f late (some (e, r)) = if late.isSome
      then ((t.writePkt (f.lane.val / 16) q (ingressPkt t (f.lane.val / 16) (f.lane.val / 16 * 2 ^ 20 + e) f.lane.val f.aip
        Code.formatError)).touchRec (f.lane.val / 16) e).estCount (f.lane.val / 16) 0x70
      else ((t.writePkt (f.lane.val / 16) q (ingressPkt t (f.lane.val / 16) (f.lane.val / 16 * 2 ^ 20 + e) f.lane.val f.aip
        Code.ok)).touchRec (f.lane.val / 16) e).estCount64 (f.lane.val / 16) 0x08 := by
  unfold State.classify
  simp only [hr, hs, if_true, hq]

/-- A datagram for the hub whose session is not refused goes on to its tag. -/
theorem State.classify_hub {e : Nat} {r : SessRec} (hs : f.aip.toStrand = false)
    (hr : t.sessionRefused (f.lane.val / 16) r f.aip = none) :
    t.classify f none (some (e, r)) = t.hubDeliver (f.lane.val / 16) e r f := by
  unfold State.classify
  simp only [hr, hs, Bool.false_eq_true, if_false]

end Datagram

/-! Estuary's session checks (R295, R296). -/

section Checks
variable {s : State} {l : Nat} {r : SessRec} {m : Aip}

/-- No usable record: FREE or, but for HELLO CONFIRM, PENDING; or one of another epoch. -/
theorem State.sessionRefused_unusable (h : ¬ (r.st = 2 ∨ (r.st = 1 ∧ m.is 1 2 = true)) ∨ s.epochNow l r = false) :
    s.sessionRefused l r m = some 0x44 := by
  unfold State.sessionRefused
  simp only
  rw [if_pos]
  rcases h with h | h
  · exact Or.inl h
  · right; simp [h]

/-- A usable record of the present epoch: the gate, then the round, then the phase decide. -/
theorem State.sessionRefused_usable (h : r.st = 2 ∨ (r.st = 1 ∧ m.is 1 2 = true)) (he : s.epochNow l r = true) :
    s.sessionRefused l r m = if s.fld (Reg.estGate l r.ctx.val) 31 31 = 0 then some 0x48
      else if (m.typ.toNat = 3 ∨ m.toStrand = true) ∧ m.round ≠ s.reg (Reg.estRound l r.ctx.val) then some 0x4C
      else s.gateShut l r.ctx.val r m := by
  unfold State.sessionRefused
  simp only
  rw [if_neg]
  rintro (h' | h')
  · exact h' h
  · exact h' he

/-- A CHUNK or SKETCH that is not refused is of a LIVE session and of the present round, and passes the gate. -/
theorem State.sessionRefused_none (hs : m.toStrand = true) (h : s.sessionRefused l r m = none) :
    r.st = 2 ∧ m.round = s.reg (Reg.estRound l r.ctx.val) ∧ s.gateShut l r.ctx.val r m = none := by
  have hm : m.is 1 2 = false := by
    unfold Aip.toStrand at hs
    unfold Aip.is
    simp only [decide_eq_true_eq] at hs
    simp only [decide_eq_false_iff_not]
    omega
  have hu : (r.st = 2 ∨ (r.st = 1 ∧ m.is 1 2 = true)) ∧ s.epochNow l r = true := by
    by_contra hn
    rw [State.sessionRefused_unusable] at h
    · cases h
    · cases he : s.epochNow l r with
      | false => exact Or.inr rfl
      | true => exact Or.inl fun hx => hn ⟨hx, he⟩
  rw [State.sessionRefused_usable hu.1 hu.2] at h
  split at h
  next => cases h
  next =>
    split at h
    next => cases h
    next hr =>
      refine ⟨?_, ?_, h⟩
      · rcases hu.1 with h2 | ⟨-, h1⟩
        · exact h2
        · rw [hm] at h1; cases h1
      · by_contra hne; exact hr ⟨Or.inr hs, hne⟩

end Checks

/-! A packet written to an ingress queue (R80–R85). -/

section WritePkt
variable {s t : State} {l q : Nat} {b : Bool}

theorem State.writePkt_room (p : Pkt) (hx : s.crossPorts (route (4 + l) (q / 4)) = (t, b)) (h : p.words ≤ s.queueFree q) :
    s.writePkt l q p = t.setQueue q { s.queue q with
      pkts := (s.queue q).pkts ++ (s.queue q).wr.toList, wr := some { p with bad := p.bad || b } } := by
  unfold State.writePkt
  simp only [hx, if_pos h]

theorem State.writePkt_cut (p : Pkt) (hx : s.crossPorts (route (4 + l) (q / 4)) = (t, b)) (h : s.queueFree q < p.words)
    (h0 : 0 < s.queueFree q) (hz : (s.queue q).zeroing = false) :
    s.writePkt l q p = (t.setQueue q { s.queue q with
      pkts := (s.queue q).pkts ++ (s.queue q).wr.toList ++ [{ p with bad := p.bad || b }.cut (s.queueFree q)]
      wr := none }).iqOverrun q := by
  unfold State.writePkt
  simp only [hx, if_neg (Nat.not_le.mpr h), hz, Bool.false_eq_true, if_false, if_neg (Nat.pos_iff_ne_zero.mp h0)]

theorem State.writePkt_full (p : Pkt) (hx : s.crossPorts (route (4 + l) (q / 4)) = (t, b)) (h : 0 < p.words)
    (h0 : s.queueFree q = 0) (hz : (s.queue q).zeroing = false) : s.writePkt l q p = t.iqOverrun q := by
  have hn : ¬ p.words ≤ s.queueFree q := by omega
  unfold State.writePkt
  simp only [hx, if_neg hn, hz, Bool.false_eq_true, if_false, if_pos h0]

end WritePkt

/-- A datagram poisoned on its way to the hub die is counted and not queued (R16). -/
theorem State.toSetup_poisoned {s t : State} {l : Nat} (h : s.crossPorts (route (4 + l) 8) = (t, true)) (i : Option Nat)
    (ret : RetPath) (m : Aip) : s.toSetup l i ret m = t.estCount64 l 0x10 := by
  unfold State.toSetup
  simp only [h, if_true]

end Sys2Proof.Machine

open Sys2Proof Sys2Proof.Machine

/-- Settles O41: each clause on frames is a branch of FRAME_RECEIVE, each clause on sessions one of R295's checks in order. -/
theorem frameReceive : Obligations.FrameReceive := by
  unfold Obligations.FrameReceive
  refine ⟨fun s f h => exec_frameReceive_down h, ?refused, ?ask, ?strand, ?hub, ?hello, ?miss,
    fun s t l q p b hx h => State.writePkt_room p hx h, fun s t l q p b hx h h0 hz => State.writePkt_cut p hx h h0 hz,
    fun s t l q p b hx h h0 hz => State.writePkt_full p hx h h0 hz, fun s t l i ret m h => State.toSetup_poisoned h i ret m,
    ?free, ?epoch, ?shut, ?round, ?chunk, ?sketch⟩
  case refused =>
    rintro s t f o hu rfl hr
    rw [exec_frameReceive_refused hu hr]
  case ask =>
    rintro s t f hu rfl hr ha
    rw [exec_frameReceive_asked hu hr ha]
  case strand =>
    rintro s t f l e q r hu rfl hg rfl hs hc hw hr hq
    rw [exec_frameReceive_goesOn hu hg,
      State.aipFrame_classify hg (Or.inr hs) (Aip.not_hello_of_toStrand hs) hc hw, State.classify_strand hs hr hq]
  case hub =>
    rintro s t f l e r hu rfl hg rfl hl hs hh hc hw hr hq
    rw [exec_frameReceive_goesOn hu hg, State.aipFrame_classify hg (Or.inl hl) hh hc hw, hl, State.classify_hub hs hr]
    exact congrArg (fun u : State => Host.Outcome.next (u.done Code.ok)) (if_neg (by rw [hq]; decide))
  case hello =>
    rintro s t f hu rfl hg hl hh
    rw [exec_frameReceive_goesOn hu hg, State.aipFrame_hello hg hl hh]
    rfl
  case miss =>
    rintro s t f l x hu rfl hg rfl hl hh rfl hc
    rw [exec_frameReceive_goesOn hu hg, State.aipFrame_miss hg hl hh hc]
    rfl
  case free =>
    intro s l r m h
    exact State.sessionRefused_unusable (Or.inl (by simp [h]))
  case epoch =>
    intro s l r m h
    exact State.sessionRefused_unusable (Or.inr (decide_eq_false h))
  case shut =>
    intro s l r m h he hg
    rw [State.sessionRefused_usable (Or.inl h) (decide_eq_true he), if_pos hg]
  case round =>
    intro s l r m h he hg ht hr
    have hs : m.toStrand = true := by simp [Aip.toStrand, ht]
    rw [State.sessionRefused_usable (Or.inl h) (decide_eq_true he), hg, if_neg (by decide), if_pos ⟨Or.inr hs, hr⟩]
  case chunk =>
    intro s l r m ht h
    obtain ⟨hst, hround, hgate⟩ := State.sessionRefused_none (by simp [Aip.toStrand, ht]) h
    unfold State.gateShut at hgate
    simp only [ht] at hgate
    split at hgate
    next h' => exact absurd h' (by decide)
    next =>
      split at hgate
      next =>
        split at hgate
        next hp =>
          refine ⟨hst, hround, hp.1, fun h8 => ?_⟩
          rcases hp.2 with h0 | hadm
          · rw [h8] at h0; cases h0
          · exact hadm
        next => cases hgate
      next h' => exact absurd rfl h'
  case sketch =>
    intro s l r m ht h
    obtain ⟨hst, -, hgate⟩ := State.sessionRefused_none (by simp [Aip.toStrand, ht]) h
    unfold State.gateShut at hgate
    simp only [ht] at hgate
    split at hgate
    next =>
      split at hgate
      next hp => exact ⟨hst, hp⟩
      next => cases hgate
    next h' => exact absurd rfl h'

end

/-! ### Lanes and link frames (R305–R322)

What an operation on a lane or a bundle leaves of the lanes' states, of the bundles and of the router, then the link layer's
commands branch by branch. -/

section
namespace Sys2Proof.Machine

/-! #### Registers of a light die -/

/-- LANE_STAT of a lane and BUNDLE_MAP of a bundle are different registers. -/
theorem laneStat_ne_bmap (k b : Nat) : Reg.laneStat (k / 16) (k % 16) ≠ bmap b := by
  unfold bmap Reg.laneStat Reg.bundleMap Reg.ldPage regAddr
  omega

@[simp] theorem State.laneState_setLaneState (s : State) (k v : Nat) : (s.setLaneState k v).laneState k = v % 8 :=
  State.fld_setFld_same _ _ _ _ _ (by decide) (by decide)

@[simp] theorem State.laneState_refreshBundle (s : State) (b k : Nat) : (s.refreshBundle b).laneState k = s.laneState k := by
  have h := laneStat_ne_bmap k b
  unfold State.refreshBundle State.laneState
  rw [State.fld_setFld_ne _ _ _ _ _ _ _ _ h, State.fld_setFld_ne _ _ _ _ _ _ _ _ h]

theorem State.laneState_moveLane (s : State) (k v : Nat) : (s.moveLane k v).laneState k = v % 8 := by
  unfold State.moveLane
  split
  · rw [State.laneState_refreshBundle, State.laneState_setLaneState]
  · exact State.laneState_setLaneState s k v

theorem State.laneState_laneEvent (s : State) {k : Nat} (hk : k < 64) (j kind info : Nat) (c : Byte) :
    (s.laneEvent j kind c info).laneState k = s.laneState k := by
  unfold State.laneState State.fld State.laneEvent
  rw [State.post_reg _ _ _ (by unfold Reg.laneStat Reg.ldPage regAddr; omega)]

/-! #### Register accesses to a light die -/

section LaneCtl
variable {l n : Nat}

theorem laneOfAddr_laneCtl (hl : l < 4) (hn : n < 16) : laneOfAddr (Reg.laneCtl l n) = some (l * 16 + n) := by
  have hp : Reg.laneCtl l n / 0x10000 = 0x200 + 0x20 * l := by unfold Reg.laneCtl Reg.ldPage regAddr; omega
  have ho : Reg.laneCtl l n % 0x10000 = 4 * n := by unfold Reg.laneCtl Reg.ldPage regAddr; omega
  unfold laneOfAddr
  simp only [hp, ho]
  rw [if_pos (by omega)]
  congr 1
  omega

theorem absentLd_laneCtl {s : State} (hl : l < s.part.ldCount) (hn : n < 16) : s.absentLd (Reg.laneCtl l n) = false := by
  have hp : Reg.laneCtl l n / 0x10000 = 0x200 + 0x20 * l := by unfold Reg.laneCtl Reg.ldPage regAddr; omega
  unfold State.absentLd
  simp only [hp, decide_eq_false_iff_not]
  omega

theorem regDomain_laneCtl (hl : l < 4) (hn : n < 16) : regDomain (Reg.laneCtl l n) = some (pdLd l) := by
  have hp : Reg.laneCtl l n / 0x10000 = 0x200 + 0x20 * l := by unfold Reg.laneCtl Reg.ldPage regAddr; omega
  have hq : (0x200 + 0x20 * l - 0x200) / 0x20 = l := by omega
  unfold regDomain
  simp only [hp]
  rw [if_neg (by omega), if_pos (by omega), hq]

end LaneCtl

/-! #### Counters -/

@[simp] theorem State.count64_bundles (s : State) (a n : Nat) : (s.count64 a n).bundles = s.bundles := by
  simp only [State.count64, State.setReg64, State.setReg_bundles]
@[simp] theorem State.count64_router (s : State) (a n : Nat) : (s.count64 a n).router = s.router := by
  simp only [State.count64, State.setReg64, State.setReg_router]
@[simp] theorem State.twCount_bundles (s : State) (l o : Nat) : (s.twCount l o).bundles = s.bundles := by
  simp only [State.twCount, State.count, State.addFld, State.setFld_bundles]
@[simp] theorem State.twCount_router (s : State) (l o : Nat) : (s.twCount l o).router = s.router := by
  simp only [State.twCount, State.count, State.addFld, State.setFld_router]
@[simp] theorem State.useHdr_router (s : State) (b : Nat) (h : LinkHdr) : (s.useHdr b h).router = s.router := rfl

@[simp] theorem State.setLane_bundles (s : State) (k : Nat) (x : LaneX) : (s.setLane k x).bundles = s.bundles := rfl
@[simp] theorem State.setLaneState_bundles (s : State) (k v : Nat) : (s.setLaneState k v).bundles = s.bundles := by
  simp only [State.setLaneState, State.setFld_bundles]
@[simp] theorem State.rbuf_setBundle (s : State) (b l : Nat) (x : Bundle) : (s.setBundle b x).rbuf l = s.rbuf l := rfl
@[simp] theorem State.rbuf_useHdr (s : State) (b l : Nat) (h : LinkHdr) : (s.useHdr b h).rbuf l = s.rbuf l := rfl
@[simp] theorem State.rbuf_setLane (s : State) (k l : Nat) (x : LaneX) : (s.setLane k x).rbuf l = s.rbuf l := rfl
@[simp] theorem State.laneState_done (s : State) (c : Byte) (k : Nat) : (s.done c).laneState k = s.laneState k := rfl
@[simp] theorem State.bundle_done (s : State) (c : Byte) (b : Nat) : (s.done c).bundle b = s.bundle b := rfl
@[simp] theorem State.rbuf_count64 (s : State) (a n l : Nat) : (s.count64 a n).rbuf l = s.rbuf l := by
  simp only [State.rbuf, State.count64_router]
@[simp] theorem State.rbuf_toRouter_same (s : State) (l : Nat) (r : RouterPkt) :
    (s.toRouter l r).rbuf l = s.rbuf l ++ [r] := Table.get_put_same _ _ _ _
@[simp] theorem State.lane_fecCorr (s : State) (k n j : Nat) : (s.fecCorr k n).lane j = s.lane j := by
  simp only [State.lane, State.fecCorr, State.addFld, State.setFld_lanes]

/-! #### Bundles -/

@[simp] theorem State.bundle_count64 (s : State) (a n b : Nat) : (s.count64 a n).bundle b = s.bundle b := by
  simp only [State.bundle, State.count64_bundles]

@[simp] theorem State.bundle_setBundle_same (s : State) (b : Nat) (x : Bundle) : (s.setBundle b x).bundle b = x :=
  Table.get_put_same _ _ _ _
theorem State.bundle_setBundle_ne (s : State) {b c : Nat} (x : Bundle) (h : c ≠ b) :
    (s.setBundle b x).bundle c = s.bundle c := Table.get_put_ne _ _ _ _ _ h

/-- A frame put out on a lane of bundle b counts as queued there, and that is all it changes of the bundles. -/
theorem State.putFrame_bundle {s : State} {b k : Nat} (h : s.bundleOf k = some b) (f : LinkFrame) :
    (∃ n, (s.putFrame k f).bundle b = (s.bundle b).setQueued (k % 16) n) ∧
    ∀ c, c ≠ b → (s.putFrame k f).bundle c = s.bundle c := by
  unfold State.putFrame
  simp only [h]
  exact ⟨⟨_, State.bundle_setBundle_same _ _ _⟩, fun c hc => State.bundle_setBundle_ne _ _ hc⟩

/-- A frame with ACK and credits leaves on a lane of bundle b: what it owes is paid, and the frame is queued. -/
theorem State.sendHdr_bundle {s : State} {b k : Nat} (h : s.bundleOf k = some b) (kind vc : Nat) (seq : BitVec 24)
    (body : Bytes) : (∃ n, (s.sendHdr b k kind seq vc body).bundle b = (s.bundle b).paid.setQueued (k % 16) n) ∧
    ∀ c, c ≠ b → (s.sendHdr b k kind seq vc body).bundle c = s.bundle c := by
  have hb : (s.setBundle b (s.bundle b).paid).bundleOf k = some b := h
  obtain ⟨⟨n, hn⟩, ho⟩ := State.putFrame_bundle hb ⟨kind, seq, (s.bundle b).rxAck, (s.bundle b).credit.1,
    (s.bundle b).credit.2, vc, body⟩
  rw [State.bundle_setBundle_same] at hn
  exact ⟨⟨n, hn⟩, fun c hc => (ho c hc).trans (State.bundle_setBundle_ne _ _ hc)⟩

/-- The DATA frame of a replay entry leaves: the lane's history has it too. -/
theorem State.sendFrame_bundle {s : State} {b k : Nat} (h : s.bundleOf k = some b) (f : ReplayFrame) :
    (∃ n, (s.sendFrame b k f).bundle b =
      ({ s.bundle b with sends := (Fin.ofNat 16 k, f.seq) :: (s.bundle b).sends } : Bundle).paid.setQueued (k % 16) n) ∧
    ∀ c, c ≠ b → (s.sendFrame b k f).bundle c = s.bundle c := by
  have hb : (s.setBundle b { s.bundle b with sends := (Fin.ofNat 16 k, f.seq) :: (s.bundle b).sends }).bundleOf k = some b := h
  obtain ⟨⟨n, hn⟩, ho⟩ := State.sendHdr_bundle hb 1 f.vc.val f.seq (packetHdr f.pkt ++ f.pkt.payload)
  rw [State.bundle_setBundle_same] at hn
  unfold State.sendFrame
  simp only [State.bundle_count64]
  exact ⟨⟨n, hn⟩, fun c hc => (ho c hc).trans (State.bundle_setBundle_ne _ _ hc)⟩

/-- A DATA frame takes the next SEQ, its credits and the last place in the replay memory, and changes no other bundle
(R312, R313, R318). -/
theorem State.sendData_bundle {s : State} {b k : Nat} (h : s.bundleOf k = some b) (hk : s.bestLane b none = some k)
    (vc : Fin 12) (p : Packet) :
    ((s.sendData b vc p).bundle b).txSeq = (s.bundle b).txSeq + 1 ∧
    ((s.sendData b vc p).bundle b).replay = (s.bundle b).replay ++ [⟨(s.bundle b).txSeq, Fin.ofNat 16 k, 0, vc, p⟩] ∧
    ((s.sendData b vc p).bundle b).used.get (fun _ => 0) vc.val =
      (s.bundle b).used.get (fun _ => 0) vc.val + frameCredits p ∧
    ∀ c, c ≠ b → (s.sendData b vc p).bundle c = s.bundle c := by
  have hb : (s.setBundle b { s.bundle b with
      txSeq := (s.bundle b).txSeq + 1
      used := (s.bundle b).used.put (fun _ => 0) vc.val ((s.bundle b).used.get (fun _ => 0) vc.val + frameCredits p)
      replay := (s.bundle b).replay ++ [⟨(s.bundle b).txSeq, Fin.ofNat 16 k, 0, vc, p⟩] }).bundleOf k = some b := h
  obtain ⟨⟨n, hn⟩, ho⟩ := State.sendFrame_bundle hb ⟨(s.bundle b).txSeq, Fin.ofNat 16 k, 0, vc, p⟩
  rw [State.bundle_setBundle_same] at hn
  unfold State.sendData
  simp only [hk, hn]
  exact ⟨rfl, rfl, Table.get_put_same _ _ _ _, fun c hc => (ho c hc).trans (State.bundle_setBundle_ne _ _ hc)⟩

/-- A bundle that can take a packet is up. -/
theorem State.canSend_up {s : State} {b vc : Nat} {p : Packet} (h : s.canSend b vc p = true) : s.bundleUp b = true := by
  unfold State.canSend at h
  simp only [Bool.and_eq_true] at h
  exact h.1.1.1

/-- Steps that each leave the bundles alone leave them alone together. -/
theorem State.foldl_bundles {α : Type} {f : State → α → State} (hf : ∀ t x, (f t x).bundles = t.bundles) (xs : List α)
    (s : State) : (xs.foldl f s).bundles = s.bundles := by
  induction xs generalizing s with
  | nil => rfl
  | cons x xs ih => exact (ih (f s x)).trans (hf s x)

/-- A bundle that goes DOWN starts from nothing (R313). -/
theorem State.bundleDown_bundle (s : State) (b : Nat) : (s.bundleDown b).bundle b = Bundle.zero := by
  unfold State.bundle State.bundleDown State.refreshBundle
  rw [State.setFld_bundles, State.setFld_bundles, State.foldl_bundles fun t k => ?lanes, State.twCount_bundles]
  · exact State.bundle_setBundle_same s b Bundle.zero
  case lanes =>
    dsimp only
    split
    · rw [State.setLane_bundles]
    · split <;> rw [State.setLaneState_bundles, State.setLane_bundles]

/-! #### ACK, credits and the SEQ window (R312, R318) -/

/-- ACK within what is outstanding moves the window's bottom; what lies below it leaves the replay memory. -/
theorem State.useHdr_acked {s : State} {b : Nat} {h : LinkHdr}
    (hw : ahead (s.bundle b).txAck h.ack ≤ ahead (s.bundle b).txAck (s.bundle b).txSeq) :
    ((s.useHdr b h).bundle b).replay = (s.bundle b).replay.filter (fun f =>
      decide (ahead (s.bundle b).txAck h.ack ≤ ahead (s.bundle b).txAck f.seq)) ∧
    ((s.useHdr b h).bundle b).txAck = h.ack := by
  unfold State.useHdr
  simp only [State.bundle_setBundle_same, if_pos hw, and_self]

/-- A header changes nothing of what the bundle has received. -/
theorem State.useHdr_received (s : State) (b : Nat) (h : LinkHdr) :
    ((s.useHdr b h).bundle b).rxAck = (s.bundle b).rxAck ∧ ((s.useHdr b h).bundle b).rxBits = (s.bundle b).rxBits := by
  unfold State.useHdr
  simp only [State.bundle_setBundle_same]
  split <;> exact ⟨rfl, rfl⟩

/-- A DATA frame inside the window, not yet received, enters the router's buffer. -/
theorem State.acceptFrame_new {s : State} {b : Nat} {h : LinkHdr} (hw : ahead (s.bundle b).rxAck h.seq < 4096)
    (hn : h.seq ∉ (s.bundle b).rxBits) (k : Nat) (p : Packet) :
    (s.acceptFrame k b h p).rbuf (b / 16) = s.rbuf (b / 16) ++ [⟨some b, h.vc, p, false⟩] := by
  obtain ⟨ha, hb⟩ := State.useHdr_received (s.setLane k { s.lane k with lastGood := h.seq }) b h
  have hw' : ahead (((s.setLane k { s.lane k with lastGood := h.seq }).useHdr b h).bundle b).rxAck h.seq < 4096 := by
    rw [ha]; exact hw
  have hn' : h.seq ∉ (((s.setLane k { s.lane k with lastGood := h.seq }).useHdr b h).bundle b).rxBits := by
    rw [hb]; exact hn
  unfold State.acceptFrame
  simp only [if_pos hw', if_neg hn', State.rbuf_count64, State.rbuf_toRouter_same, State.rbuf_setBundle, State.rbuf_useHdr,
    State.rbuf_setLane]

/-- A DATA frame outside the window, or already received, does not. -/
theorem State.acceptFrame_old {s : State} {b : Nat} {h : LinkHdr}
    (hw : 4096 ≤ ahead (s.bundle b).rxAck h.seq ∨ h.seq ∈ (s.bundle b).rxBits) (k : Nat) (p : Packet) :
    (s.acceptFrame k b h p).router = s.router := by
  obtain ⟨ha, hb⟩ := State.useHdr_received (s.setLane k { s.lane k with lastGood := h.seq }) b h
  unfold State.acceptFrame
  dsimp only
  split
  next hlt =>
    have hm : h.seq ∈ (((s.setLane k { s.lane k with lastGood := h.seq }).useHdr b h).bundle b).rxBits := by
      rcases hw with hw | hw
      · exact absurd hlt (by rw [ha]; exact Nat.not_lt.mpr hw)
      · rw [hb]; exact hw
    rw [if_pos hm, State.twCount_router, State.useHdr_router]
    rfl
  next => split <;> (rw [State.twCount_router, State.useHdr_router]; rfl)

/-! #### Frames as bytes and blocks (R308, R309, R313) -/

theorem LinkFrame.length_hdr (f : LinkFrame) : f.hdr.length = 16 := by
  simp [LinkFrame.hdr, LinkFrame.head, length_be]

theorem LinkFrame.length_bytes (f : LinkFrame) : f.bytes.length = if f.kind = 0 then 16 else 24 + f.body.length := by
  unfold LinkFrame.bytes
  split
  · exact f.length_hdr
  · simp only [List.length_append, f.length_hdr, length_be]
    omega

theorem length_dataBlocks (n : Nat) (bs : Bytes) : (dataBlocks n bs).length = n + 1 := by
  induction n generalizing bs with
  | zero => rfl
  | succ n ih => simp [dataBlocks, ih]

theorem length_pcsBlocks (bs : Bytes) : (pcsBlocks bs).length = 2 + (bs.length - 7) / 8 := by
  rw [pcsBlocks, List.length_cons, length_dataBlocks]
  omega

/-- What was sent on lane n after the latest sending of LAST_GOOD there is what stands before it in the history. -/
theorem Bundle.sentAfter_iff {x : Bundle} {n : Fin 16} {a b : List (Fin 16 × BitVec 24)} {g q : BitVec 24}
    (hx : x.sends = a ++ (n, g) :: b) (hn : (n, g) ∉ a) : x.sentAfter n g q = true ↔ (n, q) ∈ a := by
  have hne : ∀ e ∈ a.filter (fun e => decide (e.1 = n)), decide (e.2 ≠ g) = true := by
    rintro ⟨i, v⟩ he
    obtain ⟨hm, hi⟩ := List.mem_filter.mp he
    obtain rfl : i = n := by simpa using hi
    exact decide_eq_true fun h => hn (h ▸ hm)
  unfold Bundle.sentAfter
  rw [hx, List.filter_append, List.filter_cons_of_pos (by simp), List.takeWhile_append_of_pos hne,
    List.takeWhile_cons_of_neg (by simp), List.append_nil, List.any_eq_true]
  constructor
  · rintro ⟨⟨i, v⟩, he, hv⟩
    obtain ⟨hm, hi⟩ := List.mem_filter.mp he
    obtain rfl : i = n := by simpa using hi
    obtain rfl : v = q := by simpa using hv
    exact hm
  · intro hm
    exact ⟨(n, q), List.mem_filter.mpr ⟨hm, by simp⟩, by simp⟩

/-- A frame put on a lane goes out as its blocks. -/
theorem State.putFrame_out (s : State) (k : Nat) (f : LinkFrame) :
    (s.putFrame k f).out = s.out ++ [.frame k (pcsBlocks f.bytes)] := by
  unfold State.putFrame
  cases s.bundleOf k <;> rfl

/-! #### Commands of a lane that comes up -/

section Lane
variable {s : State} {k : Fin 64}

theorem exec_laneLock (h : s.twLane k.val = true ∨ s.ethLane k.val = true) (hl : (s.lane k.val).lock = false) :
    exec (.laneLock k) s = .next ((if s.twLane k.val = true ∧ s.laneState k.val = LS.down
      then ((s.setLane k.val { s.lane k.val with lock := true, errs := 0 }).zeroTime (fun d => d = 0x40 + k.val)).moveLane
        k.val LS.training
      else (s.setLane k.val { s.lane k.val with lock := true, errs := 0 }).zeroTime (fun d => d = 0x40 + k.val)).done
        Code.ok) := by
  have hn : ¬ (¬ (s.twLane k.val = true ∨ s.ethLane k.val = true) ∨ (s.lane k.val).lock = true) := by
    rintro (h' | h')
    · exact h' h
    · rw [hl] at h'; cases h'
  show execLaneLock k s = _
  unfold execLaneLock
  simp only [if_neg hn]

/-- A lane is not both TIDEWAY and ETHERNET. -/
theorem State.not_twLane_of_ethLane {n : Nat} (h : s.ethLane n = true) : s.twLane n = false := by
  unfold State.ethLane at h
  unfold State.twLane
  simp only [Bool.and_eq_true, decide_eq_true_eq] at h
  simp [h.1.2]

/-- Link frames do not flow on a lane that has not come up. -/
theorem State.linkLane_early {n : Nat} (h : s.laneState n = 0 ∨ s.laneState n = 1 ∨ s.laneState n = 5) :
    s.linkLane n = false := by
  have hn : ¬ (s.laneState n = LS.up ∨ s.laneState n = LS.withdrawn ∨ s.laneState n = LS.recal) := by
    unfold LS.up LS.withdrawn LS.recal; omega
  unfold State.linkLane
  rw [decide_eq_false hn, Bool.and_false]

/-- LANE_HELLO_RECEIVE on a lane in training and MISMATCH_RECHECK on one in MISMATCH check the HELLO alike (R307). -/
theorem exec_hello {h : LinkHdr} {g : Word} {m : BitVec 14} {p : Byte} {cmd : Instr} {st : Nat}
    (hm : (cmd, st) ∈ [(Instr.laneHelloReceive ⟨k, h⟩ g m p, 1), (.mismatchRecheck ⟨k, h⟩ g m p, 5)])
    (ht : s.twLane k.val = true) (hs : s.laneState k.val = st) :
    exec cmd s = .next (if h.good then (s.fecCorr k.val h.fec).helloCheck k.val h g m p
      else ((s.fecCorr k.val h.fec).frameError k.val).done Code.ok) := by
  have hin : ∀ n, s.laneState k.val = n → s.helloIn k.val n h g m p = if h.good
      then (s.fecCorr k.val h.fec).helloCheck k.val h g m p else ((s.fecCorr k.val h.fec).frameError k.val).done Code.ok :=
    fun n hn => if_pos ⟨ht, hn⟩
  simp only [List.mem_cons, Prod.mk.injEq, List.not_mem_nil, or_false] at hm
  rcases hm with ⟨rfl, rfl⟩ | ⟨rfl, rfl⟩
  · show execLaneHelloReceive ⟨k, h⟩ g m p s = _
    unfold execLaneHelloReceive
    simp only [State.linkLane_early (s := s) (Or.inr (Or.inl hs)), Bool.false_eq_true, if_false]
    exact congrArg _ (hin 1 hs)
  · exact congrArg _ (hin 5 hs)

/-- A HELLO that passes brings the lane UP, or leaves it withdrawn under WITHDRAW. -/
theorem State.helloCheck_passed {n b : Nat} {h : LinkHdr} {g : Word} {m : BitVec 14} {p : Byte}
    (ho : s.helloOk n g m p = true) (hb : s.bundleOf n = some b) :
    s.helloCheck n h g m p = (if s.keptOut n
      then ((s.useHdr b h).setLane n { s.lane n with heard := false }).withdraw n 3 3 true
      else ((s.useHdr b h).setLane n { s.lane n with heard := false }).laneUp n).done Code.ok := by
  unfold State.helloCheck State.helloPassed
  simp only [if_pos ho, hb]
  rfl

/-- One that fails leaves it in MISMATCH, and is answered FORMAT_ERROR. -/
theorem State.helloCheck_failed {n : Nat} (hn : n < 64) {h : LinkHdr} {g : Word} {m : BitVec 14} {p : Byte}
    (ho : s.helloOk n g m p = false) :
    (s.helloCheck n h g m p).laneState n = 5 ∧ (s.helloCheck n h g m p).reply = ⟨Code.formatError, 0⟩ := by
  unfold State.helloCheck
  rw [if_neg (by rw [ho]; decide)]
  refine ⟨?_, rfl⟩
  rw [State.laneState_done, State.laneState_laneEvent _ hn, State.laneState_moveLane]
  rfl

/-! #### Frames on a lane of a bundle -/

/-- A frame other than a HELLO on a lane on which link frames flow. -/
theorem State.onLink_eq {b : Nat} (hl : s.linkLane k.val = true) (hb : s.bundleOf k.val = some b) (h : LinkHdr)
    (f : Nat → State → State) : s.onLink k.val h f = (if h.good then f b (s.linkHeard k.val h)
      else (s.fecCorr k.val h.fec).frameError k.val).done Code.ok := by
  unfold State.onLink State.received
  simp only [hb, hl, if_true, State.lane_fecCorr]

theorem exec_dataFrameReceive (k : Fin 64) (h : LinkHdr) (p : Packet) (s : State) : exec (.dataFrameReceive k h p) s =
    .next (s.onLink k.val h (fun b t => t.acceptFrame k.val b h p)) := rfl
theorem exec_idleFrameReceive (k : Fin 64) (h : LinkHdr) (s : State) :
    exec (.idleFrameReceive k h) s = .next (s.onLink k.val h (fun b t => t.useHdr b h)) := rfl
theorem exec_noticeLaneErrReceive (k : Fin 64) (h : LinkHdr) (n : Fin 16) (g : BitVec 24) (s : State) :
    exec (.noticeLaneErrReceive ⟨k, h⟩ n g) s = .next (s.onLink k.val h (fun b t => (t.useHdr b h).resendWhere b (fun f =>
      decide (f.lane = n) && ((t.useHdr b h).bundle b).sentAfter n g f.seq))) := rfl
theorem exec_noticeWithdrawReceive (k : Fin 64) (h : LinkHdr) (n : Fin 16) (s : State) :
    exec (.noticeWithdrawReceive ⟨k, h, n⟩) s = .next (s.onLink k.val h (fun b t =>
      if (t.useHdr b h).bundleOf (noticeAbout ⟨k, h, n⟩ b) = some b ∧
          (t.useHdr b h).laneState (noticeAbout ⟨k, h, n⟩ b) = LS.up
      then (t.useHdr b h).withdraw (noticeAbout ⟨k, h, n⟩ b) 2 LS.withdrawn false else t.useHdr b h)) := rfl
theorem exec_noticeRejoinReceive (k : Fin 64) (h : LinkHdr) (n : Fin 16) (s : State) :
    exec (.noticeRejoinReceive ⟨k, h, n⟩) s = .next (s.onLink k.val h (fun b t =>
      if (t.useHdr b h).bundleOf (noticeAbout ⟨k, h, n⟩ b) = some b ∧
          ((t.useHdr b h).laneState (noticeAbout ⟨k, h, n⟩ b) = LS.withdrawn ∨
            (t.useHdr b h).laneState (noticeAbout ⟨k, h, n⟩ b) = LS.recal)
      then (t.useHdr b h).rejoinIn (noticeAbout ⟨k, h, n⟩ b) else t.useHdr b h)) := rfl

/-! #### A lane leaves spraying and comes back (R319–R322) -/

theorem exec_laneLockLoss (ht : s.twLane k.val = true) (hl : (s.lane k.val).lock = true) (hs : s.laneState k.val = 2) :
    exec (.laneLockLoss k) s = .next (((s.setLane k.val { s.lane k.val with lock := false }).withdraw k.val 0 3
      true).done Code.ok) := by
  have hn : ¬ (¬ s.twLane k.val = true ∨ ¬ (s.lane k.val).lock = true) := by simp [ht, hl]
  show execLaneLockLoss k s = _
  unfold execLaneLockLoss
  simp only [if_neg hn, if_pos (show s.laneState k.val = LS.up from hs)]
  rfl

theorem exec_laneErrorWindow (ht : s.twLane k.val = true) (hs : s.laneState k.val = 2) :
    exec (.laneErrorWindow k) s = .next ((if max 1 (s.fld (Reg.laneCtl (k.val / 16) (k.val % 16)) 15 8) <
        (s.lane k.val).errs
      then (s.setLane k.val { s.lane k.val with errs := 0 }).withdraw k.val 1 3 true
      else s.setLane k.val { s.lane k.val with errs := 0 }).done Code.ok) := by
  show execLaneErrorWindow k s = _
  unfold execLaneErrorWindow
  simp only [ht, not_true_eq_false, if_false, show s.laneState k.val = LS.up from hs, true_and]
  rfl

theorem exec_laneRecal {b : Nat} (ht : s.twLane k.val = true) (hs : s.laneState k.val = 2)
    (hb : s.bundleOf k.val = some b) : exec (.laneRecal k) s = .next (if (s.liveLanes b).length ≤ 1
      then (s.setFld (Reg.laneCtl (k.val / 16) (k.val % 16)) 29 29 0).done Code.busy
      else ((s.setFld (Reg.laneCtl (k.val / 16) (k.val % 16)) 29 29 1).withdraw k.val 4 4 true).done Code.ok) := by
  show Host.Outcome.next (s.recalLane k.val) = _
  unfold State.recalLane
  simp only [ht, not_true_eq_false, if_false, if_pos (show s.laneState k.val = LS.up from hs), hb]
  rfl

theorem exec_laneSignalDetect (hf : k.val / 16 < s.part.ldCount) (hm : s.laneMode k.val ≠ 0)
    (hp : s.pdState (pdLd (k.val / 16)) = 2) :
    exec (.laneSignalDetect k) s = .next ((s.startWake (pdLd (k.val / 16))).done Code.ok) := by
  show execLaneSignalDetect k s = _
  unfold execLaneSignalDetect
  simp only [if_pos (And.intro hf (And.intro hm (Or.inl hp)))]

end Lane

/-- A domain in RETAIN whose wake starts is WAKING, and no memory changes (R442). -/
theorem State.startWake_retain {s : State} {n : Nat} (h : s.pdState n = 2) :
    (s.startWake n).pdState n = 5 ∧ (s.startWake n).mem = s.mem := by
  unfold State.startWake
  simp only [h, or_true, true_or, if_true, OfNat.ofNat_ne_one]
  exact ⟨State.fld_setFld_same _ _ _ _ _ (by decide) (by decide), rfl⟩

end Sys2Proof.Machine

open Sys2Proof Sys2Proof.Machine

/-- Settles O44: a lane's commands branch by branch, frames through `onLink`, the link layer by what each operation leaves of
the bundles. -/
theorem lanesAndLinkFrames : Obligations.LanesAndLinkFrames := by
  unfold Obligations.LanesAndLinkFrames
  refine ⟨?lock, ?helloSend, fun s k f => ⟨State.putFrame_out s k f, rfl, rfl⟩, ?helloGood, ?up, ?helloFails,
    ?helloBad, fun s k ht hl hs => exec_laneLockLoss ht hl hs, fun s k ht hs => exec_laneErrorWindow ht hs, ?withdrawn,
    ?rejoin, ?early, ?rejoinNotice, ?keptOut, ?answers, ?back, fun s k b ht hs hb => exec_laneRecal ht hs hb, ?recalDone,
    ?ctlWrite, ?ethernet, ?ethLock, ?light, ?dataSend, ?dataWaits, ?dataReceive, ?idleReceive, ?idleSend, ?ackSend,
    ?laneErr, fun x n a g q b hx hn => Bundle.sentAfter_iff hx hn, LinkFrame.length_bytes, length_pcsBlocks, ?timeout,
    ?acked, fun s k b h p hw hn => State.acceptFrame_new hw hn k p, fun s k b h p hw => State.acceptFrame_old hw k p,
    State.bundleDown_bundle⟩
  case lock =>
    intro s k ht hl hs
    rw [exec_laneLock (Or.inl ht) hl, if_pos ⟨ht, hs⟩]
    rfl
  case helloSend =>
    intro s k ht hs
    exact if_pos ⟨ht, hs⟩
  case helloGood =>
    rintro s t k h g m p b cmd st hm ht hs hg rfl ho hb
    rw [exec_hello hm ht hs, if_pos hg, State.helloCheck_passed ho hb]
  case up =>
    intro s k
    rfl
  case helloFails =>
    intro s k h g m p cmd st hm ht hs hg ho
    refine ⟨_, (exec_hello hm ht hs).trans (congrArg _ (if_pos hg)), State.helloCheck_failed k.isLt ho⟩
  case helloBad =>
    intro s k h g m p ht hs hg
    rw [exec_hello (List.mem_cons_self) ht hs, if_neg (by rw [hg]; decide)]
  case withdrawn =>
    rintro s t k h n b hl hb hg rfl hn hs
    rw [exec_noticeWithdrawReceive, State.onLink_eq hl hb, if_pos hg, if_pos ⟨hn, hs⟩]
    rfl
  case rejoin =>
    intro s k ms ht hs hl hms hk hc ha
    exact if_pos ⟨ht, hs, hl, hms, by unfold State.keptOut; rw [hk]; decide, hc, ha⟩
  case early =>
    intro s k ms hms
    exact if_neg fun ⟨_, _, _, h, _⟩ => absurd h (Nat.not_le.mpr hms)
  case rejoinNotice =>
    rintro s t k h n b hl hb hg rfl hn hs
    rw [exec_noticeRejoinReceive, State.onLink_eq hl hb, if_pos hg, if_pos ⟨hn, hs⟩]
  case keptOut =>
    intro s k h
    exact if_pos h
  case answers =>
    intro s k h hc hs
    exact (if_neg (by rw [h]; decide)).trans (if_pos ⟨hc, hs⟩)
  case back =>
    intro s k h hc ho
    exact (if_neg (by rw [h]; decide)).trans ((if_neg fun hx => hc hx.1).trans (if_pos ho))
  case recalDone =>
    intro s k ht hs
    exact if_pos ⟨ht, hs⟩
  case ctlWrite =>
    intro s a v k hc hl hf hp ha
    have h4 : k.val / 16 < 4 := by have := k.isLt; omega
    have h16 : k.val % 16 < 16 := Nat.mod_lt _ (by decide)
    have hk : k.val / 16 * 16 + k.val % 16 = k.val := by omega
    show Host.Outcome.next (s.writeAccess a _) = _
    rw [State.writeAccess_on _ hc hl (ha ▸ absentLd_laneCtl hf h16) (ha ▸ regDomain_laneCtl h4 h16) hp, ha,
      laneOfAddr_laneCtl h4 h16, hk]
  case ethernet =>
    rintro s t k up he rfl
    exact if_pos he
  case ethLock =>
    intro s k he hl
    rw [exec_laneLock (Or.inr he) hl, if_neg (by rw [State.not_twLane_of_ethLane he]; simp)]
  case light =>
    intro s k hf hm hp
    obtain ⟨hs, hmem⟩ := State.startWake_retain hp
    exact ⟨_, exec_laneSignalDetect hf hm hp, hs, hmem, rfl⟩
  case dataSend =>
    intro s l k vc p n hmap hcan hctrl hn hbest
    obtain ⟨hseq, hrep, hused, hother⟩ := State.sendData_bundle hn hbest vc p
    have hup := State.canSend_up hcan
    have hc : s.canSend (l.val * 16 + k.val) vc.val p = true ∧
        (vc.val < 3 ∨ ¬ s.ctrlAt (l.val * 16 + k.val) = true) := ⟨hcan, hctrl.imp_right fun h => by rw [h]; decide⟩
    have he : exec (.dataFrameSend l k vc p) s = .next ((s.sendData (l.val * 16 + k.val) vc p).done Code.ok) := by
      show execDataFrameSend l k vc p s = _
      unfold execDataFrameSend
      simp only [hmap, hup, if_pos hc, not_true_eq_false, or_false, one_ne_zero, if_false]
    refine ⟨_, ⟨(s.bundle (l.val * 16 + k.val)).txSeq, Fin.ofNat 16 n, 0, vc, p⟩, he, ?_⟩
    simp only [State.bundle_done, State.done_reply, true_and, and_true]
    exact ⟨hseq, hrep, hused, hother⟩
  case dataWaits =>
    intro s l k vc p hmap hup hno
    have hc : ¬ (s.canSend (l.val * 16 + k.val) vc.val p = true ∧
        (vc.val < 3 ∨ ¬ s.ctrlAt (l.val * 16 + k.val) = true)) := by
      rintro ⟨h1, h2⟩
      rcases hno with h | ⟨h3, hat⟩
      · rw [h] at h1; cases h1
      · rcases h2 with h2 | h2
        · omega
        · exact h2 hat
    show execDataFrameSend l k vc p s = _
    unfold execDataFrameSend
    simp only [hmap, hup, if_neg hc, not_true_eq_false, or_false, one_ne_zero, if_false]
  case dataReceive =>
    intro s k h p b hl hb
    rw [exec_dataFrameReceive, State.onLink_eq hl hb]
  case idleReceive =>
    intro s k h b hl hb
    rw [exec_idleFrameReceive, State.onLink_eq hl hb]
  case idleSend =>
    intro s k b hl hb
    show execIdleFrameSend k s = _
    unfold execIdleFrameSend
    simp only [hb, hl, if_true]
  case ackSend =>
    intro s l k n hn
    show execLinkAckSend l k s = _
    unfold execLinkAckSend
    simp only [hn]
  case laneErr =>
    rintro s u k h n g b hl hb hg rfl
    rw [exec_noticeLaneErrReceive, State.onLink_eq hl hb, if_pos hg]
  case timeout =>
    intro s l k q h
    exact if_pos h
  case acked =>
    intro s b h f hw
    obtain ⟨hr, ha⟩ := State.useHdr_acked hw
    refine ⟨?_, ha⟩
    rw [hr, List.mem_filter, decide_eq_true_eq]

end

/-! ### The error code, the patrols and HBM lines through Breakwater (R14–R16, R33, R56–R59, R384–R390)

What finding errors leaves alone, the patrols and the tree, then a line read and a line written under a key index. -/

section
namespace Sys2Proof.Machine

/-! #### Words found in error -/

theorem State.countCe_frame (s : State) (a n : Nat) : (s.countCe a n).mem = s.mem ∧ (s.countCe a n).ecc = s.ecc := by
  unfold State.countCe State.addFld
  split
  · exact ⟨rfl, rfl⟩
  · split <;> simp

theorem State.reportWord_mem (s : State) (p : Bool) (w : Nat) : (s.reportWord p w).mem = s.mem := by
  unfold State.reportWord
  dsimp only
  rw [State.took_mem]
  split
  · rw [(State.post_frame _ _ _).1, State.setFld_mem]
  · rw [(State.post_frame _ _ _).1]
    simp [State.count, State.addFld]

/-- Counting and reporting what a read finds changes no byte of memory. -/
theorem State.noteErrors_mem (s : State) (a : Nat) (ws : List Nat) (p : Bool) : (s.noteErrors a ws p).mem = s.mem := by
  unfold State.noteErrors State.reportUe
  refine (List.foldlRecOn (motive := fun t : State => t.mem = (s.countCe a (s.corrected ws)).mem) _ _ rfl
    fun t ht w _ => ?_).trans (State.countCe_frame s a _).1
  rw [State.reportWord_mem, ht]

/-- With no uncorrectable word nothing is reported. -/
theorem State.reportUe_none {s : State} {ws : List Nat} (h : s.anyUe ws = false) (p : Bool) : s.reportUe ws p = s := by
  have hf : ws.filter (fun w => decide (s.mark w = .uncorrectable)) = [] := by
    unfold State.anyUe at h
    rw [List.any_eq_false] at h
    exact List.filter_eq_nil_iff.mpr h
  unfold State.reportUe
  rw [hf]
  rfl

theorem State.anyUe_congr {s t : State} (h : t.ecc = s.ecc) (ws : List Nat) : t.anyUe ws = s.anyUe ws := by
  unfold State.anyUe State.mark
  rw [h]

theorem State.noteErrors_noUe {s : State} {ws : List Nat} (h : s.anyUe ws = false) (a : Nat) (p : Bool) :
    s.noteErrors a ws p = s.countCe a (s.corrected ws) :=
  State.reportUe_none ((State.anyUe_congr (State.countCe_frame s a _).2 ws).trans h) p

/-- With no corrected word nothing is counted either. -/
theorem State.noteErrors_none {s : State} {ws : List Nat} (h : s.anyUe ws = false) (hc : s.corrected ws = 0) (a : Nat)
    (p : Bool) : s.noteErrors a ws p = s := by
  rw [State.noteErrors_noUe h, hc]
  rfl

/-- Words that are good are neither uncorrectable nor corrected. -/
theorem State.good_words {s : State} {ws : List Nat} (h : ∀ w, w ∈ ws → s.mark w = .good) :
    s.anyUe ws = false ∧ s.corrected ws = 0 := by
  constructor
  · unfold State.anyUe
    rw [List.any_eq_false]
    intro w hw
    simp [h w hw]
  · unfold State.corrected
    rw [List.length_eq_zero_iff, List.filter_eq_nil_iff]
    intro w hw
    simp [h w hw]

theorem State.mark_setMark (s : State) (w v : Nat) (m : EccMark) :
    (s.setMark w m).mark v = if v = w then m else s.mark v := Table.get_put _ _ _ _ _

@[simp] theorem State.mark_done (s : State) (c : Byte) (w : Nat) : (s.done c).mark w = s.mark w := rfl

/-! #### Patrols (R58, R59) -/

/-- The corrected words of a line that the patrol writes back. -/
def State.scrub (s : State) (ws : List Nat) : State :=
  ws.foldl (fun t w => if t.mark w = .uncorrectable then t else t.setMark w .good) s

/-- Writing back changes only marks. -/
theorem State.scrub_frame (ws : List Nat) (s : State) :
    (s.scrub ws).mem = s.mem ∧ (s.scrub ws).patrol = s.patrol := by
  refine List.foldlRecOn (motive := fun t : State => t.mem = s.mem ∧ t.patrol = s.patrol) _ _ ⟨rfl, rfl⟩ fun t ht w _ => ?_
  split <;> exact ht

/-- A word that is not uncorrectable is good after the patrol, and a good word stays good. -/
theorem State.scrub_good (ws : List Nat) (s : State) (w : Nat)
    (h : s.mark w = .good ∨ (w ∈ ws ∧ s.mark w ≠ .uncorrectable)) : (s.scrub ws).mark w = .good := by
  induction ws generalizing s with
  | nil =>
    rcases h with h | ⟨hm, -⟩
    · exact h
    · cases hm
  | cons v vs ih =>
    refine ih (if s.mark v = .uncorrectable then s else s.setMark v .good) ?_
    by_cases hv : s.mark v = .uncorrectable
    · rw [if_pos hv]
      rcases h with h | ⟨hm, hu⟩
      · exact Or.inl h
      · rcases List.mem_cons.mp hm with rfl | hm
        · exact absurd hv hu
        · exact Or.inr ⟨hm, hu⟩
    · rw [if_neg hv, State.mark_setMark]
      split
      · exact Or.inl rfl
      · rcases h with h | ⟨hm, hu⟩
        · exact Or.inl h
        · next hne => exact Or.inr ⟨(List.mem_cons.mp hm).resolve_left hne, hu⟩

/-- The state after the HBM patrol has read the line at its place: errors noted, corrected words written back, its place one
line on. -/
def State.hbmPatrolled (s : State) (stack : Fin 12) (saddr : Nat) : State :=
  State.scrub { s.noteErrors (stackAddr s.part stack.val saddr) (lineWords (stackAddr s.part stack.val saddr)) true with
    patrol := s.patrol.put (fun _ => 0) stack.val (saddr / 64 + 1) } (lineWords (stackAddr s.part stack.val saddr))

/-- It keeps HBM's bytes and moves on. -/
theorem State.hbmPatrolled_frame (s : State) (stack : Fin 12) (saddr : Nat) : (s.hbmPatrolled stack saddr).mem = s.mem ∧
    (s.hbmPatrolled stack saddr).patrol.get (fun _ => 0) stack.val = saddr / 64 + 1 := by
  unfold State.hbmPatrolled
  refine ⟨(State.scrub_frame _ _).1.trans (State.noteErrors_mem s _ _ true), ?_⟩
  rw [(State.scrub_frame _ _).2]
  exact Table.get_put_same (fun _ => 0) s.patrol stack.val (saddr / 64 + 1)

/-- With no uncorrectable word every word of the line is good after it. -/
theorem State.hbmPatrolled_good {s : State} {stack : Fin 12} {saddr : Nat}
    (hu : s.anyUe (lineWords (stackAddr s.part stack.val saddr)) = false) {w : Nat}
    (hw : w ∈ lineWords (stackAddr s.part stack.val saddr)) : (s.hbmPatrolled stack saddr).mark w = .good := by
  have hmark : s.mark w ≠ .uncorrectable := by simpa using List.any_eq_false.mp hu w hw
  refine State.scrub_good _ _ w (Or.inr ⟨hw, ?_⟩)
  rw [State.noteErrors_noUe hu]
  unfold State.mark at hmark ⊢
  dsimp only
  rwa [(State.countCe_frame s _ _).2]

/-- HBM_PATROL_LINE at the patrol's place, short of the stack's last line. -/
theorem exec_hbmPatrolLine {s : State} {stack : Fin 12} {saddr : Nat} (hs : s.fld Reg.hbmScrubCtl 31 31 = 1)
    (hf : stackFitted s.part stack.val = true) (hp : s.pdOn 63 = true) (hl : saddr + 64 < 0x600000000)
    (ha : saddr / 64 = s.patrol.get (fun _ => 0) stack.val) :
    exec (.hbmPatrolLine stack saddr) s = .next ((s.hbmPatrolled stack saddr).done
      (if s.anyUe (lineWords (stackAddr s.part stack.val saddr)) then Code.eccUncorrectable else Code.ok)) := by
  have hn : ¬ (s.fld Reg.hbmScrubCtl 31 31 = 0 ∨ ¬ stackFitted s.part stack.val = true ∨ ¬ s.pdOn 63 = true ∨
      0x600000000 ≤ saddr ∨ saddr / 64 ≠ s.patrol.get (fun _ => 0) stack.val) := by
    simp only [hs, hf, hp, ha, one_ne_zero, not_true_eq_false, ne_eq, false_or, or_false]
    omega
  have hlast : ¬ saddr / 64 = 0x600000000 / 64 - 1 := by omega
  have hnext : (saddr / 64 + 1) % (0x600000000 / 64) = saddr / 64 + 1 := by omega
  show execHbmPatrolLine stack saddr s = _
  unfold execHbmPatrolLine
  simp only [if_neg hn, if_neg hlast, hnext]
  rfl

section Patrol
variable {s : State} {d : Fin 4} {b : Fin 24}

theorem exec_patrolLine (hb : s.bst d.val b.val ≠ 3) (hp : s.pdOn (pdBank d.val b.val) = true) (line : Fin 1048576)
    (busy : Bool) : exec (.patrolLine d b line busy) s = .next (if busy
      then ((s.countBusy d.val b.val 1).setBank d.val b.val
        { s.bank d.val b.val with missed := line.val :: (s.bank d.val b.val).missed }).done Code.ok
      else ((State.noteErrors (s.setBank d.val b.val
          { s.bank d.val b.val with missed := (s.bank d.val b.val).missed.filter (fun l => l ≠ line.val) })
          (bankAddr d.val b.val (line.val * 64)) (lineWords (bankAddr d.val b.val (line.val * 64))) true).done
        (if s.anyUe (lineWords (bankAddr d.val b.val (line.val * 64))) then Code.eccUncorrectable else Code.ok))) := by
  have hn : ¬ (s.bst d.val b.val = 3 ∨ ¬ s.pdOn (pdBank d.val b.val) = true) := by simp [hb, hp]
  show execPatrolLine d b line busy s = _
  unfold execPatrolLine
  simp only [if_neg hn]
  cases busy <;> rfl

theorem exec_patrolPass (hm : (s.bank d.val b.val).missed = []) (hp : s.pdOn (pdBank d.val b.val) = true) (ms : Nat) :
    exec (.patrolPass d b ms) s = .next ((s.setFld (Reg.bankStat d.val b.val) 30 30 (if 2000 < ms then 1 else 0)).done
      Code.ok) := by
  have hn : ¬ ((s.bank d.val b.val).missed ≠ [] ∨ ¬ s.pdOn (pdBank d.val b.val) = true) := by simp [hm, hp]
  show execPatrolPass d b ms s = _
  unfold execPatrolPass b2n
  simp only [if_neg hn, decide_eq_true_eq]

end Patrol

/-- ECC_WRITEBACK writes a word with one bad nibble back, unless another write came first (R56). -/
theorem exec_eccWriteback {s : State} {w : Nat} {n : Fin 36} {x : BitVec 4} (h : s.mark (w / 16) = .oneNibble n x) :
    exec (.eccWriteback w false) s = .next ((s.setMark (w / 16) .good).done Code.ok) := by
  show execEccWriteback w false s = _
  unfold execEccWriteback
  rw [h]
  rfl

theorem exec_eccWriteback_late (s : State) (w : Nat) : exec (.eccWriteback w true) s = .next (s.done Code.ok) := by
  show execEccWriteback w true s = _
  unfold execEccWriteback
  split <;> rfl

/-- A changed tree node, whose parents pass, leaves the cache; its counter rises and its parent is changed (R389). -/
theorem exec_treeNodeWriteback {s : State} {d : Fin 4} {level : Fin 6} {node : Nat}
    (hd : s.dirty.get (fun _ => false) ((d.val * 8 + level.val) * 2 ^ 32 + node) = true)
    (hp : level.val = 5 ∨ s.badAbove d.val (level.val + 1) node = none) :
    exec (.treeNodeWriteback d level node) s = .next ({ s with
      cached := s.cached.put (fun _ => false) ((d.val * 8 + level.val) * 2 ^ 32 + node) false
      dirty := if level.val < 5
        then (s.dirty.put (fun _ => false) ((d.val * 8 + level.val) * 2 ^ 32 + node) false).put (fun _ => false)
          ((d.val * 8 + level.val + 1) * 2 ^ 32 + node / 8) true
        else s.dirty.put (fun _ => false) ((d.val * 8 + level.val) * 2 ^ 32 + node) false
      badNode := s.badNode.put (fun _ => false) ((d.val * 8 + level.val) * 2 ^ 32 + node) false
      nodeCnt := s.nodeCnt.put (fun _ => 0) ((d.val * 8 + level.val) * 2 ^ 32 + node)
        (s.nodeCnt.get (fun _ => 0) ((d.val * 8 + level.val) * 2 ^ 32 + node) + 1) }.done Code.ok) := by
  have hn : ¬ (level.val < 5 ∧ (s.badAbove d.val (level.val + 1) node).isSome = true) := by
    rintro ⟨hl, hb⟩
    rcases hp with hp | hp
    · omega
    · rw [hp] at hb; cases hb
  show execTreeNodeWriteback d level node s = _
  unfold execTreeNodeWriteback
  simp only [hd, if_true, if_neg hn]

/-! #### A line read (R385, R388, R390) -/

theorem Line.answer_failed (s : State) (c : Byte) : (Line.fail s c).answer = s.done c := rfl

/-- A failure corrects nothing that it reports. -/
theorem Line.fail_withCe {c : Byte} (h : c ≠ Code.ok) (s : State) (n : Nat) : (Line.fail s c).withCe n = .fail s c :=
  if_neg fun hx => h hx.1

/-- An access that corrects no word answers as it is. -/
theorem Line.withCe_zero (x : Line) : x.withCe 0 = x := if_neg fun hx => absurd hx.2 (by omega)

theorem State.hbmGate_on {s : State} (h : s.pdOn 63 = true) : s.hbmGate = none := by
  have h6 : s.pdState 63 ≠ 6 := by
    intro h6; simp [State.pdOn, h6] at h
  unfold State.hbmGate
  rw [if_neg h6, if_neg (by rw [h]; decide)]

/-- A path that enters the cache changes nothing else. -/
theorem State.loadPath_d2d (s : State) (a : Nat) : (s.loadPath a).d2d = s.d2d := rfl

theorem length_getList {α : Type} (d : Nat → α) (t : Table α) (k n : Nat) : (Table.getList d t k n).length = n := by
  induction n generalizing k with
  | zero => rfl
  | succ n ih => simp [Table.getList, ih]

theorem State.length_bytes (s : State) (a n : Nat) : (s.bytes a n).length = n := length_getList _ _ _ _

theorem length_xtsUnit (f : BitVec 256 → BitVec 128 → BitVec 128) (key : BitVec 512) (a : Nat) (b : Bytes) :
    (xtsUnit f key a b).length = 64 := by
  simp [xtsUnit, List.range_succ, length_le]

theorem State.length_plainLine (s : State) (k a : Nat) : (s.plainLine k a).length = 64 := by
  unfold State.plainLine
  split
  · exact s.length_bytes _ _
  · exact length_xtsUnit _ _ _ _

section Read
variable {s : State} {k a : Nat}

/-- A granule of another index gives no line, and no denial is counted (R385). -/
theorem State.hbmRead_granule (h : s.granuleOf a ≠ k) : s.hbmRead k a = .fail s Code.accessBounds := by
  have hd : s.bwDenied k a 1 = some Code.accessBounds := if_pos h
  unfold State.hbmRead
  rw [hd]
  exact congrArg (fun t => Line.fail t Code.accessBounds) (if_neg (by decide))

/-- A line never written reads as zeros. -/
theorem State.hbmRead_unwritten (hd : s.bwDenied k a 1 = none) (hg : s.hbmGate = none)
    (hp : s.badPath (a / s.part.block) (a % s.part.block) = none) (hm : s.minorOf a = 0) :
    s.hbmRead k a = .ok (s.loadPath a) (List.replicate 64 0) := by
  have hm' : (s.loadPath a).minorOf a = 0 := hm
  unfold State.hbmRead
  simp only [hd, hg, hp, if_pos hm']

/-- A good written line with no word in error reads as its plaintext. -/
theorem State.hbmRead_good (hd : s.bwDenied k a 1 = none) (hg : s.hbmGate = none)
    (hp : s.badPath (a / s.part.block) (a % s.part.block) = none) (hm : s.minorOf a ≠ 0)
    (hw : ∀ w, w ∈ lineWords a → s.mark w = .good) (hl : s.lineBad k a = false) :
    s.hbmRead k a = .ok (s.loadPath a) (s.plainLine k a) := by
  have hm' : ¬ (s.loadPath a).minorOf a = 0 := hm
  have hl' : ¬ (s.loadPath a).lineBad k a = true := by
    rw [show (s.loadPath a).lineBad k a = s.lineBad k a from rfl, hl]; decide
  obtain ⟨hu, hc⟩ := State.good_words (s := s.loadPath a) hw
  have hu' : ¬ (s.loadPath a).anyUe (lineWords a) = true := by rw [hu]; decide
  have hr : (s.loadPath a).eccRead a = .ok (s.loadPath a) ((s.loadPath a).bytes (a / 64 * 64) 64) := by
    unfold State.eccRead
    simp only [if_neg hu', hc]
    rfl
  unfold State.hbmRead
  simp only [hd, hg, hp, if_neg hm', if_neg hu', if_neg hl', hr]
  rfl

/-- A line whose MAC does not hold gives no data. -/
theorem State.hbmRead_bad (hd : s.bwDenied k a 1 = none) (hg : s.hbmGate = none)
    (hp : s.badPath (a / s.part.block) (a % s.part.block) = none) (hm : s.minorOf a ≠ 0)
    (hu : s.anyUe (lineWords a) = false) (hl : s.lineBad k a = true) :
    (s.hbmRead k a).code = Code.integrityFail ∧ (s.hbmRead k a).data = [] := by
  have hm' : ¬ (s.loadPath a).minorOf a = 0 := hm
  have hu' : ¬ (s.loadPath a).anyUe (lineWords a) = true := by
    rw [show (s.loadPath a).anyUe (lineWords a) = s.anyUe (lineWords a) from rfl, hu]; decide
  have hl' : (s.loadPath a).lineBad k a = true := hl
  unfold State.hbmRead
  simp only [hd, hg, hp, if_neg hm', if_neg hu', if_pos hl']
  exact ⟨rfl, rfl⟩

end Read

section LineRead
variable {s : State} {r : Requester} {a d o : Nat}

theorem State.readHere_hbm (hp : place s.part a = .hbm d o) (hm : mayHbm r = true) (hr : s.inReach r a = true)
    (fold : Bool) : s.readHere r a fold = s.hbmRead (s.keyIndex r) a := by
  unfold State.readHere
  simp only [hr, hp, not_true_eq_false, if_false, hm, if_true]

theorem exec_hbmLineRead (hp : place s.part a = .hbm d o) (ha : a % 64 = 0) : exec (.hbmLineRead r a) s =
    .next (((s.readLine r a false).withCe ((s.readLine r a false).ce + s.linkCeTo (s.readLine r a false).st)).answer) := by
  have h64 : a / 64 * 64 = a := by omega
  show execHbmLineRead r a s = _
  unfold execHbmLineRead
  simp only [hp, h64]

/-- A read that fails where the line stands answers its code. -/
theorem exec_hbmLineRead_failed (hp : place s.part a = .hbm d o) (ha : a % 64 = 0) {t : State} {c : Byte}
    (hf : s.readHere r a false = .fail t c) (hc : c ≠ Code.ok) :
    exec (.hbmLineRead r a) s = .next (t.done c) := by
  have hx : s.readLine r a false = .fail t c :=
    (State.readLine_failed s r a false (Or.inr (by rw [hf]; exact hc))).trans hf
  rw [exec_hbmLineRead hp ha, hx, Line.fail_withCe hc]
  rfl

/-- A read that succeeds where the line stands, with no word corrected, puts the line out. -/
theorem exec_hbmLineRead_ok (hp : place s.part a = .hbm d o) (ha : a % 64 = 0) {t : State} {b : Bytes}
    (hf : s.readHere r a false = .ok t b) (hc : s.linksClean = true) (ht : t.d2d = s.d2d) (hb : b ≠ []) :
    exec (.hbmLineRead r a) s = .next { t.emit (.words (b.map (fun x => x.toNat))) with
      reply := ⟨Code.ok, BitVec.ofNat 64 (fromLE (b.take 8))⟩ } := by
  have htc : t.linksClean = true := by unfold State.linksClean at hc ⊢; rwa [ht]
  have hx : s.readLine r a false = .ok t b :=
    (State.readLine_clean s r a false (by rw [hf]; exact htc)).trans hf
  have hce : (Line.ok t b).ce + s.linkCeTo (Line.ok t b).st = 0 := by
    rw [Line.ok_st, State.linkCeTo_same ht]; rfl
  rw [exec_hbmLineRead hp ha, hx, hce, Line.withCe_zero]
  unfold Line.answer Line.ok
  simp only [Bool.false_eq_true, if_false, if_neg hb]

/-- A word poisoned on the way back gives nothing (R16). -/
theorem exec_hbmLineRead_poisoned (hp : place s.part a = .hbm d o) (ha : a % 64 = 0) {t : State}
    (hs : (s.readHere r a false).stall = false) (hc : (s.readHere r a false).code = Code.ok)
    (hx : (s.readHere r a false).st.crossPorts (route d (requesterDie r)) = (t, true)) :
    exec (.hbmLineRead r a) s = .next (t.done Code.eccUncorrectable) := by
  have hn : ¬ ((s.readHere r a false).stall = true ∨ (s.readHere r a false).code ≠ Code.ok) := by simp [hs, hc]
  have hl : s.readLine r a false = .fail t Code.eccUncorrectable := by
    unfold State.readLine Line.carried
    rw [if_neg hn, hp]
    simp only [placeDie, hx, if_true]
  rw [exec_hbmLineRead hp ha, hl, Line.fail_withCe (by decide)]
  rfl

end LineRead

/-! #### A line written (R386, R388) -/

/-- What memory holds of a line before new data go into it: zeros of a line never written, else the plaintext under the
index's key. -/
def State.lineBase (s : State) (k a : Nat) : State :=
  if ¬ decide (s.minorOf a ≠ 0) then s.zeroMem (a / 64 * 64) 64
  else if (s.lineKeys a).mem = s.memKey k then s else s.store (a / 64 * 64) (s.plainLine k a)

/-- It differs in memory alone, and there in the line alone. -/
theorem State.lineBase_eq (s : State) (k a : Nat) : ∃ m, s.lineBase k a = { s with mem := m } ∧
    ∀ j, (j < a / 64 * 64 ∨ a / 64 * 64 + 64 ≤ j) → Table.get blank m j = s.byte j := by
  unfold State.lineBase
  split
  · refine ⟨_, rfl, fun j hj => ?_⟩
    have h := State.byte_zeroMem s (a / 64 * 64) 64 j
    rwa [if_neg (by omega)] at h
  · split
    · exact ⟨s.mem, rfl, fun j _ => rfl⟩
    · refine ⟨_, rfl, fun j hj => ?_⟩
      exact State.byte_store_outside s _ j _ (by rw [State.length_plainLine]; exact hj)

/-- Marking words good changes the marks alone. -/
theorem State.setMarks_eq (ws : List Nat) (m : EccMark) (s : State) :
    ∃ e, ws.foldl (fun t w => t.setMark w m) s = { s with ecc := e } := by
  induction ws generalizing s with
  | nil => exact ⟨s.ecc, rfl⟩
  | cons w ws ih => exact ih (s.setMark w m)

/-- The state in which data have been written over a whole line (R388). -/
def State.lineWritten (s : State) (k a : Nat) (data : Bytes) : State :=
  let u := (lineWords a).foldl (fun t w => t.setMark w .good)
    ((((s.loadPath a).lineBase k a).raiseVersion a).rekey k a (decide (63 ≤ ((s.loadPath a).minorOf a).toNat)))
  { u with
    badLine := u.badLine.put (fun _ => false) (a / 64) false
    dirty := u.dirty.put (fun _ => false) (nodeKey (a / u.part.block) 0 (a % u.part.block)) true }.store a data

/-- A whole line written, its minor counter below 63, needs neither the old line nor a rollover. -/
theorem State.hbmWrite_whole {s : State} {k a : Nat} {data : Bytes} (hlen : data.length = 64)
    (hd : s.bwDenied k a 0 = none) (he : s.inEvk a = false) (hg : s.hbmGate = none)
    (hp : s.badPath (a / s.part.block) (a % s.part.block) = none) (hm : (s.minorOf a).toNat < 63) :
    s.hbmWrite k a data = .ok (s.lineWritten k a data) [] := by
  have hroll : (s.loadPath a).rollBad k a = none := if_pos hm
  have hce : (s.loadPath a).countCe a 0 = s.loadPath a := if_pos rfl
  unfold State.hbmWrite
  simp only [hd, he, hg, hp, Bool.false_eq_true, if_false, hlen, decide_true, not_true_eq_false, false_and, hroll, hce]
  rfl

/-- Nothing but the path in the cache, the line's bytes and marks, its minor counter, what it is stored under and its level-0
block changes. -/
theorem State.lineWritten_eq {s : State} {a : Nat} (hm : (s.minorOf a).toNat < 63) (k : Nat) (data : Bytes) :
    ∃ m e c x y, s.lineWritten k a data = { s with
        cached := c, mem := Table.putList blank m a data, ecc := e, badLine := x, dirty := y
        minor := s.minor.put (fun _ => 0) (a / 64) (s.minorOf a + 1)
        crypt := s.crypt.put (fun _ => LineKeys.zero) (a / 64) ⟨s.memKey k, s.intKey k,
          { s with minor := s.minor.put (fun _ => 0) (a / 64) (s.minorOf a + 1) }.version a⟩ } ∧
      ∀ j, (j < a / 64 * 64 ∨ a / 64 * 64 + 64 ≤ j) → Table.get blank m j = s.byte j := by
  obtain ⟨m, hbase, hmem⟩ := State.lineBase_eq (s.loadPath a) k a
  obtain ⟨e, he⟩ := State.setMarks_eq (lineWords a) .good
    ((((s.loadPath a).lineBase k a).raiseVersion a).rekey k a (decide (63 ≤ ((s.loadPath a).minorOf a).toNat)))
  have hup : ((s.loadPath a).lineBase k a).raiseVersion a = { (s.loadPath a).lineBase k a with
      minor := s.minor.put (fun _ => 0) (a / 64) (s.minorOf a + 1) } := by
    rw [hbase]
    exact if_pos hm
  have h63 : decide (63 ≤ ((s.loadPath a).minorOf a).toNat) = false := decide_eq_false (Nat.not_le.mpr hm)
  refine ⟨m, e, (s.lineWritten k a data).cached, (s.lineWritten k a data).badLine, (s.lineWritten k a data).dirty, ?_, hmem⟩
  unfold State.lineWritten
  rw [he, h63, hup, hbase]
  rfl

/-- A run of values just written reads back. -/
theorem getList_putList {α : Type} [DecidableEq α] (d : Nat → α) (vs : List α) (t : Table α) (k : Nat) :
    Table.getList d (Table.putList d t k vs) k vs.length = vs := by
  induction vs generalizing t k with
  | nil => rfl
  | cons v vs ih =>
    rw [Table.putList, List.length_cons, Table.getList, ih, Table.get_putList_lt d vs _ _ k (Nat.lt_succ_self k),
      Table.get_put_same]

@[simp] theorem State.bytes_done (s : State) (c : Byte) (a n : Nat) : (s.done c).bytes a n = s.bytes a n := rfl
@[simp] theorem State.version_done (s : State) (c : Byte) (a : Nat) : (s.done c).version a = s.version a := rfl
@[simp] theorem State.macHolds_done (s : State) (c : Byte) (k a : Nat) : (s.done c).macHolds k a = s.macHolds k a := rfl
@[simp] theorem State.plainLine_done (s : State) (c : Byte) (k a : Nat) : (s.done c).plainLine k a = s.plainLine k a := rfl

section Written
variable {s : State} {k a : Nat} {data : Bytes} (hm : (s.minorOf a).toNat < 63)
include hm

theorem State.lineWritten_frame : (s.lineWritten k a data).keys = s.keys ∧ (s.lineWritten k a data).ctxs = s.ctxs ∧
    (s.lineWritten k a data).d2d = s.d2d := by
  obtain ⟨m, e, c, x, y, ht, -⟩ := State.lineWritten_eq hm k data
  rw [ht]
  exact ⟨rfl, rfl, rfl⟩

theorem State.lineWritten_bytes (hlen : data.length = 64) : (s.lineWritten k a data).bytes a 64 = data := by
  obtain ⟨m, e, c, x, y, ht, -⟩ := State.lineWritten_eq hm k data
  rw [ht, ← hlen]
  exact getList_putList blank data m a

theorem State.lineWritten_outside (ha : a % 64 = 0) (hlen : data.length = 64) {j : Nat} (hj : j < a ∨ a + 64 ≤ j) :
    (s.lineWritten k a data).byte j = s.byte j := by
  obtain ⟨m, e, c, x, y, ht, hmem⟩ := State.lineWritten_eq hm k data
  have h64 : a / 64 * 64 = a := by omega
  rw [h64] at hmem
  rw [ht]
  show Table.get blank (Table.putList blank m a data) j = _
  rw [Table.get_putList, if_neg (by omega), hmem j hj]

theorem State.lineWritten_version : s.version a < (s.lineWritten k a data).version a := by
  obtain ⟨m, e, c, x, y, ht, -⟩ := State.lineWritten_eq hm k data
  have h1 : (s.minorOf a + 1).toNat = (s.minorOf a).toNat + 1 := by
    rw [BitVec.toNat_add_of_lt (show (s.minorOf a).toNat + 1 < 2 ^ 6 by omega)]
    rfl
  rw [ht]
  show _ < (s.majorOf a).toNat * 64 + (Table.get (fun _ => 0) (Table.put (fun _ => 0) s.minor (a / 64) _) (a / 64)).toNat
  rw [Table.get_put_same, h1]
  unfold State.version
  omega

/-- What the line is stored under: the keys of the index, and its new version. -/
theorem State.lineWritten_lineKeys : (s.lineWritten k a data).lineKeys a =
    ⟨(s.lineWritten k a data).memKey k, (s.lineWritten k a data).intKey k, (s.lineWritten k a data).version a⟩ := by
  obtain ⟨m, e, c, x, y, ht, -⟩ := State.lineWritten_eq hm k data
  rw [ht]
  exact Table.get_put_same _ _ _ _

theorem State.lineWritten_macHolds : (s.lineWritten k a data).macHolds k a = true := by
  unfold State.macHolds
  simp only [State.lineWritten_lineKeys hm, and_self, decide_true, Bool.true_or]

theorem State.lineWritten_plainLine (ha : a % 64 = 0) (hlen : data.length = 64) :
    (s.lineWritten k a data).plainLine k a = data := by
  have h64 : a / 64 * 64 = a := by omega
  unfold State.plainLine
  rw [State.lineWritten_lineKeys hm, if_pos rfl, h64, State.lineWritten_bytes hm hlen]

end Written

section LineWrite
variable {s : State} {r : Requester} {a d o : Nat} {data : Bytes}

theorem State.writeHere_hbm (hp : place s.part a = .hbm d o) (hm : mayHbm r = true) (hr : s.inReach r a = true)
    (data : Bytes) (fold : Bool) : s.writeHere r a data fold = s.hbmWrite (s.keyIndex r) a data := by
  unfold State.writeHere
  simp only [hr, hp, not_true_eq_false, if_false, hm, if_true]

/-- A write that is done where the line stands, over clean links, completes. -/
theorem exec_hbmLineWrite_ok (hp : place s.part a = .hbm d o) (ha : a % 64 = 0) (hlen : data.length = 64) {t : State}
    (hw : s.writeHere r a data false = .ok t []) (hc : s.linksClean = true) (ht : t.d2d = s.d2d) :
    exec (.hbmLineWrite r a data) s = .next (t.done Code.ok) := by
  have htake : data.take (64 - a % 64) = data := List.take_of_length_le (by omega)
  have hx : s.writeLine r a data false = .ok t [] := (State.writeLine_clean s r a data false hc).trans hw
  have hce : (Line.ok t []).ce + s.linkCeTo (Line.ok t []).st = 0 := by
    rw [Line.ok_st, State.linkCeTo_same ht]; rfl
  show execHbmLineWrite r a data s = _
  unfold execHbmLineWrite
  simp only [hp, htake, hx, hce, Line.withCe_zero]
  rfl

/-- A write poisoned on its way fails (R16). -/
theorem exec_hbmLineWrite_poisoned (hp : place s.part a = .hbm d o) {t : State}
    (hx : s.crossPorts (route (requesterDie r) d) = (t, true)) (data : Bytes) :
    exec (.hbmLineWrite r a data) s = .next (t.done Code.eccUncorrectable) := by
  have hl : ∀ b, s.writeLine r a b false = .fail t Code.eccUncorrectable := by
    intro b
    unfold State.writeLine
    rw [hp]
    simp only [placeDie, hx, if_true]
  show execHbmLineWrite r a data s = _
  unfold execHbmLineWrite
  simp only [hp, hl, Line.fail_withCe (show Code.eccUncorrectable ≠ Code.ok by decide)]
  rfl

end LineWrite

/-! #### Ports and routes (R13, R14, R16) -/

section Ports
variable {s : State} {k : Nat}

theorem State.crossPorts_poisoned (ks : List Nat) (h : (s.port k).mark = .uncorrectable) :
    s.crossPorts (k :: ks) = ((s.setPort k ⟨.good, (s.port k).ce⟩).portUe k, true) := by
  rw [State.crossPorts, h]

theorem State.crossPorts_corrected (ks : List Nat) {n : Fin 36} {x : BitVec 4} (h : (s.port k).mark = .oneNibble n x) :
    s.crossPorts (k :: ks) = (s.setPort k ⟨.good, (s.port k).ce + 1⟩).crossPorts ks := by
  rw [State.crossPorts, h]

theorem State.crossPorts_good (ks : List Nat) (h : (s.port k).mark = .good) :
    s.crossPorts (k :: ks) = s.crossPorts ks := by
  rw [State.crossPorts, h]

end Ports

/-- Between compute dies a word goes around the ring. -/
theorem route_ring {a b : Nat} (ha : a < 4) (hb : b < 4) : route a b = if a = b then []
    else if (a + 1) % 4 = b ∨ (b + 1) % 4 = a then [a * 16 + b] else [a * 16 + (a + 1) % 4, (a + 1) % 4 * 16 + b] := by
  have h8 : ¬ (a = 8 ∨ b = 8) := by omega
  unfold route ringPorts
  rw [Nat.mod_eq_of_lt ha, Nat.mod_eq_of_lt hb, if_neg h8, if_neg (by omega : ¬ 4 ≤ a), if_neg (by omega : ¬ 4 ≤ b),
    List.nil_append, List.append_nil]
  split <;> rfl

/-- A light die reaches the ring at its own compute die; the hub die reaches every compute die directly. -/
theorem route_outer {l d : Nat} (hl : l < 4) (hd : d < 4) :
    route (4 + l) d = ((4 + l) * 16 + l) :: route l d ∧ route 8 d = [8 * 16 + d] := by
  have hm : (4 + l) % 4 = l := by omega
  have hs : 4 + l - 4 = l := by omega
  refine ⟨?_, ?_⟩
  · unfold route
    rw [hm, hs, Nat.mod_eq_of_lt hl, Nat.mod_eq_of_lt hd, if_neg (by omega : ¬ 4 + l = d),
      if_neg (by omega : ¬ (4 + l = 8 ∨ d = 8)), if_pos (by omega : 4 ≤ 4 + l), if_neg (by omega : ¬ 4 ≤ d),
      if_neg (by omega : ¬ (l = 8 ∨ d = 8)), if_neg (by omega : ¬ 4 ≤ l)]
    by_cases h : l = d
    · rw [if_pos h, ringPorts, if_pos h]; rfl
    · rw [if_neg h]; rfl
  · unfold route
    rw [if_neg (by omega : ¬ 8 = d), if_pos (Or.inl rfl)]

end Sys2Proof.Machine

open Sys2Proof Sys2Proof.Machine

/-- Settles O18: the patrols and the tree row by row; a line read and a line written under the index of the requester. -/
theorem errorCodeAndBreakwater : Obligations.ErrorCodeAndBreakwater := by
  unfold Obligations.ErrorCodeAndBreakwater
  refine ⟨fun s w n x h => exec_eccWriteback h, exec_eccWriteback_late, ?patrol, ?patrolBusy,
    fun s d b ms hm hp => exec_patrolPass hm hp ms, ?hbmPatrolUe, ?hbmPatrol, fun s stack => rfl, ?tree,
    ?granule, ?unwritten, ?good, ?write, ?badMac, fun s k ks h => State.crossPorts_poisoned ks h,
    fun s k ks n x h => State.crossPorts_corrected ks h, fun s k ks h => State.crossPorts_good ks h,
    fun s t r a d o hp ha hs hc hx => exec_hbmLineRead_poisoned hp ha hs hc hx, ?writePoisoned,
    fun a b ha hb => route_ring ha hb, fun l d hl hd => route_outer hl hd⟩
  case patrol =>
    intro s d b line hb hp hu hc
    rw [exec_patrolLine hb hp line, if_neg (by decide), hu,
      State.noteErrors_none (s := s.setBank d.val b.val _) hu hc]
    rfl
  case patrolBusy =>
    intro s d b line hb hp
    rw [exec_patrolLine hb hp line]
    rfl
  case hbmPatrolUe =>
    intro s stack saddr hs hf hp hl ha hu
    obtain ⟨hmem, hpat⟩ := s.hbmPatrolled_frame stack saddr
    refine ⟨_, exec_hbmPatrolLine hs hf hp hl ha, ?_⟩
    rw [if_pos hu, State.done_mem, State.done_patrol]
    exact ⟨rfl, hmem, hpat⟩
  case hbmPatrol =>
    intro s stack saddr hs hf hp hl ha hu
    obtain ⟨hmem, hpat⟩ := s.hbmPatrolled_frame stack saddr
    refine ⟨_, exec_hbmPatrolLine hs hf hp hl ha, ?_⟩
    simp only [hu, Bool.false_eq_true, if_false, State.done_mem, State.done_patrol, State.mark_done]
    exact ⟨rfl, hmem, fun w hw => State.hbmPatrolled_good hu hw, hpat⟩
  case tree =>
    intro s d level node hd hp
    refine ⟨_, exec_treeNodeWriteback hd hp, ?_⟩
    simp only [State.done_reply, State.done_nodeCnt, State.done_dirty, State.done_cached, State.done_mem, State.done_regs,
      Table.get_put_same, and_true, true_and]
    refine ⟨fun hn => ?_, fun hl => ?_⟩
    · split
      · rw [Table.get_put_ne _ _ _ _ _ (by omega), Table.get_put_same]
      · exact Table.get_put_same _ _ _ _
    · rw [if_pos hl, Table.get_put_same]
  case granule =>
    intro s r a d o hp ha hm hr hg
    exact exec_hbmLineRead_failed hp ha ((State.readHere_hbm hp hm hr false).trans (State.hbmRead_granule hg)) (by decide)
  case unwritten =>
    intro s r a d o hp ha hm hr hc hd hon hpath h0
    have hread := (State.readHere_hbm hp hm hr false).trans (State.hbmRead_unwritten hd (State.hbmGate_on hon) hpath h0)
    exact exec_hbmLineRead_ok hp ha hread hc (State.loadPath_d2d s a) (by decide)
  case good =>
    intro s r a d o hp ha hm hr hc hd hon hpath h0 hw hl
    have hread := (State.readHere_hbm hp hm hr false).trans (State.hbmRead_good hd (State.hbmGate_on hon) hpath h0 hw hl)
    refine exec_hbmLineRead_ok hp ha hread hc (State.loadPath_d2d s a) fun h => ?_
    have h64 := s.length_plainLine (s.keyIndex r) a
    rw [h] at h64
    cases h64
  case write =>
    intro s r a d o data hp ha hlen hm hr hc hd he hon hpath h63
    obtain ⟨hkeys, hctxs, hports⟩ := State.lineWritten_frame (k := s.keyIndex r) (data := data) h63
    have hwrite := (State.writeHere_hbm hp hm hr data false).trans
      (State.hbmWrite_whole hlen hd he (State.hbmGate_on hon) hpath h63)
    refine ⟨_, exec_hbmLineWrite_ok hp ha hlen hwrite hc hports, ?_⟩
    simp only [State.done_reply, State.bytes_done, State.byte_done, State.version_done, State.done_keys, State.done_ctxs,
      State.macHolds_done, State.plainLine_done]
    exact ⟨trivial, State.lineWritten_bytes h63 hlen,
      fun j hj => State.lineWritten_outside h63 ha hlen hj, State.lineWritten_version h63, hkeys, hctxs,
      State.lineWritten_macHolds h63, State.lineWritten_plainLine h63 ha hlen⟩
  case badMac =>
    intro s k a hd hg hp hm hu hl
    exact State.hbmRead_bad hd hg hp hm hu hl
  case writePoisoned =>
    intro s t r a d o data hp hx
    refine ⟨exec_hbmLineWrite_poisoned hp hx data, ?_⟩
    have h := (State.crossPorts_frame (route (requesterDie r) d) s).1
    rwa [hx] at h

end

/-! ### Power domains (R440–R448)

What an entry that nothing stops commits to, and where a wake starts; the clauses follow case by case. -/

section
namespace Sys2Proof.Machine

section Entry
variable {s : State} {n tgt : Nat}

/-- An entry that meets neither a wake level nor a refusal is committed (R440). -/
theorem State.pdEntry_ready (hl : s.pdLevel n = false) (hr : s.pdRefusal n tgt = none) (enter : Bool) :
    s.pdEntry n tgt .ready enter = s.pdCommit n tgt enter := by
  simp only [State.pdEntry, hl, hr, Bool.false_eq_true, if_false]

theorem State.not_pdHeld (h : s.fld (Reg.pdCtl n) 31 31 = 0) : ¬ s.pdHeld n = true := by
  simp [State.pdHeld, h]

/-- A wake starts from IDLE, RETAIN or a permitted OFF (R442, R447). -/
theorem State.startWake_asleep (h : s.pdState n = 1 ∨ s.pdState n = 2 ∨ (s.pdState n = 3 ∧ s.pdMayOff n = true)) :
    s.startWake n = (s.setPdx n { s.pdx n with from_ := s.pdState n }).setFld (Reg.pdStat n) 31 29 5 := if_pos h

/-- In ENTERING the wake level is kept (R446). -/
theorem State.startWake_entering (h : s.pdState n = 4) : s.startWake n = s.setPdx n { s.pdx n with wake := true } := by
  have h1 : ¬ (s.pdState n = 1 ∨ s.pdState n = 2 ∨ (s.pdState n = 3 ∧ s.pdMayOff n = true)) := by omega
  exact (if_neg h1).trans (if_pos h)

end Entry

section Commands
variable {s : State} {n : Fin 64}

theorem exec_pdIdleTimeout (h0 : s.pdState n.val = 0) (hh : s.fld (Reg.pdCtl n.val) 31 31 = 0)
    (ht : 1 ≤ s.pdTgt n.val) (hl : s.pdLevel n.val = false) (hr : s.pdRefusal n.val 1 = none) :
    exec (.pdIdleTimeout n .ready) s = .next ((s.pdCommit n.val 1 false).done Code.ok) := by
  have hc : s.pdOn n.val = true ∧ ¬ s.pdHeld n.val = true ∧ 1 ≤ s.pdTgt n.val :=
    ⟨decide_eq_true h0, State.not_pdHeld hh, ht⟩
  show execPdIdleTimeout n .ready s = _
  unfold execPdIdleTimeout
  rw [if_pos hc, State.pdEntry_ready hl hr]

theorem exec_pdDeepTimeout (h1 : s.pdState n.val = 1) (hh : s.fld (Reg.pdCtl n.val) 31 31 = 0)
    (ht : 2 ≤ s.pdTgt n.val) (hl : s.pdLevel n.val = false) (hr : s.pdRefusal n.val (s.pdTgt n.val) = none) :
    exec (.pdDeepTimeout n .ready) s = .next ((s.pdCommit n.val (s.pdTgt n.val) false).done Code.ok) := by
  have hc : s.pdState n.val = 1 ∧ ¬ s.pdHeld n.val = true ∧ 2 ≤ s.pdTgt n.val := ⟨h1, State.not_pdHeld hh, ht⟩
  show execPdDeepTimeout n .ready s = _
  unfold execPdDeepTimeout
  rw [if_pos hc, State.pdEntry_ready hl hr]

/-- HOLD written 0 is cleared and starts nothing. -/
theorem State.holdWrite_release {n : Nat} (ha : s.pdAbsent n = false) :
    s.holdWrite n false = s.setFld (Reg.pdCtl n) 31 31 0 := by
  simp only [State.holdWrite, ha, Bool.false_eq_true, if_false, b2n]

/-- Without HOLD a WAKE_FAILED domain goes to OFF and stays there (R445). -/
theorem State.clrFailWrite_unheld {n : Nat} (h6 : s.pdState n = 6) (hh : s.fld (Reg.pdCtl n) 31 31 = 0) :
    s.clrFailWrite n = s.setFld (Reg.pdStat n) 31 29 3 := (if_pos h6).trans (if_neg (State.not_pdHeld hh))

/-- A write of ENTER starts the entry to a deeper TGT (R448). -/
theorem State.enterWrite_deeper {n : Nat} (ha : s.pdAbsent n = false) (hh : s.fld (Reg.pdCtl n) 31 31 = 0)
    (h4 : s.pdState n < 4) (ht : s.pdState n < s.pdTgt n) (hl : s.pdLevel n = false)
    (hr : s.pdRefusal n (s.pdTgt n) = none) : s.enterWrite n .ready = s.pdCommit n (s.pdTgt n) true := by
  have hc : ¬ (s.pdHeld n = true ∨ s.pdTgt n = 0 ∨ 4 ≤ s.pdState n ∨ s.pdTgt n ≤ s.pdState n ∨ s.pdAbsent n = true) := by
    simp only [State.not_pdHeld hh, ha, Bool.false_eq_true, false_or, or_false]
    omega
  unfold State.enterWrite
  rw [if_neg hc, State.pdEntry_ready hl hr]

theorem exec_pdEntryDone (h4 : s.pdState n.val = 4) (hw : (s.pdx n.val).wake = false)
    (hh : s.fld (Reg.pdCtl n.val) 31 31 = 0) : exec (.pdEntryDone n) s = .next ((((s.setPdx n.val PdX.zero).setFld
      (Reg.pdStat n.val) 31 29 (s.pdx n.val).target).setFld (Reg.pdCtl n.val) 30 30 0).done Code.ok) := by
  have hc : ¬ ((s.pdx n.val).wake = true ∨ s.pdHeld n.val = true) := by simp [hw, State.not_pdHeld hh]
  show execPdEntryDone n s = _
  unfold execPdEntryDone
  simp only [h4, if_true, if_neg hc]

/-- An access of a domain that is neither ON nor WAKE_FAILED starts its wake and waits. -/
theorem exec_pdWake_waits (h0 : s.pdState n.val ≠ 0) (h6 : s.pdState n.val ≠ 6) (unit : Fin 16) (id : Byte) :
    exec (.pdWake n unit id) s = .next (s.startWake n.val).waits := by
  have hon : s.pdOn n.val = false := decide_eq_false h0
  show execPdWake n unit id s = _
  unfold execPdWake
  rw [if_neg h6, hon, if_neg (by decide)]

theorem exec_pdWakeDone (h5 : s.pdState n.val = 5) (hf : (s.pdx n.val).from_ ≠ 3) : exec (.pdWakeDone n) s =
    .next ((((s.setPdx n.val PdX.zero).resumeHandovers n.val).setFld (Reg.pdStat n.val) 31 29 0).done Code.ok) := by
  show execPdWakeDone n s = _
  unfold execPdWakeDone
  simp only [h5, if_true, if_neg hf]

end Commands

end Sys2Proof.Machine

open Sys2Proof Sys2Proof.Machine

/-- Settles O10: entries by `pdEntry_ready`, wakes by the two cases of `startWake`. -/
theorem powerDomainCommands : Obligations.PowerDomainCommands := by
  unfold Obligations.PowerDomainCommands
  refine ⟨fun s n h0 hh ht hl hr => exec_pdIdleTimeout h0 hh ht hl hr,
    fun s n h1 hh ht hl hr => exec_pdDeepTimeout h1 hh ht hl hr, ?enter,
    fun s n h4 hw hh => exec_pdEntryDone h4 hw hh, ?hold, ?wake, ?wakeEntering, ?wakeOn,
    fun s n unit id h6 => if_pos h6, fun s n h5 hf => exec_pdWakeDone h5 hf, fun s n h5 => if_pos h5, ?clrFail⟩
  case enter =>
    intro s n ha hh h4 ht hl hr
    have h := State.enterWrite_deeper (s := s.dropWbuf n.core.val) ha hh h4 ht hl hr
    exact congrArg (fun t : State => Host.Outcome.next (t.done Code.ok)) h
  case hold =>
    intro s n core ha
    have h := State.holdWrite_release (s := s.dropWbuf core.val) ha
    exact congrArg (fun t : State => Host.Outcome.next (t.done Code.ok)) h
  case wake =>
    intro s n unit id h
    rw [exec_pdWake_waits (by omega) (by omega), State.startWake_asleep h]
  case wakeEntering =>
    intro s n unit id h
    rw [exec_pdWake_waits (by omega) (by omega), State.startWake_entering h]
  case wakeOn =>
    intro s n unit id h
    have h6 : s.pdState n.val ≠ 6 := by omega
    exact (if_neg h6).trans (if_pos (decide_eq_true h))
  case clrFail =>
    intro s n h6 hh
    have h := State.clrFailWrite_unheld (s := s.dropWbuf n.core.val) h6 hh
    exact congrArg (fun t : State => Host.Outcome.next (t.done Code.ok)) h

end

/-! ### Register accesses of hub cores (R34–R37, R448, R469, R541)

The hub's checks said once, then what an access that passes them does, by the kind of its register. -/

section
namespace Sys2Proof.Machine

/-! #### The checks -/

section Checks
variable {s : State} {a : Acc} {w : Bool} {k : State → State}

theorem State.accessCheck_passed (hp : pageAllotted (a.addr / 0x10000) = true)
    (hw : worldMay a.world w (a.addr / 0x10000) (a.addr % 0x10000 / 4 * 4) = true) (hd : a.addr / 0x10000 ≠ 0x3F0)
    (h4 : a.width = 4) (hm : a.addr % 4 = 0) : s.accessCheck a w = none := by
  simp only [State.accessCheck, hp, hw, hd, h4, hm, not_true_eq_false, false_and, ne_eq, or_self, if_false]

theorem State.accessCheck_notAllotted (hp : pageAllotted (a.addr / 0x10000) = false) :
    s.accessCheck a w = some (Code.accessBounds, false) := by
  simp only [State.accessCheck, hp, Bool.false_eq_true, not_false_eq_true, if_true]

theorem State.accessCheck_secret (hp : pageAllotted (a.addr / 0x10000) = true)
    (hw : worldMay a.world w (a.addr / 0x10000) (a.addr % 0x10000 / 4 * 4) = false) :
    s.accessCheck a w = some (Code.accessBounds, true) := by
  simp only [State.accessCheck, hp, hw, not_true_eq_false, Bool.false_eq_true, not_false_eq_true, if_false, if_true]

theorem State.accessCheck_debug (hw : a.world = .secure) (hp : a.addr / 0x10000 = 0x3F0) (hl : s.lc ≠ 0 ∧ s.lc ≠ 3) :
    s.accessCheck a w = some (Code.lifecycleDenied, false) := by
  have h1 : pageAllotted 0x3F0 = true := rfl
  have h2 : worldMay a.world w 0x3F0 (a.addr % 0x10000 / 4 * 4) = true := by rw [hw]; rfl
  simp only [State.accessCheck, hp, h1, h2, hl, not_true_eq_false, if_false, ne_eq, not_false_eq_true, and_self, if_true]

theorem State.accessCheck_width (hw : worldMay a.world w (a.addr / 0x10000) (a.addr % 0x10000 / 4 * 4) = true)
    (hp : pageAllotted (a.addr / 0x10000) = true) (hd : a.addr / 0x10000 ≠ 0x3F0) (h4 : a.width ≠ 4) :
    s.accessCheck a w = some (Code.formatError, false) := by
  simp only [State.accessCheck, hp, hw, hd, h4, not_true_eq_false, false_and, ne_eq, if_false, not_false_eq_true, true_or,
    if_true]

/-- The pages that both worlds may write (R36). -/
theorem worldMay_open {p : Nat} (h : p = 0 ∨ (0x010 ≤ p ∧ p ≤ 0x020)) (wd : World) (w : Bool) (o : Nat) :
    worldMay wd w p o = true := by
  have h1 : ¬ (0x080 ≤ p ∧ p ≤ 0x08F) := by omega
  have h2 : ¬ (p = 0x030 ∨ p = 0x040 ∨ p = 0x050 ∨ p = 0x060 ∨ p = 0x300 ∨ p = 0x3F0) := by omega
  have h3 : secureWrite p o = false := by
    unfold secureWrite
    rw [if_neg (by omega), if_neg (by omega), if_neg (by omega)]
  cases wd with
  | secure => rfl
  | normal => simp only [worldMay, if_neg h1, if_neg h2, h3, Bool.and_false, Bool.not_false]

/-- A page below the dies' is on the hub die and in no switched domain (R35, R37). -/
theorem hubPage_facts {addr : Nat} (h : addr / 0x10000 < 0x100) (s : State) :
    s.absentLd addr = false ∧ regDomain addr = none ∧ regDie addr = 8 := by
  have h1 : ¬ (0x100 ≤ addr / 0x10000 ∧ addr / 0x10000 < 0x200) := by omega
  have h2 : ¬ (0x200 ≤ addr / 0x10000 ∧ addr / 0x10000 < 0x280) := by omega
  refine ⟨decide_eq_false (by omega), ?_, ?_⟩
  · simp only [regDomain, if_neg h1, if_neg h2]
  · simp only [regDie, if_neg h1, if_neg h2]

/-- The pages whose registers are the secure world's alone (R36). -/
theorem secretPage_refused {p : Nat} (h : p ∈ [0x030, 0x040, 0x050, 0x060, 0x300, 0x3F0] ∨ (0x080 ≤ p ∧ p ≤ 0x08F))
    (o : Nat) : pageAllotted p = true ∧ worldMay .normal true p o = false := by
  have hp : pageAllotted p = true := by
    simp only [List.mem_cons, List.not_mem_nil, or_false] at h
    unfold pageAllotted
    exact decide_eq_true (by omega)
  refine ⟨hp, ?_⟩
  by_cases hc : 0x080 ≤ p ∧ p ≤ 0x08F
  · simp only [worldMay, if_pos hc, Bool.not_true]
  · have hs : p = 0x030 ∨ p = 0x040 ∨ p = 0x050 ∨ p = 0x060 ∨ p = 0x300 ∨ p = 0x3F0 := by
      simpa only [List.mem_cons, List.not_mem_nil, or_false] using h.resolve_right hc
    simp only [worldMay, if_neg hc, if_pos hs]

theorem State.access_refused {c : Byte} {ev : Bool} (h : s.accessCheck a w = some (c, ev)) :
    s.access a w k = (if ev then s.refusedEvent a.addr w false else s).done c := by
  unfold State.access
  rw [h]

/-- A permitted access outside the switched domains, over clean ports, is the access itself. -/
theorem State.access_go (hc : s.accessCheck a w = none) (ha : s.absentLd a.addr = false) (hd : regDomain a.addr = none)
    (hx : s.crossPorts (if w then route 8 (regDie a.addr) else route (regDie a.addr) 8) = (s, false)) :
    s.access a w k = k s := by
  simp only [State.access, hc, ha, hd, hx, Bool.false_eq_true, if_false, State.linkCeTo_self, State.ceReply,
    Nat.lt_irrefl, and_false]

/-- A permitted access of a register on the hub die is the access itself. -/
theorem State.access_hub (hc : s.accessCheck a w = none) (hp : a.addr / 0x10000 < 0x100) :
    s.access a w k = k s := by
  obtain ⟨ha, hd, hdie⟩ := hubPage_facts hp s
  refine State.access_go hc ha hd ?_
  rw [hdie, show route 8 8 = [] from rfl, ite_self]
  rfl

end Checks

/-! #### An access that has passed, by the kind of its register (R34, R37) -/

section Kinds
variable {s : State} {wd : World} {core a : Nat} {i : RegInfo}

theorem State.hubWrite_lo (hi : regInfo a = some i) (hl : isPairLo a = true) (v : Word) :
    s.hubWrite wd core a v = s.writeLo core a v := by
  simp only [State.hubWrite, hi, hl, if_true]

theorem State.hubWrite_hi (hi : regInfo a = some i) (hl : isPairLo a = false) (hh : isPairHi a = true) (v : Word) :
    s.hubWrite wd core a v = s.writeHi core a v := by
  simp only [State.hubWrite, hi, hl, hh, Bool.false_eq_true, if_false, if_true]

theorem State.hubWrite_one (hi : regInfo a = some i) (hl : isPairLo a = false) (hh : isPairHi a = false) (v : Word) :
    s.hubWrite wd core a v = (s.dropWbuf core).regWrite wd a v := by
  simp only [State.hubWrite, hi, hl, hh, Bool.false_eq_true, if_false]

theorem State.hubRead_hi_latched {v : Word} (hl : isPairLo a = false) (hh : isPairHi a = true) (he : a ≠ Reg.entDataHi)
    (h : s.latch.get (fun _ => none) core = some (a - 4, v)) :
    s.hubRead core a = { s with latch := s.latch.put (fun _ => none) core none }.val v.toNat := by
  simp only [State.hubRead, State.readHi, hl, hh, if_neg he, h, Bool.false_eq_true, if_false, if_true]

theorem State.hubRead_hi_live (hl : isPairLo a = false) (hh : isPairHi a = true) (he : a ≠ Reg.entDataHi)
    (h : s.latch.get (fun _ => none) core = none) : s.hubRead core a = s.val (s.view a).toNat := by
  simp only [State.hubRead, State.readHi, hl, hh, if_neg he, h, Bool.false_eq_true, if_false, if_true]

theorem State.writeHi_commits {w : Word} (h : s.wbuf.get (fun _ => none) core = some (a - 4, w)) (v : Word) :
    s.writeHi core a v = ((s.dropWbuf core).plainWrite (a - 4) w).wrote a v := by
  simp only [State.writeHi, h, if_true]

theorem State.writeHi_alone (h : s.wbuf.get (fun _ => none) core = none) (v : Word) :
    s.writeHi core a v = (s.dropWbuf core).wrote a v := by
  simp only [State.writeHi, h]

theorem State.plainWrite_eq (hi : regInfo a = some i) (v : Word) :
    s.plainWrite a v = s.setReg a (plainWord i (s.reg a) v) := by
  unfold State.plainWrite
  rw [hi]

/-- A plain write of a register that has RW bits alone takes those of the word. -/
theorem plainWord_rw (reset rw old v : Word) : plainWord (.rwm reset rw) old v = (old &&& ~~~rw) ||| (v &&& rw) := by
  simp only [plainWord, RegInfo.rwm, BitVec.ofNat_eq_ofNat, BitVec.zero_and, BitVec.not_zero, BitVec.and_allOnes]

theorem plainWord_allRw (reset old v : Word) : plainWord (.rwm reset 0xFFFFFFFF) old v = v := by
  have h1 : (0xFFFFFFFF : Word) = BitVec.allOnes 32 := rfl
  rw [plainWord_rw, h1, BitVec.and_allOnes, BitVec.not_allOnes, BitVec.and_zero, BitVec.zero_or]

/-- A register that shows its stored word. -/
theorem State.view_stored (hi : regInfo a = some i) (hw : i.wo = false) (hc : s.computed a = none) :
    s.view a = s.reg a := by
  simp only [State.view, hi, hw, hc, Bool.false_eq_true, if_false, Option.getD_none]

end Kinds

/-! #### The registers of the statement -/

theorem State.accessCheck_open {s : State} {a : Acc}
    (hp : a.addr / 0x10000 = 0 ∨ (0x010 ≤ a.addr / 0x10000 ∧ a.addr / 0x10000 ≤ 0x020)) (h4 : a.width = 4)
    (hm : a.addr % 4 = 0) {w : Bool} : s.accessCheck a w = none := by
  have hpage : pageAllotted (a.addr / 0x10000) = true := by
    unfold pageAllotted
    exact decide_eq_true (by omega)
  exact State.accessCheck_passed hpage (worldMay_open hp a.world w _) (by omega) h4 hm

section Commands
variable {s : State} {a : Acc}

/-- A plain write of a register on the hub die that both worlds may write and that starts nothing. -/
theorem exec_registerWrite_plain {i : RegInfo}
    (hp : a.addr / 0x10000 = 0 ∨ (0x010 ≤ a.addr / 0x10000 ∧ a.addr / 0x10000 ≤ 0x020)) (h4 : a.width = 4)
    (hm : a.addr % 4 = 0) (hi : regInfo a.addr = some i) (hl : isPairLo a.addr = false) (hh : isPairHi a.addr = false)
    (v : Word) (hw : (s.dropWbuf a.core.val).regWrite a.world a.addr v = (s.dropWbuf a.core.val).wrote a.addr v) :
    exec (.registerWrite a v) s = .next (((s.dropWbuf a.core.val).setReg a.addr (plainWord i (s.reg a.addr) v)).done
      Code.ok) := by
  have hgo : exec (.registerWrite a v) s = .next (s.hubWrite a.world a.core.val a.addr v) :=
    congrArg Host.Outcome.next (State.access_hub (State.accessCheck_open hp h4 hm) (by omega))
  rw [hgo, State.hubWrite_one hi hl hh, hw, State.wrote, State.plainWrite_eq hi]
  rfl

/-- A read of a register of those pages passes the checks in either world. -/
theorem State.accessRead_open (hp : a.addr / 0x10000 = 0 ∨ (0x010 ≤ a.addr / 0x10000 ∧ a.addr / 0x10000 ≤ 0x020))
    (h4 : a.width = 4) (hm : a.addr % 4 = 0) : s.accessRead a = s.hubRead a.core.val a.addr :=
  State.access_hub (State.accessCheck_open hp h4 hm) (by omega)

/-- A write of a register of Breakwater's page by the secure world passes the checks. -/
theorem State.accessWrite_breakwater (hp : a.addr / 0x10000 = 0x060) (h4 : a.width = 4) (hm : a.addr % 4 = 0)
    (hw : a.world = .secure) (v : Word) : s.accessWrite a v = s.hubWrite a.world a.core.val a.addr v := by
  have hc : s.accessCheck a true = none :=
    State.accessCheck_passed (by rw [hp]; rfl) (by rw [hw]; rfl) (by omega) h4 hm
  exact State.access_hub hc (by omega)

theorem exec_registerWrite_refused {c : Byte} {ev : Bool} (h : s.accessCheck a true = some (c, ev)) (v : Word) :
    exec (.registerWrite a v) s = .next ((if ev then s.refusedEvent a.addr true false else s).done c) :=
  congrArg Host.Outcome.next (State.access_refused h)

theorem exec_registerWrite_secret (hw : a.world = .normal)
    (hp : a.addr / 0x10000 ∈ [0x030, 0x040, 0x050, 0x060, 0x300, 0x3F0] ∨
      (0x080 ≤ a.addr / 0x10000 ∧ a.addr / 0x10000 ≤ 0x08F)) (v : Word) :
    exec (.registerWrite a v) s = .next ((s.refusedEvent a.addr true false).done Code.accessBounds) := by
  obtain ⟨hpage, hmay⟩ := secretPage_refused hp (a.addr % 0x10000 / 4 * 4)
  exact exec_registerWrite_refused (State.accessCheck_secret hpage (by rw [hw]; exact hmay)) v

end Commands

/-! #### The registers of the statement -/

theorem State.wrote_bwGrStartHi (s : State) (v : Word) : s.wrote Reg.bwGrStartHi v =
    (s.setReg Reg.bwGrStartHi ((s.reg Reg.bwGrStartHi &&& ~~~0xFFFF) ||| (v &&& 0xFFFF))).done Code.ok := by
  rw [State.wrote, State.plainWrite_eq (i := .rwm 0 0xFFFF) rfl, plainWord_rw]

theorem State.plainWrite_bwGrStartLo (s : State) (v : Word) :
    s.plainWrite Reg.bwGrStartLo v = s.setReg Reg.bwGrStartLo v := by
  rw [State.plainWrite_eq (i := .rwm 0 0xFFFFFFFF) rfl, plainWord_allRw]

theorem regInfo_pdRefuseCnt (n : Fin 64) : regInfo (Reg.pdRefuseCnt n.val) = some .cnt := by
  revert n
  decide

theorem page_pdRefuseCnt (n : Fin 64) : Reg.pdRefuseCnt n.val / 0x10000 = 0x013 := by
  unfold Reg.pdRefuseCnt regAddr
  omega

/-- PD_REFUSE_CNT is no half of a pair and shows its stored count. -/
theorem State.hubRead_pdRefuseCnt (s : State) (core : Nat) (n : Fin 64) :
    s.hubRead core (Reg.pdRefuseCnt n.val) =
      (s.setReg (Reg.pdRefuseCnt n.val) 0).val (s.reg (Reg.pdRefuseCnt n.val)).toNat := by
  have hl : isPairLo (Reg.pdRefuseCnt n.val) = false := by
    simp only [isPairLo, page_pdRefuseCnt n]
    rfl
  have hh : isPairHi (Reg.pdRefuseCnt n.val) = false := by revert n; decide
  have hc : s.computed (Reg.pdRefuseCnt n.val) = none := by
    simp only [State.computed, page_pdRefuseCnt n]
    rfl
  have hr : s.reg (Reg.pdRefuseCnt n.val) &&& ~~~RegInfo.cnt.rc = 0 := BitVec.and_zero
  simp only [State.hubRead, State.readOne, hl, hh, Bool.false_eq_true, if_false, regInfo_pdRefuseCnt n, hr,
    State.view_stored (regInfo_pdRefuseCnt n) rfl hc]

end Sys2Proof.Machine

open Sys2Proof Sys2Proof.Machine

/-- Settles O14: each access by the kind of its register, each refusal by the first check of R541 that fails. -/
theorem registerAccesses : Obligations.RegisterAccesses := by
  unfold Obligations.RegisterAccesses
  refine ⟨?cap, ?mask, ?loRead, ?hiLatched, ?hiLive, ?loWrite, ?hiCommit, ?hiAlone, ?readClear, ?page, ?secretPage,
    ?ctxPage, ?debug, ?width⟩
  case cap =>
    intro s a v ha h4
    rw [exec_registerWrite_plain (i := .rwm 0x08FC07D0 0xFFFFFFFF) (by rw [ha]; decide) h4 (by rw [ha]; rfl)
      (by rw [ha]; rfl) (by rw [ha]; rfl) (by rw [ha]; rfl) v (by rw [ha]; rfl), ha, plainWord_allRw]
  case mask =>
    intro s a v ha h4
    rw [exec_registerWrite_plain (i := .rwm 0x7D 0x7F) (by rw [ha]; decide) h4 (by rw [ha]; rfl)
      (by rw [ha]; rfl) (by rw [ha]; rfl) (by rw [ha]; rfl) v (by rw [ha]; rfl), ha, plainWord_rw]
  case loRead =>
    intro s a ha h4
    refine congrArg Host.Outcome.next ((State.accessRead_open (by rw [ha]; decide) h4 (by rw [ha]; rfl)).trans ?_)
    rw [ha]
    rfl
  case hiLatched =>
    intro s a v ha h4 hv
    refine congrArg Host.Outcome.next ((State.accessRead_open (by rw [ha]; decide) h4 (by rw [ha]; rfl)).trans ?_)
    rw [ha]
    exact State.hubRead_hi_latched (by decide) (by decide) (by decide) hv
  case hiLive =>
    intro s a ha h4 hv
    refine congrArg Host.Outcome.next ((State.accessRead_open (by rw [ha]; decide) h4 (by rw [ha]; rfl)).trans ?_)
    rw [ha]
    exact State.hubRead_hi_live (by decide) (by decide) (by decide) hv
  case loWrite =>
    intro s a v ha h4 hw
    refine congrArg Host.Outcome.next ((State.accessWrite_breakwater (by rw [ha]; rfl) h4 (by rw [ha]; rfl) hw v).trans ?_)
    rw [ha]
    rfl
  case hiCommit =>
    intro s a v w ha h4 hw hb
    refine congrArg Host.Outcome.next ((State.accessWrite_breakwater (by rw [ha]; rfl) h4 (by rw [ha]; rfl) hw v).trans ?_)
    rw [ha, State.hubWrite_hi (i := .rwm 0 0xFFFF) rfl rfl rfl, State.writeHi_commits hb]
    show State.wrote (State.plainWrite _ Reg.bwGrStartLo w) _ _ = _
    rw [State.plainWrite_bwGrStartLo, State.wrote_bwGrStartHi, State.reg_setReg_ne _ _ _ _ (by decide)]
    rfl
  case hiAlone =>
    intro s a v ha h4 hw hb
    refine congrArg Host.Outcome.next ((State.accessWrite_breakwater (by rw [ha]; rfl) h4 (by rw [ha]; rfl) hw v).trans ?_)
    rw [ha, State.hubWrite_hi (i := .rwm 0 0xFFFF) rfl rfl rfl, State.writeHi_alone hb]
    exact State.wrote_bwGrStartHi (s.dropWbuf a.core.val) v
  case readClear =>
    intro s a n ha h4
    have hp := page_pdRefuseCnt n
    have hm : Reg.pdRefuseCnt n.val % 4 = 0 := by unfold Reg.pdRefuseCnt regAddr; omega
    rw [← ha] at hp hm
    refine congrArg Host.Outcome.next ((State.accessRead_open (by omega) h4 hm).trans ?_)
    rw [ha]
    exact State.hubRead_pdRefuseCnt s _ n
  case page =>
    intro s a v hp
    rw [exec_registerWrite_refused (State.accessCheck_notAllotted hp)]
    rfl
  case secretPage =>
    intro s a v hw hp
    exact exec_registerWrite_secret hw (Or.inl hp) v
  case ctxPage =>
    intro s a v hw h1 h2
    exact exec_registerWrite_secret hw (Or.inr ⟨h1, h2⟩) v
  case debug =>
    intro s a v hw hp h0 h3
    exact exec_registerWrite_refused (State.accessCheck_debug hw hp ⟨h0, h3⟩) v
  case width =>
    intro s a v hw hp h4
    exact exec_registerWrite_refused (State.accessCheck_width (worldMay_open (Or.inr (by omega)) a.world true _)
      (by rw [hp]; rfl) (by omega) h4) v

end

/-! ### Bank owners, handovers and clear passes (R33, R42–R46, R87)

The address of a BANK_OWNER register, a write that reaches its bank, and what the end of a clear pass leaves. -/

section
namespace Sys2Proof.Machine

/-! #### The BANK_OWNER registers -/

section Owner
variable {s : State} {a : Acc} {d : Fin 4} {b : Fin 24}

/-- BANK_OWNER of bank b lies on the second page of compute die d, at 4b. -/
theorem bankOwner_place (d : Fin 4) (b : Fin 24) : Reg.bankOwner d.val b.val / 0x10000 = 0x101 + 0x40 * d.val ∧
    Reg.bankOwner d.val b.val % 0x10000 = 4 * b.val ∧ Reg.bankOwner d.val b.val % 4 = 0 := by
  unfold Reg.bankOwner Reg.cdPage regAddr
  omega

theorem bankOfAddr_bankOwner (d : Fin 4) (b : Fin 24) : bankOfAddr (Reg.bankOwner d.val b.val) = some (d.val, b.val) := by
  obtain ⟨hp, ho, -⟩ := bankOwner_place d b
  have hin : 0x100 ≤ 0x101 + 0x40 * d.val ∧ 0x101 + 0x40 * d.val < 0x200 ∧ (0x101 + 0x40 * d.val - 0x100) % 0x40 = 1 ∧
      4 * b.val < 0x60 ∧ 4 * b.val % 4 = 0 := by omega
  have hd : (0x101 + 0x40 * d.val - 0x100) / 0x40 = d.val := by omega
  have hb : 4 * b.val / 4 = b.val := by omega
  unfold bankOfAddr
  simp only [hp, ho, if_pos hin, hd, hb]

theorem bankOwner_page_facts (hp : a.addr / 0x10000 = 0x101 + 0x40 * d.val) (s : State) :
    pageAllotted (a.addr / 0x10000) = true ∧ s.absentLd a.addr = false ∧ regDomain a.addr = none := by
  have hq : (0x101 + 0x40 * d.val - 0x100) % 0x40 = 1 := by omega
  refine ⟨decide_eq_true (by omega), decide_eq_false (by omega), ?_⟩
  simp only [regDomain, hp, hq]
  rw [if_pos (by omega)]
  rfl

/-- A secure write of BANK_OWNER over clean links reaches the bank. -/
theorem State.writeAccess_bankOwner (ha : a.addr = Reg.bankOwner d.val b.val) (h4 : a.width = 4)
    (hw : a.world = .secure) (hl : s.linksClean = true) (k : State → State) :
    s.writeAccess a k = k (s.dropWbuf a.core.val) := by
  obtain ⟨hp, -, hm⟩ := bankOwner_place d b
  rw [← ha] at hp hm
  obtain ⟨hpage, hld, hdom⟩ := bankOwner_page_facts hp s
  have hc : s.accessCheck a true = none := State.accessCheck_passed hpage (by rw [hw]; rfl) (by omega) h4 hm
  exact State.access_go hc hld hdom (s.crossPorts_clean hl _)

theorem exec_bankOwnerWrite (ha : a.addr = Reg.bankOwner d.val b.val) (h4 : a.width = 4) (hw : a.world = .secure)
    (hl : s.linksClean = true) (v : Word) :
    exec (.bankOwnerWrite a v) s = .next ((s.dropWbuf a.core.val).bankOwnerWrite d.val b.val v) := by
  refine congrArg Host.Outcome.next ((State.writeAccess_bankOwner ha h4 hw hl _).trans ?_)
  rw [ha, bankOfAddr_bankOwner d b]

theorem exec_bankFreeClear (ha : a.addr = Reg.bankOwner d.val b.val) (h4 : a.width = 4) (hw : a.world = .secure)
    (hl : s.linksClean = true) :
    exec (.bankFreeClear a) s = .next ((s.dropWbuf a.core.val).bankOwnerWrite d.val b.val 0x0100F000) := by
  refine congrArg Host.Outcome.next ((State.writeAccess_bankOwner ha h4 hw hl _).trans ?_)
  rw [ha, bankOfAddr_bankOwner d b]

end Owner

section Write
variable {s : State} {d b : Nat} {v : Word}

theorem State.bankOwnerWrite_ignored (h : s.ownerIgnored d b v = true) :
    s.bankOwnerWrite d b v = (s.wrIgnored d b).done Code.ok := if_pos h

/-- An accepted word starts the handover, unless the wake of the half-array has failed (R44, R445). -/
theorem State.bankOwnerWrite_taken (h : s.ownerIgnored d b v = false) (h6 : s.pdState (pdBank d b) ≠ 6) :
    s.bankOwnerWrite d b v = (s.startHandover d b (v &&& 0x0000F70F) (s.ownerClears d b v)).done Code.ok := by
  simp only [State.bankOwnerWrite, h, Bool.false_eq_true, if_false, if_neg h6]

theorem State.ownerIgnored_running (h : s.bst d b = 2 ∨ s.bst d b = 3) (v : Word) : s.ownerIgnored d b v = true :=
  decide_eq_true (h.elim Or.inl (Or.inr ∘ Or.inl))

/-- Outside a handover a word that asks for no accumulator is taken where no region pins the bank (R42, R46, R352). -/
theorem State.ownerIgnored_free (h2 : s.bst d b ≠ 2) (h3 : s.bst d b ≠ 3) (hv : bits v 10 10 = 0)
    (hp : s.bankPinned d b = false) : s.ownerIgnored d b v = false := by
  simp [State.ownerIgnored, h2, h3, hv, hp]

/-- Freeing a bank with CLR = 1 always clears it. -/
theorem State.ownerClears_free : s.ownerClears d b 0x0100F000 = true :=
  decide_eq_true (Or.inr (Or.inl (by decide)))

end Write

/-! #### A requester that the owner word does not name -/

section Grant
variable {s : State} {r : Requester} {d b o a : Nat} {fold : Bool}

theorem State.bankGate_refused (h2 : s.bst d b ≠ 2) (h3 : s.bst d b ≠ 3) (hn : s.bankAllows r d b fold = false) :
    s.bankGate r d b fold = some (.fail s Code.accessBounds) := by
  simp only [State.bankGate, h2, h3, hn, or_self, if_false, Bool.false_eq_true, not_false_eq_true, if_true]

theorem State.readHere_refused (hp : place s.part a = .bank d b o)
    (hg : s.bankGate r d b fold = some (.fail s Code.accessBounds)) :
    s.readHere r a fold = .fail s Code.accessBounds := by
  simp only [State.readHere, hp, hg, Option.getD_some, ite_self]

theorem State.writeHere_refused (hp : place s.part a = .bank d b o)
    (hg : s.bankGate r d b fold = some (.fail s Code.accessBounds)) (data : Bytes) :
    s.writeHere r a data fold = .fail s Code.accessBounds := by
  simp only [State.writeHere, hp, hg, Option.getD_some, ite_self]

end Grant

/-! #### The end of a handover -/

section End
variable {s : State} {d : Fin 4} {b : Fin 24} {w : Word} {c : Bool}

theorem exec_bankHandoverDrainDone (ht : (s.bank d.val b.val).target = some (w, c)) (h2 : s.bst d.val b.val = 2)
    (hp : s.pdOn (pdBank d.val b.val) = true) : exec (.bankHandoverDrainDone d b) s = .next (if c
      then (s.setFld (Reg.bankOwner d.val b.val) 31 30 3).done Code.ok
      else (s.installOwner d.val b.val w).done Code.ok) := by
  show execBankHandoverDrainDone d b s = _
  unfold execBankHandoverDrainDone
  simp only [ht, h2, hp, and_self, if_true]
  cases c <;> rfl

theorem exec_bankClearDone (ht : (s.bank d.val b.val).target = some (w, c)) (h3 : s.bst d.val b.val = 3)
    (hp : s.pdOn (pdBank d.val b.val) = true) : exec (.bankClearDone d b) s =
      .next (((s.clearBank d.val b.val).installOwner d.val b.val w).done Code.ok) := by
  show execBankClearDone d b s = _
  unfold execBankClearDone
  simp only [ht, h3, hp, and_self, if_true]

end End

theorem State.bank_congr {s t : State} (h : t.banks = s.banks) (d b : Nat) : t.bank d b = s.bank d b := by
  unfold State.bank
  rw [h]

@[simp] theorem State.bank_setReg (s : State) (d b a : Nat) (v : Word) : (s.setReg a v).bank d b = s.bank d b :=
  State.bank_congr (State.setReg_banks s a v) d b
@[simp] theorem State.bank_setFld (s : State) (d b a hi lo x : Nat) : (s.setFld a hi lo x).bank d b = s.bank d b :=
  State.bank_setReg s d b a _
@[simp] theorem State.bank_done (s : State) (c : Byte) (d b : Nat) : (s.done c).bank d b = s.bank d b :=
  State.bank_congr (State.done_banks s c) d b

theorem State.byte_congr {s t : State} (h : t.mem = s.mem) (m : Nat) : t.byte m = s.byte m := by
  unfold State.byte
  rw [h]

theorem State.mark_congr {s t : State} (h : t.ecc = s.ecc) (w : Nat) : t.mark w = s.mark w := by
  unfold State.mark
  rw [h]

section Clear
variable {s : State} {d b : Nat} {w : Word}

theorem bankStat_ne_bankOwner (d b : Nat) : Reg.bankStat d b ≠ Reg.bankOwner d b := by
  unfold Reg.bankStat Reg.bankOwner regAddr
  omega

/-- The bank with no handover running. -/
def State.endHandover (s : State) (d b : Nat) : State :=
  s.setBank d b { s.bank d b with target := none, waking := false, freed := false }

/-- The handover ends with the owner word installed, and LAST_CTX names a valid owner (R43, R44). -/
theorem State.installOwner_eq (h : (s.bank d b).freed = false) : s.installOwner d b w =
    if bits w 8 8 = 1 then ((s.endHandover d b).setReg (Reg.bankOwner d b) (setBits w 31 30 (bits w 8 8))).setFld
        (Reg.bankStat d b) 27 24 (bits w 3 0)
      else (s.endHandover d b).setReg (Reg.bankOwner d b) (setBits w 31 30 (bits w 8 8)) := by
  simp only [State.installOwner, h, Bool.false_eq_true, if_false]
  rfl

/-- Installing an owner changes registers and the bank's handover alone. -/
theorem State.installOwner_shape (h : (s.bank d b).freed = false) :
    ∃ r, s.installOwner d b w = { s.endHandover d b with regs := r } := by
  rw [State.installOwner_eq h]
  split <;> exact ⟨_, rfl⟩

/-- So no memory, key or context changes, and the handover has ended. -/
theorem State.installOwner_frame (h : (s.bank d b).freed = false) : (s.installOwner d b w).mem = s.mem ∧
    (s.installOwner d b w).ecc = s.ecc ∧ (s.installOwner d b w).keys = s.keys ∧ (s.installOwner d b w).ctxs = s.ctxs ∧
    (s.installOwner d b w).hubMem = s.hubMem ∧ ((s.installOwner d b w).bank d b).target = none := by
  obtain ⟨r, hr⟩ := State.installOwner_shape (w := w) h
  have ht : ((s.endHandover d b).bank d b).target = none := by
    rw [State.endHandover, State.bank_setBank_same]
  rw [hr]
  exact ⟨rfl, rfl, rfl, rfl, rfl, ht⟩

theorem State.installOwner_regs (h : (s.bank d b).freed = false) :
    (s.installOwner d b w).reg (Reg.bankOwner d b) = setBits w 31 30 (bits w 8 8) ∧
    (s.installOwner d b w).fld (Reg.bankStat d b) 29 29 = s.fld (Reg.bankStat d b) 29 29 := by
  have hne := bankStat_ne_bankOwner d b
  rw [State.installOwner_eq h]
  split
  · rw [State.reg_setFld_ne _ _ _ _ _ _ hne.symm, State.fld_setFld_apart _ _ _ _ _ _ _ (by decide) (by decide) (by decide)
      (by decide) (by decide), State.fld_setReg_ne _ _ _ _ _ _ hne, State.reg_setReg_same]
    exact ⟨rfl, rfl⟩
  · rw [State.fld_setReg_ne _ _ _ _ _ _ hne, State.reg_setReg_same]
    exact ⟨rfl, rfl⟩

/-- A clear pass zeroes the bank's bytes and no other (R44). -/
theorem State.byte_clearBank (s : State) (d b m : Nat) : (s.clearBank d b).byte m =
    if bankAddr d b 0 ≤ m ∧ m < bankAddr d b 0x4000000 then 0 else s.byte m := by
  have he : bankAddr d b 0x4000000 = bankAddr d b 0 + 0x4000000 := by unfold bankAddr; omega
  have hmem : (s.clearBank d b).mem = (s.zeroMem (bankAddr d b 0) 0x4000000).mem := by
    unfold State.clearBank
    rw [State.setFld_mem]
  rw [he, State.byte_congr hmem, State.byte_zeroMem]

/-- It leaves every word of the bank with good check bits. -/
theorem State.mark_clearBank (s : State) {o : Nat} (ho : o < 0x4000000) :
    (s.clearBank d b).mark (bankAddr d b o / 16) = .good := by
  have hin : bankAddr d b 0 / 16 ≤ bankAddr d b o / 16 ∧ bankAddr d b o / 16 < bankAddr d b 0 / 16 + 0x400000 := by
    unfold bankAddr
    omega
  have h := Table.get_clear (fun _ => EccMark.good)
    (fun w => decide (bankAddr d b 0 / 16 ≤ w ∧ w < bankAddr d b 0 / 16 + 0x400000)) s.ecc (bankAddr d b o / 16)
  rw [decide_eq_true hin, if_pos rfl] at h
  unfold State.mark State.clearBank
  rw [State.setFld_ecc]
  exact h

/-- It leaves the bank's handover, every key, every context and hub SRAM alone, and sets CLEAN. -/
theorem State.clearBank_frame (s : State) (d b : Nat) : (s.clearBank d b).bank d b = s.bank d b ∧
    (s.clearBank d b).keys = s.keys ∧ (s.clearBank d b).ctxs = s.ctxs ∧ (s.clearBank d b).hubMem = s.hubMem ∧
    (s.clearBank d b).fld (Reg.bankStat d b) 29 29 = 1 := by
  unfold State.clearBank
  refine ⟨State.bank_congr ?_ d b, ?_, ?_, ?_, State.fld_setFld_same _ _ _ _ _ (by decide) (by decide)⟩
  · rw [State.setFld_banks, State.zeroMem_banks]
  · rw [State.setFld_keys, State.zeroMem_keys]
  · rw [State.setFld_ctxs, State.zeroMem_ctxs]
  · rw [State.setFld_hubMem, State.zeroMem_hubMem]

end Clear

end Sys2Proof.Machine

open Sys2Proof Sys2Proof.Machine

/-- Settles O7: a handover that runs ignores every word; elsewhere nothing ignores this one. -/
theorem ownerWriteIgnored : Obligations.OwnerWriteIgnored := by
  unfold Obligations.OwnerWriteIgnored
  constructor
  · intro s a v d b ha h4 hw hl hst
    rw [exec_bankOwnerWrite ha h4 hw hl, State.bankOwnerWrite_ignored (s := s.dropWbuf a.core.val) (State.ownerIgnored_running hst v)]
    rfl
  · intro s a v d b ha h4 hw hl h2 h3 hv hp h6
    rw [exec_bankOwnerWrite ha h4 hw hl, State.bankOwnerWrite_taken (s := s.dropWbuf a.core.val)
      (State.ownerIgnored_free h2 h3 hv hp) h6]
    rfl

/-- Settles O15: writes by whether the word is ignored, ends of a handover by whether it clears, refusals at the grant. -/
theorem bankOwners : Obligations.BankOwners := by
  unfold Obligations.BankOwners
  refine ⟨?ignored, ?taken, ?freed, fun s d b w ht h2 hp => exec_bankHandoverDrainDone ht h2 hp,
    fun s d b w ht h2 hp => exec_bankHandoverDrainDone ht h2 hp, fun s d b w c ht h3 hp => exec_bankClearDone ht h3 hp,
    ?refused⟩
  case ignored =>
    intro s a v d b ha h4 hw hl hi
    rw [exec_bankOwnerWrite ha h4 hw hl, State.bankOwnerWrite_ignored (s := s.dropWbuf a.core.val) hi]
    rfl
  case taken =>
    intro s a v d b ha h4 hw hl hi h6
    rw [exec_bankOwnerWrite ha h4 hw hl, State.bankOwnerWrite_taken (s := s.dropWbuf a.core.val) hi h6]
    rfl
  case freed =>
    intro s a d b ha h4 hw hl hi h6
    rw [exec_bankFreeClear ha h4 hw hl, State.bankOwnerWrite_taken (s := s.dropWbuf a.core.val) hi h6,
      State.ownerClears_free]
    rfl
  case refused =>
    intro s r d b o data fold a hp h2 h3 hn
    have hg := State.bankGate_refused h2 h3 hn
    refine ⟨?_, fun hl => (s.writeLine_clean r a data fold hl).trans (State.writeHere_refused hp hg data)⟩
    have hread := State.readHere_refused hp hg
    rw [State.readLine_failed s r a fold (by rw [hread]; exact Or.inr (show Code.accessBounds ≠ Code.ok by decide)), hread]

/-- Settles O16: the pass by `byte_clearBank` and `mark_clearBank`, the rest by the frame of `installOwner`. -/
theorem bankClearZeroes : Obligations.BankClearZeroes := by
  unfold Obligations.BankClearZeroes
  intro s d b w ht h3 hp hf
  obtain ⟨hbank, hckeys, hcctxs, hchub, hcclean⟩ := s.clearBank_frame d.val b.val
  have hf' : ((s.clearBank d.val b.val).bank d.val b.val).freed = false := by rw [hbank, hf]
  obtain ⟨hmem, hecc, hkeys, hctxs, hhub, htgt⟩ := State.installOwner_frame (w := w) hf'
  obtain ⟨hown, hclean⟩ := State.installOwner_regs (w := w) hf'
  refine ⟨_, exec_bankClearDone ht h3 hp, ?_⟩
  simp only [State.byte_done, State.mark_done, State.fld_done, State.reg_done, State.done_keys, State.done_ctxs,
    State.done_hubMem, State.bank_done, State.byte_congr hmem, State.mark_congr hecc, State.byte_clearBank]
  exact ⟨fun o ho => if_pos (by unfold bankAddr; omega), fun m hm => if_neg (by omega),
    fun o ho => State.mark_clearBank s ho, hclean.trans hcclean, hown, htgt, hkeys.trans hckeys, hctxs.trans hcctxs,
    hhub.trans hchub⟩

end

/-! ### Hub, DMA and ALIAS accesses (R41, R43, R45, R47, R48, R55, R56, R471, R542)

What a write and an ALIAS operation store in a line without an uncorrectable word, then the commands over them. -/

section
namespace Sys2Proof.Machine

/-! #### What is stored -/

theorem State.byte_of_store {s t : State} {a : Nat} {data : Bytes} (h : t.mem = (s.store a data).mem) :
    (∀ i, i < data.length → t.byte (a + i) = data.getD i 0) ∧
    (∀ m, (m < a ∨ a + data.length ≤ m) → t.byte m = s.byte m) := by
  refine ⟨fun i hi => ?_, fun m hm => ?_⟩
  · rw [State.byte_congr h, State.byte_store, if_pos (by omega), Nat.add_sub_cancel_left]
  · rw [State.byte_congr h, State.byte_store_outside _ _ _ _ hm]

theorem State.anyUe_filter {s : State} {ws : List Nat} (h : s.anyUe ws = false) (p : Nat → Bool) :
    s.anyUe (ws.filter p) = false := by
  unfold State.anyUe at h ⊢
  rw [List.any_eq_false] at h ⊢
  exact fun w hw => h w (List.mem_of_mem_filter hw)

/-- The words of a line that a write touches, and those of them it enables in part (R56). -/
def touchedWords (a n : Nat) : List Nat := (lineWords a).filter (fun w => w * 16 < a + n ∧ a < w * 16 + 16)
def partWords (a n : Nat) : List Nat := (touchedWords a n).filter (fun w => w * 16 < a ∨ a + n < w * 16 + 16)

section Line
variable {s : State} {a : Nat} {data : Bytes}

/-- A write of a line without an uncorrectable word merges and stores (R56). -/
theorem State.eccWrite_merged (h : s.anyUe (lineWords a) = false) : s.eccWrite a data =
    { Line.ok (((touchedWords a data.length).foldl (fun t w => t.setMark w .good)
        (s.countCe a (s.corrected (partWords a data.length)))).store a data) [] with
      ce := s.corrected (partWords a data.length) } := by
  have hp : s.anyUe (partWords a data.length) = false := State.anyUe_filter (State.anyUe_filter h _) _
  have hp' := hp
  unfold partWords touchedWords at hp'
  unfold State.eccWrite
  simp only [hp', Bool.false_eq_true, if_false]
  rfl

/-- It stores its bytes and no other. -/
theorem State.eccWrite_mem (h : s.anyUe (lineWords a) = false) : (s.eccWrite a data).st.mem = (s.store a data).mem := by
  obtain ⟨e, he⟩ := State.setMarks_eq (touchedWords a data.length) .good
    (s.countCe a (s.corrected (partWords a data.length)))
  rw [State.eccWrite_merged h, he]
  show Table.putList blank (s.countCe a _).mem a data = _
  rw [(State.countCe_frame s a _).1, State.store_mem]

/-- A read of a line without an uncorrectable word delivers it, its corrected words counted (R56). -/
theorem State.eccRead_corrected (h : s.anyUe (lineWords a) = false) : s.eccRead a =
    { Line.ok (s.countCe a (s.corrected (lineWords a))) (s.bytes (a / 64 * 64) 64) with
      ce := s.corrected (lineWords a) } := by
  simp only [State.eccRead, h, Bool.false_eq_true, if_false]

/-- A read of a line whose words are all good delivers it and changes nothing. -/
theorem State.eccRead_good (h : ∀ w, w ∈ lineWords a → s.mark w = .good) :
    s.eccRead a = .ok s (s.bytes (a / 64 * 64) 64) := by
  obtain ⟨hu, hc⟩ := State.good_words h
  rw [State.eccRead_corrected hu, hc]
  rfl

end Line

section Alias
variable {s : State} {d b o : Nat} {set : Bool} {data : Bytes}

/-- One byte of an ALIAS operation: memory | D or memory & ~D (R47). -/
def aliasByte (set : Bool) (x y : Byte) : Byte := if set then x ||| y else x &&& ~~~y

/-- The bytes that an ALIAS operation leaves where it works (R47). -/
def State.aliasBytes (s : State) (a : Nat) (set : Bool) (data : Bytes) : Bytes :=
  List.zipWith (aliasByte set) (s.bytes a data.length) data

theorem State.length_aliasBytes (s : State) (a : Nat) (set : Bool) (data : Bytes) :
    (s.aliasBytes a set data).length = data.length := by
  rw [State.aliasBytes, List.length_zipWith, State.length_bytes, Nat.min_self]

theorem Table.getD_getList {α : Type} (f : Nat → α) (t : Table α) (k n i : Nat) (h : i < n) (x : α) :
    (Table.getList f t k n).getD i x = Table.get f t (k + i) := by
  induction n generalizing k i with
  | zero => omega
  | succ n ih =>
    cases i with
    | zero => rfl
    | succ i =>
      have h1 : k + (i + 1) = k + 1 + i := by omega
      rw [h1]
      exact ih (k + 1) i (by omega)

theorem State.getD_aliasBytes (s : State) (a : Nat) (set : Bool) (data : Bytes) {i : Nat} (h : i < data.length) :
    (s.aliasBytes a set data).getD i 0 = aliasByte set (s.byte (a + i)) (data.getD i 0) := by
  have hl : i < (s.bytes a data.length).length := by rwa [State.length_bytes]
  have hz : i < (s.aliasBytes a set data).length := by rwa [State.length_aliasBytes]
  have hg : (s.bytes a data.length).getD i 0 = s.byte (a + i) := Table.getD_getList blank s.mem a data.length i h 0
  rw [← hg, List.getD_eq_getElem _ _ hz, List.getD_eq_getElem _ _ hl, List.getD_eq_getElem _ _ h]
  exact List.getElem_zipWith

/-- An ALIAS operation on a line without an uncorrectable word stores them, and the bank is no longer CLEAN (R43, R48). -/
theorem State.aliasOp_merged (h : s.anyUe (lineWords (bankAddr d b o)) = false) : s.aliasOp d b o set data =
    { Line.ok ((((lineWords (bankAddr d b o)).foldl (fun t w => t.setMark w .good)
        (s.countCe (bankAddr d b o) (s.corrected (lineWords (bankAddr d b o))))).store (bankAddr d b o)
          (s.aliasBytes (bankAddr d b o) set data)).soil d b) (s.bytes (bankAddr d b o / 64 * 64) 64) with
      ce := s.corrected (lineWords (bankAddr d b o)) } := by
  unfold State.aliasOp
  simp only [State.eccRead_corrected h]
  rfl

theorem State.aliasOp_mem (h : s.anyUe (lineWords (bankAddr d b o)) = false) :
    (s.aliasOp d b o set data).st.mem = (s.store (bankAddr d b o) (s.aliasBytes (bankAddr d b o) set data)).mem := by
  obtain ⟨e, he⟩ := State.setMarks_eq (lineWords (bankAddr d b o)) .good
    (s.countCe (bankAddr d b o) (s.corrected (lineWords (bankAddr d b o))))
  rw [State.aliasOp_merged h, he]
  show (State.soil _ d b).mem = _
  unfold State.soil
  rw [State.setFld_mem]
  show Table.putList blank (s.countCe _ _).mem _ _ = _
  rw [(State.countCe_frame s _ _).1, State.store_mem]

theorem State.aliasOp_soiled (h : s.anyUe (lineWords (bankAddr d b o)) = false) :
    (s.aliasOp d b o set data).st.fld (Reg.bankStat d b) 29 29 = 0 := by
  rw [State.aliasOp_merged h]
  exact State.fld_setFld_same _ _ _ _ _ (by decide) (by decide)

end Alias

/-! #### Answers -/

section Answer
variable {x : Line} (hs : x.stall = false) (hc : x.code = Code.ok)
include hs hc

/-- What an access that neither waits nor fails answers, with n words corrected on its way (R8). -/
theorem Line.answer_withCe (n : Nat) : (x.withCe n).answer =
    { (if x.data = [] then x.st else x.st.emit (.words (x.data.map (fun b => b.toNat)))) with
      reply := ⟨if 0 < n then Code.eccCorrected else Code.ok, BitVec.ofNat 64 (fromLE (x.data.take 8))⟩ } := by
  by_cases hn : 0 < n
  · simp only [Line.withCe, Line.answer, hc, hn, hs, and_self, if_true, Bool.false_eq_true, if_false]
  · simp only [Line.withCe, Line.answer, hc, hn, hs, and_false, Bool.false_eq_true, if_false]

theorem Line.answer_nothing (hd : x.data = []) (n : Nat) :
    (x.withCe n).answer = x.st.done (if 0 < n then Code.eccCorrected else Code.ok) := by
  rw [Line.answer_withCe hs hc, if_pos hd, hd]
  rfl

theorem Line.answer_data (hd : x.data ≠ []) (n : Nat) : (x.withCe n).answer =
    { x.st.emit (.words (x.data.map (fun b => b.toNat))) with
      reply := ⟨if 0 < n then Code.eccCorrected else Code.ok, BitVec.ofNat 64 (fromLE (x.data.take 8))⟩ } := by
  rw [Line.answer_withCe hs hc, if_neg hd]

end Answer

/-! #### Hub SRAM (R399, R471) -/

section Sram
variable {s : State} {o : Nat}

theorem exec_hubMemoryAccess_sram (s : State) (w : World) (key : Fin 19) (o : Nat) (op : MemOp) :
    exec (.hubMemoryAccess w key (2 ^ 48 + o) op none) s = .next (s.hubSram w o op) := by
  have h : exec (.hubMemoryAccess w key (2 ^ 48 + o) op none) s = .next (s.hubSram w (2 ^ 48 + o - 2 ^ 48) op) :=
    if_pos (Nat.le_add_right _ _)
  rwa [Nat.add_sub_cancel_left] at h

theorem State.pdState_of_on {n : Nat} (h : s.pdOn n = true) : s.pdState n ≠ 6 := by
  have h0 : s.pdState n = 0 := of_decide_eq_true h
  omega

theorem State.hubSram_read {n : Nat} (hn : o + n ≤ 0x4000000) (hp : s.pdOn 56 = true) :
    s.hubSram .secure o (.read n) = (Line.ok s (s.hubBytes o n)).answer := by
  have hw : ¬ (World.secure = World.normal ∧ hubSecureOff o = true) := fun h => World.noConfusion h.1
  simp only [State.hubSram, if_neg (Nat.not_lt.mpr hn), if_neg hw, if_neg (State.pdState_of_on hp), hp,
    not_true_eq_false, if_false]
  rfl

theorem State.hubSram_write {data : Bytes} (hn : o + data.length ≤ 0x4000000) (hp : s.pdOn 56 = true) :
    s.hubSram .secure o (.write data) = (s.hubStore o data).done Code.ok := by
  have hw : ¬ (World.secure = World.normal ∧ hubSecureOff o = true) := fun h => World.noConfusion h.1
  simp only [State.hubSram, if_neg (Nat.not_lt.mpr hn), if_neg hw, if_neg (State.pdState_of_on hp), hp,
    not_true_eq_false, if_false]

theorem State.hubSram_secret {data : Bytes} (hn : o + data.length ≤ 0x4000000) (ho : o < 0x2000000) :
    s.hubSram .normal o (.write data) = (s.refusedEvent o true true).done Code.accessBounds := by
  have hw : hubSecureOff o = true := decide_eq_true ho
  simp only [State.hubSram, if_neg (Nat.not_lt.mpr hn), hw, and_self, if_true]

end Sram

/-! #### One line of a bank -/

section Bank
variable {s : State} {r : Requester} {d b o a : Nat} {fold : Bool}

theorem State.readHere_bank (hp : place s.part a = .bank d b o) (hr : s.inReach r a = true)
    (hg : s.bankGate r d b fold = none) (hb : (s.bank d b).busy = 0) :
    s.readHere r a fold = s.eccRead (bankAddr d b o) := by
  simp only [State.readHere, hr, hp, hg, not_true_eq_false, if_false, Option.getD_none, s.onPort_free r d b _ hb]

theorem State.writeHere_bank (hp : place s.part a = .bank d b o) (hr : s.inReach r a = true)
    (hg : s.bankGate r d b fold = none) (he : s.inEvk a = false) (hb : (s.bank d b).busy = 0)
    (hu : s.anyUe (lineWords (bankAddr d b o)) = false) (data : Bytes) : s.writeHere r a data fold =
      { s.eccWrite (bankAddr d b o) data with st := (s.eccWrite (bankAddr d b o) data).st.soil d b } := by
  have hc : (s.eccWrite (bankAddr d b o) data).code = Code.ok := by rw [State.eccWrite_merged hu]; rfl
  simp only [State.writeHere, hr, hp, hg, he, not_true_eq_false, Bool.false_eq_true, if_false, Option.getD_none,
    s.onPort_free r d b _ hb, hc, if_true]

end Bank

/-! #### DMA inside one line (R542) -/

/-- A piece that is read and written in one go is the whole transfer. -/
theorem State.dmaLoop_piece {s : State} {r : Requester} {src dst len : Nat} {x y : Line} (h1 : 1 ≤ len)
    (hs : src % 64 + len ≤ 64) (hd : dst % 64 + len ≤ 64) (hx : s.readLine r (src / 64 * 64) false = x)
    (hxok : x.stall = false ∧ x.code = Code.ok)
    (hy : x.st.writeLine r dst ((x.data.drop (src % 64)).take len) false = y) (hyok : y.stall = false ∧ y.code = Code.ok)
    (fuel : Nat) : s.dmaLoop r (fuel + 2) src dst len = { Line.ok y.st [] with ce := x.ce + y.ce } := by
  have hk : min len (min (64 - src % 64) (64 - dst % 64)) = len := by omega
  have hrest : y.st.dmaLoop r (fuel + 1) (src + len) (dst + len) (len - len) = .ok y.st [] := by
    rw [Nat.sub_self]
    rfl
  obtain ⟨hxs, hxc⟩ := hxok
  obtain ⟨hys, hyc⟩ := hyok
  rw [State.dmaLoop, if_neg (by omega)]
  simp only [hk, hx, hxs, hxc, hy, hys, hyc, hrest, Bool.false_eq_true, ne_eq, not_true_eq_false, or_self, if_false]
  rfl

theorem exec_dmaTransfer_ok {s t : State} {d : Fin 4} {ctx : Fin 16} {src dst len : Nat}
    (h : s.dmaLoop (.dma (Fin.ofNat 8 d.val) ctx) (2 * (len / 64 + 2)) src dst len = .ok t []) (ht : t.d2d = s.d2d) :
    exec (.dmaTransfer d ctx src dst len) s = .next (t.done Code.ok) := by
  have hce : (Line.ok t []).ce + s.linkCeTo (Line.ok t []).st = 0 := by
    rw [Line.ok_st, State.linkCeTo_same ht]
    rfl
  show execDmaTransfer d ctx src dst len s = _
  unfold execDmaTransfer
  simp only [h, hce, Line.withCe_zero]
  rfl

/-- A write of a line whose words are all good corrects none. -/
theorem State.eccWrite_good {s : State} {a : Nat} (h : ∀ w, w ∈ lineWords a → s.mark w = .good) (data : Bytes) :
    s.eccWrite a data = .ok (s.eccWrite a data).st [] := by
  have hc : s.corrected (partWords a data.length) = 0 :=
    (State.good_words fun w hw => h w (List.mem_of_mem_filter (List.mem_of_mem_filter hw))).2
  rw [State.eccWrite_merged (State.good_words h).1, hc]
  rfl

section Dma
variable {s : State} {r : Requester} {d b o a : Nat} {fold : Bool}

/-- A granted line of good words is read as it stands. -/
theorem State.readLine_good (hp : place s.part a = .bank d b o) (hr : s.inReach r a = true)
    (hg : s.bankGate r d b fold = none) (hb : (s.bank d b).busy = 0) (hl : s.linksClean = true)
    (hw : ∀ w, w ∈ lineWords (bankAddr d b o) → s.mark w = .good) :
    s.readLine r a fold = .ok s (s.bytes (bankAddr d b o / 64 * 64) 64) := by
  have h := (State.readHere_bank hp hr hg hb).trans (State.eccRead_good hw)
  rw [State.readLine_clean s r a fold (by rw [h]; exact hl), h]

/-- A granted write of a line of good words stores its bytes, and the bank is no longer CLEAN. -/
theorem State.writeLine_good (hp : place s.part a = .bank d b o) (hr : s.inReach r a = true)
    (hg : s.bankGate r d b fold = none) (hb : (s.bank d b).busy = 0) (hl : s.linksClean = true)
    (he : s.inEvk a = false) (hw : ∀ w, w ∈ lineWords (bankAddr d b o) → s.mark w = .good) (data : Bytes) :
    s.writeLine r a data fold = .ok ((s.eccWrite (bankAddr d b o) data).st.soil d b) [] := by
  rw [s.writeLine_clean r a data fold hl, State.writeHere_bank hp hr hg he hb (State.good_words hw).1 data,
    State.eccWrite_good hw]
  rfl

end Dma

/-! #### Aliases (R47, R48) -/

section Access
variable {s : State} {r : Requester} {d b o a : Nat} {set : Bool} {data : Bytes}

theorem place_of_aliasPlace {p : Part} (h : aliasPlace p a = some (d, b, o, set)) :
    place p a = if set then .setAlias d b o else .clrAlias d b o := by
  unfold aliasPlace at h
  split at h <;> cases h
  · assumption
  · assumption

/-- An ALIAS operation that is granted at once, where it stands. -/
theorem State.writeHere_alias (hp : aliasPlace s.part a = some (d, b, o, set)) (ht : ∀ l g, r ≠ .tideway l g)
    (hg : s.bankGate r d b false = none) (he : s.inEvk (bankAddr d b o) = false) (hb : (s.bank d b).busy = 0) :
    s.writeHere r a data false = s.aliasOp d b o set data := by
  have hplace := place_of_aliasPlace hp
  have hr : s.inReach r a = true := by
    cases r with
    | tideway l g => exact absurd rfl (ht l g)
    | _ => rfl
  cases r with
  | tideway l g => exact absurd rfl (ht l g)
  | _ => cases set <;> simp only [State.writeHere, hr, hplace, hg, he, not_true_eq_false, Bool.false_eq_true, if_false,
      if_true, Option.getD_none, State.onPort_free _ _ _ _ _ hb]

/-- Its answer: the line as it was for an exchange, nothing for a write. -/
theorem State.aliasAccess_granted (hp : aliasPlace s.part a = some (d, b, o, set)) (hd : a % 64 + data.length ≤ 64)
    (ht : ∀ l g, r ≠ .tideway l g) (hl : s.linksClean = true) (hg : s.bankGate r d b false = none)
    (hb : (s.bank d b).busy = 0) (he : s.inEvk (bankAddr d b o) = false)
    (hu : s.anyUe (lineWords (bankAddr d b o)) = false) (exch : Bool) : s.aliasAccess r a data false exch =
      (((if exch then s.aliasOp d b o set data else { s.aliasOp d b o set data with data := [] }).withCe
        (s.corrected (lineWords (bankAddr d b o)))).answer) := by
  have hw : s.writeLine r a (data.take (64 - a % 64)) false = s.aliasOp d b o set data := by
    rw [List.take_of_length_le (by omega), s.writeLine_clean r a data false hl, State.writeHere_alias hp ht hg he hb]
  have hd2d := s.aliasOp_d2d d b o set data
  have hcl : (s.aliasOp d b o set data).st.linksClean = true := by
    unfold State.linksClean
    rw [hd2d]
    exact hl
  have hce : (s.aliasOp d b o set data).ce = s.corrected (lineWords (bankAddr d b o)) := by rw [State.aliasOp_merged hu]
  unfold State.aliasAccess
  simp only [hp, Bool.false_and, Bool.false_eq_true, false_and, if_false, hw, Line.carried_clean _ hcl]
  cases exch <;> simp only [Bool.false_eq_true, if_false, if_true, hce, State.linkCeTo_same hd2d, Nat.add_zero]

end Access

end Sys2Proof.Machine

open Sys2Proof Sys2Proof.Machine

/-- Settles O17: what a store leaves is read by `byte_of_store`, and each command follows the branch
that its grants and words select. -/
theorem memoryAccesses : Obligations.MemoryAccesses := by
  unfold Obligations.MemoryAccesses
  refine ⟨?hubRead, ?hubWrite, ?hubSecret, ?dmaNone, ?dma, ?aliasWrite, ?aliasExchange, ?aliasBusy,
    fun s a data h => State.byte_of_store (State.eccWrite_mem h), ?aliasBytes⟩
  case hubRead =>
    intro s key o n hn h0 hp
    have hb : s.hubBytes o n ≠ [] := fun h => h0 (by
      have hlen : (s.hubBytes o n).length = n := length_getList _ _ _ _
      rw [← hlen, h]; rfl)
    rw [exec_hubMemoryAccess_sram, State.hubSram_read hn hp, ← Line.withCe_zero (Line.ok s (s.hubBytes o n))]
    exact congrArg Host.Outcome.next (Line.answer_data (x := Line.ok s (s.hubBytes o n)) rfl rfl hb 0)
  case hubWrite =>
    intro s key o data hn hp
    rw [exec_hubMemoryAccess_sram, State.hubSram_write hn hp]
  case hubSecret =>
    intro s key o data hn ho
    rw [exec_hubMemoryAccess_sram, State.hubSram_secret hn ho]
    rfl
  case dmaNone =>
    intro s d ctx src dst
    exact exec_dmaTransfer_ok rfl rfl
  case dma =>
    intro s d ctx src dst len d1 b1 o1 d2 b2 o2 h1 hs hd hl hp1 hp2 hg1 hg2 hb1 hb2 he hw
    have hread := State.readLine_good (r := .dma (Fin.ofNat 8 d.val) ctx) (fold := false) hp1 rfl hg1 hb1 hl
      fun w h => hw w (Or.inl h)
    have hwrite := State.writeLine_good (r := .dma (Fin.ofNat 8 d.val) ctx) (fold := false) hp2 rfl hg2 hb2 hl he
      (fun w h => hw w (Or.inr h)) (((s.bytes (bankAddr d1 b1 o1 / 64 * 64) 64).drop (src % 64)).take len)
    have hfuel : 2 * (len / 64 + 2) = 2 * (len / 64 + 1) + 2 := by omega
    have hx := State.dmaLoop_piece h1 hs hd hread ⟨rfl, rfl⟩ hwrite ⟨rfl, rfl⟩ (2 * (len / 64 + 1))
    rw [← hfuel] at hx
    exact exec_dmaTransfer_ok hx (by rw [State.soil_d2d, State.eccWrite_d2d])
  case aliasWrite =>
    intro s r d b o a data hp h1 hd ht hl hg hb he hu
    have hap : aliasPlace s.part a = some (d, b, o, true) := by
      unfold aliasPlace
      rw [hp]
    refine congrArg Host.Outcome.next ((State.aliasAccess_granted hap hd ht hl hg hb he hu false).trans ?_)
    rw [if_neg Bool.false_ne_true, State.aliasOp_merged hu, Line.answer_nothing rfl rfl rfl]
  case aliasExchange =>
    intro s r d b o a data hp h1 hd ht hl hg hb he hu
    have hap : aliasPlace s.part a = some (d, b, o, false) := by
      unfold aliasPlace
      rw [hp]
    have hne : s.bytes (bankAddr d b o / 64 * 64) 64 ≠ [] := List.cons_ne_nil _ _
    refine congrArg Host.Outcome.next ((State.aliasAccess_granted hap hd ht hl hg hb he hu true).trans ?_)
    rw [if_pos rfl, State.aliasOp_merged hu, Line.answer_data rfl rfl hne]
    rfl
  case aliasBusy =>
    intro s w key d b o a data hp hg
    have hap : aliasPlace s.part a = some (d, b, o, true) := by
      unfold aliasPlace
      rw [hp]
    have hit : (s.meetsBusy (.hub w key) a).isSome = true := by
      simp only [State.meetsBusy, hp, hg, Option.isNone_none, if_true, Option.isSome_some]
    refine congrArg Host.Outcome.next ?_
    unfold State.aliasAccess
    simp only [hap, hit, Bool.and_self, and_self, if_true]
    rfl
  case aliasBytes =>
    intro s d b o set data hu
    obtain ⟨hin, hout⟩ := State.byte_of_store (State.aliasOp_mem (set := set) (data := data) hu)
    rw [State.length_aliasBytes] at hin hout
    exact ⟨fun i hi => (hin i hi).trans (State.getD_aliasBytes s _ set data hi), hout, State.aliasOp_soiled hu⟩

end

/-! ### Parameter sets, shard tables and seed tables (R36, R180–R183, R197, R206, R419)

Numbers as bytes, what a slot that takes a record leaves alone, PS_CTL's ending, then the tables of the I-strands. -/

section
namespace Sys2Proof.Machine

/-! #### Little-endian bytes -/

theorem fromLE_le (n x : Nat) : fromLE (le n x) = x % 256 ^ n := by
  induction n generalizing x with
  | zero => rw [Nat.pow_zero, Nat.mod_one]; rfl
  | succ n ih =>
    have h : (BitVec.ofNat 8 x).toNat = x % 256 := BitVec.toNat_ofNat x 8
    rw [le, fromLE, ih, h, Nat.pow_succ', Nat.mod_mul]

theorem drop_le (m o x : Nat) : (le m x).drop o = le (m - o) (x / 256 ^ o) := by
  induction o generalizing m x with
  | zero => rw [List.drop_zero, Nat.pow_zero, Nat.div_one, Nat.sub_zero]
  | succ o ih =>
    cases m with
    | zero => rw [Nat.zero_sub]; rfl
    | succ m => rw [le, List.drop_succ_cons, ih, Nat.add_sub_add_right, Nat.div_div_eq_div_mul, Nat.pow_succ']

theorem take_le (m n x : Nat) (h : n ≤ m) : (le m x).take n = le n x := by
  induction n generalizing m x with
  | zero => rfl
  | succ n ih =>
    cases m with
    | zero => omega
    | succ m => rw [le, le, List.take_succ_cons, ih m (x / 256) (by omega)]

/-- A field of a number's bytes is the number's digits there. -/
theorem field_le (m o n x : Nat) (h : o + n ≤ m) : field (le m x) o n = x / 256 ^ o % 256 ^ n := by
  rw [field, drop_le, take_le _ _ _ (by omega), fromLE_le]

theorem fromLE_zeros (n : Nat) : fromLE (List.replicate n 0) = 0 := by
  induction n with
  | zero => rfl
  | succ n ih => rw [List.replicate_succ, fromLE, ih]; rfl

/-! #### PS_CTL (R182) -/

section Psets
variable {s : State}

/-- Writing a register or a field changes registers alone. -/
theorem State.setReg_shape (s : State) (a : Nat) (v : Word) : ∃ r, s.setReg a v = { s with regs := r } := ⟨_, rfl⟩
theorem State.setFld_shape (s : State) (a hi lo x : Nat) : ∃ r, s.setFld a hi lo x = { s with regs := r } := ⟨_, rfl⟩

/-- The end of a PS_CTL command changes registers and the reply. -/
theorem State.psDone_shape (s : State) (op c i : Nat) (code : Byte) :
    ∃ r, s.psDone op c i code = { s with regs := r, reply := ⟨code, 0⟩ } := by
  obtain ⟨r, hr⟩ := s.setReg_shape Reg.psCtl (BitVec.ofNat 32 (op * 2 ^ 26 + c * 2 ^ 16 + i))
  obtain ⟨q, hq⟩ := State.setFld_shape { s with regs := r } Reg.psStat 23 16 code.toNat
  refine ⟨q, ?_⟩
  unfold State.psDone
  simp only [hr, hq]
  rfl

/-- Its code stands in PS_STAT. -/
theorem State.psDone_stat (s : State) (op c i : Nat) (code : Byte) :
    (s.psDone op c i code).fld Reg.psStat 23 16 = code.toNat := by
  unfold State.psDone
  rw [State.fld_done, State.fld_setFld_same _ _ _ _ _ (by decide) (by decide)]
  exact Nat.mod_eq_of_lt code.isLt

theorem State.psDone_reg (s : State) (op c i : Nat) (code : Byte) {a : Nat} (h1 : a ≠ Reg.psCtl) (h2 : a ≠ Reg.psStat) :
    (s.psDone op c i code).reg a = s.reg a := by
  unfold State.psDone
  rw [State.reg_done, State.reg_setFld_ne _ _ _ _ _ _ h2, State.reg_setReg_ne _ _ _ _ h1]

/-- A slot that takes a record is written with it; the context's log and hub SRAM take the CONFIG entry (R183, R420). -/
theorem State.psStore_shape (s : State) (c i : Nat) (rec : Bytes) : ∃ x h, s.psStore c i rec = { s with
    psets := s.psets.put (fun _ => 0) (c * 256 + i) (BitVec.ofNat 1024 (fromLE rec)), ctxs := x, hubMem := h } :=
  ⟨_, _, rfl⟩

/-- So the slot holds the record, and no other slot, memory or key differs. -/
theorem State.psStored (s : State) (op c i : Nat) (rec : Bytes) :
    ((s.psStore c i rec).psDone op c i Code.ok).psRecord c i = BitVec.ofNat 1024 (fromLE rec) ∧
    (∀ k, k ≠ c * 256 + i → ((s.psStore c i rec).psDone op c i Code.ok).psets.get (fun _ => 0) k =
      s.psets.get (fun _ => 0) k) ∧
    ((s.psStore c i rec).psDone op c i Code.ok).mem = s.mem ∧
    ((s.psStore c i rec).psDone op c i Code.ok).keys = s.keys ∧
    ((s.psStore c i rec).psDone op c i Code.ok).reply = ⟨Code.ok, 0⟩ := by
  obtain ⟨x, h, hstore⟩ := s.psStore_shape c i rec
  obtain ⟨r, hdone⟩ := (s.psStore c i rec).psDone_shape op c i Code.ok
  rw [hdone, hstore]
  exact ⟨Table.get_put_same _ _ _ _, fun k hk => Table.get_put_ne _ _ _ _ _ hk, rfl, rfl, rfl⟩

/-- An empty slot names no set (R182). -/
theorem State.pset_empty {c i : Nat} (hi : i < 256) (h : s.psRecord c i = 0) : s.pset c (0x8000 + i) = none := by
  have hf : field (le 128 (BitVec.toNat (0 : BitVec 1024))) 0 1 = 0 := by
    rw [field_le _ _ _ _ (by omega), BitVec.ofNat_eq_ofNat, BitVec.toNat_zero, Nat.zero_div, Nat.zero_mod]
  unfold State.pset
  rw [if_neg (by omega), if_pos (by omega), Nat.add_sub_cancel_left, h]
  exact if_pos hf

variable {c : Fin 16} {i : Fin 256}

theorem exec_psWrite_stored (hl : s.ctxLive c.val = true) (hr : s.ctxRuns c.val = false)
    (ho : s.psetOk c.val s.psStaged = true) (hf : s.logFits c.val 112 = true) :
    exec (.psWrite c i) s = .next ((s.psStore c.val i.val s.psStaged).psDone 0 c.val i.val Code.ok) := by
  show execPsWrite c i s = _
  simp only [execPsWrite, hl, hr, ho, hf, not_true_eq_false, Bool.false_eq_true, if_false]

theorem exec_psWrite_invalid (hl : s.ctxLive c.val = true) (hr : s.ctxRuns c.val = false)
    (ho : s.psetOk c.val s.psStaged = false) :
    exec (.psWrite c i) s = .next (s.psDone 0 c.val i.val Code.formatError) := by
  show execPsWrite c i s = _
  simp only [execPsWrite, hl, hr, ho, not_true_eq_false, Bool.false_eq_true, not_false_eq_true, if_false, if_true]

theorem exec_psClear_emptied (hl : s.ctxLive c.val = true) (hr : s.ctxRuns c.val = false)
    (hf : s.logFits c.val 112 = true) : exec (.psClear c i) s =
      .next ((s.psStore c.val i.val (List.replicate 128 0)).psDone 2 c.val i.val Code.ok) := by
  show execPsClear c i s = _
  simp only [execPsClear, hl, hr, hf, not_true_eq_false, Bool.false_eq_true, if_false]

/-- PS_DATA with a record in it. -/
def State.psShow (s : State) (rec : BitVec 1024) : State :=
  (List.range 32).foldl (fun t i => t.setReg (Reg.psData i) (BitVec.ofNat 32 (field (le 128 rec.toNat) (4 * i) 4))) s

theorem exec_psRead_live (hl : s.ctxLive c.val = true) :
    exec (.psRead c i) s = .next ((s.psShow (s.psRecord c.val i.val)).psDone 1 c.val i.val Code.ok) := by
  show execPsRead c i s = _
  simp only [execPsRead, hl, not_true_eq_false, if_false]
  rfl

theorem exec_psRead_gone (hl : s.ctxLive c.val = false) :
    exec (.psRead c i) s = .next (s.psDone 1 c.val i.val Code.contextUnavailable) := by
  show execPsRead c i s = _
  simp only [execPsRead, hl, Bool.false_eq_true, not_false_eq_true, if_true]

/-- Registers written one after another each hold their word, where no two are the same. -/
theorem State.reg_foldl_setReg {f : Nat → Nat} (hf : ∀ i j, f i = f j → i = j) (v : Nat → Word) (ks : List Nat) (s : State)
    {k : Nat} (hk : k ∈ ks) : (ks.foldl (fun t i => t.setReg (f i) (v i)) s).reg (f k) = v k := by
  induction ks using List.reverseRecOn with
  | nil => cases hk
  | append_singleton ks j ih =>
    rw [List.foldl_append, List.foldl_cons, List.foldl_nil, State.reg_setReg]
    by_cases h : f k = f j
    · rw [if_pos h, hf k j h]
    · rw [if_neg h]
      refine ih ((List.mem_append.mp hk).resolve_right fun hj => h ?_)
      rw [List.mem_singleton.mp hj]

/-- Word k of the record shown. -/
theorem State.psShow_word (s : State) (rec : BitVec 1024) {k : Nat} (hk : k < 32) :
    ((s.psShow rec).reg (Reg.psData k)).toNat = rec.toNat / 2 ^ (32 * k) % 2 ^ 32 := by
  have hinj : ∀ i j, Reg.psData i = Reg.psData j → i = j := by
    intro i j h
    unfold Reg.psData regAddr at h
    omega
  have hp : (256 : Nat) ^ (4 * k) = 2 ^ (32 * k) := by
    rw [show (256 : Nat) = 2 ^ 8 from rfl, ← Nat.pow_mul]
    congr 1
    omega
  unfold State.psShow
  rw [State.reg_foldl_setReg hinj (fun i => BitVec.ofNat 32 (field (le 128 rec.toNat) (4 * i) 4)) _ s
    (List.mem_range.mpr hk), field_le _ _ _ _ (by omega), BitVec.toNat_ofNat, hp]
  exact Nat.mod_mod _ _

/-- Showing a record changes registers alone. -/
theorem State.psShow_shape (s : State) (rec : BitVec 1024) : ∃ r, s.psShow rec = { s with regs := r } := by
  refine List.foldlRecOn (motive := fun t : State => ∃ r, t = { s with regs := r }) _ _ ⟨s.regs, rfl⟩ fun t ht j _ => ?_
  obtain ⟨r, rfl⟩ := ht
  exact ⟨_, rfl⟩

end Psets

/-! #### Shard tables and seed tables (R197, R206) -/

section Tables
variable {s : State} {d i : Fin 4}

/-- The secure world's command on a strand that is ON, over clean links, is done. -/
theorem State.secureOnly_strand {n : Nat} (hl : s.linksClean = true) (hp : s.pdOn (pdStrand d.val i.val) = true)
    (k : State → State) :
    s.secureOnly .secure n (fun t => t.toDie d.val (fun u => u.onStrand d.val i.val k)) = k s :=
  (s.toDie_clean d.val (fun u => u.onStrand d.val i.val k) hl).trans (s.onStrand_on d.val i.val k hp)

theorem exec_shtCtlWrite (hl : s.linksClean = true) (hp : s.pdOn (pdStrand d.val i.val) = true) (j : Fin 4) (v : Word) :
    exec (.shtCtlWrite .secure d i j v) s = .next (s.shtWrite d.val i.val j.val v) :=
  congrArg Host.Outcome.next (State.secureOnly_strand hl hp _)

theorem exec_seedWrite (hl : s.linksClean = true) (hp : s.pdOn (pdStrand d.val i.val) = true) (e : Fin 4096) :
    exec (.seedWrite .secure d i e) s = .next (s.seedCommit d.val i.val e.val (s.staged d.val i.val)) :=
  congrArg Host.Outcome.next (State.secureOnly_strand hl hp _)

theorem exec_seedClear (hl : s.linksClean = true) (hp : s.pdOn (pdStrand d.val i.val) = true) (e : Fin 4096) :
    exec (.seedClear .secure d i e) s = .next (s.seedCommit d.val i.val e.val 0) :=
  congrArg Host.Outcome.next (State.secureOnly_strand hl hp _)

theorem State.seedCommit_shape (s : State) (d i e : Nat) (v : BitVec 512) : ∃ x r, s.seedCommit d i e v =
    { s with seeds := s.seeds.put (fun _ => 0) (seedKeyOf d i e) v, seedShard := x, regs := r, reply := ⟨Code.ok, 0⟩ } := by
  obtain ⟨r, hr⟩ := State.setReg_shape { s with
    seeds := s.seeds.put (fun _ => 0) (seedKeyOf d i e) v
    seedShard := s.seedShard.put (fun _ => 0) (seedKeyOf d i e) 0 } (Reg.seedCtl d i) (BitVec.ofNat 32 e)
  refine ⟨s.seedShard.put (fun _ => 0) (seedKeyOf d i e) 0, r, ?_⟩
  unfold State.seedCommit
  rw [hr]
  rfl

/-- A committed seed entry is the value given; no other entry, and no memory, changes (R206). -/
theorem State.seedCommit_entries (s : State) (d i : Nat) (e : Fin 4096) (v : BitVec 512) :
    (s.seedCommit d i e.val v).seed (iNum d i) e.val = v ∧
    (∀ n k, k < 4096 → (n, k) ≠ (iNum d i, e.val) → (s.seedCommit d i e.val v).seed n k = s.seed n k) ∧
    (s.seedCommit d i e.val v).mem = s.mem ∧ (s.seedCommit d i e.val v).reply = ⟨Code.ok, 0⟩ := by
  obtain ⟨x, r, hr⟩ := s.seedCommit_shape d i e.val v
  rw [hr]
  refine ⟨Table.get_put_same _ _ _ _, fun n k hk hne => Table.get_put_ne _ _ _ _ _ fun h => hne ?_, rfl, rfl⟩
  unfold seedKeyOf at h
  have he := e.isLt
  have h1 : n = iNum d i := by omega
  have h2 : k = e.val := by omega
  rw [h1, h2]

end Tables

end Sys2Proof.Machine

open Sys2Proof Sys2Proof.Machine

/-- Settles O36: a slot is written by `psStore`, shown by `psShow`; the tables' commands reach their strand. -/
theorem slotTables : Obligations.SlotTables := by
  unfold Obligations.SlotTables
  refine ⟨?write, ?invalid, ?read, ?clear, ?gone, ?move, ?closing, fun s d i j v => rfl,
    fun s d i e hl hp => ⟨_, exec_seedWrite hl hp e, s.seedCommit_entries _ _ e _⟩,
    fun s d i e hl hp => ⟨_, exec_seedClear hl hp e, s.seedCommit_entries _ _ e _⟩⟩
  case write =>
    intro s c i hl hr ho hf
    obtain ⟨hrec, hother, hmem, hkeys, hreply⟩ := s.psStored 0 c.val i.val s.psStaged
    exact ⟨_, exec_psWrite_stored hl hr ho hf, hrec, State.psDone_stat _ _ _ _ _, hother, hmem, hkeys, hreply⟩
  case invalid =>
    intro s c i hl hr ho
    obtain ⟨r, hdone⟩ := s.psDone_shape 0 c.val i.val Code.formatError
    refine ⟨_, exec_psWrite_invalid hl hr ho, ?_, ?_, State.psDone_stat _ _ _ _ _, ?_⟩ <;> rw [hdone]
  case read =>
    intro s c i hl
    obtain ⟨r, hshow⟩ := s.psShow_shape (s.psRecord c.val i.val)
    obtain ⟨q, hdone⟩ := (s.psShow (s.psRecord c.val i.val)).psDone_shape 1 c.val i.val Code.ok
    refine ⟨_, exec_psRead_live hl, fun k hk => ?_, ?_, ?_, ?_, ?_⟩
    · have h1 : Reg.psData k ≠ Reg.psCtl := by unfold Reg.psData Reg.psCtl regAddr; omega
      have h2 : Reg.psData k ≠ Reg.psStat := by unfold Reg.psData Reg.psStat regAddr; omega
      rw [State.psDone_reg _ _ _ _ _ h1 h2, State.psShow_word _ _ hk]
    all_goals rw [hdone, hshow]
  case clear =>
    intro s c i hl hr hf
    obtain ⟨hrec, -, hmem, -, hreply⟩ := s.psStored 2 c.val i.val (List.replicate 128 0)
    rw [fromLE_zeros] at hrec
    exact ⟨_, exec_psClear_emptied hl hr hf, hrec, State.pset_empty i.isLt hrec, hmem, hreply⟩
  case gone =>
    intro s c i hl
    obtain ⟨r, hdone⟩ := s.psDone_shape 1 c.val i.val Code.contextUnavailable
    refine ⟨_, exec_psRead_gone hl, ?_, State.psDone_stat _ _ _ _ _, ?_⟩ <;> rw [hdone]
  case move =>
    intro s d i j v hl hp hm
    rw [exec_shtCtlWrite hl hp]
    exact congrArg Host.Outcome.next (if_pos hm)
  case closing =>
    intro s d i j v hl hp h2
    rw [exec_shtCtlWrite hl hp]
    exact congrArg Host.Outcome.next (if_neg (by omega))

end

/-! ### FOLD, BSETX and SEAL (R48, R69, R154–R156, R210)

An instruction that its stage takes is its effect; then each effect by the checks it passes. -/

section
namespace Sys2Proof.Machine

section Instructions
variable {s : State} {l : Loc} {f : Fields}

/-! #### FOLD (R69, R154) -/

/-- A tile of n elements of es bytes folded into its range from address a, every line done (R69, R154). -/
theorem State.foldTile_done {x y : Stage} {t : Tile} {d : Desc} {m es a n : Nat} {r : Run}
    (hes : ringSize (f.imf 1 0) = es) (ha : d.base + t.tag.toNat % 2 ^ 32 * es = a) (hn : t.vcnt.toNat / es = n)
    (hb : t.bad = none) (hin : a + t.vcnt.toNat ≤ d.base + d.length)
    (hr : s.rmwLines l.req (s.foldLine t a n es m (decide (f.imf 2 2 = 1))) ((linesOf a (n * es)).drop x.foldPos) = r)
    (hg : r.good) : s.foldTile l f x y t d m = (if f.imf 3 3 = 1 ∧ t.last = true then
      ((r.st.took n).iCount64 l 0x08).someChunkLeaves l.d l.s else r.st.took n).retire l { y with foldPos := 0 } := by
  obtain ⟨hstall, herr⟩ := hg
  unfold State.foldTile
  simp only [hes, ha, hn, hb, if_neg (Nat.not_lt.mpr hin), Bool.false_eq_true, if_false, hr, hstall, herr]
  split <;> rfl

/-- Under INSLOT an instruction that can use the oldest complete slot goes on with its tile (R118). -/
theorem State.withSlot_source {x y : Stage} {t : Tile} (h2 : f.hint = 2) (hs : x.source l f = some (t, y))
    (k : Tile → Stage → State) : s.withSlot l x k = k t y := by
  simp only [Stage.source, h2, if_true] at hs
  unfold State.withSlot
  split at hs
  · next t' y' e =>
    split at hs
    · cases hs
    · next hd =>
      cases hs
      simp only [e, if_neg hd]
  · cases hs

theorem Stage.source_register {x y : Stage} {t : Tile} (h2 : f.hint ≠ 2) (hs : x.source l f = some (t, y)) :
    t = x.tr f.a ∧ y = x := by
  simp only [Stage.source, if_neg h2] at hs
  split at hs
  · cases hs
  · cases hs
    exact ⟨rfl, rfl⟩

/-- What FOLD's entry permits (R154). -/
def foldShape (f : Fields) : Shape :=
  { stages := [St.fold], sa := .t, sb := .d, sc := .p, qsel := decide (f.imf 1 0 = 2), hints := [0, 2], imm := 0xF,
    extra := decide (f.imf 1 0 ≠ 3) }

section Fold
variable (h : s.issues l 0x69 f (foldShape f)) (hq : f.imf 1 0 = 2 → (s.stage l.ix).qr f.qsel ≠ 0)
include h hq

/-- FOLD with a modulus goes on by its guard, its bank descriptor and where its tile comes from. -/
theorem exec_fold : exec (.fold l f) s = .next (if ¬ (s.stage l.ix).pr f.c = true then s.foldGuarded l f (s.stage l.ix)
    else if ¬ (s.descB l f).ok l.s 1 [1] = true then s.insnFault l Code.formatError
    else if f.hint = 2 then s.withSlot l (s.stage l.ix) (fun t y => s.foldTile l f (s.stage l.ix) y t (s.descB l f)
      (ringMod (f.imf 1 0) ((s.stage l.ix).qr f.qsel).toNat))
    else s.foldTile l f (s.stage l.ix) (s.stage l.ix) ((s.stage l.ix).tr f.a) (s.descB l f)
      (ringMod (f.imf 1 0) ((s.stage l.ix).qr f.qsel).toNat)) := by
  have hm : ¬ (f.imf 1 0 = 2 ∧ ((s.stage l.ix).qr f.qsel).toNat = 0) := fun hx =>
    hq hx.1 (BitVec.eq_of_toNat_eq hx.2)
  exact congrArg Host.Outcome.next ((State.issue_eq s l 0x69 f (foldShape f) _ h (by decide) (by decide)).trans (if_neg hm))

theorem exec_fold_unguarded (hp : (s.stage l.ix).pr f.c = false) (h0 : f.hint = 0) :
    exec (.fold l f) s = .next (s.retire l (s.stage l.ix)) := by
  rw [exec_fold h hq, hp, if_pos (by decide), State.foldGuarded, if_neg (by omega)]

/-- FOLD with its guard true takes its tile and folds it. -/
theorem exec_fold_tile {t : Tile} {y : Stage} (hp : (s.stage l.ix).pr f.c = true)
    (hd : (s.descB l f).ok l.s 1 [1] = true) (hs : (s.stage l.ix).source l f = some (t, y)) :
    exec (.fold l f) s = .next (s.foldTile l f (s.stage l.ix) y t (s.descB l f)
      (ringMod (f.imf 1 0) ((s.stage l.ix).qr f.qsel).toNat)) := by
  rw [exec_fold h hq, hp, hd, if_neg (by decide), if_neg (by decide)]
  by_cases h2 : f.hint = 2
  · rw [if_pos h2, State.withSlot_source h2 hs]
  · obtain ⟨rfl, rfl⟩ := Stage.source_register h2 hs
    rw [if_neg h2]

end Fold

/-! #### BSETX (R48, R154) -/

/-- What BSETX's entry permits (R154). -/
def bsetxShape (f : Fields) : Shape :=
  { stages := [St.fold], dst := .p, sa := .d, sb := .s, imm := 1, extra := decide (1 ≤ f.d) && decide (f.d ≤ 6) }

/-- BSETX on a bank line that its exchange reaches ends with the bit as it was. -/
theorem exec_bsetx {n a d b o : Nat} {v : State} {r : Line} (h : s.issues l 0x6A f (bsetxShape f))
    (hn : ((s.stage l.ix).sr f.b).toNat = n) (ha : (s.descA l f).base + n / 8 = a)
    (hd : (s.descA l f).ok l.s 1 [1] = true) (hin : n / 8 < (s.descA l f).length) (hp : place s.part a = .bank d b o)
    (hr : s.writeLine (s.bankReq l a) (a + 0x80000000) [BitVec.ofNat 8 (2 ^ (n % 8))] false = r)
    (hs : r.stall = false) (hc : r.code = Code.ok) (hx : r.st.crossPorts (route d l.d) = (v, false)) :
    exec (.bsetx l f) s = .next (v.bsetxDone l f (s.stage l.ix) ((r.data.getD (a % 64) 0).getLsbD (n % 8))) := by
  refine congrArg Host.Outcome.next ((State.issue_eq s l 0x6A f (bsetxShape f) _ h (by decide) (by decide)).trans ?_)
  simp only [hn, ha, hd, if_neg (Nat.not_le.mpr hin), hp, hr, hs, hc, State.across, placeDie, hx, not_true_eq_false,
    Bool.false_eq_true, ne_eq, if_false]

/-! #### SEAL (R155, R156, R210) -/

/-- What the entry of a SEAL without noise over Z_2^64 permits, to a destination in memory (R155). -/
def sealShape : Shape := { stages := [St.fold], dst := .d, sa := .d, sb := .d, imm := 0x1F7F }

/-- What a SEAL without noise works on. -/
def State.sealCfg (s : State) (l : Loc) (f : Fields) (form : Nat) : SealCfg :=
  ⟨form, 1, 2 ^ 64, false, decide (f.imf 5 5 = 1), f.imf 12 8, (s.descA l f).base, (s.descB l f).base, (s.descD l f).base,
    (s.descA l f).length⟩

section Seal
variable {form kind : Nat} (hform : f.imf 1 0 = form) (hring : f.imf 3 2 = 1) (hdp : f.imf 4 4 = 0)
  (h : s.issues l 0x68 f sealShape) (hA : (s.descA l f).ok l.s 1 [1] = true) (hB : (s.descB l f).ok l.s 1 [1] = true)
  (hD : (s.descD l f).ok l.s 1 [kind] = true) (h0 : (s.stage l.ix).sealPos = 0)
include hform hring hdp h hA hB hD h0

/-- A SEAL REMASK or ENCRYPT without noise, whose descriptors are in form, begins. -/
theorem exec_seal_starts (hk : (form = 0 ∧ kind = 1) ∨ (form = 1 ∧ kind = 3)) : exec (.seal l f) s =
    .next (s.sealStart l f (s.stage l.ix) (s.sealCfg l f form) (s.descA l f) (s.descB l f) (s.descD l f)) := by
  have h2 : form ≠ 2 := by omega
  have h3 : form ≠ 3 := by omega
  have hdest0 : ¬ (form = 0 ∧ ¬ (s.descD l f).ok l.s 1 [1] = true) := by
    rintro ⟨rfl, hn⟩
    rcases hk with ⟨-, rfl⟩ | ⟨hx, -⟩
    · exact hn hD
    · cases hx
  have hdest1 : ¬ (form = 1 ∧ ¬ (s.descD l f).ok l.s 1 [3] = true) := by
    rintro ⟨rfl, hn⟩
    rcases hk with ⟨hx, -⟩ | ⟨-, rfl⟩
    · cases hx
    · exact hn hD
  have hshape : { sealShape with dst := if form = 2 then .none else .d, extra := decide (form ≠ 3) && true } = sealShape := by
    rw [if_neg h2, decide_eq_true h3]
    rfl
  rw [← hshape] at h
  show execSeal l f s = _
  unfold execSeal
  simp only [hform, hring, hdp]
  refine congrArg Host.Outcome.next ((State.issue_eq s l 0x68 f _ _ h (by decide) (by decide)).trans ?_)
  simp only [hA, hB, hdest0, hdest1, h0, Bool.and_self, not_true_eq_false, false_or]
  rfl

end Seal

/-- A REMASK of at most one block, without noise and group mask, runs all its lines (R155). -/
theorem State.sealStart_block {x : Stage} {c : SealCfg} {da db dd : Desc} (hc : c.form = 0) (hdp : c.dp = false)
    (hgm : c.gm = false) (hr : s.sealRanges l f c da db dd = true) (h0 : x.sealPos = 0) (hpos : 0 < c.len)
    (hlen : c.len ≤ 4096) : s.sealStart l f x c da db dd = s.sealAfter l c (s.hdr l (Desc.of (x.dr f.d)).index).ptr none
      (s.sealLines l f c (fun _ => []) ((c.len + 63) / 64)) := by
  have hn : min (64 - x.sealPos % 64) ((c.len + 63) / 64 - x.sealPos) = (c.len + 63) / 64 := by
    rw [h0]
    omega
  have hl : c.len ≠ 0 := by omega
  unfold State.sealStart
  simp only [hc, hr, hl, State.sealBlock, hdp, hgm, hn, zero_ne_one, false_and, not_true_eq_false, Bool.false_eq_true, if_false]
  rfl

theorem State.sealStart_nothing {x : Stage} {c : SealCfg} {da db dd : Desc} (hc : c.form = 0)
    (hr : s.sealRanges l f c da db dd = true) (hlen : c.len = 0) : s.sealStart l f x c da db dd = s.retire l x := by
  unfold State.sealStart
  simp only [hc, hr, hlen, zero_ne_one, false_and, not_true_eq_false, if_false, if_true]

/-- Lines that all ran, the last among them, end a REMASK. -/
theorem State.sealAfter_ended {c : SealCfg} {r : Run} (hc : c.form = 0) (hg : r.good)
    (hlen : c.len ≤ (r.st.stage l.ix).sealPos * 64) (ptr : Nat) :
    s.sealAfter l c ptr none r = r.st.retire l (r.st.stage l.ix).sealEnd := by
  obtain ⟨hstall, herr⟩ := hg
  unfold State.sealAfter
  simp only [hstall, herr, if_pos hlen, Bool.false_eq_true, if_false, State.bindZero, hc, zero_ne_one, false_and]

end Instructions

end Sys2Proof.Machine

open Sys2Proof Sys2Proof.Machine

/-- Settles O30: each instruction is its effect once its stage takes it, and the effect is the branch its checks select. -/
theorem foldAndSeal : Obligations.FoldAndSeal := by
  unfold Obligations.FoldAndSeal
  refine ⟨?fold, fun s l f h hq hp h0 => exec_fold_unguarded h hq hp h0, ?bsetx, ?remask, ?poisoned⟩
  case fold =>
    intro s l f t y r h hq hp hd hs hb hin hr hg
    rw [exec_fold_tile h hq hp hd hs, State.foldTile_done rfl rfl rfl hb hin hr.symm hg]
  case bsetx =>
    intro s v l f d b o r old h hd hin hp hr hs hc hx hold
    rw [exec_bsetx h rfl rfl hd hin hp hr.symm hs hc hx, ← hold]
    rfl
  case remask =>
    intro s l f c r hform hring hdp hgm h hA hB hD hc h0 hr
    have hcfg : s.sealCfg l f 0 = c := by
      rw [hc]
      simp only [State.sealCfg, hgm]
      rfl
    have hstart := exec_seal_starts hform hring hdp h hA hB hD h0 (Or.inl ⟨rfl, rfl⟩)
    rw [hcfg] at hstart
    refine ⟨fun hlen => ?_, fun hpos hlen hrun hg hend => ?_⟩
    · rw [hstart, State.sealStart_nothing (by rw [hc]) hr hlen]
    · rw [hstart, State.sealStart_block (by rw [hc]) (by rw [hc]) (by rw [hc]) hr h0 hpos hlen, ← hrun,
        State.sealAfter_ended (by rw [hc]) hg hend]
  case poisoned =>
    intro s l f hform hring hdp h hA hB hD h0 hp
    rw [exec_seal_starts hform hring hdp h hA hB hD h0 (Or.inr ⟨rfl, rfl⟩)]
    exact congrArg Host.Outcome.next (if_pos ⟨rfl, hp⟩)

end

/-! ### Strand control (R94–R96, R99, R101, R171)

What the operations over a strand's stages leave alone, then each command by the state of its strand. -/

section
namespace Sys2Proof.Machine

/-! #### What a strand's operations leave alone -/

/-- A change to the stages of a strand changes no other part of the state. -/
theorem State.eachStage_shape (s : State) (d st : Nat) (f : Stage → Stage) :
    ∃ x, s.eachStage d st f = { s with stages := x } := by
  refine List.foldlRecOn (motive := fun t : State => ∃ x, t = { s with stages := x }) _ _ ⟨s.stages, rfl⟩ ?_
  rintro t ⟨x, rfl⟩ g -
  exact ⟨_, rfl⟩

theorem State.clearFaults_shape (s : State) (d st : Nat) : ∃ r, s.clearFaults d st = { s with regs := r } := ⟨_, rfl⟩

/-- A strand that is zeroed keeps every memory and every key (R96). -/
theorem State.zeroStrand_frame (s : State) (d st : Nat) :
    (s.zeroStrand d st).mem = s.mem ∧ (s.zeroStrand d st).keys = s.keys := by
  obtain ⟨x, hx⟩ := s.eachStage_shape d st Stage.sreset
  obtain ⟨r, hr⟩ := State.clearFaults_shape { s with stages := x } d st
  unfold State.zeroStrand
  simp only [hx, hr]
  split <;> exact ⟨rfl, rfl⟩

theorem State.clearCounts_frame (s : State) (d st : Nat) :
    (s.clearCounts d st).mem = s.mem ∧ (s.clearCounts d st).keys = s.keys := by
  unfold State.clearCounts
  split <;> exact ⟨rfl, rfl⟩

/-- STRAND_STAT lies below the fault records of its die. -/
theorem strandStat_lt_frBase (d g : Nat) {st : Nat} (h : st < 12) (n : Nat) : Reg.strandStat d st < Reg.frBase d n g := by
  unfold Reg.strandStat Reg.frBase regAddr
  omega

/-! #### The commands -/

section Control
variable {s : State} {d : Fin 4} {st : Fin 12}

/-- A hub core's write to a strand whose domain is ON, over clean links, is done there (R16, R442). -/
theorem State.toStrand {d st : Nat} (hl : s.linksClean = true) (hp : s.pdOn (pdStrand d st) = true) (k : State → State) :
    s.toDie d (fun t => t.onStrand d st k) = k s :=
  (s.toDie_clean d _ hl).trans (s.onStrand_on d st k hp)

theorem exec_strandEnable (hl : s.linksClean = true) (hp : s.pdOn (pdStrand d.val st.val) = true) (on : Bool) :
    exec (.strandEnable d st on) s = .next ((s.enableWrite d.val st.val on).done Code.ok) :=
  congrArg Host.Outcome.next (State.toStrand hl hp _)

theorem exec_strandDrain (hl : s.linksClean = true) (hp : s.pdOn (pdStrand d.val st.val) = true) :
    exec (.strandDrain d st) s = .next ((s.drainWrite d.val st.val).done Code.ok) :=
  congrArg Host.Outcome.next (State.toStrand hl hp _)

theorem exec_strandSreset (hl : s.linksClean = true) (hp : s.pdOn (pdStrand d.val st.val) = true) :
    exec (.strandSreset d st) s = .next ((s.sresetWrite d.val st.val).done Code.ok) :=
  congrArg Host.Outcome.next (State.toStrand hl hp _)

theorem exec_faultRecordClear {l : Loc} (hl : s.linksClean = true) (hp : s.pdOn (pdStrand l.d l.s) = true) :
    exec (.faultRecordClear l) s = .next ((s.clearRecord l).done Code.ok) :=
  congrArg Host.Outcome.next (State.toStrand hl hp _)

theorem State.enableWrite_ready {d st : Nat} (hs : s.sst d st = SS.ready) (hr : (s.strand (strandIx d st)).sreset = false) :
    s.enableWrite d st true = s.runStrand d st := by
  unfold State.enableWrite
  rw [if_pos ⟨hs, by rw [hr]; decide⟩, if_pos rfl]

theorem State.enableWrite_running {d st : Nat} (hs : s.sst d st = SS.running) (on : Bool) :
    s.enableWrite d st on = s.setFld (Reg.strandCtl d st) 31 31 (b2n on) := by
  have hready : ¬ s.sst d st = SS.ready := by rw [hs]; decide
  unfold State.enableWrite
  rw [if_neg fun h => hready h.1, if_pos hs]

/-- The strand as a write of SRESET leaves it while the reset runs (R96, R101). -/
theorem State.sresetWrite_acts {d st : Nat} {u : State}
    (hs : s.sst d st = SS.ready ∨ s.sst d st = SS.halted ∨ s.sst d st = SS.faulted)
    (hu : u = ((s.zeroStrand d st).clearCounts d st).setFld (Reg.strandCtl d st) 29 29 1) :
    s.sresetWrite d st = u.setStrand (strandIx d st) { u.strand (strandIx d st) with sreset := true } := by
  unfold State.sresetWrite
  rw [if_pos hs, hu]

@[simp] theorem State.strand_done (s : State) (c : Byte) (i : Nat) : (s.done c).strand i = s.strand i := rfl
@[simp] theorem State.fld_setStrand (s : State) (i : Nat) (x : Strand) (a hi lo : Nat) :
    (s.setStrand i x).fld a hi lo = s.fld a hi lo := rfl

/-- SRESET reads 1 while the reset runs, and every memory and key is as it was. -/
theorem State.sresetWrite_facts {d st : Nat} (hs : s.sst d st = SS.ready ∨ s.sst d st = SS.halted ∨ s.sst d st = SS.faulted) :
    (s.sresetWrite d st).fld (Reg.strandCtl d st) 29 29 = 1 ∧ ((s.sresetWrite d st).strand (strandIx d st)).sreset = true ∧
    (s.sresetWrite d st).mem = s.mem ∧ (s.sresetWrite d st).keys = s.keys := by
  obtain ⟨hzmem, hzkeys⟩ := s.zeroStrand_frame d st
  obtain ⟨hcmem, hckeys⟩ := (s.zeroStrand d st).clearCounts_frame d st
  rw [State.sresetWrite_acts hs rfl, State.fld_setStrand, State.fld_setFld_same _ _ _ _ _ (by decide) (by decide)]
  simp only [State.strand_setStrand_same, State.setStrand_mem, State.setStrand_keys, State.setFld_mem, State.setFld_keys,
    hcmem, hckeys, hzmem, hzkeys]
  decide

/-- A cleared fault record reads its reset values (R99). -/
theorem State.clearRecord_reg (s : State) (l : Loc) {a : Nat} (h0 : Reg.frBase l.d l.s l.g ≤ a)
    (h1 : a < Reg.frBase l.d l.s l.g + 0x20) : (s.clearRecord l).reg a = regReset a := by
  have hlt := strandStat_lt_frBase l.d l.g l.strand.isLt l.s
  have hne : a ≠ Reg.strandStat l.d l.s := by
    intro h
    subst h
    exact absurd hlt (Nat.not_lt.mpr h0)
  unfold State.clearRecord
  rw [State.reg_setFld_ne _ _ _ _ _ _ hne, State.reg_resetRegs, if_pos (decide_eq_true ⟨h0, h1⟩)]

end Control

end Sys2Proof.Machine

open Sys2Proof Sys2Proof.Machine

/-- Settles O19: each command reaches its strand and does there what its state allows. -/
theorem strandControl : Obligations.StrandControl := by
  unfold Obligations.StrandControl
  refine ⟨?enable, ?disable, ?drain, ?drained, ?sreset, ?sresetDone, ?record, fun s l q => rfl⟩
  case enable =>
    intro s d st hl hp hs hr
    rw [exec_strandEnable hl hp, State.enableWrite_ready hs hr]
    rfl
  case disable =>
    intro s d st hl hp hs
    rw [exec_strandEnable hl hp, State.enableWrite_running hs]
    rfl
  case drain =>
    intro s d st hl hp hs
    rw [exec_strandDrain hl hp, State.drainWrite, if_pos hs]
    rfl
  case drained =>
    intro s d st hs
    exact if_pos hs
  case sreset =>
    intro s d st hl hp hs
    exact ⟨_, _, exec_strandSreset hl hp, rfl, by rw [State.sresetWrite_acts hs rfl], State.sresetWrite_facts hs⟩
  case sresetDone =>
    intro s d st hs
    exact if_pos hs
  case record =>
    intro s l hl hp
    exact ⟨_, exec_faultRecordClear hl hp, fun a h0 h1 => s.clearRecord_reg l h0 h1,
      State.fld_setFld_same _ _ _ _ _ (Nat.le_refl _) (by have := l.stage.isLt; unfold Loc.g; omega), rfl, rfl, rfl⟩

end

/-! ### Channels and ingress queues (R74–R78, R81, R85, R442)

Each command by the state of its channel or its queue. -/

section
namespace Sys2Proof.Machine

section Channel
variable {s : State} {l : Loc} {t : Tile} {ts rest : List Tile}

/-- The stage before a stage that is not its strand's first is another stage. -/
theorem prevIx_ne (hg : l.g ≠ 0) : l.ix - 1 ≠ l.ix := by
  have hix : l.ix = (l.die.val * 12 + l.strand.val) * 8 + l.g := rfl
  omega

/-- The channel of the stage before gives its oldest tile (R74). -/
def State.tileLeft (s : State) (l : Loc) (ts : List Tile) : State :=
  s.setStage (l.ix - 1) { s.stage (l.ix - 1) with chan := ts }

/-- A good tile on the channel of a stage whose domain is ON arrives: a tile for an earlier stage faults the stage (R77). -/
theorem exec_tileArrive (hg : l.g ≠ 0) (hp : s.pdOn (pdStrand l.d l.s) = true)
    (hc : (s.stage (l.ix - 1)).chan = t :: ts) : exec (.tileArrive l false) s = .next (if t.dest.toNat < l.g
      then ((s.tileLeft l ts).setStage l.ix { (s.tileLeft l ts).stage l.ix with
        owed := ((s.tileLeft l ts).stage l.ix).owed + 1 }).stageFault l ⟨Code.formatError, Origin.inChan, 0, 0, false⟩
      else ((s.tileLeft l ts).setStage l.ix { (s.tileLeft l ts).stage l.ix with
        slots := ((s.tileLeft l ts).stage l.ix).slots ++ [t] }).done Code.ok) := by
  have ht : ({ t with dataErr := t.dataErr || false } : Tile) = t := by rw [Bool.or_false]
  show execTileArrive l false s = _
  unfold execTileArrive State.prevIx
  rw [if_neg hg, hc]
  simp only [s.onStrand_on _ _ _ hp, Bool.false_eq_true, if_false, ht]
  rfl

theorem exec_creditReturn (hg : l.g ≠ 0) (ho : (s.stage l.ix).owed ≠ 0) (hp : s.pdOn (pdStrand l.d l.s) = true) :
    exec (.creditReturn l) s = .next (((s.setStage l.ix { s.stage l.ix with owed := (s.stage l.ix).owed - 1 }).setStage
      (l.ix - 1) { s.stage (l.ix - 1) with credits := (s.stage (l.ix - 1)).credits + 1 }).done Code.ok) := by
  have hidle : ¬ ((s.stage l.ix).owed = 0 ∨ (l.g = 0 ∧ l.kind ≠ 2)) := by omega
  show execCreditReturn l s = _
  unfold execCreditReturn State.prevIx
  simp only [if_neg hidle, hp, not_true_eq_false, if_false, if_neg hg, State.stage_setStage_ne _ _ _ _ (prevIx_ne hg)]

/-- The oldest tile for a later stage leaves where a credit is held and the turn is its own (R77). -/
theorem exec_tileForward (hp : s.pdOn (pdStrand l.d l.s) = true)
    (ht : takeTile (fun x => l.g < x.dest.toNat) (s.stage l.ix).slots = some (t, rest)) (hc : (s.stage l.ix).credits ≠ 0)
    (hturn : (s.stage l.ix).fwdLast = false ∨ s.ownSend l = false) : exec (.tileForward l) s = .next ((s.setStage l.ix
      { s.stage l.ix with
        slots := rest, credits := (s.stage l.ix).credits - 1, chan := (s.stage l.ix).chan ++ [t]
        owed := (s.stage l.ix).owed + 1, fence := (s.stage l.ix).fence - 1, fwdLast := true }).done Code.ok) := by
  have hgo : ¬ ((s.stage l.ix).credits = 0 ∨ ((s.stage l.ix).fwdLast = true ∧ s.ownSend l = true)) := by
    rintro (h | ⟨h1, h2⟩)
    · exact hc h
    · rcases hturn with h | h
      · rw [h] at h1; cases h1
      · rw [h] at h2; cases h2
  show execTileForward l s = _
  unfold execTileForward
  simp only [hp, not_true_eq_false, if_false, ht, if_neg hgo]

end Channel

section Ingress
variable {s : State} {i : Fin 16}

theorem exec_iqPublish {p : Pkt} (h : (s.queue i.val).wr = some p) : exec (.iqPublish i) s = .next (((s.setQueue i.val
    { s.queue i.val with pkts := (s.queue i.val).pkts ++ [p], wr := none }).queueLevel i.val).done Code.ok) := by
  show execIqPublish i s = _
  unfold execIqPublish
  simp only [h]

theorem exec_iqZeroDone (h : (s.queue i.val).zeroing = true) : exec (.iqZeroDone i) s =
    .next ((s.setQueue i.val { PktQ.zero with ce := (s.queue i.val).ce }).done Code.ok) := if_pos h

/-- The writer of an ingress queue that is empty sees all of it free (R79, R85). -/
theorem State.queueFree_empty {q : Nat} (hq : q < 100) {n : Nat} (h : s.queue q = { PktQ.zero with ce := n }) :
    s.queueFree q = 8192 := by
  have hz : (s.queue q).zeroing = false := by rw [h]; rfl
  have hu : (s.queue q).wrUsed = 0 := by rw [h]; rfl
  unfold State.queueFree State.queueNow queueSize
  simp only [hz, if_pos hq, if_pos (Nat.lt_trans hq (by decide : 100 < 300)), hu]
  rfl

end Ingress

end Sys2Proof.Machine

open Sys2Proof Sys2Proof.Machine

/-- Settles O20: channels by the tile that arrives or leaves and the credit it takes, ingress queues by their packets. -/
theorem channelsAndIngress : Obligations.ChannelsAndIngress := by
  unfold Obligations.ChannelsAndIngress
  refine ⟨?arrives, ?refused, ?credit, fun s l t rest hp ht hc hturn => exec_tileForward hp ht hc hturn,
    fun s i p h => exec_iqPublish h, fun s i => rfl, ?zeroed⟩
  case arrives =>
    intro s l t ts hg hp hc hd
    rw [exec_tileArrive hg hp hc, if_neg (Nat.not_lt.mpr hd)]
    rfl
  case refused =>
    intro s l t ts hg hp hc hd
    rw [exec_tileArrive hg hp hc, if_pos hd]
    rfl
  case credit =>
    intro s l hg ho hp
    refine ⟨_, exec_creditReturn hg ho hp, ?_, ?_, rfl, rfl, rfl⟩
    · exact congrArg Stage.credits (State.stage_setStage_same _ _ _)
    · exact congrArg Stage.owed ((State.stage_setStage_ne _ _ _ _ (prevIx_ne hg).symm).trans (State.stage_setStage_same _ _ _))
  case zeroed =>
    intro s i h
    exact ⟨_, exec_iqZeroDone h, rfl, State.queueFree_empty (by omega) (State.queue_setQueue_same _ _ _)⟩

end

/-! ### Faults of a stage, handlers and HALT (R96, R98, R99, R108, R126–R128, R135)

What a fault record and an event record leave, then a fault by whether the stage's vector handles it. -/

section
namespace Sys2Proof.Machine

/-! #### Fields of a register word -/

/-- A field of a word as a number. -/
theorem bits_eq (v : Word) (hi lo : Nat) (h : lo ≤ hi) (h32 : hi < 32) :
    bits v hi lo = v.toNat / 2 ^ lo % 2 ^ (hi + 1 - lo) := by
  apply Nat.eq_of_testBit_eq
  intro i
  rw [bits_testBit v hi lo i h h32, Nat.testBit_mod_two_pow, Nat.testBit_div_two_pow, ← BitVec.getLsbD.eq_1, Nat.add_comm i lo]
  congr 1
  exact decide_eq_decide.mpr (by omega)

theorem State.reg_setReg64_ne (s : State) {a b : Nat} (v : Nat) (h : b ≠ a) (h4 : b ≠ a + 4) :
    (s.setReg64 a v).reg b = s.reg b := by
  unfold State.setReg64
  rw [State.reg_setReg_ne _ _ _ _ h4, State.reg_setReg_ne _ _ _ _ h]

/-! #### Changes of registers alone -/

/-- A state differs from s in its registers alone. -/
def State.regsOnly (s t : State) : Prop := ∃ r, t = { s with regs := r }

theorem State.regsOnly.trans {s t u : State} (h : s.regsOnly t) (h' : t.regsOnly u) : s.regsOnly u := by
  obtain ⟨r, rfl⟩ := h
  obtain ⟨r', rfl⟩ := h'
  exact ⟨r', rfl⟩

theorem State.regsOnly.stage {s t : State} (h : s.regsOnly t) (i : Nat) : t.stage i = s.stage i := by
  obtain ⟨r, rfl⟩ := h
  rfl
theorem State.regsOnly.mem {s t : State} (h : s.regsOnly t) : t.mem = s.mem := by
  obtain ⟨r, rfl⟩ := h
  rfl

theorem State.setReg_regsOnly (s : State) (a : Nat) (v : Word) : s.regsOnly (s.setReg a v) := ⟨_, rfl⟩
theorem State.setFld_regsOnly (s : State) (a hi lo x : Nat) : s.regsOnly (s.setFld a hi lo x) := ⟨_, rfl⟩
theorem State.setReg64_regsOnly (s : State) (a v : Nat) : s.regsOnly (s.setReg64 a v) :=
  (s.setReg_regsOnly a _).trans (State.setReg_regsOnly _ (a + 4) _)

/-- Offering an event record changes registers, the queues' SEQ and hub SRAM alone (R481). -/
theorem State.post_shape (s : State) (q : Nat) (e : Ev) :
    ∃ r x h, s.post q e = { s with regs := r, evSeq := x, hubMem := h } := by
  unfold State.post
  dsimp only
  split
  · obtain ⟨r, hr⟩ := (State.setFld_regsOnly { s with evSeq := _ } (Reg.evqStat q) 31 31 1).trans
      (State.setFld_regsOnly _ (Reg.evqDrop q) 31 0 _)
    exact ⟨r, _, s.hubMem, hr⟩
  · obtain ⟨r, hr⟩ := ((State.setFld_regsOnly (State.hubStore { s with evSeq := _ } _ _) (Reg.evqTail q) 11 0 _).trans
      (State.setFld_regsOnly _ (Reg.evqStat q) 11 0 _)).trans (State.setFld_regsOnly _ (Reg.evqStat q) 30 30 _)
    exact ⟨r, _, _, hr⟩

/-! #### The fault record (R98, R99) -/

section Record
variable {s : State} {l : Loc} {x : FaultInfo}

theorem strandStat_ne_frBase (l : Loc) : Reg.frBase l.d l.s l.g ≠ Reg.strandStat l.d l.s :=
  (strandStat_lt_frBase l.d l.g l.strand.isLt l.s).ne'

theorem strandStat_lt_evq (l : Loc) : Reg.strandStat l.d l.s < 0x3800000 := by
  have hd := l.die.isLt
  have hs := l.strand.isLt
  unfold Reg.strandStat Reg.cdPage regAddr Loc.d Loc.s
  omega

theorem frBase_lt_evq (l : Loc) : Reg.frBase l.d l.s l.g < 0x3800000 := by
  have hd := l.die.isLt
  have hs := l.strand.isLt
  have hg := l.stage.isLt
  unfold Reg.frBase Reg.cdPage regAddr Loc.d Loc.s Loc.g
  omega

theorem strandCtl_ne (l : Loc) : Reg.strandStat l.d l.s ≠ Reg.strandCtl l.d l.s ∧
    Reg.frBase l.d l.s l.g ≠ Reg.strandCtl l.d l.s := by
  unfold Reg.strandStat Reg.strandCtl Reg.frBase regAddr Loc.d Loc.s Loc.g
  omega

/-- The record alone: FR_STATUS with VALID, or MORE where one is held. -/
def State.writeRecord (s : State) (l : Loc) (f : FaultInfo) : State :=
  let x := s.stage l.ix
  let b := Reg.frBase l.d l.s l.g
  if s.fld b 31 31 = 1 then s.setFld b 30 30 1
  else
    ((((s.setReg b (BitVec.ofNat 32 (0x80000000 + f.code.toNat * 0x10000 + x.pc % 16384))).setReg64 (b + 4)
      (x.imem.get (fun _ => 0) x.pc).toNat).setReg (b + 0xC) (BitVec.ofNat 32 (f.treg * 2 ^ 27 + f.origin * 2 ^ 24))).setReg64
      (b + 0x10) (f.addr % 2 ^ 48)).setReg64 (b + 0x18) (s.stamp (0x10 + l.d))

theorem State.faultRecord_eq (s : State) (l : Loc) (x : FaultInfo) : s.faultRecord l x =
    ((s.writeRecord l x).setFld (Reg.strandStat l.d l.s) (16 + l.g) (16 + l.g) 1).setFld (Reg.strandStat l.d l.s) 7 0
      x.code.toNat := rfl

/-- VALID reads 1 however the record was written. -/
theorem State.writeRecord_valid (s : State) (l : Loc) (x : FaultInfo) :
    (s.writeRecord l x).fld (Reg.frBase l.d l.s l.g) 31 31 = 1 := by
  unfold State.writeRecord
  dsimp only
  split
  · next h => rw [State.fld_setFld_apart _ _ _ _ _ _ _ (by decide) (by decide) (by decide) (by decide) (by decide), h]
  · have hc := x.code.isLt
    unfold State.fld
    rw [State.reg_setReg64_ne _ _ (by omega) (by omega), State.reg_setReg64_ne _ _ (by omega) (by omega),
      State.reg_setReg_ne _ _ _ _ (by omega), State.reg_setReg64_ne _ _ (by omega) (by omega), State.reg_setReg_same,
      bits_eq _ _ _ (by decide) (by decide), BitVec.toNat_ofNat]
    omega

/-- The record is written to other registers than STRAND_STAT, and changes registers alone. -/
theorem State.writeRecord_frame (s : State) (l : Loc) (x : FaultInfo) :
    (s.writeRecord l x).reg (Reg.strandStat l.d l.s) = s.reg (Reg.strandStat l.d l.s) ∧
    s.regsOnly (s.writeRecord l x) := by
  have hlt := strandStat_lt_frBase l.d l.g l.strand.isLt l.s
  have hne : Reg.strandStat l.d l.s < Reg.frBase l.d l.s l.g := hlt
  unfold State.writeRecord
  dsimp only
  split
  · exact ⟨State.reg_setFld_ne _ _ _ _ _ _ (by omega), s.setFld_regsOnly _ _ _ _⟩
  · constructor
    · rw [State.reg_setReg64_ne _ _ (by omega) (by omega), State.reg_setReg64_ne _ _ (by omega) (by omega),
        State.reg_setReg_ne _ _ _ _ (by omega), State.reg_setReg64_ne _ _ (by omega) (by omega),
        State.reg_setReg_ne _ _ _ _ (by omega)]
    · exact ((((s.setReg_regsOnly _ _).trans (State.setReg64_regsOnly _ _ _)).trans (State.setReg_regsOnly _ _ _)).trans
        (State.setReg64_regsOnly _ _ _)).trans (State.setReg64_regsOnly _ _ _)

theorem State.faultRecord_regsOnly (s : State) (l : Loc) (x : FaultInfo) : s.regsOnly (s.faultRecord l x) :=
  ((s.writeRecord_frame l x).2.trans (State.setFld_regsOnly _ _ _ _ _)).trans (State.setFld_regsOnly _ _ _ _ _)

/-- A fault record sets VALID and LAST_CODE, and leaves the strand's state. -/
theorem State.faultRecord_regs (s : State) (l : Loc) (x : FaultInfo) :
    (s.faultRecord l x).fld (Reg.frBase l.d l.s l.g) 31 31 = 1 ∧
    (s.faultRecord l x).fld (Reg.strandStat l.d l.s) 7 0 = x.code.toNat ∧
    (s.faultRecord l x).fld (Reg.strandStat l.d l.s) 31 29 = s.fld (Reg.strandStat l.d l.s) 31 29 := by
  have hg : 16 + l.g < 24 := Nat.add_lt_add_left l.stage.isLt 16
  have hne := strandStat_ne_frBase l
  have hst : (s.writeRecord l x).fld (Reg.strandStat l.d l.s) 31 29 = s.fld (Reg.strandStat l.d l.s) 31 29 :=
    congrArg (fun v => bits v 31 29) (s.writeRecord_frame l x).1
  rw [State.faultRecord_eq]
  refine ⟨?_, ?_, ?_⟩
  · rw [State.fld_setFld_ne _ _ _ _ _ _ _ _ hne, State.fld_setFld_ne _ _ _ _ _ _ _ _ hne, State.writeRecord_valid]
  · rw [State.fld_setFld_same _ _ _ _ _ (by decide) (by decide)]
    exact Nat.mod_eq_of_lt x.code.isLt
  · rw [State.fld_setFld_apart _ _ _ _ _ _ _ (by decide) (by decide) (by decide) (by decide) (by decide),
      State.fld_setFld_apart _ _ _ _ _ _ _ (by decide) (by decide) (Nat.le_refl _) (by omega) (by omega), hst]

theorem State.noteModel_shape (s : State) (l : Loc) (x : FaultInfo) : ∃ c, s.noteModel l x = { s with ctxs := c } := by
  unfold State.noteModel
  dsimp only
  split
  · exact ⟨_, rfl⟩
  · exact ⟨s.ctxs, rfl⟩

/-- What a fault writes before the stage takes it: registers, and the context's note of a failed read. -/
theorem State.faultNoted_shape (s : State) (l : Loc) (x : FaultInfo) :
    ∃ c, (s.faultRecord l x).noteModel l x = { s with regs := (s.faultRecord l x).regs, ctxs := c } := by
  obtain ⟨r, hr⟩ := s.faultRecord_regsOnly l x
  obtain ⟨c, hc⟩ := (s.faultRecord l x).noteModel_shape l x
  exact ⟨c, by rw [hc, hr]⟩

/-! #### A fault that is taken (R98, R126–R128) -/

theorem State.stageFault_handled {h : Nat} (hh : (s.stage l.ix).handlerFor x = some h) : s.stageFault l x =
    (((s.faultRecord l x).noteModel l x).setStage l.ix { s.stage l.ix with
      handler := true, pc := h, epc := (s.stage l.ix).pc, wait := .none
      ecode := BitVec.ofNat 16 (x.treg * 2 ^ 11 + x.origin * 2 ^ 8 + x.code.toNat) }).done x.code := by
  unfold State.stageFault
  simp only [hh]

/-- A fault that no handler takes, of a code that aborts no round, halts the stage. -/
theorem State.stageFault_halts (hh : (s.stage l.ix).handlerFor x = none) (hk : x.code ≠ Code.keyRevoked)
    (hi : x.code ≠ Code.integrityFail) (ht : x.code ≠ Code.thermalHalt) :
    s.stageFault l x = (((s.faultRecord l x).noteModel l x).faultHalt l x).done x.code := by
  unfold State.stageFault State.roundStop
  simp only [hh, hk, hi, ht, or_self, false_and, if_false]

theorem State.stage_congr {s t : State} (h : t.stages = s.stages) (i : Nat) : t.stage i = s.stage i := by
  unfold State.stage
  rw [h]

/-- The stage and its strand as a fault halts them, before the event record. -/
def State.stopFaulted (s : State) (l : Loc) : State :=
  ((s.setStage l.ix { s.stage l.ix with run := .faulted, wait := .none }).endDrain l.d l.s).setSst l.d l.s SS.faulted

theorem State.stopFaulted_stage (s : State) (l : Loc) :
    (s.stopFaulted l).stage l.ix = { s.stage l.ix with run := .faulted, wait := .none } := by
  unfold State.stopFaulted State.endDrain
  rw [State.stage_congr (State.setSst_stages _ _ _ _), State.stage_congr (State.setFld_stages _ _ _ _ _),
    State.stage_setStage_same]

theorem State.stopFaulted_regs (s : State) (l : Loc) :
    (s.stopFaulted l).sst l.d l.s = SS.faulted ∧
    (s.stopFaulted l).fld (Reg.frBase l.d l.s l.g) 31 31 = s.fld (Reg.frBase l.d l.s l.g) 31 31 ∧
    (s.stopFaulted l).fld (Reg.strandStat l.d l.s) 7 0 = s.fld (Reg.strandStat l.d l.s) 7 0 := by
  have hne := strandStat_ne_frBase l
  obtain ⟨hctl, hfr⟩ := strandCtl_ne l
  unfold State.stopFaulted State.setSst State.endDrain
  refine ⟨State.fld_setFld_same _ _ _ _ _ (by decide) (by decide), ?_, ?_⟩
  · rw [State.fld_setFld_ne _ _ _ _ _ _ _ _ hne, State.fld_setFld_ne _ _ _ _ _ _ _ _ hfr]
    rfl
  · rw [State.fld_setFld_apart _ _ _ _ _ _ _ (by decide) (by decide) (by decide) (by decide) (by decide),
      State.fld_setFld_ne _ _ _ _ _ _ _ _ hctl]
    rfl

theorem State.fld_post (s : State) (q : Nat) (e : Ev) {a : Nat} (h : a < 0x3800000) (hi lo : Nat) :
    (s.post q e).fld a hi lo = s.fld a hi lo := congrArg (fun v => bits v hi lo) (State.post_reg s q e h)

theorem State.post_stage (s : State) (q : Nat) (e : Ev) (i : Nat) : (s.post q e).stage i = s.stage i := by
  obtain ⟨r, x, h, hp⟩ := s.post_shape q e
  rw [hp]
  rfl

/-- A stage that halts on a fault: the stage, the strand's state and what stays as it was (R98). -/
theorem State.faultHalt_facts (s : State) (l : Loc) (x : FaultInfo) :
    (s.faultHalt l x).stage l.ix = { s.stage l.ix with run := .faulted, wait := .none } ∧
    (s.faultHalt l x).sst l.d l.s = SS.faulted ∧
    (s.faultHalt l x).fld (Reg.frBase l.d l.s l.g) 31 31 = s.fld (Reg.frBase l.d l.s l.g) 31 31 ∧
    (s.faultHalt l x).fld (Reg.strandStat l.d l.s) 7 0 = s.fld (Reg.strandStat l.d l.s) 7 0 ∧
    (s.faultHalt l x).mem = s.mem := by
  obtain ⟨hsst, hvalid, hcode⟩ := s.stopFaulted_regs l
  have hh : s.faultHalt l x = (s.stopFaulted l).faultEvent l x := rfl
  rw [hh]
  unfold State.faultEvent State.sst
  simp only [State.fld_post _ _ _ (strandStat_lt_evq l), State.fld_post _ _ _ (frBase_lt_evq l), State.post_stage,
    (State.post_frame _ _ _).1]
  exact ⟨s.stopFaulted_stage l, hsst, hvalid, hcode, rfl⟩

/-! #### The return from a handler, and HALT (R96, R128) -/

theorem regReset_frBase (l : Loc) : regReset (Reg.frBase l.d l.s l.g) = 0 := by
  have hd := l.die.isLt
  have hs := l.strand.isLt
  have hg := l.stage.isLt
  have hp : Reg.frBase l.d l.s l.g / 0x10000 = 0x100 + 0x40 * l.d := by
    unfold Reg.frBase Reg.cdPage regAddr Loc.d Loc.s Loc.g
    omega
  have ho : Reg.frBase l.d l.s l.g % 0x10000 = 0x400 + 0x100 * l.s + 0x20 * l.g := by
    unfold Reg.frBase Reg.cdPage regAddr Loc.d Loc.s Loc.g
    omega
  have hq : (0x100 + 0x40 * l.d - 0x100) % 0x40 = 0 := by omega
  have h20 : (0x400 + 0x100 * l.s + 0x20 * l.g) % 0x20 = 0 := by omega
  have hi : infoCd 0 (0x400 + 0x100 * l.s + 0x20 * l.g) = some (.wc 0 0 0x80000000) := by
    unfold infoCd Loc.s Loc.g
    rw [if_neg (by omega), if_pos rfl, if_neg (by omega), if_neg (by omega), if_neg (by omega), if_neg (by omega),
      if_neg (by omega), if_neg (by omega), if_neg (by omega), if_pos (by omega), if_pos (by omega)]
  have hr : regInfo (Reg.frBase l.d l.s l.g) = infoCd 0 (0x400 + 0x100 * l.s + 0x20 * l.g) := by
    unfold regInfo
    simp only [hp, ho, hq]
    unfold Loc.d
    rw [if_neg (by omega), if_neg (by omega), if_neg (by omega), if_neg (by omega), if_neg (by omega), if_neg (by omega),
      if_neg (by omega), if_neg (by omega), if_neg (by omega), if_pos (by omega)]
  unfold regReset
  rw [hr, hi]
  rfl

/-- A return from a handler: VALID clears, and the stage goes on at pc (R128). -/
theorem State.handlerReturn_facts (s : State) (l : Loc) (pc : Nat) :
    (s.handlerReturn l pc).stage l.ix = { s.stage l.ix with handler := false, pc := pc, epc := 0, ecode := 0 } ∧
    (s.handlerReturn l pc).fld (Reg.frBase l.d l.s l.g) 31 31 = 0 ∧ (s.handlerReturn l pc).mem = s.mem := by
  have hb : (s.handlerReturn l pc).reg (Reg.frBase l.d l.s l.g) = 0 :=
    (s.clearRecord_reg l (Nat.le_refl _) (Nat.lt_add_of_pos_right (by decide))).trans (regReset_frBase l)
  refine ⟨State.stage_setStage_same _ l.ix _, ?_, rfl⟩
  unfold State.fld
  rw [hb]
  decide

end Record

/-! #### The checks at issue (R96, R108, R135) -/

section Issue
variable {s : State} {l : Loc} {opc : Nat} {f : Fields} {sh : Shape} {k : Stage → State}

theorem State.issue_idle (h : s.canIssue l = false) : s.issue l opc f sh k = s.done Code.ok := by
  unfold State.issue
  rw [if_pos (by rw [h]; decide)]
  rfl

/-- The stage takes the word at its PC, or faults. -/
theorem State.issue_fetches (h : s.canIssue l = true) (hpc : (s.stage l.ix).pc < (s.stage l.ix).codeWords) :
    s.issue l opc f sh k =
      if assignedOpc ((s.stage l.ix).fetch.toNat / 2 ^ 56) = false then s.stageFault l (.insn Code.formatError)
      else if (s.stage l.ix).fetch ≠ f.word opc then s.idle
      else if sh.ok l f then k (s.stage l.ix)
      else s.stageFault l (.insn Code.formatError) := by
  unfold State.issue
  simp only [h, not_true_eq_false, if_false, if_neg (Nat.not_le.mpr hpc), Bool.not_eq_true]

theorem State.issue_pastEnd (h : s.canIssue l = true) (hpc : (s.stage l.ix).codeWords ≤ (s.stage l.ix).pc) :
    s.issue l opc f sh k = s.stageFault l (.insn Code.formatError) := by
  unfold State.issue
  simp only [h, not_true_eq_false, if_false, if_pos hpc]

theorem State.issue_unpermitted (h : s.canIssue l = true) (hpc : (s.stage l.ix).pc < (s.stage l.ix).codeWords)
    (hw : (s.stage l.ix).fetch = f.word opc) (hsh : sh.ok l f = false) :
    s.issue l opc f sh k = s.stageFault l (.insn Code.formatError) := by
  have hne : ¬ (s.stage l.ix).fetch ≠ f.word opc := fun hx => hx hw
  have hno : ¬ sh.ok l f = true := by rw [hsh]; decide
  rw [State.issue_fetches h hpc, if_neg hne, if_neg hno]
  exact ite_self _

end Issue

section Instructions
variable {s : State} {l : Loc} {f : Fields}

theorem exec_trap (h : s.issues l 0xE6 f { stages := St.all, imm := 0xFF }) : exec (.trap l f) s =
    .next (if f.i = 0 ∨ ¬ listedCode f.i then s.insnFault l Code.formatError
      else s.stageFault l ⟨BitVec.ofNat 8 f.i, Origin.insn, 0, 0, true⟩) :=
  congrArg Host.Outcome.next (State.issue_eq s l 0xE6 f _ _ h (by decide) (by decide))

/-- A taken BR to one of the two return targets, in handler mode, returns (R128). -/
theorem exec_br_returns (h : s.issues l 0xE1 f { stages := St.all, sa := .br, imm := 0xFFFFFF })
    (hi : f.i = 0xFFFFFF ∨ f.i = 0xFFFFFE) (hh : (s.stage l.ix).handler = true) (ht : (s.stage l.ix).taken f = true) :
    exec (.br l f) s = .next ((s.handlerReturn l
      (if f.i = 0xFFFFFF then (s.stage l.ix).epc + 1 else (s.stage l.ix).epc)).done Code.ok) := by
  refine congrArg Host.Outcome.next ((State.issue_eq s l 0xE1 f _ _ h (by decide) (by decide)).trans ?_)
  simp only [if_pos hi, hh, not_true_eq_false, if_false, ht, if_true]

/-- A stage that halts outside handler mode. -/
def State.stageHalted (s : State) (l : Loc) : State := s.setStage l.ix { s.stage l.ix with run := .halted }

/-- With its last stage the strand is HALTED, which ends a drain (R94, R96). -/
def State.strandHalts (s : State) (d st : Nat) : State :=
  if s.allHalted d st then (s.setSst d st SS.halted).endDrain d st else s

theorem exec_halt (h : s.issues l 0xE7 f { stages := St.all }) (hh : (s.stage l.ix).handler = false) :
    exec (.halt l f) s = .next (((s.stageHalted l).strandHalts l.d l.s).done Code.ok) :=
  congrArg Host.Outcome.next ((State.issue_eq s l 0xE7 f _ _ h (by decide) (by decide)).trans
    (if_neg (by rw [hh]; decide)))

theorem State.strandHalts_regsOnly (s : State) (d st : Nat) : s.regsOnly (s.strandHalts d st) := by
  unfold State.strandHalts
  split
  · exact (State.setFld_regsOnly _ _ _ _ _).trans (State.setFld_regsOnly _ _ _ _ _)
  · exact ⟨s.regs, rfl⟩

theorem State.strandHalts_sst (s : State) (d st : Nat) :
    (s.strandHalts d st).sst d st = if s.allHalted d st then SS.halted else s.sst d st := by
  have hne : Reg.strandStat d st ≠ Reg.strandCtl d st := by
    unfold Reg.strandStat Reg.strandCtl regAddr
    omega
  unfold State.strandHalts
  split
  · unfold State.endDrain State.setSst State.sst
    rw [State.fld_setFld_ne _ _ _ _ _ _ _ _ hne, State.fld_setFld_same _ _ _ _ _ (by decide) (by decide)]
    rfl
  · rfl

/-- The fault that HALT in handler mode repeats: that of SR_ECODE and the record (R128). -/
def State.handlerFault (s : State) (l : Loc) : FaultInfo :=
  let e := (s.stage l.ix).ecode.toNat
  ⟨BitVec.ofNat 8 e, e / 2 ^ 8 % 8, e / 2 ^ 11, s.reg64 (Reg.frBase l.d l.s l.g + 0x10), false⟩

/-- The stage back at SR_EPC, outside handler mode. -/
def State.stageAtEpc (s : State) (l : Loc) : State :=
  s.setStage l.ix { s.stage l.ix with pc := (s.stage l.ix).epc, handler := false }

/-- In handler mode HALT is an unhandled fault at SR_EPC (R128). -/
theorem exec_halt_handler (h : s.issues l 0xE7 f { stages := St.all }) (hh : (s.stage l.ix).handler = true) :
    exec (.halt l f) s = .next (((s.stageAtEpc l).faultHalt l (s.handlerFault l)).done Code.ok) :=
  congrArg Host.Outcome.next ((State.issue_eq s l 0xE7 f _ _ h (by decide) (by decide)).trans (if_pos hh))

@[simp] theorem State.stage_done (s : State) (c : Byte) (i : Nat) : (s.done c).stage i = s.stage i := rfl
@[simp] theorem State.sst_done (s : State) (c : Byte) (d st : Nat) : (s.done c).sst d st = s.sst d st := rfl

end Instructions

end Sys2Proof.Machine

open Sys2Proof Sys2Proof.Machine

/-- Settles O34: a fault by its handler, BR and HALT by handler mode, and the checks at issue in their order. -/
theorem stageFaults : Obligations.StageFaults := by
  unfold Obligations.StageFaults
  refine ⟨?trap, ?trapRefused, ?handled, ?unhandled, ?returns, ?halt, ?haltHandler, ?issue⟩
  case trap =>
    intro s l f h h0 hl
    rw [exec_trap h, if_neg (by rw [hl]; exact fun hx => hx.elim h0 (fun hn => hn rfl))]
  case trapRefused =>
    intro s l f h hb
    rw [exec_trap h, if_pos (hb.imp id (fun hl => by rw [hl]; decide))]
    rfl
  case handled =>
    intro s l x h hh
    obtain ⟨hvalid, hcode, hsst⟩ := s.faultRecord_regs l x
    obtain ⟨c, hc⟩ := s.faultNoted_shape l x
    rw [State.stageFault_handled hh, hc]
    exact ⟨State.stage_setStage_same _ l.ix _, hsst, hvalid, hcode, rfl, rfl⟩
  case unhandled =>
    intro s l x hh hk hi ht
    obtain ⟨hvalid, hcode, -⟩ := s.faultRecord_regs l x
    obtain ⟨c, hc⟩ := s.faultNoted_shape l x
    obtain ⟨hstage, hsst, hvalid', hcode', hmem⟩ := ((s.faultRecord l x).noteModel l x).faultHalt_facts l x
    rw [State.stageFault_halts hh hk hi ht]
    rw [hc] at hstage hsst hvalid' hcode' hmem ⊢
    exact ⟨hstage, hsst, hvalid'.trans hvalid, hcode'.trans hcode, hmem, rfl⟩
  case returns =>
    intro s l f h hi hh ht
    obtain ⟨hstage, hvalid, hmem⟩ := s.handlerReturn_facts l
      (if f.i = 0xFFFFFF then (s.stage l.ix).epc + 1 else (s.stage l.ix).epc)
    exact ⟨_, exec_br_returns h hi hh ht, hstage, hvalid, hmem⟩
  case halt =>
    intro s l f h hh
    have hregs := (s.stageHalted l).strandHalts_regsOnly l.d l.s
    refine ⟨_, exec_halt h hh, ?_, ?_, (s.stageHalted l).strandHalts_sst l.d l.s, rfl⟩
    · rw [State.stage_done, hregs.stage]
      exact State.stage_setStage_same s l.ix _
    · rw [State.done_mem, hregs.mem]
      rfl
  case haltHandler =>
    intro s l f h hh
    obtain ⟨hstage, hsst, -, -, hmem⟩ := (s.stageAtEpc l).faultHalt_facts l (s.handlerFault l)
    refine ⟨_, exec_halt_handler h hh, ?_⟩
    rw [State.stage_done, State.sst_done, hstage]
    refine ⟨rfl, hsst, ?_, hmem⟩
    exact congrArg Stage.pc (State.stage_setStage_same s l.ix _)
  case issue =>
    intro s l opc f sh k
    refine ⟨State.issue_idle, State.issue_pastEnd, fun h hpc ha => ?_,
      fun h hpc hw hsh => State.issue_unpermitted h hpc hw hsh⟩
    rw [State.issue_fetches h hpc, if_pos ha]

end

/-! ### Float arithmetic (R88–R91, R158, R263–R265)

The two instructions leave what their element functions give; then the patterns of FP32, and rounding where it is exact. -/

section
namespace Sys2Proof.Machine

/-! #### Tiles of FP32 elements -/

/-- The two halves of a 64-bit word. -/
theorem low_half (a b : Word) : ((a ++ b) >>> (32 * 0)).setWidth 32 = b := by
  ext j hj
  rw [BitVec.getElem_setWidth, BitVec.getLsbD_ushiftRight, BitVec.getLsbD_append, if_pos (by omega), Nat.mul_zero,
    Nat.zero_add, BitVec.getLsbD_eq_getElem]

theorem high_half (a b : Word) : ((a ++ b) >>> (32 * 1)).setWidth 32 = a := by
  ext j hj
  rw [BitVec.getElem_setWidth, BitVec.getLsbD_ushiftRight, BitVec.getLsbD_append, if_neg (by omega), Nat.mul_one,
    Nat.add_sub_cancel_left, BitVec.getLsbD_eq_getElem]

/-- Element i of a tile made of 32-bit elements. -/
theorem Tile.h_halvesOf (t : Tile) (n : Nat) (v : Nat → Word) {i : Nat} (h : i / 2 < n / 2) :
    ({ t with words := halvesOf n v } : Tile).h i = v i := by
  have hw : ({ t with words := halvesOf n v } : Tile).w (i / 2) = v (2 * (i / 2) + 1) ++ v (2 * (i / 2)) :=
    Tile.w_wordsOf t (n / 2) (fun i => v (2 * i + 1) ++ v (2 * i)) (i / 2) h
  unfold Tile.h
  rw [hw]
  rcases Nat.mod_two_eq_zero_or_one i with hi | hi
  · have he : 2 * (i / 2) = i := by omega
    rw [hi, he]
    exact low_half _ _
  · have he : 2 * (i / 2) + 1 = i := by omega
    rw [hi, he]
    exact high_half _ _

theorem Tile.h_f32Words (t : Tile) (v : Nat → Nat) {i : Nat} (h : i < 4096) :
    (({ t with words := f32Words v } : Tile).h i).toNat = v i % 2 ^ 32 := by
  unfold f32Words
  rw [Tile.h_halvesOf t 4096 _ (by omega), BitVec.toNat_ofNat]

/-! #### FMA.F32 and CVT -/

section Instructions
variable {s : State} {l : Loc} {f : Fields} {t : Tile} {y : Stage}

theorem State.fsatRefresh_regsOnly (s : State) (l : Loc) : s.regsOnly (s.fsatRefresh l) := State.setFld_regsOnly _ _ _ _ _

/-- What FMA.F32 gives for element i (R88, R158). -/
def State.fmaElem (s : State) (l : Loc) (f : Fields) (t : Tile) (y : Stage) (i : Nat) : FmaOut :=
  fma f.rnd (s.guarded l) (t.h i).toNat
    (if f.imf 0 0 = 1 then (y.sr f.b).toNat % 2 ^ 32 else ((y.tr f.b).h i).toNat) ((y.tr f.c).h i).toNat

/-- The stage with the products in T[DST] and the flags raised. -/
def State.fmaStage (s : State) (l : Loc) (f : Fields) (t : Tile) (y : Stage) : Stage :=
  (y.setT f.d { t with words := f32Words (fun i => (s.fmaElem l f t y i).pat) }).raiseFlags f.d
    (anyFlag (fun i => (s.fmaElem l f t y i).sat)) (anyFlag (fun i => (s.fmaElem l f t y i).nan))

theorem exec_fmaF32 (h : s.issues l 0xA0 f
      { stages := [St.fmaA, St.fmaB], dst := .t, sa := .t, sb := f.bFile, sc := .t, rnd := true, hints := [0, 2], imm := 1 })
    (hr : (s.stage l.ix).readable (f.c :: f.bRegs)) (hs : (s.stage l.ix).source l f = some (t, y)) :
    exec (.fmaF32 l f) s = .next ((s.retire l (s.fmaStage l f t y)).fsatRefresh l) :=
  congrArg Host.Outcome.next ((State.issue_eq s l 0xA0 f _ _ h (by decide) (by decide)).trans
    (s.operands_eq l f _ _ _ _ t y hr hs _))

/-- Raising flags and retiring leave the tile registers. -/
theorem State.fmaStage_tr (s : State) (l : Loc) (f : Fields) (t : Tile) (y : Stage) (r : Nat) :
    (((s.retire l (s.fmaStage l f t y)).fsatRefresh l).stage l.ix).tr r =
      (y.setT f.d { t with words := f32Words (fun i => (s.fmaElem l f t y i).pat) }).tr r := by
  rw [(State.fsatRefresh_regsOnly _ l).stage, State.retire_stage]
  rfl

/-- What CVT's entry permits (R158). -/
def cvtShape : Shape :=
  { stages := [St.convert, St.round], dst := .t, sa := .t, fmt := true, rnd := true, hints := [0, 2] }

theorem exec_cvt (h : s.issues l 0xA1 f cvtShape) (hs : (s.stage l.ix).source l f = some (t, y)) :
    exec (.cvt l f) s = .next (if l.name = St.convert then s.retire l (y.setT f.d (cvtIn f.fmt t)) else
      (s.retire l ((y.setT f.d (cvtOut f.fmt f.rnd (s.guarded l) t)).raiseFlags f.d
        (cvtFlags f.fmt f.rnd (s.guarded l) t).1 (cvtFlags f.fmt f.rnd (s.guarded l) t).2)).fsatRefresh l) :=
  congrArg Host.Outcome.next ((State.issue_eq s l 0xA1 f _ _ h (by decide) (by decide)).trans
    (s.operands_eq l f _ [] _ _ t y (fun r hr => absurd hr (List.not_mem_nil)) hs _))

end Instructions

/-! #### FP32 patterns (R263) -/

/-- The sign, exponent field and fraction of an FP32 pattern. -/
theorem f32_decode (v : Nat) : f32.decode v =
    if v / 8388608 % 256 = 255 ∧ v % 8388608 ≠ 0 then .nan
    else if v / 8388608 % 256 = 255 then .inf (decide (v / 2147483648 % 2 = 1))
    else if v / 8388608 % 256 = 0 then .fin (decide (v / 2147483648 % 2 = 1)) (v % 8388608) (-149)
    else .fin (decide (v / 2147483648 % 2 = 1)) (8388608 + v % 8388608) ((v / 8388608 % 256 : Nat) - 150) := by
  have he : ∀ x : Int, x - 127 - 23 = x - 150 := fun x => by omega
  simp [Fmt.decode, f32, fmtOf, he]

theorem f32_sign (neg : Bool) : f32.sign neg = if neg then 2147483648 else 0 := by cases neg <;> rfl

/-- The fields of a pattern put together from its sign, exponent and fraction. -/
theorem f32_fields (neg : Bool) {x r : Nat} (hx : x < 256) (hr : r < 8388608) :
    (f32.sign neg + (x * 8388608 + r)) / 8388608 % 256 = x ∧ (f32.sign neg + (x * 8388608 + r)) % 8388608 = r ∧
    decide ((f32.sign neg + (x * 8388608 + r)) / 2147483648 % 2 = 1) = neg := by
  rw [f32_sign]
  cases neg
  · refine ⟨by simp only [Bool.false_eq_true, if_false]; omega, by simp only [Bool.false_eq_true, if_false]; omega, ?_⟩
    exact decide_eq_false (by simp only [Bool.false_eq_true, if_false]; omega)
  · refine ⟨by simp only [if_true]; omega, by simp only [if_true]; omega, ?_⟩
    exact decide_eq_true (by simp only [if_true]; omega)

/-- A normal FP32 pattern. -/
theorem f32_decode_normal (neg : Bool) {x r : Nat} (h0 : 0 < x) (h1 : x < 255) (hr : r < 8388608) :
    f32.decode (f32.sign neg + (x * 8388608 + r)) = .fin neg (8388608 + r) ((x : Int) - 150) := by
  obtain ⟨hx, hm, hs⟩ := f32_fields neg (Nat.lt_succ_of_lt h1) hr
  rw [f32_decode, hx, hm, hs, if_neg (fun h => by omega), if_neg (by omega), if_neg (by omega)]

/-- A subnormal FP32 pattern, or a zero. -/
theorem f32_decode_subnormal (neg : Bool) {r : Nat} (hr : r < 8388608) :
    f32.decode (f32.sign neg + r) = .fin neg r (-149) := by
  obtain ⟨hx, hm, hs⟩ := f32_fields neg (x := 0) (by decide) hr
  rw [Nat.zero_mul, Nat.zero_add] at hx hm hs
  rw [f32_decode, hx, hm, hs, if_neg (fun h => by omega), if_neg (by decide), if_pos rfl]

/-! #### Rounding to FP32 (R265) -/

theorem bitLen_zero (n : Nat) : bitLen n 0 = 0 := by cases n <;> rfl

/-- The number of bits of a number. -/
theorem bitLen_spec (n : Nat) : ∀ m, m ≠ 0 → m < 2 ^ n →
    ∃ k, bitLen n m = k + 1 ∧ 2 ^ k ≤ m ∧ m < 2 ^ (k + 1) := by
  induction n with
  | zero => intro m h0 h; omega
  | succ n ih =>
    intro m h0 h
    by_cases h2 : m / 2 = 0
    · refine ⟨0, ?_, by omega, by omega⟩
      rw [bitLen, if_neg h0, h2, bitLen_zero]
    · obtain ⟨k, hk, hlo, hhi⟩ := ih (m / 2) h2 (by rw [Nat.pow_succ] at h; omega)
      refine ⟨k + 1, ?_, by rw [Nat.pow_succ]; omega, by rw [Nat.pow_succ]; omega⟩
      rw [bitLen, if_neg h0, hk, Nat.add_comm]

/-- The number of bits of a value, by its leading bit. -/
theorem bitLen_eq {n m k : Nat} (hlo : 2 ^ k ≤ m) (hhi : m < 2 ^ (k + 1)) (hk : k < n) : bitLen n m = k + 1 := by
  have h0 : m ≠ 0 := by have := Nat.two_pow_pos k; omega
  obtain ⟨j, hj, hjlo, hjhi⟩ := bitLen_spec n m h0 (Nat.lt_of_lt_of_le hhi (Nat.pow_le_pow_right (by decide) hk))
  have h1 : k < j + 1 := (Nat.pow_lt_pow_iff_right (by decide)).mp (Nat.lt_of_le_of_lt hlo hjhi)
  have h2 : j < k + 1 := (Nat.pow_lt_pow_iff_right (by decide)).mp (Nat.lt_of_le_of_lt hjlo hhi)
  rw [hj, Nat.le_antisymm (Nat.le_of_lt_succ h2) (Nat.le_of_lt_succ h1)]

section Round
variable {m k : Nat} {e : Int} {rnd : Nat} {neg guarded : Bool}

/-- The magnitude pattern of r × 2 ^ q, of a rounded significand r. -/
def f32Mag (q : Int) (r : Nat) : Nat := if r < 8388608 then r else (q + 150).toNat * 8388608 + (r - 8388608)

/-- A value whose bits FP32 holds is not rounded; q is the weight of its last bit in FP32. -/
theorem f32_round_exact {q : Int} (hlo : 2 ^ k ≤ m) (hhi : m < 2 ^ (k + 1)) (hk : k ≤ 23)
    (hq : (if e + k < -126 then -126 else e + k) - 23 = q) (hle : q ≤ e) (hr : m * 2 ^ (e - q).toNat < 16777216)
    (hmag : f32Mag q (m * 2 ^ (e - q).toNat) ≤ 2139095039) :
    (f32.round rnd neg guarded m e).pat = f32.sign neg + f32Mag q (m * 2 ^ (e - q).toNat) := by
  have h0 : m ≠ 0 := by have := Nat.two_pow_pos k; omega
  have hfb : f32.fb = 23 := rfl
  have hbias : f32.bias = 127 := rfl
  have hmax : f32.maxMag = 2139095039 := by decide
  have htop : e + ((k + 1 : Nat) : Int) - 1 = e + k := by omega
  have hmin : (1 : Int) - 127 = -126 := by decide
  have hshift : (q - e).natAbs = (e - q).toNat := by omega
  have hneg : q - e ≤ 0 := by omega
  have hcarry : ¬ m * 2 ^ (e - q).toNat = 2 ^ (23 + 1) := Nat.ne_of_lt hr
  have hpat : (if m * 2 ^ (e - q).toNat < 2 ^ 23 then m * 2 ^ (e - q).toNat else
      (q + 23 + 127).toNat * 2 ^ 23 + (m * 2 ^ (e - q).toNat - 2 ^ 23)) =
      f32Mag q (m * 2 ^ (e - q).toNat) := by
    have h150 : q + 23 + 127 = q + 150 := by omega
    rw [h150]
    rfl
  unfold Fmt.round
  rw [if_neg h0, bitLen_eq hlo hhi (by omega)]
  simp only [hfb, hbias, htop, hmin, Nat.cast_ofNat, hq, if_pos hneg, hshift, if_neg hcarry, hpat, hmax,
    if_neg (Nat.not_lt.mpr hmag)]

/-- A value that FP32 holds exactly becomes a pattern of that value (R264). -/
theorem f32_round_value {n : Nat} (hm : m < 2 ^ n) (hn : n ≤ 24) (h0 : -149 ≤ e) (h1 : e + n ≤ 128) :
    ∃ m' e', f32.decode (f32.round rnd neg guarded m e).pat = .fin neg m' e' ∧
      (m : Int) * 2 ^ (e + 200).toNat = (m' : Int) * 2 ^ (e' + 200).toNat := by
  by_cases hz : m = 0
  · have hpat : (f32.round rnd neg guarded m e).pat = f32.sign neg + 0 := by
      unfold Fmt.round
      rw [if_pos hz, Nat.add_zero]
    rw [hpat, hz]
    exact ⟨0, -149, f32_decode_subnormal neg (by decide), by simp⟩
  obtain ⟨k, -, hlo, hhi⟩ := bitLen_spec n m hz hm
  have hkn : k < n := (Nat.pow_lt_pow_iff_right (by decide)).mp (Nat.lt_of_le_of_lt hlo hm)
  by_cases hsub : e + k < -126
  · have hr : m * 2 ^ (e - -149).toNat < 8388608 := by
      calc m * 2 ^ (e - -149).toNat < 2 ^ (k + 1) * 2 ^ (e - -149).toNat := Nat.mul_lt_mul_of_pos_right hhi (Nat.two_pow_pos _)
        _ = 2 ^ (k + 1 + (e - -149).toNat) := (Nat.pow_add _ _ _).symm
        _ ≤ 2 ^ 23 := Nat.pow_le_pow_right (by decide) (by omega)
    have hmag : f32Mag (-149) (m * 2 ^ (e - -149).toNat) = m * 2 ^ (e - -149).toNat := if_pos hr
    have hpat := f32_round_exact (rnd := rnd) (neg := neg) (guarded := guarded) (q := -149) hlo hhi (by omega)
      (by rw [if_pos hsub]; decide) h0 (Nat.lt_trans hr (by decide)) (by rw [hmag]; omega)
    rw [hpat, hmag]
    refine ⟨_, _, f32_decode_subnormal neg hr, ?_⟩
    have hexp : (e + 200).toNat = (e - -149).toNat + ((-149 : Int) + 200).toNat := by omega
    rw [hexp]
    push_cast
    ring
  · have hq : (e - (e + k - 23)).toNat = 23 - k := by omega
    have hr0 : 8388608 ≤ m * 2 ^ (23 - k) := by
      calc 2 ^ 23 = 2 ^ (k + (23 - k)) := by congr 1; omega
        _ = 2 ^ k * 2 ^ (23 - k) := Nat.pow_add _ _ _
        _ ≤ m * 2 ^ (23 - k) := Nat.mul_le_mul_right _ hlo
    have hr1 : m * 2 ^ (23 - k) < 16777216 := by
      calc m * 2 ^ (23 - k) < 2 ^ (k + 1) * 2 ^ (23 - k) := Nat.mul_lt_mul_of_pos_right hhi (Nat.two_pow_pos _)
        _ = 2 ^ (k + 1 + (23 - k)) := (Nat.pow_add _ _ _).symm
        _ = 2 ^ 24 := by congr 1; omega
    have hx : (e + k - 23 + 150).toNat = (e + k + 127).toNat := by omega
    have hmag : f32Mag (e + k - 23) (m * 2 ^ (23 - k)) =
        (e + k + 127).toNat * 8388608 + (m * 2 ^ (23 - k) - 8388608) := by
      unfold f32Mag
      rw [if_neg (Nat.not_lt.mpr hr0), hx]
    have hpat := f32_round_exact (rnd := rnd) (neg := neg) (guarded := guarded) (q := e + k - 23) hlo hhi (by omega)
      (by rw [if_neg hsub]) (by omega) (by rw [hq]; exact hr1) (by rw [hq, hmag]; omega)
    rw [hpat, hq, hmag]
    refine ⟨_, _, f32_decode_normal neg (by omega) (by omega) (by omega), ?_⟩
    have hexp : (e + 200).toNat = (23 - k) + (((e + k + 127).toNat : Int) - 150 + 200).toNat := by omega
    have hsig : 8388608 + (m * 2 ^ (23 - k) - 8388608) = m * 2 ^ (23 - k) := by omega
    rw [hexp, hsig]
    push_cast
    ring

theorem f32_overflow_lt (rnd : Nat) (neg guarded : Bool) : (f32.overflow rnd neg guarded).pat < 2 ^ 32 := by
  unfold Fmt.overflow
  split
  · cases neg <;> exact of_decide_eq_true rfl
  · split
    · cases neg <;> exact of_decide_eq_true rfl
    · cases neg <;> exact of_decide_eq_true rfl

/-- However it is rounded, an FP32 pattern has 32 bits. -/
theorem f32_round_lt (rnd : Nat) (neg guarded : Bool) (m : Nat) (e : Int) : (f32.round rnd neg guarded m e).pat < 2 ^ 32 := by
  have hsign : f32.sign neg ≤ 2147483648 := by cases neg <;> decide
  have hmax : f32.maxMag = 2139095039 := by decide
  have hpick : ∀ mag,
      (if f32.maxMag < mag then f32.overflow rnd neg guarded else ⟨f32.sign neg + mag, false⟩ : Rounded).pat < 2 ^ 32 := fun mag => by
    split
    · exact f32_overflow_lt rnd neg guarded
    · show f32.sign neg + mag < 2 ^ 32
      omega
  by_cases hm : m = 0
  · unfold Fmt.round
    rw [if_pos hm]
    show f32.sign neg < 2 ^ 32
    omega
  · unfold Fmt.round
    rw [if_neg hm]
    exact hpick _

end Round

/-! #### Exact conversion (R264) -/

/-- The significand and the exponent of a finite pattern, by its format's fields. -/
theorem Fmt.decode_fin {F : Fmt} {v m : Nat} {neg : Bool} {e : Int} (heb : 2 ≤ F.eb) (h : F.decode v = .fin neg m e) :
    m < 2 ^ (F.fb + 1) ∧ 1 - (F.bias : Int) - F.fb ≤ e ∧
    e + F.bias + F.fb < (2 ^ F.eb : Nat) - (if F.e4m3 then 0 else 1 : Int) := by
  have hx : v / 2 ^ F.fb % 2 ^ F.eb < 2 ^ F.eb := Nat.mod_lt _ (Nat.two_pow_pos _)
  have hm : v % 2 ^ F.fb < 2 ^ F.fb := Nat.mod_lt _ (Nat.two_pow_pos _)
  have hfour : 2 ^ 2 ≤ 2 ^ F.eb := Nat.pow_le_pow_right (by decide) heb
  unfold Fmt.decode at h
  dsimp only at h
  rw [Nat.pow_succ]
  generalize v / 2 ^ F.fb % 2 ^ F.eb = x at h hx
  generalize v % 2 ^ F.fb = r at h hm
  generalize 2 ^ F.eb = n at h hx hfour ⊢
  generalize 2 ^ F.fb = c at h hm ⊢
  by_cases hnan : x = n - 1 ∧ (if F.e4m3 = true then r = c - 1 else r ≠ 0)
  · rw [if_pos hnan] at h
    cases h
  by_cases hinf : x = n - 1 ∧ F.e4m3 = false
  · rw [if_neg hnan, if_pos hinf] at h
    cases h
  have htop : (x : Int) < n - (if F.e4m3 then 0 else 1 : Int) := by
    cases hf : F.e4m3
    · have hne : x ≠ n - 1 := fun he => hinf ⟨he, hf⟩
      simp only [Bool.false_eq_true, if_false]
      omega
    · simp only [if_true]
      omega
  have hone : (1 : Int) < n - (if F.e4m3 then 0 else 1 : Int) := by split <;> omega
  rw [if_neg hnan, if_neg hinf] at h
  split at h
  · obtain ⟨-, rfl, rfl⟩ := Fp.fin.inj h
    exact ⟨by omega, Int.le_refl _, by omega⟩
  · obtain ⟨-, rfl, rfl⟩ := Fp.fin.inj h
    exact ⟨by omega, by omega, by omega⟩

/-- The values of formats 1 to 4 lie within FP32's fraction and range. -/
theorem fmtOf_range {fmt : Nat} (h1 : 1 ≤ fmt) (h4 : fmt ≤ 4) : 2 ≤ (fmtOf fmt).eb ∧
    ∀ e : Int, 1 - ((fmtOf fmt).bias : Int) - (fmtOf fmt).fb ≤ e →
      e + (fmtOf fmt).bias + (fmtOf fmt).fb < (2 ^ (fmtOf fmt).eb : Nat) - (if (fmtOf fmt).e4m3 then 0 else 1 : Int) →
      (fmtOf fmt).fb + 1 ≤ 24 ∧ -149 ≤ e ∧ e + ((fmtOf fmt).fb + 1 : Nat) ≤ 128 := by
  interval_cases fmt
  all_goals
    refine ⟨by decide, fun e hlo hhi => ?_⟩
    simp [fmtOf] at hlo hhi ⊢
    omega

/-- A finite pattern of formats 1 to 4 converts to a pattern of the same number. -/
theorem toF32_value {fmt v m : Nat} {neg : Bool} {e : Int} (h1 : 1 ≤ fmt) (h4 : fmt ≤ 4)
    (h : (fmtOf fmt).decode v = .fin neg m e) : ∃ m' e', f32.decode (toF32 fmt v) = .fin neg m' e' ∧
      (m : Int) * 2 ^ (e + 200).toNat = (m' : Int) * 2 ^ (e' + 200).toNat := by
  obtain ⟨heb, hF⟩ := fmtOf_range h1 h4
  obtain ⟨hm, hlo, hhi⟩ := Fmt.decode_fin heb h
  obtain ⟨hn, h0, htop⟩ := hF e hlo hhi
  have h5 : fmt ≠ 5 := by omega
  have hto : toF32 fmt v = (f32.round 0 neg false m e).pat := by
    unfold toF32
    rw [if_neg h5, h]
  rw [hto]
  exact f32_round_value hm hn h0 htop

/-- Every pattern converts to a pattern of 32 bits. -/
theorem toF32_lt (fmt v : Nat) : toF32 fmt v < 2 ^ 32 := by
  unfold toF32
  split
  · exact f32_round_lt _ _ _ _ _
  · split
    · decide
    · next neg _ => cases neg <;> decide
    · exact f32_round_lt _ _ _ _ _

/-! #### INT8 (R158, R265) -/

/-- A number rounded to INT8 is a pattern of 8 bits. -/
theorem toInt8_lt (rnd : Nat) (guarded : Bool) (v : Nat) : (toInt8 rnd guarded v).pat < 256 := by
  have hneg : ∀ n, (if 128 < n then ⟨0x80, guarded, false⟩ else ⟨(256 - n) % 256, false, false⟩ : FmaOut).pat < 256 :=
    fun n => by
      split
      · exact of_decide_eq_true rfl
      · exact Nat.mod_lt _ (by decide)
  have hpos : ∀ n, (if 127 < n then ⟨0x7F, guarded, false⟩ else ⟨n, false, false⟩ : FmaOut).pat < 256 := fun n => by
    split
    · exact of_decide_eq_true rfl
    · show n < 256
      omega
  unfold toInt8
  split
  · exact of_decide_eq_true rfl
  · next neg _ => cases neg <;> exact of_decide_eq_true rfl
  · next neg _ _ _ =>
    cases neg
    · exact hpos _
    · exact hneg _

/-- A whole number is not rounded. -/
theorem roundShift_zero (rnd : Nat) (neg : Bool) (m : Nat) : roundShift rnd neg m 0 = m := by
  unfold roundShift
  simp [Nat.mod_one]

theorem toInt8_saturates {v m : Nat} {e : Int} (h : f32.decode v = .fin false m e) (he : 0 ≤ e) (hm : 128 ≤ m)
    (rnd : Nat) (guarded : Bool) : (toInt8 rnd guarded v).pat = 0x7F := by
  have hn : 127 < (if e ≤ 0 then roundShift rnd false m (-e).toNat else m * 2 ^ e.toNat) := by
    split
    · have h0 : (-e).toNat = 0 := by omega
      rw [h0, roundShift_zero]
      omega
    · exact Nat.lt_of_lt_of_le hm (Nat.le_mul_of_pos_right _ (Nat.two_pow_pos _))
  unfold toInt8
  simp only [h, Bool.false_eq_true, if_false, if_pos hn]

end Sys2Proof.Machine

open Sys2Proof Sys2Proof.Machine

/-- Settles O32: the instructions by what they leave in T[DST], the conversions by the fields of a pattern. -/
theorem floatArithmetic : Obligations.FloatArithmetic := by
  unfold Obligations.FloatArithmetic
  refine ⟨?fma, ?convert, ?round, fun fmt v h1 h4 _ neg m e h => toF32_value h1 h4 h, toInt8_lt, ?saturates,
    fun fmt v _ _ => toF32_lt fmt v⟩
  case fma =>
    intro s l f t y h hr hs
    have hregs := (s.retire l (s.fmaStage l f t y)).fsatRefresh_regsOnly l
    refine ⟨_, exec_fmaF32 h hr hs, rfl, hregs.mem, fun i hi => ?_, fun r hr => ?_⟩
    · rw [State.fmaStage_tr, Stage.tr_setT_same, Tile.h_f32Words _ _ hi]
      rfl
    · rw [State.fmaStage_tr, Stage.tr_setT_ne _ _ _ _ hr]
  case convert =>
    intro s l f t y hn h hs
    rw [exec_cvt h hs, if_pos hn]
  case round =>
    intro s l f t y hn h hs
    rw [exec_cvt h hs, if_neg (by rw [hn]; decide)]
  case saturates =>
    rintro rnd guarded neg m e v h he hm rfl
    exact toInt8_saturates h he hm rnd guarded

end

/-! ### PRGX, AEADD and DPN (R157, R205, R427)

Each instruction is its effect once it issues; the key port, the crossing and the source of entropy choose the branch. -/

section
namespace Sys2Proof.Machine

variable {s : State} {l : Loc} {f : Fields}

/-- A word of a tile whose words are a table of n words. -/
theorem Tile.w_of_wordsOf {t : Tile} {n : Nat} {v : Nat → DWord} (ht : t.words = wordsOf n v) {i : Nat} (hi : i < n) :
    t.w i = v i := by
  have hw := Tile.w_wordsOf t n v i hi
  rwa [← ht] at hw

/-- Retiring leaves the tile registers. -/
theorem State.retire_tr (s : State) (l : Loc) (x : Stage) (r : Nat) : ((s.retire l x).stage l.ix).tr r = x.tr r := by
  rw [State.retire_stage]
  rfl

/-! #### PRGX -/

/-- What PRGX's entry permits (R157). -/
def prgxShape : Shape := { stages := [St.prg], dst := .t, sa := .s, sb := .s }

/-- The seed entry that PRGX names, and the tile of its key stream (R205). -/
def State.prgxSeed (s : State) (l : Loc) (f : Fields) : BitVec 512 :=
  s.seed (iNum l.d l.s) ((s.stage l.ix).sr f.a).toNat
def State.prgxWord (s : State) (l : Loc) (f : Fields) (i : Nat) : DWord :=
  keyStream (seedKey (s.prgxSeed l f)) (s.curRound (s.ctxOf l)) (s.prgShard l.d l.s ((s.stage l.ix).sr f.a).toNat)
    ((s.stage l.ix).sr f.b).toNat i
def State.prgxTile (s : State) (l : Loc) (f : Fields) : Tile :=
  { Tile.fresh 4096 (wordsOf 512 (s.prgxWord l f)) with tag := (s.stage l.ix).sr f.b }

theorem exec_prgx (h : s.issues l 0x80 f prgxShape) : exec (.prgx l f) s = .next
    (if 4096 ≤ ((s.stage l.ix).sr f.a).toNat ∨ ¬ seedValid (s.prgxSeed l f) then s.insnFault l Code.formatError
     else if s.keysGone (s.ctxOf l) then s.stageFault l ⟨Code.keyRevoked, Origin.keyPort, 0, 0, false⟩
     else (s.took 1).retire l ((s.stage l.ix).setT f.d (s.prgxTile l f))) :=
  congrArg Host.Outcome.next (State.issue_eq s l 0x80 f _ _ h (by decide) (by decide))

theorem State.prgxTile_w (s : State) (l : Loc) (f : Fields) {i : Nat} (hi : i < 512) :
    (s.prgxTile l f).w i = s.prgxWord l f i :=
  Tile.w_of_wordsOf (by simp only [State.prgxTile, Tile.fresh]) hi

/-! #### AEADD -/

/-- AEADD of one LAST tile in a register decrypts that tile's packet. -/
theorem exec_aeadd_one (hh : f.hint = 0) (h : s.issues l 0x81 f { stages := [St.aead], dst := .t, sa := .t, hints := [0, 2] })
    (hb : ((s.stage l.ix).tr f.a).bad = none) (hl : ((s.stage l.ix).tr f.a).last = true) :
    exec (.aeadd l f) s = .next (s.aeadPacket l f (s.stage l.ix) [(s.stage l.ix).tr f.a]) := by
  refine congrArg Host.Outcome.next ((State.issue_eq s l 0x81 f _ _ h (by decide) (by decide)).trans ?_)
  rw [if_neg (by rw [hh]; decide)]
  unfold State.aeadRegs
  simp only [hb, Option.isSome_none, Bool.false_eq_true, if_false, hl, if_true]

section Packet
variable {v w : State} {x : Stage} {t : Tile} {k : BitVec 256} (hd : f.d + 1 ≤ l.tregs)
  (hk : s.keyPort (t.tag.toNat / 2 ^ 32 % 2 ^ 22) = (v, .key k))
  (hw : v.crossPorts (route (4 + t.tag.toNat / 2 ^ 32 % 2 ^ 22 / 2 ^ 20) l.d) = (w, false))
include hd hk hw

/-- A packet whose key the port gives and brings across, and which verifies (R16, R292). -/
theorem State.aeadPacket_opens {p : Bytes} (hp : openPacket k [t] = some p) :
    s.aeadPacket l f x [t] = w.retire l ((x.putTiles f.d (plainTiles p [t])).setP 6 true) := by
  have hroom : ¬ l.tregs < f.d + [t].length := Nat.not_lt.mpr hd
  unfold State.aeadPacket State.across
  simp only [List.headD_cons, hroom, hk, hw, hp, if_false, reduceCtorEq, Bool.false_eq_true]

/-- One that does not verify. -/
theorem State.aeadPacket_fails (hp : openPacket k [t] = none) : s.aeadPacket l f x [t] =
    ((w.iCount l 0x18).chunkDiscarded l.d l.s t.aip).retireWith l (x.setP 6 false) Code.aeadFail := by
  have hroom : ¬ l.tregs < f.d + [t].length := Nat.not_lt.mpr hd
  unfold State.aeadPacket State.across
  simp only [List.headD_cons, hroom, hk, hw, hp, if_false, reduceCtorEq, Bool.false_eq_true]

end Packet

/-! #### DPN -/

/-- What DPN's entry permits (R157). -/
def dpnShape (f : Fields) : Shape :=
  { stages := [St.add], dst := .t, sa := .t, sb := .s, qsel := decide (f.imf 1 0 = 2), hints := [0, 2], imm := 3
    extra := decide (f.imf 1 0 ≠ 3) }

/-- The tile with the noise drawn for it. -/
def State.dpnTile (s : State) (l : Loc) (f : Fields) (t : Tile) : Tile :=
  { t with words := noisy (s.drawn (Port.add (iNum l.d l.s))) (f.imf 1 0) ((s.stage l.ix).qr f.qsel).toNat t }

/-- DPN with a noise width and a modulus, by the answer of the source of entropy. -/
theorem exec_dpn {t : Tile} {y : Stage} (h : s.issues l 0x82 f (dpnShape f)) (hb : (s.stage l.ix).sr f.b ≠ 0)
    (hq : f.imf 1 0 = 2 → (s.stage l.ix).qr f.qsel ≠ 0) (hs : (s.stage l.ix).source l f = some (t, y)) :
    exec (.dpn l f) s = .next (match s.entPort with
      | .stall => s.waits
      | .refused => s.stageFault l ⟨Code.entropyUnavailable, Origin.keyPort, 0, 0, false⟩
      | .served => (s.draw (Port.add (iNum l.d l.s)) 1024).retire l (y.setT f.d (s.dpnTile l f t))) := by
  refine congrArg Host.Outcome.next ((State.issue_eq s l 0x82 f _ _ h (by decide) (by decide)).trans ?_)
  have hok : ¬ ((s.stage l.ix).sr f.b = 0 ∨ (f.imf 1 0 = 2 ∧ ((s.stage l.ix).qr f.qsel).toNat = 0)) := fun hx =>
    hx.elim hb (fun hx => hq hx.1 (BitVec.eq_of_toNat_eq hx.2))
  rw [if_neg hok]
  cases s.entPort with
  | stall => rfl
  | refused => rfl
  | served => exact s.operands_eq l f _ [] _ _ t y (fun r hr => absurd hr List.not_mem_nil) hs _

/-- The words of a tile with noise over Z_q. -/
theorem noisy_ringQ (w : Nat → DWord) (q : Nat) (t : Tile) : noisy w 2 q t =
    wordsOf 512 (fun i => BitVec.ofNat 64 (((t.w i).toNat + (w i).toNat) % q)) := by
  unfold noisy
  rw [if_neg (by decide), if_neg (by decide)]

/-- Noise over Z_q stays below q. -/
theorem noisy_ringQ_lt (w : Nat → DWord) (q : DWord) (hq : q ≠ 0) (t : Tile) {i : Nat} (hi : i < 512) :
    (({ t with words := noisy w 2 q.toNat t } : Tile).w i).toNat < q.toNat := by
  have hpos : 0 < q.toNat := Nat.pos_of_ne_zero (fun h => hq (BitVec.eq_of_toNat_eq h))
  have hlt := Nat.mod_lt ((t.w i).toNat + (w i).toNat) hpos
  have hw : ({ t with words := noisy w 2 q.toNat t } : Tile).w i =
      BitVec.ofNat 64 (((t.w i).toNat + (w i).toNat) % q.toNat) := by
    rw [noisy_ringQ, Tile.w_wordsOf _ _ _ _ hi]
  rw [hw, BitVec.toNat_ofNat, Nat.mod_eq_of_lt (Nat.lt_trans hlt q.isLt)]
  exact hlt

end Sys2Proof.Machine

open Sys2Proof Sys2Proof.Machine

/-- Settles O31: each instruction by the branch that its key, its packet or its source of entropy chooses. -/
theorem cryptoInstructions : Obligations.CryptoInstructions := by
  unfold Obligations.CryptoInstructions
  refine ⟨?stream, ?entry, ?packet, ?noise, ?refused⟩
  case stream =>
    intro s l f h ha hv hk
    have hex := exec_prgx h
    rw [if_neg (fun hx => hx.elim (Nat.not_le.mpr ha) (fun hx => hx hv)), if_neg (by rw [hk]; decide)] at hex
    have htile : ((((s.took 1).retire l ((s.stage l.ix).setT f.d (s.prgxTile l f))).stage l.ix).tr f.d) =
        s.prgxTile l f := by
      rw [State.retire_tr, Stage.tr_setT_same]
    refine ⟨_, hex, State.took_retire_onlyStage s l _ 1, ?_, rfl, ?_, ?_, fun i hi => ?_⟩
    · rw [State.retire_stage]
      exact Stage.wroteT_retire _ _ _
    · rw [htile]
      rfl
    · rw [htile]
      rfl
    · rw [htile]
      exact s.prgxTile_w l f hi
  case entry =>
    intro s l f h hbad
    rw [exec_prgx h, if_pos (hbad.imp_right (fun hv => by rw [State.prgxSeed, hv]; decide))]
    rfl
  case packet =>
    intro s v w l f k hh h hb hl hd hk hw
    rw [exec_aeadd_one hh h hb hl]
    exact ⟨fun p hp => congrArg _ (State.aeadPacket_opens hd hk hw hp),
      fun hp => congrArg _ (State.aeadPacket_fails hd hk hw hp)⟩
  case noise =>
    intro s l f t y h hb hq he hs
    have hex := exec_dpn h hb hq hs
    rw [he] at hex
    have htile : (((s.draw (Port.add (iNum l.d l.s)) 1024).retire l (y.setT f.d (s.dpnTile l f t))).stage l.ix).tr f.d =
        s.dpnTile l f t := by
      rw [State.retire_tr, Stage.tr_setT_same]
    refine ⟨_, hex, ?_, rfl, htile, rfl, fun hring i hi => ?_⟩
    · rw [State.retire_stage]
      exact Stage.wroteT_retire _ _ _
    · rw [htile, State.dpnTile, hring]
      exact noisy_ringQ_lt _ _ (hq hring) t hi
  case refused =>
    intro s l f t y h hb hq he hs
    rw [exec_dpn h hb hq hs, he]

end

/-! ### Self-tests, watchdog and hub reset (R90, R477–R480, R484, R485)

What the registers of a die's self-test leave alone, then each operation by what it finds. -/

section
namespace Sys2Proof.Machine

/-! #### The registers of a self-test (R478) -/

section Regs
variable {s : State} {d op tgt fails : Nat} {code : Byte} {held : Bool}

theorem State.stDone_shape : ∃ r, s.stDone d op tgt code fails = { s with regs := r, reply := ⟨code, 0⟩ } := by
  obtain ⟨r, hr⟩ := (s.setReg_regsOnly (Reg.stCtl d) _).trans (State.setReg_regsOnly _ (Reg.stStat d) _)
  exact ⟨r, congrArg (State.done · code) hr⟩

theorem State.stHolds_shape : ∃ r, s.stHolds d op tgt held code = { s with regs := r, reply := ⟨code, 0⟩ } := by
  obtain ⟨r, hr⟩ := (s.setReg_regsOnly (Reg.stCtl d) _).trans (State.setReg_regsOnly _ (Reg.stStat d) _)
  exact ⟨r, congrArg (State.done · code) hr⟩

/-- What an operation that runs or is held leaves as it was. -/
theorem State.stHolds_frame (s : State) (d op tgt : Nat) (held : Bool) (code : Byte) :
    (s.stHolds d op tgt held code).tests = s.tests ∧ (s.stHolds d op tgt held code).strands = s.strands ∧
    (s.stHolds d op tgt held code).banks = s.banks ∧ (s.stHolds d op tgt held code).mem = s.mem ∧
    (s.stHolds d op tgt held code).reply = ⟨code, 0⟩ := by
  obtain ⟨r, hr⟩ := State.stHolds_shape (s := s) (d := d) (op := op) (tgt := tgt) (held := held) (code := code)
  rw [hr]
  exact ⟨rfl, rfl, rfl, rfl, rfl⟩

theorem State.fld_stDone {a : Nat} (hc : a ≠ Reg.stCtl d) (hs : a ≠ Reg.stStat d) (hi lo : Nat) :
    (s.stDone d op tgt code fails).fld a hi lo = s.fld a hi lo := by
  unfold State.stDone
  rw [State.fld_done, State.fld_setReg_ne _ _ _ _ _ _ hs, State.fld_setReg_ne _ _ _ _ _ _ hc]

theorem State.fld_stHolds {a : Nat} (hc : a ≠ Reg.stCtl d) (hs : a ≠ Reg.stStat d) (hi lo : Nat) :
    (s.stHolds d op tgt held code).fld a hi lo = s.fld a hi lo := by
  unfold State.stHolds
  rw [State.fld_done, State.fld_setReg_ne _ _ _ _ _ _ hs, State.fld_setReg_ne _ _ _ _ _ _ hc]

/-- BUSY and HELD follow what the operation does. -/
theorem State.stHolds_held (ht : tgt < 2 ^ 16) : (s.stHolds d op tgt true code).fld (Reg.stStat d) 30 30 = 1 := by
  have hc := code.isLt
  unfold State.stHolds
  rw [State.fld_done, State.fld_setReg_same, bits_eq _ _ _ (by decide) (by decide), BitVec.toNat_ofNat, if_pos rfl]
  omega

theorem State.stHolds_busy (ht : tgt < 2 ^ 16) : (s.stHolds d op tgt false code).fld (Reg.stStat d) 31 31 = 1 := by
  have hc := code.isLt
  unfold State.stHolds
  rw [State.fld_done, State.fld_setReg_same, bits_eq _ _ _ (by decide) (by decide), BitVec.toNat_ofNat,
    if_neg Bool.false_ne_true]
  omega

theorem bankOwner_ne_st (d b : Nat) : Reg.bankOwner d b ≠ Reg.stCtl d ∧ Reg.bankOwner d b ≠ Reg.stStat d := by
  unfold Reg.bankOwner Reg.stCtl Reg.stStat regAddr
  omega

theorem strandStat_ne_st (d : Nat) {g : Nat} (hg : g < 12) :
    Reg.strandStat d g ≠ Reg.stCtl d ∧ Reg.strandStat d g ≠ Reg.stStat d := by
  unfold Reg.strandStat Reg.stCtl Reg.stStat regAddr
  omega

end Regs

theorem State.testOf_congr {s t : State} (h : t.tests = s.tests) (d : Nat) : t.testOf d = s.testOf d := by
  unfold State.testOf
  rw [h]

theorem State.testOf_setTest (s : State) (d : Nat) (x : Option TestSt) : (s.setTest d x).testOf d = x :=
  Table.get_put_same _ _ _ _

@[simp] theorem State.fld_setTest (s : State) (d : Nat) (x : Option TestSt) (a hi lo : Nat) :
    (s.setTest d x).fld a hi lo = s.fld a hi lo := rfl
@[simp] theorem State.mem_setTest (s : State) (d : Nat) (x : Option TestSt) : (s.setTest d x).mem = s.mem := rfl
@[simp] theorem State.bank_setTest (s : State) (d : Nat) (x : Option TestSt) (e b : Nat) :
    (s.setTest d x).bank e b = s.bank e b := rfl
@[simp] theorem State.mem_setBank (s : State) (d b : Nat) (x : BankX) : (s.setBank d b x).mem = s.mem := rfl

theorem State.testOf_stHolds (s : State) (d e op tgt : Nat) (held : Bool) (code : Byte) :
    (s.stHolds d op tgt held code).testOf e = s.testOf e := State.testOf_congr (s.stHolds_frame d op tgt held code).1 e

/-- An operation on a die without a test runs. -/
theorem State.stRun_none {s : State} {d : Nat} (h : s.testOf d = none) (k : State → State) : s.stRun d k = k s := by
  unfold State.stRun
  rw [h]

/-! #### Strand tests (R478, R479) -/

section Strand
variable {s : State} {d : Nat}

theorem State.strandTest_unbound {op g : Nat} (h : s.testOf d = none) (hu : s.sst d g = SS.unbound)
    (hp : s.pdOn (pdStrand d g) = true) : s.strandTest d op g = s.startTest d op g := by
  unfold State.strandTest
  rw [State.stRun_none h, if_pos hu, State.onStrand_on _ _ _ _ hp]

theorem State.strandTest_bound {op g : Nat} (h : s.testOf d = none) (hb : s.sst d g ≠ SS.unbound) :
    s.strandTest d op g = (s.setTest d (some ⟨op, g, true⟩)).stHolds d op g true Code.deferred := by
  unfold State.strandTest
  rw [State.stRun_none h, if_neg hb]

/-- GUARDED_ACT is another field than STATE, and GUARDED changes no memory. -/
theorem State.forceGuard_facts (s : State) (d g : Nat) (b : Bool) :
    (s.forceGuard d g b).sst d g = s.sst d g ∧ (s.forceGuard d g b).mem = s.mem := by
  unfold State.forceGuard State.sst
  dsimp only
  split
  · rw [State.fld_setFld_apart _ _ _ _ _ _ _ (by decide) (by decide) (by decide) (by decide) (by decide),
      State.fld_setStrand, State.setFld_mem]
    exact ⟨rfl, rfl⟩
  · exact ⟨rfl, rfl⟩

theorem State.sst_setTest (s : State) (d e g : Nat) (x : Option TestSt) : (s.setTest d x).sst e g = s.sst e g := rfl

/-- A strand test that starts. -/
theorem State.startTest_facts (s : State) (op : Nat) {g : Nat} (hg : g < 12) : (s.startTest d op g).sst d g = SS.selftest ∧
    (s.startTest d op g).testOf d = some ⟨op, g, false⟩ ∧ (s.startTest d op g).mem = s.mem := by
  obtain ⟨hc, hs⟩ := strandStat_ne_st d hg
  obtain ⟨hst, hmem⟩ := (s.setSst d g SS.selftest).forceGuard_facts d g false
  unfold State.startTest
  refine ⟨?_, ?_, ?_⟩
  · calc _ = (((s.setSst d g SS.selftest).forceGuard d g false).setTest d (some ⟨op, g, false⟩)).sst d g :=
          State.fld_stHolds hc hs 31 29
      _ = (s.setSst d g SS.selftest).sst d g := hst
      _ = SS.selftest := State.fld_setFld_same _ _ _ _ _ (by decide) (by decide)
  · rw [State.testOf_stHolds, State.testOf_setTest]
  · obtain ⟨-, -, -, hkept, -⟩ := (((s.setSst d g SS.selftest).forceGuard d g false).setTest d
      (some ⟨op, g, false⟩)).stHolds_frame d op g false Code.ok
    rw [hkept, State.mem_setTest, hmem, State.setSst_mem]

theorem exec_strandTest {d : Fin 4} {x : Fin 12} {cmd : Instr} {op : Nat}
    (hm : (cmd, op) ∈ [(Instr.bist d x, 0), (.calibrate d x, 1)]) (hl : s.linksClean = true) :
    exec cmd s = .next (s.strandTest d.val op x.val) := by
  rcases List.mem_pair.mp hm with h | h
  · obtain ⟨rfl, rfl⟩ := Prod.mk.inj h
    exact congrArg Host.Outcome.next (s.toDie_clean d.val _ hl)
  · obtain ⟨rfl, rfl⟩ := Prod.mk.inj h
    exact congrArg Host.Outcome.next (s.toDie_clean d.val _ hl)

theorem exec_selftestDeferredStart {d : Fin 4} {x : TestSt} (ht : s.testOf d.val = some x) (hh : x.held = true)
    (hu : s.sst d.val x.target = SS.unbound) (hp : s.pdOn (pdStrand d.val x.target) = true) :
    exec (.selftestDeferredStart d) s = .next (s.startTest d.val x.op x.target) := by
  show execSelftestDeferredStart d s = _
  unfold execSelftestDeferredStart
  simp only [ht, if_pos (And.intro hh hu)]
  rw [State.onStrand_on _ _ _ _ hp]

theorem exec_replay {d : Fin 4} {x : Fin 12} (hl : s.linksClean = true) (ht : s.testOf d.val = none)
    (hk : strandKind x.val = 2) (hr : s.sst d.val x.val = SS.ready) :
    exec (.replay d x) s = .next (s.goOn (s.replayF d.val x.val)
      (fun u => ((u.forceGuard d.val x.val true).runStrand d.val x.val).stDone d.val 2 x.val Code.ok 0)) := by
  refine congrArg Host.Outcome.next ((s.toDie_clean d.val _ hl).trans ?_)
  unfold State.replay
  rw [State.stRun_none ht, if_neg (fun h => h hk), if_neg (fun h => h hr)]

/-- Without an open round no entry is posted again. -/
theorem State.replayF_closed {x : Nat} (h : s.roundOpen (s.sctx d x) = false) : s.replayF d x = (s, false) := by
  unfold State.replayF
  dsimp only
  split
  · rw [if_neg (by rw [h]; decide)]
  · rfl

end Strand

/-! #### Tests of a bank (R479) -/

section Bank
variable {s : State} {d b : Nat}

/-- A test of a bank whose half-array is ON goes on (R442). -/
theorem State.onHalf_on (hp : s.pdOn (pdBank d b) = true) (k : State → State) : s.onHalf d b k = k s := by
  have h6 : s.pdState (pdBank d b) ≠ 6 := fun h6 => by simp [State.pdOn, h6] at hp
  unfold State.onHalf
  rw [if_neg h6, if_pos hp]

/-- The bank under test: STATE reads CLEARING. -/
def State.bankMarches (s : State) (d b : Nat) : State :=
  ((s.setBank d b { s.bank d b with test := true }).setFld (Reg.bankOwner d b) 31 30 3).setTest d (some ⟨3, b, false⟩)

theorem State.bankMarches_facts (s : State) (d b : Nat) : (s.bankMarches d b).bst d b = 3 ∧
    (s.bankMarches d b).testOf d = some ⟨3, b, false⟩ ∧ ((s.bankMarches d b).bank d b).test = true ∧
    (s.bankMarches d b).mem = s.mem := by
  unfold State.bankMarches State.bst
  refine ⟨?_, State.testOf_setTest _ _ _, ?_, ?_⟩
  · rw [State.fld_setTest, State.fld_setFld_same _ _ _ _ _ (by decide) (by decide), Nat.mod_eq_of_lt (by decide)]
  · rw [State.bank_setTest, State.bank_setFld]
    exact congrArg BankX.test (Table.get_put_same _ _ _ _)
  · rw [State.mem_setTest, State.setFld_mem, State.mem_setBank]

theorem State.bankTest_free (ht : s.testOf d = none) (hb : s.bst d b = 0) (hp : s.pdOn (pdBank d b) = true) :
    s.bankTest d b = (s.bankMarches d b).stHolds d 3 b false Code.ok := by
  unfold State.bankTest
  rw [State.stRun_none ht, if_neg (fun h => h hb), State.onHalf_on hp]
  rfl

theorem State.bankTest_taken (ht : s.testOf d = none) (hb : s.bst d b ≠ 0) :
    s.bankTest d b = s.stDone d 3 b Code.busy 0 := by
  unfold State.bankTest
  rw [State.stRun_none ht, if_pos hb]

theorem bankOwner_lt_evq {d b : Nat} (hd : d < 4) (hb : b < 24) : Reg.bankOwner d b < 0x3800000 := by
  unfold Reg.bankOwner Reg.cdPage regAddr
  omega

theorem State.post_banks (s : State) (q : Nat) (e : Ev) : (s.post q e).banks = s.banks := by
  obtain ⟨r, x, h, hp⟩ := s.post_shape q e
  rw [hp]

/-- One failing word of a bank, marked and recorded. -/
def State.failWord (s : State) (d b : Nat) : State :=
  let w := bankAddr d b 0 / 16 + s.free.toNat % 4194304
  let s1 := (s.setMark w .uncorrectable).took 1
  (s1.post 0 { Ev.of 1 1 Code.eccUncorrectable 0 d b (s1.free.toNat % 65536) with addr := w * 16 }).took 1

theorem State.failWord_frame (s : State) (d b : Nat) : (s.failWord d b).mem = s.mem ∧
    (s.failWord d b).banks = s.banks ∧ ∀ a hi lo, a < 0x3800000 → (s.failWord d b).fld a hi lo = s.fld a hi lo := by
  unfold State.failWord
  dsimp only
  refine ⟨?_, ?_, fun a hi lo ha => ?_⟩
  · rw [State.took_mem, (State.post_frame _ _ _).1]
    rfl
  · rw [State.took_banks, State.post_banks]
    rfl
  · rw [State.fld_took, State.fld_post _ _ _ ha]
    rfl

/-- Recording failing words leaves memory, the banks and every register outside the event queues. -/
theorem State.failWords_frame (d b n : Nat) : ∀ s : State, (s.failWords d b n).mem = s.mem ∧
    (s.failWords d b n).banks = s.banks ∧
    ∀ a hi lo, a < 0x3800000 → (s.failWords d b n).fld a hi lo = s.fld a hi lo := by
  induction n with
  | zero => exact fun s => ⟨rfl, rfl, fun _ _ _ _ => rfl⟩
  | succ n ih =>
    intro s
    have hstep : s.failWords d b (n + 1) = (s.failWord d b).failWords d b n := rfl
    obtain ⟨hmem, hbanks, hfld⟩ := ih (s.failWord d b)
    obtain ⟨hmem', hbanks', hfld'⟩ := s.failWord_frame d b
    rw [hstep]
    exact ⟨hmem.trans hmem', hbanks.trans hbanks', fun a hi lo ha => (hfld a hi lo ha).trans (hfld' a hi lo ha)⟩

/-- The end of a bank's test: FREE, no longer under test, every byte zero. -/
theorem State.testEnds_bank {x : TestSt} {n : Byte} (hop : x.op = 3) (hd : d < 4) (hx : x.target < 24) :
    (s.testEnds d x n).bst d x.target = 0 ∧ ((s.testEnds d x n).bank d x.target).test = false ∧
    ∀ o, o < 0x4000000 → (s.testEnds d x n).byte (bankAddr d x.target o) = 0 := by
  unfold State.testEnds
  rw [if_pos hop]
  dsimp only
  obtain ⟨hmem, hbanks, hfld⟩ := State.failWords_frame d x.target n.toNat
    (((s.clearBank d x.target).setBank d x.target { (s.clearBank d x.target).bank d x.target with test := false }).setFld
      (Reg.bankOwner d x.target) 31 30 0)
  refine ⟨?_, ?_, fun o ho => ?_⟩
  · unfold State.bst
    rw [hfld _ _ _ (bankOwner_lt_evq hd hx), State.fld_setFld_same _ _ _ _ _ (by decide) (by decide), Nat.zero_mod]
  · rw [State.bank_congr hbanks, State.bank_setFld]
    exact congrArg BankX.test (Table.get_put_same _ _ _ _)
  · rw [State.byte_congr hmem, State.byte_congr (State.setFld_mem _ _ _ _ _)]
    refine (State.byte_clearBank s d x.target _).trans (if_pos ?_)
    unfold bankAddr
    omega

/-- A final response changes what the management port holds, and the reply. -/
theorem State.final_shape (s : State) (i : Nat) (q : DWord) (c : Byte) (body : List Nat) :
    ∃ m o p, s.final i q c body = { s with mgmt := m, out := o, reply := p } := by
  unfold State.final
  dsimp only
  split
  · exact ⟨_, _, _, rfl⟩
  · exact ⟨_, _, _, rfl⟩

theorem State.finishArg_shape (s : State) (opc : Nat) (c : Option Nat) (arg : Nat) (status : Byte) (body : List Nat) :
    ∃ m o p, s.finishArg opc c arg status body = { s with mgmt := m, out := o, reply := p } := by
  refine List.foldlRecOn (motive := fun t : State => ∃ m o p, t = { s with mgmt := m, out := o, reply := p }) _ _
    ⟨s.mgmt, s.out, s.reply, rfl⟩ ?_
  rintro t ⟨m, o, p, rfl⟩ w -
  obtain ⟨m', o', p', h⟩ := State.final_shape { s with mgmt := m, out := o, reply := p } w.ident w.reqId status body
  exact ⟨m', o', p', h⟩

/-- The state after a test, before its registers are written: TEST.RUN is answered. -/
def State.testAnswered (s : State) (d : Nat) (x : TestSt) (n : Byte) : State :=
  ((s.testEnds d x n).setTest d none).finishArg 0x0107 none d (testCode n) [(testCode n).toNat, n.toNat]

theorem State.testAnswered_frame (s : State) (d : Nat) (x : TestSt) (n : Byte) :
    (s.testAnswered d x n).testOf d = none ∧ (s.testAnswered d x n).mem = (s.testEnds d x n).mem ∧
    (s.testAnswered d x n).banks = (s.testEnds d x n).banks ∧ (s.testAnswered d x n).regs = (s.testEnds d x n).regs := by
  obtain ⟨m, o, p, hfin⟩ := ((s.testEnds d x n).setTest d none).finishArg_shape 0x0107 none d (testCode n)
    [(testCode n).toNat, n.toNat]
  unfold State.testAnswered
  rw [hfin]
  exact ⟨(State.testOf_setTest _ d none : ((s.testEnds d x n).setTest d none).testOf d = none), rfl, rfl, rfl⟩

theorem exec_selftestDone {d : Fin 4} {x : TestSt} {n : Byte} (ht : s.testOf d.val = some x) (hh : x.held = false) :
    exec (.selftestDone d n) s =
      .next ((s.testAnswered d.val x n).stDone d.val x.op x.target (testCode n) n.toNat) := by
  show execSelftestDone d n s = _
  unfold execSelftestDone
  simp only [ht, hh, Bool.false_eq_true, if_false]
  rfl

/-- The end of a test: the die has none, and what the test leaves stands but for the test's own registers. -/
theorem State.testFinished_facts (s : State) (d : Nat) (x : TestSt) (n : Byte) {t : State}
    (h : t = (s.testAnswered d x n).stDone d x.op x.target (testCode n) n.toNat) :
    t.testOf d = none ∧ t.reply = ⟨testCode n, 0⟩ ∧ t.mem = (s.testEnds d x n).mem ∧
    t.banks = (s.testEnds d x n).banks ∧ ∀ b, t.bst d b = (s.testEnds d x n).bst d b := by
  obtain ⟨htest, hmem, hbanks, hregs⟩ := s.testAnswered_frame d x n
  obtain ⟨r, hr⟩ := State.stDone_shape (s := s.testAnswered d x n) (d := d) (op := x.op) (tgt := x.target)
    (code := testCode n) (fails := n.toNat)
  have hbst : ∀ b, t.bst d b = (s.testAnswered d x n).bst d b := fun b => by
    obtain ⟨hc, hs⟩ := bankOwner_ne_st d b
    rw [h]
    exact State.fld_stDone hc hs 31 30
  rw [hr] at h
  refine ⟨?_, ?_, ?_, ?_, fun b => (hbst b).trans ?_⟩
  · rw [h]
    exact htest
  · rw [h]
  · rw [h]
    exact hmem
  · rw [h]
    exact hbanks
  · unfold State.bst State.fld State.reg
    rw [hregs]

end Bank

/-! #### Known-answer tests (R480) -/

section Kat
variable {s : State} {e : KatEngine}

/-- The module with an engine whose test has failed. -/
def State.katFailed (s : State) (e : KatEngine) : State :=
  if e ∈ s.hub.katBad then s else { s with hub := { s.hub with katBad := s.hub.katBad ++ [e] } }

theorem State.katFailed_ok (s : State) (e : KatEngine) : (s.katFailed e).katOk e = false ∧
    (∀ k, k ≠ e → (s.katFailed e).katOk k = s.katOk k) ∧ (s.katFailed e).mem = s.mem := by
  unfold State.katFailed State.katOk
  split
  · next h => exact ⟨decide_eq_false (fun hn => hn h), fun _ _ => rfl, rfl⟩
  · exact ⟨decide_eq_false (fun hn => hn (by simp)), fun k hk => decide_eq_decide.mpr (by simp [hk]), rfl⟩

theorem exec_katStep_failed : exec (.katStep e false false) s =
    .next (((s.katFailed e).post 3 (Ev.of 6 6 Code.internalError 4 0 0 (katCode e))).done Code.internalError) := rfl

theorem exec_katStep_passed : exec (.katStep e true false) s = .next (s.done Code.ok) := rfl

end Kat

/-! #### The hub watchdog and the hub reset (R484, R485) -/

section Hub
variable {s : State}

theorem State.post_hub (s : State) (q : Nat) (e : Ev) : (s.post q e).hub = s.hub := by
  obtain ⟨r, x, h, hp⟩ := s.post_shape q e
  rw [hp]

/-- The watchdog's interrupt is raised. -/
def State.raiseNmi (s : State) : State := { s with hub := { s.hub with nmi := true } }

/-- The first expiry: FIRED, a record, the interrupt. -/
def State.wdtFired (s : State) : State := (s.setFld Reg.hubWdt 31 31 1).post 3 (Ev.of 7 2 Code.internalError 2 0 0 0)

theorem exec_hubWdtExpire_first (hr : s.hub.reset = none) (hn : s.hub.nmi = false) :
    exec .hubWdtExpire s = .next (s.wdtFired.raiseNmi.done Code.ok) := by
  show execHubWdtExpire s = _
  unfold execHubWdtExpire
  rw [if_neg (by rw [hr]; decide), if_pos (by rw [hn]; decide)]
  rfl

theorem State.wdtFired_facts (s : State) :
    s.wdtFired.fld Reg.hubWdt 31 31 = 1 ∧ s.wdtFired.hub = s.hub ∧ s.wdtFired.mem = s.mem :=
  ⟨(State.fld_post _ _ _ (by decide) _ _).trans (State.fld_setFld_same _ _ _ _ _ (by decide) (by decide)),
    (State.post_hub _ _ _).trans (State.setFld_hub _ _ _ _ _), (State.post_frame _ _ _).1.trans (State.setFld_mem _ _ _ _ _)⟩

theorem State.raiseNmi_facts (s : State) : s.raiseNmi.hub.nmi = true ∧ s.raiseNmi.hub.reset = s.hub.reset ∧
    s.raiseNmi.mem = s.mem ∧ ∀ a hi lo, s.raiseNmi.fld a hi lo = s.fld a hi lo := ⟨rfl, rfl, rfl, fun _ _ _ => rfl⟩

theorem exec_hubWdtExpire_second (hr : s.hub.reset = none) (hn : s.hub.nmi = true) : exec .hubWdtExpire s =
    .next (if s.fld Reg.hubWdt 30 30 = 1 then (s.hubResetStart 0).done Code.ok
      else (s.post 3 (Ev.of 7 3 Code.internalError 2 0 0 0)).done Code.ok) := by
  show execHubWdtExpire s = _
  unfold execHubWdtExpire
  rw [if_neg (by rw [hr]; decide), if_neg (fun h => h hn)]
  split <;> rfl

theorem exec_hubRstWrite (hr : s.hub.reset = none) :
    exec (.hubRstWrite .secure 1) s = .next ((s.hubResetStart 1).done Code.ok) :=
  congrArg Host.Outcome.next (if_pos ⟨rfl, by rw [hr]; rfl⟩)

theorem State.hubResetStart_held (h : s.boot.inReset = true) (c : Fin 3) : s.hubResetStart c = s := by
  unfold State.hubResetStart
  rw [if_pos h]

/-- What a hub reset changes: registers, the hub, latches and buffers, and what the management port holds. -/
theorem State.hubResetStart_shape (h : s.boot.inReset = false) (c : Fin 3) : ∃ r, s.hubResetStart c =
    { s with regs := r, latch := [], wbuf := [], hub := { s.hub with nmi := false, reset := some c },
             mgmt := { (s.orphans (fun _ => true)).mgmt with conns := [] } } := by
  obtain ⟨r, hr⟩ := (State.setFld_regsOnly (s.wdtRestart.orphans (fun _ => true)) Reg.sysResetCause
    (if c = 0 then 10 else 9) (if c = 0 then 10 else 9) 1).trans
    (State.setFld_regsOnly _ Reg.sysResetCause 23 16 (if c = 0 then 10 else 9))
  refine ⟨r, ?_⟩
  unfold State.hubResetStart State.recordCause
  rw [if_neg (by rw [h]; decide), hr]
  rfl

/-- Every request has lost its connection. -/
theorem State.orphans_all {w : PmpWork} (h : w ∈ (s.orphans (fun _ => true)).mgmt.pending) : w.conn = noConn := by
  obtain ⟨v, -, rfl⟩ := List.mem_map.mp h
  rfl

theorem exec_hubResetDone {c : Fin 3} (h : s.hub.reset = some c) : exec .hubResetDone s =
    .next ((({ s with hub := { s.hub with reset := none } } : State).post 3 (Ev.of 7 4 Code.ok 2 0 0 c.val)).done
      Code.ok) := by
  show execHubResetDone s = _
  unfold execHubResetDone
  rw [h]

/-- The end of a phase window at the coordinator waits for the hub too. -/
theorem exec_phaseWindowExpire_waits {c : Fin 16} {r : Round} (h : s.hub.reset ≠ none) (hr : s.round c.val = some r)
    (hc : s.isCoord r.desc = true) : exec (.phaseWindowExpire c) s = .next s.waits := by
  show execPhaseWindowExpire c s = _
  unfold execPhaseWindowExpire
  simp only [hr]
  rw [if_neg (fun hn => hn hc), if_pos (Or.inr (Option.isSome_iff_ne_none.mpr h))]

end Hub

end Sys2Proof.Machine

open Sys2Proof Sys2Proof.Machine

/-- Settles O56: each operation by what it finds, and what it leaves by the registers and parts of the hub it writes. -/
theorem selfTestsAndHub : Obligations.SelfTestsAndHub := by
  unfold Obligations.SelfTestsAndHub
  refine ⟨?starts, ?heldTest, ?deferredStart, fun s d op g _ hg => s.startTest_facts op hg, ?replay,
    fun s d x h => State.replayF_closed h, ?bankFree, ?bankTaken, ?bankDone, ?katFails, fun s e => exec_katStep_passed,
    fun s => rfl, ?expiry, fun s hr hn => exec_hubWdtExpire_second hr hn, fun s hr => exec_hubRstWrite hr,
    fun s c h => State.hubResetStart_held h c, ?resets, ?waits, ?serves⟩
  case starts =>
    intro s d x cmd op hm hl ht hu hp
    rw [exec_strandTest hm hl, State.strandTest_unbound ht hu hp]
  case heldTest =>
    intro s d x cmd op hm hl ht hb
    obtain ⟨-, hstrands, -, hmem, hreply⟩ :=
      (s.setTest d.val (some ⟨op, x.val, true⟩)).stHolds_frame d.val op x.val true Code.deferred
    refine ⟨_, (exec_strandTest hm hl).trans (congrArg _ (State.strandTest_bound ht hb)), ?_, ?_, hstrands, hmem, hreply⟩
    · rw [State.testOf_stHolds, State.testOf_setTest]
    · exact State.stHolds_held (Nat.lt_trans x.isLt (by decide))
  case deferredStart =>
    intro s d x ht hh hu hp
    exact exec_selftestDeferredStart ht hh hu hp
  case replay =>
    intro s d x hl ht hk hr
    exact exec_replay hl ht hk hr
  case bankFree =>
    intro s d b hl ht hb hp
    obtain ⟨hc, hs⟩ := bankOwner_ne_st d.val b.val
    have hex : exec (.banktest d b) s = .next ((s.bankMarches d.val b.val).stHolds d.val 3 b.val false Code.ok) :=
      congrArg Host.Outcome.next ((s.toDie_clean d.val _ hl).trans (State.bankTest_free ht hb hp))
    obtain ⟨hbst, htest, hbank, hkept⟩ := s.bankMarches_facts d.val b.val
    obtain ⟨-, -, hbanks, hmem, hreply⟩ := (s.bankMarches d.val b.val).stHolds_frame d.val 3 b.val false Code.ok
    refine ⟨_, hex, (State.fld_stHolds hc hs 31 30).trans hbst, (State.testOf_stHolds _ _ _ _ _ _ _).trans htest, ?_,
      State.stHolds_busy (Nat.lt_trans b.isLt (by decide)), hmem.trans hkept, hreply⟩
    rw [State.bank_congr hbanks, hbank]
  case bankTaken =>
    intro s d b hl ht hb
    exact congrArg Host.Outcome.next ((s.toDie_clean d.val _ hl).trans (State.bankTest_taken ht hb))
  case bankDone =>
    intro s d x n ht hh hop hx
    obtain ⟨htest, hreply, hmem, hbanks, hbst⟩ := s.testFinished_facts d.val x n rfl
    obtain ⟨hfree, hbank, hzero⟩ := State.testEnds_bank (s := s) (n := n) hop d.isLt hx
    refine ⟨_, exec_selftestDone ht hh, htest, (hbst _).trans hfree, ?_, fun o ho => ?_, hreply⟩
    · rw [State.bank_congr hbanks, hbank]
    · rw [State.byte_congr hmem, hzero o ho]
  case katFails =>
    intro s e
    obtain ⟨hbad, hothers, hmem⟩ := s.katFailed_ok e
    have hhub := State.post_hub (s.katFailed e) 3 (Ev.of 6 6 Code.internalError 4 0 0 (katCode e))
    refine ⟨_, exec_katStep_failed, ?_, fun k hk => ?_, ((s.katFailed e).post_frame _ _).1.trans hmem, rfl⟩
    · exact (congrArg (fun h : Hub => decide (e ∉ h.katBad)) hhub).trans hbad
    · exact (congrArg (fun h : Hub => decide (k ∉ h.katBad)) hhub).trans (hothers k hk)
  case expiry =>
    intro s hr hn
    obtain ⟨hfired, hhub, hmem⟩ := s.wdtFired_facts
    obtain ⟨hnmi, hreset, hkept, hfld⟩ := s.wdtFired.raiseNmi_facts
    refine ⟨_, exec_hubWdtExpire_first hr hn, ?_, ?_, ?_, ?_, rfl⟩
    · rw [State.done_hub, hnmi]
    · rw [State.fld_done, hfld, hfired]
    · rw [State.done_hub, hreset, hhub, hr]
    · rw [State.done_mem, hkept, hmem]
  case resets =>
    intro s c h
    obtain ⟨r, hr⟩ := State.hubResetStart_shape h c
    rw [hr]
    exact ⟨_, rfl, rfl, rfl, rfl, rfl, fun w hw => State.orphans_all hw, rfl, rfl, rfl, rfl, rfl⟩
  case waits =>
    rintro s c sh id u v w e k a b n cmd h hm ⟨r, hr, hc⟩
    simp only [List.mem_cons, List.not_mem_nil, or_false] at hm
    rcases hm with rfl | rfl | rfl | rfl | rfl | rfl | rfl | rfl | rfl | rfl | rfl | rfl
    case inr.inl => exact exec_phaseWindowExpire_waits h hr hc
    all_goals exact s.byDaxna_waits _ h
  case serves =>
    intro s c h
    obtain ⟨r, x, m, hp⟩ := State.post_shape { s with hub := { s.hub with reset := none } } 3
      (Ev.of 7 4 Code.ok 2 0 0 c.val)
    refine ⟨_, exec_hubResetDone h, ?_, ?_, ?_, rfl⟩
    · rw [hp]
      rfl
    · rw [hp]
      rfl
    · rw [hp]
      rfl

end

/-! ### An instruction that its stage takes, and its accesses (R96, R113, R134, R135, R542) -/

section
namespace Sys2Proof.Machine

section Taken
variable {s : State} {l : Loc} {f : Fields} {sh : Shape} {opc : Nat}

/-- An instruction that its stage takes is its effect: `State.issue_eq` for an opcode that is a numeral (R96, R135). -/
theorem State.issue_taken {k : Stage → State} (h : s.issues l opc f sh) (ha : assignedOpc opc = true := by decide)
    (hb : opc < 256 := by decide) : s.issue l opc f sh k = k (s.stage l.ix) :=
  State.issue_eq s l opc f sh k h ha hb

/-- An instruction that is taken names registers its form permits (R134). -/
theorem Shape.ok_dst (h : sh.ok l f = true) : sh.dst.okField f.d = true := by
  simp only [Shape.ok, Bool.and_eq_true] at h
  exact h.1.1.1.1.1.1.1.1.1.1.1.1.1.1.2

end Taken

/-! #### Runs of line accesses (R542) -/

/-- A run that neither waits nor fails goes on with the state it leaves and the bytes it read. -/
theorem Run.cont_good {x : Run} (h : x.good) (s0 : State) (l : Loc) (undone k : State → Bytes → State) :
    x.cont s0 l undone k = k x.st x.data := by
  obtain ⟨hstall, herr⟩ := h
  unfold Run.cont
  simp only [hstall, herr, Bool.false_eq_true, if_false]

/-! #### Descriptors (R113) -/

/-- A descriptor in form has one of the kinds that are asked for. -/
theorem Desc.ok_kind {d : Desc} {st n : Nat} {kinds : List Nat} (h : d.ok st n kinds = true) : d.kind ∈ kinds := by
  simp only [Desc.ok, Bool.and_eq_true, List.contains_iff_mem] at h
  exact h.1.1

/-- A descriptor in form for some kinds is in form for more. -/
theorem Desc.ok_mono {d : Desc} {st n : Nat} {kinds more : List Nat} (h : d.ok st n kinds = true) (hs : kinds ⊆ more) :
    d.ok st n more = true := by
  simp only [Desc.ok, Bool.and_eq_true, List.contains_iff_mem] at h ⊢
  exact ⟨⟨hs h.1.1, h.1.2⟩, h.2⟩

/-- A CIPHER descriptor (R113). -/
theorem Desc.ok_cipher {d : Desc} {st n : Nat} (h : d.ok st n [3] = true) : d.kind = 3 ∧ d.ok st n [1, 2, 3] = true :=
  ⟨List.mem_singleton.mp (Desc.ok_kind h), Desc.ok_mono h (by decide)⟩

end Sys2Proof.Machine
end

/-! ### Recipes (R103–R108) -/

section
namespace Sys2Proof.Machine

/-! #### A load's end (R105) -/

section Load
variable {s : State} {e : Fin 4} {d st c : Nat}

/-- The loader's registers are no strand's. -/
theorem strandStat_ne_loader (d st : Nat) (e : Fin 4) :
    Reg.strandStat d st ≠ Reg.ldCtl e.val ∧ Reg.strandStat d st ≠ Reg.ldStat e.val := by
  unfold Reg.strandStat Reg.ldCtl Reg.ldStat Reg.cdPage regAddr
  omega

/-- LD_STAT after a load's end: not running, and the end's code (R103, R105). -/
theorem State.loadEnds_stat (s : State) (d : Nat) (code : Byte) :
    (s.loadEnds d code).fld (Reg.ldStat d) 31 31 = 0 ∧ (s.loadEnds d code).fld (Reg.ldStat d) 23 16 = code.toNat := by
  unfold State.loadEnds
  refine ⟨?_, ?_⟩
  · rw [State.fld_done, State.fld_setFld_apart _ _ _ _ _ _ _ (by decide) (by decide) (by decide) (by decide) (by decide),
      State.fld_setFld_same _ _ _ _ _ (by decide) (by decide)]
    rfl
  · rw [State.fld_done, State.fld_setFld_same _ _ _ _ _ (by decide) (by decide)]
    exact Nat.mod_eq_of_lt code.isLt

/-- A load's end leaves every strand's status alone (R105). -/
theorem State.loadEnds_strand (s : State) (e : Fin 4) (code : Byte) (d st hi lo : Nat) :
    (s.loadEnds e.val code).fld (Reg.strandStat d st) hi lo = s.fld (Reg.strandStat d st) hi lo := by
  obtain ⟨hctl, hstat⟩ := strandStat_ne_loader d st e
  unfold State.loadEnds
  rw [State.fld_done, State.fld_setFld_ne _ _ _ _ _ _ _ _ hstat, State.fld_setFld_ne _ _ _ _ _ _ _ _ hstat,
    State.fld_setFld_ne _ _ _ _ _ _ _ _ hctl]
  rfl

/-- It leaves the memories and the keys alone. -/
theorem State.loadEnds_frame (s : State) (d : Nat) (code : Byte) : (s.loadEnds d code).mem = s.mem ∧
    (s.loadEnds d code).keys = s.keys ∧ (s.loadEnds d code).reply = ⟨code, 0⟩ := by
  unfold State.loadEnds
  simp only [State.done_mem, State.done_keys, State.done_reply, State.setFld_mem, State.setFld_keys, and_self]

/-! #### A strand that takes its recipe (R104, R106) -/

/-- Stages written one after another change no other part of the state. -/
theorem State.setStages_shape (ix : Nat → Nat) (x : Nat → Stage) (gs : List Nat) (s : State) :
    ∃ y, gs.foldl (fun t g => t.setStage (ix g) (x g)) s = { s with stages := y } := by
  refine List.foldlRecOn (motive := fun t : State => ∃ y, t = { s with stages := y }) _ _ ⟨s.stages, rfl⟩ ?_
  rintro t ⟨y, rfl⟩ g -
  exact ⟨_, rfl⟩

theorem State.bindStrand_facts (s : State) (c d st : Nat) (img bind : Bytes) :
    (s.bindStrand c d st img bind).sst d st = SS.ready ∧ (s.bindStrand c d st img bind).sctx d st = c % 16 ∧
    (s.bindStrand c d st img bind).mem = s.mem ∧ (s.bindStrand c d st img bind).keys = s.keys := by
  obtain ⟨y, hy⟩ := State.setStages_shape (stageIx d st) (boundStage img bind (strandKind st))
    (List.range (kindStages (strandKind st))) s
  unfold State.bindStrand
  dsimp only
  rw [hy]
  unfold State.sst State.sctx State.setSst
  simp only [State.setFld_mem, State.setFld_keys, State.setStrand_mem, State.setStrand_keys, and_self, and_true]
  refine ⟨State.fld_setFld_same _ _ _ _ _ (by decide) (by decide), ?_⟩
  rw [State.fld_setFld_apart _ _ _ _ _ _ _ (by decide) (by decide) (by decide) (by decide) (by decide),
    State.fld_setFld_same _ _ _ _ _ (by decide) (by decide)]
  rfl

/-- Between s and t only the contexts' records and hub SRAM differ, where the log lies (R106, R471). -/
def State.logsOnly (s t : State) : Prop := ∃ x m, t = { s with ctxs := x, hubMem := m }

theorem State.logsOnly.trans {s t u : State} (h : s.logsOnly t) (h' : t.logsOnly u) : s.logsOnly u := by
  obtain ⟨x, m, rfl⟩ := h
  obtain ⟨y, n, rfl⟩ := h'
  exact ⟨y, n, rfl⟩

theorem State.logAdd_logsOnly (s : State) (c kind len : Nat) (body : Bytes) : s.logsOnly (s.logAdd c kind len body) :=
  ⟨_, _, rfl⟩

theorem State.logConfig_logsOnly (s : State) (c item d st : Nat) (round : Word) (src : Bytes) :
    s.logsOnly (s.logConfig c item d st round src) :=
  State.logsOnly.trans (t := s.setCtx c _) ⟨_, s.hubMem, rfl⟩ (State.logAdd_logsOnly _ _ _ _ _)

theorem State.logRecipe_logsOnly (s : State) (c d st : Nat) (img bind : Bytes) :
    s.logsOnly (s.logRecipe c d st img bind) :=
  (State.logAdd_logsOnly _ _ _ _ _).trans (State.logConfig_logsOnly _ _ _ _ _ _ _)

/-- The state with a good load ended: the strand bound, the log longer (R104–R106). -/
def State.loadBound (s : State) (d c st : Nat) : State :=
  ((s.bindStrand c d st (s.ldImage d) (s.ldBlock d)).logRecipe c d st (s.ldImage d) (s.ldBlock d)).loadEnds d Code.ok

theorem State.loadBound_facts (s : State) (e : Fin 4) (c st : Nat) :
    (s.loadBound e.val c st).fld (Reg.ldStat e.val) 31 31 = 0 ∧ (s.loadBound e.val c st).fld (Reg.ldStat e.val) 23 16 = 0 ∧
    (s.loadBound e.val c st).sst e.val st = SS.ready ∧ (s.loadBound e.val c st).sctx e.val st = c % 16 ∧
    (s.loadBound e.val c st).mem = s.mem ∧ (s.loadBound e.val c st).keys = s.keys ∧
    (s.loadBound e.val c st).reply = ⟨Code.ok, 0⟩ := by
  obtain ⟨hsst, hctx, hmem, hkeys⟩ := s.bindStrand_facts c e.val st (s.ldImage e.val) (s.ldBlock e.val)
  obtain ⟨x, m, hlog⟩ := State.logRecipe_logsOnly (s.bindStrand c e.val st (s.ldImage e.val) (s.ldBlock e.val)) c e.val st
    (s.ldImage e.val) (s.ldBlock e.val)
  unfold State.loadBound
  rw [hlog]
  generalize s.bindStrand c e.val st (s.ldImage e.val) (s.ldBlock e.val) = u at hsst hctx hmem hkeys
  obtain ⟨hrun, hcode⟩ := State.loadEnds_stat { u with ctxs := x, hubMem := m } e.val Code.ok
  obtain ⟨hm, hk, hr⟩ := State.loadEnds_frame { u with ctxs := x, hubMem := m } e.val Code.ok
  exact ⟨hrun, hcode, (State.loadEnds_strand _ _ _ _ _ _ _).trans hsst, (State.loadEnds_strand _ _ _ _ _ _ _).trans hctx,
    hm.trans hmem, hk.trans hkeys, hr⟩

/-! #### RECIPE_LOAD and RECIPE_LOAD_DONE -/

/-- What RECIPE_LOAD finds in the loader's registers (R103). -/
abbrev State.loadFound (s : State) (d : Nat) : LoadSt := ⟨s.reg (Reg.ldCtl d), s.reg (Reg.ldImg d), s.reg (Reg.ldBind d)⟩

section Start
variable (h0 : s.fld (Reg.ldStat e.val) 31 31 = 0) (hst : s.fld (Reg.ldCtl e.val) 3 0 < 12)
  (hp : s.pdOn (pdStrand e.val (s.fld (Reg.ldCtl e.val) 3 0)) = true)
include h0 hst hp

/-- RECIPE_LOAD reaches its strand where no load runs (R103, R442). -/
theorem exec_recipeLoad : exec (.recipeLoad e) s = .next (
    if s.sst e.val (s.fld (Reg.ldCtl e.val) 3 0) ≠ SS.unbound then s.loadEnds e.val Code.busy
    else (({ s with loads := s.loads.put (fun _ => LoadSt.zero) e.val (s.loadFound e.val) }.setFld
      (Reg.ldCtl e.val) 31 31 1).setFld (Reg.ldStat e.val) 31 31 1).done Code.ok) := by
  have h1 : ¬ s.fld (Reg.ldStat e.val) 31 31 = 1 := by omega
  exact congrArg Host.Outcome.next ((if_neg h1).trans ((if_neg (Nat.not_le.mpr hst)).trans (State.onStrand_on _ _ _ _ hp)))

end Start

/-- What a load works on (R103, R104). -/
abbrev State.ldStrand (s : State) (d : Nat) : Nat := bits (s.load d).ctl 3 0
abbrev State.ldCtx (s : State) (d : Nat) : Nat := bits (s.load d).ctl 15 12

section Done
variable (h1 : s.fld (Reg.ldStat e.val) 31 31 = 1) (hl : s.linksClean = true)
  (hu : s.sst e.val (s.ldStrand e.val) = SS.unbound)
include h1 hl hu

/-- A load over clean links ends by R105's checks. -/
theorem exec_recipeLoadDone : exec (.recipeLoadDone e) s = .next (
    if s.loadCheck e.val (s.ldCtx e.val) (s.ldStrand e.val) = Code.ok then
      s.loadBound e.val (s.ldCtx e.val) (s.ldStrand e.val)
    else s.loadEnds e.val (s.loadCheck e.val (s.ldCtx e.val) (s.ldStrand e.val))) := by
  have h0 : ¬ s.fld (Reg.ldStat e.val) 31 31 = 0 := by omega
  refine congrArg Host.Outcome.next ((if_neg h0).trans ((State.across_clean _ hl _ _ _ _).trans ?_))
  simp only [hu, if_true]
  rfl

end Done

end Load

/-! #### RECIPE_UNBIND (R108) -/

section Unbind
variable {s : State} {d st : Nat}

theorem State.onStages_const (ix : Nat → Nat) (x : Stage) (gs : List Nat) (s : State) (g : Nat) (h : g ∈ gs) :
    (gs.foldl (fun t k => t.setStage (ix k) x) s).stage (ix g) = x := by
  have keeps : ∀ (ks : List Nat) (t : State), t.stage (ix g) = x →
      (ks.foldl (fun t k => t.setStage (ix k) x) t).stage (ix g) = x := by
    intro ks
    induction ks with
    | nil => exact fun t ht => ht
    | cons k ks ih =>
      intro t ht
      refine ih _ ?_
      by_cases hk : ix g = ix k
      · rw [hk, State.stage_setStage_same]
      · rw [State.stage_setStage_ne _ _ _ _ hk, ht]
  induction gs generalizing s with
  | nil => cases h
  | cons k ks ih =>
    rcases List.mem_cons.mp h with rfl | hm
    · exact keeps ks _ (State.stage_setStage_same _ _ _)
    · exact ih _ hm

theorem State.strand_setFld (s : State) (a hi lo x i : Nat) : (s.setFld a hi lo x).strand i = s.strand i := rfl
theorem State.stage_setFld (s : State) (a hi lo x i : Nat) : (s.setFld a hi lo x).stage i = s.stage i := rfl

/-- An unbound strand: UNBOUND, it and its stages zero, memory as it was (R108). -/
theorem State.unbindStrand_facts (s : State) (d st : Nat) : (s.unbindStrand d st).sst d st = SS.unbound ∧
    (s.unbindStrand d st).strand (strandIx d st) = Strand.zero ∧
    (∀ g, g < kindStages (strandKind st) → (s.unbindStrand d st).stage (stageIx d st g) = Stage.zero) ∧
    (s.unbindStrand d st).mem = s.mem := by
  have hmem : (((s.zeroStrand d st).endDrain d st).eachStage d st (fun _ => Stage.zero)).mem = s.mem := by
    obtain ⟨y, hy⟩ := ((s.zeroStrand d st).endDrain d st).eachStage_shape d st (fun _ => Stage.zero)
    rw [hy]
    show ((s.zeroStrand d st).setFld (Reg.strandCtl d st) 30 30 0).mem = s.mem
    rw [State.setFld_mem, (s.zeroStrand_frame d st).1]
  have hzero : ∀ g, g < kindStages (strandKind st) →
      (((s.zeroStrand d st).endDrain d st).eachStage d st (fun _ => Stage.zero)).stage (stageIx d st g) = Stage.zero := by
    unfold State.eachStage
    exact fun g hg => State.onStages_const (stageIx d st) Stage.zero _ _ g (List.mem_range.mpr hg)
  unfold State.unbindStrand
  dsimp only
  generalize ((s.zeroStrand d st).endDrain d st).eachStage d st (fun _ => Stage.zero) = u at hmem hzero
  unfold State.setSst
  refine ⟨State.fld_setFld_same _ _ _ _ _ (by decide) (by decide), ?_, fun g hg => ?_, ?_⟩
  · rw [State.strand_setFld, State.strand_setFld, State.strand_setStrand_same]
  · rw [State.stage_setFld, State.stage_setFld]
    exact hzero g hg
  · rw [State.setFld_mem, State.setFld_mem, State.setStrand_mem, hmem]

/-- RECIPE_UNBIND of a strand that stands still (R103, R108). -/
theorem exec_recipeUnbind {e : Fin 4} {x : Nat} (hx : s.fld (Reg.ldCtl e.val) 3 0 = x) (h12 : x < 12)
    (hp : s.pdOn (pdStrand e.val x) = true)
    (hs : s.sst e.val x = SS.ready ∨ s.sst e.val x = SS.halted ∨ s.sst e.val x = SS.faulted) :
    exec (.recipeUnbind e) s = .next ((s.unbindStrand e.val x).done Code.ok) := by
  subst hx
  exact (if_neg (Nat.not_le.mpr h12)).trans
    (congrArg Host.Outcome.next ((State.onStrand_on _ _ _ _ hp).trans (if_pos hs)))

end Unbind

end Sys2Proof.Machine

open Sys2Proof Sys2Proof.Machine

/-- Settles O21: each command by the state of its strand; a load's end by R105's checks, which find the context first. -/
theorem recipes : Obligations.Recipes := by
  unfold Obligations.Recipes
  refine ⟨?begins, ?bound, ?binds, ?noContext, ?unbinds⟩
  case begins =>
    intro s d h0 hst hp hu
    rw [exec_recipeLoad h0 hst hp, if_neg (not_not_intro hu)]
  case bound =>
    intro s d h0 hst hp hu
    rw [exec_recipeLoad h0 hst hp, if_pos hu]
    rfl
  case binds =>
    intro s d h1 hl hu hst hc
    obtain ⟨hrun, hcode, hsst, hctx, hmem, hkeys, hreply⟩ := s.loadBound_facts d (s.ldCtx d.val) (s.ldStrand d.val)
    have hctx16 : s.ldCtx d.val < 16 := bits_lt _ 15 12 (by decide) (by decide)
    exact ⟨_, (exec_recipeLoadDone h1 hl hu).trans (congrArg Host.Outcome.next (if_pos hc)), hrun, hcode, hsst,
      hctx.trans (Nat.mod_eq_of_lt hctx16), hmem, hkeys, hreply⟩
  case noContext =>
    intro s d h1 hl hc hu
    have hcheck : s.loadCheck d.val (s.ldCtx d.val) (s.ldStrand d.val) = Code.contextUnavailable := if_pos hc
    rw [exec_recipeLoadDone h1 hl hu, hcheck, if_neg (by decide)]
    rfl
  case unbinds =>
    intro s d hst hp hs
    obtain ⟨hsst, hstrand, hstages, hmem⟩ := s.unbindStrand_facts d.val (s.fld (Reg.ldCtl d.val) 3 0)
    refine ⟨_, exec_recipeUnbind rfl hst hp hs, ?_, ?_, fun g hg => ?_, ?_, rfl⟩
    · rw [State.sst_done, hsst]
    · rw [State.strand_done, hstrand]
    · rw [State.stage_done, hstages g hg]
    · rw [State.done_mem, hmem]

end

/-! ### The scalar class (R109–R111, R113, R159, R164)

An instruction that its stage takes is its effect; what is left is arithmetic of the words, and what a predicate reads. -/

section
namespace Sys2Proof.Machine

/-- SLU shifts its register up and appends the immediate (R159). -/
theorem shl_or_imm (v : DWord) (i : BitVec 24) :
    (v <<< 24) ||| i.setWidth 64 = BitVec.ofNat 64 (v.toNat * 2 ^ 24 + i.toNat) := by
  apply BitVec.eq_of_toNat_eq
  have hi : i.toNat < 2 ^ 24 := i.isLt
  rw [BitVec.toNat_or, BitVec.toNat_shiftLeft, BitVec.toNat_setWidth, BitVec.toNat_ofNat, ← Nat.or_mod_two_pow,
    ← Nat.shiftLeft_add_eq_or_of_lt hi, Nat.shiftLeft_eq]

/-! #### Predicates (R109) -/

@[simp] theorem Stage.pr_zero (x : Stage) : x.pr 0 = true := rfl

theorem getLsbD_onebit {i r : Nat} (hr : r < 8) : (BitVec.ofNat 8 (2 ^ i)).getLsbD r = decide (i = r) := by
  rw [BitVec.getLsbD_ofNat, Nat.testBit_two_pow, decide_eq_true hr, Bool.true_and]

/-- What a predicate reads after one is written (R109). -/
theorem Stage.pr_setP (x : Stage) {i r : Nat} (b : Bool) (hi : i ≠ 0) (hr : r < 8) :
    (x.setP i b).pr r = if r = i then b else x.pr r := by
  have hm : (BitVec.ofNat 8 (2 ^ i)).getLsbD r = decide (i = r) := getLsbD_onebit hr
  unfold Stage.setP Stage.pr
  rw [if_neg hi]
  generalize BitVec.ofNat 8 (2 ^ i) = m at hm
  by_cases h : r = i
  · subst h
    cases b <;> simp only [if_true, Bool.false_eq_true, if_false, BitVec.getLsbD_or, BitVec.getLsbD_and,
      BitVec.getLsbD_not, hm] <;> simp [hi]
  · have h' : ¬ i = r := fun e => h e.symm
    cases b <;> simp only [if_true, Bool.false_eq_true, if_false, BitVec.getLsbD_or, BitVec.getLsbD_and,
      BitVec.getLsbD_not, hm] <;> simp [h, h', hr]

/-- Register 0 as a destination leaves the predicates alone (R109). -/
theorem Stage.setP_zero (x : Stage) (b : Bool) : x.setP 0 b = x := rfl

theorem Stage.pr_setP_ne (x : Stage) {i r : Nat} (b : Bool) (hr : r < 8) (h : r ≠ i) : (x.setP i b).pr r = x.pr r := by
  by_cases hi : i = 0
  · rw [hi, Stage.setP_zero]
  · rw [Stage.pr_setP x b hi hr, if_neg h]

/-- A retired stage's predicates are those it retires with. -/
theorem State.pr_retire (s : State) (l : Loc) (x : Stage) (r : Nat) : ((s.retire l x).stage l.ix).pr r = x.pr r := by
  rw [State.retire_stage]
  rfl

/-! #### Descriptors (R113) -/

/-- A descriptor of two scalars is in form when its KIND is assigned and its BASE aligned (R113, R159). -/
theorem descOk_append {a b : DWord} (hk : b.toNat / 2 ^ 56 ≤ 4) (hb : a.toNat % 64 = 0) : descOk (b ++ a) = true := by
  have ha : a.toNat < 2 ^ 64 := a.isLt
  have hv : (b ++ a : QWord).toNat = b.toNat * 2 ^ 64 + a.toNat := by
    rw [BitVec.toNat_append, ← Nat.shiftLeft_add_eq_or_of_lt ha, Nat.shiftLeft_eq]
  unfold descOk
  rw [hv, Bool.and_eq_true, decide_eq_true_eq, decide_eq_true_eq]
  omega

end Sys2Proof.Machine

open Sys2Proof Sys2Proof.Machine

/-- Settles O24: each instruction is its effect once its stage takes it; S registers by `exec_scalar`, the others by the
branch of the effect that the operand's value selects. -/
theorem scalarsAndPredicates : Obligations.ScalarsAndPredicates := by
  unfold Obligations.ScalarsAndPredicates
  refine ⟨?sli, ?slu, ?sadd, ?ssub, ?smul, ?sand, ?sor, ?sxor, ?sshl, ?sshr, ?srd, ?scmp, ?pset, ?swr, ?swrElsewhere,
    ?qset, ?qsetRom, ?qsetInvalid, ?gset, ?dset⟩
  case sli | sadd | ssub | smul | sand | sor | sxor | sshl | sshr | srd | pset =>
    exact fun s l f h => congrArg Host.Outcome.next (State.issue_taken h)
  case slu =>
    intro s l f h
    exact congrArg Host.Outcome.next ((State.issue_taken h).trans
      (congrArg (fun v => s.retire l ((s.stage l.ix).setS f.d v)) (shl_or_imm _ _)))
  case scmp =>
    intro s l f h
    refine ⟨_, congrArg Host.Outcome.next (State.issue_taken h), State.retire_onlyStage _ _ _, rfl, ?_, fun hd => ?_,
      fun r hr hne => ?_⟩
    · rw [State.pr_retire, Stage.pr_zero]
    · have hd8 : f.d < 8 := of_decide_eq_true (Shape.ok_dst h.2.2.2)
      rw [State.pr_retire, Stage.pr_setP _ _ hd hd8, if_pos rfl]
      rfl
    · rw [State.pr_retire, Stage.pr_setP_ne _ _ hr hne]
  case swr => exact fun s l f hk h => congrArg Host.Outcome.next ((State.issue_taken h).trans (if_pos hk))
  case swrElsewhere => exact fun s l f hk h => congrArg Host.Outcome.next ((State.issue_taken h).trans (if_neg hk))
  case qset =>
    intro s l f h h0 hq
    have h1 : f.i ≠ 1 := by omega
    exact congrArg Host.Outcome.next ((State.issue_taken h).trans ((if_neg h1).trans (if_pos hq)))
  case qsetRom =>
    intro s l f h h1 hq
    exact congrArg Host.Outcome.next ((State.issue_taken h).trans ((if_pos h1).trans (if_pos hq)))
  case qsetInvalid =>
    intro s l f h h0 hq
    have h1 : f.i ≠ 1 := by omega
    exact congrArg Host.Outcome.next ((State.issue_taken h).trans ((if_neg h1).trans (if_neg (by rw [hq]; decide))))
  case gset =>
    intro s l f h hodd hlt
    have hg : galoisOk ((s.stage l.ix).sr f.a).toNat = true := by
      rw [galoisOk, decide_eq_true hodd, decide_eq_true hlt]
      rfl
    exact congrArg Host.Outcome.next ((State.issue_taken h).trans (if_pos hg))
  case dset =>
    intro s l f h hk hb
    exact congrArg Host.Outcome.next ((State.issue_taken h).trans (if_pos (descOk_append hk hb)))

end

/-! ### LDT and STT of tiles (R113, R145) -/

section
namespace Sys2Proof.Machine

section Tiles
variable {s : State} {l : Loc} {f : Fields} {ls : List Nat}

/-- LDT through a memory descriptor at an aligned offset loads the tile from the lines of the offset (R145). -/
theorem exec_ldt_lines (h : s.issues l 0x40 f (ldtShape l)) (hd : (s.descA l f).ok l.s 1 [1, 2, 3] = true)
    (hk : (s.descA l f).kind ≠ 3) (ho : (s.stage l.ix).offset f % 64 = 0)
    (hl : (s.descA l f).lines ((s.stage l.ix).offset f) (moveSize l f) = some ls)
    (hb : bankOnly l = true → ls.any s.isHbm = false) :
    exec (.ldt l f) s = .next (s.loadTile l f (s.stage l.ix) ls) := by
  have hb' : ¬ (bankOnly l = true ∧ ls.any s.isHbm = true) := fun hx => by simp [hb hx.1] at hx
  refine congrArg Host.Outcome.next ((State.issue_taken h).trans ?_)
  simp only [hd, hk, ho, hl, hb', not_true_eq_false, ne_eq, if_false]

/-- LDT at an offset whose lines leave the descriptor (R113). -/
theorem exec_ldt_outside (h : s.issues l 0x40 f (ldtShape l)) (hd : (s.descA l f).ok l.s 1 [1, 2, 3] = true)
    (hk : (s.descA l f).kind ≠ 3) (ho : (s.stage l.ix).offset f % 64 = 0)
    (hl : (s.descA l f).lines ((s.stage l.ix).offset f) (moveSize l f) = none) :
    exec (.ldt l f) s = .next (s.stageFault l (.mem Code.accessBounds (s.descA l f).base)) := by
  refine congrArg Host.Outcome.next ((State.issue_taken h).trans ?_)
  simp only [hd, hk, ho, hl, not_true_eq_false, ne_eq, if_false]

/-- STT through a memory descriptor at an aligned offset stores the tile to the lines of the offset (R145). -/
theorem exec_stt_lines (h : s.issues l 0x41 f (sttShape l)) (hd : (s.descD l f).ok l.s 1 [1, 2, 3] = true)
    (hk : (s.descD l f).kind ≠ 3) (ho : (s.stage l.ix).offset f % 64 = 0)
    (hl : (s.descD l f).lines ((s.stage l.ix).offset f) (moveSize l f) = some ls)
    (hb : bankOnly l = true → ls.any s.isHbm = false) :
    exec (.stt l f) s = .next (s.storeTile l f (s.stage l.ix) ls) := by
  have hb' : ¬ (bankOnly l = true ∧ ls.any s.isHbm = true) := fun hx => by simp [hb hx.1] at hx
  refine congrArg Host.Outcome.next ((State.issue_taken h).trans ?_)
  simp only [hd, hk, ho, hl, hb', not_true_eq_false, ne_eq, if_false]

/-- A tile whose lines are all read is the tile register (R145). -/
theorem State.loadTile_good {x : Stage} (hg : (s.runLines l.req false (ls.map (fun a => (a, none)))).good) :
    s.loadTile l f x ls = (s.runLines l.req false (ls.map (fun a => (a, none)))).st.retire l (x.setT f.d
      (Tile.fresh l.tbytes (loadedWords l f (s.runLines l.req false (ls.map (fun a => (a, none)))).data))) := by
  unfold State.loadTile
  rw [Run.cont_good hg]

/-- A whole tile of a stage other than ROUND, all its lines written: no flag is raised (R91, R145). -/
theorem State.storeTile_good {x : Stage} (hk : l.kind ≠ 2) (hbad : (x.tr f.a).bad = none)
    (hg : (s.runLines l.req false (tileOps ((x.tr f.a).bytes l.tbytes) ls)).good) :
    s.storeTile l f x ls = (s.runLines l.req false (tileOps ((x.tr f.a).bytes l.tbytes) ls)).st.retire l
      (x.raiseFlags f.a false false) := by
  unfold State.storeTile storedBytes
  simp only [hk, hbad, if_false, List.take_length]
  rw [Run.cont_good hg]
  rfl

end Tiles

end Sys2Proof.Machine

open Sys2Proof Sys2Proof.Machine

/-- Settles O25: the descriptor's checks lead to the tile's load or store, whose run of lines is good. -/
theorem tileMoves : Obligations.TileMoves := by
  unfold Obligations.TileMoves
  refine ⟨?ldt, ?stt, ?form, fun s l f h hd hk ho hl => exec_ldt_outside h hd hk ho hl⟩
  case ldt =>
    intro s l f ls h hd hk ho hl hb hstall herr
    rw [exec_ldt_lines h hd hk ho hl hb, State.loadTile_good ⟨hstall, herr⟩]
  case stt =>
    intro s l f ls h hkind hd hk ho hbad hl hb hstall herr
    rw [exec_stt_lines h hd hk ho hl hb, State.storeTile_good hkind hbad ⟨hstall, herr⟩]
  case form =>
    intro s l f h hd
    refine congrArg Host.Outcome.next ((State.issue_taken h).trans ?_)
    simp only [hd, Bool.false_eq_true, not_false_eq_true, if_true]
    rfl

end

/-! ### Cipher headers, QPOP, SEND and RECV (R114, R116, R118, R119, R131, R145–R148) -/

section
namespace Sys2Proof.Machine

/-! #### Headers through a CIPHER descriptor (R114, R131, R145) -/

section Headers
variable {s : State} {l : Loc} {f : Fields} {r : Run}

/-- A header that the stage may reach. -/
theorem headerReach {d : Desc} (hlen : 64 ≤ d.length) (hb : bankOnly l = true → s.isHbm d.base = false) :
    ¬ (d.length < 64 ∨ (bankOnly l = true ∧ s.isHbm d.base = true)) := by
  rintro (hx | ⟨h1, h2⟩)
  · omega
  · rw [hb h1] at h2
    cases h2

/-- LDT through a CIPHER descriptor loads a header (R145). -/
theorem exec_ldt_header (h : s.issues l 0x40 f (ldtShape l)) (hok : (s.descA l f).ok l.s 1 [3] = true) (hd : f.d = 0)
    (hf : f.b = 0) (hi : f.i = 0) (hlen : 64 ≤ (s.descA l f).length)
    (hb : bankOnly l = true → s.isHbm (s.descA l f).base = false) :
    exec (.ldt l f) s = .next (s.loadHeader l (s.stage l.ix) (s.descA l f)) := by
  obtain ⟨hk, hd3⟩ := Desc.ok_cipher hok
  refine congrArg Host.Outcome.next ((State.issue_taken h).trans ?_)
  simp only [hd3, hk, hd, hf, hi, headerReach hlen hb, not_true_eq_false, ne_eq, or_self, if_false, if_true]

/-- A header that passes its check is the entry (R114, R116). -/
theorem State.loadHeader_passes {x : Stage} {d : Desc} (hg : (s.runLines l.req false (readOps d.base 64)).good)
    (hr : r = s.runLines l.req false (readOps d.base 64))
    (hc : r.st.hdrCheck (r.st.ctxOf l) (Hdr.of (BitVec.ofNat 512 (fromLE r.data))) = none) :
    s.loadHeader l x d = (r.st.setCipher l d.index (BitVec.ofNat 512 (fromLE r.data))).retire l x := by
  unfold State.loadHeader
  rw [Run.cont_good hg, ← hr]
  simp only [hc]

/-- A header that fails its check is its code (R116). -/
theorem State.loadHeader_fails {x : Stage} {d : Desc} {e : Byte}
    (hg : (s.runLines l.req false (readOps d.base 64)).good) (hr : r = s.runLines l.req false (readOps d.base 64))
    (hc : r.st.hdrCheck (r.st.ctxOf l) (Hdr.of (BitVec.ofNat 512 (fromLE r.data))) = some e) :
    s.loadHeader l x d = r.st.stageFault l (.insn e) := by
  unfold State.loadHeader
  rw [Run.cont_good hg, ← hr]
  simp only [hc]
  rfl

section Store
variable (h : s.issues l 0x41 f (sttShape l)) (hok : (s.descD l f).ok l.s 1 [3] = true) (hf : f.b = 0) (hi : f.i = 0)
  (hlen : 64 ≤ (s.descD l f).length) (hb : bankOnly l = true → s.isHbm (s.descD l f).base = false)
include h hok hf hi hlen hb

/-- STT of an entry without POISON writes its 64 bytes (R145). -/
theorem exec_stt_header (hp : poisoned (s.cipher l (s.descD l f).index) = false)
    (hg : (s.runLines l.req false (writeOps (s.descD l f).base (le 64 (s.cipher l (s.descD l f).index).toNat))).good)
    (hr : r = s.runLines l.req false (writeOps (s.descD l f).base (le 64 (s.cipher l (s.descD l f).index).toNat))) :
    exec (.stt l f) s = .next ((r.st.noteExport l f (s.descD l f).base).retire l (s.stage l.ix)) := by
  obtain ⟨hk, hd3⟩ := Desc.ok_cipher hok
  refine congrArg Host.Outcome.next ((State.issue_taken h).trans ?_)
  simp only [hd3, hk, hf, hi, hp, headerReach hlen hb, not_true_eq_false, ne_eq, or_self, Bool.false_eq_true, false_and,
    if_false, if_true]
  rw [Run.cont_good hg, ← hr]

/-- STT with HINT 3 of a poisoned entry is refused (R131). -/
theorem exec_stt_refused (hx : f.hint = 3) (hp : poisoned (s.cipher l (s.descD l f).index) = true) :
    exec (.stt l f) s = .next (s.refuseRelease l) := by
  obtain ⟨hk, hd3⟩ := Desc.ok_cipher hok
  refine congrArg Host.Outcome.next ((State.issue_taken h).trans ?_)
  simp only [hd3, hk, hf, hi, hp, hx, headerReach hlen hb, not_true_eq_false, ne_eq, or_self, true_or, and_self, if_false,
    if_true]

end Store

end Headers

/-! #### QPOP of the Tideway queue (R146, R147) -/

section Pop
variable {s : State} {l : Loc} {f : Fields}

/-- What QPOP's entry permits (R146). -/
def qpopShape (l : Loc) (f : Fields) : Shape :=
  { stages := [St.intake, St.load, St.convert], dst := .t, sa := .s, imm := 0x13
    extra := decide (f.imf 1 0 ≠ 3) && (decide (f.imf 1 0 ≠ 0) || decide (l.name = St.intake)) && decide (f.a ≤ 29) }

theorem exec_qpop_takes {p : Pkt} {ps : List Pkt} (h : s.issues l 0x42 f (qpopShape l f)) (hn : f.imf 1 0 = 1)
    (hr : s.sst l.d l.s = SS.running) (hq : (s.queue (100 + strandIx l.d l.s)).pkts = p :: ps) :
    exec (.qpop l f) s = .next (s.popInto l f (s.stage l.ix) (100 + strandIx l.d l.s) p ps) := by
  have hd : ¬ s.sst l.d l.s = SS.draining := by
    rw [hr]
    decide
  refine congrArg Host.Outcome.next ((State.issue_taken h).trans ?_)
  simp only [hn, hd, popQueue, hq, if_false, ne_eq, one_ne_zero, not_false_eq_true, or_true, if_true]

theorem exec_qpop_empty (h : s.issues l 0x42 f (qpopShape l f)) (hn : f.imf 1 0 = 1) (h4 : f.imf 4 4 = 1)
    (hq : (s.queue (100 + strandIx l.d l.s)).pkts = []) :
    exec (.qpop l f) s = .next (s.retire l ((s.stage l.ix).setP 6 false)) := by
  refine congrArg Host.Outcome.next ((State.issue_taken h).trans ?_)
  simp only [hn, h4, popQueue, hq, if_false, ne_eq, one_ne_zero, not_false_eq_true, or_true, if_true, ite_self]

/-- A good packet of a queue that is not an ingress queue, whose tiles all find a register. -/
theorem State.popInto_plain {x : Stage} {q : Nat} {p : Pkt} {ps : List Pkt} (hq : ¬ q < 16) (hb : p.bad = false)
    (ht : f.d + (plainPktTiles l p).length ≤ l.tregs) : s.popInto l f x q p ps =
    (s.setQueue q { s.queue q with pkts := ps, unret := 0, ce := (s.queue q).ce + p.fixed }).retire l
      (if f.imf 4 4 = 1 then ((x.headWords f.a p).putTiles f.d (plainPktTiles l p)).setP 6 true
        else (x.headWords f.a p).putTiles f.d (plainPktTiles l p)) := by
  unfold State.popInto State.pop
  simp only [hq, hb, false_and, if_false, if_neg (Nat.not_lt.mpr ht), Bool.false_eq_true]

end Pop

/-! #### SEND and RECV (R77, R118, R148) -/

section Channel
variable {s : State} {l : Loc} {f : Fields} {t : Tile} {y : Stage}

/-- What SEND's entry permits (R148). -/
def sendShape (l : Loc) (f : Fields) : Shape :=
  { stages := [0, 1, 2, 3, 8, 9, 10, 11, 12, 13, 14, 16, 17, 18], sa := .t, hints := [0, 2], imm := 0xF
    extra := decide (l.g < f.imf 2 0) && decide (f.imf 2 0 < kindStages l.kind) }

theorem exec_send_sends (h : s.issues l 0x43 f (sendShape l f)) (hc : (s.stage l.ix).credits ≠ 0)
    (hf : (s.stage l.ix).fence = 0) (ht : (s.stage l.ix).fwdTurn l.g = false)
    (hs : (s.stage l.ix).source l f = some (t, y)) : exec (.send l f) s = .next (s.sendTile l f y t) := by
  have hready : ¬ ((s.stage l.ix).credits = 0 ∨ 0 < (s.stage l.ix).fence ∨ (s.stage l.ix).fwdTurn l.g = true) := by
    simp [hc, hf, ht]
  exact congrArg Host.Outcome.next ((State.issue_taken h).trans ((if_neg hready).trans
    (State.operands_eq s l f _ [] none _ t y (fun _ hr => absurd hr List.not_mem_nil) hs _)))

/-- A slot that can be used is taken (R118). -/
theorem State.withSlot_takes {x : Stage} (hs : x.takeSlot l.g = some (t, y)) (hd : t.dataErr = false)
    (k : Tile → Stage → State) : s.withSlot l x k = k t y := by
  unfold State.withSlot
  simp only [hs, hd, Bool.false_eq_true, if_false]

theorem State.withSlot_waits {x : Stage} (hs : x.takeSlot l.g = none) (k : Tile → Stage → State) :
    s.withSlot l x k = s.waits := by
  unfold State.withSlot
  simp only [hs]

end Channel

end Sys2Proof.Machine

open Sys2Proof Sys2Proof.Machine

/-- Settles O26: each clause is the branch of its instruction that the hypotheses select. -/
theorem headersAndStreams : Obligations.HeadersAndStreams := by
  unfold Obligations.HeadersAndStreams
  refine ⟨?loaded, ?refused, ?stored, ?exported, ?popped, fun s l f h hn h4 hq => exec_qpop_empty h hn h4 hq, ?sent,
    fun s l f h hc => congrArg Host.Outcome.next ((State.issue_taken h).trans (if_pos (Or.inl hc))), ?received,
    fun s l f h hs => congrArg Host.Outcome.next ((State.issue_taken h).trans (State.withSlot_waits hs _))⟩
  case loaded =>
    intro s l f r h hok hd hf hi hlen hb hr hg hc
    rw [exec_ldt_header h hok hd hf hi hlen hb, State.loadHeader_passes (hr ▸ hg) hr hc]
  case refused =>
    intro s l f r e h hok hd hf hi hlen hb hr hg hc
    rw [exec_ldt_header h hok hd hf hi hlen hb, State.loadHeader_fails (hr ▸ hg) hr hc]
  case stored =>
    intro s l f r h hok hf hi hlen hb hp hr hg
    exact exec_stt_header h hok hf hi hlen hb hp (hr ▸ hg) hr
  case exported =>
    intro s l f h hx hok hf hi hlen hb hp
    exact exec_stt_refused h hok hf hi hlen hb hx hp
  case popped =>
    intro s l f p ps h hn hr hq hb ht
    rw [exec_qpop_takes h hn hr hq, State.popInto_plain (by omega) hb ht]
  case sent =>
    intro s l f t y h hc hf ht hs
    exact exec_send_sends h hc hf ht hs
  case received =>
    intro s l f t y h hs hd
    exact congrArg Host.Outcome.next ((State.issue_taken h).trans (State.withSlot_takes hs hd _))

end

/-! ### CMRG (R129, R130, R152, R153) -/

section
namespace Sys2Proof.Machine

section Merge
variable {s : State} {l : Loc} {f : Fields}

/-- Entries that each pass their check (R116). -/
theorem State.hdrsCheck_pass {is : List Nat} (h : ∀ i, i ∈ is → s.hdrCheck (s.ctxOf l) (s.hdr l i) = none) :
    s.hdrsCheck l is = none :=
  List.findSome?_eq_none_iff.mpr h

/-- Of an instruction that is taken the entry's own condition holds (R134). -/
theorem Shape.ok_extra {sh : Shape} (h : sh.ok l f = true) : sh.extra = true := by
  simp only [Shape.ok, Bool.and_eq_true] at h
  obtain ⟨⟨⟨⟨⟨-, hextra⟩, -⟩, -⟩, -⟩, -⟩ := h
  exact hextra

/-- What CMRG's entry permits by its operation; with two sources; with one (R152). -/
def cmrgShape (f : Fields) : Shape :=
  { stages := St.cs, dst := .d, sa := .d, sb := if f.imf 1 0 = 1 then .none else .d, imm := 0xFFFF03
    extra := decide (f.imf 1 0 ≠ 3) && (decide (f.imf 1 0 = 1) || decide (f.imf 23 8 = 0)) }
def cmrgTwo (f : Fields) : Shape :=
  { stages := St.cs, dst := .d, sa := .d, sb := .d, imm := 0xFFFF03,
    extra := decide (f.imf 1 0 ≠ 3) && decide (f.imf 23 8 = 0) }
def cmrgOne : Shape := { stages := St.cs, dst := .d, sa := .d, imm := 0xFFFF03 }

theorem cmrgShape_two (h : f.imf 1 0 ≠ 1) : cmrgShape f = cmrgTwo f := by
  unfold cmrgShape
  rw [if_neg h, decide_eq_false h, Bool.false_or]
  rfl

theorem cmrgShape_one (h : f.imf 1 0 = 1) : cmrgShape f = cmrgOne := by
  unfold cmrgShape
  rw [h]
  rfl

section Two
variable (hop : f.imf 1 0 ≠ 1) (h : s.issues l 0x64 f (cmrgTwo f)) (hD : (s.descD l f).ok l.s 1 [3] = true)
  (hA : (s.descA l f).ok l.s 1 [3] = true) (hB : (s.descB l f).ok l.s 1 [3] = true)
  (cA : s.hdrCheck (s.ctxOf l) (s.hdrA l f) = none) (cB : s.hdrCheck (s.ctxOf l) (s.hdrB l f) = none)
  (cD : s.hdrCheck (s.ctxOf l) (s.hdrD l f) = none)
include hop h hD hA hB cA cB cD

/-- CMRG of two sources that pass their checks merges their headers, with no scale step (R153). -/
theorem exec_cmrg_two : exec (.cmrg l f) s =
    .next (s.cmrg l (s.stage l.ix) (s.descD l f).index (f.imf 1 0) 0 (s.hdrA l f) (s.hdrB l f)) := by
  have hx : (cmrgTwo f).extra = true := Shape.ok_extra h.2.2.2
  have hz : f.imf 23 8 = 0 := by
    rw [cmrgTwo, Bool.and_eq_true, decide_eq_true_eq, decide_eq_true_eq] at hx
    exact hx.2
  have hcheck : s.hdrsCheck l [(s.descA l f).index, (s.descB l f).index, (s.descD l f).index] = none := by
    refine State.hdrsCheck_pass fun i hi => ?_
    simp only [List.mem_cons, List.not_mem_nil, or_false] at hi
    rcases hi with rfl | rfl | rfl
    · exact cA
    · exact cB
    · exact cD
  rw [← cmrgShape_two hop] at h
  refine congrArg Host.Outcome.next ((State.issue_taken h).trans ?_)
  simp only [hop, hD, hA, hB, hcheck, hz, Bool.and_self, not_true_eq_false, if_false]
  rfl

end Two

/-- CMRG of one source that passes its check is a merge of the source with itself (R153). -/
theorem exec_cmrg_one (hop : f.imf 1 0 = 1) (h : s.issues l 0x64 f cmrgOne) (hD : (s.descD l f).ok l.s 1 [3] = true)
    (hA : (s.descA l f).ok l.s 1 [3] = true) (cA : s.hdrCheck (s.ctxOf l) (s.hdrA l f) = none)
    (cD : s.hdrCheck (s.ctxOf l) (s.hdrD l f) = none) : exec (.cmrg l f) s =
    .next (s.cmrg l (s.stage l.ix) (s.descD l f).index 1 (BitVec.ofNat 16 (f.imf 23 8)).toInt (s.hdrA l f) (s.hdrA l f)) := by
  have hcheck : s.hdrsCheck l [(s.descA l f).index, (s.descA l f).index, (s.descD l f).index] = none := by
    refine State.hdrsCheck_pass fun i hi => ?_
    simp only [List.mem_cons, List.not_mem_nil, or_false] at hi
    rcases hi with rfl | rfl | rfl
    · exact cA
    · exact cA
    · exact cD
  rw [← cmrgShape_one hop] at h
  refine congrArg Host.Outcome.next ((State.issue_taken h).trans ?_)
  simp only [hop, hD, hA, hcheck, Bool.and_self, not_true_eq_false, if_false, if_true]

/-! The merge by what the sources are. -/

variable {x : Stage} {i op : Nat} {ps : Int} {a b h : Hdr}

theorem State.cmrg_merged (he : h = cmrgEntry op ps a b (s.hdr l i))
    (hc : h.poison = true ∨ (cmrgBad op ps a b = false ∧ s.opsOver (s.ctxOf l) op a b = false)) :
    s.cmrg l x i op ps a b = (s.putHdr l i h).retire l x := by
  unfold State.cmrg
  rw [← he]
  rcases hc with hp | ⟨hb, ho⟩
  · simp only [hp, if_true]
  · simp only [hb, ho, Bool.false_eq_true, if_false, ite_self]

theorem State.cmrg_unsuited (he : h = cmrgEntry op ps a b (s.hdr l i)) (hp : h.poison = false)
    (hb : cmrgBad op ps a b = true) : s.cmrg l x i op ps a b = s.stageFault l (.insn Code.formatError) := by
  unfold State.cmrg
  rw [← he]
  simp only [hp, hb, Bool.false_eq_true, if_false, if_true]
  rfl

theorem State.cmrg_exhausted (he : h = cmrgEntry op ps a b (s.hdr l i)) (hp : h.poison = false)
    (hb : cmrgBad op ps a b = false) (ho : s.opsOver (s.ctxOf l) op a b = true) : s.cmrg l x i op ps a b =
    (s.putHdr l i { h.poisonedOf with level := a.level, scale := a.scale }).stageFault l (.insn Code.levelExhausted) := by
  unfold State.cmrg
  rw [← he]
  simp only [hp, hb, ho, Bool.false_eq_true, if_false, if_true]
  rfl

end Merge

end Sys2Proof.Machine

open Sys2Proof Sys2Proof.Machine

/-- Settles O27: CMRG is `State.cmrg` on its sources' headers, which is the case its conditions select. -/
theorem cipherMerge : Obligations.CipherMerge := by
  unfold Obligations.CipherMerge
  refine ⟨?two, ?one, ?exhausted, ?unsuited⟩
  case two =>
    intro s l f h hop hi hD hA hB cA cB cD he hc
    rw [exec_cmrg_two hop hi hD hA hB cA cB cD, State.cmrg_merged he hc]
  case one =>
    intro s l f h hop hi hD hA cA cD he hc
    rw [exec_cmrg_one hop hi hD hA cA cD, State.cmrg_merged he hc]
  case exhausted =>
    intro s l f h hop hi hD hA hB cA cB cD he hp hb ho
    rw [exec_cmrg_two hop hi hD hA hB cA cB cD, State.cmrg_exhausted he hp hb ho]
  case unsuited =>
    intro s l f h hop hi hD hA hB cA cB cD he hp hb
    rw [exec_cmrg_two hop hi hD hA hB cA cB cD, State.cmrg_unsuited he hp hb]

end

/-! ### RESC, MODX and RFR (R129, R130, R144, R151, R177, R178, R234–R236, R241) -/

section
namespace Sys2Proof.Machine

section Fused
variable {s : State} {l : Loc} {f : Fields} {x : Stage} {i : Nat}

/-! #### Accesses of a fused instruction -/

theorem Run.fused_good {r : Run} (h : r.good) (s0 : State) (l : Loc) (c a n : Nat) (k : State → Bytes → State) :
    r.fused s0 l c a n k = k r.st r.data :=
  Run.cont_good h _ _ _ _

/-- The result's data is written, and then its entry (R138). -/
theorem State.fusedWrite_good {s0 : State} {c : Nat} {h : Hdr} {data : Bytes}
    (hg : (s.runLines l.req false (writeOps h.ptr data)).good) : s.fusedWrite s0 l x c i h data =
    ((s.runLines l.req false (writeOps h.ptr data)).st.putHdr l i h).retire l x :=
  Run.fused_good hg _ _ _ _ _ _

/-! #### RESC and MODX (R144, R177, R178) -/

/-- Two entries that pass their checks (R116). -/
theorem State.hdrsCheck_pair {j : Nat} (hi : s.hdrCheck (s.ctxOf l) (s.hdr l i) = none)
    (hj : s.hdrCheck (s.ctxOf l) (s.hdr l j) = none) : s.hdrsCheck l [i, j] = none := by
  refine State.hdrsCheck_pass fun k hk => ?_
  simp only [List.mem_cons, List.not_mem_nil, or_false] at hk
  rcases hk with rfl | rfl
  · exact hi
  · exact hj

section Drop
variable {p : Machine.PSet} {resc : Bool} {keep : Nat}

/-- RESC or MODX on a TYPE 1 source in coefficient form that passes its checks (R144). -/
theorem State.dropLimbs_formed (hD : (s.descD l f).ok l.s 1 [3] = true) (hA : (s.descA l f).ok l.s 1 [3] = true)
    (cA : s.hdrCheck (s.ctxOf l) (s.hdrA l f) = none) (cD : s.hdrCheck (s.ctxOf l) (s.hdrD l f) = none)
    (hp : s.pset (s.ctxOf l) (s.hdrA l f).pset = some p) (ht : (s.hdrA l f).typ = 1) (hn : (s.hdrA l f).ntt = false)
    (hform : if resc then (s.hdrA l f).ptLog = 0 else keep ≠ 0 ∧ keep < (s.hdrA l f).limbs) :
    s.dropLimbs l f (s.stage l.ix) resc keep = s.rescModx l (s.stage l.ix) (s.descD l f).index resc
      (if resc then 1 else (s.hdrA l f).limbs - keep) p (s.hdrA l f) := by
  have hok : ¬ ((s.hdrA l f).typ ≠ 1 ∨ (s.hdrA l f).ntt = true ∨ (resc = true ∧ (s.hdrA l f).ptLog ≠ 0) ∨
      (¬ resc = true ∧ (keep = 0 ∨ (s.hdrA l f).limbs ≤ keep))) := by
    cases resc
    · obtain ⟨h0, h1⟩ : keep ≠ 0 ∧ keep < (s.hdrA l f).limbs := hform
      simp [ht, hn, h0, Nat.not_le.mpr h1]
    · have h0 : (s.hdrA l f).ptLog = 0 := hform
      simp [ht, hn, h0]
  unfold State.dropLimbs
  simp only [hD, hA, State.hdrsCheck_pair cA cD, hp, hok, Bool.and_self, not_true_eq_false, if_false]

variable {drop : Nat} {h new : Hdr} (hnew : new = s.rescEntry resc drop p h (s.hdr l i))
include hnew

theorem State.rescModx_poisoned (hp : h.poison = true) :
    s.rescModx l x i resc drop p h = ((s.took 1).putHdr l i new).retire l x := by
  rw [hnew]
  exact if_pos hp

theorem State.rescModx_exhausted (hp : h.poison = false) (hl : h.level < drop) :
    s.rescModx l x i resc drop p h = (s.putHdr l i new.poisonedOf).stageFault l (.insn Code.levelExhausted) := by
  rw [hnew]
  exact (if_neg (by rw [hp]; decide)).trans (if_pos hl)

/-- With the level to drop the source is read, and the result written (R144). -/
theorem State.rescModx_runs {r w : Run} (hp : h.poison = false) (hl : drop ≤ h.level)
    (hr : r = (s.took 1).runLines l.req false (readOps h.ptr h.len)) (hrg : r.good)
    (hw : w = (r.st.took (2 * new.limbs * 2 ^ h.logn)).runLines l.req false
      (writeOps new.ptr (r.st.rescOut resc p h new r.data))) (hwg : w.good) :
    s.rescModx l x i resc drop p h = (w.st.putHdr l i new).retire l x := by
  have hrun : s.rescModx l x i resc drop p h = (s.took 1).rescRun l x i resc p h new := by
    rw [hnew]
    exact (if_neg (by rw [hp]; decide)).trans (if_neg (Nat.not_lt.mpr hl))
  rw [hrun, State.rescRun, ← hr, Run.fused_good hrg, State.fusedWrite_good (hw ▸ hwg), ← hw]

end Drop

/-! #### RFR (R151, R234–R236) -/

/-- The numbers of a span from its first. -/
theorem mem_span {a n j : Nat} (h : j ∈ span a (a + n)) : ∃ k, k < n + 1 ∧ a + k = j := by
  obtain ⟨k, hk, he⟩ := List.mem_map.mp h
  exact ⟨k, by have := List.mem_range.mp hk; omega, he⟩

/-- The sources of a RFR. -/
abbrev State.rfrHdrs (s : State) (l : Loc) (f : Fields) : List Hdr :=
  (List.range (f.i + 1)).map (fun k => s.hdr l ((s.descA l f).index + k))

/-- Sources and destinations of RFR that each pass their check (R116). -/
theorem State.hdrsCheck_rfr (hA : ∀ g, g ∈ s.rfrHdrs l f → s.hdrCheck (s.ctxOf l) g = none)
    (hD : ∀ k, k < f.i + 1 → s.hdrCheck (s.ctxOf l) (s.hdr l ((s.descD l f).index + k)) = none) :
    s.hdrsCheck l (span (s.descA l f).index ((s.descA l f).index + f.i) ++
      span (s.descD l f).index ((s.descD l f).index + f.i)) = none := by
  refine State.hdrsCheck_pass fun j hj => ?_
  rcases List.mem_append.mp hj with hj | hj
  · obtain ⟨k, hk, rfl⟩ := mem_span hj
    exact hA _ (List.mem_map.mpr ⟨k, List.mem_range.mpr hk, rfl⟩)
  · obtain ⟨k, hk, rfl⟩ := mem_span hj
    exact hD k hk

/-- What RFR's entry permits (R151). -/
def rfrInsn : Shape := { stages := [St.kacc], dst := .d, sa := .d, sb := .d, sc := .d, imm := 0xF }

/-- The sources are LWE samples of one size, set and key tag (R151). -/
def Hdr.alike (h g : Hdr) : Prop := g.typ = 2 ∧ g.lweN = h.lweN ∧ g.pset = h.pset ∧ g.keytag = h.keytag

section Refresh
variable {p : Machine.PSet} (h : s.issues l 0x61 f rfrInsn)
  (hD : (s.descD l f).ok l.s (f.i + 1) [3] = true) (hA : (s.descA l f).ok l.s (f.i + 1) [3] = true)
  (hB : (s.descB l f).ok l.s 1 [4] = true) (hC : (s.descC l f).ok l.s 1 [1] = true)
  (cA : ∀ g, g ∈ s.rfrHdrs l f → s.hdrCheck (s.ctxOf l) g = none ∧ (s.hdrA l f).alike g)
  (cD : ∀ k, k < f.i + 1 → s.hdrCheck (s.ctxOf l) (s.hdr l ((s.descD l f).index + k)) = none)
  (hp : s.pset (s.ctxOf l) (s.hdrA l f).pset = some p) (hl : (s.descC l f).length ≤ 16384)
  (h8 : (s.descC l f).length % 8 = 0)
include h hD hA hB hC cA cD hp hl h8

/-- RFR on entries in form goes on by its key stream, its sources' POISON, and its data (R151). -/
theorem exec_rfr_formed : exec (.rfr l f) s = .next (
    if ¬ s.keyRegistered (s.ctxOf l) (s.descB l f) [5] = true then s.stageFault l (.insn Code.accessBounds)
    else if (s.rfrHdrs l f).any Hdr.poison = true then
      ((List.range (f.i + 1)).foldl (fun t k => t.putHdr l ((s.descD l f).index + k)
        (rfrEntry ((s.rfrHdrs l f).getD k (s.hdrA l f)) (t.hdr l ((s.descD l f).index + k)) true)) s).retire l (s.stage l.ix)
    else s.rfrRun l (s.stage l.ix) (s.descD l f).index (s.descB l f) (s.descC l f) p (s.hdrA l f) (s.rfrHdrs l f)) := by
  have hcheck := State.hdrsCheck_rfr (fun g hg => (cA g hg).1) cD
  have hall : (s.rfrHdrs l f).all (fun g => decide (g.typ = 2 ∧ g.lweN = (s.hdrA l f).lweN ∧ g.pset = (s.hdrA l f).pset ∧
      g.keytag = (s.hdrA l f).keytag)) = true :=
    List.all_eq_true.mpr fun g hg => decide_eq_true (cA g hg).2
  refine congrArg Host.Outcome.next ((State.issue_taken h).trans ?_)
  simp only [hD, hA, hB, hC, hcheck, hp, hall, Nat.not_lt.mpr hl, h8, Bool.and_self, not_true_eq_false, ne_eq, or_self,
    if_false]
  rfl

end Refresh

/-- The data that RFR writes for source j: the table's bytes, the sources' and the chunks' (R234–R236). -/
abbrev State.rfrData (v : State) (p : Machine.PSet) (h : Hdr) (lut src key : Bytes) (j : Nat) : Bytes :=
  v.rfrOut p h lut (sub src (j * h.len) h.len) j (Config.refreshKey h.keytag (lut.length / 8) key)

/-- The results of RFR are written, all their data and then all their entries (R234). -/
theorem State.rfrWrite_good {s0 : State} {hs : List Hdr} {out : Nat → Bytes} {w : Run}
    (hw : w = s.runLines l.req false
      (((List.range hs.length).map (fun j => writeOps (s.hdr l (i + j)).ptr (out j))).flatten)) (hg : w.good) :
    s.rfrWrite s0 l x i hs out = ((List.range hs.length).foldl (fun u j => u.putHdr l (i + j)
      (rfrEntry (hs.getD j (Hdr.of 0)) (u.hdr l (i + j)) false)) w.st).retire l x := by
  unfold State.rfrWrite
  dsimp only
  rw [← hw, Run.cont_good hg]

/-- RFR with its chunks, its table and its sources read (R234, R236). -/
theorem State.rfrRun_good {p : Machine.PSet} {h : Hdr} {hs : List Hdr} {dk dl : Desc} {k b r w : Run}
    (hlen : rfrLen p.lweN (dataLen 3 p.logn 1 p.dnum 0) ≤ dk.length)
    (hk : k = s.readChunks l (s.chunkFault (s.ctxOf l) [h.keytag] (rfrShape p h.pset))
      (rfrChunks dk.base p.lweN (dataLen 3 p.logn 1 p.dnum 0))) (hkg : k.good)
    (hb : b = k.st.runLines l.req false (readOps dl.base dl.length)) (hbg : b.good)
    (hlut : lutOk p (b.data.take dl.length) = true)
    (hr : r = b.st.runLines l.req false ((hs.map (fun g => readOps g.ptr g.len)).flatten)) (hrg : r.good)
    (hw : w = r.st.runLines l.req false (((List.range hs.length).map (fun j =>
      writeOps (r.st.hdr l (i + j)).ptr (r.st.rfrData p h (b.data.take dl.length) r.data k.data j))).flatten)) (hwg : w.good) :
    s.rfrRun l x i dk dl p h hs = (((List.range hs.length).foldl (fun u j => u.putHdr l (i + j)
      (rfrEntry (hs.getD j (Hdr.of 0)) (u.hdr l (i + j)) false)) w.st).retire l x).took (hs.length * (p.lweN + 2)) := by
  unfold State.rfrRun
  simp only [if_neg (Nat.not_lt.mpr hlen)]
  rw [← hk, Run.cont_good hkg, ← hb, Run.cont_good hbg]
  simp only [hlut, not_true_eq_false, if_false]
  rw [← hr, Run.cont_good hrg, State.rfrWrite_good hw hwg]

end Fused

end Sys2Proof.Machine

open Sys2Proof Sys2Proof.Machine

/-- Settles O28: RESC and MODX are `State.rescModx` on a source in form, RFR goes by its stream, its POISON and its data. -/
theorem levelDropsAndRefresh : Obligations.LevelDropsAndRefresh := by
  unfold Obligations.LevelDropsAndRefresh
  refine ⟨?resc, ?modx, ?rfr⟩
  case resc =>
    intro s l f p new h hD hA cA cD hp ht hn h0 hnew
    have hrun : exec (.resc l f) s =
        .next (s.rescModx l (s.stage l.ix) (s.descD l f).index true 1 p (s.hdrA l f)) :=
      congrArg Host.Outcome.next ((State.issue_taken h).trans
        (State.dropLimbs_formed (resc := true) (keep := 0) hD hA cA cD hp ht hn h0))
    rw [hrun]
    refine ⟨fun hq => ?_, fun hq hl => ?_, fun r w hq hl hr hrg hw hwg => ?_⟩
    · rw [State.rescModx_poisoned hnew hq]
    · rw [State.rescModx_exhausted hnew hq (by omega)]
    · rw [State.rescModx_runs hnew hq hl hr hrg hw hwg]
  case modx =>
    intro s l f p new h hD hA cA cD hp ht hn hi hlt hnew
    have hrun : exec (.modx l f) s =
        .next (s.rescModx l (s.stage l.ix) (s.descD l f).index false ((s.hdrA l f).limbs - f.i) p (s.hdrA l f)) :=
      congrArg Host.Outcome.next ((State.issue_taken h).trans
        (State.dropLimbs_formed (resc := false) (keep := f.i) hD hA cA cD hp ht hn ⟨hi, hlt⟩))
    rw [hrun]
    refine ⟨fun hq => ?_, fun r w hq hl hr hrg hw hwg => ?_⟩
    · rw [State.rescModx_poisoned hnew hq]
    · rw [State.rescModx_runs hnew hq hl hr hrg hw hwg]
  case rfr =>
    intro s l f hs p h hD hA hB hC hhs cA cD hp hl h8
    subst hhs
    have hrun := exec_rfr_formed h hD hA hB hC cA cD hp hl h8
    have hB' : (s.rfrHdrs l f).length = f.i + 1 := by rw [List.length_map, List.length_range]
    refine ⟨fun hr => ?_, fun hr hq => ?_, fun k b r w hr hq hlen hk hkg hb hbg hlut hsrc hsg hw hwg => ?_⟩
    · rw [hrun, if_pos (by rw [hr]; decide)]
    · rw [hrun, if_neg (by rw [hr]; decide), if_pos hq]
    · rw [hrun, if_neg (by rw [hr]; decide), if_neg (by rw [hq]; decide),
        State.rfrRun_good hlen hk hkg hb hbg hlut hsrc hsg (by rw [hB']; exact hw) hwg, hB']

end

/-! ### KSW, EXTR and PACK (R129, R149, R152, R227, R232, R241) -/

section
namespace Sys2Proof.Machine

section Keyed
variable {s : State} {l : Loc} {f : Fields} {x : Stage} {i : Nat} {dk : Desc} {p : Machine.PSet} {h d kh new : Hdr} {k r w : Run}

/-- A key chunk that is read whole goes on with its header and its data (R149). -/
theorem State.withChunk_good {chk : Bytes → Option FaultInfo} (hk : k = s.readChunk l chk dk) (hg : k.good)
    (hkh : kh = Hdr.of (BitVec.ofNat 512 (fromLE (k.data.take 64)))) (c a n : Nat) (run : State → Hdr → Bytes → State) :
    s.withChunk l dk chk c a n run = run k.st kh (k.data.drop 64) := by
  unfold State.withChunk
  dsimp only
  rw [← hk, Run.cont_good hg, ← hkh]

/-- KSW with its chunk and its source read (R149, R227). -/
theorem State.kswRun_good {o : Bool} (hk : k = s.readChunk l (s.chunkFault (s.ctxOf l) [h.keytag] (kswShape h)) dk)
    (hkg : k.good) (hkh : kh = Hdr.of (BitVec.ofNat 512 (fromLE (k.data.take 64))))
    (hr : r = k.st.runLines l.req false (readOps h.ptr h.len)) (hrg : r.good) (hnew : new = kswEntry h d o)
    (hw : w = (r.st.took (2 * h.limbs * 2 ^ h.logn)).runLines l.req false
      (writeOps new.ptr (r.st.kswOut p h kh o r.data (k.data.drop 64)))) (hwg : w.good) :
    s.kswRun l x i dk p h d o = (w.st.putHdr l i new).retire l x := by
  unfold State.kswRun
  dsimp only
  rw [State.withChunk_good hk hkg hkh, ← hr, Run.fused_good hrg, ← hnew, State.fusedWrite_good (hw ▸ hwg), ← hw]

/-- EXTR with its chunk and its source read (R152, R232). -/
theorem State.extrRun_good {id n j : Nat}
    (hk : k = s.readChunk l (s.chunkFault (s.ctxOf l) [h.keytag] (kswShape h)) dk) (hkg : k.good)
    (hkh : kh = Hdr.of (BitVec.ofNat 512 (fromLE (k.data.take 64))))
    (hr : r = k.st.runLines l.req false (readOps h.ptr h.len)) (hrg : r.good) (hnew : new = extrEntry h d id n)
    (hw : w = (r.st.took (n + 1)).runLines l.req false
      (writeOps new.ptr (r.st.extrOut p.first n j h kh r.data (k.data.drop 64)))) (hwg : w.good) :
    s.extrRun l x i j dk p h d id n = (w.st.putHdr l i new).retire l x := by
  unfold State.extrRun
  dsimp only
  rw [State.withChunk_good hk hkg hkh, ← hr, Run.fused_good hrg, ← hnew, State.fusedWrite_good (hw ▸ hwg), ← hw]

/-- PACK with its chunk, its sample and its destination's data read (R152, R232). -/
theorem State.packRun_good {j : Nat} {v : Run}
    (hk : k = s.readChunk l (s.chunkFault (s.ctxOf l) [h.keytag, d.keytag] (kswShape d)) dk) (hkg : k.good)
    (hkh : kh = Hdr.of (BitVec.ofNat 512 (fromLE (k.data.take 64))))
    (hr : r = k.st.runLines l.req false (readOps h.ptr h.len)) (hrg : r.good)
    (hv : v = r.st.runLines l.req false (readOps d.ptr d.len)) (hvg : v.good) (hnew : new = packEntry h d)
    (hw : w = (v.st.took (2 * 2 ^ d.logn)).runLines l.req false
      (writeOps new.ptr (v.st.packOut p.first h.lweN j d kh v.data r.data (k.data.drop 64)))) (hwg : w.good) :
    s.packRun l x i j dk p h d = (w.st.putHdr l i new).retire l x := by
  unfold State.packRun
  dsimp only
  rw [State.withChunk_good hk hkg hkh, ← hr, Run.fused_good hrg, ← hv, Run.fused_good hvg, ← hnew,
    State.fusedWrite_good (hw ▸ hwg), ← hw]

/-! #### The checks before a key stream is read -/

/-- What the entries of KSW, EXTR and PACK permit (R149, R152). -/
def keyedShape (imm : Nat) : Shape := { stages := [St.kacc], dst := .d, sa := .d, sb := .d, imm := imm }

section Checked
variable (hD : (s.descD l f).ok l.s 1 [3] = true) (hA : (s.descA l f).ok l.s 1 [3] = true)
  (hB : (s.descB l f).ok l.s 1 [4] = true) (cA : s.hdrCheck (s.ctxOf l) (s.hdrA l f) = none)
  (cD : s.hdrCheck (s.ctxOf l) (s.hdrD l f) = none)
include hD hA hB cA cD

/-- KSW of a TYPE 1 source apart from its destination goes by its key stream and by POISON (R149). -/
theorem exec_ksw_formed (hi : s.issues l 0x60 f (keyedShape 1)) (hp : s.pset (s.ctxOf l) (s.hdrA l f).pset = some p)
    (ht : (s.hdrA l f).typ = 1)
    (ho : overlaps (s.hdrA l f).ptr (s.hdrA l f).len (s.hdrD l f).ptr (s.hdrA l f).len = false) : exec (.ksw l f) s =
    .next (if ¬ s.keyRegistered (s.ctxOf l) (s.descB l f) [1, 2] = true then s.stageFault l (.insn Code.accessBounds)
      else if (s.hdrA l f).poison = true then
        (s.putHdr l (s.descD l f).index (kswEntry (s.hdrA l f) (s.hdrD l f) (decide (f.i = 1)))).retire l (s.stage l.ix)
      else s.kswRun l (s.stage l.ix) (s.descD l f).index (s.descB l f) p (s.hdrA l f) (s.hdrD l f) (decide (f.i = 1))) := by
  refine congrArg Host.Outcome.next ((State.issue_taken hi).trans ?_)
  simp only [hD, hA, hB, cA, cD, hp, ht, ho, Bool.and_self, not_true_eq_false, ne_eq, Bool.false_eq_true, or_self, if_false]
  rfl

/-- EXTR of a coefficient that the source has, under a key of its own, goes by POISON (R152). -/
theorem exec_extr_formed {w0 : Machine.PSet} (hi : s.issues l 0x62 f (keyedShape 0x1FFFF))
    (hp : s.pset (s.ctxOf l) (s.hdrA l f).pset = some p) (h0 : p.lweSet ≠ 0)
    (hw : s.pset (s.ctxOf l) p.lweSet = some w0) (ht : (s.hdrA l f).typ = 1) (hn : (s.hdrA l f).ntt = false)
    (h1 : (s.hdrA l f).limbs = 1) (hlt : f.i < 2 ^ (s.hdrA l f).logn)
    (hr : s.keyRegistered (s.ctxOf l) (s.descB l f) [3] = true) : exec (.extr l f) s =
    .next (if (s.hdrA l f).poison = true then
        (s.putHdr l (s.descD l f).index (extrEntry (s.hdrA l f) (s.hdrD l f) p.lweSet w0.lweN)).retire l (s.stage l.ix)
      else s.extrRun l (s.stage l.ix) (s.descD l f).index f.i (s.descB l f) p (s.hdrA l f) (s.hdrD l f) p.lweSet
        w0.lweN) := by
  refine congrArg Host.Outcome.next ((State.issue_taken hi).trans ?_)
  simp only [hD, hA, hB, cA, cD, hp, h0, hw, ht, hn, h1, hr, Nat.not_le.mpr hlt, Bool.and_self, not_true_eq_false, ne_eq,
    Bool.false_eq_true, or_self, if_false]

/-- PACK of a sample of the set that the destination's set produces, at a coefficient it has, goes by POISON (R152). -/
theorem exec_pack_formed (hi : s.issues l 0x63 f (keyedShape 0x1FFFF))
    (hp : s.pset (s.ctxOf l) (s.hdrD l f).pset = some p) (ht : (s.hdrA l f).typ = 2) (htd : (s.hdrD l f).typ = 1)
    (h1 : (s.hdrD l f).limbs = 1) (hs : p.lweSet = (s.hdrA l f).pset) (hlt : f.i < 2 ^ (s.hdrD l f).logn)
    (hr : s.keyRegistered (s.ctxOf l) (s.descB l f) [4] = true) : exec (.pack l f) s =
    .next (if (s.hdrA l f).poison = true ∨ (s.hdrD l f).poison = true then
        (s.putHdr l (s.descD l f).index (packEntry (s.hdrA l f) (s.hdrD l f))).retire l (s.stage l.ix)
      else s.packRun l (s.stage l.ix) (s.descD l f).index f.i (s.descB l f) p (s.hdrA l f) (s.hdrD l f)) := by
  refine congrArg Host.Outcome.next ((State.issue_taken hi).trans ?_)
  simp only [hD, hA, hB, cA, cD, hp, ht, htd, h1, hs, hr, Nat.not_le.mpr hlt, Bool.and_self, not_true_eq_false, ne_eq,
    or_self, if_false]

end Checked

end Keyed

end Sys2Proof.Machine

open Sys2Proof Sys2Proof.Machine

/-- Settles O29: past its checks each instruction goes by its key stream and by POISON, and its run by what it reads. -/
theorem keyStreams : Obligations.KeyStreams := by
  unfold Obligations.KeyStreams
  refine ⟨?ksw, ?extr, ?pack⟩
  case ksw =>
    intro s l f p new kh hi hD hA hB cA cD hp ht ho hnew
    rw [exec_ksw_formed hD hA hB cA cD hi hp ht ho]
    refine ⟨fun hr => ?_, fun hr hq => ?_, fun k r w hr hq hk hkg hkh hsrc hsg hw hwg => ?_⟩
    · rw [if_pos (by rw [hr]; decide)]
    · rw [if_neg (by rw [hr]; decide), if_pos hq, hnew]
    · rw [if_neg (by rw [hr]; decide), if_neg (by rw [hq]; decide), State.kswRun_good hk hkg hkh hsrc hsg hnew hw hwg]
  case extr =>
    intro s l f p w0 new kh hi hD hA hB cA cD hp h0 hw0 ht hn h1 hlt hr hnew
    rw [exec_extr_formed hD hA hB cA cD hi hp h0 hw0 ht hn h1 hlt hr]
    refine ⟨fun hq => ?_, fun k r w hq hk hkg hkh hsrc hsg hw hwg => ?_⟩
    · rw [if_pos hq, hnew]
    · rw [if_neg (by rw [hq]; decide), State.extrRun_good hk hkg hkh hsrc hsg hnew hw hwg]
  case pack =>
    intro s l f p new kh hi hD hA hB cA cD hp ht htd h1 hs hlt hr hnew
    rw [exec_pack_formed hD hA hB cA cD hi hp ht htd h1 hs hlt hr]
    refine ⟨fun hq => ?_, fun k r v w hq hqd hk hkg hkh hsrc hsg hdst hdg hw hwg => ?_⟩
    · rw [if_pos hq, hnew]
    · rw [if_neg (by rw [hq, hqd]; decide), State.packRun_good hk hkg hkh hsrc hsg hdst hdg hnew hw hwg]

end

/-! ### The control class (R119, R124, R125, R132, R160, R161) -/

section
namespace Sys2Proof.Machine

/-- A loop that ends at `fin` lies inside the loop around it (R161). -/
def loopFits (fin : Nat) : List LoopFrame → Bool
  | [] => true
  | r :: _ => decide (fin ≤ r.fin)

theorem loopFits_of {fin : Nat} {rs : List LoopFrame} (h : ∀ r qs, rs = r :: qs → fin ≤ r.fin) :
    loopFits fin rs = true := by
  cases rs with
  | nil => rfl
  | cons r qs => exact decide_eq_true (h r qs rfl)

/-- The stage in the body of the LOOP at its PC (R161). -/
abbrev Stage.inBody (x : Stage) (f : Fields) : Stage :=
  { x with pc := x.pc + 1, loops := ⟨x.pc + 1, f.i, (x.sr f.a).toNat - 1⟩ :: x.loops }

section Control
variable {s : State} {l : Loc} {f : Fields}

section Loop
variable (h : s.issues l 0xE0 f { stages := St.all, sa := .s, imm := 0x3FFF })
include h

/-- LOOP by its end, the open loops and its count (R161). -/
theorem exec_loop : exec (.loop l f) s = .next (
    if 4 ≤ (s.stage l.ix).loops.length ∨ f.i ≤ (s.stage l.ix).pc ∨ (s.stage l.ix).codeWords ≤ f.i ∨
      loopFits f.i (s.stage l.ix).loops = false then s.stageFault l (.insn Code.formatError)
    else if ((s.stage l.ix).sr f.a).toNat = 0 then s.retire l { s.stage l.ix with pc := f.i }
    else (s.setStage l.ix ((s.stage l.ix).inBody f)).done Code.ok) :=
  congrArg Host.Outcome.next (State.issue_taken h)

theorem exec_loop_malformed
    (hb : 4 ≤ (s.stage l.ix).loops.length ∨ f.i ≤ (s.stage l.ix).pc ∨ (s.stage l.ix).codeWords ≤ f.i) :
    exec (.loop l f) s = .next (s.stageFault l (.insn Code.formatError)) := by
  rw [exec_loop h, if_pos (by omega)]

theorem exec_loop_formed (hn : (s.stage l.ix).loops.length < 4) (hp : (s.stage l.ix).pc < f.i)
    (hc : f.i < (s.stage l.ix).codeWords) (hr : ∀ r rs, (s.stage l.ix).loops = r :: rs → f.i ≤ r.fin) :
    exec (.loop l f) s = .next (if ((s.stage l.ix).sr f.a).toNat = 0 then s.retire l { s.stage l.ix with pc := f.i }
      else (s.setStage l.ix ((s.stage l.ix).inBody f)).done Code.ok) := by
  rw [exec_loop h, loopFits_of hr, if_neg]
  rintro (hx | hx | hx | hx)
  · omega
  · omega
  · omega
  · cases hx

end Loop

/-- BR to a place in the program goes by its predicate (R160). -/
theorem exec_br_inside (h : s.issues l 0xE1 f { stages := St.all, sa := .br, imm := 0xFFFFFF }) (hi : f.i < 2 ^ 14)
    (hc : f.i < (s.stage l.ix).codeWords) : exec (.br l f) s = .next (if (s.stage l.ix).taken f = true then
      (s.setStage l.ix { s.stage l.ix with pc := f.i, loops := leaveLoops f.i (s.stage l.ix).loops }).done Code.ok
      else s.retire l (s.stage l.ix)) := by
  have hret : ¬ (f.i = 0xFFFFFF ∨ f.i = 0xFFFFFE) := by omega
  have hin : ¬ (2 ^ 14 ≤ f.i ∨ (s.stage l.ix).codeWords ≤ f.i) := by omega
  exact congrArg Host.Outcome.next ((State.issue_taken h).trans ((if_neg hret).trans (if_neg hin)))

/-- The stages of a BAR's mask that have arrived (R124). -/
abbrev State.barOf (s : State) (l : Loc) (f : Fields) : BarSt :=
  (s.strand (strandIx l.d l.s)).bars.get (fun _ => ⟨0, 0⟩) (f.imf 19 16)

theorem exec_bar (h : s.issues l 0xE2 f { stages := St.all, imm := 0xF00FF }) : exec (.bar l f) s = .next (
    if (s.barOf l f).arrived = 0 then
      (s.barArrive l (s.stage l.ix) (f.imf 19 16) ⟨BitVec.ofNat 8 (f.imf 7 0), 0⟩).done Code.ok
    else if (s.barOf l f).mask = BitVec.ofNat 8 (f.imf 7 0) then
      (s.barArrive l (s.stage l.ix) (f.imf 19 16) (s.barOf l f)).done Code.ok
    else s.stageFault l (.insn Code.formatError)) :=
  congrArg Host.Outcome.next (State.issue_taken h)

/-- BARW arrives; in a strand that then drains the stage stops (R125, R464). -/
theorem exec_barw {t : State} (h : s.issues l 0xE3 f { stages := St.all, imm := 0xFF })
    (ht : t = (s.setStage l.ix { s.stage l.ix with wait := .barw f.i, fillerOut := false }).barwArrive (s.ctxOf l) f.i) :
    exec (.barw l f) s = .next ((if t.sst l.d l.s = SS.draining then t.setStage l.ix (t.stage l.ix).stopBarw
      else t).done Code.ok) := by
  rw [ht]
  exact congrArg Host.Outcome.next (State.issue_taken h)

/-- FENCE of the input slots (R119). -/
theorem exec_fence_slots (h : s.issues l 0xE5 f { stages := St.all, imm := 3 }) (hi : f.i / 2 = 1) :
    exec (.fence l f) s = .next (s.retire l { s.stage l.ix with
      fence := ((s.stage l.ix).slots.filter (fun t => decide (l.g < t.dest.toNat))).length }) := by
  have hf : f.imf 1 1 = 1 := by
    show f.i / 2 ^ 1 % 2 ^ (1 + 1 - 1) = 1
    omega
  refine congrArg Host.Outcome.next ((State.issue_taken h).trans ?_)
  simp only [hf, if_true]

end Control

end Sys2Proof.Machine

open Sys2Proof Sys2Proof.Machine

/-- Settles O33: each control instruction is its effect once its stage takes it, by the branch its operands select. -/
theorem controlFlow : Obligations.ControlFlow := by
  unfold Obligations.ControlFlow
  refine ⟨?enters, ?skips, fun s l f h hb => exec_loop_malformed h hb, ?taken, ?goesOn, ?first, ?later, ?barw,
    fun s l f h => congrArg Host.Outcome.next (State.issue_taken h), fun s l f h hi => exec_fence_slots h hi,
    fun s l f h => congrArg Host.Outcome.next (State.issue_taken h)⟩
  case enters =>
    intro s l f h hn hp hc hr hz
    have hz' : ((s.stage l.ix).sr f.a).toNat ≠ 0 := fun hx => hz (BitVec.eq_of_toNat_eq hx)
    rw [exec_loop_formed h hn hp hc hr, if_neg hz']
  case skips =>
    intro s l f h hn hp hc hr hz
    have hz' : ((s.stage l.ix).sr f.a).toNat = 0 := by
      rw [hz]
      rfl
    rw [exec_loop_formed h hn hp hc hr, if_pos hz']
  case taken =>
    intro s l f h hi hc hp hv
    have ht : (s.stage l.ix).taken f = true := by
      rw [Stage.taken, hp, hv]
      rfl
    rw [exec_br_inside h hi hc, if_pos ht]
  case goesOn =>
    intro s l f h hi hc hp hv
    have ht : ¬ (s.stage l.ix).taken f = true := by
      rw [Stage.taken, hp, hv]
      decide
    rw [exec_br_inside h hi hc, if_neg ht]
  case first =>
    intro s l f h ha
    rw [exec_bar h, if_pos ha]
  case later =>
    intro s l f b h hb ha
    rw [hb] at ha ⊢
    refine ⟨fun hm => ?_, fun hm => ?_⟩
    · rw [exec_bar h, if_neg ha, if_pos hm]
    · rw [exec_bar h, if_neg ha, if_neg hm]
  case barw =>
    intro s t l f h ht
    refine ⟨fun hd => ?_, fun hd => ?_⟩
    · rw [exec_barw h ht, if_neg hd]
    · rw [exec_barw h ht, if_pos hd]

end

/-! ### Answers, timers and barrier messages of connections (R125, R355, R361–R363, R365, R369–R371) -/

section
namespace Sys2Proof.Machine

/-! #### What leaves the connections alone -/

/-- What every step of a fold keeps the fold keeps. -/
theorem foldl_keeps {α β : Type} {g : State → β} {f : State → α → State} (h : ∀ t a, g (f t a) = g t) (xs : List α) :
    ∀ s : State, g (xs.foldl f s) = g s := by
  induction xs with
  | nil => exact fun s => rfl
  | cons x xs ih => exact fun s => (ih (f s x)).trans (h s x)

theorem State.conn_congr {s t : State} (h : t.conns = s.conns) (i : Nat) : t.conn i = s.conn i := by
  unfold State.conn
  rw [h]

theorem State.post_conns (s : State) (q : Nat) (e : Ev) : (s.post q e).conns = s.conns := by
  obtain ⟨r, x, m, h⟩ := s.post_shape q e
  rw [h]

theorem State.crossPorts_conns (ps : List Nat) : ∀ s : State, (s.crossPorts ps).1.conns = s.conns := by
  induction ps with
  | nil => exact fun s => rfl
  | cons k ks ih =>
    intro s
    rw [State.crossPorts]
    split
    · exact ih s
    · exact ih _
    · exact State.post_conns (s.setPort k ⟨.good, (s.port k).ce⟩) 0 _

theorem State.sendCtrl_conns (s : State) (dst : Option (BitVec 14)) (msg : Nat) (b : Bytes) :
    (s.sendCtrl dst msg b).conns = s.conns := by
  unfold State.sendCtrl
  dsimp only
  split <;> exact State.crossPorts_conns _ s

theorem State.count64_conns (s : State) (a n : Nat) : (s.count64 a n).conns = s.conns := State.setReg64_conns s a _

theorem State.sendConn_conns (s : State) (i : Nat) (p : Packet) : (s.sendConn i p).conns = s.conns :=
  State.count64_conns _ _ _

/-! An aborted round leaves the connections alone (R191, R216). -/

theorem State.eachStage_conns (s : State) (d st : Nat) (f : Stage → Stage) : (s.eachStage d st f).conns = s.conns := by
  obtain ⟨x, h⟩ := s.eachStage_shape d st f
  rw [h]

theorem State.drainWrite_conns (s : State) (d st : Nat) : (s.drainWrite d st).conns = s.conns := by
  unfold State.drainWrite
  split
  · rw [State.setSst_conns, State.setFld_conns, State.eachStage_conns]
  · rfl

theorem State.clearFoldOut_conns (s : State) (c : Nat) : (s.clearFoldOut c).conns = s.conns := by
  refine foldl_keeps (g := State.conns) (fun t l => foldl_keeps (g := State.conns) (fun u e => ?_) _ t) _ s
  split <;> rfl

theorem State.stopWork_conns (s : State) (c : Nat) : (s.stopWork c).conns = s.conns := by
  refine (foldl_keeps (g := State.conns) (fun t e => ?_) _ _).trans (s.clearFoldOut_conns c)
  split
  · exact t.drainWrite_conns _ _
  · rfl

theorem State.startWake_conns (s : State) (n : Nat) : (s.startWake n).conns = s.conns := by
  unfold State.startWake
  dsimp only
  split
  · rw [State.setFld_conns]
  · split <;> rfl

theorem State.startHandover_conns (s : State) (d b : Nat) (w : Word) (clr : Bool) :
    (s.startHandover d b w clr).conns = s.conns := by
  unfold State.startHandover
  exact (State.startWake_conns _ _).trans ((State.setFld_conns _ _ _ _ _).trans (State.setBank_conns _ _ _ _))

theorem State.freeBanksWhere_conns (s : State) (p : Word → Bool) : (s.freeBanksWhere p).conns = s.conns := by
  refine foldl_keeps (g := State.conns) (fun t e => ?_) _ s
  split
  · rfl
  · split
    · exact t.startHandover_conns _ _ _ _
    · split <;> rfl

theorem State.emptyTables_conns (s : State) (c : Nat) : (s.emptyTables c).conns = s.conns := by
  refine foldl_keeps (g := State.conns) (fun t e => ?_) _ s
  split <;> rfl

theorem State.emptyStore_conns (s : State) (r : Round) : (s.emptyStore r).conns = s.conns :=
  foldl_keeps (g := State.conns) (fun t a => t.zeroMem_conns a 128) _ s

theorem State.noRound_conns (s : State) (c : Nat) : (s.noRound c).conns = s.conns :=
  foldl_keeps (g := State.conns) (fun t _ => t.setReg_conns _ 0) _ s

theorem State.gatePhase_conns (s : State) (c p : Nat) : (s.gatePhase c p).conns = s.conns :=
  foldl_keeps (g := State.conns) (fun t _ => t.setFld_conns _ 3 0 p) _ s

theorem State.zeroSlot_conns (s : State) (n : Nat) : (s.zeroSlot n).conns = s.conns := by
  unfold State.zeroSlot
  rw [State.setPstate_conns, State.setPendingKey_conns, State.setActive_conns]

theorem State.phaseCast_conns (s : State) (c : Nat) : (s.phaseCast c).conns = s.conns := by
  unfold State.phaseCast
  split
  · split
    · rw [State.sendCtrl_conns, State.setRound_conns]
    · rfl
  · rfl

theorem State.abortRound_conns (s : State) (c : Nat) : (s.abortRound c).conns = s.conns := by
  unfold State.abortRound
  split
  · unfold State.endRound
    split
    · rfl
    · dsimp only
      rw [State.phaseCast_conns, State.zeroSlot_conns, State.gatePhase_conns, State.noRound_conns, State.setCtx_conns,
        State.emptyTables_conns, State.freeBanksWhere_conns, if_pos rfl, State.stopWork_conns, State.setRound_conns,
        State.emptyStore_conns]
  · rfl

/-- The root's failure ends a round, no connection (R215). -/
theorem State.rootLost_conns (s : State) (i : Nat) : (s.rootLost i).conns = s.conns := by
  unfold State.rootLost
  dsimp only
  split
  · split
    · exact s.abortRound_conns _
    · rfl
  · rfl

/-! #### Connections -/

section Conn
variable {s : State} {i : Nat}

@[simp] theorem State.conn_count64 (s : State) (a n i : Nat) : (s.count64 a n).conn i = s.conn i :=
  State.conn_congr (State.count64_conns s a n) i
@[simp] theorem State.conn_sendConn (s : State) (j i : Nat) (p : Packet) : (s.sendConn j p).conn i = s.conn i :=
  State.conn_congr (State.sendConn_conns s j p) i
@[simp] theorem State.conn_done (s : State) (c : Byte) (i : Nat) : (s.done c).conn i = s.conn i := rfl
@[simp] theorem State.conn_rootLost (s : State) (j i : Nat) : (s.rootLost j).conn i = s.conn i :=
  State.conn_congr (State.rootLost_conns s j) i

/-- An ended connection is ENDED and has no packet outstanding (R341, R365). -/
theorem State.conn_endConnAt (s : State) (i k : Nat) (a b : Byte) :
    ((s.endConnAt i k a b).conn i).st = .ended ∧ ((s.endConnAt i k a b).conn i).sent = [] := by
  unfold State.endConnAt
  rw [State.conn_setConn_same]
  exact ⟨rfl, rfl⟩

/-- An ACK that is due leaves (R362). -/
theorem exec_ackSend {n : BitVec 16} (hd : (s.conn n.toNat).ackDue = true) (hs : (s.conn n.toNat).st = .established) :
    ∃ q, exec (.ackSend n) s = .next (((s.setConn n.toNat { s.conn n.toNat with
      ackDue := false, ece := 0, nextAsn := (s.conn n.toNat).nextAsn + 1, climOut := s.climFor n.toNat }).sendConn n.toNat
        q).done Code.ok) := by
  have hsends : ¬ (¬ (s.conn n.toNat).ackDue = true ∨
      ¬ ((s.conn n.toNat).st = .established ∨ (s.conn n.toNat).st = .paused)) := by
    simp [hd, hs]
  exact ⟨_, if_neg hsends⟩

/-- A record that is written as its packet leaves is what the connection reads; memory is as it was. -/
theorem State.sentWith_facts (s : State) (i : Nat) (c : Conn) (q : Packet) (code : Byte) :
    (((s.setConn i c).sendConn i q).done code).conn i = c ∧ (((s.setConn i c).sendConn i q).done code).mem = s.mem := by
  refine ⟨?_, ?_⟩
  · rw [State.conn_done, State.conn_sendConn, State.conn_setConn_same]
  · rw [State.done_mem, State.sendConn, State.count64, State.setReg64_mem]
    rfl

end Conn

/-! #### ACK and NAK (R355, R361, R363) -/

section Answer
variable {s : State} {p : Packet} {op m : Nat}

/-- The state in which an ACK or NAK with a good tag is used (R355). -/
abbrev State.answerUsed (s : State) (p : Packet) (m : Nat) : State :=
  (s.setConn p.dconn { s.conn p.dconn with lastAsn := some m, hsLast := none }).count64 (Reg.cnCnt (connLd p.dconn) 0x00) 1

section Named
variable (hh : s.connHere p = true) (ho : p.op = op) (hn : s.connNamed p = true)
include hh ho hn

section New
variable (hm : nearest ((s.conn p.dconn).lastAsn.getD 0) p.psn = some m)
  (ha : ∀ a, (s.conn p.dconn).lastAsn = some a → a < m)
include hm ha

/-- An answer whose ASN is above the last is used if its tag holds (R355). -/
theorem State.answerPkt_new (k : State → State) : s.answerPkt p op k = (s.connOpen p.dconn true m p).elim
    ((s.cnCount (connLd p.dconn) 0x1C).done Code.aeadFail) (fun _ => k (s.answerUsed p m)) := by
  unfold State.answerPkt
  cases hl : (s.conn p.dconn).lastAsn with
  | none =>
    rw [hl] at hm
    simp only [hh, ho, hn, hm, hl, not_true_eq_false, ne_eq, or_self, Bool.false_eq_true, if_false]
    cases s.connOpen p.dconn true m p <;> rfl
  | some a =>
    have hlt : ¬ m ≤ a := Nat.not_le.mpr (ha a hl)
    rw [hl] at hm
    simp only [hh, ho, hn, hm, hl, hlt, decide_false, not_true_eq_false, ne_eq, or_self, Bool.false_eq_true, if_false]
    cases s.connOpen p.dconn true m p <;> rfl

end New

theorem State.answerPkt_old {a : Nat} (hl : (s.conn p.dconn).lastAsn = some a) (hm : nearest a p.psn = some m)
    (ha : m ≤ a) (k : State → State) : s.answerPkt p op k = (s.cnCount (connLd p.dconn) 0x14).done Code.ok := by
  unfold State.answerPkt
  simp only [hh, ho, hn, hm, hl, ha, Option.getD_some, decide_true, not_true_eq_false, ne_eq, or_self, if_false, if_true]

end Named

end Answer

/-! #### Resends (R346, R363) -/

section Resend
variable {s : State} {i : Nat} {x : SentPkt} {b : Bool}

/-- An eighth retry ends the connection (R363). -/
theorem State.resendPkt_ends (h : 7 < x.tries + b2n b) : ((s.resendPkt i x b).conn i).st = .ended ∧
    (s.resendPkt i x b).reply = ⟨Code.retryExceeded, 0⟩ := by
  unfold State.resendPkt
  dsimp only
  split
  · rw [if_pos h, State.conn_done, State.conn_rootLost]
    exact ⟨(s.conn_endConnAt i 0 _ _).1, rfl⟩
  · rw [if_pos h, State.conn_done, State.conn_rootLost]
    exact ⟨(s.conn_endConnAt i _ _ _).1, rfl⟩

/-- A packet without an entry goes again under the next TRY, with no data (R346). -/
theorem State.resendPkt_bare (hw : ∀ w, w ∈ (s.conn i).work → ¬ (w.first ≤ x.epsn ∧ x.epsn < w.first + w.pkts))
    (h : x.tries + b2n b ≤ 7) : ∃ q : Packet, s.resendPkt i x b =
    ((s.setConn i { s.conn i with sent := (s.conn i).sent.map (fun y =>
      if y.epsn = x.epsn then ⟨x.epsn, (x.try_ + 1) % 8, 0, q, false, x.tries + b2n b⟩ else y) }).sendConn i q).done Code.ok := by
  have hj : (s.conn i).work.findIdx (fun w => decide (w.first ≤ x.epsn ∧ x.epsn < w.first + w.pkts)) =
      (s.conn i).work.length := by
    rw [List.findIdx_eq_length]
    exact fun w hmem => decide_eq_false (hw w hmem)
  refine ⟨s.connSeal i false x.epsn ((x.pkt.setTf 19 1 ((x.try_ + 1) % 8)).setTf 18 1 0x4C) x.pkt.ext [], ?_⟩
  unfold State.resendPkt
  simp only [hj, List.getElem?_eq_none (Nat.le_refl _), if_neg (Nat.not_lt.mpr h)]

end Resend

/-! #### NAKs with a hint, GONE and the timers (R361, R363, R365) -/

section Timers
variable {s u : State} {n : BitVec 16} {x : SentPkt}

/-- A NAK with a hint holds the packet it names (R363). -/
theorem State.nakked_held {i e : Nat} {c : Byte} (hc : c = Code.contextUnavailable ∨ c = Code.retryAfter)
    (hx : x ∈ ((s.nakked i e c).conn i).sent) (he : x.epsn = e) : x.held = true := by
  unfold State.nakked at hx
  rw [if_pos hc, State.conn_done, State.conn_setConn_same] at hx
  obtain ⟨y, -, rfl⟩ := List.mem_map.mp hx
  by_cases hy : y.epsn = e
  · rw [if_pos hy]
  · rw [if_neg hy] at he
    exact absurd he hy

/-- The connections whose peer a GONE names (R365). -/
abbrev State.goneBy (s : State) (p : Packet) : List Nat :=
  s.connsWhere (fun c => decide (c.st = .established ∨ c.st = .paused) && decide (c.peer = p.src) &&
    decide (c.peerConn.toNat = p.sconn))

theorem exec_goneReceive {p : Packet} {i : Nat} {is : List Nat} (hh : s.connHere p = true) (ho : p.op = 8)
    (hw : s.goneBy p = i :: is) : exec (.goneReceive p) s =
    .next ((((s.endConn i Code.connectionClosed Code.connectionClosed).rootLost i).count64
      (Reg.cnCnt (connLd i) 0x00) 1).done Code.ok) := by
  show execGoneReceive p s = _
  unfold execGoneReceive
  simp only [hh, ho, hw, not_true_eq_false, ne_eq, or_self, if_false]

section Rto
variable {xs : List SentPkt} (hx : (s.conn n.toNat).sent = x :: xs) (hs : (s.conn n.toNat).st = .established)
  (hu : u = (s.cnCount (connLd n.toNat) 0x2C).toCredit n.toNat)
include hx hs hu

/-- In credit mode the oldest packet goes again, unless a hint holds it (R361, R363). -/
theorem exec_rtoExpire : exec (.rtoExpire n) s = .next (
    if x.held = true then (u.setConn n.toNat { u.conn n.toNat with
      cleanEp := 0, recover := (s.conn n.toNat).nextEpsn }).done Code.ok
    else if (s.resendPkt n.toNat x true).reply.status = Code.deferred then s.resendPkt n.toNat x true
    else (u.setConn n.toNat { u.conn n.toNat with
      cleanEp := 0, recover := (s.conn n.toNat).nextEpsn }).resendPkt n.toNat x true) := by
  show execRtoExpire n s = _
  unfold execRtoExpire
  simp only [hx, hs, ← hu, ne_eq, not_true_eq_false, if_false]
  split
  · rfl
  · split <;> rfl

end Rto

theorem exec_nakHintExpire (hf : (s.conn n.toNat).sent.find? (fun y => y.held) = some x)
    (hs : (s.conn n.toNat).st = .established) : exec (.nakHintExpire n) s = .next (s.resendPkt n.toNat x false) := by
  show execNakHintExpire n s = _
  unfold execNakHintExpire
  simp only [hf, hs, ne_eq, not_true_eq_false, if_false]

/-- Hints for longer than TW_PAUSE end the connection at the entry of the packet they hold (R363). -/
theorem exec_twPauseExpire (hs : (s.conn n.toNat).st = .established) (hh : (s.conn n.toNat).hinted = true) :
    ∃ j, exec (.twPauseExpire n) s =
      .next ((s.endConnAt n.toNat j Code.retryExceeded Code.connectionClosed).done Code.retryExceeded) :=
  ⟨_, if_pos ⟨hs, hh⟩⟩

end Timers

/-! #### Barrier messages (R369–R371) -/

section Barriers
variable {s : State} {c n : Byte} {i : BitVec 16}

theorem exec_barArriveReceive (src : BitVec 14) : exec (.barArriveReceive src c n i) s =
    .next (if s.barCurrent c n i = true ∧ s.barCoord c.toNat = true then (s.barCount c.toNat n.toNat src).done Code.ok
      else s.ctrlStale) := by
  show execBarArriveReceive src c n i s = _
  unfold execBarArriveReceive
  split <;> rfl

/-- BAR_RELEASE and BAR_CANCEL of the present instance end it, with P7 what they say (R369, R371). -/
theorem exec_barEnds {cmd : Instr} {ok : Bool}
    (hm : (cmd, ok) ∈ [(Instr.barReleaseReceive c n i, true), (.barCancelReceive c n i, false)]) : exec cmd s =
    .next (if s.barCurrent c n i = true then (s.barwEnd c.toNat n.toNat ok).done Code.ok else s.ctrlStale) := by
  rcases List.mem_pair.mp hm with h | h <;> obtain ⟨rfl, rfl⟩ := Prod.mk.inj h
  · show execBarReleaseReceive c n i s = _
    unfold execBarReleaseReceive
    split <;> rfl
  · show execBarCancelReceive c n i s = _
    unfold execBarCancelReceive
    split <;> rfl

end Barriers

end Sys2Proof.Machine

open Sys2Proof Sys2Proof.Machine

/-- Settles O50: answers by the checks of R355, timers by what the oldest packet is, barrier messages by whether they are current. -/
theorem connAnswersAndBarriers : Obligations.ConnAnswersAndBarriers := by
  unfold Obligations.ConnAnswersAndBarriers
  refine ⟨?ackSend, ?ack, ?ackOld, ?nak, fun s i e c hc x hx he => State.nakked_held hc hx he,
    fun s p i is hh ho hw => exec_goneReceive hh ho hw, ?rtoHeld, ?rto, fun s i x b h => State.resendPkt_ends h,
    fun s n x hf hs => exec_nakHintExpire hf hs, fun s i x b hw h => State.resendPkt_bare hw h, ?pause,
    fun s src c n i => exec_barArriveReceive src, fun s c n i cmd ok hm => exec_barEnds hm, ?again, fun s c n => rfl⟩
  case ackSend =>
    intro s n hd hs
    obtain ⟨q, hx⟩ := exec_ackSend hd hs
    obtain ⟨hconn, hmem⟩ := s.sentWith_facts n.toNat { s.conn n.toNat with
      ackDue := false, ece := 0, nextAsn := (s.conn n.toNat).nextAsn + 1, climOut := s.climFor n.toNat } q Code.ok
    exact ⟨_, hx, by rw [hconn], by rw [hconn], by rw [hconn], by rw [hconn], by rw [hconn], hmem, rfl⟩
  case ack =>
    intro s u p x m cum hh ho hn hm ha hu hcum
    have hin : (u.conn p.dconn).cumIn = (s.conn p.dconn).cumIn := by
      rw [hu, State.conn_count64, State.conn_setConn_same]
    have hnext : (u.conn p.dconn).nextEpsn = (s.conn p.dconn).nextEpsn := by
      rw [hu, State.conn_count64, State.conn_setConn_same]
      rfl
    refine congrArg Host.Outcome.next ((State.answerPkt_new hh ho hn hm ha _).trans ?_)
    cases s.connOpen p.dconn true m p with
    | none => rfl
    | some d =>
      rw [State.answerUsed, ← hu, ← hcum]
      simp only [Option.elim_some, hin, hnext]
  case ackOld =>
    intro s p x m a hh ho hn hl hm ha
    exact congrArg Host.Outcome.next (State.answerPkt_old hh ho hn hl hm ha _)
  case nak =>
    intro s p m hh ho hn hm ha
    refine congrArg Host.Outcome.next ((State.answerPkt_new hh ho hn hm ha _).trans ?_)
    cases s.connOpen p.dconn true m p <;> rfl
  case rtoHeld =>
    intro s u n x xs hx hs hu hheld
    rw [exec_rtoExpire hx hs hu, if_pos hheld]
  case rto =>
    intro s u n x xs hx hs hu hheld
    rw [exec_rtoExpire hx hs hu, if_neg (by rw [hheld]; decide)]
  case pause =>
    intro s n hs hh
    obtain ⟨j, hx⟩ := exec_twPauseExpire hs hh
    obtain ⟨hst, hsent⟩ := s.conn_endConnAt n.toNat j Code.retryExceeded Code.connectionClosed
    exact ⟨_, hx, hst, hsent, rfl⟩
  case again =>
    intro s c n hg h0 hle hc
    exact if_pos ⟨hg, h0, hle, by rw [hc]; decide⟩

end

/-! ### Vectors (R137, R141, R143)

What a Z_q vector instruction leaves once its stage takes it, said once for every operation; then the operations. -/

section
namespace Sys2Proof.Machine

/-! #### Modular subtraction -/

theorem subMod_mod (a b q : Nat) : subMod a b q % q = subMod a b q := Nat.mod_mod _ _

/-- The difference of residues, as integers. -/
theorem subMod_cast {a b q : Nat} (hb : b < q) : ((subMod a b q : Nat) : Int) = ((a : Int) - (b : Int)) % (q : Int) := by
  have hshift : ((a + (q - b) : Nat) : Int) = (a : Int) - (b : Int) + (q : Int) := by omega
  rw [subMod, Nat.mod_eq_of_lt hb, Int.natCast_emod, hshift, Int.add_emod_right]

theorem subMod_zero {b q : Nat} (hb : b < q) : subMod 0 b q = (q - b) % q := by
  rw [subMod, Nat.mod_eq_of_lt hb, Nat.zero_add]

/-- A modulus register other than zero holds a positive number. -/
theorem modulus_pos {q : DWord} (hq : q ≠ 0) : 0 < q.toNat :=
  Nat.pos_of_ne_zero fun h => hq (BitVec.eq_of_toNat_eq h)

section Vectors
variable {s : State} {l : Loc} {f : Fields} {sh : Shape} {opc : Nat} {t : Tile} {y : Stage}

/-- No register is named, so none is unreadable. -/
theorem Stage.readable_nil (x : Stage) : x.readable [] := fun _ hr => absurd hr List.not_mem_nil

/-! #### Z_q -/

/-- A residue whose operands are in range is the operation's value modulo q (R141). -/
theorem State.residues_w (s : State) {n q : Nat} {ok : Nat → Bool} {v : Nat → Nat} (hq : 0 < q) (hq64 : q < 2 ^ 64)
    {i : Nat} (hi : i < n) (hok : ok i = true) : (({ t with words := s.residues n q ok v } : Tile).w i).toNat = v i % q := by
  have hlt : v i % q < 2 ^ 64 := Nat.lt_trans (Nat.mod_lt _ hq) hq64
  rw [State.residues, Tile.w_wordsOf _ _ _ _ hi, if_pos hok, BitVec.toNat_ofNat, Nat.mod_eq_of_lt hlt]

/-- A Z_q vector instruction that is taken, with a nonzero modulus, sources that can be used and operands in range: only its
destination tile is written, with the operation's value modulo q in each element (R141). -/
theorem exec_vecQ {c : Instr} {regs : List Nat} {op : Nat → Tile → Stage → Nat → Nat × List Nat} {q : DWord}
    (hc : exec c s = .next (s.vecQ l f opc sh regs op)) (hqr : (s.stage l.ix).qr f.qsel = q) (h : s.issues l opc f sh)
    (ho : assignedOpc opc = true ∧ opc < 256) (hq : q ≠ 0) (hr : (s.stage l.ix).readable regs)
    (hs : (s.stage l.ix).source l f = some (t, y)) (hop : ∀ i, i < l.words → ∀ v, v ∈ (op q.toNat t y i).2 → v < q.toNat) :
    ∃ u, exec c s = .next u ∧ s.onlyStage u l.ix ∧ y.wroteT (u.stage l.ix) f.d ∧ u.reply = ⟨Code.ok, 0⟩ ∧
      ∀ i, i < l.words → (((u.stage l.ix).tr f.d).w i).toNat = (op q.toNat t y i).1 % q.toNat := by
  subst hqr
  have hpos := modulus_pos hq
  have htaken : s.vecQ l f opc sh regs op = _ := (State.issue_taken h ho.1 ho.2).trans
    ((if_neg hpos.ne').trans (State.operands_eq s l f _ regs _ _ t y hr hs _))
  refine ⟨_, hc.trans (congrArg Host.Outcome.next htaken), State.took_retire_onlyStage s l _ _, ?_, rfl, fun i hi => ?_⟩
  · rw [State.retire_stage]
    exact Stage.wroteT_retire _ _ _
  · rw [State.retire_tr, Stage.tr_setT_same, State.residues_w s hpos (BitVec.isLt _) hi]
    exact List.all_eq_true.mpr fun v hv => decide_eq_true (hop i hi v hv)

/-- BCONV of phase 0 multiplies by its scalar; of phase 1 it accumulates the products in its destination (R143, R176). -/
theorem exec_bconv_in (hp : f.imf 0 0 = 0) : exec (.bconv l f) s = .next (s.vecQ l f 0x23
    { stages := [St.base], dst := .t, sa := .t, sc := .s, qsel := true, hints := [0, 2], imm := 1 } []
    (fun _ t y i => ((t.w i).toNat * (y.sr f.c).toNat, [(t.w i).toNat, (y.sr f.c).toNat]))) := by
  change execBconv l f s = _
  simp only [execBconv, hp, zero_ne_one, if_false, if_true]
theorem exec_bconv_out (hp : f.imf 0 0 = 1) : exec (.bconv l f) s = .next (s.vecQ l f 0x23
    { stages := [St.base], dst := .t, sa := .t, sc := .s, qsel := true, hints := [0, 2], imm := 1 } [f.d]
    (fun q t y i => (((y.tr f.d).w i).toNat + (t.w i).toNat % q * (y.sr f.c).toNat,
      [if (t.w i).toNat < 2 ^ 60 then 0 else q, (y.sr f.c).toNat, ((y.tr f.d).w i).toNat]))) := by
  change execBconv l f s = _
  simp only [execBconv, hp, one_ne_zero, if_false, if_true]

/-! #### Z_2^32 and Z_2^64 -/

/-- A Z_2^32 or Z_2^64 vector instruction that is taken, with sources that can be used (R141). -/
theorem State.vecZ_taken {op : Tile → Tile → Table DWord}
    (h : s.issues l opc f { stages := [St.add], dst := .t, sa := .t, sb := .t, hints := [0, 2] })
    (ho : assignedOpc opc = true ∧ opc < 256) (hr : (s.stage l.ix).readable [f.b])
    (hs : (s.stage l.ix).source l f = some (t, y)) :
    s.vecZ l f opc op = s.retire l (y.setT f.d { t with words := op t (y.tr f.b) }) :=
  (State.issue_taken h ho.1 ho.2).trans (State.operands_eq s l f _ [f.b] _ _ t y hr hs _)

/-! #### VSPLAT -/

/-- The tile of one scalar, in 32-bit elements under IMM[0] (R141). -/
def splatTile (l : Loc) (i : Nat) (v : DWord) : Tile :=
  Tile.fresh l.tbytes (if i = 1 then halvesOf (2 * l.words) (fun _ => v.setWidth 32) else wordsOf l.words (fun _ => v))

theorem splatTile_w (l : Loc) (k : Nat) (v : DWord) {i : Nat} (hi : i < l.words) :
    (splatTile l k v).w i = if k = 1 then v.setWidth 32 ++ v.setWidth 32 else v := by
  have hhalf : 2 * l.words / 2 = l.words := by omega
  unfold splatTile halvesOf
  rw [hhalf]
  split
  · exact Tile.w_wordsOf (Tile.fresh l.tbytes []) _ _ _ hi
  · exact Tile.w_wordsOf (Tile.fresh l.tbytes []) _ _ _ hi

theorem exec_vsplat (h : s.issues l 0x10 f
    { stages := St.all, dst := .t, sa := .s, imm := 1, extra := decide (f.i = 1) || decide (l.kind ≠ 2) }) :
    exec (.vsplat l f) s =
      .next (s.retire l ((s.stage l.ix).setT f.d (splatTile l f.i ((s.stage l.ix).sr f.a)))) :=
  congrArg Host.Outcome.next (State.issue_taken h (by decide) (by decide))

end Vectors

end Sys2Proof.Machine

open Sys2Proof Sys2Proof.Machine

/-- Settles O22: the Z_q instructions are `exec_vecQ` at their operation, whose operands the hypotheses put in range. -/
theorem vectorArithmetic : Obligations.VectorArithmetic := by
  unfold Obligations.VectorArithmetic
  refine ⟨?vaddQ, ?vsubQ, ?vmulQ, ?vmacQ, ?vnegQ, ?bconvIn, ?bconvOut, ?vaddZ32, ?vsubZ32, ?vaddZ64, ?vsubZ64, ?vsplat⟩
  case vaddQ =>
    intro s l f t y h hq hr hs hlt
    exact exec_vecQ (c := .vaddQ l f) rfl rfl h (by decide) hq hr hs fun i hi => by simpa using hlt i hi
  case vmulQ =>
    intro s l f t y h hq hr hs hlt
    exact exec_vecQ (c := .vmulQ l f) rfl rfl h (by decide) hq hr hs fun i hi => by simpa using hlt i hi
  case vmacQ =>
    intro s l f t y h hq hr hs hlt
    exact exec_vecQ (c := .vmacQ l f) rfl rfl h (by decide) hq hr hs fun i hi => by simpa using hlt i hi
  case vsubQ =>
    intro s l f t y h hq hr hs hlt
    obtain ⟨u, hu, hstage, hdst, hreply, hval⟩ := exec_vecQ (c := .vsubQ l f) rfl rfl h (by decide) hq hr hs
      fun i hi => by simpa using hlt i hi
    refine ⟨u, hu, hstage, hdst, hreply, fun i hi => ?_⟩
    rw [hval i hi, subMod_mod, subMod_cast (hlt i hi).2]
  case vnegQ =>
    intro s l f t y h hq hs hlt
    obtain ⟨u, hu, hstage, hdst, hreply, hval⟩ := exec_vecQ (c := .vnegQ l f) rfl rfl h (by decide) hq
      (Stage.readable_nil _) hs fun i hi => by simpa using hlt i hi
    refine ⟨u, hu, hstage, hdst, hreply, fun i hi => ?_⟩
    rw [hval i hi, subMod_mod, subMod_cast (hlt i hi), Nat.cast_zero, zero_sub]
  case bconvIn =>
    intro s l f t y h0 h hq hs hlt
    exact exec_vecQ (exec_bconv_in h0) rfl h (by decide) hq (Stage.readable_nil _) hs fun i hi => by
      simpa using hlt i hi
  case bconvOut =>
    intro s l f t y h1 h hq hr hs hlt
    exact exec_vecQ (exec_bconv_out h1) rfl h (by decide) hq hr hs fun i hi => by
      obtain ⟨hsrc, hrest⟩ := hlt i hi
      rw [if_pos hsrc]
      simpa [modulus_pos hq] using hrest
  case vaddZ32 | vsubZ32 | vaddZ64 | vsubZ64 =>
    exact fun s l f t y h hr hs => congrArg Host.Outcome.next (State.vecZ_taken h (by decide) hr hs)
  case vsplat =>
    intro s l f h
    have htile : ((s.retire l ((s.stage l.ix).setT f.d (splatTile l f.i ((s.stage l.ix).sr f.a)))).stage l.ix).tr f.d =
        splatTile l f.i ((s.stage l.ix).sr f.a) := by
      rw [State.retire_tr, Stage.tr_setT_same]
    refine ⟨_, exec_vsplat h, State.retire_onlyStage _ _ _, ?_, ?_, ?_, fun i hi => ?_⟩
    · rw [State.retire_stage]
      exact Stage.wroteT_retire _ _ _
    · rw [htile]
      rfl
    · rw [htile]
      rfl
    · rw [htile, splatTile_w _ _ _ hi]

end

/-! ### NTT, INTT and PERM (R142, R172–R174)

What writing a group leaves in each register and each element of its limb; then the instructions, each of which writes its
destination group. -/

section
namespace Sys2Proof.Machine

/-! #### Groups -/

/-- The tile registers after a group is written: those of the group are its tiles, the others as before. -/
theorem Stage.tr_setLimb (x : Stage) (d g : Nat) (hdr : Nat → Tile) (v : Nat → Nat) (r : Nat) :
    (x.setLimb d g hdr v).tr r = if d ≤ r ∧ r < d + g then
      { hdr (r - d) with words := wordsOf 4096 (fun i => BitVec.ofNat 64 (v ((r - d) * 4096 + i))), bad := none }
    else x.tr r := by
  induction g with
  | zero => exact (if_neg (by omega)).symm
  | succ g ih =>
    have hlast : x.setLimb d (g + 1) hdr v = (x.setLimb d g hdr v).setT (d + g)
        { hdr g with words := wordsOf 4096 (fun i => BitVec.ofNat 64 (v (g * 4096 + i))), bad := none } := by
      simp only [Stage.setLimb, List.range_succ, List.foldl_append, List.foldl_cons, List.foldl_nil]
    rw [hlast]
    by_cases hr : r = d + g
    · subst hr
      rw [Stage.tr_setT_same, if_pos (by omega), Nat.add_sub_cancel_left]
    · rw [Stage.tr_setT_ne _ _ _ _ hr, ih]
      exact if_congr (by omega) rfl rfl

/-- An element of a limb just written. -/
theorem Stage.limb_setLimb (x : Stage) {d g : Nat} (hdr : Nat → Tile) {v : Nat → Nat} {j : Nat} (hj : j / 4096 < g)
    (hv : v j < 2 ^ 64) : (x.setLimb d g hdr v).limb d j = v j := by
  have hmod : j % 4096 < 4096 := Nat.mod_lt _ (by decide)
  have hsplit : j / 4096 * 4096 + j % 4096 = j := Nat.div_add_mod' j 4096
  unfold Stage.limb
  rw [Stage.tr_setLimb, if_pos (by omega), Nat.add_sub_cancel_left,
    Tile.w_wordsOf { hdr (j / 4096) with bad := none } 4096 _ _ hmod, hsplit, BitVec.toNat_ofNat, Nat.mod_eq_of_lt hv]

theorem Stage.limb_lt (x : Stage) (d i : Nat) : x.limb d i < 2 ^ 64 := BitVec.isLt _

/-- Each element of a limb of a ring degree lies in a tile of its group (R142). -/
theorem tile_lt_groupSize {n j : Nat} (h : lognOk n = true) (hj : j < 2 ^ n) : j / 4096 < groupSize n := by
  have hn : 12 ≤ n := of_decide_eq_true (Bool.and_eq_true_iff.mp h).1
  exact Nat.div_lt_div_of_lt_of_dvd (Nat.pow_dvd_pow 2 hn) hj

/-- A readable group has no register with an uncorrectable word. -/
theorem Stage.find_bad_none {x : Stage} {regs : List Nat} (h : x.readable regs) :
    regs.find? (fun r => (x.tr r).bad.isSome) = none :=
  List.find?_eq_none.mpr fun r hr => by simp [h r hr]

section Transforms
variable {s : State} {l : Loc} {f : Fields}

/-- An instruction that retires with a group written changes the registers of the group, and each element of the limb that
fits a word is the one given. -/
theorem State.retire_setLimb {u : State} {d n k : Nat} {hdr : Nat → Tile} {v : Nat → Nat}
    (hu : (s.took k).retire l ((s.stage l.ix).setLimb d (Machine.groupSize n) hdr v) = u) (h : lognOk n = true) :
    s.onlyStage u l.ix ∧ u.reply = ⟨Code.ok, 0⟩ ∧
      (∀ r, (r < d ∨ d + Machine.groupSize n ≤ r) → (u.stage l.ix).tr r = (s.stage l.ix).tr r) ∧
      ∀ j, j < 2 ^ n → v j < 2 ^ 64 → (u.stage l.ix).limb d j = v j := by
  subst hu
  refine ⟨State.took_retire_onlyStage s l _ k, rfl, fun r hr => ?_, fun j hj hv => ?_⟩
  · rw [State.retire_tr, Stage.tr_setLimb, if_neg (by omega)]
  · rw [Stage.limb, State.retire_tr]
    exact Stage.limb_setLimb _ hdr (tile_lt_groupSize h hj) hv

/-! #### NTT and INTT -/

/-- What the entry of a transform in stage st permits (R142). -/
abbrev transformShape (f : Fields) (st : Nat) : Shape :=
  { stages := [st], dst := .t, qsel := true, imm := 0x1F, extra := lognOk (f.imf 4 0) && groupOk (f.imf 4 0) f.d }

/-- A transform that is taken, with the checks of R173 passed and a readable group, changes the destination group alone; of
a prime modulus and a limb below it, the new limb is the transform (R172). -/
theorem exec_transform {c : Instr} {opc st : Nat} {op : Nat → Nat → (Nat → Nat) → Nat → Nat} {q : DWord}
    (hc : exec c s = .next (s.transform l f opc st op)) (hqr : (s.stage l.ix).qr f.qsel = q)
    (h : s.issues l opc f (transformShape f st)) (ho : assignedOpc opc = true ∧ opc < 256) (hq : q ≠ 0)
    (h2 : f.imf 4 0 + 1 ≤ twoadic q.toNat) (hp : (s.stage l.ix).preparing f.qsel = false) (hpsi : psiOf q.toNat ≠ none)
    (hr : (s.stage l.ix).readable (groupRegs f.d (groupSize (f.imf 4 0))))
    (hop : ∀ x j, op q.toNat (f.imf 4 0) x j < q.toNat) :
    ∃ u, exec c s = .next u ∧ s.onlyStage u l.ix ∧ u.reply = ⟨Code.ok, 0⟩ ∧
      (∀ r, (r < f.d ∨ f.d + groupSize (f.imf 4 0) ≤ r) → (u.stage l.ix).tr r = (s.stage l.ix).tr r) ∧
      (isPrime q.toNat = true → (∀ i, i < 2 ^ f.imf 4 0 → (s.stage l.ix).limb f.d i < q.toNat) →
        ∀ j, j < 2 ^ f.imf 4 0 → (u.stage l.ix).limb f.d j = op q.toNat (f.imf 4 0) ((s.stage l.ix).limb f.d) j) := by
  subst hqr
  have ⟨_, _, _, hok⟩ := h
  have hlogn : lognOk (f.imf 4 0) = true := (Bool.and_eq_true_iff.mp (Shape.ok_extra hok)).1
  have hform : ¬ (((s.stage l.ix).qr f.qsel).toNat = 0 ∨ twoadic ((s.stage l.ix).qr f.qsel).toNat < f.imf 4 0 + 1) := by
    have hpos := modulus_pos hq
    omega
  unfold State.transform at hc
  simp only at hc
  rw [State.issue_taken h ho.1 ho.2] at hc
  simp only [hp, Bool.false_eq_true, if_false, if_neg hform, if_neg hpsi, Stage.find_bad_none hr] at hc
  obtain ⟨hstage, hreply, hframe, hlimb⟩ := State.retire_setLimb rfl hlogn
  refine ⟨_, hc, hstage, hreply, hframe, fun hprime hlt j hj => ?_⟩
  have hgood : (isPrime ((s.stage l.ix).qr f.qsel).toNat && (List.range (2 ^ f.imf 4 0)).all
      (fun i => decide ((s.stage l.ix).limb f.d i < ((s.stage l.ix).qr f.qsel).toNat))) = true := by
    rw [hprime, Bool.true_and, List.all_eq_true]
    exact fun i hi => decide_eq_true (hlt i (List.mem_range.mp hi))
  have hv := hlimb j hj
  rw [if_pos hgood] at hv
  exact hv (Nat.lt_trans (hop _ j) (BitVec.isLt _))

/-- The elements of a transform are residues. -/
theorem nttOf_lt {q : Nat} (hq : 0 < q) (n : Nat) (x : Nat → Nat) (j : Nat) : nttOf q n x j < q := Nat.mod_lt _ hq
theorem inttOf_lt {q : Nat} (hq : 0 < q) (n : Nat) (x : Nat → Nat) (j : Nat) : inttOf q n x j < q := Nat.mod_lt _ hq

/-- A transform under a modulus of zero is refused (R173). -/
theorem State.transform_zero {opc st : Nat} {op : Nat → Nat → (Nat → Nat) → Nat → Nat}
    (h : s.issues l opc f (transformShape f st)) (ho : assignedOpc opc = true ∧ opc < 256)
    (hq : (s.stage l.ix).qr f.qsel = 0) (hp : (s.stage l.ix).preparing f.qsel = false) :
    s.transform l f opc st op = s.insnFault l Code.formatError := by
  unfold State.transform
  simp only
  rw [State.issue_taken h ho.1 ho.2, hp, if_neg Bool.false_ne_true]
  exact if_pos (Or.inl (congrArg BitVec.toNat hq))

/-! #### PERM -/

/-- What PERM's entry permits, by its form (R142). -/
def permShape (f : Fields) : Shape :=
  { stages := [St.perm], dst := .t, sa := .t, qsel := decide (f.imf 5 5 = 1), gsel := true, imm := 0x3F
    extra := lognOk (f.imf 4 0) && groupOk (f.imf 4 0) f.d && groupOk (f.imf 4 0) f.a && decide (f.d ≠ f.a) }

/-- The source of an output coefficient is a coefficient of the limb (R142). -/
theorem permCoef_lt (n g j : Nat) : (permCoef n g j).1 < 2 ^ n := by
  have hp : j * powMod g (2 ^ (n - 1) - 1) (2 ^ (n + 1)) % 2 ^ (n + 1) < 2 ^ (n + 1) := Nat.mod_lt _ (Nat.two_pow_pos _)
  have hdouble : 2 ^ (n + 1) = 2 * 2 ^ n := Nat.pow_succ'
  rw [permCoef]
  split <;> simp only <;> omega

/-- An output element in coefficient form, of a source limb below the modulus (R142). -/
theorem permElem_coef {n g q : Nat} {x : Nat → Nat} (hx : ∀ i, i < 2 ^ n → x i < q) (j : Nat) :
    permElem true n g q x j =
      some (if (permCoef n g j).2 then (q - x (permCoef n g j).1) % q else x (permCoef n g j).1) := by
  have hlt := hx _ (permCoef_lt n g j)
  unfold permElem
  simp only [if_true, if_pos hlt, subMod_zero hlt]
  split <;> rfl

/-- PERM of a readable group, with an exponent of its degree, writes the elements of the automorphism (R142, R174). -/
theorem exec_perm_writes {c : Bool} {w : Nat → Nat} (hc : decide (f.imf 5 5 = 1) = c) (h : s.issues l 0x22 f (permShape f))
    (hg : ((s.stage l.ix).gr f.gsel).toNat < 2 ^ (f.imf 4 0 + 1)) (hq : c = true → (s.stage l.ix).qr f.qsel ≠ 0)
    (hr : (s.stage l.ix).readable (groupRegs f.a (groupSize (f.imf 4 0))))
    (hw : ∀ j, permElem c (f.imf 4 0) ((s.stage l.ix).gr f.gsel).toNat ((s.stage l.ix).qr f.qsel).toNat
      ((s.stage l.ix).limb f.a) j = some (w j)) (hlt : ∀ j, w j < 2 ^ 64) :
    ∃ u, exec (.perm l f) s = .next u ∧ s.onlyStage u l.ix ∧ u.reply = ⟨Code.ok, 0⟩ ∧
      (∀ r, (r < f.d ∨ f.d + groupSize (f.imf 4 0) ≤ r) → (u.stage l.ix).tr r = (s.stage l.ix).tr r) ∧
      ∀ j, j < 2 ^ f.imf 4 0 → (u.stage l.ix).limb f.d j = w j := by
  subst hc
  have ⟨_, _, _, hok⟩ := h
  have hextra : (permShape f).extra = true := Shape.ok_extra hok
  simp only [permShape, Bool.and_eq_true] at hextra
  obtain ⟨⟨⟨hlogn, -⟩, -⟩, -⟩ := hextra
  have hform : ¬ (2 ^ (f.imf 4 0 + 1) ≤ ((s.stage l.ix).gr f.gsel).toNat ∨
      (decide (f.imf 5 5 = 1) = true ∧ ((s.stage l.ix).qr f.qsel).toNat = 0)) := fun hx =>
    hx.elim (Nat.not_le.mpr hg) fun hx => hq hx.1 (BitVec.eq_of_toNat_eq hx.2)
  have hexec : exec (.perm l f) s = _ := congrArg Host.Outcome.next (State.issue_taken h (by decide) (by decide))
  simp only [if_neg hform, Stage.find_bad_none hr, hw, Option.getD_some] at hexec
  obtain ⟨hstage, hreply, hframe, hlimb⟩ := State.retire_setLimb rfl hlogn
  exact ⟨_, hexec, hstage, hreply, hframe, fun j hj => hlimb j hj (hlt j)⟩

end Transforms

end Sys2Proof.Machine

open Sys2Proof Sys2Proof.Machine

/-- Settles O23: the transforms by `exec_transform`, PERM by `exec_perm_writes` at the elements of its form. -/
theorem transforms : Obligations.Transforms := by
  unfold Obligations.Transforms
  refine ⟨?ntt, ?intt, ?perm, ?permCoef, ?modulusZero⟩
  case ntt =>
    intro s l f h hq h2 hp hpsi hr
    exact exec_transform (c := .ntt l f) rfl rfl h (by decide) hq h2 hp hpsi hr (nttOf_lt (modulus_pos hq) _)
  case intt =>
    intro s l f h hq h2 hp hpsi hr
    exact exec_transform (c := .intt l f) rfl rfl h (by decide) hq h2 hp hpsi hr (inttOf_lt (modulus_pos hq) _)
  case perm =>
    intro s l f h0 h hg hr
    have hc : decide (f.imf 5 5 = 1) = false := by rw [h0]; rfl
    exact exec_perm_writes hc (by rw [permShape, hc]; exact h) hg nofun hr (fun _ => rfl) (fun _ => Stage.limb_lt _ _ _)
  case permCoef =>
    intro s l f h1 h hg hq hr hlt
    have hc : decide (f.imf 5 5 = 1) = true := by rw [h1]; rfl
    have hneg : ∀ v, (((s.stage l.ix).qr f.qsel).toNat - v) % ((s.stage l.ix).qr f.qsel).toNat < 2 ^ 64 := fun v =>
      Nat.lt_trans (Nat.mod_lt _ (modulus_pos hq)) (BitVec.isLt _)
    exact exec_perm_writes hc (by rw [permShape, hc]; exact h) hg (fun _ => hq) hr (permElem_coef hlt) fun j => by
      split
      · exact hneg _
      · exact Stage.limb_lt _ _ _
  case modulusZero => exact fun s l f h hq hp => congrArg Host.Outcome.next (State.transform_zero h (by decide) hq hp)

end

/-! ### Granules and evaluation keys (R240, R243, R385, R387, R419)

What ASSIGN leaves at each address, what the end of a command leaves alone and what an entry's write changes, then each
command by its checks. -/

section
namespace Sys2Proof.Machine

/-! #### Granules (R385, R387) -/

section Granule
variable {s : State}

/-- ASSIGN raises the major counter of each block of its range by one, and no other. -/
theorem raiseMajors_get (n : Nat) (t : Table (BitVec 58)) (k m : Nat) : (raiseMajors t k n).get (fun _ => 0) m =
    if k ≤ m ∧ m < k + n then t.get (fun _ => 0) m + 1 else t.get (fun _ => 0) m := by
  induction n generalizing t k with
  | zero => rw [if_neg (by omega)]; rfl
  | succ n ih =>
    rw [raiseMajors, ih, Table.get_put]
    by_cases h : m = k
    · rw [if_neg (by omega), if_pos h, if_pos (by omega), h]
    · rw [if_neg h]
      exact if_congr (by omega) rfl rfl

theorem State.granuleOf_grAssign (s : State) (a n o k : Nat) : (s.grAssign a n o).granuleOf k =
    if a / 0x200000 ≤ k / 0x200000 ∧ k / 0x200000 < a / 0x200000 + n then o % 32 else s.granuleOf k := by
  show (Table.get _ (Table.putList _ s.granule _ _) _).toNat = _
  rw [Table.get_putList, List.length_replicate]
  split
  · rw [List.getD_replicate _ (by omega), BitVec.toNat_ofNat]
  · rfl

/-- ASSIGN on a range that starts at a granule: the owners, the counters and memory (R387). -/
theorem State.grAssign_facts (s : State) {a : Nat} (n o : Nat) (ha : a % 0x200000 = 0) :
    (∀ k, a ≤ k → k < a + n * 0x200000 → (s.grAssign a n o).granuleOf k = o % 32) ∧
    (∀ k, k < a ∨ a + n * 0x200000 ≤ k → (s.grAssign a n o).granuleOf k = s.granuleOf k) ∧
    (∀ k, a ≤ k → k < a + n * 0x200000 → (s.grAssign a n o).major.get (fun _ => 0) (k / 4096) =
      s.major.get (fun _ => 0) (k / 4096) + 1 ∧ (s.grAssign a n o).minor.get (fun _ => 0) (k / 64) = 0) ∧
    (s.grAssign a n o).mem = s.mem := by
  refine ⟨fun k h1 h2 => ?owner, fun k hk => ?other, fun k h1 h2 => ⟨?major, ?minor⟩, rfl⟩
  case owner => rw [State.granuleOf_grAssign, if_pos (by omega)]
  case other => rw [State.granuleOf_grAssign, if_neg (by omega)]
  case major =>
    refine (raiseMajors_get (512 * n) s.major (a / 4096) (k / 4096)).trans (if_pos ?_)
    omega
  case minor =>
    rw [State.grAssign, Table.get_clear, if_pos (decide_eq_true (by omega))]

/-- The end of a granule command changes registers and the reply. -/
theorem State.grDone_shape (s : State) (op owner : Nat) (code : Byte) :
    ∃ r, s.grDone op owner code = { s with regs := r, reply := ⟨code, 0⟩ } := by
  obtain ⟨r, hr⟩ := (s.setReg_regsOnly Reg.bwGrCtl _).trans (State.setReg_regsOnly _ Reg.bwGrStat _)
  exact ⟨r, congrArg (State.done · code) hr⟩

/-- OWNER of BW_GR_STAT is the owner shown. -/
theorem State.grDone_owner (s : State) (op : Nat) {owner : Nat} (code : Byte) (h : owner < 32) :
    (s.grDone op owner code).fld Reg.bwGrStat 4 0 = owner := by
  have hc := code.isLt
  unfold State.grDone
  rw [State.fld_done, State.fld_setReg_same, bits_eq _ _ _ (by decide) (by decide), BitVec.toNat_ofNat]
  omega

theorem exec_granuleAssign_free (hc : s.grCheck false = Code.ok)
    (hf : s.grAny s.grStart s.grCount (fun _ => true) = false) :
    exec .granuleAssign s = .next ((s.grAssign s.grStart s.grCount s.grOwner).grDone 0 0 Code.ok) := by
  show execGranuleAssign s = _
  rw [execGranuleAssign, if_neg (not_not_intro hc), if_neg (by rw [hf]; decide)]

theorem exec_granuleAssign_owned (hc : s.grCheck false = Code.ok)
    (hf : s.grAny s.grStart s.grCount (fun _ => true) = true) :
    exec .granuleAssign s = .next (s.grDone 0 0 Code.busy) := by
  show execGranuleAssign s = _
  rw [execGranuleAssign, if_neg (not_not_intro hc), if_pos hf]

theorem exec_granuleRelease_unused (hc : s.grCheck false = Code.ok)
    (ho : s.grAny s.grStart s.grCount (fun o => decide (o ≠ s.grOwner)) = false)
    (hh : s.grHeld s.grStart s.grCount = false) :
    exec .granuleRelease s = .next ((s.grRelease s.grStart s.grCount).grDone 1 0 Code.ok) := by
  show execGranuleRelease s = _
  rw [execGranuleRelease, if_neg (not_not_intro hc), if_neg (by rw [ho, hh]; decide)]

theorem exec_granuleRelease_held (hc : s.grCheck false = Code.ok) (hh : s.grHeld s.grStart s.grCount = true) :
    exec .granuleRelease s = .next (s.grDone 1 0 Code.busy) := by
  show execGranuleRelease s = _
  rw [execGranuleRelease, if_neg (not_not_intro hc), if_pos (Or.inr hh)]

theorem exec_granuleRead_good (hc : s.grCheck true = Code.ok) :
    exec .granuleRead s = .next (s.grDone 2 (s.granuleOf s.grStart) Code.ok) := by
  show execGranuleRead s = _
  rw [execGranuleRead, if_neg (not_not_intro hc)]

end Granule

/-! #### Entries of the registry, and the log (R240, R419) -/

@[simp] theorem State.evkEnt_setEvk_same (s : State) (c i : Nat) (e : EvkEnt) : (s.setEvk c i e).evkEnt c i = e :=
  Table.get_put_same _ _ _ _

theorem State.evk_setEvk_ne (s : State) {c i k : Nat} (e : EvkEnt) (h : k ≠ c * 64 + i) :
    (s.setEvk c i e).evk.get (fun _ => EvkEnt.zero) k = s.evk.get (fun _ => EvkEnt.zero) k :=
  Table.get_put_ne _ _ _ _ _ h

/-- The log grows by the entry's length. -/
theorem State.logUsed_logAdd (s : State) (c kind len : Nat) (body : Bytes) :
    (s.logAdd c kind len body).logUsed c = s.logUsed c + len := by
  have hlog : ((s.logAdd c kind len body).ctx c).log =
      (s.ctx c).log ++ [⟨BitVec.ofNat 8 kind, len, padTo (len - 8) body⟩] :=
    congrArg CtxSt.log (State.ctx_setCtx_same s c _)
  rw [State.logUsed, hlog, List.map_append, List.sum_append, List.map_singleton, List.sum_singleton]
  rfl

/-- An entry is written and the log takes its record. -/
theorem State.setEvk_logAdd (s : State) (c i kind len : Nat) (e : EvkEnt) (body : Bytes) :
    ((s.setEvk c i e).logAdd c kind len body).evkEnt c i = e ∧
    ((s.setEvk c i e).logAdd c kind len body).logUsed c = s.logUsed c + len ∧
    ((s.setEvk c i e).logAdd c kind len body).mem = s.mem :=
  ⟨State.evkEnt_setEvk_same s c i e, State.logUsed_logAdd (s.setEvk c i e) c kind len body, rfl⟩

/-! #### EK_CTL (R240, R243) -/

section Keys
variable {s : State} {c : Fin 16} {i : Fin 64}

/-- The end of an EK_CTL command changes registers and the reply. -/
theorem State.ekDone_shape (s : State) (op c i : Nat) (code : Byte) :
    ∃ r, s.ekDone op c i code = { s with regs := r, reply := ⟨code, 0⟩ } := by
  obtain ⟨r, hr⟩ := (s.setReg_regsOnly Reg.ekCtl _).trans (State.setReg_regsOnly _ Reg.ekStat _)
  exact ⟨r, congrArg (State.done · code) hr⟩

theorem State.reg_ekDone (s : State) (op c i : Nat) (code : Byte) {a : Nat} (h1 : a ≠ Reg.ekCtl) (h2 : a ≠ Reg.ekStat) :
    (s.ekDone op c i code).reg a = s.reg a := by
  unfold State.ekDone
  rw [State.reg_done, State.reg_setReg_ne _ _ _ _ h2, State.reg_setReg_ne _ _ _ _ h1]

/-- A command that writes an entry changes no other entry, and no memory. -/
theorem State.setEvk_ekDone (s : State) (op c i : Nat) (e : EvkEnt) :
    ((s.setEvk c i e).ekDone op c i Code.ok).evkEnt c i = e ∧
    (∀ k, k ≠ c * 64 + i → ((s.setEvk c i e).ekDone op c i Code.ok).evk.get (fun _ => EvkEnt.zero) k =
      s.evk.get (fun _ => EvkEnt.zero) k) ∧
    ((s.setEvk c i e).ekDone op c i Code.ok).mem = s.mem ∧
    ((s.setEvk c i e).ekDone op c i Code.ok).reply = ⟨Code.ok, 0⟩ := by
  obtain ⟨r, hr⟩ := (s.setEvk c i e).ekDone_shape op c i Code.ok
  rw [hr]
  exact ⟨State.evkEnt_setEvk_same s c i e, fun k hk => State.evk_setEvk_ne s e hk, rfl, rfl⟩

theorem exec_ekEnter_empty (hl : s.ctxLive c.val = true) (he : (s.evkEnt c.val i.val).st = 0)
    (hb : s.ekBad c.val s.ekStaged = false) : exec (.ekEnter c i) s =
      .next ((s.setEvk c.val i.val (ekEntry s.ekStaged
        (Config.sha384 (s.bytes (field s.ekStaged 0 8) (field s.ekStaged 8 8))))).ekDone 0 c.val i.val Code.ok) := by
  show execEkEnter c i s = _
  simp only [execEkEnter, hl, he, hb, not_true_eq_false, ne_eq, Bool.false_eq_true, if_false]

theorem exec_ekEnter_taken (hl : s.ctxLive c.val = true) (he : (s.evkEnt c.val i.val).st ≠ 0) :
    exec (.ekEnter c i) s = .next (s.ekDone 0 c.val i.val Code.busy) := by
  show execEkEnter c i s = _
  simp only [execEkEnter, hl, not_true_eq_false, if_false, if_pos he]

theorem exec_ekRetire_active (hl : s.ctxLive c.val = true) (he : (s.evkEnt c.val i.val).st = 1) :
    exec (.ekRetire c i) s = .next ((s.retireEvk c.val i.val).ekDone 1 c.val i.val Code.ok) := by
  show execEkRetire c i s = _
  simp only [execEkRetire, hl, he, not_true_eq_false, ne_eq, if_false]

/-- EK_DATA with an entry in it. -/
def State.ekShow (s : State) (e : EvkEnt) : State :=
  (List.range 8).foldl (fun t k => t.setReg (Reg.ekData k) (BitVec.ofNat 32 (field e.bytes (4 * k) 4))) s

/-- Showing an entry changes registers alone. -/
theorem State.ekShow_regsOnly (s : State) (e : EvkEnt) : s.regsOnly (s.ekShow e) :=
  List.foldlRecOn (motive := fun t : State => s.regsOnly t) _ _ ⟨s.regs, rfl⟩ fun t ht _ _ =>
    ht.trans (t.setReg_regsOnly _ _)

/-- Word k of the entry shown. -/
theorem State.ekShow_word (s : State) (e : EvkEnt) {k : Nat} (hk : k < 8) :
    (s.ekShow e).reg (Reg.ekData k) = BitVec.ofNat 32 (field e.bytes (4 * k) 4) := by
  have hinj : ∀ i j, Reg.ekData i = Reg.ekData j → i = j := by
    intro i j h
    unfold Reg.ekData regAddr at h
    omega
  exact State.reg_foldl_setReg hinj (fun k => BitVec.ofNat 32 (field e.bytes (4 * k) 4)) _ s (List.mem_range.mpr hk)

theorem exec_ekRead_live (hl : s.ctxLive c.val = true) : exec (.ekRead c i) s =
    .next ((s.ekShow (s.evkEnt c.val i.val)).ekDone 2 c.val i.val Code.ok) := by
  show execEkRead c i s = _
  simp only [execEkRead, hl, not_true_eq_false, if_false]
  rfl

/-! #### The end of a retire (R243, R419) -/

section Retired
variable (he : (s.evkEnt c.val i.val).st = 2) (hu : (s.evkEnt c.val i.val).inuse = 0)
include he hu

/-- Without room in the log the entry stays RETIRING. -/
theorem exec_evkRetireDone_full (hf : s.logFits c.val 72 = false) : exec (.evkRetireDone c i) s = .next s.waits := by
  show execEvkRetireDone c i s = _
  simp only [execEvkRetireDone, he, hu, hf, ne_eq, not_true_eq_false, or_self, if_false, Bool.false_eq_true,
    not_false_eq_true, if_true]

/-- With room the entry becomes EMPTY, the log takes its record, and the request that waits is answered. -/
theorem exec_evkRetireDone_fits (hf : s.logFits c.val 72 = true) : ∃ t, exec (.evkRetireDone c i) s = .next t ∧
    t.evkEnt c.val i.val = EvkEnt.zero ∧ t.logUsed c.val = s.logUsed c.val + 72 ∧ t.mem = s.mem ∧
    t.reply = ⟨Code.ok, 0⟩ := by
  obtain ⟨hent, hlog, hmem⟩ := s.setEvk_logAdd c.val i.val 4 72 EvkEnt.zero (evkLogBody (s.evkEnt c.val i.val))
  obtain ⟨m, o, p, hfin⟩ := State.finishArg_shape ((s.setEvk c.val i.val EvkEnt.zero).logAdd c.val 4 72
    (evkLogBody (s.evkEnt c.val i.val))) 0x0401 (some c.val) i.val Code.ok []
  have hexec : exec (.evkRetireDone c i) s = .next ((((s.setEvk c.val i.val EvkEnt.zero).logAdd c.val 4 72
      (evkLogBody (s.evkEnt c.val i.val))).finishArg 0x0401 (some c.val) i.val Code.ok []).done Code.ok) := by
    show execEvkRetireDone c i s = _
    simp only [execEvkRetireDone, he, hu, hf, ne_eq, not_true_eq_false, or_self, if_false]
  refine ⟨_, hexec, ?_⟩
  rw [hfin]
  exact ⟨hent, hlog, hmem, rfl⟩

end Retired

end Keys

end Sys2Proof.Machine

open Sys2Proof Sys2Proof.Machine

/-- Settles O52: each command by its checks, ASSIGN by `grAssign_facts`, an entry's write by `setEvk_ekDone`. -/
theorem granulesAndEvaluationKeys : Obligations.GranulesAndEvaluationKeys := by
  unfold Obligations.GranulesAndEvaluationKeys
  refine ⟨fun s hc hf => exec_granuleAssign_free hc hf, fun s a n o ha => s.grAssign_facts n o ha,
    fun s hc hf => exec_granuleAssign_owned hc hf, fun s hc ho hh => exec_granuleRelease_unused hc ho hh,
    fun s hc hh => exec_granuleRelease_held hc hh, ?granule,
    fun s c i hl he hb => ⟨_, exec_ekEnter_empty hl he hb, s.setEvk_ekDone 0 c.val i.val _⟩,
    fun s c i hl he => exec_ekEnter_taken hl he,
    fun s c i hl he => ⟨_, exec_ekRetire_active hl he, s.setEvk_ekDone 1 c.val i.val _⟩, ?shown,
    fun s c i he hu hf => exec_evkRetireDone_fits he hu hf, fun s c i he hu hf => exec_evkRetireDone_full he hu hf⟩
  case granule =>
    intro s hc
    obtain ⟨r, hr⟩ := s.grDone_shape 2 (s.granuleOf s.grStart) Code.ok
    refine ⟨_, exec_granuleRead_good hc, ?_, s.grDone_owner 2 Code.ok (BitVec.isLt _), ?_, ?_⟩ <;> rw [hr]
  case shown =>
    intro s c i hl
    obtain ⟨q, hq⟩ := s.ekShow_regsOnly (s.evkEnt c.val i.val)
    obtain ⟨r, hr⟩ := (s.ekShow (s.evkEnt c.val i.val)).ekDone_shape 2 c.val i.val Code.ok
    refine ⟨_, exec_ekRead_live hl, fun k hk => ?_, ?_, ?_, ?_⟩
    · have h1 : Reg.ekData k ≠ Reg.ekCtl := by unfold Reg.ekData Reg.ekCtl regAddr; omega
      have h2 : Reg.ekData k ≠ Reg.ekStat := by unfold Reg.ekData Reg.ekStat regAddr; omega
      rw [State.reg_ekDone _ _ _ _ _ h1 h2, State.ekShow_word _ _ hk]
    all_goals rw [hr, hq]

end

/-! ### Requests of a context's owner (R238, R239, R243–R249, R256, R262, R273–R275)

A hub access that is good, the ends of requests, then each request by the checks it passes. -/

section
namespace Sys2Proof.Machine

/-! #### Accesses and final responses -/

/-- A good hub access goes on with what it read. -/
theorem Line.req_good {x : Line} (hs : x.stall = false) (hc : x.code = Code.ok) (s : State) (bad : Byte → State → State)
    (ok : State → Bytes → State) : x.req s bad ok = ok x.st x.data := by
  unfold Line.req
  rw [if_neg (ne_true_of_eq_false hs), if_neg (not_not_intro hc)]

theorem State.final_reply (s : State) (i : Nat) (q : DWord) (c : Byte) (body : List Nat) :
    (s.final i q c body).reply = ⟨c, 0⟩ := by
  unfold State.final
  dsimp only
  split <;> rfl

/-- After its final response a request is no longer outstanding, and no other one has become so (R474). -/
theorem State.mem_pending_final {s : State} {i : Nat} {q : DWord} {c : Byte} {body : List Nat} {w : PmpWork}
    (h : w ∈ (s.final i q c body).mgmt.pending) : w ∈ s.mgmt.pending ∧ ¬ (w.ident = i ∧ w.reqId = q) := by
  have hw : w ∈ s.mgmt.pending.filter (fun w => ¬ (w.ident = i ∧ w.reqId = q)) := by
    unfold State.final at h
    dsimp only at h
    split at h <;> exact h
  obtain ⟨hmem, hne⟩ := List.mem_filter.mp hw
  exact ⟨hmem, of_decide_eq_true hne⟩

/-- After the final responses of several requests none of them is outstanding. -/
theorem State.mem_pending_finals {c : Byte} {body : List Nat} {w : PmpWork} (ws : List PmpWork) : ∀ {s : State},
    w ∈ (ws.foldl (fun t v => t.final v.ident v.reqId c body) s).mgmt.pending → w ∈ s.mgmt.pending ∧ w ∉ ws := by
  induction ws with
  | nil => exact fun h => ⟨h, List.not_mem_nil⟩
  | cons v ws ih =>
    intro s h
    obtain ⟨hmem, hne⟩ := ih h
    obtain ⟨hold, hv⟩ := State.mem_pending_final hmem
    refine ⟨hold, fun hin => (List.mem_cons.mp hin).elim (fun he => hv ?_) hne⟩
    rw [he]
    exact ⟨rfl, rfl⟩

/-- Final responses change what the management port holds, what is put out, and the reply. -/
theorem State.finals_shape (c : Byte) (body : List Nat) (ws : List PmpWork) (s : State) : ∃ m o r,
    ws.foldl (fun t v => t.final v.ident v.reqId c body) s = { s with mgmt := m, out := o, reply := r } := by
  refine List.foldlRecOn (motive := fun t : State => ∃ m o r, t = { s with mgmt := m, out := o, reply := r }) _ _
    ⟨s.mgmt, s.out, s.reply, rfl⟩ ?_
  rintro t ⟨m, o, r, rfl⟩ w -
  obtain ⟨m', o', r', h⟩ := State.final_shape { s with mgmt := m, out := o, reply := r } w.ident w.reqId c body
  exact ⟨m', o', r', h⟩

/-! #### Evaluation keys (R239, R243) -/

section Owner
variable {s t : State} {p : PmpReq} {m : Bytes} {g : Sigs}

theorem State.evkEnter_free {i : Nat} (h : s.evkFree p.c = some i) (m : Bytes) (a : Nat) : s.evkEnter p m a =
    ((s.setEvk p.c i (mfEntry m a)).logAdd p.c 3 72 (evkLogBody (mfEntry m a))).final p.ident p.reqId Code.ok [i] := by
  unfold State.evkEnter
  rw [h]

/-- A key that is entered stands in the free entry, and the log takes its record (R239, R419). -/
theorem State.evkEnter_facts {i : Nat} (h : s.evkFree p.c = some i) (m : Bytes) (a : Nat) :
    (s.evkEnter p m a).evkEnt p.c i = mfEntry m a ∧ (s.evkEnter p m a).logUsed p.c = s.logUsed p.c + 72 ∧
    (s.evkEnter p m a).reply = ⟨Code.ok, 0⟩ := by
  obtain ⟨hent, hlog, -⟩ := s.setEvk_logAdd p.c i 3 72 (mfEntry m a) (evkLogBody (mfEntry m a))
  have hreply := State.final_reply ((s.setEvk p.c i (mfEntry m a)).logAdd p.c 3 72 (evkLogBody (mfEntry m a)))
    p.ident p.reqId Code.ok [i]
  obtain ⟨x, o, r, hfin⟩ := State.final_shape ((s.setEvk p.c i (mfEntry m a)).logAdd p.c 3 72
    (evkLogBody (mfEntry m a))) p.ident p.reqId Code.ok [i]
  rw [State.evkEnter_free h]
  refine ⟨?_, ?_, hreply⟩ <;> rw [hfin]
  · exact hent
  · exact hlog

/-- The import of a signed key, its manifest good and its range clear, goes by what the range holds (R239). -/
theorem exec_evkImport {a : DWord} {r : Line} (h : s.accepts p 0x0400 true) (ht : t = s.accepted p 0x0400)
    (hm : t.evkManifestOk p.c m a.toNat none = true) (hr : t.inCtxHbm p.c a.toNat (mfLength m) = true)
    (hg : t.regionMeets a.toNat (mfLength m) = false) (hk : t.evkMeets a.toNat (mfLength m) = false)
    (hx : r = t.hubGet p.c a.toNat (mfLength m)) (hs : r.stall = false) (hc : r.code = Code.ok) :
    exec (.evkImport p m g a none) s = .next (if s.ownerSigned p.c m g
      then (if r.st.evkCode p.c m r.data = Code.ok then r.st.evkEnter p m a.toNat
        else r.st.answer p (r.st.evkCode p.c m r.data))
      else s.answered p Code.signatureFail []) := by
  subst ht hx
  refine congrArg Host.Outcome.next ((pmp_eq h).trans ?_)
  rw [ite_not]
  refine if_congr Iff.rfl ?_ (accepted_final h _ _)
  rw [if_neg (not_not_intro hm), if_neg]
  · exact Line.req_good hs hc _ _ _
  · rintro (hn | hn | hn)
    · exact hn hr
    · exact ne_true_of_eq_false hg hn
    · exact ne_true_of_eq_false hk hn

theorem exec_evkRetire {i : Fin 64} (h : s.accepts p 0x0401 true) (ht : t = s.accepted p 0x0401)
    (hl : t.ctxLive p.c = true) (he : (t.evkEnt p.c i.val).st = 1) (hf : t.logFits p.c 72 = true) :
    exec (.evkRetire p i) s = .next (((t.retireEvk p.c i.val).waitFor p i.val).done Code.ok) := by
  subst ht
  refine congrArg Host.Outcome.next ((pmp_eq h).trans ?_)
  rw [if_neg (not_not_intro hl), if_neg (not_not_intro he), if_neg (not_not_intro hf)]

/-! #### Encryptions of zero and the screening configuration (R249, R256, R262) -/

/-- Signed ciphertexts that can be read join the pool if the manifest's digest is theirs (R262). -/
theorem exec_zeroImport {hs : List DWord} {r : Line} (h : s.accepts p 0x0402 true) (ht : t = s.accepted p 0x0402)
    (hm : manifestOk p.c m = true) (hl : t.ctxLive p.c = true) (hne : hs ≠ [])
    (hd : (hs ++ (t.ctx p.c).zeros.map (fun z => z.header)).Nodup)
    (hh : ∀ h, h ∈ hs → t.inCtxHbm p.c h.toNat 64 = true) (hx : r = t.readZeros p.c (hs.map (fun h => h.toNat)))
    (hst : r.stall = false) (hc : r.code = Code.ok) (hf : r.st.logFits p.c 112 = true) :
    exec (.zeroImport p m g hs) s = .next (if s.ownerSigned p.c m g
      then (if shaBytes r.data = mfDigest m
        then ((r.st.setCtx p.c { r.st.ctx p.c with
              zeros := (r.st.ctx p.c).zeros ++ zerosOf hs r.data
              zeroN := ((zerosOf hs r.data).map (fun z => z.n)).headD (r.st.ctx p.c).zeroN }).logConfig p.c 5 0 0
          (r.st.roundOrZero p.c) r.data).answer p Code.ok
        else r.st.answer p Code.signatureFail)
      else s.answered p Code.signatureFail []) := by
  subst ht hx
  have hall : (hs.map (fun h => h.toNat)).all (fun a => (s.accepted p 0x0402).inCtxHbm p.c a 64) = true := by
    rw [List.all_map, List.all_eq_true]
    exact hh
  refine congrArg Host.Outcome.next ((pmp_eq h).trans ?_)
  rw [ite_not]
  refine if_congr Iff.rfl ?_ (accepted_final h _ _)
  rw [if_neg, if_neg (not_not_intro hall), Line.req_good hst hc, ite_not]
  · exact if_congr Iff.rfl (if_neg (not_not_intro hf)) rfl
  · rintro (hn | hn | hn | hn)
    · exact hn hm
    · exact hn hl
    · exact hne hn
    · exact hn hd

theorem exec_screenSet {b : Bytes} (h : s.accepts p 0x0403 true) (ht : t = s.accepted p 0x0403)
    (hl : t.ctxLive p.c = true) (hb : t.screenFields p.c b = true) (hr : t.roundOpen p.c = false)
    (hf : t.logFits p.c 112 = true) : exec (.screenSet p b) s =
      .next (((t.setCtx p.c { t.ctx p.c with screen := some b }).logConfig p.c 4 0 0 0 b).answer p Code.ok) := by
  subst ht
  refine congrArg Host.Outcome.next ((pmp_eq h).trans ?_)
  rw [if_neg (not_not_intro hl), if_neg (not_not_intro hb),
    if_neg (not_or.mpr ⟨ne_true_of_eq_false hr, not_not_intro hf⟩)]

/-- The header of a posted group is read, and then its data (R256). -/
theorem exec_screenGroup {k : Fin 24} {n : BitVec 16} (h : s.accepts p 0x0404 true) (ht : t = s.accepted p 0x0404)
    (hl : t.ctxLive p.c = true) (hr : t.roundOpen p.c = true) (hn : n.toNat * t.packN p.c < t.listedOn p.c k.val)
    (hp : t.groupPosted p.c k.val n.toNat = true) : exec (.screenGroup p k n) s =
      .next ((t.hubGet p.c (Config.groupHeader p.c k.val n.toNat) 64).req s (fun e u => u.answer p e)
        (fun u b => (u.hubGet p.c (Hdr.of (BitVec.ofNat 512 (fromLE b))).ptr
          (Hdr.of (BitVec.ofNat 512 (fromLE b))).len).req s (fun e v => v.answer p e)
          (fun v d => v.final p.ident p.reqId Code.ok (toBody (b ++ d))))) := by
  subst ht
  refine congrArg Host.Outcome.next ((pmp_eq h).trans ?_)
  rw [if_neg (not_not_intro hl), if_neg (not_or.mpr ⟨not_not_intro hr, Nat.not_le.mpr hn⟩), if_neg (not_not_intro hp)]

/-! #### Threshold combination (R244–R248) -/

/-- A signed combination of a good header, which is no key, waits for its shares unless it is poisoned (R245). -/
theorem exec_decCombine {a : DWord} {ms : Nat} {mb : List Bytes} {x : Line} {k : Hdr} (h : s.accepts p 0x0405 true)
    (ht : t = s.accepted p 0x0405) (hm : membersOk ms mb = true) (hl : t.ctxLive p.c = true) (ha : a.toNat % 64 = 0)
    (hi : t.inCtx p.c a.toNat 64 = true) (hx : x = t.ownGet p.c a.toNat 64) (hs : x.stall = false)
    (hc : x.code = Code.ok) (hk : k = Hdr.of (BitVec.ofNat 512 (fromLE x.data))) (hh : x.st.hdrCheck p.c k = none)
    (h3 : k.typ ≠ 3) : exec (.decCombine p a ms mb g) s = .next (if s.ownerSigned p.c (combineSigned a ms mb) g
      then (if k.poison then (x.st.combineRefused p.c a.toNat).answer p Code.poisonedOperand
        else (x.st.setCtx p.c { x.st.ctx p.c with combs := (x.st.ctx p.c).combs ++
          [⟨p.reqId, BitVec.ofNat 48 a.toNat, BitVec.ofNat 48 k.keytag, mb.map memberOf⟩] }).done Code.ok)
      else s.answered p Code.signatureFail []) := by
  subst ht hx hk
  refine congrArg Host.Outcome.next ((pmp_eq h).trans ?_)
  rw [ite_not]
  refine if_congr Iff.rfl ?_ (accepted_final h _ _)
  rw [if_neg (not_not_intro hm), if_neg (not_not_intro hl),
    if_neg (not_or.mpr ⟨not_not_intro ha, not_not_intro hi⟩), Line.req_good hs hc]
  exact if_neg (not_or.mpr ⟨by rw [hh]; decide, h3⟩)

section Share
variable {id : DWord} {n : BitVec 16} {tag : BitVec 48} {sh sg : Bytes} {k : Comb}

/-- A share of a member that has sent none is checked, counted, and the last one runs the combination (R245, R246). -/
theorem exec_decShare_open {y : Member} {x : Line} (h : s.accepts p 0x0406 true) (ht : t = s.accepted p 0x0406)
    (hk : t.combOf p.c id = some k) (hy : k.open n = some y) (hx : x = t.ownGet p.c k.header.toNat 64)
    (hs : x.stall = false) (hc : x.code = Code.ok) : exec (.decShare p id n tag sh sg) s = .next (
      if k.shareCode y tag sh sg x.data ≠ Code.ok then x.st.answer p (k.shareCode y tag sh sg x.data)
      else if (k.take n sh).full
        then ((x.st.setComb p.c (k.take n sh)).answer p Code.ok).combineRun s p.c (k.take n sh)
        else (x.st.setComb p.c (k.take n sh)).answer p Code.ok) := by
  subst ht hx
  refine congrArg Host.Outcome.next ((pmp_eq h).trans ?_)
  simp only [hk, hy]
  exact Line.req_good hs hc _ _ _

theorem exec_decShare_closed (h : s.accepts p 0x0406 true) (ht : t = s.accepted p 0x0406)
    (hk : t.combOf p.c id = some k) (hy : k.open n = none) :
    exec (.decShare p id n tag sh sg) s = .next (s.answered p Code.formatError []) := by
  subst ht
  refine congrArg Host.Outcome.next ((pmp_eq h).trans ?_)
  simp only [hk, hy]
  exact accepted_final h _ _

end Share

/-- The number whose bits below n are those of f; `admitBits` spells each byte so. -/
def sumBits (f : Nat → Bool) (n : Nat) : Nat := ((List.range n).map (fun j => b2n (f j) * 2 ^ j)).sum

theorem sumBits_succ (f : Nat → Bool) (n : Nat) : sumBits f (n + 1) = 2 ^ n * b2n (f n) + sumBits f n := by
  unfold sumBits
  rw [List.range_succ, List.map_append, List.sum_append, List.map_singleton, List.sum_singleton, Nat.mul_comm,
    Nat.add_comm]

theorem sumBits_lt (f : Nat → Bool) (n : Nat) : sumBits f n < 2 ^ n := by
  induction n with
  | zero => exact Nat.one_pos
  | succ n ih =>
    have hbit : 2 ^ n * b2n (f n) ≤ 2 ^ n := by cases f n <;> simp [b2n]
    rw [sumBits_succ, Nat.pow_succ]
    omega

theorem testBit_sumBits (f : Nat → Bool) {n i : Nat} (h : i < n) : (sumBits f n).testBit i = f i := by
  induction n with
  | zero => omega
  | succ n ih =>
    rw [sumBits_succ, Nat.testBit_two_pow_mul_add _ (sumBits_lt f n)]
    split
    · next hi => exact ih hi
    · have hi : i = n := by omega
      rw [hi, Nat.sub_self]
      cases f n <;> rfl

/-- Bit i of an admission group's answer (R256). -/
theorem admitBits_bit {n i : Nat} (q : Nat) (x : Nat → Int) (hn : n % 8 = 0) (hi : i < n) :
    ((admitBits n q x).getD (i / 8) 0).getLsbD (i % 8) = admitBit q (x i) := by
  have hlt : i % 8 < 8 := Nat.mod_lt _ (by decide)
  have hb : (admitBits n q x).getD (i / 8) 0 =
      BitVec.ofNat 8 (sumBits (fun j => admitBit q (x (8 * (i / 8) + j))) 8) := by
    unfold admitBits
    rw [List.getD_eq_getElem?_getD, List.getElem?_map, List.getElem?_range (by omega)]
    rfl
  rw [hb, BitVec.getLsbD_ofNat, testBit_sumBits _ hlt, Nat.div_add_mod, decide_eq_true hlt, Bool.true_and]

/-! #### A deadline (R247) -/

theorem State.combOf_dropComb_same (s : State) (c : Nat) (id : DWord) : (s.dropComb c id).combOf c id = none := by
  unfold State.combOf State.dropComb
  rw [State.ctx_setCtx_same, List.find?_eq_none]
  intro e he hid
  exact of_decide_eq_true (List.mem_filter.mp he).2 (of_decide_eq_true hid)

theorem State.combOf_dropComb_ne (s : State) (c : Nat) {id j : DWord} (h : j ≠ id) :
    (s.dropComb c id).combOf c j = s.combOf c j := by
  unfold State.combOf State.dropComb
  rw [State.ctx_setCtx_same, List.find?_filter]
  exact List.find?_congr fun e _ => decide_eq_decide.mpr ⟨fun hb => of_decide_eq_true hb.2, fun he =>
    ⟨decide_eq_true (by rw [he]; exact h), decide_eq_true he⟩⟩

theorem State.mem_pending_finishComb {c : Nat} {id : DWord} {status : Byte} {body : List Nat} {w : PmpWork}
    (h : w ∈ (s.finishComb c id status body).mgmt.pending) :
    ¬ (w.opcode = 0x0405 ∧ w.ctx.toNat = c ∧ w.reqId = id) := by
  obtain ⟨hmem, hne⟩ := State.mem_pending_finals _ h
  rintro ⟨hop, hc, hid⟩
  exact hne (List.mem_filter.mpr ⟨hmem, decide_eq_true ⟨congrArg BitVec.toNat hop, hc, hid⟩⟩)

theorem exec_combineDeadline {c : Fin 16} {id : DWord} {k : Comb} (hk : s.combOf c.val id = some k)
    (hf : k.full = false) (hr : s.hub.reset = none) : exec (.combineDeadline c id) s =
      .next (((s.dropComb c.val id).finishComb c.val id Code.retryAfter []).done Code.retryAfter) := by
  show execCombineDeadline c id s = _
  rw [execCombineDeadline, State.byDaxna_served _ _ hr]
  simp only [hk, hf, Bool.false_eq_true, if_false]

/-! #### A context's model (R273, R275) -/

/-- Past its checks an import is written if every record opens, and else the context has no model (R273). -/
theorem exec_modelImport {hd d : Bytes} {a : DWord} {rs : List WrappedRec} (h : s.accepts p 0x0500 true)
    (hc : (s.accepted p 0x0500).importCode p.c hd d a.toNat rs = Code.ok) : exec (.modelImport p hd d a rs) s =
      .next (State.pageZero (match allSome (((recordOrder ((dirParts d).map dirEntOf) (1 + field hd 5 1)).zip rs).map
          ((s.accepted p 0x0500).openRec (field hd 0x18 8) p.c)) with
        | none => ((s.accepted p 0x0500).setCtx p.c { s.ctx p.c with model := none }).answer p Code.aeadFail
        | some plain => (s.accepted p 0x0500).importRun s p hd d a.toNat plain)) := by
  refine congrArg Host.Outcome.next ((pmp_eq h).trans (congrArg State.pageZero ((if_neg (not_not_intro hc)).trans ?_)))
  rfl

/-- The digest that MODEL_EXPORT answers: of the model with its directory, and the pages in the format given (R275). -/
def exportDigest (m : Model) (c fmt : Nat) (pages : List Bytes) : BitVec 384 :=
  Config.sha384 (m.hdr c ++ (m.dir.map DirEnt.bytes).flatten ++ (pages.map (inFmt fmt)).flatten)

/-- MODEL_EXPORT that may run reads the pages of its copies, then waits with them pinned, fails or is answered (R275). -/
theorem exec_modelExport {st : Bool} {fmt : Byte} {m n : Model} {x : ExportPin} {xs : List (DirEnt × Nat × Nat)}
    {r : State × Byte × List Bytes × Bool} (ht : t = (s.unpinModel p.c p.reqId).accepted p 0x0501)
    (h : (s.unpinModel p.c p.reqId).accepts p 0x0501 true) (hl : t.ctxLive p.c = true)
    (hm : (s.ctx p.c).model = some m) (hn : (t.ctx p.c).model = some n) (hx : x = m.pinOf p.reqId) (hf : fmt.toNat ≤ 1)
    (hk : t.keyUse n.kwSlot.toNat 5 .breakwater (some p.c) = Code.ok)
    (hxs : xs = recordOrder x.dir (if st then 1 + n.nstate else 1)) (hr : r = t.readPages p.c n.nstate xs []) :
    exec (.modelExport p st fmt) s = .next (
      if r.2.2.2 then ((s.unpinModel p.c p.reqId).pinModel p.c x).waitsFor r.1
      else if r.2.1 ≠ Code.ok then r.1.answer p r.2.1
      else r.1.final p.ident p.reqId Code.ok (toBody (digestBytes
        (exportDigest { n with dir := x.dir, genHwm := x.genHwm } p.c fmt.toNat r.2.2.1) ++
        ((xs.zip r.2.2.1).map (t.sealRec n.kwSlot.toNat p.c fmt.toNat)).flatten))) := by
  subst ht hx hxs hr
  refine congrArg Host.Outcome.next ((pmp_eq h).trans ?_)
  rw [if_neg (fun hd => hd.1 hl)]
  simp only [hm, hn, Option.map_some]
  rw [if_neg (Nat.not_lt.mpr hf), if_neg (not_not_intro hk)]
  rfl

end Owner

end Sys2Proof.Machine

open Sys2Proof Sys2Proof.Machine

/-- Settles O59: an accepted request by the checks it passes, a deadline by what the end of a combination leaves. -/
theorem ownerRequests : Obligations.OwnerRequests := by
  unfold Obligations.OwnerRequests
  refine ⟨fun s p m g a r h hm hr hg hk hx hs hc => exec_evkImport h rfl hm hr hg hk hx hs hc,
    fun s p m a i h => State.evkEnter_facts h m a,
    fun s p i h hl he hf => exec_evkRetire h rfl hl he hf,
    fun s p m g hs r h hm hl hne hd hh hx hst hc hf => exec_zeroImport h rfl hm hl hne hd hh hx hst hc hf,
    fun s p b h hl hb hr hf => exec_screenSet h rfl hl hb hr hf,
    fun s p k n h hl hr hn hp => exec_screenGroup h rfl hl hr hn hp,
    fun s p a ms mb g x k h hm hl ha hi hx hs hc hk hh h3 => exec_decCombine h rfl hm hl ha hi hx hs hc hk hh h3,
    fun s p id n tag sh sg k y x h hk hy hx hs hc => exec_decShare_open h rfl hk hy hx hs hc,
    fun s p id n tag sh sg k h hk hy => exec_decShare_closed h rfl hk hy,
    fun n q i x hn hi => admitBits_bit q x hn hi,
    ?deadline, fun s p hd d a rs h hc => exec_modelImport h hc, ?exported⟩
  case deadline =>
    intro s c id k hk hf hr
    obtain ⟨m, o, r, hfin⟩ := State.finals_shape Code.retryAfter [] _ (s.dropComb c.val id)
    refine ⟨_, exec_combineDeadline hk hf hr, ?_, ?_, fun w hw => State.mem_pending_finishComb hw, ?_, rfl⟩
    all_goals rw [State.finishComb, hfin]
    · exact s.combOf_dropComb_same c.val id
    · exact fun j hj => s.combOf_dropComb_ne c.val hj
    · rfl
  case exported =>
    intro s u p st fmt m n x xs r hu h hl hm hn hx hf hk hxs hr
    rw [exec_modelExport hu h hl hm hn hx hf hk hxs hr]
    exact ⟨fun hw => congrArg Host.Outcome.next (if_pos hw),
      fun hw hc => congrArg Host.Outcome.next ((if_neg (ne_true_of_eq_false hw)).trans (if_pos hc)),
      fun hw hc => ⟨_, congrArg Host.Outcome.next
        ((if_neg (ne_true_of_eq_false hw)).trans (if_neg (not_not_intro hc)))⟩⟩

end

/-! ### Offsets and ports of a route (R316, R325) -/

section
namespace Sys2Proof.Machine

/-- The offset in a dimension is the difference of the coordinates modulo its size. -/
theorem State.dimOffset_cast (s : State) (dst : Nat) {i : Nat} (h : s.coord s.ownId i < s.dim i) :
    (s.dimOffset dst i : Int) = ((s.coord dst i : Int) - (s.coord s.ownId i : Int)) % (s.dim i : Int) := by
  have hsub : s.dimOffset dst i = subMod (s.coord dst i) (s.coord s.ownId i) (s.dim i) := by
    rw [State.dimOffset, subMod, Nat.mod_eq_of_lt h, Nat.add_sub_assoc h.le]
  rw [hsub, subMod_cast h]

theorem State.dimPort_plus {s : State} {dst i : Nat} (h : s.dimOffset dst i ≤ s.dim i / 2) : s.dimPort dst i = 2 * i := by
  rw [State.dimPort, if_pos (by omega), Nat.add_zero]

theorem State.dimPort_minus {s : State} {dst i : Nat} (h : s.dim i / 2 < s.dimOffset dst i) :
    s.dimPort dst i = 2 * i + 1 := by
  rw [State.dimPort, if_neg (by omega)]

/-- A port is one of its dimension's two (R316). -/
theorem State.dimPort_div_two (s : State) (dst i : Nat) : s.dimPort dst i / 2 = i := by
  rcases Nat.lt_or_ge (s.dim i / 2) (s.dimOffset dst i) with h | h
  · rw [State.dimPort_minus h]; omega
  · rw [State.dimPort_plus h]; omega

/-- The productive ports are those of the dimensions with an offset. -/
theorem State.mem_productive {s : State} {dst p : Nat} :
    p ∈ s.productive dst ↔ ∃ j, j < 3 ∧ s.dimOffset dst j ≠ 0 ∧ p = s.dimPort dst j := by
  simp only [State.productive, List.mem_map, List.mem_filter, List.mem_range, decide_eq_true_eq, and_assoc,
    eq_comm (a := p)]

/-- Ports of different dimensions differ, so a dimension's port is productive for its own offset alone. -/
theorem State.dimPort_mem_productive {s : State} {dst i : Nat} (hi : i < 3) :
    s.dimPort dst i ∈ s.productive dst ↔ s.dimOffset dst i ≠ 0 := by
  rw [State.mem_productive]
  constructor
  · rintro ⟨j, -, hj, hp⟩
    have hij : i = j := by rw [← s.dimPort_div_two dst i, hp, s.dimPort_div_two]
    rwa [hij]
  · exact fun h => ⟨i, hi, h, rfl⟩

end Sys2Proof.Machine

open Sys2Proof Sys2Proof.Machine

/-- Settles O8: the offset as a difference of residues, the port by the half it lies in, the productive ports by membership. -/
theorem dimensionOffsets : Obligations.DimensionOffsets := by
  unfold Obligations.DimensionOffsets
  exact fun s dst i hi hc => ⟨s.dimOffset_cast dst hc, fun _ h => State.dimPort_plus h, State.dimPort_minus,
    State.dimPort_mem_productive hi, fun p hp => State.mem_productive.mp hp⟩

end

/-! ### The fold stream table and the fold in the network (R331–R338, R368)

Entries and slots, the commands on an entry, the sums of blocks, a REDUCE packet at the owner, and the fold-out engines. -/

section
namespace Sys2Proof.Machine

/-! #### Entries and slots -/

@[simp] theorem State.fse_setFse_same (s : State) (k : Nat) (v : QWord) : (s.setFse k v).fse k = v :=
  Table.get_put_same _ _ _ _
theorem State.fse_setFse_ne (s : State) {k m : Nat} (v : QWord) (h : m ≠ k) : (s.setFse k v).fse m = s.fse m :=
  Table.get_put_ne _ _ _ _ _ h
theorem State.fse_congr {s t : State} (h : t.fst = s.fst) (k : Nat) : t.fse k = s.fse k := by
  unfold State.fse
  rw [h]

@[simp] theorem State.setFse_fst (s : State) (k : Nat) (v : QWord) : (s.setFse k v).fst = s.fst.put (fun _ => 0) k v := rfl
@[simp] theorem State.setFse_slots (s : State) (k : Nat) (v : QWord) : (s.setFse k v).slots = s.slots := rfl
@[simp] theorem State.fstHeld_fst (s : State) (k : Nat) : (s.fstHeld k).fst = s.fst := rfl
@[simp] theorem State.fstHeld_slots (s : State) (k : Nat) : (s.fstHeld k).slots = s.slots := rfl

/-- The slots that stay are those of the other streams. -/
theorem State.mem_freeSlots {s : State} {tag : BitVec 16} {x : RedSlot} :
    x ∈ (s.freeSlots tag.toNat).slots ↔ x ∈ s.slots ∧ x.tag ≠ tag := by
  simp only [State.freeSlots, List.mem_filter, decide_eq_true_eq, ne_eq, BitVec.toNat_inj]

/-- A Tideway counter is a register (R339). -/
theorem State.twCount_regsOnly (s : State) (l o : Nat) : s.regsOnly (s.twCount l o) := s.setFld_regsOnly _ _ _ _

/-! #### Commands on an entry (R333, R336) -/

/-- The end of a FST_CTL command changes registers and the reply. -/
theorem State.fstDone_shape (s : State) (op tag : Nat) (code : Byte) :
    ∃ r, s.fstDone op tag code = { s with regs := r, reply := ⟨code, 0⟩ } := by
  obtain ⟨r, hr⟩ := List.foldlRecOn (motive := fun t : State => s.regsOnly t) s.lds
    (fun t l => (t.setReg (Reg.fstCtl l) (BitVec.ofNat 32 (op * 2 ^ 29 + tag))).setFld (Reg.fstStat l) 23 16 code.toNat)
    ⟨s.regs, rfl⟩ fun t ht l _ => ht.trans ((t.setReg_regsOnly _ _).trans (State.setFld_regsOnly _ _ _ _ _))
  exact ⟨r, congrArg (State.done · code) hr⟩

@[simp] theorem State.fstDone_fst (s : State) (op tag : Nat) (code : Byte) : (s.fstDone op tag code).fst = s.fst := by
  obtain ⟨r, hr⟩ := s.fstDone_shape op tag code
  rw [hr]
@[simp] theorem State.fstDone_slots (s : State) (op tag : Nat) (code : Byte) : (s.fstDone op tag code).slots = s.slots := by
  obtain ⟨r, hr⟩ := s.fstDone_shape op tag code
  rw [hr]
@[simp] theorem State.fstDone_reply (s : State) (op tag : Nat) (code : Byte) : (s.fstDone op tag code).reply = ⟨code, 0⟩ := by
  obtain ⟨r, hr⟩ := s.fstDone_shape op tag code
  rw [hr]

/-- It leaves every other register. -/
theorem State.reg_fstDone (s : State) (op tag : Nat) (code : Byte) {a : Nat} (hc : ∀ l, a ≠ Reg.fstCtl l)
    (hs : ∀ l, a ≠ Reg.fstStat l) : (s.fstDone op tag code).reg a = s.reg a :=
  foldl_keeps (g := fun t => t.reg a) (fun t l => (State.reg_setFld_ne _ _ _ _ _ _ (hs l)).trans
    (t.reg_setReg_ne _ _ _ (hc l))) s.lds s

theorem exec_fstWrite {s : State} {tag : BitVec 16} (hl : s.linksClean = true) : exec (.fstWrite tag) s = .next (
    if fseArmed (s.fse tag.toNat) then s.fstDone 0 tag.toNat Code.busy
    else if s.fstBad s.fstStaged then s.fstDone 0 tag.toNat Code.formatError
    else ((s.fstHeld tag.toNat).setFse tag.toNat s.fstStaged).fstDone 0 tag.toNat Code.ok) :=
  congrArg Host.Outcome.next (s.toDie_clean 4 _ hl)

/-- FST_WRITE by what the entry and the staged fields are. -/
theorem fstWrite_facts {s : State} {tag : BitVec 16} (hl : s.linksClean = true) : ∃ t, exec (.fstWrite tag) s = .next t ∧
    t.fst = (if fseArmed (s.fse tag.toNat) ∨ s.fstBad s.fstStaged then s.fst else (s.setFse tag.toNat s.fstStaged).fst) ∧
    t.slots = s.slots ∧ t.reply = ⟨if fseArmed (s.fse tag.toNat) then Code.busy
      else if s.fstBad s.fstStaged then Code.formatError else Code.ok, 0⟩ := by
  refine ⟨_, exec_fstWrite hl, ?_⟩
  by_cases ha : fseArmed (s.fse tag.toNat) = true
  · rw [if_pos ha, if_pos (Or.inl ha), if_pos ha]
    exact ⟨s.fstDone_fst _ _ _, s.fstDone_slots _ _ _, s.fstDone_reply _ _ _⟩
  rw [if_neg ha, if_neg ha]
  by_cases hb : s.fstBad s.fstStaged = true
  · rw [if_pos hb, if_pos (Or.inr hb), if_pos hb]
    exact ⟨s.fstDone_fst _ _ _, s.fstDone_slots _ _ _, s.fstDone_reply _ _ _⟩
  · rw [if_neg hb, if_neg (not_or.mpr ⟨ha, hb⟩), if_neg hb]
    simp only [State.fstDone_fst, State.fstDone_slots, State.fstDone_reply, State.setFse_fst, State.setFse_slots,
      State.fstHeld_fst, State.fstHeld_slots, and_self]

/-- FST_DATA of every fitted light die with the entry as that die holds it. -/
def State.fstShow (s : State) (tag : Nat) : State :=
  s.lds.foldl (fun u l => (List.range 4).foldl (fun w i =>
    w.setReg (Reg.fstData l i) (BitVec.ofNat 32 (field (le 16 (s.fseAt l tag).toNat) (4 * i) 4))) u) s

theorem State.fstShow_regsOnly (s : State) (tag : Nat) : s.regsOnly (s.fstShow tag) :=
  List.foldlRecOn (motive := fun t : State => s.regsOnly t) _ _ ⟨s.regs, rfl⟩ fun _ ht _ _ =>
    List.foldlRecOn (motive := fun t : State => s.regsOnly t) _ _ ht fun w hw _ _ => hw.trans (w.setReg_regsOnly _ _)

theorem Reg.fstData_inj {l m i j : Nat} (hi : i < 4) (hj : j < 4) (h : fstData l i = fstData m j) : l = m ∧ i = j := by
  unfold fstData regAddr ldPage at h
  omega

/-- What one element of a list sets and the others keep stands after the fold. -/
theorem foldl_sets {α β : Type} {g : State → β} {f : State → α → State} {a : α} {b : β} (hset : ∀ t, g (f t a) = b)
    (hkeep : ∀ t c, c ≠ a → g (f t c) = g t) {xs : List α} (ha : a ∈ xs) (s : State) : g (xs.foldl f s) = b := by
  induction xs using List.reverseRecOn with
  | nil => cases ha
  | append_singleton xs c ih =>
    rw [List.foldl_append, List.foldl_cons, List.foldl_nil]
    by_cases hc : c = a
    · rw [hc, hset]
    · rw [hkeep _ c hc]
      exact ih ((List.mem_append.mp ha).resolve_right fun h => hc (List.mem_singleton.mp h).symm)

/-- Word i of the entry that light die l shows. -/
theorem State.fstShow_word (s : State) (tag : Nat) {l i : Nat} (hl : l < s.part.ldCount) (hi : i < 4) :
    (s.fstShow tag).reg (Reg.fstData l i) = BitVec.ofNat 32 (field (le 16 (s.fseAt l tag).toNat) (4 * i) 4) := by
  refine foldl_sets (g := fun t => t.reg (Reg.fstData l i)) (fun t => ?shown) (fun t m hm => ?other)
    (List.mem_range.mpr hl) s
  case shown =>
    have hinj : ∀ j k, Reg.fstData l j = Reg.fstData l k → j = k := by
      intro j k h
      unfold Reg.fstData regAddr at h
      omega
    exact State.reg_foldl_setReg hinj _ _ t (List.mem_range.mpr hi)
  case other =>
    exact List.foldlRecOn (motive := fun w : State => w.reg (Reg.fstData l i) = t.reg (Reg.fstData l i)) _ _ rfl
      fun w hw j hj => (w.reg_setReg_ne _ _ _ fun h => hm (Reg.fstData_inj hi (List.mem_range.mp hj) h).1.symm).trans hw

theorem exec_fstRead {s : State} {tag : BitVec 16} (hl : s.linksClean = true) :
    exec (.fstRead tag) s = .next ((s.fstShow tag.toNat).fstDone 1 tag.toNat Code.ok) :=
  congrArg Host.Outcome.next (s.toDie_clean 4 _ hl)

/-- FST_READ shows the entry and changes no entry and no slot. -/
theorem fstRead_facts {s : State} {tag : BitVec 16} (hl : s.linksClean = true) : ∃ t, exec (.fstRead tag) s = .next t ∧
    t.fst = s.fst ∧ t.slots = s.slots ∧ (∀ l i, l < s.part.ldCount → i < 4 → t.reg (Reg.fstData l i) =
      BitVec.ofNat 32 (field (le 16 (s.fseAt l tag.toNat).toNat) (4 * i) 4)) ∧ t.reply = ⟨Code.ok, 0⟩ := by
  obtain ⟨q, hq⟩ := s.fstShow_regsOnly tag.toNat
  refine ⟨_, exec_fstRead hl, ?_, ?_, fun l i h hi => ?_, State.fstDone_reply _ _ _ _⟩
  · rw [State.fstDone_fst, hq]
  · rw [State.fstDone_slots, hq]
  · rw [State.reg_fstDone, s.fstShow_word tag.toNat h hi]
    all_goals
      intro m
      simp only [Reg.fstData, Reg.fstCtl, Reg.fstStat, Reg.ldPage, regAddr]
      omega

theorem exec_fstArm {s : State} {tag : BitVec 16} (hl : s.linksClean = true) : exec (.fstArm tag) s =
    .next ((s.setFse tag.toNat (s.fse tag.toNat ||| 0x40)).fstDone 2 tag.toNat Code.ok) :=
  congrArg Host.Outcome.next (s.toDie_clean 4 _ hl)

theorem exec_fstClear {s : State} {tag : BitVec 16} (hl : s.linksClean = true) : exec (.fstClear tag) s =
    .next ((s.fstClear tag.toNat).fstDone 3 tag.toNat Code.ok) :=
  congrArg Host.Outcome.next (s.toDie_clean 4 _ hl)

/-- A command that writes an entry writes no other one. -/
theorem State.setFse_fstDone (s : State) (op tag : Nat) (v : QWord) (code : Byte) :
    ((s.setFse tag v).fstDone op tag code).fse tag = v ∧
    (∀ k, k ≠ tag → ((s.setFse tag v).fstDone op tag code).fse k = s.fse k) ∧
    ((s.setFse tag v).fstDone op tag code).slots = s.slots ∧
    ((s.setFse tag v).fstDone op tag code).reply = ⟨code, 0⟩ := by
  have hfse := State.fse_congr ((s.setFse tag v).fstDone_fst op tag code)
  exact ⟨(hfse tag).trans (s.fse_setFse_same tag v), fun k hk => (hfse k).trans (s.fse_setFse_ne v hk),
    State.fstDone_slots _ _ _ _, State.fstDone_reply _ _ _ _⟩

/-- FOLD_STREAM_EXPIRE of a stream that is late: its slots are freed, it is marked, recorded and counted (R336). -/
theorem exec_foldStreamExpire {s : State} {tag : BitVec 16} {v : QWord} (hv : v = s.fse tag.toNat)
    (hu : fseValid (s.fseAt (s.fseOwner v) tag.toNat) = true) (ha : fseArmed v = true) (hx : fseExpired v = false)
    (hd : fseDone v < fseNblocks v) : ∃ e, exec (.foldStreamExpire tag) s = .next (((((s.freeSlots tag.toNat).setFse
      tag.toNat (v ||| 0x20)).post 0 e).twCount (s.fseOwner v) 0x44).done Code.ok) := by
  subst hv
  exact ⟨_, if_pos ⟨hu, ha, ne_true_of_eq_false hx, hd⟩⟩

/-- It writes no other entry and frees no other stream's slots. -/
theorem State.expired_facts (s : State) (tag : BitVec 16) (v : QWord) (e : Ev) (l o : Nat) (c : Byte) {t : State}
    (ht : t = ((((s.freeSlots tag.toNat).setFse tag.toNat v).post 0 e).twCount l o).done c) : t.fse tag.toNat = v ∧
    (∀ k, k ≠ tag.toNat → t.fse k = s.fse k) ∧ (∀ x, x ∈ t.slots ↔ x ∈ s.slots ∧ x.tag ≠ tag) ∧ t.reply = ⟨c, 0⟩ := by
  obtain ⟨q, x, m, hp⟩ := ((s.freeSlots tag.toNat).setFse tag.toNat v).post_shape 0 e
  obtain ⟨r, hr⟩ := (((s.freeSlots tag.toNat).setFse tag.toNat v).post 0 e).twCount_regsOnly l o
  rw [ht, hr, hp]
  exact ⟨State.fse_setFse_same _ _ v, fun k hk => State.fse_setFse_ne _ v hk, fun x => State.mem_freeSlots, rfl⟩

/-! #### Sums of blocks (R334) -/

theorem ringSize_pos (ring : Nat) : 0 < ringSize ring := by
  unfold ringSize
  split <;> decide

theorem field_append_left {a b : Bytes} {o n : Nat} (h : o + n ≤ a.length) : field (a ++ b) o n = field a o n := by
  rw [field, List.drop_append_of_le_length (by omega), List.take_append_of_le_length (by rw [List.length_drop]; omega), field]

/-- The field of the element at i, in elements laid one after another. -/
theorem field_elements (es : Nat) (g : Nat → Nat) {n i : Nat} (hi : i < n) :
    field ((List.range n).map (fun k => le es (g k))).flatten (es * i) es = g i % 256 ^ es := by
  have hlen : ∀ n, ((List.range n).map (fun k => le es (g k))).flatten.length = es * n := by
    intro n
    simp only [List.length_flatten, List.map_map, Function.comp_def, length_le, List.map_const', List.sum_replicate,
      List.length_range, smul_eq_mul, Nat.mul_comm]
  induction n with
  | zero => exact absurd hi (Nat.not_lt_zero i)
  | succ n ih =>
    rw [List.range_succ, List.map_append, List.flatten_append, List.map_singleton, List.flatten_singleton]
    rcases Nat.lt_succ_iff_lt_or_eq.mp hi with h | rfl
    · rw [field_append_left, ih h]
      rw [hlen, ← Nat.mul_succ]
      exact Nat.mul_le_mul_left es h
    · rw [field, List.drop_left' (hlen i), List.take_of_length_le (length_le _ _).le, fromLE_le]

/-- An element of a sum is the sum of the elements modulo the ring. -/
theorem field_addBlocks (ring : Nat) (a b : Bytes) {i : Nat} (hi : i < 4096 / ringSize ring) :
    field (addBlocks ring a b) (ringSize ring * i) (ringSize ring) =
      (field a (ringSize ring * i) (ringSize ring) + field b (ringSize ring * i) (ringSize ring)) % 2 ^ (8 * ringSize ring) := by
  rw [addBlocks, field_elements _ _ hi, show 256 = 2 ^ 8 from rfl, ← Nat.pow_mul, Nat.mod_mod]

theorem addBlocks_comm (ring : Nat) (a b : Bytes) : addBlocks ring a b = addBlocks ring b a := by
  unfold addBlocks
  simp only [Nat.add_comm]

theorem addBlocks_assoc (ring : Nat) (a b c : Bytes) :
    addBlocks ring (addBlocks ring a b) c = addBlocks ring a (addBlocks ring b c) := by
  refine congrArg List.flatten (List.map_congr_left fun i hi => congrArg (le (ringSize ring)) ?_)
  have hi := List.mem_range.mp hi
  rw [field_addBlocks ring a b hi, field_addBlocks ring b c hi, Nat.mod_add_mod, Nat.add_mod_mod, Nat.add_assoc]

/-! #### A REDUCE packet at a light die (R329, R334, R335) -/

section Reduce
variable {s : State} {l : Nat} {r : RouterPkt} {rest : List RouterPkt} {v : QWord} (ha : s.arrivalDrop l r = none)
  (hv : v = s.fseAt l r.pkt.tag)
include ha hv

theorem State.reduce_noEntry (hn : fseValid v = false) :
    s.reduce l r rest = (((s.setRbuf l rest).freeInput r).twCount l 0x34).done Code.ok := by
  unfold State.reduce
  simp only [ha, ← hv, hn, Bool.false_eq_true, not_false_eq_true, if_true]

variable (hy : fseValid v = true) (ho : s.fseOwner v = l)
include hy ho

theorem State.reduce_stale (hx : r.pkt.epoch ≠ fseEpoch v ∨ fseExpired v = true) :
    s.reduce l r rest = (((s.setRbuf l rest).freeInput r).twCount l 0x38).done Code.ok := by
  unfold State.reduce
  simp only [ha, ← hv, hy, ho, not_true_eq_false, ne_eq, if_false, if_pos hx]

/-- The owner merges a packet of the running stream. -/
theorem State.reduce_merged {t : State} (he : r.pkt.epoch = fseEpoch v) (hx : fseExpired v = false)
    (hm : ((s.setRbuf l rest).freeInput r).merge l r v = some t) : s.reduce l r rest = t.done Code.ok := by
  unfold State.reduce
  simp only [ha, ← hv, hy, ho, he, hx, hm, not_true_eq_false, ne_eq, Bool.false_eq_true, or_self, if_false]

end Reduce

/-- Taking a packet from its buffer leaves the slots alone. -/
theorem State.taken_slots (s : State) (l : Nat) (r : RouterPkt) (rest : List RouterPkt) :
    ((s.setRbuf l rest).freeInput r).slots = s.slots := by
  unfold State.freeInput
  split <;> rfl

/-- The first part of a block that needs more takes a free slot. -/
theorem State.merge_firstPart {s : State} {l : Nat} {r : RouterPkt} {v : QWord} (hg : fseRing v ≠ 2)
    (hc : r.pkt.contrib < fseExpect v) (hn : s.slotFor l r.pkt.tag r.pkt.block = none) (hf : s.slotFree l = true) :
    s.merge l r v = some (s.putSlot ⟨l, BitVec.ofNat 16 r.pkt.tag, BitVec.ofNat 32 r.pkt.block, r.pkt.src,
      r.pkt.contrib, r.pkt.last, addBlocks (fseRing v) [] r.pkt.payload⟩) := by
  unfold State.merge
  simp only [hn, hf, Nat.zero_add, Bool.or_false, Option.isSome_none, Bool.false_eq_true, false_or, if_true]
  rw [if_neg hc.ne, if_neg (not_or.mpr ⟨hg, hc.not_gt⟩), if_neg hc.ne]

/-- Both commands work on the REDUCE packet that `takeFirst` gives. -/
theorem exec_reduce {s : State} {l : Fin 4} {r : RouterPkt} {rest : List RouterPkt} {cmd : Instr} {p : RouterPkt → Bool}
    (hc : (cmd, p) ∈ [(Instr.reduceReceive l, fun x => decide (x.pkt.ptype = 2)),
      (.reduceSlotWaitEnd l, fun x => decide (x.pkt.ptype = 2) && x.waited)])
    (ht : takeFirst p (s.rbuf l.val) = some (r, rest)) : exec cmd s = .next (s.reduce l.val r rest) := by
  rcases List.mem_pair.mp hc with h | h <;> obtain ⟨rfl, rfl⟩ := Prod.mk.inj h
  · show execReduceReceive l s = _
    rw [execReduceReceive, ht]
  · show execReduceSlotWaitEnd l s = _
    rw [execReduceSlotWaitEnd, ht]

/-! #### Blocks for a strand (R338, R368) -/

theorem exec_localBlockDeliver {s : State} {tag : BitVec 16} {x : RedSlot} {v : QWord} {l : Nat}
    (hv : v = s.fse tag.toNat) (hl : l = s.fseOwner v) (hx : s.slotFor l tag.toNat (fseDone v) = some x)
    (hu : fseValid (s.fseAt l tag.toNat) = true) (ho : fseLocal v = true) (hc : x.count = fseExpect v)
    (hd : s.canDeliver v x.block.toNat = true) : exec (.localBlockDeliver tag) s =
      .next (((s.dropSlot l tag.toNat x.block.toNat).deliver l tag.toNat x.block.toNat x.src x.data).done Code.ok) := by
  subst hl hv
  show execLocalBlockDeliver tag s = _
  unfold execLocalBlockDeliver
  simp only [hx, if_neg (not_not_intro (And.intro hu (And.intro ho hc))), hd, if_true]

/-- What may be delivered is next in order, of a bound strand whose queue has room. -/
theorem State.canDeliver_true {s : State} {v : QWord} {b : Nat} (h : s.canDeliver v b = true) : b = fseDone v ∧
    s.sctx (fseTarget v / 4) (fseTarget v % 4) = fseCtx v ∧
    17 ≤ s.queueFree (100 + strandIx (fseTarget v / 4) (fseTarget v % 4)) := by
  simp only [State.canDeliver, State.boundTo, Bool.and_eq_true, decide_eq_true_eq] at h
  obtain ⟨⟨hb, -, hc⟩, hq⟩ := h
  exact ⟨hb, hc, hq⟩

/-! #### Fold-out engines (R337) -/

theorem exec_foldOutGo {s : State} {l : Fin 4} {e : Fin 16} (hp : l.val < s.part.ldCount) (hl : s.linksClean = true) :
    exec (.foldOutGo l e) s = .next (s.foldOutGo l.val e.val) :=
  (if_pos hp).trans (congrArg Host.Outcome.next (s.toDie_clean _ _ hl))

/-- GO changes an engine's CTL and STAT alone. -/
theorem State.foldOutGo_facts (s : State) (l e : Nat) : (s.foldOutGo l e).fld (Reg.fo l e 0) 31 31 = 1 ∧
    (s.foldOutGo l e).fld (Reg.fo l e 0) 30 30 = 0 ∧ (s.foldOutGo l e).reg (Reg.fo l e 0x14) = 0 ∧
    (∀ a, a ≠ Reg.fo l e 0 → a ≠ Reg.fo l e 0x14 → (s.foldOutGo l e).reg a = s.reg a) ∧
    (s.foldOutGo l e).mem = s.mem ∧ (s.foldOutGo l e).reply = ⟨Code.ok, 0⟩ := by
  have hne : Reg.fo l e 0 ≠ Reg.fo l e 0x14 := by
    unfold Reg.fo regAddr
    omega
  refine ⟨?_, ?_, State.reg_setReg_same _ _ _, fun a h0 h14 => ?_, rfl, rfl⟩
  · exact (State.fld_setReg_ne _ _ _ _ _ _ hne).trans ((State.fld_setFld_apart _ _ _ _ _ _ _ (by decide) (by decide)
      (by decide) (by decide) (by decide)).trans (State.fld_setFld_same _ _ _ _ _ (by decide) (by decide)))
  · exact (State.fld_setReg_ne _ _ _ _ _ _ hne).trans (State.fld_setFld_same _ _ _ _ _ (by decide) (by decide))
  · exact (State.reg_setReg_ne _ _ _ _ h14).trans ((State.reg_setFld_ne _ _ _ _ _ _ h0).trans
      (State.reg_setFld_ne _ _ _ _ _ _ h0))

section Engine
variable {s : State} {l e b : Nat} (hr : bit (s.foCtl l e) 31 = true) (hb : b = s.fld (Reg.fo l e 0x14) 23 0)
  (hn : b < (s.reg (Reg.fo l e 0x0C)).toNat)
include hr hb hn

/-- A block that SEAL has not written yet is waited for. -/
theorem State.foldOutBlock_unsealed (hw : bit (s.foCtl l e) 29 = true)
    (hs : s.sealReady (bits (s.foCtl l e) 28 25) (s.reg64 (Reg.fo l e 4) % 2 ^ 48 + 4096 * b) = false) :
    s.foldOutBlock l e = s.waits := by
  unfold State.foldOutBlock
  simp only [← hb, hr, hw, hs, not_true_eq_false, Nat.not_le.mpr hn, Bool.false_eq_true, not_false_eq_true, and_self,
    if_false, if_true]

/-- Without WATCH_EN the block is read at once; what the read answers decides. -/
theorem State.foldOutBlock_read {r : Line} {t : State} (hw : bit (s.foCtl l e) 29 = false)
    (hx : r = s.readSpan (.dma (Fin.ofNat 8 (4 + l)) (Fin.ofNat 16 (bits (s.foCtl l e) 19 16)))
      (s.reg64 (Reg.fo l e 4) % 2 ^ 48 + 4096 * b) 4096)
    (ht : t = (r.st.toRouter l ⟨none, 10, s.foPacket l e b r.data, false⟩).setFld (Reg.fo l e 0x14) 23 0 (b + 1)) :
    s.foldOutBlock l e = if r.stall then r.st.waits else if r.code ≠ Code.ok then r.st.foldOutEnd l e r.code
      else if b + 1 = (s.reg (Reg.fo l e 0x0C)).toNat then t.foldOutEnd l e Code.ok else t.done Code.ok := by
  subst ht hx
  unfold State.foldOutBlock
  simp only [← hb, hr, hw, not_true_eq_false, Nat.not_le.mpr hn, Bool.false_eq_true, false_and, if_false]

end Engine

end Sys2Proof.Machine

open Sys2Proof Sys2Proof.Machine

/-- Settles O46: the table's commands by what they write, a REDUCE packet by the branch of `reduce` it takes, sums by
their elements, an engine's block by what its read answers. -/
theorem foldStreams : Obligations.FoldStreams := by
  unfold Obligations.FoldStreams
  refine ⟨fun s tag hl => fstWrite_facts hl, fun s tag hl => fstRead_facts hl, ?arm, ?clear, ?expire, ?reduce,
    fun ring a b c => ⟨addBlocks_comm ring a b, addBlocks_assoc ring a b c⟩,
    fun s tag x v l hv hl hx hu ho hc hd => exec_localBlockDeliver hv hl hx hu ho hc hd,
    fun s v b h => State.canDeliver_true h,
    fun s l e hp hl => ⟨_, exec_foldOutGo hp hl, s.foldOutGo_facts l.val e.val⟩, ?block,
    fun s l e b hr hw hb hn hs => congrArg Host.Outcome.next (State.foldOutBlock_unsealed hr hb hn hw hs)⟩
  case arm => exact fun s tag hl => ⟨_, exec_fstArm hl, s.setFse_fstDone 2 tag.toNat _ Code.ok⟩
  case clear =>
    intro s tag hl
    obtain ⟨hsame, hother, hslots, hreply⟩ :=
      ((s.freeSlots tag.toNat).fstHeld tag.toNat).setFse_fstDone 3 tag.toNat 0 Code.ok
    refine ⟨_, exec_fstClear hl, hsame, hother, fun x => ?_, hreply⟩
    rw [← State.mem_freeSlots]
    exact iff_of_eq (congrArg (x ∈ ·) hslots)
  case expire =>
    intro s tag hu ha hx hd
    obtain ⟨e, he⟩ := exec_foldStreamExpire rfl hu ha hx hd
    exact ⟨_, he, s.expired_facts tag _ e _ _ Code.ok rfl⟩
  case reduce =>
    intro s l r rest v cmd p hc ht ha hv
    rw [exec_reduce hc ht]
    refine ⟨fun hn => congrArg Host.Outcome.next (State.reduce_noEntry ha hv hn),
      fun hy ho hx => congrArg Host.Outcome.next (State.reduce_stale ha hv hy ho hx),
      fun hy ho he hx hg hlt hn hf => congrArg Host.Outcome.next
        (State.reduce_merged ha hv hy ho he hx (State.merge_firstPart hg hlt ?_ ?_))⟩
    · rwa [State.slotFor, State.taken_slots]
    · rwa [State.slotFree, State.taken_slots]
  case block =>
    intro s t l e r b hr hw hb hn hx ht
    have hread := State.foldOutBlock_read hr hb hn hw hx ht
    exact ⟨fun hs => congrArg Host.Outcome.next (hread.trans (if_pos hs)),
      fun hs hc => congrArg Host.Outcome.next
        (hread.trans ((if_neg (ne_true_of_eq_false hs)).trans (if_pos hc))),
      fun hs hc => congrArg Host.Outcome.next
        (hread.trans ((if_neg (ne_true_of_eq_false hs)).trans (if_neg (not_not_intro hc))))⟩

end

/-! ### What Tideway's operations and the entropy source leave alone

Queues, event records, crossings and the sampling of the source write neither memory nor a connection nor a key half;
each of those operations is shown to keep them, and what is built from it keeps them too. -/

section
namespace Sys2Proof.Machine

/-- t holds HBM and bank memory, the connections and the key halves with their PSTATE as s does. -/
abbrev State.Keeps (s t : State) : Prop :=
  t.mem = s.mem ∧ t.conns = s.conns ∧ t.keys = s.keys ∧ t.pstate = s.pstate

section Keeps
variable {s t u : State}

theorem State.Keeps.mem (h : s.Keeps t) : t.mem = s.mem := h.1
theorem State.Keeps.conns (h : s.Keeps t) : t.conns = s.conns := h.2.1
theorem State.Keeps.keys (h : s.Keeps t) : t.keys = s.keys := h.2.2.1
theorem State.Keeps.pstate (h : s.Keeps t) : t.pstate = s.pstate := h.2.2.2

theorem State.Keeps.conn (h : s.Keeps t) (i : Nat) : t.conn i = s.conn i := State.conn_congr h.conns i

theorem State.Keeps.refl (s : State) : s.Keeps s := ⟨rfl, rfl, rfl, rfl⟩

theorem State.Keeps.trans (h : s.Keeps t) (h' : t.Keeps u) : s.Keeps u :=
  ⟨h'.mem.trans h.mem, h'.conns.trans h.conns, h'.keys.trans h.keys, h'.pstate.trans h.pstate⟩

theorem State.Keeps.ite {p : Prop} [Decidable p] (h : s.Keeps t) (h' : s.Keeps u) :
    s.Keeps (if p then t else u) := by
  split
  · exact h
  · exact h'

/-- A fold of steps that keep them keeps them. -/
theorem State.Keeps.foldl {α : Type} {f : State → α → State} (h : ∀ (t : State) (a : α), t.Keeps (f t a)) (xs : List α)
    (s : State) : s.Keeps (xs.foldl f s) :=
  List.foldlRecOn (motive := fun t : State => s.Keeps t) _ _ (.refl s) fun t ht a _ => ht.trans (h t a)

end Keeps

theorem State.done_keeps (s : State) (c : Byte) : s.Keeps (s.done c) := ⟨rfl, rfl, rfl, rfl⟩
theorem State.setReg_keeps (s : State) (a : Nat) (v : Word) : s.Keeps (s.setReg a v) := ⟨rfl, rfl, rfl, rfl⟩
theorem State.setFld_keeps (s : State) (a hi lo x : Nat) : s.Keeps (s.setFld a hi lo x) := s.setReg_keeps a _
theorem State.setRegion_keeps (s : State) (i : Nat) (r : Region) : s.Keeps (s.setRegion i r) := ⟨rfl, rfl, rfl, rfl⟩

theorem State.post_keeps (s : State) (q : Nat) (e : Ev) : s.Keeps (s.post q e) := by
  obtain ⟨r, x, m, h⟩ := s.post_shape q e
  rw [h]
  exact ⟨rfl, rfl, rfl, rfl⟩

/-! #### Queues of Tideway (R366) -/

theorem State.crossPorts_keeps (ps : List Nat) : ∀ s : State, s.Keeps (s.crossPorts ps).1 := by
  induction ps with
  | nil => exact State.Keeps.refl
  | cons k ks ih =>
    intro s
    have hset : ∀ x, s.Keeps (s.setPort k x) := fun x => ⟨rfl, rfl, rfl, rfl⟩
    rw [State.crossPorts]
    split
    · exact ih s
    · exact (hset _).trans (ih _)
    · exact ((hset _).trans (State.post_keeps _ 0 _)).trans ⟨rfl, rfl, rfl, rfl⟩

theorem State.startWake_keeps (s : State) (n : Nat) : s.Keeps (s.startWake n) :=
  .ite ⟨rfl, rfl, rfl, rfl⟩ (.ite ⟨rfl, rfl, rfl, rfl⟩ (.refl s))

theorem State.queueLevel_keeps (s : State) (q : Nat) : s.Keeps (s.queueLevel q) :=
  .ite (.ite (.refl s) (s.startWake_keeps _)) (.refl s)

theorem State.queuePut_keeps (s : State) (q a : Nat) (p : Pkt) : s.Keeps (s.queuePut q a p) := by
  have hput : ∀ (t : State) (o : Nat) (b : Bytes), t.Keeps (t.hubStore o b) := fun t o b => ⟨rfl, rfl, rfl, rfl⟩
  exact .foldl (fun t _ => hput t _ _) _ s

/-- A packet is published, or finds no room. -/
theorem State.publish_keeps (s : State) (q : Nat) (p : Pkt) : s.Keeps (s.publish q p) := by
  refine .ite ?stored ?full
  case stored =>
    have hstored : ∀ x, s.Keeps ((s.crossPorts (s.queueRoute q)).1.setQueue q x) :=
      fun x => (s.crossPorts_keeps _).trans ⟨rfl, rfl, rfl, rfl⟩
    exact .ite ((hstored _).trans (State.queueLevel_keeps _ q)) ((hstored _).trans (State.queuePut_keeps _ q _ p))
  case full =>
    exact State.Keeps.trans (.ite (s.setFld_keeps _ 31 31 1) (.ite (s.setFld_keeps _ 31 31 1) (.refl s)))
      (State.post_keeps _ 0 _)

/-! #### Entries of a connection that complete (R354, R365) -/

theorem State.complete_keeps (s : State) (i : Nat) (w : WorkEntry) (c : Byte) : s.Keeps (s.complete i w c) :=
  .ite (.refl s) (.ite (.ite (s.publish_keeps _ _) (.refl s)) (s.publish_keeps _ _))

theorem State.letRegion_keeps (s : State) (k : Word) : s.Keeps (s.letRegion k) :=
  s.setRegion_keeps _ _

theorem State.letWork_keeps (s : State) (w : WorkEntry) : s.Keeps (s.letWork w) :=
  .ite (.refl s) (s.letRegion_keeps w.lkey)

/-- Completions go to queues, and regions are let go. -/
theorem State.completeAll_keeps (s : State) (i k : Nat) (first rest : Byte) :
    s.Keeps (s.completeAll i k first rest) :=
  ((State.Keeps.foldl (fun t _ => (t.complete_keeps i _ _).trans (State.letWork_keeps _ _)) _ s).trans
    (.foldl (fun t _ => t.complete_keeps i _ rest) _ _)).trans (.foldl (fun t (r : ReadReq) => t.letRegion_keeps r.rkey) _ _)

/-! #### Connections -/

theorem State.conn_setConn_ne (s : State) {i k : Nat} (c : Conn) (h : k ≠ i) : (s.setConn i c).conn k = s.conn k :=
  Table.get_put_ne _ _ _ _ _ h

end Sys2Proof.Machine
end

/-! ### Connection and region commands (R341, R342, R350–R352, R357, R426)

A command reaches its light die over clean links; what it does there is the branch its checks select, and its end writes
two registers. -/

section
namespace Sys2Proof.Machine

/-! #### The entropy source's answer (R429, R431) -/

theorem State.entPort_running {s : State} (h : s.entRunning = true) : s.entPort = .served := by
  have h1 : s.fld Reg.entStat 31 29 = 1 := of_decide_eq_true h
  unfold State.entPort
  rw [if_neg (by omega), if_pos h1]

theorem State.entPort_startup {s : State} (h : s.fld Reg.entStat 31 29 = 0) : s.entPort = .stall := if_pos h

/-- A draw changes the source's generators alone. -/
theorem State.draw_shape (s : State) (p n : Nat) : ∃ e, s.draw p n = { s with ent := e } := by
  unfold State.draw State.portReady
  split
  · exact ⟨_, rfl⟩
  · exact ⟨_, rfl⟩

theorem State.draw_keeps (s : State) (p n : Nat) : s.Keeps (s.draw p n) := by
  obtain ⟨e, h⟩ := s.draw_shape p n
  rw [h]
  exact ⟨rfl, rfl, rfl, rfl⟩

theorem State.draw_regions (s : State) (p n : Nat) : (s.draw p n).regions = s.regions := by
  obtain ⟨e, h⟩ := s.draw_shape p n
  rw [h]

/-! #### Commands that reach their light die -/

/-- On a fitted home light die, over clean links, a connection command runs (R5, R16). -/
theorem State.onHome_clean {s : State} {n : BitVec 16} (hl : s.linksClean = true) (hp : connLd n.toNat < s.part.ldCount)
    (k : State → State) : s.onHome n k = .next (k s) :=
  (if_pos hp).trans (congrArg Host.Outcome.next (s.toDie_clean _ k hl))

/-- A command on the connection's home light die goes by its OP (R342). -/
theorem State.cnCommand_home (s : State) (i : Nat) : s.cnCommand (connLd i) 0 i = s.cnOpen (connLd i) i ∧
    s.cnCommand (connLd i) 1 i = s.cnClose (connLd i) i ∧ s.cnCommand (connLd i) 2 i = s.cnRead (connLd i) i ∧
    s.cnCommand (connLd i) 3 i = s.cnMove (connLd i) 3 i .established .paused ∧
    s.cnCommand (connLd i) 4 i = s.cnMove (connLd i) 4 i .paused .established := by
  simp [State.cnCommand]

/-- A region command runs where RG_STAT.BUSY is clear (R352). -/
theorem State.rgCommand_idle {s : State} (hb : s.fld (Reg.rgStat 0) 31 31 = 0) (ix : Nat) :
    s.rgCommand 0 0 ix = s.rgRegister 0 ix ∧ s.rgCommand 0 1 ix = s.rgRevoke 0 ix ∧
    s.rgCommand 0 2 ix = s.rgFree 0 ix ∧ s.rgCommand 0 3 ix = s.rgRead 0 ix := by
  simp [State.rgCommand, hb]

section Home
variable {s : State} {n : BitVec 16} (hl : s.linksClean = true) (hp : connLd n.toNat < s.part.ldCount)
include hl hp

theorem exec_cnOpen : exec (.cnOpen n) s = .next (s.cnOpen (connLd n.toNat) n.toNat) := by
  obtain ⟨hopen, -⟩ := s.cnCommand_home n.toNat
  exact (State.onHome_clean hl hp _).trans (congrArg Host.Outcome.next hopen)
theorem exec_cnClose : exec (.cnClose n) s = .next (s.cnClose (connLd n.toNat) n.toNat) := by
  obtain ⟨-, hclose, -⟩ := s.cnCommand_home n.toNat
  exact (State.onHome_clean hl hp _).trans (congrArg Host.Outcome.next hclose)
theorem exec_cnRead : exec (.cnRead n) s = .next (s.cnRead (connLd n.toNat) n.toNat) := by
  obtain ⟨-, -, hread, -⟩ := s.cnCommand_home n.toNat
  exact (State.onHome_clean hl hp _).trans (congrArg Host.Outcome.next hread)

/-- PAUSE and RESUME (R364). -/
theorem exec_cnMove {cmd : Instr} {op : Nat} {a b : ConnSt}
    (hm : (cmd, op, a, b) ∈ [(Instr.cnPause n, 3, ConnSt.established, ConnSt.paused),
      (.cnResume n, 4, .paused, .established)]) : exec cmd s = .next (s.cnMove (connLd n.toNat) op n.toNat a b) := by
  obtain ⟨-, -, -, hpause, hresume⟩ := s.cnCommand_home n.toNat
  rcases List.mem_pair.mp hm with h | h <;> simp only [Prod.mk.injEq] at h <;> obtain ⟨rfl, rfl, rfl, rfl⟩ := h
  · exact (State.onHome_clean hl hp _).trans (congrArg Host.Outcome.next hpause)
  · exact (State.onHome_clean hl hp _).trans (congrArg Host.Outcome.next hresume)

end Home

section Idle
variable {s : State} (hl : s.linksClean = true) (hb : s.fld (Reg.rgStat 0) 31 31 = 0) (i : Fin 1048576)
include hl hb

theorem exec_rgRegister : exec (.rgRegister i) s = .next (s.rgRegister 0 i.val) := by
  obtain ⟨hreg, -⟩ := State.rgCommand_idle hb i.val
  exact congrArg Host.Outcome.next ((s.toDie_clean 4 _ hl).trans hreg)
theorem exec_rgRevoke : exec (.rgRevoke i) s = .next (s.rgRevoke 0 i.val) := by
  obtain ⟨-, hrevoke, -⟩ := State.rgCommand_idle hb i.val
  exact congrArg Host.Outcome.next ((s.toDie_clean 4 _ hl).trans hrevoke)
theorem exec_rgFree : exec (.rgFree i) s = .next (s.rgFree 0 i.val) := by
  obtain ⟨-, -, hfree, -⟩ := State.rgCommand_idle hb i.val
  exact congrArg Host.Outcome.next ((s.toDie_clean 4 _ hl).trans hfree)
theorem exec_rgRead : exec (.rgRead i) s = .next (s.rgRead 0 i.val) := by
  obtain ⟨-, -, -, hread⟩ := State.rgCommand_idle hb i.val
  exact congrArg Host.Outcome.next ((s.toDie_clean 4 _ hl).trans hread)

end Idle

/-! #### The end of a command -/

theorem State.cnDone_keeps (s : State) (l op i : Nat) (code : Byte) : s.Keeps (s.cnDone l op i code) :=
  ((s.setReg_keeps _ _).trans (State.setFld_keeps _ _ _ _ _)).trans (State.done_keeps _ _)
theorem State.rgDone_keeps (s : State) (l op ix : Nat) (code : Byte) : s.Keeps (s.rgDone l op ix code) :=
  ((s.setReg_keeps _ _).trans (State.setFld_keeps _ _ _ _ _)).trans (State.done_keeps _ _)

@[simp] theorem State.cnDone_reply (s : State) (l op i : Nat) (code : Byte) :
    (s.cnDone l op i code).reply = ⟨code, 0⟩ := State.done_reply _ code
@[simp] theorem State.rgDone_reply (s : State) (l op ix : Nat) (code : Byte) :
    (s.rgDone l op ix code).reply = ⟨code, 0⟩ := State.done_reply _ code

theorem State.region_congr {s t : State} (h : t.regions = s.regions) (i : Nat) : t.region i = s.region i := by
  unfold State.region
  rw [h]

@[simp] theorem State.rgDone_regions (s : State) (l op ix : Nat) (code : Byte) :
    (s.rgDone l op ix code).regions = s.regions :=
  (State.done_regions _ _).trans ((State.setFld_regions _ _ _ _ _).trans (s.setReg_regions _ _))

theorem State.reg_cnDone (s : State) (l op i : Nat) (code : Byte) {a : Nat} (hc : a ≠ Reg.cnCtl l)
    (hs : a ≠ Reg.cnStat l) : (s.cnDone l op i code).reg a = s.reg a := by
  unfold State.cnDone
  rw [State.reg_done, State.reg_setFld_ne _ _ _ _ _ _ hs, State.reg_setReg_ne _ _ _ _ hc]

theorem State.reg_rgDone (s : State) (l op ix : Nat) (code : Byte) {a : Nat} (hc : a ≠ Reg.rgCtl l)
    (hs : a ≠ Reg.rgStat l) : (s.rgDone l op ix code).reg a = s.reg a := by
  unfold State.rgDone
  rw [State.reg_done, State.reg_setFld_ne _ _ _ _ _ _ hs, State.reg_setReg_ne _ _ _ _ hc]

theorem Reg.cnData_ne (l k : Nat) : cnData l k ≠ cnCtl l ∧ cnData l k ≠ cnStat l := by
  unfold cnData cnCtl cnStat regAddr
  omega
theorem Reg.rgData_ne (l k : Nat) : rgData l k ≠ rgCtl l ∧ rgData l k ≠ rgStat l := by
  unfold rgData rgCtl rgStat regAddr
  omega

/-! #### Connections -/

section Open
variable {s : State} {l i : Nat} {b : Bytes} (hb : b = s.cnStaged l)

theorem State.cnOpen_taken (h : (s.conn i).st ≠ .free) : s.cnOpen l i = s.cnDone l 0 i Code.busy := if_pos h

variable (hf : (s.conn i).st = .free)
include hb hf

theorem State.cnOpen_noContext (hc : s.ctxLive (field b 2 1 % 16) = false) :
    s.cnOpen l i = s.cnDone l 0 i Code.contextUnavailable := by
  subst hb
  unfold State.cnOpen
  simp only [hf, hc, ne_eq, not_true_eq_false, Bool.false_eq_true, not_false_eq_true, if_false, if_true]

section Passes
variable (hc : s.ctxLive (field b 2 1 % 16) = true) (hg : cnBad b = false) (hl : l = connLd i)
  (hp : (s.peerKey (BitVec.ofNat 14 (field b 0 2))).isSome = true)
include hc hg hl hp

/-- An OPEN that passes its checks makes the record (R342). -/
theorem State.cnOpen_listens (hi : (field b 2 1).testBit 7 = false) :
    s.cnOpen l i = (s.setConn i (openedConn b)).cnDone l 0 i Code.ok := by
  subst hb
  have hinit : (openedConn (s.cnStaged l)).init = false := hi
  unfold State.cnOpen
  simp only [hf, hc, hg, ← hl, Option.isNone_eq_false_iff.mpr hp, hinit, ne_eq, not_true_eq_false, Bool.false_eq_true,
    or_self, if_false, not_false_eq_true, if_true]

/-- For INIT 1 the handshake starts as well (R344, R426). -/
theorem State.cnOpen_starts (hi : (field b 2 1).testBit 7 = true) (hk : s.katOk .publicKey = true)
    (he : s.entRunning = true) : s.cnOpen l i = ((s.setConn i (openedConn b)).hsStart i).cnDone l 0 i Code.ok := by
  subst hb
  have hinit : (openedConn (s.cnStaged l)).init = true := hi
  unfold State.cnOpen
  simp only [hf, hc, hg, ← hl, Option.isNone_eq_false_iff.mpr hp, hinit, hk, State.entPort_running he, ne_eq,
    not_true_eq_false, Bool.false_eq_true, or_self, if_false]

end Passes

end Open

/-- CLOSE writes the connection's record alone, and no memory (R341). -/
theorem State.cnClose_facts (s : State) (l i : Nat) : (s.cnClose l i).conn i = Conn.zero ∧
    (∀ k, k ≠ i → (s.cnClose l i).conn k = s.conn k) ∧ (s.cnClose l i).mem = s.mem ∧
    (s.cnClose l i).reply = ⟨Code.ok, 0⟩ := by
  have hkeeps := s.completeAll_keeps i 0 Code.connectionClosed Code.connectionClosed
  have hend := ((s.completeAll i 0 Code.connectionClosed Code.connectionClosed).setConn i Conn.zero).cnDone_keeps l 1 i
    Code.ok
  exact ⟨(hend.conn i).trans (State.conn_setConn_same _ i _),
    fun k hk => (hend.conn k).trans ((State.conn_setConn_ne _ _ hk).trans (hkeeps.conn k)),
    hend.mem.trans ((State.setConn_mem _ _ _).trans hkeeps.mem), State.cnDone_reply _ _ _ _ _⟩

/-- What READ puts into CN_DATA, or into RG_DATA. -/
def State.showWords (s : State) (f : Nat → Nat) (b : Bytes) : State :=
  (List.range 8).foldl (fun t k => t.setReg (f k) (BitVec.ofNat 32 (field b (4 * k) 4))) s

theorem State.showWords_keeps (s : State) (f : Nat → Nat) (b : Bytes) : s.Keeps (s.showWords f b) :=
  .foldl (fun t _ => t.setReg_keeps _ _) _ s

theorem State.showWords_regions (s : State) (f : Nat → Nat) (b : Bytes) : (s.showWords f b).regions = s.regions :=
  foldl_keeps (g := State.regions) (fun t _ => t.setReg_regions _ _) _ s

theorem State.showWords_word (s : State) {f : Nat → Nat} (hf : ∀ i j, f i = f j → i = j) (b : Bytes) {k : Nat}
    (hk : k < 8) : (s.showWords f b).reg (f k) = BitVec.ofNat 32 (field b (4 * k) 4) :=
  State.reg_foldl_setReg hf (fun k => BitVec.ofNat 32 (field b (4 * k) 4)) _ s (List.mem_range.mpr hk)

theorem State.cnRead_eq (s : State) (l i : Nat) :
    s.cnRead l i = (s.showWords (Reg.cnData l) (connBytes (s.conn i))).cnDone l 2 i Code.ok := rfl

/-- READ shows the record and changes none (R342). -/
theorem State.cnRead_facts (s : State) (l i : Nat) :
    (∀ k, k < 8 → (s.cnRead l i).reg (Reg.cnData l k) = BitVec.ofNat 32 (field (connBytes (s.conn i)) (4 * k) 4)) ∧
    (s.cnRead l i).conns = s.conns ∧ (s.cnRead l i).mem = s.mem ∧ (s.cnRead l i).reply = ⟨Code.ok, 0⟩ := by
  have hinj : ∀ j k, Reg.cnData l j = Reg.cnData l k → j = k := by
    intro j k h
    unfold Reg.cnData regAddr at h
    omega
  refine ⟨fun k hk => ?_, ?_⟩
  · obtain ⟨hctl, hstat⟩ := Reg.cnData_ne l k
    rw [State.cnRead_eq, State.reg_cnDone _ _ _ _ _ hctl hstat, State.showWords_word s hinj _ hk]
  · have hkeeps := (s.showWords_keeps (Reg.cnData l) (connBytes (s.conn i))).trans (State.cnDone_keeps _ l 2 i Code.ok)
    exact ⟨hkeeps.conns, hkeeps.mem, State.cnDone_reply _ _ _ _ _⟩

/-! #### Regions -/

theorem State.region_setRegion_same (s : State) (i : Nat) (r : Region) : (s.setRegion i r).region i = r :=
  Table.get_put_same _ _ _ _
theorem State.region_setRegion_ne (s : State) {i j : Nat} (r : Region) (h : j ≠ i) :
    (s.setRegion i r).region j = s.region j := Table.get_put_ne _ _ _ _ _ h

/-- The key that REGISTER draws names its index in its low 20 bits (R350). -/
theorem keyIx_drawn {x ix : Nat} (h : ix < 2 ^ 20) : keyIx (BitVec.ofNat 32 (x % 4096 * 2 ^ 20 + ix)) = ix := by
  unfold keyIx
  rw [BitVec.toNat_ofNat]
  omega

section Register
variable {s : State} {l ix c : Nat} {b : Bytes}

theorem State.rgRegister_taken (h : (s.region ix).st ≠ 0) : s.rgRegister l ix = s.rgDone l 0 ix Code.busy := if_pos h

variable (hb : b = s.rgStaged l) (hc : c = field b 16 1 % 16) (hf : (s.region ix).st = 0) (hx : s.ctxLive c = true)
  (hg : rgBad b = false)
include hb hc hf hx hg

theorem State.rgRegister_outside (hr : s.rgRangeOk c (field b 0 8) (field b 8 8) = false) :
    s.rgRegister l ix = s.rgDone l 0 ix Code.accessBounds := by
  subst hb hc
  unfold State.rgRegister
  simp only [hf, hx, hg, hr, ne_eq, not_true_eq_false, Bool.false_eq_true, not_false_eq_true, if_false, if_true]

/-- A free entry takes the staged range, ACTIVE, under a key of its index, which RG_DATA shows (R350, R352). -/
theorem State.rgRegister_made (hr : s.rgRangeOk c (field b 0 8) (field b 8 8) = true) (he : s.entRunning = true)
    (hix : ix < 2 ^ 20) : ∃ k, keyIx k = ix ∧ s.rgRegister l ix = (((s.draw Port.tideway 1).setRegion ix
      ⟨BitVec.ofNat 48 (field b 0 8), BitVec.ofNat 64 (field b 8 8), Fin.ofNat 16 c, BitVec.ofNat 3 (field b 17 1),
        1, k, 0⟩).setReg (Reg.rgData l 5) k).rgDone l 0 ix Code.ok := by
  subst hb hc
  refine ⟨_, keyIx_drawn (x := (s.drawn Port.tideway 0).toNat) hix, ?_⟩
  unfold State.rgRegister
  simp only [hf, hx, hg, hr, State.entPort_running he, ne_eq, not_true_eq_false, Bool.false_eq_true, if_false]

end Register

/-- What a REGISTER leaves: its own entry, its key in RG_DATA, the other entries and memory. -/
theorem State.registered_facts (s : State) (l ix : Nat) (r : Region) (k : Word) {t : State}
    (ht : t = (((s.draw Port.tideway 1).setRegion ix r).setReg (Reg.rgData l 5) k).rgDone l 0 ix Code.ok) :
    t.region ix = r ∧ t.reg (Reg.rgData l 5) = k ∧ (∀ j, j ≠ ix → t.region j = s.region j) ∧ t.mem = s.mem ∧
    t.reply = ⟨Code.ok, 0⟩ := by
  obtain ⟨hctl, hstat⟩ := Reg.rgData_ne l 5
  have hregions : t.regions = ((s.draw Port.tideway 1).setRegion ix r).regions := by
    rw [ht, State.rgDone_regions, State.setReg_regions]
  have hkeeps : s.Keeps t := by
    rw [ht]
    exact (((s.draw_keeps _ _).trans (State.setRegion_keeps _ _ _)).trans (State.setReg_keeps _ _ _)).trans
      (State.rgDone_keeps _ _ _ _ _)
  refine ⟨(State.region_congr hregions ix).trans (State.region_setRegion_same _ _ _), ?_,
    fun j hj => (State.region_congr hregions j).trans ((State.region_setRegion_ne _ _ hj).trans
      (State.region_congr (s.draw_regions _ _) j)), hkeeps.mem, ?_⟩
  · rw [ht, State.reg_rgDone _ _ _ _ _ hctl hstat, State.reg_setReg_same]
  · rw [ht, State.rgDone_reply]

theorem State.rgRevoke_active {s : State} {l ix : Nat} (h : (s.region ix).st = 1) : s.rgRevoke l ix =
    (((s.setRegion ix { s.region ix with st := 2 }).setReg (Reg.rgCtl l) (BitVec.ofNat 32 (2 ^ 28 + ix))).setFld
      (Reg.rgStat l) 31 31 1).done Code.ok := if_pos h

/-- REVOKE of an ACTIVE region makes it REVOKING and sets BUSY (R357). -/
theorem State.rgRevoke_facts {s : State} {l ix : Nat} (h : (s.region ix).st = 1) :
    (s.rgRevoke l ix).region ix = { s.region ix with st := 2 } ∧
    (∀ j, j ≠ ix → (s.rgRevoke l ix).region j = s.region j) ∧ (s.rgRevoke l ix).fld (Reg.rgStat l) 31 31 = 1 ∧
    (s.rgRevoke l ix).mem = s.mem ∧ (s.rgRevoke l ix).reply = ⟨Code.ok, 0⟩ := by
  have hregions : (s.rgRevoke l ix).regions = (s.setRegion ix { s.region ix with st := 2 }).regions := by
    rw [State.rgRevoke_active h, State.done_regions, State.setFld_regions, State.setReg_regions]
  refine ⟨(State.region_congr hregions ix).trans (s.region_setRegion_same ix _),
    fun j hj => (State.region_congr hregions j).trans (s.region_setRegion_ne _ hj), ?_, ?_, ?_⟩
  · rw [State.rgRevoke_active h, State.fld_done, State.fld_setFld_same _ _ _ _ _ (by decide) (by decide)]
    exact Nat.mod_eq_of_lt (by decide)
  · rw [State.rgRevoke_active h, State.done_mem, State.setFld_mem, State.setReg_mem, State.setRegion_mem]
  · rw [State.rgRevoke_active h, State.done_reply]

/-- Clearing BUSY of a REVOKE changes registers alone (R357). -/
theorem State.rgSettled_regsOnly (s : State) (ix : Nat) : s.regsOnly (s.rgSettled ix) := by
  refine List.foldlRecOn (motive := fun t : State => s.regsOnly t) _ _ ⟨s.regs, rfl⟩ fun t ht l _ => ?_
  split
  · exact ht.trans ((t.setFld_regsOnly _ _ _ _).trans (State.setFld_regsOnly _ _ _ _ _))
  · exact ht

section Revoking
variable {s : State} {i : Fin 1048576} (h : (s.region i.val).st = 2)
include h

theorem exec_rgRevokeDone_held (hn : (s.region i.val).inflight ≠ 0) : exec (.rgRevokeDone i) s = .next s.waits :=
  (if_neg (not_not_intro h)).trans (if_pos hn)

theorem exec_rgRevokeDone_clear (hn : (s.region i.val).inflight = 0) : exec (.rgRevokeDone i) s =
    .next (((s.setRegion i.val { s.region i.val with st := 3 }).rgSettled i.val).done Code.ok) :=
  (if_neg (not_not_intro h)).trans (if_neg (not_not_intro hn))

end Revoking

theorem State.revoked_facts (s : State) (ix : Nat) (r : Region) {t : State}
    (ht : t = ((s.setRegion ix r).rgSettled ix).done Code.ok) : t.region ix = r ∧
    (∀ j, j ≠ ix → t.region j = s.region j) ∧ t.mem = s.mem ∧ t.reply = ⟨Code.ok, 0⟩ := by
  subst ht
  obtain ⟨q, hq⟩ := (s.setRegion ix r).rgSettled_regsOnly ix
  rw [hq]
  exact ⟨s.region_setRegion_same ix r, fun j hj => s.region_setRegion_ne r hj, rfl, rfl⟩

theorem State.rgRead_eq (s : State) (l ix : Nat) :
    s.rgRead l ix = (s.showWords (Reg.rgData l) (regionBytes (s.region ix))).rgDone l 3 ix Code.ok := rfl

/-- READ shows the entry and changes none (R352). -/
theorem State.rgRead_facts (s : State) (l ix : Nat) :
    (∀ k, k < 8 → (s.rgRead l ix).reg (Reg.rgData l k) = BitVec.ofNat 32 (field (regionBytes (s.region ix)) (4 * k) 4)) ∧
    (s.rgRead l ix).regions = s.regions ∧ (s.rgRead l ix).mem = s.mem ∧ (s.rgRead l ix).reply = ⟨Code.ok, 0⟩ := by
  have hinj : ∀ j k, Reg.rgData l j = Reg.rgData l k → j = k := by
    intro j k h
    unfold Reg.rgData regAddr at h
    omega
  refine ⟨fun k hk => ?_, ?_⟩
  · obtain ⟨hctl, hstat⟩ := Reg.rgData_ne l k
    rw [State.rgRead_eq, State.reg_rgDone _ _ _ _ _ hctl hstat, State.showWords_word s hinj _ hk]
  · have hkeeps := (s.showWords_keeps (Reg.rgData l) (regionBytes (s.region ix))).trans (State.rgDone_keeps _ l 3 ix Code.ok)
    exact ⟨(State.rgDone_regions _ _ _ _ _).trans (s.showWords_regions _ _), hkeeps.mem, State.rgDone_reply _ _ _ _ _⟩

end Sys2Proof.Machine

open Sys2Proof Sys2Proof.Machine

/-- Settles O47: each command by the branch its checks select, and what it leaves by the record or entry it writes. -/
theorem connectionsAndRegions : Obligations.ConnectionsAndRegions := by
  unfold Obligations.ConnectionsAndRegions
  refine ⟨?openListen, ?openStarts, ?openTaken, ?openNoContext,
    fun s n hl hp => ⟨_, exec_cnClose hl hp, s.cnClose_facts _ _⟩,
    fun s n hl hp => ⟨_, exec_cnRead hl hp, s.cnRead_facts _ _⟩,
    fun s n cmd op a b hm hl hp => exec_cnMove hl hp hm, ?register, ?registerTaken, ?registerOutside,
    fun s i hl hb h => ⟨_, exec_rgRevoke hl hb i, State.rgRevoke_facts h⟩,
    fun s i h hn => ⟨_, exec_rgRevokeDone_clear h hn, s.revoked_facts i.val _ rfl⟩,
    fun s i h hn => exec_rgRevokeDone_held h hn, fun s i hl hb => ?free,
    fun s i hl hb => ⟨_, exec_rgRead hl hb i, s.rgRead_facts 0 i.val⟩⟩
  case openListen =>
    intro s n l b hl hn hp hb hf hc hg hpk hinit
    subst hn
    rw [exec_cnOpen hl hp, State.cnOpen_listens hb hf hc hg rfl hpk hinit]
  case openStarts =>
    intro s n l b hl hn hp hb hf hc hg hpk hinit hk he
    subst hn
    rw [exec_cnOpen hl hp, State.cnOpen_starts hb hf hc hg rfl hpk hinit hk he]
  case openTaken =>
    intro s n hl hp hf
    rw [exec_cnOpen hl hp, State.cnOpen_taken hf]
  case openNoContext =>
    intro s n b hl hp hb hf hc
    rw [exec_cnOpen hl hp, State.cnOpen_noContext hb hf hc]
  case register =>
    intro s i b c hl hbusy hb hc hf hx hg hr he
    obtain ⟨k, hk, hmade⟩ := State.rgRegister_made hb hc hf hx hg hr he i.isLt
    obtain ⟨hown, hkey, hrest⟩ := s.registered_facts 0 i.val _ k hmade
    exact ⟨_, k, exec_rgRegister hl hbusy i, hown, hk, hkey, hrest⟩
  case registerTaken =>
    intro s i hl hbusy hf
    rw [exec_rgRegister hl hbusy, State.rgRegister_taken hf]
  case registerOutside =>
    intro s i b hl hbusy hf hb hx hg hr
    rw [exec_rgRegister hl hbusy, State.rgRegister_outside hb rfl hf hx hg hr]
  case free => exact exec_rgFree hl hb i

end

/-! ### The connection handshake (R344, R345, R407, R426, R431)

What a connection reads after each operation of the handshake, a signature by the key and the source, and each packet by
the checks it passes. -/

section
namespace Sys2Proof.Machine

/-! #### What a connection reads -/

section Records
variable (s : State) (i : Nat)

@[simp] theorem State.conn_draw (p n k : Nat) : (s.draw p n).conn k = s.conn k := (s.draw_keeps p n).conn k
@[simp] theorem State.conn_hsTook (k : Nat) : (s.hsTook i).conn k = s.conn k := s.conn_count64 _ 1 k
@[simp] theorem State.conn_cnCount (l o k : Nat) : (s.cnCount l o).conn k = s.conn k :=
  (s.setFld_keeps _ _ _ _).conn k
@[simp] theorem State.conn_connUpEvent (k : Nat) : (s.connUpEvent i).conn k = s.conn k := (s.post_keeps 1 _).conn k

theorem State.conn_sendHs_same (p : Packet) :
    (s.sendHs i p).conn i = { s.conn i with hsLast := some p, hsTries := 0 } := by
  rw [State.sendHs, State.conn_sendConn, State.conn_setConn_same]

theorem State.conn_sendHs_ne (p : Packet) {k : Nat} (h : k ≠ i) : (s.sendHs i p).conn k = s.conn k := by
  rw [State.sendHs, State.conn_sendConn, State.conn_setConn_ne _ _ h]

theorem State.conn_established (c : Conn) : (s.established i c).conn i =
    { c with st := .established, ephX := 0, ephK := 0, window := 262144 } := by
  rw [State.established, State.conn_connUpEvent, State.conn_setConn_same]

/-- A connection that ends has its keys zeroed (R345, R365). -/
theorem State.conn_endConn_keys (a b : Byte) : ((s.endConn i a b).conn i).k1 = 0 ∧ ((s.endConn i a b).conn i).k2 = 0 := by
  unfold State.endConn State.endConnAt
  rw [State.conn_setConn_same]
  exact ⟨rfl, rfl⟩

/-- The responder answers by writing a record d and sending it a packet, in a state that reads the same connections (R344). -/
theorem State.hsAnswer_shape (p : Packet) : ∃ (u : State) (d : Conn) (q : Packet),
    s.hsAnswer i p = ((u.setConn i d).sendHs i q).done Code.ok ∧ (∀ k, u.conn k = s.conn k) ∧ d.st = .handshake ∧
    d.peerConn = BitVec.ofNat 16 p.sconn ∧ d.hsInit = p.payload ∧ d.ctx = (s.conn i).ctx ∧ d.peer = (s.conn i).peer := by
  refine ⟨_, _, _, rfl, fun k => (State.conn_hsTook _ i k).trans (s.conn_draw _ _ k), rfl, rfl, rfl, ?_, ?_⟩
  · show ((s.draw Port.publicKey 16).conn i).ctx = _
    rw [State.conn_draw]
  · show ((s.draw Port.publicKey 16).conn i).peer = _
    rw [State.conn_draw]

theorem State.hsAnswer_facts (p : Packet) : ∃ d : Conn, (s.hsAnswer i p).conn i = d ∧ d.st = .handshake ∧
    d.peerConn = BitVec.ofNat 16 p.sconn ∧ d.hsInit = p.payload ∧ d.ctx = (s.conn i).ctx ∧ d.peer = (s.conn i).peer ∧
    d.hsTries = 0 ∧ ∀ k, k ≠ i → (s.hsAnswer i p).conn k = s.conn k := by
  obtain ⟨u, d, q, heq, hu, hst, hpc, hinit, hctx, hpeer⟩ := s.hsAnswer_shape i p
  refine ⟨{ d with hsLast := some q, hsTries := 0 }, ?_, hst, hpc, hinit, hctx, hpeer, rfl, fun k hk => ?_⟩
  · rw [heq, State.conn_done, State.conn_sendHs_same, State.conn_setConn_same]
  · rw [heq, State.conn_done, State.conn_sendHs_ne _ _ _ hk, State.conn_setConn_ne _ _ hk, hu]

/-- The initiator is ESTABLISHED with a record d and sends HS_FIN (R344, R345). -/
theorem State.hsFinish_shape (p : Packet) (th : Bytes) : ∃ (u : State) (d : Conn) (q : Packet),
    s.hsFinish i p th = ((u.established i d).sendHs i q).done Code.ok ∧ d.peerConn = BitVec.ofNat 16 p.sconn ∧
    (d.k1, d.k2) = hsKeys (Config.ecdh (be 48 (s.conn i).ephX.toNat) (sub p.payload 8 97))
      (Config.kemDecap (s.conn i).ephK (sub p.payload 105 1088)) th :=
  ⟨_, _, _, rfl, rfl, rfl⟩

theorem State.hsFinish_facts (p : Packet) (th : Bytes) {c d : Conn} (hc : c = s.conn i)
    (hd : d = (s.hsFinish i p th).conn i) : d.st = .established ∧ d.peerConn = BitVec.ofNat 16 p.sconn ∧
    d.hsLast.isSome = true ∧ d.hsTries = 0 ∧ (d.k1, d.k2) =
      hsKeys (Config.ecdh (be 48 c.ephX.toNat) (sub p.payload 8 97)) (Config.kemDecap c.ephK (sub p.payload 105 1088)) th := by
  obtain ⟨u, e, q, heq, hpc, hkeys⟩ := s.hsFinish_shape i p th
  rw [heq, State.conn_done, State.conn_sendHs_same, State.conn_established] at hd
  subst hc hd
  exact ⟨rfl, hpc, rfl, rfl, hkeys⟩

/-- A failed signature ends the connection (R344, R345). -/
theorem State.hsFail_facts : ((s.hsFail i).conn i).st = .ended ∧ ((s.hsFail i).conn i).k1 = 0 ∧
    ((s.hsFail i).conn i).k2 = 0 ∧ (s.hsFail i).reply = ⟨Code.signatureFail, 0⟩ := by
  have hended := (State.conn_endConnAt (s.cnCount (connLd i) 0x38) i 0 Code.signatureFail Code.signatureFail).1
  obtain ⟨hk1, hk2⟩ := (s.cnCount (connLd i) 0x38).conn_endConn_keys i Code.signatureFail Code.signatureFail
  rw [State.hsFail, State.conn_done]
  exact ⟨hended, hk1, hk2, State.done_reply _ _⟩

end Records

/-! #### Signatures (R407, R426, R431) -/

section Signature
variable {s : State} (i : Nat) (k : State → State)

theorem State.hsSigned_refused (h : s.keyUse 4 3 .hubSecure none ≠ Code.ok) : s.hsSigned i k =
    (s.endConn i (s.keyUse 4 3 .hubSecure none) (s.keyUse 4 3 .hubSecure none)).done (s.keyUse 4 3 .hubSecure none) :=
  if_pos h

variable (h : s.keyUse 4 3 .hubSecure none = Code.ok)
include h

theorem State.hsSigned_running (he : s.entRunning = true) : s.hsSigned i k = k s := by
  unfold State.hsSigned
  simp only [h, State.entPort_running he, ne_eq, not_true_eq_false, if_false]

theorem State.hsSigned_startup (he : s.fld Reg.entStat 31 29 = 0) : s.hsSigned i k = s.waits := by
  unfold State.hsSigned
  simp only [h, State.entPort_startup he, ne_eq, not_true_eq_false, if_false]

end Signature

/-! #### Packets that arrive -/

section Arrive
variable {s : State} {p : Packet} (hh : s.connHere p = true)
include hh

theorem exec_hsInitReceive_gone (ho : p.op = 9) (hn : s.listener p = none) :
    exec (.hsInitReceive p) s = .next ((s.sendGone p).done Code.connectionClosed) := by
  show execHsInitReceive p s = _
  unfold execHsInitReceive
  simp only [hh, ho, hn, not_true_eq_false, ne_eq, or_self, if_false]

theorem exec_hsInitReceive_answered {i : Nat} (ho : p.op = 9) (hi : s.listener p = some i)
    (hlen : p.payload.length = 1296) (hk : s.katOk .publicKey = true) :
    exec (.hsInitReceive p) s = .next (s.hsSigned i (fun t => t.hsAnswer i p)) := by
  show execHsInitReceive p s = _
  unfold execHsInitReceive
  simp only [hh, ho, hi, hlen, hk, not_true_eq_false, ne_eq, or_self, if_false]

section Resp
variable (ho : p.op = 10) (hi : (s.conn p.dconn).init = true) (hp : (s.conn p.dconn).peer = p.src)
include ho hi hp

/-- A HS_RESP of the handshake's peer and PAIR_ID goes on by its signature (R344). -/
theorem exec_hsRespReceive_new {k th : Bytes} (hs : (s.conn p.dconn).st = .handshake)
    (hpair : fromBE (p.payload.take 4) = (s.conn p.dconn).pairId.toNat)
    (hk : s.peerKey (s.conn p.dconn).peer = some k) (hth : th = hsTh (s.conn p.dconn).hsInit p.payload) :
    exec (.hsRespReceive p) s =
      .next (if p.payload.length = 1296 ∧ Config.ecdsaOk k (ascii "A9 tw r" ++ th) (p.payload.drop 1200) = true
        then s.hsSigned p.dconn (fun t => t.hsFinish p.dconn p th) else s.hsFail p.dconn) := by
  have hne : ¬ (ConnSt.handshake = ConnSt.established ∧ (s.conn p.dconn).hsResp = p.payload) := fun h => nomatch h.1
  show execHsRespReceive p s = _
  unfold execHsRespReceive
  simp only [hh, ho, hi, hs, hpair, hk, ← hth, hne, not_true_eq_false, ne_eq, false_or, or_self, if_false]
  rw [if_neg (not_not_intro hp)]
  split <;> rfl

/-- A HS_RESP that comes again has HS_FIN sent again (R344). -/
theorem exec_hsRespReceive_again {q : Packet} (hs : (s.conn p.dconn).st = .established)
    (hr : (s.conn p.dconn).hsResp = p.payload) (hq : (s.conn p.dconn).hsLast = some q) :
    exec (.hsRespReceive p) s = .next ((s.sendConn p.dconn q).done Code.ok) := by
  show execHsRespReceive p s = _
  unfold execHsRespReceive
  simp only [hh, ho, hi, hp, hs, hr, hq, not_true_eq_false, ne_eq, or_self, if_false, and_self, if_true]

end Resp

/-- A HS_FIN of the handshake's peer makes the responder ESTABLISHED if its signature holds (R344). -/
theorem exec_hsFinReceive_named {k : Bytes} {c : Conn} (hc : c = s.conn p.dconn) (ho : p.op = 11)
    (hi : c.init = false) (hs : c.st = .handshake) (hp : c.peer = p.src) (hn : c.peerConn.toNat = p.sconn)
    (hk : s.peerKey c.peer = some k) : exec (.hsFinReceive p) s =
    .next (if p.payload.length = 96 ∧ Config.ecdsaOk k (ascii "A9 tw i" ++
        hsTh c.hsInit c.hsResp ++ c.hsResp.drop 1200) p.payload = true
      then (((s.hsTook p.dconn).established p.dconn { c with hsLast := none }).done Code.ok) else s.hsFail p.dconn) := by
  show execHsFinReceive p s = _
  unfold execHsFinReceive
  simp only [← hc, hh, ho, hi, hs, hn, hk, not_true_eq_false, ne_eq, or_false, false_or, Bool.false_eq_true]
  rw [if_neg (not_not_intro hp)]
  split <;> rfl

end Arrive

/-- The last packet goes again, or ends the connection after seven resends (R344). -/
theorem exec_hsResend {s : State} {n : BitVec 16} {p : Packet} (hl : (s.conn n.toNat).hsLast = some p)
    (hs : (s.conn n.toNat).st = .handshake ∨ (s.conn n.toNat).st = .established) : exec (.hsResend n) s =
    .next (if 7 ≤ (s.conn n.toNat).hsTries
      then (s.endConn n.toNat Code.retryExceeded Code.retryExceeded).done Code.retryExceeded
      else ((s.setConn n.toNat { s.conn n.toNat with hsTries := (s.conn n.toNat).hsTries + 1 }).sendConn n.toNat p).done
        Code.ok) := by
  have hin : ¬ ((s.conn n.toNat).st ≠ .handshake ∧ (s.conn n.toNat).st ≠ .established) := fun h =>
    hs.elim h.1 h.2
  show execHsResend n s = _
  unfold execHsResend
  simp only [hl, if_neg hin]
  split <;> rfl

end Sys2Proof.Machine

open Sys2Proof Sys2Proof.Machine

/-- Settles O48: packets by the checks they pass, a signature by slot 4 and the source, records by what was written last. -/
theorem handshake : Obligations.Handshake := by
  unfold Obligations.Handshake
  exact ⟨fun s p i hh ho hi hlen hk hu he => (exec_hsInitReceive_answered hh ho hi hlen hk).trans
      (congrArg Host.Outcome.next (State.hsSigned_running i _ hu he)),
    fun s p hh ho hn => exec_hsInitReceive_gone hh ho hn,
    fun s p i => s.hsAnswer_facts i p,
    fun s i k => ⟨State.hsSigned_refused i k, State.hsSigned_running i k, State.hsSigned_startup i k⟩,
    fun s p k th hh ho hi hp hs hpair hk hth => exec_hsRespReceive_new hh ho hi hp hs hpair hk hth,
    fun s p i th c d hc hd => s.hsFinish_facts i p th hc hd,
    fun s p q hh ho hi hp hs hr hq => exec_hsRespReceive_again hh ho hi hp hs hr hq,
    fun s p k c hc hh ho hi hs hp hn hk => exec_hsFinReceive_named hh hc ho hi hs hp hn hk,
    fun s i c => by simp only [State.conn_established, and_self],
    fun s i => s.hsFail_facts i,
    fun s n p hl hs => exec_hsResend hl hs⟩

end

/-! ### Work entries, packets sent and packets received (R340, R353, R355, R359–R362)

The doorbell and the send queue, packets within the sender's limits, the checks of arrival, and READ_REQs served. -/

section
namespace Sys2Proof.Machine

/-! #### The doorbell (R340, R353) -/

section Doorbell
variable {s : State} {l : Fin 4} {n tail : BitVec 16} (hp : l.val < s.part.ldCount)
include hp

/-- From the normal world the write is refused and recorded (R36, R544). -/
theorem exec_doorbell_normal : exec (.doorbell .normal l n tail) s =
    .next ((s.post 3 { Ev.of 7 1 Code.accessBounds 2 0 0 1 with addr := 0x0F00_00000000 + Reg.twDb l.val }).done
      Code.accessBounds) :=
  if_neg (Nat.not_le.mpr hp)

theorem exec_doorbell_secure (hl : s.linksClean = true) :
    exec (.doorbell .secure l n tail) s = .next (s.ring l.val n.toNat tail.toNat) :=
  (if_neg (Nat.not_le.mpr hp)).trans (congrArg Host.Outcome.next
    (s.toDie_clean (4 + l.val) (fun u => u.ring l.val n.toNat tail.toNat) hl))

end Doorbell

/-- An ESTABLISHED connection with packets outstanding is in the working set already. -/
theorem State.ring_outstanding {s : State} {l i : Nat} (tail : Nat) (hd : connLd i = l)
    (hs : (s.conn i).st = .established) (ho : (s.conn i).sent ≠ []) :
    s.ring l i tail = (s.setConn i { s.conn i with sqTail := tail }).done Code.ok := by
  unfold State.ring
  simp only [hd, hs, ho, ne_eq, not_true_eq_false, reduceCtorEq, or_self, false_and, if_false]

/-! #### Entries of the send queue (R352, R353) -/

theorem exec_sendQueueEntry {s : State} {n : BitVec 16} {c : Conn} (hc : c = s.conn n.toNat) (hs : c.st = .established)
    (hq : c.sqHead ≠ c.sqTail) (hf : (s.workAt c c.sqHead).flags.getLsbD 1 = false) (ho : c.sent ≠ [])
    (hl : s.linksClean = true) : exec (.sendQueueEntry n) s = .next (s.takeEntry n.toNat) := by
  subst hc
  show execSendQueueEntry n s = _
  unfold execSendQueueEntry
  simp only [hs, hq, hf, ho, s.across_clean hl, ne_eq, not_true_eq_false, Bool.false_eq_true, false_and, or_self, if_false]

/-- An entry that passes its check takes EPSNs for its packets, and its region is held (R353, R357). -/
theorem State.takeEntry_passes {s : State} {i : Nat} {c : Conn} {w : WorkEntry} (hc : c = s.conn i)
    (hw : w = s.workAt c c.sqHead)
    (hok : s.entryCheck c w (s.hubBytes (c.sqOff + 64 * (c.sqHead % c.sqSize)) 64) = Code.ok) (hop : w.op ≠ 4) :
    s.takeEntry i = ((s.holdRegion w.lkey).setConn i { c with
      sqHead := (c.sqHead + 1) % 65536
      nextPsn := c.nextPsn + (w.len + 4031) / 4032
      work := c.work ++ [{ w with first := c.nextPsn, pkts := (w.len + 4031) / 4032 }] }).done Code.ok := by
  subst hc hw
  unfold State.takeEntry
  simp only [hok, hop, ne_eq, not_true_eq_false, if_false]

/-- An entry passes only if each of the checks of its local side does (R352). -/
theorem State.entryCheck_ok {s : State} {c : Conn} {w : WorkEntry} {raw : Bytes} (h : s.entryCheck c w raw = Code.ok) :
    (s.region (keyIx w.lkey)).st = 1 ∧ (s.region (keyIx w.lkey)).rkey = w.lkey ∧ (s.region (keyIx w.lkey)).ctx = c.ctx ∧
    (s.region (keyIx w.lkey)).rights.getLsbD 2 = true ∧ w.loff + w.len ≤ (s.region (keyIx w.lkey)).length.toNat := by
  obtain ⟨hkey, h⟩ := (ite_eq_iff.mp h).resolve_left fun h => absurd h.2 (by decide)
  obtain ⟨hactive, h⟩ := (ite_eq_iff.mp h).resolve_left fun h => absurd h.2 (by decide)
  obtain ⟨-, h⟩ := (ite_eq_iff.mp h).resolve_left fun h => absurd h.2 (by decide)
  obtain ⟨hrange, -⟩ := (ite_eq_iff.mp h).resolve_left fun h => absurd h.2 (by decide)
  obtain ⟨-, hrkey, hctx⟩ := not_or.mp hkey |>.imp_right not_or.mp
  obtain ⟨hlocal, hlen⟩ := not_or.mp hrange
  exact ⟨not_not.mp hactive, not_not.mp hrkey, not_not.mp hctx, not_not.mp hlocal, Nat.not_lt.mp hlen⟩

/-! #### Packets that leave (R353, R359–R361) -/

section Send
variable {s : State} {n : BitVec 16} {c : Conn} {w : WorkEntry} (hc : c = s.conn n.toNat) (hw : c.nextEntry = some w)
  (hs : c.st = .established)
include hc hw hs

theorem exec_connPacketSend_leaves (ho : c.sent ≠ []) (hm : c.mayNew (w.first + w.sent) (w.pktLen w.sent) = true) :
    exec (.connPacketSend n) s = .next (s.sendPkt n.toNat w w.sent 0 0) := by
  subst hc
  show execConnPacketSend n s = _
  unfold execConnPacketSend
  simp only [hw, hs, ho, hm, ne_eq, not_true_eq_false, false_and, if_false, if_true]

theorem exec_connPacketSend_waits (hm : c.mayNew (w.first + w.sent) (w.pktLen w.sent) = false) :
    exec (.connPacketSend n) s = .next s.waits := by
  subst hc
  show execConnPacketSend n s = _
  unfold execConnPacketSend
  simp only [hw, hs, hm, ne_eq, not_true_eq_false, Bool.false_eq_true, if_false, ite_self]

end Send

/-- A packet whose data is read leaves sealed; the outstanding list and its entry follow it (R353, R359). -/
theorem State.sendPkt_new {s : State} {i k : Nat} {w : WorkEntry} {c : Conn} {r : Line} (hc : c = s.conn i)
    (hr : r = s.pktData (Fin.ofNat 4 (connLd i)) w k) (hs : r.stall = false) (hok : r.code = Code.ok) : ∃ p : Packet,
    s.sendPkt i w k 0 0 = ((r.st.setConn i { c with
      sent := c.sent ++ [⟨w.first + k, 0, w.pktLen k, r.st.connSeal i false (w.first + k) p (w.ext k) r.data, false, 0⟩]
      work := c.work.map (fun x => if x.first = w.first ∧ x.pkts ≠ 0 then { x with sent := k + 1 } else x) }).sendConn i
        (r.st.connSeal i false (w.first + k) p (w.ext k) r.data)).done Code.ok := by
  subst hc
  refine ⟨r.st.connPacket i w.op.toNat (s.conn i).peer (s.conn i).peerConn.toNat
    (b2n ((s.conn i).wantsAck (decide (k + 1 = w.pkts)) (w.first + k) 0) * 8 + b2n (decide (k + 1 = w.pkts)) * 4) (0 % 8)
    ((w.first + k) % 2 ^ 24) (if 2 ≤ w.op.toNat ∧ w.op.toNat ≤ 4 then w.rkey.toNat else 0) k [], ?_⟩
  unfold State.sendPkt
  simp only [← hr, hs, hok, Bool.false_eq_true, ne_eq, not_true_eq_false, if_false, if_true, Nat.zero_mod]

/-- The limits of a new packet are the window of CUM, and CLIM in credit mode or WINDOW (R359–R361). -/
theorem Conn.mayNew_limits {c : Conn} {e n : Nat} (h : c.mayNew e n = true) : e < c.cumIn + 1024 ∧
    (c.credit = true → e < c.clim) ∧ (c.credit = false → (c.sent.map (fun x => x.bytes)).sum + n ≤ c.window) := by
  obtain ⟨hcum, hmode⟩ := Bool.and_eq_true_iff.mp h
  refine ⟨of_decide_eq_true hcum, fun hc => ?_, fun hc => ?_⟩
  · rw [if_pos hc] at hmode
    exact of_decide_eq_true hmode
  · rw [if_neg (ne_true_of_eq_false hc)] at hmode
    exact of_decide_eq_true hmode

/-! #### Packets that arrive (R355, R359) -/

section Arrival
variable {s : State} {p : Packet} (hh : s.connHere p = true) (h1 : 1 ≤ p.op) (h5 : p.op ≤ 5)
include hh h1 h5

theorem exec_connPacketReceive_unknown (hn : s.connNamed p = false) : exec (.connPacketReceive p) s =
    .next (((s.cnCount (connLd p.dconn) 0x10).sendGone p).done Code.connectionClosed) := by
  have hop : ¬ (6 ≤ p.op ∧ p.op ≤ 11) := by omega
  have hgood : ¬ (p.op = 0 ∨ 11 < p.op) := by omega
  show execConnPacketReceive p s = _
  unfold execConnPacketReceive
  simp only [hh, hop, hgood, hn, not_true_eq_false, or_self, Bool.false_eq_true, not_false_eq_true, if_false, if_true]

/-- A packet in the window goes on if its bit is clear and its tag holds; one that has come makes an ACK due. -/
theorem exec_connPacketReceive_window {e : Nat} (hn : s.connNamed p = true)
    (he : nearest (s.conn p.dconn).cum p.psn = some e) (hw : e < (s.conn p.dconn).cum + 1024) :
    exec (.connPacketReceive p) s = .next (
      if e < (s.conn p.dconn).cum
      then ((s.setConn p.dconn { s.conn p.dconn with ackDue := true }).cnCount (connLd p.dconn) 0x14).done Code.ok
      else if (s.conn p.dconn).got e = true
      then ((s.setConn p.dconn { s.conn p.dconn with ackDue := true }).cnCount (connLd p.dconn) 0x18).done Code.ok
      else (s.connOpen p.dconn false e p).elim ((s.cnCount (connLd p.dconn) 0x1C).done Code.aeadFail)
        (fun d => s.authPkt p.dconn e p d)) := by
  have hop : ¬ (6 ≤ p.op ∧ p.op ≤ 11) := by omega
  have hgood : ¬ (p.op = 0 ∨ 11 < p.op) := by omega
  show execConnPacketReceive p s = _
  unfold execConnPacketReceive
  simp only [hh, hop, hgood, hn, he, Nat.not_le.mpr hw, not_true_eq_false, or_self, if_false]
  split
  · rfl
  split
  · rfl
  cases s.connOpen p.dconn false e p <;> rfl

end Arrival

/-- Noting an ACK that is due, with its counter, changes the connection's record alone. -/
theorem State.ackNoted_facts (s : State) (i l o : Nat) (c : Conn) {t : State}
    (ht : t = ((s.setConn i c).cnCount l o).done Code.ok) : t.mem = s.mem ∧ t.regions = s.regions ∧
    t.queues = s.queues ∧ t.conn i = c ∧ t.reply = ⟨Code.ok, 0⟩ := by
  subst ht
  refine ⟨?_, ?_, ?_, ?_, State.done_reply _ _⟩
  · rw [State.done_mem, State.cnCount, State.count_mem, State.setConn_mem]
  · rw [State.done_regions, State.cnCount, State.count_regions, State.setConn_regions]
  · rw [State.done_queues, State.cnCount, State.count_queues, State.setConn_queues]
  · rw [State.conn_done, State.conn_cnCount, State.conn_setConn_same]

/-! CUM and the bits above it (R359). -/

theorem passBits_le (n : Nat) : ∀ (c : Nat) (bs : List Nat), c ≤ (passBits n c bs).1 := by
  induction n with
  | zero => exact fun c bs => Nat.le_refl c
  | succ n ih =>
    intro c bs
    unfold passBits
    split
    · exact Nat.le_of_succ_le (ih (c + 1) _)
    · exact Nat.le_refl c

/-- What counts as received goes on counting as CUM passes. -/
theorem passBits_keeps (n : Nat) {k : Nat} : ∀ {c : Nat} {bs : List Nat}, k < c ∨ k ∈ bs →
    k < (passBits n c bs).1 ∨ k ∈ (passBits n c bs).2 := by
  induction n with
  | zero => exact id
  | succ n ih =>
    intro c bs h
    unfold passBits
    split
    · refine ih ?_
      by_cases hk : k = c
      · exact .inl (by omega)
      · exact h.imp (fun h => by omega) fun h => List.mem_filter.mpr ⟨h, decide_eq_true hk⟩
    · exact h

theorem Conn.got_iff {c : Conn} {e : Nat} : c.got e = true ↔ e < c.cum ∨ e ∈ c.bits := by
  rw [Conn.got, Bool.or_eq_true, decide_eq_true_iff, List.contains_iff_mem]

/-- Taking an EPSN sets its bit, keeps the others and never lowers CUM (R359). -/
theorem Conn.take_facts (c : Conn) (e : Nat) : (c.take e).got e = true ∧
    (∀ k, c.got k = true → (c.take e).got k = true) ∧ c.cum ≤ (c.take e).cum :=
  ⟨Conn.got_iff.mpr (passBits_keeps 1025 (.inr List.mem_cons_self)),
    fun _ hk => Conn.got_iff.mpr (passBits_keeps 1025 ((Conn.got_iff.mp hk).imp_right (List.mem_cons_of_mem e))),
    passBits_le 1025 _ _⟩

/-- A region that refuses nothing passes each check of R355's step 6. -/
theorem State.regionRefuses_none {s : State} {c : Conn} {p : Packet} (h : s.regionRefuses c p = none) :
    (s.region (p.rkey % 2 ^ 20)).st = 1 ∧ (s.region (p.rkey % 2 ^ 20)).rkey.toNat = p.rkey ∧
    (s.region (p.rkey % 2 ^ 20)).ctx = c.ctx ∧
    p.offset + (if p.op = 4 then p.msgLen else p.dataLen) ≤ (s.region (p.rkey % 2 ^ 20)).length.toNat ∧
    (s.region (p.rkey % 2 ^ 20)).rights.getLsbD (if p.op = 4 then 1 else 0) = true := by
  obtain ⟨hkey, h⟩ := (ite_eq_iff.mp h).resolve_left fun h => nomatch h.2
  obtain ⟨hactive, h⟩ := (ite_eq_iff.mp h).resolve_left fun h => nomatch h.2
  obtain ⟨hrange, -⟩ := (ite_eq_iff.mp h).resolve_left fun h => nomatch h.2
  obtain ⟨-, hrkey, hctx⟩ := not_or.mp hkey |>.imp_right not_or.mp
  obtain ⟨hlen, hright⟩ := not_or.mp hrange
  exact ⟨not_not.mp hactive, not_not.mp hrkey, not_not.mp hctx, Nat.not_lt.mp hlen, not_not.mp hright⟩

/-! #### READ_REQs (R355) -/

/-- The response message that a READ_REQ becomes. -/
def ReadReq.response (r : ReadReq) (first : Nat) : WorkEntry :=
  { op := 5, flags := 0, len := r.bytes, wrId := 0, lkey := r.rkey, rkey := 0, loff := r.offset, roff := 0, imm := 0
    first := first, pkts := (r.bytes + 4031) / 4032, sent := 0, code := Code.ok, done := false, resp := none, lost := 0 }

section Serve
variable {s : State} {n : BitVec 16} {r : ReadReq} {rs : List ReadReq}

theorem exec_readReqServe_served {c : Conn} (hc : c = s.conn n.toNat) (hr : c.reads = r :: rs) (hs : c.st = .established)
    (hp : r.epsn < c.cum) : exec (.readReqServe n) s = .next ((s.setConn n.toNat { c with
      reads := rs, nextPsn := c.nextPsn + (r.response c.nextPsn).pkts, work := c.work ++ [r.response c.nextPsn] }).done
        Code.ok) := by
  subst hc
  show execReadReqServe n s = _
  unfold execReadReqServe
  simp only [hr, hs, Nat.not_le.mpr hp, ne_eq, not_true_eq_false, or_self, if_false]
  rfl

theorem exec_readReqServe_waits (hr : (s.conn n.toNat).reads = r :: rs) (hp : (s.conn n.toNat).cum ≤ r.epsn) :
    exec (.readReqServe n) s = .next s.waits := by
  show execReadReqServe n s = _
  unfold execReadReqServe
  simp only [hr, hp, or_true, if_true]

end Serve

end Sys2Proof.Machine

open Sys2Proof Sys2Proof.Machine

/-- Settles O49: entries and packets by the checks they pass, what has come by CUM and its bits, READ_REQs in their order. -/
theorem transfers : Obligations.Transfers := by
  unfold Obligations.Transfers
  refine ⟨?doorbell, fun s l n tail hp => exec_doorbell_normal hp,
    fun s n c hc hs hq hf ho hl => exec_sendQueueEntry hc hs hq hf ho hl,
    fun s i c w hc hw hok hop => State.takeEntry_passes hc hw hok hop,
    fun s c w raw h => State.entryCheck_ok h,
    fun s n c w hc hw hs ho hm => exec_connPacketSend_leaves hc hw hs ho hm,
    fun s n c w hc hw hs hm => exec_connPacketSend_waits hc hw hs hm,
    fun s i k w c r hc hr hs hok => State.sendPkt_new hc hr hs hok,
    fun c e n h => Conn.mayNew_limits h,
    fun s p hh h1 h5 hn => exec_connPacketReceive_unknown hh h1 h5 hn, ?clear, ?come,
    fun c e => c.take_facts e, fun s c p h => State.regionRefuses_none h, ?serve,
    fun s n r rs hr hp => exec_readReqServe_waits hr hp⟩
  case doorbell =>
    intro s l n tail hl hp hd hs ho
    rw [exec_doorbell_secure hp hl, State.ring_outstanding _ hd hs ho]
  case clear =>
    intro s p e hh h1 h5 hn he hw hg
    have hbelow : ¬ e < (s.conn p.dconn).cum := fun h => ne_true_of_eq_false hg (Conn.got_iff.mpr (.inl h))
    rw [exec_connPacketReceive_window hh h1 h5 hn he hw, if_neg hbelow, if_neg (ne_true_of_eq_false hg)]
    cases s.connOpen p.dconn false e p <;> rfl
  case come =>
    intro s p e hh h1 h5 hn he hw hg
    rw [exec_connPacketReceive_window hh h1 h5 hn he hw, if_pos hg]
    by_cases hb : e < (s.conn p.dconn).cum
    · rw [if_pos hb]
      exact ⟨_, rfl, s.ackNoted_facts _ _ _ _ rfl⟩
    · rw [if_neg hb]
      exact ⟨_, rfl, s.ackNoted_facts _ _ _ _ rfl⟩
  case serve =>
    intro s n r rs c hc hr hs hp
    have hconn := (s.setConn n.toNat { c with
      reads := rs, nextPsn := c.nextPsn + (r.response c.nextPsn).pkts, work := c.work ++ [r.response c.nextPsn] }).conn_done
        Code.ok n.toNat
    rw [State.conn_setConn_same] at hconn
    exact ⟨_, r.response c.nextPsn, exec_readReqServe_served hc hr hs hp, by rw [hconn], by rw [hconn], rfl, rfl, rfl,
      rfl, rfl, by rw [hconn], rfl, rfl⟩

end

/-! ### Key slots (R365, R404–R410, R413, R425)

What the sampling of the source keeps, the halves of a slot under each write, and the connections that INVALIDATE ends;
then each command by the checks of its slot. -/

section
namespace Sys2Proof.Machine

/-! #### The root reseeds (R424, R425) -/

theorem State.setEnt_keeps (s : State) (x : EntSt) : s.Keeps { s with ent := x } := ⟨rfl, rfl, rfl, rfl⟩

theorem State.took_keeps (s : State) (n : Nat) : s.Keeps (s.took n) := ⟨rfl, rfl, rfl, rfl⟩

theorem State.health_keeps (s : State) (o : Option (Fin 8)) (r a : Bool) : s.Keeps (s.health o r a) := by
  have hbit : ∀ (t : State) (b : Bool) (k : Nat), t.Keeps (if b then t.setFld Reg.entHealth k k 1 else t) :=
    fun t b k => .ite (t.setFld_keeps _ _ _ _) (.refl t)
  cases o with
  | none => exact (hbit s r 16).trans (hbit _ a 17)
  | some o => exact (hbit s r o.val).trans (hbit _ a (8 + o.val))

theorem State.dropBlock_keeps (s : State) : s.Keeps s.dropBlock := s.setEnt_keeps _

theorem State.entFail_keeps (s : State) : s.Keeps s.entFail :=
  (((s.setFld_keeps _ _ _ _).trans (State.setFld_keeps _ _ _ _ _)).trans
    ((State.setEnt_keeps _ _).trans (State.dropBlock_keeps _))).trans (State.setFld_keeps _ _ _ _ _)

theorem State.exclCount_keeps (s : State) : s.Keeps s.exclCount :=
  .ite ((s.setEnt_keeps _).trans (State.entFail_keeps _)) (s.setEnt_keeps _)

/-- An oscillator that fails a test is excluded, and the source may fail with it (R428, R430). -/
theorem State.oscFails_keeps (s : State) (o : Fin 8) (r a : Bool) : s.Keeps (s.oscFails o r a) := by
  have hexcl : s.Keeps ((s.health (some o) r a).exclude o.val) :=
    (s.health_keeps _ r a).trans ((State.setFld_keeps _ _ _ _ _).trans (State.dropBlock_keeps _))
  exact .ite ((hexcl.trans (State.post_keeps _ 3 _)).trans (State.exclCount_keeps _)) hexcl

theorem State.combFails_keeps (s : State) (r a : Bool) : s.Keeps (s.combFails r a) := by
  have hdrop : s.Keeps (s.health none r a).dropBlock := (s.health_keeps none r a).trans (State.dropBlock_keeps _)
  exact .ite (hdrop.trans (State.entFail_keeps _)) hdrop

theorem State.sampleOsc_keeps (s : State) (n : Fin 8) (b : Bool) : s.Keeps (s.sampleOsc n b) := by
  have htest : ∀ (t : State) (k : Nat), t.Keeps (t.testBit k b) := fun t k => t.setEnt_keeps _
  refine .ite (.refl s) ((htest s n.val).trans (.ite (State.oscFails_keeps _ n _ _) ?_))
  exact (htest _ 8).trans (.ite (State.combFails_keeps _ _ _) (State.setEnt_keeps _ _))

theorem State.sample_keeps (s : State) : s.Keeps s.sample :=
  (State.Keeps.foldl (fun t n => t.sampleOsc_keeps n _) _ s).trans (State.took_keeps _ 1)

theorem State.condition_keeps (n fuel : Nat) : ∀ s : State, s.Keeps (s.condition n fuel) := by
  induction fuel with
  | zero => exact State.Keeps.refl
  | succ fuel ih => exact fun s => .ite (.refl s) (s.sample_keeps.trans (ih _))

theorem State.reseedRoot_keeps (s : State) : s.Keeps s.reseedRoot := by
  have hblocks : s.Keeps (s.takeBlocks 2) :=
    .ite ((State.condition_keeps 2 _ s).trans (State.setEnt_keeps _ _))
      ((State.condition_keeps 2 _ s).trans (State.setEnt_keeps _ _))
  exact .ite (hblocks.trans (State.setEnt_keeps _ _)) hblocks

/-! #### Halves of a slot -/

section Halves
variable (s : State) {n k : Nat} (h : KeyHalf) (x : Nat)

@[simp] theorem State.active_setActive_same : (s.setActive n h).active n = h := Table.get_put_same _ _ _ _
theorem State.active_setActive_ne (hk : k ≠ n) : (s.setActive n h).active k = s.active k :=
  Table.get_put_ne _ _ _ _ _ (by omega)
@[simp] theorem State.pendingKey_setActive : (s.setActive n h).pendingKey k = s.pendingKey k :=
  Table.get_put_ne _ _ _ _ _ (by omega)
@[simp] theorem State.active_setPendingKey : (s.setPendingKey n h).active k = s.active k :=
  Table.get_put_ne _ _ _ _ _ (by omega)
@[simp] theorem State.pendingKey_setPendingKey_same : (s.setPendingKey n h).pendingKey n = h := Table.get_put_same _ _ _ _
theorem State.pendingKey_setPendingKey_ne (hk : k ≠ n) : (s.setPendingKey n h).pendingKey k = s.pendingKey k :=
  Table.get_put_ne _ _ _ _ _ (by omega)
@[simp] theorem State.active_setPstate : (s.setPstate n x).active k = s.active k := rfl
@[simp] theorem State.pendingKey_setPstate : (s.setPstate n x).pendingKey k = s.pendingKey k := rfl
@[simp] theorem State.pst_setActive : (s.setActive n h).pst k = s.pst k := rfl
@[simp] theorem State.pst_setPendingKey : (s.setPendingKey n h).pst k = s.pst k := rfl
theorem State.pst_setPstate_same : (s.setPstate n x).pst n = x % 4 :=
  (congrArg BitVec.toNat (Table.get_put_same _ _ _ _)).trans (BitVec.toNat_ofNat x 2)
theorem State.pst_setPstate_ne (hk : k ≠ n) : (s.setPstate n x).pst k = s.pst k :=
  congrArg BitVec.toNat (Table.get_put_ne _ _ _ _ _ hk)

end Halves

theorem State.Keeps.active {s t : State} (h : s.Keeps t) (n : Nat) : t.active n = s.active n := by
  unfold State.active
  rw [h.keys]
theorem State.Keeps.pendingKey {s t : State} (h : s.Keeps t) (n : Nat) : t.pendingKey n = s.pendingKey n := by
  unfold State.pendingKey
  rw [h.keys]
theorem State.Keeps.pst {s t : State} (h : s.Keeps t) (n : Nat) : t.pst n = s.pst n := by
  unfold State.pst
  rw [h.pstate]

/-! #### Commands that run, and their end (R408) -/

/-- With no command running and the key store's test passed, a command runs. -/
theorem State.keyCmdRun_runs {s : State} (hr : s.hss.run = none) (hk : s.katOk .keyStore = true) (op n : Nat)
    (k : State → State) : s.keyCmdRun op n k = k s := by
  unfold State.keyCmdRun State.keyOther
  simp only [hr, hk, Bool.false_eq_true, if_false, if_true]

theorem State.keyDone_keeps (s : State) (op n : Nat) (code : Byte) : s.Keeps (s.keyDone op n code) := by
  have hrun : ∀ t : State, t.Keeps { t with hss := { t.hss with run := none } } := fun t => ⟨rfl, rfl, rfl, rfl⟩
  exact ((((s.setReg_keeps _ _).trans (State.setReg_keeps _ _ _)).trans (hrun _)).trans
    ((State.setFld_keeps _ _ _ _ _).trans (State.setFld_keeps _ _ _ _ _))).trans (State.done_keeps _ _)

@[simp] theorem State.keyDone_reply (s : State) (op n : Nat) (code : Byte) : (s.keyDone op n code).reply = ⟨code, 0⟩ :=
  State.done_reply _ code

/-- A PERSIST half is sealed to flash (R413). -/
theorem State.sealSlot_keeps (s : State) (n : Nat) : s.Keeps (s.sealSlot n) :=
  .ite ⟨rfl, rfl, rfl, rfl⟩ (.refl s)

/-! #### The commands -/

section Commands
variable {s : State} {n : Fin 256} (hr : s.hss.run = none)
include hr

section Tested
variable (hk : s.katOk .keyStore = true)
include hk

theorem exec_keyGenerate_never (hn : noGenerate n.val = true) :
    exec (.keyGenerate n) s = .next (s.keyDone 0 n.val Code.attributeDenied) :=
  congrArg Host.Outcome.next ((State.keyCmdRun_runs hr hk 0 n.val _).trans (if_pos (Or.inl hn)))

/-- GENERATE fills an empty PENDING half once the root has reseeded (R409, R425). -/
theorem exec_keyGenerate_fills (hn : noGenerate n.val = false) (ha : s.attrFits n.val = true) (hp : s.pst n.val = 0)
    (he : s.entRunning = true) (hroot : s.reseedRoot.entRunning = true) : exec (.keyGenerate n) s =
    .next ((((s.reseedRoot.setPendingKey n.val ⟨(s.pendingKey n.val).attr ||| 0x80000000, s.reseedRoot.freshKey, 0⟩).draw
      Port.keyStore 8).setPstate n.val 1).keyDone 0 n.val Code.ok) := by
  refine congrArg Host.Outcome.next ((State.keyCmdRun_runs hr hk 0 n.val _).trans ?_)
  simp only [hn, ha, hp, State.entPort_running he, hroot, s.reseedRoot_keeps.pendingKey, not_true_eq_false,
    Bool.false_eq_true, or_self, ne_eq, if_false]

theorem exec_keyVerify_loaded (hp : s.pst n.val = 1) : exec (.keyVerify n) s =
    .next (if s.answers (s.pendingKey n.val) = true then ((s.setPstate n.val 2).took 4).keyDone 1 n.val Code.ok
      else (((s.setPendingKey n.val KeyHalf.zero).setPstate n.val 0).took 4).keyDone 1 n.val Code.signatureFail) := by
  refine congrArg Host.Outcome.next ((State.keyCmdRun_runs hr hk 1 n.val _).trans ?_)
  unfold State.verifySlot
  by_cases ha : s.answers (s.pendingKey n.val) = true
  · simp only [hp, ha, ne_eq, not_true_eq_false, if_false, if_true]
  · simp only [hp, ha, ne_eq, not_true_eq_false, if_false, Bool.false_eq_true]

theorem exec_keyCommit_busy (h : s.pst n.val ≠ 2 ∨ (memSlot n.val = true ∧ (s.active n.val).valid = true)) :
    exec (.keyCommit n) s = .next (s.keyDone 2 n.val Code.busy) :=
  congrArg Host.Outcome.next ((State.keyCmdRun_runs hr hk 2 n.val _).trans (if_pos h))

theorem exec_keyCommit_verified (hp : s.pst n.val = 2) (h : memSlot n.val = false ∨ (s.active n.val).valid = false) :
    exec (.keyCommit n) s = .next ((s.commitSlot n.val).keyDone 2 n.val Code.ok) := by
  refine congrArg Host.Outcome.next ((State.keyCmdRun_runs hr hk 2 n.val _).trans (if_neg ?_))
  rintro (hne | ⟨hmem, hval⟩)
  · exact hne hp
  · rcases h with h | h
    · exact absurd (hmem.symm.trans h) (by decide)
    · exact absurd (hval.symm.trans h) (by decide)

theorem exec_keyDiscard : exec (.keyDiscard n) s =
    .next (((s.setPendingKey n.val KeyHalf.zero).setPstate n.val 0).keyDone 3 n.val Code.ok) :=
  congrArg Host.Outcome.next (State.keyCmdRun_runs hr hk 3 n.val _)

end Tested

/-- INVALIDATE waits for no test (R408, R486). -/
theorem exec_keyInvalidate : exec (.keyInvalidate n) s = .next (if n.val < 32 then s.keyDone 4 n.val Code.attributeDenied
    else (s.invalidateSlot n.val).keyDone 4 n.val Code.ok) := by
  show execKeyInvalidate n s = _
  unfold execKeyInvalidate State.keyOther
  simp only [hr, Bool.false_eq_true, if_false]

end Commands

/-- What GENERATE leaves of the slots. -/
theorem State.generated_facts (s : State) (n : Nat) (h : KeyHalf) {t : State}
    (ht : t = (((s.reseedRoot.setPendingKey n h).draw Port.keyStore 8).setPstate n 1).keyDone 0 n Code.ok) :
    t.pendingKey n = h ∧ t.pst n = 1 ∧ t.active n = s.active n ∧
    (∀ k, k ≠ n → t.active k = s.active k ∧ t.pendingKey k = s.pendingKey k ∧ t.pst k = s.pst k) ∧ t.mem = s.mem ∧
    t.reply = ⟨Code.ok, 0⟩ := by
  have hroot := s.reseedRoot_keeps
  have hdraw := (s.reseedRoot.setPendingKey n h).draw_keeps Port.keyStore 8
  have hend := (((s.reseedRoot.setPendingKey n h).draw Port.keyStore 8).setPstate n 1).keyDone_keeps 0 n Code.ok
  rw [← ht] at hend
  have hactive : ∀ k, t.active k = s.active k := fun k => by
    rw [hend.active, State.active_setPstate, hdraw.active, State.active_setPendingKey, hroot.active]
  refine ⟨?_, ?_, hactive n, fun k hk => ⟨hactive k, ?_, ?_⟩, ?_, by rw [ht, State.keyDone_reply]⟩
  · rw [hend.pendingKey, State.pendingKey_setPstate, hdraw.pendingKey, State.pendingKey_setPendingKey_same]
  · rw [hend.pst, State.pst_setPstate_same]
  · rw [hend.pendingKey, State.pendingKey_setPstate, hdraw.pendingKey, State.pendingKey_setPendingKey_ne _ _ hk,
      hroot.pendingKey]
  · rw [hend.pst, State.pst_setPstate_ne _ _ hk, hdraw.pst, State.pst_setPendingKey, hroot.pst]
  · rw [hend.mem, State.setPstate_mem, hdraw.mem, State.setPendingKey_mem, hroot.mem]

/-- What COMMIT leaves of the slots. -/
theorem State.committed_facts (s : State) (n : Nat) {t : State} (ht : t = (s.commitSlot n).keyDone 2 n Code.ok) :
    t.active n = s.pendingKey n ∧ t.pendingKey n = KeyHalf.zero ∧ t.pst n = 0 ∧
    (∀ k, k ≠ n → t.active k = s.active k ∧ t.pendingKey k = s.pendingKey k ∧ t.pst k = s.pst k) ∧ t.mem = s.mem ∧
    t.reply = ⟨Code.ok, 0⟩ := by
  have hend := (State.sealSlot_keeps (((s.setActive n (s.pendingKey n)).setPendingKey n KeyHalf.zero).setPstate n 0) n).trans
    (State.keyDone_keeps _ 2 n Code.ok)
  rw [← State.commitSlot, ← ht] at hend
  refine ⟨?_, ?_, ?_, fun k hk => ⟨?_, ?_, ?_⟩, ?_, by rw [ht, State.keyDone_reply]⟩
  · rw [hend.active, State.active_setPstate, State.active_setPendingKey, State.active_setActive_same]
  · rw [hend.pendingKey, State.pendingKey_setPstate, State.pendingKey_setPendingKey_same]
  · rw [hend.pst, State.pst_setPstate_same]
  · rw [hend.active, State.active_setPstate, State.active_setPendingKey, State.active_setActive_ne _ _ hk]
  · rw [hend.pendingKey, State.pendingKey_setPstate, State.pendingKey_setPendingKey_ne _ _ hk, State.pendingKey_setActive]
  · rw [hend.pst, State.pst_setPstate_ne _ _ hk, State.pst_setPendingKey, State.pst_setActive]
  · rw [hend.mem, State.setPstate_mem, State.setPendingKey_mem, State.setActive_mem]

/-- What DISCARD leaves of the slots. -/
theorem State.discarded_facts (s : State) (n : Nat) {t : State}
    (ht : t = ((s.setPendingKey n KeyHalf.zero).setPstate n 0).keyDone 3 n Code.ok) :
    t.pendingKey n = KeyHalf.zero ∧ t.pst n = 0 ∧ (∀ k, t.active k = s.active k) ∧
    (∀ k, k ≠ n → t.pendingKey k = s.pendingKey k) ∧ t.mem = s.mem ∧ t.reply = ⟨Code.ok, 0⟩ := by
  have hend := ((s.setPendingKey n KeyHalf.zero).setPstate n 0).keyDone_keeps 3 n Code.ok
  rw [← ht] at hend
  refine ⟨?_, ?_, fun k => ?_, fun k hk => ?_, ?_, by rw [ht, State.keyDone_reply]⟩
  · rw [hend.pendingKey, State.pendingKey_setPstate, State.pendingKey_setPendingKey_same]
  · rw [hend.pst, State.pst_setPstate_same]
  · rw [hend.active, State.active_setPstate, State.active_setPendingKey]
  · rw [hend.pendingKey, State.pendingKey_setPstate, State.pendingKey_setPendingKey_ne _ _ hk]
  · rw [hend.mem, State.setPstate_mem, State.setPendingKey_mem]

/-! #### Connections that end with a slot (R365) -/

/-- What an end of connection i does beside its record: completions, regions let go, the event. -/
theorem State.endConnAt_shape (s : State) (i k : Nat) (a b : Byte) : ∃ u c,
    s.endConnAt i k a b = u.setConn i c ∧ s.Keeps u ∧ c.st = .ended :=
  ⟨_, _, rfl, (s.completeAll_keeps i k a b).trans (State.post_keeps _ 1 _), rfl⟩

/-- From s to t no connection changed but by ending, those of `is` have ended, and memory and keys are as they were. -/
def State.EndsOnly (s t : State) (is : List Nat) : Prop :=
  (t.mem = s.mem ∧ t.keys = s.keys ∧ t.pstate = s.pstate) ∧
  (∀ i, t.conn i = s.conn i ∨ (t.conn i).st = .ended) ∧ ∀ i, i ∈ is → (t.conn i).st = .ended

theorem State.endConn_endsOnly (s : State) (i : Nat) (a b : Byte) : s.EndsOnly (s.endConn i a b) [i] := by
  obtain ⟨u, c, heq, hu, hst⟩ := s.endConnAt_shape i 0 a b
  have hown : ((s.endConn i a b).conn i).st = .ended := by rw [State.endConn, heq, State.conn_setConn_same, hst]
  refine ⟨?_, fun j => ?_, fun j hj => by rwa [List.mem_singleton.mp hj]⟩
  · rw [State.endConn, heq]
    exact ⟨hu.mem, hu.keys, hu.pstate⟩
  · by_cases hj : j = i
    · exact .inr (by rwa [hj])
    · exact .inl (by rw [State.endConn, heq, State.conn_setConn_ne _ _ hj, hu.conn])

/-- An end after others. -/
theorem State.EndsOnly.trans {s t u : State} {is js : List Nat} (h : s.EndsOnly t is) (h' : t.EndsOnly u js) :
    s.EndsOnly u (is ++ js) := by
  obtain ⟨⟨hmem, hkeys, hpst⟩, hkept, hended⟩ := h
  obtain ⟨⟨hmem', hkeys', hpst'⟩, hkept', hended'⟩ := h'
  have hstays : ∀ i, (t.conn i).st = .ended → (u.conn i).st = .ended := fun i hi =>
    (hkept' i).elim (fun h => by rw [h, hi]) id
  refine ⟨⟨hmem'.trans hmem, hkeys'.trans hkeys, hpst'.trans hpst⟩, fun i => ?_, fun i hi => ?_⟩
  · rcases hkept i with h | h
    · exact (hkept' i).imp_left fun h' => h'.trans h
    · exact .inr (hstays i h)
  · rcases List.mem_append.mp hi with h | h
    · exact hstays i (hended i h)
    · exact hended' i h

/-- Every connection of a list is ended. -/
theorem State.endList_endsOnly (a b : Byte) (is : List Nat) : ∀ s : State,
    s.EndsOnly (is.foldl (fun t i => t.endConn i a b) s) is := by
  induction is with
  | nil => exact fun s => ⟨⟨rfl, rfl, rfl⟩, fun i => .inl rfl, fun i h => absurd h List.not_mem_nil⟩
  | cons j js ih => exact fun s => (s.endConn_endsOnly j a b).trans (ih (s.endConn j a b))

/-- A key whose value is not what an unlisted key reads is listed with it. -/
theorem Table.mem_of_get {α : Type} {d : Nat → α} {t : Table α} {k : Nat} (h : Table.get d t k ≠ d k) :
    (k, Table.get d t k) ∈ t := by
  induction t with
  | nil => exact absurd rfl h
  | cons e t ih =>
    obtain ⟨j, v⟩ := e
    unfold Table.get at h ⊢
    by_cases hj : j = k
    · rw [if_pos hj, hj]
      exact List.mem_cons_self
    · rw [if_neg hj] at h ⊢
      exact List.mem_cons_of_mem _ (ih h)

/-- A connection whose record satisfies p, and is not FREE, is among those that p names. -/
theorem State.mem_connsWhere {s : State} {p : Conn → Bool} {i : Nat} (hp : p (s.conn i) = true)
    (hf : (s.conn i).st ≠ .free) : i ∈ s.connsWhere p := by
  have hlisted : (i, s.conn i) ∈ s.conns :=
    Table.mem_of_get (d := fun _ => Conn.zero) fun h => hf (congrArg Conn.st h)
  exact List.mem_map.mpr ⟨_, List.mem_filter.mpr ⟨hlisted, hp⟩, rfl⟩

/-- After endConns each connection of the context is FREE or ENDED (R365). -/
theorem State.endConns_facts (s : State) (c : Nat) : (s.endConns c).mem = s.mem ∧ (s.endConns c).keys = s.keys ∧
    (s.endConns c).pstate = s.pstate ∧ (∀ i, ((s.endConns c).conn i).ctx.val = c →
      ((s.endConns c).conn i).st = .free ∨ ((s.endConns c).conn i).st = .ended) := by
  obtain ⟨⟨hmem, hkeys, hpst⟩, hkept, hended⟩ := State.endList_endsOnly Code.keyRevoked Code.keyRevoked
    (s.connsWhere (fun x => x.ctx.val = c ∧ x.st ≠ .free ∧ x.st ≠ .ended)) s
  rw [← State.endConns] at hmem hkeys hpst hkept hended
  refine ⟨hmem, hkeys, hpst, fun i hi => ?_⟩
  rcases hkept i with hsame | hend
  · by_cases hf : (s.conn i).st = .free
    · exact .inl (by rw [hsame, hf])
    by_cases he : (s.conn i).st = .ended
    · exact .inr (by rw [hsame, he])
    · rw [hsame] at hi
      exact .inr (hended i (State.mem_connsWhere (decide_eq_true ⟨hi, hf, he⟩) hf))
  · exact .inr hend

/-- Beside the slot, INVALIDATE erases the sealed copy, and ends connections (R365, R413). -/
theorem State.invalidateSlot_facts (s : State) (n : Nat) : (s.invalidateSlot n).mem = (s.zeroSlot n).mem ∧
    (s.invalidateSlot n).keys = (s.zeroSlot n).keys ∧ (s.invalidateSlot n).pstate = (s.zeroSlot n).pstate ∧
    (memSlot n = true → ∀ i, ((s.invalidateSlot n).conn i).ctx.val = (n - 32) / 14 →
      ((s.invalidateSlot n).conn i).st = .free ∨ ((s.invalidateSlot n).conn i).st = .ended) := by
  have hboot : ∀ (t : State) (b : Boot), t.Keeps { t with boot := b } := fun t b => ⟨rfl, rfl, rfl, rfl⟩
  have herased := hboot (s.zeroSlot n) { (s.zeroSlot n).boot with sealed := (s.zeroSlot n).boot.sealed.del n }
  unfold State.invalidateSlot
  dsimp only
  by_cases hm : memSlot n = true
  · rw [if_pos hm]
    obtain ⟨hmem, hkeys, hpst, hconn⟩ := State.endConns_facts _ ((n - 32) / 14)
    exact ⟨hmem.trans herased.mem, hkeys.trans herased.keys, hpst.trans herased.pstate, fun _ => hconn⟩
  · rw [if_neg hm]
    exact ⟨herased.mem, herased.keys, herased.pstate, fun h => absurd h hm⟩

/-- What INVALIDATE leaves of the slots and of the connections (R365, R409). -/
theorem State.invalidated_facts (s : State) (n : Nat) {t : State} (ht : t = (s.invalidateSlot n).keyDone 4 n Code.ok) :
    t.active n = KeyHalf.zero ∧ t.pendingKey n = KeyHalf.zero ∧ t.pst n = 0 ∧
    (∀ k, k ≠ n → t.active k = s.active k ∧ t.pendingKey k = s.pendingKey k) ∧
    (memSlot n = true → ∀ i, (t.conn i).ctx.val = (n - 32) / 14 → (t.conn i).st = .free ∨ (t.conn i).st = .ended) ∧
    t.mem = s.mem ∧ t.reply = ⟨Code.ok, 0⟩ := by
  have hend := (s.invalidateSlot n).keyDone_keeps 4 n Code.ok
  rw [← ht] at hend
  obtain ⟨hmem, hkeys, hpst, hconn⟩ := s.invalidateSlot_facts n
  have hactive : ∀ k, t.active k = (s.zeroSlot n).active k := fun k => by
    rw [hend.active, State.active, hkeys]
    rfl
  have hpending : ∀ k, t.pendingKey k = (s.zeroSlot n).pendingKey k := fun k => by
    rw [hend.pendingKey, State.pendingKey, hkeys]
    rfl
  have hpstate : t.pst n = (s.zeroSlot n).pst n := by
    rw [hend.pst, State.pst, hpst]
    rfl
  refine ⟨?_, ?_, ?_, fun k hk => ⟨?_, ?_⟩, fun hm i => ?_, ?_, by rw [ht, State.keyDone_reply]⟩
  · rw [hactive, State.zeroSlot, State.active_setPstate, State.active_setPendingKey, State.active_setActive_same]
  · rw [hpending, State.zeroSlot, State.pendingKey_setPstate, State.pendingKey_setPendingKey_same]
  · rw [hpstate, State.zeroSlot, State.pst_setPstate_same]
  · rw [hactive, State.zeroSlot, State.active_setPstate, State.active_setPendingKey, State.active_setActive_ne _ _ hk]
  · rw [hpending, State.zeroSlot, State.pendingKey_setPstate, State.pendingKey_setPendingKey_ne _ _ hk,
      State.pendingKey_setActive]
  · rw [hend.conn]
    exact hconn hm i
  · rw [hend.mem, hmem, State.zeroSlot, State.setPstate_mem, State.setPendingKey_mem, State.setActive_mem]

/-! #### The check of a use (R407) -/

/-- A use passes only if every one of the checks does. -/
theorem State.keyUse_ok {s : State} {n u : Nat} {m : Master} {c : Option Nat} (h : s.keyUse n u m c = Code.ok) :
    bit (s.active n).attr 31 = true ∧ bit (s.active n).attr m.bitNo = true ∧
    (bit (s.active n).attr 25 = true → c = some (bits (s.active n).attr 24 21)) ∧
    bit (s.active n).attr (16 + s.lc) = true ∧ bit (s.active n).attr u = true := by
  obtain ⟨hvalid, h⟩ := (ite_eq_iff.mp h).resolve_left fun h => absurd h.2 (by decide)
  obtain ⟨hmaster, h⟩ := (ite_eq_iff.mp h).resolve_left fun h => absurd h.2 (by decide)
  obtain ⟨hctx, h⟩ := (ite_eq_iff.mp h).resolve_left fun h => absurd h.2 (by decide)
  obtain ⟨hstate, h⟩ := (ite_eq_iff.mp h).resolve_left fun h => absurd h.2 (by decide)
  obtain ⟨huse, -⟩ := (ite_eq_iff.mp h).resolve_left fun h => absurd h.2 (by decide)
  exact ⟨not_not.mp hvalid, not_not.mp hmaster, fun hb => not_not.mp fun hc => hctx ⟨hb, hc⟩, not_not.mp hstate,
    not_not.mp huse⟩

end Sys2Proof.Machine

open Sys2Proof Sys2Proof.Machine

/-- Settles O53: each command by the checks of its slot, what it leaves by the half it writes, a use by its checks. -/
theorem keySlots : Obligations.KeySlots := by
  unfold Obligations.KeySlots
  exact ⟨fun s n hr hk hn ha hp he hroot => ⟨_, exec_keyGenerate_fills hr hk hn ha hp he hroot,
      s.generated_facts n.val _ rfl⟩,
    fun s n hr hk hn => exec_keyGenerate_never hr hk hn,
    fun s n hr hk hp => exec_keyVerify_loaded hr hk hp,
    fun s k h => if_pos h,
    fun s n hr hk hp h => ⟨_, exec_keyCommit_verified hr hk hp h, s.committed_facts n.val rfl⟩,
    fun s n hr hk h => exec_keyCommit_busy hr hk h,
    fun s n hr hk => ⟨_, exec_keyDiscard hr hk, s.discarded_facts n.val rfl⟩,
    fun s n hr hn => ⟨_, (exec_keyInvalidate hr).trans (congrArg Host.Outcome.next (if_neg (Nat.not_lt.mpr hn))),
      s.invalidated_facts n.val rfl⟩,
    fun s n hr hn => (exec_keyInvalidate hr).trans (congrArg Host.Outcome.next (if_pos hn)),
    fun s n u m c h => State.keyUse_ok h⟩

end
